-- ==== Sys2Proof/Word.lean ====
section
/-! DEFINITION. The plain data every other file is written in: bytes, byte strings, and finite tables kept as lists
of (number, value) pairs with strictly rising numbers. The operations on tables stand in Machine/Ops.lean. -/

namespace Sys2Proof

/-- One byte. -/
abbrev Byte := BitVec 8

/-- A string of bytes, lowest address first. -/
abbrev Bytes := List (BitVec 8)

/-- A 64-bit word. -/
abbrev Word := BitVec 64

/-- A 32-byte value whose byte order a named standard fixes: a fingerprint, a key or a digest. Its first byte is
the most significant one. -/
abbrev Word256 := BitVec 256

/-- A finite table: entries in strictly rising order of their number, so that equal tables are equal data. -/
abbrev Tab (α : Type) := List (Nat × α)

end Sys2Proof
end

