-- ==== Sys2Proof/Types.lean ====
section
/-! DEFINITION. The types of the operands that commands carry: who writes a register, what a host memory read or a
drive read brought, and what a message holds. They describe what arrives at the block from outside. -/

namespace Sys2Proof

/-- The two halves of the module (R13). -/
inductive Half where
  | host | media
  deriving DecidableEq, Repr

/-- Who makes a register access (R747, R752, R774, R778): the PF of an endpoint through BAR0, a virtual function (by its
function number of R54) through its window, the I3C port of a half, a FEATURE_SET or LOG_READ of a function, a
configuration request to a function, or the Tarn cores of a half. -/
inductive Path where
  | pf (e : Nat)
  | vf (fn : Nat)
  | i3c (h : Half)
  | feature (fn : Nat)
  | config (fn : Nat)
  | firmware (h : Half)
  deriving DecidableEq, Repr

/-- The outcome of one duplicated cipher computation (R222, R223): both copies agree at once, agree when computed
again, or disagree twice. -/
inductive Cmp where
  | agree | recovered | failed
  deriving DecidableEq, Repr

/-- The arbiters of R43's table. -/
inductive ArbId where
  | ringFetch
  | sliceDispatch
  | epRead (e : Nat)
  | epWrite (e : Nat)
  | schTx (h : Half)
  | snowbridge
  | moraine
  | drive (port : Nat)
  | hbm (h : Half) (stack : Nat)
  deriving DecidableEq, Repr

/-- The class D work that waits at an arbiter (R287, R424): a rebuild job at level 0 or at level 1, the stripes of a SCRUB activity, a destage,
or anything else. -/
inductive WorkD where
  | rebuild0 | rebuild1 | scrub | destage | other
  deriving DecidableEq, Repr

/-- The requests that wait at an arbiter, each a class and a function, and what those of class D are (R43, R424). -/
structure Requests where
  list : List (Nat × Nat)
  work : List WorkD
  deriving DecidableEq, Repr

/-- Where a drive stands behind a root port: the sub-link, and the downstream port of each switch on the way (R604). -/
structure DrivePlace where
  sub : Nat
  path : List Nat
  deriving DecidableEq, Repr

/-- What a slice met while it ran a write: the data read from host memory (`none`: the read failed), the slice the ring
engine chose, the payload the compressor coded for each chunk, the outcome of each duplicated encryption, what each
read of a lend line brought (`none`: the read failed), and for each object decoded whether the slice, and then a second one, rejects what a
sound slice would accept (R179). The compressor's coding and the choice of a slice are the
device's own (R174): every value is possible. -/
structure SliceRun where
  data : Option Bytes
  slice : Nat
  codes : List Bytes
  cmps : List Cmp
  lend : List (Option Bytes)
  rejects : List (Bool × Bool)
  deriving DecidableEq, Repr

/-- The purpose of a non-posted request of an endpoint (R578). -/
inductive Purpose where
  | packetFetch (order : Nat)
  | dataRead (q tag : Nat)
  | lendRead (cls : Nat)
  | calvingDesc (stream : Nat)
  | floe (ch : Nat)
  deriving DecidableEq, Repr

/-- A Snowbridge or Schrund link: each names the end that receives or transmits. -/
inductive LinkEnd where
  | sch (h : Half)
  | snow
  deriving DecidableEq, Repr

/-- A configuration block of a drive (R615). -/
structure CfgBlock where
  kind : Nat
  member : Nat
  pairId : Nat
  epoch : Nat
  geometry : Nat
  pool : Nat
  nguid : Nat
  witnesses : List Nat
  relocs : List (Nat × Option Nat)
  level : Nat
  row : Nat
  members : List (Nat × Nat)
  window : Nat
  deriving DecidableEq, Repr

/-- The contents of a witness block (R532). -/
structure WBlock where
  wstate : Nat
  pairId : Nat
  epoch : Nat
  time : Nat
  deriving DecidableEq, Repr

/-- What a drive reports when it is enumerated (R606, R610, R622): the first requirement of R606 that fails (0 for none),
its namespace, its controller's abilities, its configuration block, the reservation keys registered on it, and its
witness block. -/
structure DriveFacts where
  failed : Nat
  nguid : Nat
  lbads : Nat
  blocks : Nat
  dsm : Bool
  wrr : Bool
  abortLimit : Nat
  block : Option CfgBlock
  keys : List Nat
  witness : Option WBlock
  deriving DecidableEq, Repr

/-- What reaches a Floe channel for a MOVE (R652): the instruction itself, or the data that a granted burst read. -/
inductive MoveIn where
  | instr (bytes : Bytes)
  | data (bytes : Bytes)
  deriving DecidableEq, Repr

/-- A message of the Schrund or the Snowbridge (R250, R251, R507, R508): the queue pair and tag (4,294,967,295 and 0 for
work of no queue), REF and NSID of its header, the operands of its body in the order its rule names them, and bytes. -/
structure Msg where
  q : Nat
  tag : Nat
  ref : Nat
  nsid : Nat
  args : List Nat
  data : Bytes
  deriving DecidableEq, Repr

/-- How a slice fared with one stored object it was given to read (R179, R223): the slice, the outcome of the duplicated
decryption, and whether the slice rejects what a sound slice would accept; then the same of the second slice. -/
structure ReadRun where
  slice : Nat
  cmp : Cmp
  reject : Bool
  slice2 : Nat
  cmp2 : Cmp
  reject2 : Bool
  deriving DecidableEq, Repr

/-- What a start-up meets (R716 to R727, R803): which halves' cold resets end, SIDE_SEL and POOL_SLOT as each half samples them, whether each
fuse load passes its parity checks, whether the two halves' fuses agree, whether each half's HBM trains, the lanes that lock in each
direction, and whether the noise source passes its start-up test. Each pair stands for the host half, then the media half. -/
structure StartFacts where
  ends : Bool × Bool
  side : Nat × Nat
  slot : Nat × Nat
  parity : Bool × Bool
  agree : Bool
  hbm : Bool × Bool
  h2m : List Nat
  m2h : List Nat
  noise : Bool
  deriving DecidableEq, Repr

end Sys2Proof
end

