-- ==== Sys2Proof/Syntax.lean ====
section
/-! DEFINITION. The commands the block takes, one constructor per row of the table. Who sends them and what their
operands carry is said in `Types.lean`; a command of a queue names its queue pair `q` and its tag. -/

namespace Sys2Proof

/-- A command to the block. -/
inductive Instr where
  /-- REGISTER_WRITE (R746): A software write to a register field that has no row of its own stores the value
  according to the field's access code. -/
  | registerWrite (path : Path) (off size value : Nat)
  /-- DOORBELL_WRITE (R66): A 4, 8 or 16-byte write to a queue pair's doorbell slot updates the accepted submission
  tail and/or completion head. -/
  | doorbellWrite (fn off size value : Nat)
  /-- RING_FETCH_GRANT (R814): The module-wide ring fetch arbiter grants one packet fetch to a queue whose tail is
  ahead of its head. -/
  | ringFetchGrant (pick : Nat)
  /-- PACKET_FETCHED (R89): A fetched packet's data arrives and the device runs checks 1 to 7, completing the packet
  with the first failing status or starting its execution. -/
  | packetFetched (order : Nat) (pkt : Option (BitVec 512)) (lists : List (Option Bytes)) (run : SliceRun)
  /-- ARBITER_GRANT (R43): An arbiter makes one grant of its frame of 8, reserving grant 0 for class A and otherwise
  using class and tenant deficit round robin. -/
  | arbiterGrant (arb : ArbId) (waiting : Requests)
  /-- COALESCING_TIMEOUT (R96): The coalescing time passes since the first unsignalled completion and the queue's
  vector is signalled. -/
  | coalescingTimeout (q : Nat)
  /-- NOP (R83): NOP completes with RESULT zero and does nothing. -/
  | nop (q tag : Nat)
  /-- WRITE (R27): WRITE chunks, fingerprints, deduplicates, compresses and encrypts the data and forms a Firn
  record that completes when on the medium. -/
  | write (q tag : Nat) (run : SliceRun)
  /-- READ (R32): READ resolves blocks through the extent map, fetches stored objects from the Firn cache or drives,
  decrypts, decodes and writes them to host memory. -/
  | read (q tag : Nat)
  /-- WRITE_ZEROES (R84): WRITE_ZEROES stores a reference to the zero chunk for each block. -/
  | writeZeroes (q tag : Nat)
  /-- DEALLOCATE (R84): DEALLOCATE removes the blocks from the extent map so that they read as zeros. -/
  | deallocate (q tag : Nat)
  /-- COMPARE (R85): COMPARE reads the blocks and completes with 01h/0Eh on any difference from the buffer. -/
  | compare (q tag : Nat) (data : Option Bytes)
  /-- COMPARE_AND_WRITE (R85): COMPARE_AND_WRITE atomically compares committed blocks with the first half of the
  buffer and writes the second half only on a match. -/
  | compareAndWrite (q tag : Nat) (run : SliceRun)
  /-- VERIFY (R84): VERIFY reads and checks the blocks without transferring data to the host. -/
  | verify (q tag : Nat)
  /-- COPY (R474): COPY binds destination blocks to the chunks of source blocks, taking one reference per mapped
  block, with no data movement. -/
  | copy (q tag : Nat)
  /-- GROUP_OPEN (R313): GROUP_OPEN opens a freeze group under a tag with an anchor namespace and starts its 2 s
  limit. -/
  | groupOpen (q tag : Nat)
  /-- GROUP_SEAL (R324): GROUP_SEAL moves the group to SEALING and starts the commit procedure. -/
  | groupSeal (q tag : Nat)
  /-- GROUP_DISCARD (R321): GROUP_DISCARD discards an open group, or a sealing group before its COMMIT record is
  assigned. -/
  | groupDiscard (q tag : Nat)
  /-- GROUP_QUERY (R313): GROUP_QUERY returns the state, failure flag, member count and payload of a group. -/
  | groupQuery (q tag : Nat)
  /-- SNAP_CREATE (R467): SNAP_CREATE creates a labelled snapshot of a namespace through a MAP record and returns
  its ID. -/
  | snapCreate (q tag : Nat)
  /-- SNAP_DELETE (R469): SNAP_DELETE removes a snapshot from view, or hides it while clones depend on it. -/
  | snapDelete (q tag : Nat)
  /-- CLONE_CREATE (R472): CLONE_CREATE makes a writable namespace from a snapshot or the live view and attaches it
  to the issuing function. -/
  | cloneCreate (q tag : Nat)
  /-- CALVE_OPEN (R481): CALVE_OPEN opens a sending or receiving Calving stream. -/
  | calveOpen (q tag : Nat)
  /-- CALVE_CLOSE (R491): CALVE_CLOSE stops a stream at the next message boundary and releases its pins and ring
  binding. -/
  | calveClose (q tag : Nat)
  /-- CALVE_APPLY (R487): CALVE_APPLY checks, authenticates and decodes one Calving message and applies it to a
  replica namespace. -/
  | calveApply (q tag : Nat) (run : SliceRun)
  /-- CALVE_SAVE (R215): CALVE_SAVE detaches a stream's GCM context at the next 16-byte boundary and writes it to a
  buffer. -/
  | calveSave (q tag : Nat)
  /-- CALVE_RESTORE (R217): CALVE_RESTORE checks a saved GCM context and resumes the stream from it. -/
  | calveRestore (q tag : Nat) (data : Option Bytes) (slice : Nat) (cmp : Cmp)
  /-- IDENTIFY (R753): IDENTIFY fills a 4,096-byte device, namespace or function structure. -/
  | identify (q tag : Nat)
  /-- LOG_READ (R749): LOG_READ returns whole entries of a log page or a media-half register. -/
  | logRead (q tag : Nat)
  /-- FEATURE_GET (R87): FEATURE_GET returns the value of a feature into RESULT. -/
  | featureGet (q tag : Nat)
  /-- CLASS_WEIGHTS (R87): FEATURE_SET 01h sets the module's class weights WB, WC and WD. -/
  | classWeights (q tag : Nat)
  /-- TENANT_WEIGHT (R87): FEATURE_SET 02h sets the per-tenant weight of a function of the PF's endpoint. -/
  | tenantWeight (q tag : Nat)
  /-- CLASS_A_EVENTS (R87): FEATURE_SET 03h enables or disables CLASS_A_EXCEEDED events for the function. -/
  | classAEvents (q tag : Nat)
  /-- POOL_GEOMETRY (R348): FEATURE_SET 20h defines a pool's geometry and rotation seed on both twins. -/
  | poolGeometry (q tag : Nat)
  /-- WITNESS_SET (R618): FEATURE_SET 21h designates or clears one witness drive and writes its witness block. -/
  | witnessSet (q tag : Nat) (peerPorts : List Nat)
  /-- ENUM_WINDOW (R624): FEATURE_SET 22h writes the start-up enumeration window into pool configuration blocks. -/
  | enumWindow (q tag : Nat)
  /-- MEDIA_REG (R752): FEATURE_SET 30h writes one media-half register. -/
  | mediaReg (q tag : Nat)
  /-- FW_DOWNLOAD (R541): FW_DOWNLOAD stages a segment of a firmware image in host-half HBM. -/
  | fwDownload (q tag : Nat) (data : Option Bytes)
  /-- FW_COMMIT (R542): FW_COMMIT checks and stores the staged image and/or activates the inactive bank. -/
  | fwCommit (q tag : Nat)
  /-- QUEUE_CREATE (R816): QUEUE_CREATE checks and creates an I/O queue pair with its rings, class, vector and
  coalescing. -/
  | queueCreate (q tag : Nat)
  /-- QUEUE_DELETE (R100): QUEUE_DELETE performs a queue reset and then frees the queue pair. -/
  | queueDelete (q tag : Nat)
  /-- QUEUE_RESET (R97): QUEUE_RESET stops fetching, drops or lets take effect the fetched commands, discards the
  queue's groups and rewinds the rings. -/
  | queueReset (q tag : Nat)
  /-- QUEUE_RESET_DONE (R99): Once every command that took effect is on the medium, the QUEUE_RESET completion is
  posted and the queue accepts doorbells again. -/
  | queueResetDone (q : Nat)
  /-- KEY_LOAD (R201): KEY_LOAD unwraps a key blob and places the key in a slot. -/
  | keyLoad (q tag : Nat) (data : Option Bytes) (slice : Nat) (cmp : Cmp)
  /-- KEY_ERASE (R228): KEY_ERASE stops accepting commands for a slot and waits for its commands to finish. -/
  | keyErase (q tag : Nat)
  /-- KEY_ERASE_DRAINED (R228): When the commands on the slot have finished, the slot and every derived copy are
  zeroed and read back. -/
  | keyEraseDrained (slot : Nat)
  /-- NS_CREATE (R457): NS_MANAGE CREATE makes an empty namespace with the lowest free NSID. -/
  | nsCreate (q tag : Nat)
  /-- NS_DELETE (R475): NS_MANAGE DELETE removes a namespace and starts its reclaim. -/
  | nsDelete (q tag : Nat)
  /-- NS_ATTACH (R458): NS_MANAGE ATTACH attaches a function, the first making it key owner. -/
  | nsAttach (q tag : Nat)
  /-- NS_DETACH (R456): NS_MANAGE DETACH detaches a function from a namespace. -/
  | nsDetach (q tag : Nat)
  /-- NS_SET_PACK (R122): NS_MANAGE SET_PACK changes PACK_ATTR for chunks stored afterwards. -/
  | nsSetPack (q tag : Nat) (run : SliceRun)
  /-- NS_RESIZE (R460): NS_MANAGE RESIZE changes the size, unbinding blocks beyond a smaller size in the live view. -/
  | nsResize (q tag : Nat)
  /-- NS_SET_FLAGS (R459): NS_MANAGE SET_FLAGS sets the REPLICA and READ_ONLY flags. -/
  | nsSetFlags (q tag : Nat)
  /-- EVENT_RING_SET (R101): EVENT_RING_SET sets the function's asynchronous event ring base, depth and vector. -/
  | eventRingSet (q tag : Nat)
  /-- QPOOL_ASSIGN (R103): QPOOL_ASSIGN gives, takes back or transfers blocks of queue pairs, all or none. -/
  | qpoolAssign (q tag : Nat)
  /-- MAINT_REQUEST (R429): MAINT_REQUEST asks the ledger to admit a maintenance activity against the margins. -/
  | maintRequest (q tag : Nat)
  /-- MAINT_RELEASE (R437): MAINT_RELEASE frees an activity's tickets and ends it. -/
  | maintRelease (q tag : Nat) (good : Bool)
  /-- DIVERGENCE_RESOLVE (R385): DIVERGENCE_RESOLVE settles a divergent stripe by trusting data, rebuilding or
  abandoning it. -/
  | divergenceResolve (q tag : Nat)
  /-- RELEASE_MEMBER (R441): DRIVE_SERVICE RELEASE_MEMBER takes a member out of service toward HELD. -/
  | releaseMember (q tag : Nat)
  /-- RETURN_MEMBER (R441): DRIVE_SERVICE RETURN_MEMBER checks a HELD drive and returns it to its former state. -/
  | returnMember (q tag : Nat) (facts : DriveFacts) (good : Bool)
  /-- BIND (R444): DRIVE_SERVICE BIND checks a drive and binds it to a member number as FILLING. -/
  | bind (q tag : Nat) (facts : DriveFacts)
  /-- FW_STAGE (R442): DRIVE_SERVICE FW_STAGE downloads drive firmware bytes to the drive. -/
  | fwStage (q tag : Nat) (data : Option Bytes)
  /-- FW_ACTIVATE (R443): DRIVE_SERVICE FW_ACTIVATE holds the member and commits drive firmware for a slot. -/
  | fwActivate (q tag : Nat)
  /-- FW_ACTIVATE_READY (R443): The drive becomes ready, or 60 s pass, and its configuration block and trailers are
  checked to return or fail the member. -/
  | fwActivateReady (pool member : Nat) (ready good : Bool)
  /-- ROLE_SWAP (R538): ROLE_SWAP moves home ownership of named pools to the named twin. -/
  | roleSwap (q tag : Nat)
  /-- DEVICE_ZEROIZE (R230): DEVICE_ZEROIZE erases every key slot, DRBG state and pending record, and optionally the
  device key. -/
  | deviceZeroize (q tag : Nat)
  /-- DIAG_SELFTEST (R779): DIAG_SELFTEST runs known-answer vectors through a unit and quarantines it on failure. -/
  | diagSelftest (q tag stage : Nat)
  /-- DIAG_INJECT (R780): DIAG_INJECT enters injected fault reports into a half's ledger. -/
  | diagInject (q tag : Nat)
  /-- STREAM_BLOCK_TIMEOUT (R163): 100 µs pass with no chunk joining an open stream block and it closes. -/
  | streamBlockTimeout (q : Nat) (run : SliceRun)
  /-- SERIAL_LEASE_GRANT (R127): When a new chunk-serial high-water mark is durable in every pool, the slice is
  granted a lease. -/
  | serialLeaseGrant (slice : Nat) (run : SliceRun)
  /-- INVALIDATE (R150): Writing ING_CTRL.INVALIDATE starts clearing every valid bit of the Drift cache. -/
  | invalidate (path : Path)
  /-- INVALIDATE_DONE (R150): The Drift cache invalidate finishes, INV_BUSY clears and INV_CLEAN is set. -/
  | invalidateDone
  /-- QUAR_RELEASE (R177): Writing ING_CTRL.QUAR_RELEASE returns a slice from quarantine and clears its mismatch
  counts. -/
  | quarRelease (path : Path) (mask : Nat)
  /-- ING_CFG_WRITE (R149): A write to ING_CFG sets DEDUP_EN, DRIFT_EN and LEND_EN, refusing enables without a clean
  invalidate. -/
  | ingCfgWrite (path : Path) (value : Nat)
  /-- ING_INDEX_CONFIG_WRITE (R181): A write to ING_NEVE_LINES, ING_LEND_TABLE or ING_LEND_PAGES is applied or
  refused. -/
  | ingIndexConfigWrite (path : Path) (off value : Nat)
  /-- LEND_TABLE_COPIED (R153): The lend table copy into HBM completes and LEND_ON is set. -/
  | lendTableCopied (table : Option (List Nat))
  /-- GCM_RESUME (R221): A suspended GCM message resumes when no class A job waits. -/
  | gcmResume (slice : Nat)
  /-- NONCE_LEASE_GRANT (R210): When a counter mark is durable, an encrypting slot receives a lease of 2^32 counter
  values. -/
  | nonceLeaseGrant (slot : Nat)
  /-- NOISE_HEALTH_FAIL (R227): A continuous noise-source health test fails, ENTROPY_OK clears and the source
  restarts. -/
  | noiseHealthFail
  /-- ENTROPY_RESTORED (R227): The restarted noise source passes its start-up test and ENTROPY_OK returns to 1. -/
  | entropyRestored
  /-- DRBG_RESEED (R226): After 2^20 requests or 1 s the DRBG reseeds. -/
  | drbgReseed
  /-- RIM_ZEROIZE (R231): Writing 5A3Ch to RIM_CTRL.ZEROIZE starts a zeroize, with the device key when INCL_DEVKEY
  is 1. -/
  | rimZeroize (path : Path) (value : Nat)
  /-- FRAME_RECEIVED (R254): A Schrund or Snowbridge frame arrives, is checked, reordered and acknowledged. -/
  | frameReceived (link : LinkEnd) (lane : Nat) (frame : Bytes)
  /-- NAK (R255): A NAK link-control frame makes the transmitter replay the named frame ahead of new frames. -/
  | nak (link : LinkEnd) (lane : Nat) (seqs : List Nat)
  /-- LANE_DOWN (R258): A LANE_DOWN frame makes the transmitter drop the lane, replay its frames and map a spare or
  reduce width. -/
  | laneDown (link : LinkEnd) (lane : Nat)
  /-- LANE_UP (R258): A LANE_UP frame returns the transmitter to rotation over W lanes with the spare mapped. -/
  | laneUp (link : LinkEnd) (logical lane : Nat)
  /-- WIDTH (R256): A WIDTH frame announces a new width and the first sequence sent at it. -/
  | width (link : LinkEnd) (width first : Nat)
  /-- PEER_FATAL (R265): A received PEER_FATAL puts the half into peer down. -/
  | peerFatal (half : Half) (cause : Nat)
  /-- LANE_LOST (R258): A receiver declares a Schrund lane lost on loss of lock or 4 failed checks in 64 frames and
  sends LANE_DOWN. -/
  | laneLost (half : Half) (lane : Nat)
  /-- SCHRUND_SILENCE_TIMEOUT (R265): For 2 µs no good frame arrives on any lane and the half enters peer down. -/
  | schrundSilenceTimeout (half : Half)
  /-- SCH_LANE_RETRY (R262): Writing SCH_CTRL.LANE_RETRY retrains relocked lost lanes as warm spares. -/
  | schLaneRetry (path : Path) (half : Half)
  /-- LANE_RETRAINED (R262): A retrained Schrund lane becomes a warm spare. -/
  | laneRetrained (half : Half) (lane : Nat)
  /-- FORWARDED_CLOCK_LOST (R272): The primary forwarded-clock lane loses lock and the media half moves to the
  alternate lane or holdover. -/
  | forwardedClockLost (both : Bool)
  /-- FORWARDED_CLOCK_RETURN (R23): The forwarded clock returns and the media half re-locks and slews its timebase
  into step. -/
  | forwardedClockReturn
  /-- WRITE_PAYLOAD (R251): A write payload data message with one stored object arrives at the media half. -/
  | writePayload (msg : Msg)
  /-- READ_PAYLOAD (R179): A read payload data message arrives at the host half and is decrypted, decoded and
  checked. -/
  | readPayload (msg : Msg) (run : ReadRun)
  /-- WRITE_ENVELOPE (R251): A write envelope descriptor opens a command's record on the media half. -/
  | writeEnvelope (msg : Msg)
  /-- NEW_CHUNK (R251): A new-chunk descriptor adds a stored object to a command's record. -/
  | newChunk (msg : Msg)
  /-- REFERENCE_CHUNK (R28): A reference-chunk descriptor asks the home twin to take a dedup reference. -/
  | referenceChunk (msg : Msg)
  /-- READ_DESCRIPTOR (R104): A read descriptor makes the media half resolve and read the blocks. -/
  | readDescriptor (msg : Msg)
  /-- OTHER_IO (R251): A descriptor for zeroes, deallocate, compare or copy arrives at the media half. -/
  | otherIo (msg : Msg)
  /-- FREEZE_GROUP_OPERATION (R324): A freeze-group operation descriptor arrives at the media half. -/
  | freezeGroupOperation (msg : Msg)
  /-- VARVE_OPERATION (R471): A Varve or Calving operation descriptor arrives at the media half. -/
  | varveOperation (msg : Msg)
  /-- COMPLETION_MESSAGE (R26): A completion message reaches the host half, which posts the completion entry. -/
  | completionMessage (msg : Msg) (lend : List (Option Bytes))
  /-- REFERENCE_REFUSED (R141): A reference-refused message clears the index entry and the slice sends the chunk as
  new. -/
  | referenceRefused (msg : Msg) (run : SliceRun)
  /-- MANAGEMENT_REQUEST (R20): A management request reaches a half, which carries it out. -/
  | managementRequest (half : Half) (id : Nat) (req : Msg)
  /-- MANAGEMENT_REPLY (R266): A management reply answers an outstanding request. -/
  | managementReply (half : Half) (id status : Nat) (data : Bytes)
  /-- TIME_MARK (R274): A time mark arrives and the media half steers its timebase toward the host value. -/
  | timeMark (tb seq : Nat)
  /-- FAULT_NOTICE (R770): A fault notice crosses the Schrund and the receiving half records and posts it. -/
  | faultNotice (half : Half) (source code count time : Nat)
  /-- RECORD_ADMITTED (R286): A waiting Firn record is admitted when space frees, in group and arrival order. -/
  | recordAdmitted
  /-- LOCAL_COPY_WRITTEN (R299): A record copy is in HBM, its checks recomputed and its index entry made, so it is
  acknowledged. -/
  | localCopyWritten (pool seq : Nat)
  /-- WRITE_COMMIT (R297): A record first meets the completion condition of the mode in force and its commands
  complete. -/
  | writeCommit (pool seq : Nat)
  /-- RECORD_APPLY (R296): A twin applies a pool's next record to its extent map cache in commit-sequence order. -/
  | recordApply (pool : Nat)
  /-- DESTAGE_START (R817): Enough records fill a stripe and the home twin lays out the stripe and writes its INTENT
  record. -/
  | destageStart (pool slot : Nat)
  /-- STRIPE_CLOSE_TIMEOUT (R817): The oldest unstriped record has been held 100 ms and a partly filled stripe is
  closed. -/
  | stripeCloseTimeout (pool slot : Nat)
  /-- INTENT_MET (R303): An INTENT record meets its completion condition; syndromes are computed and strips written
  with FUA. -/
  | intentMet (pool stripe : Nat)
  /-- RELEASE_MET (R304): A RELEASE record meets its completion condition and both twins free the destaged records. -/
  | releaseMet (pool stripe : Nat)
  /-- GROUP_SEAL_PROCEED (R324): Every member before the seal is staged or failed, and LINK and COMMIT records are
  assigned or the group discarded. -/
  | groupSealProceed (fn tag : Nat)
  /-- GROUP_COMMIT (R326): The COMMIT record meets its condition and every member becomes visible at once. -/
  | groupCommit (fn tag : Nat)
  /-- GROUP_TIMEOUT (R321): A group passes its 2 s limit before its COMMIT record is written and is discarded. -/
  | groupTimeout (fn tag : Nat)
  /-- TOMBSTONE_EXPIRY (R321): A tombstone expires after 10 s. -/
  | tombstoneExpiry (fn tag : Nat)
  /-- ABORT_RECORD_ON_MEDIUM (R321): A discarded group's ABORT record is on the medium and the group leaves
  DISCARDED. -/
  | abortRecordOnMedium (fn tag : Nat)
  /-- FRN_DUMP (R331): Writing 7C51h to FRN_CTRL.DUMP fences the module and starts a Firn dump. -/
  | frnDump (path : Path) (value : Nat)
  /-- DUMP_END (R332): The dump seal is written and the holdup pack disconnected. -/
  | dumpEnd
  /-- RESTORE_END (R335): The restore ends and each pool comes online. -/
  | restoreEnd
  /-- FRN_CFG_WRITE (R281): A write to FRN_CFG changes REGION_GIB only while the region is empty. -/
  | frnCfgWrite (path : Path) (value : Nat)
  /-- MORAINE_JOB_COMPLETE (R388): A Moraine engine finishes a stripe job with duplicated P comparison. -/
  | moraineJobComplete (pool stripe engine : Nat) (agree : Bool)
  /-- ENG_RELEASE (R388): Writing MOR_CTRL.ENG_RELEASE returns an engine from quarantine. -/
  | engRelease (path : Path) (mask : Nat)
  /-- DRIVE_ABSENCE_TIMEOUT (R400): A member drive absent or link-down for 100 ms is declared FAILED. -/
  | driveAbsenceTimeout (pool member : Nat)
  /-- REBUILD_JOB_START (R408): The pool's sequencer starts the next rebuild job in level, row and slot order. -/
  | rebuildJobStart (pool : Nat)
  /-- REBUILD_MARK_TIMER (R410): At least once per second the sequencer records its rebuild mark in the
  configuration block. -/
  | rebuildMarkTimer (pool : Nat)
  /-- POOL_PLACEMENT_RETRY (R418): Once per second the home twin tries placement again for an offline pool. -/
  | poolPlacementRetry (pool : Nat)
  /-- SCRUB_STRIPE (R420): Scrub reads every strip of the next stripe, checks syndromes and repairs or logs it. -/
  | scrubStripe (pool : Nat)
  /-- SCRUB_LATE (R419): A scrub pass does not end within SCRUB_DAYS and LATE is set. -/
  | scrubLate (pool : Nat)
  /-- ACTIVITY_LIMIT_EXPIRY (R436): LIMIT_S seconds after admission the activity is released. -/
  | activityLimitExpiry (activity : Nat) (good : Bool)
  /-- MEMBER_HELD (R441): The drive commands in flight to a released member end and it becomes HELD. -/
  | memberHeld (pool member : Nat)
  /-- EVACUATION_ROW_COPY (R446): The sequencer copies one row of an evacuating member and advances the copy mark. -/
  | evacuationRowCopy (pool member : Nat)
  /-- PRUNE (R475): The home twin writes PRUNE deltas removing prunable block-map entries. -/
  | prune (pool : Nat)
  /-- COMPACTION (R476): A stripe below COMPACT_PCT live bytes is compacted into a new stripe. -/
  | compaction (pool slot : Nat)
  /-- CALVE_MESSAGE_WRITE (R484): A sending stream writes its next sealed message into an available buffer and
  writes back the descriptor. -/
  | calveMessageWrite (stream : Nat) (run : SliceRun)
  /-- RECORD (R508): A RECORD message carries a record for assignment or a mirror copy across the Snowbridge. -/
  | record (msg : Msg)
  /-- ACK (R300): An ACK message returns a copy's HCHECK and assigned sequence, which the receiving twin compares. -/
  | ack (msg : Msg)
  /-- REFUSE (R509): A REFUSE message makes the receiving twin discard its copy and resend chunks as new. -/
  | refuse (msg : Msg)
  /-- ECHO (R523): An ECHO message delivers the partner's health, timing and chain digests. -/
  | echo (msg : Msg)
  /-- REPORT_FAULT_NOTICE (R526): A REPORT fault notice makes the twin declare its partner failed. -/
  | reportFaultNotice (source time : Nat)
  /-- REPORT_PATH_LOSS (R401): A REPORT of member path loss reaches the home twin. -/
  | reportPathLoss (pool member : Nat)
  /-- REPORT_DIVERGENT_STRIPE (R383): A REPORT of a divergent stripe makes the home twin write a DIVERGE delta. -/
  | reportDivergentStripe (pool stripe cause synd : Nat) (agree : Bool)
  /-- REPORT_LOCATED_STRIP (R382): A REPORT of a located strip makes the home twin re-examine and repair the stripe. -/
  | reportLocatedStrip (pool stripe : Nat)
  /-- COORD (R508): A COORD message carries ledger entries, mirrored writes, geometry or the link-key check. -/
  | coord (msg : Msg)
  /-- PAIR (R520): A PAIR message carries the pairing handshake and its checks. -/
  | pair (msg : Msg)
  /-- RECON (R536): A RECON message carries reconciliation headers or resync transfer. -/
  | recon (msg : Msg)
  /-- SWAP (R540): A SWAP handover lets the new home take its first sequence and resume assignment. -/
  | swap (pools : Nat) (heads : List (Nat × Nat × Bytes))
  /-- SIDEBAND_WORD (R503): A valid sideband state word is received and acted on. -/
  | sidebandWord (cable word : Nat)
  /-- ECHO_SEND (R523): Every 2 µs each twin sends an ECHO. -/
  | echoSend
  /-- SIDEBAND_SEND (R503): Every 1 µs the media Nunatak sends a state word on each sideband. -/
  | sidebandSend
  /-- SIDEBAND_SILENT (R503): No valid sideband word for 2 µs marks the sideband silent. -/
  | sidebandSilent (cable : Nat)
  /-- ECHO_TIMEOUT (R526): No ECHO for 8 µs while frames arrive declares the partner failed. -/
  | echoTimeout
  /-- RECORD_ACK_TIMEOUT (R298): A record unacknowledged for 50 µs with partner SPACE_WAIT 0 declares the partner
  failed. -/
  | recordAckTimeout (pool seq : Nat)
  /-- LINK_LOSS_TIMEOUT (R517): No good frame for 4 µs, or the last lane dropped, is link loss. -/
  | linkLossTimeout
  /-- SELF_CHECK_END (R525): The self-check after a chain break ends and its outcome goes out in the next ECHO. -/
  | selfCheckEnd (ok : Bool)
  /-- WITNESS_RETRY (R533): Every 50 µs failed or timed-out witness attempts are sent again. -/
  | witnessRetry
  /-- SPLIT_TIMEOUT (R533): 400 µs without three successes makes the twin take itself as failed. -/
  | splitTimeout
  /-- WITNESS_TAKEOVER_WRITE (R530): After failover the survivor writes every reachable witness block as holder. -/
  | witnessTakeoverWrite
  /-- RESERVATION_PREEMPT (R611): The survivor preempts the partner's reservation on a drive, retrying every 100 ms. -/
  | reservationPreempt (drive : Nat)
  /-- RESYNC_END (R528): The resync ends and both twins show PAIRED. -/
  | resyncEnd
  /-- PAIRING_START (R520): Both modules released with a cable up, the pairing handshake starts. -/
  | pairingStart
  /-- RECONCILE_STEP_END (R536): A reconciliation step ends and the next begins. -/
  | reconcileStepEnd
  /-- SNOWBRIDGE_LANE_LOST (R514): A Snowbridge lane is declared lost and width reduced. -/
  | snowbridgeLaneLost (lane : Nat) (uncorrectable : Nat)
  /-- LANE_AUTO_RETRAIN (R516): A lost lane regains signal and is retrained within 20 ms. -/
  | laneAutoRetrain (lane : Nat)
  /-- LINK_GCM_WRITE (R511): Writing TWN_CFG.LINK_GCM on Twin A turns the link cipher on or off. -/
  | linkGcmWrite (path : Path) (value : Nat)
  /-- TWN_LANE_RETRY (R516): Writing TWN_CTRL.LANE_RETRY retrains lost and parked lanes. -/
  | twnLaneRetry (path : Path)
  /-- REJOIN (R520): Writing TWN_CTRL.REJOIN restarts the handshake after a refusal. -/
  | rejoin (path : Path)
  /-- TB_OFFSET_UPDATE (R518): Each 1 ms the partner's timebase offset is averaged into TWN_TB_OFFSET. -/
  | tbOffsetUpdate
  /-- SWAP_DRAIN_END (R540): The old home's destages end or 1 s passes and it starts the hold. -/
  | swapDrainEnd
  /-- ACTIVATION_RESUME (R543): An activating module reaches handshake and resumes fetching; FW_COMMIT completes. -/
  | activationResume
  /-- ACTIVATION_FALLBACK (R545): 2 s without handshake restarts the cores from the previous image. -/
  | activationFallback
  /-- ENDPOINT_LINK_UP (R556): An endpoint link trains and reports its width and rate. -/
  | endpointLinkUp (ep width speed : Nat) (flit : Bool)
  /-- ENDPOINT_RESET (R588): PERST#, hot reset or link down resets every function of the endpoint. -/
  | endpointReset (ep : Nat) (perst : Bool)
  /-- BUS_MASTER_ENABLE_CLEAR (R580): BME 1→0 stops requests and fetches, finishes internal work and holds results. -/
  | busMasterEnableClear (fn : Nat)
  /-- BUS_MASTER_ENABLE_SET (R582): BME 0→1 delivers held results in order, sends pending interrupts and resumes
  fetching. -/
  | busMasterEnableSet (fn : Nat)
  /-- VF_ENABLE_SET (R559): VF Enable 0→1 brings VFs 1 to NumVFs into existence. -/
  | vfEnableSet (ep : Nat)
  /-- VF_ENABLE_CLEAR (R559): VF Enable 1→0 resets every VF and returns its blocks to the PF. -/
  | vfEnableClear (ep : Nat)
  /-- FUNCTION_LEVEL_RESET (R585): FLR stops delivery, deletes queues, discards groups and streams, steps the dedup
  generation and resets registers. -/
  | functionLevelReset (fn : Nat)
  /-- FLR_COMPLETE (R587): The FLR completes within 100 ms and FLR_BUSY clears. -/
  | flrComplete (fn : Nat)
  /-- D3HOT_ENTRY (R594): A function enters D3hot and its traffic is held as for cleared BME. -/
  | d3hotEntry (fn : Nat)
  /-- D0_RETURN (R594): A function returns to D0 and its held results are delivered. -/
  | d0Return (fn : Nat)
  /-- MSIX_ENTRY_WRITE (R573): A write to an MSI-X table entry takes effect before a same-cycle trigger. -/
  | msixEntryWrite (fn off size value : Nat)
  /-- VECTOR_UNMASK (R572): Unmasking a vector with its pending bit set sends one message and clears the bit. -/
  | vectorUnmask (fn vector : Nat)
  /-- COMPLETION_TIMEOUT (R557): A non-posted request of the device times out. -/
  | completionTimeout (fn : Nat) (why : Purpose)
  /-- REQUEST_ERROR (R578): A non-posted request ends in error and the outcome depends on its purpose. -/
  | requestError (fn : Nat) (why : Purpose) (poisoned : Bool)
  /-- POISONED_WRITE (R579): A poisoned write to a BAR is discarded and reported through AER. -/
  | poisonedWrite (fn : Nat)
  /-- IDE_CHECK_FAILED (R591): A TLP failing its IDE check is discarded and the stream goes Insecure. -/
  | ideCheckFailed (ep stream : Nat)
  /-- L1_REQUEST (R592): After L1_IDLE µs with no TLP the endpoint requests L1. -/
  | l1Request (ep sub : Nat)
  /-- L0P_NARROW (R592): After L0P_IDLE below one quarter use the endpoint narrows to half width. -/
  | l0pNarrow (ep : Nat) (tx : Bool)
  /-- L0P_WIDEN (R592): A frame the narrow width cannot carry within 1 µs widens the link. -/
  | l0pWiden (ep : Nat) (tx : Bool)
  /-- DRIVE_INSERTED (R631): A drive appears on a downstream port and enumeration begins. -/
  | driveInserted (port : Nat) (place : DrivePlace) (speed width : Nat)
  /-- DRIVE_READY (R631): CSTS.RDY is reported and the drive is enumerated and checked. -/
  | driveReady (index : Nat) (facts : DriveFacts)
  /-- DRIVE_READY_TIMEOUT (R631): A drive not ready in time is marked UNUSABLE with reason 07h. -/
  | driveReadyTimeout (index : Nat)
  /-- DRIVE_REMOVED (R629): A drive's link or presence drops, it becomes absent and its commands fail. -/
  | driveRemoved (index : Nat)
  /-- NVME_COMPLETION (R628): An NVMe completion arrives and is handled by its status. -/
  | nvmeCompletion (cid sct sc : Nat) (data : Bytes)
  /-- NVME_COMMAND_TIMEOUT (R627): A drive command times out and the device sends Abort. -/
  | nvmeCommandTimeout (cid : Nat)
  /-- ABORT_TIMEOUT (R627): An Abort uncompleted for 1 s resets the controller. -/
  | abortTimeout (cid : Nat)
  /-- READ_HEDGE_TIMEOUT (R626): A slow strip read is treated as timed out and served by reconstruction. -/
  | readHedgeTimeout (cid : Nat)
  /-- NAMESPACE_NOT_READY_RETRY (R628): A Namespace Not Ready command is sent again every 100 ms. -/
  | namespaceNotReadyRetry (cid : Nat)
  /-- ENUM_WINDOW_EXPIRY (R623): The start-up window ends and member absence timing starts. -/
  | enumWindowExpiry (pool : Nat)
  /-- DRV_PORT_CFG_WRITE (R633): A write to DRV_PORT_CFG rebifurcates ports without bound drives or is refused. -/
  | drvPortCfgWrite (path : Path) (value : Nat)
  /-- KICK (R646): FLO_CH_CTRL.KICK makes an idle channel read the descriptor at HEAD or sets KICK_PEND. -/
  | kick (path : Path) (ch : Nat)
  /-- PAUSE (R672): FLO_CH_CTRL.PAUSE stops new reads. -/
  | pause (path : Path) (ch : Nat)
  /-- RESUME (R671): FLO_CH_CTRL.RESUME continues a paused channel or retries a halted request. -/
  | resume (path : Path) (ch : Nat)
  /-- ABORT (R673): FLO_CH_CTRL.ABORT drops the channel's work. -/
  | abort (path : Path) (ch : Nat)
  /-- CHANNEL_PAUSED (R672): The reads already issued complete and the channel enters PAUSED. -/
  | channelPaused (half : Half) (ch : Nat)
  /-- ABORT_DRAINED (R673): Every request of an aborting channel ends and it enters IDLE. -/
  | abortDrained (half : Half) (ch : Nat)
  /-- DESCRIPTOR_READ (R646): A fetched descriptor with OWN 1 starts its program or the channel goes idle. -/
  | descriptorRead (half : Half) (ch : Nat) (desc : Bytes)
  /-- MOVE (R652): A MOVE instruction transfers LEN bytes in bursts through the holding register. -/
  | move (half : Half) (ch : Nat) (arrived : MoveIn)
  /-- LOOP (R658): A LOOP instruction repeats its body by a loop counter. -/
  | loop (half : Half) (ch : Nat) (instr : Bytes)
  /-- WAIT (R659): A WAIT instruction waits on a request line or event. -/
  | wait (half : Half) (ch : Nat) (instr : Bytes)
  /-- SIGNAL (R660): A SIGNAL instruction sets an event and/or signals a vector after write responses. -/
  | signal (half : Half) (ch : Nat) (instr : Bytes)
  /-- END (R661): An END instruction completes the descriptor. -/
  | endInstr (half : Half) (ch : Nat) (instr : Bytes)
  /-- FLOE_BURST_GRANT (R666): The Floe arbiter grants one burst to the highest-priority ready channel. -/
  | floeBurstGrant (half : Half)
  /-- WRITE_RESPONSE (R648): A zero-length read completion confirms the writes ahead of it. -/
  | writeResponse (half : Half) (ch : Nat)
  /-- BUS_ERROR (R668): A Floe bus error retries the request after 1 µs up to RETRY times. -/
  | busError (half : Half) (ch : Nat)
  /-- WAIT_TIMEOUT (R659): A timed WAIT's timeout passes and the channel halts. -/
  | waitTimeout (half : Half) (ch : Nat)
  /-- FLO_SWREQ (R662): A write to FLO_SWREQ asserts a software request line once. -/
  | floSwreq (path : Path) (value : Nat)
  /-- FLO_EVENT_SET (R665): FLO_EVENT_SET sets Floe events. -/
  | floEventSet (path : Path) (value : Nat)
  /-- FLO_EVENT_CLR (R665): FLO_EVENT_CLR clears Floe events. -/
  | floEventClr (path : Path) (value : Nat)
  /-- FLO_CH_CONFIG_WRITE (R677): A write to FLO_CH_CFG, VEC, RING or HEAD is applied or refused. -/
  | floChConfigWrite (path : Path) (off size value : Nat)
  /-- CONVERTER_WINDOW (R686): Each 1 ms window integrates the shunt charge into Q_REM and samples voltage. -/
  | converterWindow (current : Int) (mv : Nat)
  /-- OFFSET_ZEROING (R686): Every 10 s the converter zeroes its offset for 10 ms. -/
  | offsetZeroing (offset : Int)
  /-- TEMPERATURE_SAMPLE (R686): Every 100 ms the pack temperature is measured. -/
  | temperatureSample (temp : Int)
  /-- GAP_RECOVERY (R687): After a gap Q_REM is set from the averaged voltage and PROVISIONAL set. -/
  | gapRecovery (mv : Nat)
  /-- REST_POINT (R691): 30 min at rest yields a rest point that sets Q_REM. -/
  | restPoint (mv : Nat)
  /-- LEARN_REST_TIMEOUT (R693): No rest point within 4 h fails the learn cycle. -/
  | learnRestTimeout
  /-- ENERGY_RECOMPUTE (R698): Every 10 ms E_AVAIL is recomputed. -/
  | energyRecompute
  /-- CHARGE_TERMINATE (R689): 60 s below 10 mA near full voltage ends charging. -/
  | chargeTerminate
  /-- HOLDUP_FAULT (R702): A pack fault condition persists and the fault is raised. -/
  | holdupFault (cause : Nat)
  /-- HOLDUP_FAULT_CLEAR (R702): A not-ready fault clears after its condition is absent 10 s. -/
  | holdupFaultClear (cause : Nat)
  /-- PACK_ABSENT (R701): Pack voltage below 4.0 V for 1 s makes the pack ABSENT. -/
  | packAbsent
  /-- EEPROM_PERIODIC_RECORD (R706): Every 6 h of running the gauge writes an EEPROM record. -/
  | eepromPeriodicRecord (good : Bool)
  /-- LEARN_START (R693): HLD_CTRL.CMD 1EA5h starts a learn cycle. -/
  | learnStart (path : Path)
  /-- LEARN_STOP (R693): HLD_CTRL.CMD 1EA0h stops a learn cycle. -/
  | learnStop (path : Path)
  /-- HLD_DISCONNECT (R703): HLD_CTRL.CMD D15Ch opens the pack enable. -/
  | hldDisconnect (path : Path)
  /-- HLD_CONNECT (R703): HLD_CTRL.CMD C0EEh closes the pack enable. -/
  | hldConnect (path : Path)
  /-- HLD_PACK_CHANGE (R704): HLD_CTRL.CMD 9E3Ah declares a pack change. -/
  | hldPackChange (path : Path)
  /-- POWER_ON (R729): VAON rises into range and the half powers on. -/
  | powerOn (half : Half)
  /-- PWRGD_H_DEASSERT (R714): PWRGD_H low holds the host half in cold reset. -/
  | pwrgdHDeassert
  /-- PWRGD_M_DEASSERT (R714): PWRGD_M low starts the Firn dump. -/
  | pwrgdMDeassert
  /-- COLD_RST_PIN (R803): COLD_RST# low for 10 µs triggers a cold reset. -/
  | coldRstPin (half : Half)
  /-- STARTUP (R725): The cold resets end and start-up runs to release. -/
  | startup (facts : StartFacts)
  /-- SCHRUND_TRAINING_RETRY (R726): Once per second Schrund training is retried. -/
  | schrundTrainingRetry (facts : StartFacts)
  /-- CRP_COLD (R732): CRP_CTRL.COLD 0C1Dh requests a cold reset. -/
  | crpCold (path : Path) (half : Half)
  /-- CRP_WARM (R732): CRP_CTRL.WARM 3A7Eh requests a warm reset. -/
  | crpWarm (path : Path) (half : Half)
  /-- THERMAL_SAMPLE (R738): Every 100 µs the hottest sensor sets the throttle level. -/
  | thermalSample (half : Half) (tj : Int) (hbm : List Int)
  /-- THERMAL_TRIP (R739): TJ above 130 °C for 1 ms trips the half. -/
  | thermalTrip (half : Half)
  /-- REFERENCE_LOST (R736): The root reference is lost and the host half stops. -/
  | referenceLost
  /-- STORM_INTERVAL_END (R763): A 1 ms interval ends and SUMMARY_MODE may clear. -/
  | stormIntervalEnd (half : Half)
  /-- FAULT_EVENT_DEFERRED (R770): 100 µs after a source's previous event, gathered reports post one event. -/
  | faultEventDeferred (half : Half) (source : Nat)
  /-- WATCHDOG_EXPIRY (R774): The watchdog expires and the Nunatak acts. -/
  | watchdogExpiry (half : Half)
  /-- WDOG_KICK (R774): FLT_WDOG.KICK 6D0Bh kicks the watchdog. -/
  | wdogKick (path : Path) (half : Half)
  /-- NEW_EPOCH (R761): FLT_CTRL.NEW_EPOCH starts a new ledger epoch. -/
  | newEpoch (path : Path) (half : Half)
  /-- FLT_LAST_GASP (R787): FLT_CTRL.LAST_GASP writes a last-gasp record. -/
  | fltLastGasp (path : Path) (half : Half)
  /-- RNG_EV_HEAD_WRITE (R786): A write to RNG_EV_HEAD frees event ring space for held events. -/
  | rngEvHeadWrite (fn value : Nat)
  /-- RNG_AQ_CFG_WRITE (R785): RNG_AQ_CFG.ENABLE creates or resets the admin queue. -/
  | rngAqCfgWrite (fn value : Nat)
  /-- ADMIN_QUEUE_READY (R785): The admin queue is created and READY is set. -/
  | adminQueueReady (fn : Nat)
  /-- MBX_STATUS (R776): Mailbox STATUS returns GLB_STATUS and FLT_STATUS. -/
  | mbxStatus (ep key : Nat)
  /-- MBX_MEDIA_STATUS (R776): Mailbox MEDIA_STATUS returns media status. -/
  | mbxMediaStatus (ep key : Nat)
  /-- MBX_DUMP (R776): Mailbox DUMP orders a Firn dump. -/
  | mbxDump (ep key : Nat)
  /-- MBX_FENCE (R776): Mailbox FENCE fences the module. -/
  | mbxFence (ep key : Nat)
  /-- MBX_ZEROIZE (R776): Mailbox ZEROIZE zeroizes keys. -/
  | mbxZeroize (ep key : Nat)
  /-- MBX_PACK_DISCONNECT (R776): Mailbox PACK_DISCONNECT disconnects the pack. -/
  | mbxPackDisconnect (ep key : Nat)
  /-- MBX_LAST_GASP (R776): Mailbox LAST_GASP writes a last-gasp record. -/
  | mbxLastGasp (ep key : Nat)
  /-- STATUS_READ (R778): I3C STATUS_READ returns status. -/
  | statusRead (half : Half)
  /-- REG_READ (R778): I3C REG_READ returns a register. -/
  | regRead (half : Half) (off size : Nat)
  /-- REG_WRITE (R778): I3C REG_WRITE writes a register. -/
  | regWrite (half : Half) (off size value : Nat)
  /-- I3C_MAILBOX (R778): I3C MAILBOX runs a mailbox operation. -/
  | i3cMailbox (half : Half) (op key arg : Nat)
  /-- LEDGER_READ (R778): I3C LEDGER_READ returns a ledger record. -/
  | ledgerRead (half : Half) (index : Nat)
  /-- FLASH_ACCESS (R778): I3C FLASH_ACCESS reads or writes boot flash. -/
  | flashAccess (half : Half) (bank off len : Nat) (data : Option Bytes)
  /-- LIFECYCLE (R718): I3C LIFECYCLE advances the lifecycle state. -/
  | lifecycle (half : Half) (target : Nat) (hashes : List (Nat × Bytes)) (revoke : Nat)
  /-- DEVKEY (R198): I3C DEVKEY writes a clear device key. -/
  | devkey (half : Half) (key : Bytes)
  /-- MCTP (R590): I3C MCTP carries IDE_KM messages. -/
  | mctp (half : Half) (msg : Msg)
  /-- SPARE_ALIGNED (R258): The receiver finishes aligning the warm spare mapped to a lost logical lane and sends
  LANE_UP. -/
  | spareAligned (half : Half) (lane : Nat)
  /-- CLOCK_MARKER (R273): Every 400th forwarded-clock cycle the host half sends a time mark holding its timebase
  and MARK_SEQ. -/
  | clockMarker
  /-- ALWAYS_ON_RAIL_LOSS (R714): VAON of a half leaves its range, holding that half, Nunatak and gauge included, in
  reset and opening a gauge gap. -/
  | alwaysOnRailLoss (half : Half)
  /-- PERST_RELEASE (R595): PERST# of an endpoint is deasserted, ending D3cold, releasing WAKE# and letting the link
  train. -/
  | perstRelease (ep : Nat)
  /-- SNOWBRIDGE_LANE_TRAINED (R519): A Snowbridge lane whose receiver gains signal from a twin trains and aligns,
  taking the twin link out of DOWN and bringing a cable up. -/
  | snowbridgeLaneTrained (lane : Nat)
  /-- CONTROLLER_FATAL_STATUS (R400): A drive controller sets CSTS.CFS and the home twin declares the member FAILED
  at once with cause 02h. -/
  | controllerFatalStatus (index : Nat)
  deriving DecidableEq, Repr

end Sys2Proof
end

