-- ==== Sys2Proof/Machine/Crc.lean ====
section
/-! DEFINITION. Bytes and numbers, and the check values: little-endian and big-endian byte strings (R5), CRC-32C
(R173), CRC-64/NVMe (R357) and the SMBus CRC-8 (R778). -/

namespace Sys2Proof.Machine

/-- One byte of a number: byte `k`, the least significant first. -/
def byteAt (v k : Nat) : Byte := BitVec.ofNat 8 (v >>> (8 * k))

/-- A number as `n` bytes, least significant first (R5). -/
def leBytes : Nat → Nat → Bytes
  | 0, _ => []
  | n + 1, v => BitVec.ofNat 8 v :: leBytes n (v / 256)

/-- The number that bytes spell, least significant first (R5). -/
def leNat : Bytes → Nat
  | [] => 0
  | b :: bs => b.toNat + 256 * leNat bs

/-- A number as `n` bytes, most significant first: the order of a value that a named standard fixes (R5). -/
def beBytes (n v : Nat) : Bytes := (leBytes n v).reverse

/-- The number that bytes spell, most significant first (R5). -/
def beNat (bs : Bytes) : Nat := bs.foldl (fun a b => a * 256 + b.toNat) 0

/-- The field of `n` bytes at byte offset `off` of a string, least significant first; bytes past the end read 0. -/
def getLe (bs : Bytes) (off n : Nat) : Nat := leNat ((bs.drop off).take n)

/-- The `n` bytes at byte offset `off`. -/
def getBytes (bs : Bytes) (off n : Nat) : Bytes := (bs.drop off).take n

/-- A string cut or padded with zeros to exactly `n` bytes. -/
def padTo (n : Nat) (bs : Bytes) : Bytes := bs.take n ++ List.replicate (n - bs.length) 0

/-- A string cut into pieces of `n` bytes; the last may be shorter. `fuel` bounds the number of pieces. -/
def piecesOf (n : Nat) : Nat → Bytes → List Bytes
  | 0, _ => []
  | f + 1, bs => if bs.isEmpty then [] else bs.take n :: piecesOf n f (bs.drop n)

/-- Every piece of a string. -/
def pieces (n : Nat) (bs : Bytes) : List Bytes := piecesOf n bs.length bs

/-- Bytes of one string with the bytes of another, by exclusive or; the shorter one ends the result. -/
def xorBytes (a b : Bytes) : Bytes := List.zipWith (fun x y => x ^^^ y) a b

/-- Every byte of the string is 0. -/
def allZero (bs : Bytes) : Bool := bs.all (fun b => b == 0)

/-- A reflected CRC register stepped over `n` bits. -/
def crcBits {w : Nat} (poly : BitVec w) : Nat → BitVec w → BitVec w
  | 0, c => c
  | n + 1, c => crcBits poly n (if c.getLsbD 0 then (c >>> 1) ^^^ poly else c >>> 1)

/-- A reflected CRC register stepped over one byte. -/
def crcByte {w : Nat} (poly : BitVec w) (c : BitVec w) (b : Byte) : BitVec w :=
  crcBits poly 8 (c ^^^ (b.setWidth w))

/-- CRC-32C over a string (R173). -/
def crc32c (bs : Bytes) : Nat :=
  ((bs.foldl (crcByte (0x82F63B78#32)) (0xFFFFFFFF#32)) ^^^ 0xFFFFFFFF#32).toNat

/-- CRC-64/NVMe over a string (R357). -/
def crc64 (bs : Bytes) : Nat :=
  ((bs.foldl (crcByte (0x9A6C9329AC4BC9B5#64)) (0xFFFFFFFFFFFFFFFF#64)) ^^^ 0xFFFFFFFFFFFFFFFF#64).toNat

/-- The SMBus packet error code: CRC-8 with polynomial 07h, most significant bit first (R778). -/
def crc8Bits : Nat → BitVec 8 → BitVec 8
  | 0, c => c
  | n + 1, c => crc8Bits n (if c.getLsbD 7 then (c <<< 1) ^^^ 0x07#8 else c <<< 1)

/-- The packet error code of a message (R778). -/
def pec (bs : Bytes) : Byte := bs.foldl (fun c b => crc8Bits 8 (c ^^^ b)) 0

end Sys2Proof.Machine
end

