-- ==== Sys2Proof/Machine/RegMap.lean ====
section
/-! DEFINITION. The register map: every register of the module with its offset, its size and its fields, each with
its bit range, access code and reset value, as the register tables of chapters 03 to 16 give them (R183 to R790). A
register field's home is one entry of `State.regs` under the field's key, unless `Machine/Views.lean` computes it. -/

namespace Sys2Proof.Machine

/-- The access codes of chapter 00 (R7 to R10, R746); `cntWrap` is a count that its Meaning column says wraps. -/
inductive Access where
  | rw | ro | w1c | rws | cnt | cntWrap | wo
  deriving DecidableEq, Repr

/-- Where a register lies: the host half's common registers, the media management space, the EPX block of one
endpoint, the ring registers of one function, or the configuration space of one function. -/
abbrev Space := Nat

/-- The space of a half's own registers. -/
def halfSpace : Half → Space
  | .host => 0
  | .media => 1

/-- The space of the EPX registers of endpoint `e` (R596). -/
def epSpace (e : Nat) : Space := 2 + e

/-- The space of the ring registers of function `fn` (R781). -/
def fnSpace (fn : Nat) : Space := 16 + fn

/-- The configuration space of function `fn` (R561 to R565). -/
def cfgSpace (fn : Nat) : Space := 2048 + fn

/-- One register field. -/
structure Field where
  space : Space
  off : Nat
  lsb : Nat
  width : Nat
  acc : Access
  reset : Nat
  deriving DecidableEq, Repr

/-- The number a field's entry has in the register table: space, offset and lowest bit. -/
def Field.key (f : Field) : Nat := (f.space * 2 ^ 28 + f.off) * 64 + f.lsb

/-- One register: its offset, its size in bytes and its fields that are not reserved. -/
structure Reg where
  off : Nat
  size : Nat
  fields : List Field
  deriving DecidableEq, Repr

/-! ### ING_CFG -/

/-- 1: Névé lookups and inserts are enabled (R184). -/
def ING_CFG.DEDUP_EN : Field := ⟨0, 0x200000, 0, 1, .rw, 0x0⟩
/-- 1: the Drift cache is enabled; setting it is subject to R149 (R184). -/
def ING_CFG.DRIFT_EN : Field := ⟨0, 0x200000, 1, 1, .rw, 0x0⟩
/-- 1: the lend window is part of the index; setting it is subject to R149 (R184). -/
def ING_CFG.LEND_EN : Field := ⟨0, 0x200000, 2, 1, .rw, 0x0⟩

/-- The register ING_CFG. -/
def regING_CFG : Reg := ⟨0x200000, 4, [ING_CFG.DEDUP_EN, ING_CFG.DRIFT_EN, ING_CFG.LEND_EN]⟩

/-! ### ING_CTRL -/

/-- 1 starts an invalidate of the Drift cache (R185). -/
def ING_CTRL.INVALIDATE : Field := ⟨0, 0x200004, 0, 1, .wo, 0x0⟩
/-- 1 in bit 16 + n releases slice n from quarantine (R185). -/
def ING_CTRL.QUAR_RELEASE : Field := ⟨0, 0x200004, 16, 16, .wo, 0x0⟩

/-- The register ING_CTRL. -/
def regING_CTRL : Reg := ⟨0x200004, 4, [ING_CTRL.INVALIDATE, ING_CTRL.QUAR_RELEASE]⟩

/-! ### ING_STATUS -/

/-- 1: an invalidate is in progress (R186). -/
def ING_STATUS.INV_BUSY : Field := ⟨0, 0x200008, 0, 1, .ro, 0x0⟩
/-- 1: an invalidate has completed since the last event of R148 (R186). -/
def ING_STATUS.INV_CLEAN : Field := ⟨0, 0x200008, 1, 1, .ro, 0x0⟩
/-- 1: lookups use the Drift cache (R186). -/
def ING_STATUS.DRIFT_ON : Field := ⟨0, 0x200008, 2, 1, .ro, 0x0⟩
/-- 1: the lend window is in use (R186). -/
def ING_STATUS.LEND_ON : Field := ⟨0, 0x200008, 3, 1, .ro, 0x0⟩
/-- an enable was refused under R149 (R186). -/
def ING_STATUS.ENABLE_REFUSED : Field := ⟨0, 0x200008, 4, 1, .w1c, 0x0⟩
/-- a lend request failed under R156 (R186). -/
def ING_STATUS.LEND_FAULT : Field := ⟨0, 0x200008, 5, 1, .w1c, 0x0⟩
/-- a write was refused under R152 or R181, or held a value out of range (R186). -/
def ING_STATUS.CONFIG_REFUSED : Field := ⟨0, 0x200008, 6, 1, .w1c, 0x0⟩
/-- bit 16 + n is 1 while slice n is quarantined (R186). -/
def ING_STATUS.QUARANTINED : Field := ⟨0, 0x200008, 16, 16, .ro, 0x0⟩

/-- The register ING_STATUS. -/
def regING_STATUS : Reg := ⟨0x200008, 4, [ING_STATUS.INV_BUSY, ING_STATUS.INV_CLEAN, ING_STATUS.DRIFT_ON, ING_STATUS.LEND_ON, ING_STATUS.ENABLE_REFUSED, ING_STATUS.LEND_FAULT, ING_STATUS.CONFIG_REFUSED, ING_STATUS.QUARANTINED]⟩

/-! ### ING_NEVE_LINES -/

/-- index lines in HBM, 0 to 83,886,080, which is 40 GiB; a larger value is refused (R187). -/
def ING_NEVE_LINES.LINES : Field := ⟨0, 0x200010, 0, 27, .rw, 0x5000000⟩

/-- The register ING_NEVE_LINES. -/
def regING_NEVE_LINES : Reg := ⟨0x200010, 4, [ING_NEVE_LINES.LINES]⟩

/-! ### ING_LEND_TABLE -/

/-- endpoint whose PF lends the memory (R188). -/
def ING_LEND_TABLE.EP : Field := ⟨0, 0x200018, 0, 2, .rw, 0x0⟩
/-- bits [63:12] of the lend table's host address (R188). -/
def ING_LEND_TABLE.BASE : Field := ⟨0, 0x200018, 12, 52, .rw, 0x0⟩

/-- The register ING_LEND_TABLE. -/
def regING_LEND_TABLE : Reg := ⟨0x200018, 8, [ING_LEND_TABLE.EP, ING_LEND_TABLE.BASE]⟩

/-! ### ING_LEND_PAGES -/

/-- lend table entries, 0 to 2,097,152, which is 4 TiB (R189). -/
def ING_LEND_PAGES.PAGES : Field := ⟨0, 0x200020, 0, 22, .rw, 0x0⟩

/-- The register ING_LEND_PAGES. -/
def regING_LEND_PAGES : Reg := ⟨0x200020, 4, [ING_LEND_PAGES.PAGES]⟩

/-! ### ING_SLICE -/

/-- verify mismatches on slice n since its last release or cold reset (R190). -/
def ING_SLICE.VMISMATCH (n : Nat) : Field := ⟨0, (0x200040 + 4 * n), 0, 8, .cnt, 0x0⟩
/-- 1: slice n is quarantined (R190). -/
def ING_SLICE.QUAR (n : Nat) : Field := ⟨0, (0x200040 + 4 * n), 8, 1, .ro, 0x0⟩

/-- The register ING_SLICE. -/
def regING_SLICE (n : Nat) : Reg := ⟨(0x200040 + 4 * n), 4, [ING_SLICE.VMISMATCH n, ING_SLICE.QUAR n]⟩

/-! ### ING_CNT_LOOKUPS -/

/-- count (R191). -/
def ING_CNT_LOOKUPS.COUNT : Field := ⟨0, 0x200100, 0, 64, .cnt, 0x0⟩

/-- The register ING_CNT_LOOKUPS. -/
def regING_CNT_LOOKUPS : Reg := ⟨0x200100, 8, [ING_CNT_LOOKUPS.COUNT]⟩

/-! ### ING_CNT_DRIFT_HITS -/

/-- count (R191). -/
def ING_CNT_DRIFT_HITS.COUNT : Field := ⟨0, 0x200108, 0, 64, .cnt, 0x0⟩

/-- The register ING_CNT_DRIFT_HITS. -/
def regING_CNT_DRIFT_HITS : Reg := ⟨0x200108, 8, [ING_CNT_DRIFT_HITS.COUNT]⟩

/-! ### ING_CNT_REFS_HONOURED -/

/-- count (R191). -/
def ING_CNT_REFS_HONOURED.COUNT : Field := ⟨0, 0x200110, 0, 64, .cnt, 0x0⟩

/-- The register ING_CNT_REFS_HONOURED. -/
def regING_CNT_REFS_HONOURED : Reg := ⟨0x200110, 8, [ING_CNT_REFS_HONOURED.COUNT]⟩

/-! ### ING_CNT_REFS_REFUSED -/

/-- count (R191). -/
def ING_CNT_REFS_REFUSED.COUNT : Field := ⟨0, 0x200118, 0, 64, .cnt, 0x0⟩

/-- The register ING_CNT_REFS_REFUSED. -/
def regING_CNT_REFS_REFUSED : Reg := ⟨0x200118, 8, [ING_CNT_REFS_REFUSED.COUNT]⟩

/-! ### ING_CNT_ZERO -/

/-- count (R191). -/
def ING_CNT_ZERO.COUNT : Field := ⟨0, 0x200120, 0, 64, .cnt, 0x0⟩

/-- The register ING_CNT_ZERO. -/
def regING_CNT_ZERO : Reg := ⟨0x200120, 8, [ING_CNT_ZERO.COUNT]⟩

/-! ### ING_CNT_RAW -/

/-- count (R191). -/
def ING_CNT_RAW.COUNT : Field := ⟨0, 0x200128, 0, 64, .cnt, 0x0⟩

/-- The register ING_CNT_RAW. -/
def regING_CNT_RAW : Reg := ⟨0x200128, 8, [ING_CNT_RAW.COUNT]⟩

/-! ### ING_CNT_STREAM_FAIL -/

/-- count (R191). -/
def ING_CNT_STREAM_FAIL.COUNT : Field := ⟨0, 0x200130, 0, 64, .cnt, 0x0⟩

/-- The register ING_CNT_STREAM_FAIL. -/
def regING_CNT_STREAM_FAIL : Reg := ⟨0x200130, 8, [ING_CNT_STREAM_FAIL.COUNT]⟩

/-! ### RIM_STATUS -/

/-- 1: the noise source passed its tests and is running (R235). -/
def RIM_STATUS.ENTROPY_OK : Field := ⟨0, 0x300000, 0, 1, .ro, 0x0⟩
/-- a health test failed under R227 (R235). -/
def RIM_STATUS.ENTROPY_FAULT : Field := ⟨0, 0x300000, 1, 1, .w1c, 0x0⟩
/-- 1: zeroized state of R232 (R235). -/
def RIM_STATUS.ZEROIZED : Field := ⟨0, 0x300000, 2, 1, .ro, 0x0⟩
/-- 1: a device key is held (R235). -/
def RIM_STATUS.DEVKEY_PRESENT : Field := ⟨0, 0x300000, 3, 1, .ro, 0x0⟩
/-- position of the current device key, 0 to 15 (R235). -/
def RIM_STATUS.DEVKEY_POS : Field := ⟨0, 0x300000, 4, 4, .ro, 0x0⟩
/-- 1: a zeroize is in progress (R235). -/
def RIM_STATUS.ZEROIZE_BUSY : Field := ⟨0, 0x300000, 8, 1, .ro, 0x0⟩
/-- a slot passed the mark of R213 (R235). -/
def RIM_STATUS.NONCE_WARN : Field := ⟨0, 0x300000, 9, 1, .w1c, 0x0⟩

/-- The register RIM_STATUS. -/
def regRIM_STATUS : Reg := ⟨0x300000, 4, [RIM_STATUS.ENTROPY_OK, RIM_STATUS.ENTROPY_FAULT, RIM_STATUS.ZEROIZED, RIM_STATUS.DEVKEY_PRESENT, RIM_STATUS.DEVKEY_POS, RIM_STATUS.ZEROIZE_BUSY, RIM_STATUS.NONCE_WARN]⟩

/-! ### RIM_CTRL -/

/-- 5A3Ch starts a zeroize; other values are ignored (R236). -/
def RIM_CTRL.ZEROIZE : Field := ⟨0, 0x300004, 0, 16, .wo, 0x0⟩
/-- 1 together with 5A3Ch in ZEROIZE also erases the device key (R236). -/
def RIM_CTRL.INCL_DEVKEY : Field := ⟨0, 0x300004, 16, 1, .wo, 0x0⟩

/-- The register RIM_CTRL. -/
def regRIM_CTRL : Reg := ⟨0x300004, 4, [RIM_CTRL.ZEROIZE, RIM_CTRL.INCL_DEVKEY]⟩

/-! ### RIM_SLOT_SEL -/

/-- slot that RIM_SLOT_INFO describes (R237). -/
def RIM_SLOT_SEL.SLOT : Field := ⟨0, 0x300010, 0, 12, .rw, 0x0⟩

/-- The register RIM_SLOT_SEL. -/
def regRIM_SLOT_SEL : Reg := ⟨0x300010, 4, [RIM_SLOT_SEL.SLOT]⟩

/-! ### RIM_SLOT_INFO -/

/-- key type as in R199; 0 for an empty slot (R238). -/
def RIM_SLOT_INFO.TYPE : Field := ⟨0, 0x300018, 0, 4, .ro, 0x0⟩
/-- 1: the slot is exhausted under R212 (R238). -/
def RIM_SLOT_INFO.EXHAUSTED : Field := ⟨0, 0x300018, 4, 1, .ro, 0x0⟩
/-- 1: the slot holds a counter lease (R238). -/
def RIM_SLOT_INFO.LEASED : Field := ⟨0, 0x300018, 5, 1, .ro, 0x0⟩
/-- owning function number; 0 for an empty stream-key slot (R238). -/
def RIM_SLOT_INFO.OWNER : Field := ⟨0, 0x300018, 16, 10, .ro, 0x0⟩
/-- KEY_ID of the slot's key (R238). -/
def RIM_SLOT_INFO.KEY_ID : Field := ⟨0, 0x300018, 32, 32, .ro, 0x0⟩

/-- The register RIM_SLOT_INFO. -/
def regRIM_SLOT_INFO : Reg := ⟨0x300018, 8, [RIM_SLOT_INFO.TYPE, RIM_SLOT_INFO.EXHAUSTED, RIM_SLOT_INFO.LEASED, RIM_SLOT_INFO.OWNER, RIM_SLOT_INFO.KEY_ID]⟩

/-! ### RIM_SLICE -/

/-- unrecovered compare failures on slice n since its last release or cold reset (R239). -/
def RIM_SLICE.CMISMATCH (n : Nat) : Field := ⟨0, (0x300040 + 4 * n), 0, 8, .cnt, 0x0⟩
/-- compare failures recovered by recomputation (R239). -/
def RIM_SLICE.CRETRY (n : Nat) : Field := ⟨0, (0x300040 + 4 * n), 8, 16, .cnt, 0x0⟩

/-- The register RIM_SLICE. -/
def regRIM_SLICE (n : Nat) : Reg := ⟨(0x300040 + 4 * n), 4, [RIM_SLICE.CMISMATCH n, RIM_SLICE.CRETRY n]⟩

/-! ### RIM_CNT_BLOCKS -/

/-- count (R240). -/
def RIM_CNT_BLOCKS.COUNT : Field := ⟨0, 0x300100, 0, 64, .cnt, 0x0⟩

/-- The register RIM_CNT_BLOCKS. -/
def regRIM_CNT_BLOCKS : Reg := ⟨0x300100, 8, [RIM_CNT_BLOCKS.COUNT]⟩

/-! ### RIM_CNT_RETRIES -/

/-- count (R240). -/
def RIM_CNT_RETRIES.COUNT : Field := ⟨0, 0x300108, 0, 64, .cnt, 0x0⟩

/-- The register RIM_CNT_RETRIES. -/
def regRIM_CNT_RETRIES : Reg := ⟨0x300108, 8, [RIM_CNT_RETRIES.COUNT]⟩

/-! ### RIM_CNT_UNWRAP_FAIL -/

/-- count (R240). -/
def RIM_CNT_UNWRAP_FAIL.COUNT : Field := ⟨0, 0x300110, 0, 64, .cnt, 0x0⟩

/-- The register RIM_CNT_UNWRAP_FAIL. -/
def regRIM_CNT_UNWRAP_FAIL : Reg := ⟨0x300110, 8, [RIM_CNT_UNWRAP_FAIL.COUNT]⟩

/-! ### RIM_CNT_NONCE_EXH -/

/-- count (R240). -/
def RIM_CNT_NONCE_EXH.COUNT : Field := ⟨0, 0x300118, 0, 64, .cnt, 0x0⟩

/-- The register RIM_CNT_NONCE_EXH. -/
def regRIM_CNT_NONCE_EXH : Reg := ⟨0x300118, 8, [RIM_CNT_NONCE_EXH.COUNT]⟩

/-! ### RIM_CNT_HEALTH_FAIL -/

/-- count (R240). -/
def RIM_CNT_HEALTH_FAIL.COUNT : Field := ⟨0, 0x300120, 0, 64, .cnt, 0x0⟩

/-- The register RIM_CNT_HEALTH_FAIL. -/
def regRIM_CNT_HEALTH_FAIL : Reg := ⟨0x300120, 8, [RIM_CNT_HEALTH_FAIL.COUNT]⟩

/-! ### SCH_STATUS -/

/-- 1: trained and handshake complete (R276). -/
def SCH_STATUS.UP (h : Half) : Field := ⟨(halfSpace h), 0x400000, 0, 1, .ro, 0x0⟩
/-- lanes in service, host to media, 0 to 18 (R276). -/
def SCH_STATUS.W_H2M (h : Half) : Field := ⟨(halfSpace h), 0x400000, 1, 5, .ro, 0x0⟩
/-- lanes in service, media to host, 0 to 18 (R276). -/
def SCH_STATUS.W_M2H (h : Half) : Field := ⟨(halfSpace h), 0x400000, 6, 5, .ro, 0x0⟩
/-- warm spares, host to media, 0 to 2 (R276). -/
def SCH_STATUS.SPARE_H2M (h : Half) : Field := ⟨(halfSpace h), 0x400000, 11, 2, .ro, 0x0⟩
/-- warm spares, media to host, 0 to 2 (R276). -/
def SCH_STATUS.SPARE_M2H (h : Half) : Field := ⟨(halfSpace h), 0x400000, 13, 2, .ro, 0x0⟩
/-- a width was reduced under R260 (R276). -/
def SCH_STATUS.DEGRADED (h : Half) : Field := ⟨(halfSpace h), 0x400000, 15, 1, .w1c, 0x0⟩
/-- a spare was substituted under R259 (R276). -/
def SCH_STATUS.SUBST (h : Half) : Field := ⟨(halfSpace h), 0x400000, 16, 1, .w1c, 0x0⟩
/-- this half raised the fatal Schrund fault (R276). -/
def SCH_STATUS.FATAL (h : Half) : Field := ⟨(halfSpace h), 0x400000, 17, 1, .rws, 0x0⟩
/-- 1: the media half is in holdover (R276). -/
def SCH_STATUS.HOLDOVER (h : Half) : Field := ⟨(halfSpace h), 0x400000, 18, 1, .ro, 0x0⟩
/-- 1: the media half uses the alternate clock lane (R276). -/
def SCH_STATUS.CLK_ALT (h : Half) : Field := ⟨(halfSpace h), 0x400000, 19, 1, .ro, 0x0⟩
/-- a message failed validation under R267 (R276). -/
def SCH_STATUS.REJECT (h : Half) : Field := ⟨(halfSpace h), 0x400000, 20, 1, .w1c, 0x0⟩
/-- the peer was declared untrusted under R267 (R276). -/
def SCH_STATUS.UNTRUSTED (h : Half) : Field := ⟨(halfSpace h), 0x400000, 21, 1, .rws, 0x0⟩
/-- 1: peer down under R265 (R276). -/
def SCH_STATUS.PEER_DOWN (h : Half) : Field := ⟨(halfSpace h), 0x400000, 22, 1, .ro, 0x0⟩

/-- The register SCH_STATUS. -/
def regSCH_STATUS (h : Half) : Reg := ⟨0x400000, 4, [SCH_STATUS.UP h, SCH_STATUS.W_H2M h, SCH_STATUS.W_M2H h, SCH_STATUS.SPARE_H2M h, SCH_STATUS.SPARE_M2H h, SCH_STATUS.DEGRADED h, SCH_STATUS.SUBST h, SCH_STATUS.FATAL h, SCH_STATUS.HOLDOVER h, SCH_STATUS.CLK_ALT h, SCH_STATUS.REJECT h, SCH_STATUS.UNTRUSTED h, SCH_STATUS.PEER_DOWN h]⟩

/-! ### SCH_CTRL -/

/-- 1 retrains lanes under R262 (R277). -/
def SCH_CTRL.LANE_RETRY (h : Half) : Field := ⟨(halfSpace h), 0x400004, 0, 1, .wo, 0x0⟩

/-- The register SCH_CTRL. -/
def regSCH_CTRL (h : Half) : Reg := ⟨0x400004, 4, [SCH_CTRL.LANE_RETRY h]⟩

/-! ### SCH_LANE_H2M -/

/-- 1: the lane's receiver holds lock (R278). -/
def SCH_LANE_H2M.LOCKED (h : Half) : Field := ⟨(halfSpace h), 0x400008, 0, 20, .ro, 0x0⟩
/-- 1: the lane carries frames in rotation (R278). -/
def SCH_LANE_H2M.IN_SERVICE (h : Half) : Field := ⟨(halfSpace h), 0x400008, 20, 20, .ro, 0x0⟩
/-- 1: the lane is retired under R262 (R278). -/
def SCH_LANE_H2M.RETIRED (h : Half) : Field := ⟨(halfSpace h), 0x400008, 40, 20, .rws, 0x0⟩

/-- The register SCH_LANE_H2M. -/
def regSCH_LANE_H2M (h : Half) : Reg := ⟨0x400008, 8, [SCH_LANE_H2M.LOCKED h, SCH_LANE_H2M.IN_SERVICE h, SCH_LANE_H2M.RETIRED h]⟩

/-! ### SCH_LANE_M2H -/

/-- 1: the lane's receiver holds lock (R278). -/
def SCH_LANE_M2H.LOCKED (h : Half) : Field := ⟨(halfSpace h), 0x400010, 0, 20, .ro, 0x0⟩
/-- 1: the lane carries frames in rotation (R278). -/
def SCH_LANE_M2H.IN_SERVICE (h : Half) : Field := ⟨(halfSpace h), 0x400010, 20, 20, .ro, 0x0⟩
/-- 1: the lane is retired under R262 (R278). -/
def SCH_LANE_M2H.RETIRED (h : Half) : Field := ⟨(halfSpace h), 0x400010, 40, 20, .rws, 0x0⟩

/-- The register SCH_LANE_M2H. -/
def regSCH_LANE_M2H (h : Half) : Reg := ⟨0x400010, 8, [SCH_LANE_M2H.LOCKED h, SCH_LANE_M2H.IN_SERVICE h, SCH_LANE_M2H.RETIRED h]⟩

/-! ### SCH_CNT_FRAMES -/

/-- count (R279). -/
def SCH_CNT_FRAMES.COUNT (h : Half) : Field := ⟨(halfSpace h), 0x400100, 0, 64, .cnt, 0x0⟩

/-- The register SCH_CNT_FRAMES. -/
def regSCH_CNT_FRAMES (h : Half) : Reg := ⟨0x400100, 8, [SCH_CNT_FRAMES.COUNT h]⟩

/-! ### SCH_CNT_REPLAY -/

/-- count (R279). -/
def SCH_CNT_REPLAY.COUNT (h : Half) : Field := ⟨(halfSpace h), 0x400108, 0, 64, .cnt, 0x0⟩

/-- The register SCH_CNT_REPLAY. -/
def regSCH_CNT_REPLAY (h : Half) : Reg := ⟨0x400108, 8, [SCH_CNT_REPLAY.COUNT h]⟩

/-! ### SCH_CNT_FCHECK -/

/-- count (R279). -/
def SCH_CNT_FCHECK.COUNT (h : Half) : Field := ⟨(halfSpace h), 0x400110, 0, 64, .cnt, 0x0⟩

/-- The register SCH_CNT_FCHECK. -/
def regSCH_CNT_FCHECK (h : Half) : Reg := ⟨0x400110, 8, [SCH_CNT_FCHECK.COUNT h]⟩

/-! ### SCH_CNT_SUBST -/

/-- count (R279). -/
def SCH_CNT_SUBST.COUNT (h : Half) : Field := ⟨(halfSpace h), 0x400118, 0, 64, .cnt, 0x0⟩

/-- The register SCH_CNT_SUBST. -/
def regSCH_CNT_SUBST (h : Half) : Reg := ⟨0x400118, 8, [SCH_CNT_SUBST.COUNT h]⟩

/-! ### SCH_CNT_REJECT -/

/-- count (R279). -/
def SCH_CNT_REJECT.COUNT (h : Half) : Field := ⟨(halfSpace h), 0x400120, 0, 64, .cnt, 0x0⟩

/-- The register SCH_CNT_REJECT. -/
def regSCH_CNT_REJECT (h : Half) : Reg := ⟨0x400120, 8, [SCH_CNT_REJECT.COUNT h]⟩

/-! ### FRN_CFG -/

/-- Firn region in GiB, 4 to 32; subject to R281; other values are refused (R337). -/
def FRN_CFG.REGION_GIB : Field := ⟨1, 0x500000, 0, 6, .rw, 0x20⟩
/-- class A reserve in units of 64 MiB, 0 to 64; a value above one quarter of the heap is refused (R337). -/
def FRN_CFG.A_RESERVE : Field := ⟨1, 0x500000, 8, 8, .rw, 0x8⟩

/-- The register FRN_CFG. -/
def regFRN_CFG : Reg := ⟨0x500000, 4, [FRN_CFG.REGION_GIB, FRN_CFG.A_RESERVE]⟩

/-! ### FRN_CTRL -/

/-- 7C51h starts a dump under R331; other values are ignored (R338). -/
def FRN_CTRL.DUMP : Field := ⟨1, 0x500004, 0, 16, .wo, 0x0⟩

/-- The register FRN_CTRL. -/
def regFRN_CTRL : Reg := ⟨0x500004, 4, [FRN_CTRL.DUMP]⟩

/-! ### FRN_STATUS -/

/-- durability mode: 00b dual; 01b solo, no twin; 10b solo, holdup not ready; 11b fenced (R339). -/
def FRN_STATUS.MODE : Field := ⟨1, 0x500008, 0, 2, .ro, 0x1⟩
/-- 1: this module's holdup gauge reports dump-ready (R339). -/
def FRN_STATUS.DUMP_READY : Field := ⟨1, 0x500008, 2, 1, .ro, 0x0⟩
/-- 1: the region holds no record (R339). -/
def FRN_STATUS.EMPTY : Field := ⟨1, 0x500008, 3, 1, .ro, 0x1⟩
/-- 1: a dump is in progress (R339). -/
def FRN_STATUS.DUMPING : Field := ⟨1, 0x500008, 4, 1, .ro, 0x0⟩
/-- 1: a restore is in progress (R339). -/
def FRN_STATUS.RESTORING : Field := ⟨1, 0x500008, 5, 1, .ro, 0x0⟩
/-- a divergent record was found under R300 or R329 (R339). -/
def FRN_STATUS.DIVERGENT : Field := ⟨1, 0x500008, 6, 1, .rws, 0x0⟩
/-- the last restore came from an unsealed dump (R339). -/
def FRN_STATUS.DUMP_INCOMPLETE : Field := ⟨1, 0x500008, 7, 1, .rws, 0x0⟩
/-- a restore has completed (R339). -/
def FRN_STATUS.RESTORED : Field := ⟨1, 0x500008, 8, 1, .w1c, 0x0⟩
/-- 1: a record waits for space (R339). -/
def FRN_STATUS.SPACE_WAIT : Field := ⟨1, 0x500008, 9, 1, .ro, 0x0⟩
/-- a write to FRN_CFG was refused (R339). -/
def FRN_STATUS.CONFIG_REFUSED : Field := ⟨1, 0x500008, 10, 1, .w1c, 0x0⟩
/-- a class A record waited for space (R339). -/
def FRN_STATUS.CLASS_A_WAIT : Field := ⟨1, 0x500008, 11, 1, .w1c, 0x0⟩

/-- The register FRN_STATUS. -/
def regFRN_STATUS : Reg := ⟨0x500008, 4, [FRN_STATUS.MODE, FRN_STATUS.DUMP_READY, FRN_STATUS.EMPTY, FRN_STATUS.DUMPING, FRN_STATUS.RESTORING, FRN_STATUS.DIVERGENT, FRN_STATUS.DUMP_INCOMPLETE, FRN_STATUS.RESTORED, FRN_STATUS.SPACE_WAIT, FRN_STATUS.CONFIG_REFUSED, FRN_STATUS.CLASS_A_WAIT]⟩

/-! ### FRN_SPACE -/

/-- free heap pages, reserves included (R340). -/
def FRN_SPACE.FREE_PAGES : Field := ⟨1, 0x500010, 0, 23, .ro, 0x0⟩
/-- free header slots, reserves included (R340). -/
def FRN_SPACE.FREE_SLOTS : Field := ⟨1, 0x500010, 32, 21, .ro, 0x0⟩

/-- The register FRN_SPACE. -/
def regFRN_SPACE : Reg := ⟨0x500010, 8, [FRN_SPACE.FREE_PAGES, FRN_SPACE.FREE_SLOTS]⟩

/-! ### FRN_GROUPS -/

/-- groups in the OPEN or SEALING state held by this module (R341). -/
def FRN_GROUPS.OPEN : Field := ⟨1, 0x500018, 0, 17, .ro, 0x0⟩

/-- The register FRN_GROUPS. -/
def regFRN_GROUPS : Reg := ⟨0x500018, 4, [FRN_GROUPS.OPEN]⟩

/-! ### FRN_POOL_SEL -/

/-- pool that FRN_POOL_SEQ describes (R342). -/
def FRN_POOL_SEL.POOL : Field := ⟨1, 0x50001c, 0, 3, .rw, 0x0⟩

/-- The register FRN_POOL_SEL. -/
def regFRN_POOL_SEL : Reg := ⟨0x50001c, 4, [FRN_POOL_SEL.POOL]⟩

/-! ### FRN_POOL_SEQ -/

/-- highest COMMIT_SEQ of the selected pool held in this module's region (R342). -/
def FRN_POOL_SEQ.SEQ : Field := ⟨1, 0x500020, 0, 64, .ro, 0x0⟩

/-- The register FRN_POOL_SEQ. -/
def regFRN_POOL_SEQ : Reg := ⟨0x500020, 8, [FRN_POOL_SEQ.SEQ]⟩

/-! ### FRN_DUMP_INFO -/

/-- slot of the newest dump (R343). -/
def FRN_DUMP_INFO.SLOT : Field := ⟨1, 0x500028, 0, 2, .ro, 0x0⟩
/-- 1: that dump is sealed (R343). -/
def FRN_DUMP_INFO.SEALED : Field := ⟨1, 0x500028, 2, 1, .ro, 0x0⟩
/-- 1: that dump has been restored (R343). -/
def FRN_DUMP_INFO.CONSUMED : Field := ⟨1, 0x500028, 3, 1, .ro, 0x0⟩
/-- REASON of that dump (R343). -/
def FRN_DUMP_INFO.REASON : Field := ⟨1, 0x500028, 8, 8, .ro, 0x0⟩
/-- bits [47:0] of its DUMP_SERIAL (R343). -/
def FRN_DUMP_INFO.SERIAL : Field := ⟨1, 0x500028, 16, 48, .ro, 0x0⟩

/-- The register FRN_DUMP_INFO. -/
def regFRN_DUMP_INFO : Reg := ⟨0x500028, 8, [FRN_DUMP_INFO.SLOT, FRN_DUMP_INFO.SEALED, FRN_DUMP_INFO.CONSUMED, FRN_DUMP_INFO.REASON, FRN_DUMP_INFO.SERIAL]⟩

/-! ### FRN_CNT_RECORDS -/

/-- count (R344). -/
def FRN_CNT_RECORDS.COUNT : Field := ⟨1, 0x500100, 0, 64, .cnt, 0x0⟩

/-- The register FRN_CNT_RECORDS. -/
def regFRN_CNT_RECORDS : Reg := ⟨0x500100, 8, [FRN_CNT_RECORDS.COUNT]⟩

/-! ### FRN_CNT_STRIPES -/

/-- count (R344). -/
def FRN_CNT_STRIPES.COUNT : Field := ⟨1, 0x500108, 0, 64, .cnt, 0x0⟩

/-- The register FRN_CNT_STRIPES. -/
def regFRN_CNT_STRIPES : Reg := ⟨0x500108, 8, [FRN_CNT_STRIPES.COUNT]⟩

/-! ### FRN_CNT_REPLAYS -/

/-- count (R344). -/
def FRN_CNT_REPLAYS.COUNT : Field := ⟨1, 0x500110, 0, 64, .cnt, 0x0⟩

/-- The register FRN_CNT_REPLAYS. -/
def regFRN_CNT_REPLAYS : Reg := ⟨0x500110, 8, [FRN_CNT_REPLAYS.COUNT]⟩

/-! ### FRN_CNT_DIVERGENT -/

/-- count (R344). -/
def FRN_CNT_DIVERGENT.COUNT : Field := ⟨1, 0x500118, 0, 64, .cnt, 0x0⟩

/-- The register FRN_CNT_DIVERGENT. -/
def regFRN_CNT_DIVERGENT : Reg := ⟨0x500118, 8, [FRN_CNT_DIVERGENT.COUNT]⟩

/-! ### FRN_CNT_COMMITS -/

/-- count (R344). -/
def FRN_CNT_COMMITS.COUNT : Field := ⟨1, 0x500120, 0, 64, .cnt, 0x0⟩

/-- The register FRN_CNT_COMMITS. -/
def regFRN_CNT_COMMITS : Reg := ⟨0x500120, 8, [FRN_CNT_COMMITS.COUNT]⟩

/-! ### FRN_CNT_DISCARDS -/

/-- count (R344). -/
def FRN_CNT_DISCARDS.COUNT : Field := ⟨1, 0x500128, 0, 64, .cnt, 0x0⟩

/-- The register FRN_CNT_DISCARDS. -/
def regFRN_CNT_DISCARDS : Reg := ⟨0x500128, 8, [FRN_CNT_DISCARDS.COUNT]⟩

/-! ### FRN_CNT_SPACE_WAITS -/

/-- count (R344). -/
def FRN_CNT_SPACE_WAITS.COUNT : Field := ⟨1, 0x500130, 0, 64, .cnt, 0x0⟩

/-- The register FRN_CNT_SPACE_WAITS. -/
def regFRN_CNT_SPACE_WAITS : Reg := ⟨0x500130, 8, [FRN_CNT_SPACE_WAITS.COUNT]⟩

/-! ### MOR_STATUS -/

/-- bit n is 1 while engine n is quarantined (R391). -/
def MOR_STATUS.ENG_QUAR : Field := ⟨1, 0x600000, 0, 16, .ro, 0x0⟩
/-- a stripe entered the divergence log (R391). -/
def MOR_STATUS.DIVERGENT : Field := ⟨1, 0x600000, 16, 1, .rws, 0x0⟩
/-- a strip was located and repaired (R391). -/
def MOR_STATUS.REPAIRED : Field := ⟨1, 0x600000, 17, 1, .w1c, 0x0⟩
/-- a read failed under R379 (R391). -/
def MOR_STATUS.UNRECOVERED : Field := ⟨1, 0x600000, 18, 1, .w1c, 0x0⟩

/-- The register MOR_STATUS. -/
def regMOR_STATUS : Reg := ⟨0x600000, 4, [MOR_STATUS.ENG_QUAR, MOR_STATUS.DIVERGENT, MOR_STATUS.REPAIRED, MOR_STATUS.UNRECOVERED]⟩

/-! ### MOR_POOL_SEL -/

/-- pool that MOR_POOL_GEOM and MOR_POOL_STATE describe (R392). -/
def MOR_POOL_SEL.POOL : Field := ⟨1, 0x600004, 0, 3, .rw, 0x0⟩

/-- The register MOR_POOL_SEL. -/
def regMOR_POOL_SEL : Reg := ⟨0x600004, 4, [MOR_POOL_SEL.POOL]⟩

/-! ### MOR_POOL_GEOM -/

/-- bits [23:0] of the POOL_GEOMETRY value (R392). -/
def MOR_POOL_GEOM.GEOM : Field := ⟨1, 0x600008, 0, 24, .ro, 0x0⟩
/-- 1: the pool is defined (R392). -/
def MOR_POOL_GEOM.DEFINED : Field := ⟨1, 0x600008, 24, 1, .ro, 0x0⟩
/-- rotation seed (R392). -/
def MOR_POOL_GEOM.SEED : Field := ⟨1, 0x600008, 32, 32, .ro, 0x0⟩

/-- The register MOR_POOL_GEOM. -/
def regMOR_POOL_GEOM : Reg := ⟨0x600008, 8, [MOR_POOL_GEOM.GEOM, MOR_POOL_GEOM.DEFINED, MOR_POOL_GEOM.SEED]⟩

/-! ### MOR_POOL_STATE -/

/-- stripes per row (R393). -/
def MOR_POOL_STATE.SLOTS : Field := ⟨1, 0x600010, 0, 8, .ro, 0x0⟩
/-- spare positions per row (R393). -/
def MOR_POOL_STATE.SPARE_POS : Field := ⟨1, 0x600010, 8, 10, .ro, 0x0⟩
/-- relocation entries in use, 0 to 8 (R393). -/
def MOR_POOL_STATE.RELOCS : Field := ⟨1, 0x600010, 18, 4, .ro, 0x0⟩
/-- stripes of the pool in the divergence log (R393). -/
def MOR_POOL_STATE.DIV_STRIPES : Field := ⟨1, 0x600010, 32, 32, .ro, 0x0⟩

/-- The register MOR_POOL_STATE. -/
def regMOR_POOL_STATE : Reg := ⟨0x600010, 8, [MOR_POOL_STATE.SLOTS, MOR_POOL_STATE.SPARE_POS, MOR_POOL_STATE.RELOCS, MOR_POOL_STATE.DIV_STRIPES]⟩

/-! ### MOR_CTRL -/

/-- 1 in bit n releases engine n from quarantine under R388 (R395). -/
def MOR_CTRL.ENG_RELEASE : Field := ⟨1, 0x600018, 0, 16, .wo, 0x0⟩

/-- The register MOR_CTRL. -/
def regMOR_CTRL : Reg := ⟨0x600018, 4, [MOR_CTRL.ENG_RELEASE]⟩

/-! ### MOR_ENG -/

/-- P mismatches on engine n since its last release or cold reset of the media half (R394). -/
def MOR_ENG.PMISMATCH (n : Nat) : Field := ⟨1, (0x600040 + 4 * n), 0, 8, .cnt, 0x0⟩

/-- The register MOR_ENG. -/
def regMOR_ENG (n : Nat) : Reg := ⟨(0x600040 + 4 * n), 4, [MOR_ENG.PMISMATCH n]⟩

/-! ### MOR_CNT_STRIPES -/

/-- count (R396). -/
def MOR_CNT_STRIPES.COUNT : Field := ⟨1, 0x600100, 0, 64, .cnt, 0x0⟩

/-- The register MOR_CNT_STRIPES. -/
def regMOR_CNT_STRIPES : Reg := ⟨0x600100, 8, [MOR_CNT_STRIPES.COUNT]⟩

/-! ### MOR_CNT_RECON -/

/-- count (R396). -/
def MOR_CNT_RECON.COUNT : Field := ⟨1, 0x600108, 0, 64, .cnt, 0x0⟩

/-- The register MOR_CNT_RECON. -/
def regMOR_CNT_RECON : Reg := ⟨0x600108, 8, [MOR_CNT_RECON.COUNT]⟩

/-! ### MOR_CNT_IDENTITY -/

/-- count (R396). -/
def MOR_CNT_IDENTITY.COUNT : Field := ⟨1, 0x600110, 0, 64, .cnt, 0x0⟩

/-- The register MOR_CNT_IDENTITY. -/
def regMOR_CNT_IDENTITY : Reg := ⟨0x600110, 8, [MOR_CNT_IDENTITY.COUNT]⟩

/-! ### MOR_CNT_REPAIRED -/

/-- count (R396). -/
def MOR_CNT_REPAIRED.COUNT : Field := ⟨1, 0x600118, 0, 64, .cnt, 0x0⟩

/-- The register MOR_CNT_REPAIRED. -/
def regMOR_CNT_REPAIRED : Reg := ⟨0x600118, 8, [MOR_CNT_REPAIRED.COUNT]⟩

/-! ### MOR_CNT_DIVERGENT -/

/-- count (R396). -/
def MOR_CNT_DIVERGENT.COUNT : Field := ⟨1, 0x600120, 0, 64, .cnt, 0x0⟩

/-- The register MOR_CNT_DIVERGENT. -/
def regMOR_CNT_DIVERGENT : Reg := ⟨0x600120, 8, [MOR_CNT_DIVERGENT.COUNT]⟩

/-! ### MOR_CNT_UNRECOVERED -/

/-- count (R396). -/
def MOR_CNT_UNRECOVERED.COUNT : Field := ⟨1, 0x600128, 0, 64, .cnt, 0x0⟩

/-- The register MOR_CNT_UNRECOVERED. -/
def regMOR_CNT_UNRECOVERED : Reg := ⟨0x600128, 8, [MOR_CNT_UNRECOVERED.COUNT]⟩

/-! ### MNT_CFG -/

/-- syndrome margin floor, 0 to 3 (R448). -/
def MNT_CFG.SYN_FLOOR : Field := ⟨1, 0x700000, 0, 2, .rw, 0x1⟩
/-- twin margin floor, 0 or 1 (R448). -/
def MNT_CFG.TWIN_FLOOR : Field := ⟨1, 0x700000, 2, 1, .rw, 0x1⟩
/-- holdup margin floor in full dumps, 0 to 7 (R448). -/
def MNT_CFG.HOLD_FLOOR : Field := ⟨1, 0x700000, 3, 3, .rw, 0x1⟩

/-- The register MNT_CFG. -/
def regMNT_CFG : Reg := ⟨0x700000, 4, [MNT_CFG.SYN_FLOOR, MNT_CFG.TWIN_FLOOR, MNT_CFG.HOLD_FLOOR]⟩

/-! ### MNT_RATE -/

/-- class D weight for level 0 rebuild, 1 to 255 (R449). -/
def MNT_RATE.CRIT_WD : Field := ⟨1, 0x700004, 0, 8, .rw, 0xc⟩
/-- class D weight for level 1 rebuild and SCRUB activities, 1 to 255 (R449). -/
def MNT_RATE.DEG_WD : Field := ⟨1, 0x700004, 8, 8, .rw, 0x4⟩
/-- routine scrub pass period in days, 1 to 255 (R449). -/
def MNT_RATE.SCRUB_DAYS : Field := ⟨1, 0x700004, 16, 8, .rw, 0xe⟩

/-- The register MNT_RATE. -/
def regMNT_RATE : Reg := ⟨0x700004, 4, [MNT_RATE.CRIT_WD, MNT_RATE.DEG_WD, MNT_RATE.SCRUB_DAYS]⟩

/-! ### MNT_STATUS -/

/-- 1: some pool holds rebuild work (R450). -/
def MNT_STATUS.REBUILDING : Field := ⟨1, 0x700008, 0, 1, .ro, 0x0⟩
/-- 1: a stripe at level 0 waits for rebuild (R450). -/
def MNT_STATUS.CRITICAL : Field := ⟨1, 0x700008, 1, 1, .ro, 0x0⟩
/-- a stripe entered a lost-stripe log (R450). -/
def MNT_STATUS.LOST : Field := ⟨1, 0x700008, 2, 1, .rws, 0x0⟩
/-- a stripe was not entered under R416 (R450). -/
def MNT_STATUS.LOST_OVF : Field := ⟨1, 0x700008, 3, 1, .rws, 0x0⟩
/-- an activity was withdrawn under R435 (R450). -/
def MNT_STATUS.WITHDRAWN : Field := ⟨1, 0x700008, 4, 1, .w1c, 0x0⟩
/-- a repair queue overflowed under R421 (R450). -/
def MNT_STATUS.REPAIR_OVF : Field := ⟨1, 0x700008, 5, 1, .w1c, 0x0⟩
/-- bit 8 + p is 1 while pool p is offline (R450). -/
def MNT_STATUS.POOL_OFFLINE : Field := ⟨1, 0x700008, 8, 8, .ro, 0x0⟩
/-- activities in this module's ledger, 0 to 64 (R450). -/
def MNT_STATUS.ACTIVITIES : Field := ⟨1, 0x700008, 16, 7, .ro, 0x0⟩
/-- 1: this module holds the pair's ledger (R450). -/
def MNT_STATUS.LEDGER : Field := ⟨1, 0x700008, 23, 1, .ro, 0x0⟩

/-- The register MNT_STATUS. -/
def regMNT_STATUS : Reg := ⟨0x700008, 4, [MNT_STATUS.REBUILDING, MNT_STATUS.CRITICAL, MNT_STATUS.LOST, MNT_STATUS.LOST_OVF, MNT_STATUS.WITHDRAWN, MNT_STATUS.REPAIR_OVF, MNT_STATUS.POOL_OFFLINE, MNT_STATUS.ACTIVITIES, MNT_STATUS.LEDGER]⟩

/-! ### MNT_POOL_SEL -/

/-- selected pool (R451). -/
def MNT_POOL_SEL.POOL : Field := ⟨1, 0x70000c, 0, 3, .rw, 0x0⟩

/-- The register MNT_POOL_SEL. -/
def regMNT_POOL_SEL : Reg := ⟨0x70000c, 4, [MNT_POOL_SEL.POOL]⟩

/-! ### MNT_POOL_PROG -/

/-- level being rebuilt, 0 to 3; 7h for no rebuild work (R451). -/
def MNT_POOL_PROG.LEVEL : Field := ⟨1, 0x700010, 0, 3, .ro, 0x7⟩
/-- syndrome margin under R426, 0 to 4 (R451). -/
def MNT_POOL_PROG.MARGIN : Field := ⟨1, 0x700010, 3, 3, .ro, 0x0⟩
/-- lost count under R399, saturating at 15 (R451). -/
def MNT_POOL_PROG.LOSTCNT : Field := ⟨1, 0x700010, 6, 4, .ro, 0x0⟩
/-- row at which the sequencer works (R451). -/
def MNT_POOL_PROG.ROW : Field := ⟨1, 0x700010, 16, 41, .ro, 0x0⟩

/-- The register MNT_POOL_PROG. -/
def regMNT_POOL_PROG : Reg := ⟨0x700010, 8, [MNT_POOL_PROG.LEVEL, MNT_POOL_PROG.MARGIN, MNT_POOL_PROG.LOSTCNT, MNT_POOL_PROG.ROW]⟩

/-! ### MNT_SCRUB_PROG -/

/-- row at which the current pass works (R452). -/
def MNT_SCRUB_PROG.ROW : Field := ⟨1, 0x700018, 0, 41, .ro, 0x0⟩
/-- 1: the pass belongs to a SCRUB activity (R452). -/
def MNT_SCRUB_PROG.ONDEMAND : Field := ⟨1, 0x700018, 41, 1, .ro, 0x0⟩
/-- a pass did not end within SCRUB_DAYS (R452). -/
def MNT_SCRUB_PROG.LATE : Field := ⟨1, 0x700018, 42, 1, .w1c, 0x0⟩
/-- passes completed; wraps from FFFFh to 0 (R452). -/
def MNT_SCRUB_PROG.PASSES : Field := ⟨1, 0x700018, 48, 16, .cntWrap, 0x0⟩

/-- The register MNT_SCRUB_PROG. -/
def regMNT_SCRUB_PROG : Reg := ⟨0x700018, 8, [MNT_SCRUB_PROG.ROW, MNT_SCRUB_PROG.ONDEMAND, MNT_SCRUB_PROG.LATE, MNT_SCRUB_PROG.PASSES]⟩

/-! ### MNT_MEMBER_SEL -/

/-- pool (R453). -/
def MNT_MEMBER_SEL.POOL : Field := ⟨1, 0x700020, 0, 3, .rw, 0x0⟩
/-- member number, 0 to 511 (R453). -/
def MNT_MEMBER_SEL.MEMBER : Field := ⟨1, 0x700020, 8, 9, .rw, 0x0⟩

/-- The register MNT_MEMBER_SEL. -/
def regMNT_MEMBER_SEL : Reg := ⟨0x700020, 4, [MNT_MEMBER_SEL.POOL, MNT_MEMBER_SEL.MEMBER]⟩

/-! ### MNT_MEMBER -/

/-- state code of R397 (R453). -/
def MNT_MEMBER.STATE : Field := ⟨1, 0x700028, 0, 3, .ro, 0x0⟩
/-- 1: a relocation entry names the member (R453). -/
def MNT_MEMBER.RELOC : Field := ⟨1, 0x700028, 3, 1, .ro, 0x0⟩
/-- number of that entry (R453). -/
def MNT_MEMBER.RELOC_N : Field := ⟨1, 0x700028, 4, 3, .ro, 0x0⟩
/-- cause code of R400 for the last change to SUSPECT or FAILED (R453). -/
def MNT_MEMBER.CAUSE : Field := ⟨1, 0x700028, 8, 8, .ro, 0x0⟩
/-- ID of the activity that names the member; 0 for none (R453). -/
def MNT_MEMBER.ACTIVITY : Field := ⟨1, 0x700028, 16, 16, .ro, 0x0⟩

/-- The register MNT_MEMBER. -/
def regMNT_MEMBER : Reg := ⟨0x700028, 8, [MNT_MEMBER.STATE, MNT_MEMBER.RELOC, MNT_MEMBER.RELOC_N, MNT_MEMBER.CAUSE, MNT_MEMBER.ACTIVITY]⟩

/-! ### MNT_CNT_REBUILT -/

/-- count (R454). -/
def MNT_CNT_REBUILT.COUNT : Field := ⟨1, 0x700100, 0, 64, .cnt, 0x0⟩

/-- The register MNT_CNT_REBUILT. -/
def regMNT_CNT_REBUILT : Reg := ⟨0x700100, 8, [MNT_CNT_REBUILT.COUNT]⟩

/-! ### MNT_CNT_SCRUBBED -/

/-- count (R454). -/
def MNT_CNT_SCRUBBED.COUNT : Field := ⟨1, 0x700108, 0, 64, .cnt, 0x0⟩

/-- The register MNT_CNT_SCRUBBED. -/
def regMNT_CNT_SCRUBBED : Reg := ⟨0x700108, 8, [MNT_CNT_SCRUBBED.COUNT]⟩

/-! ### MNT_CNT_REPAIRS -/

/-- count (R454). -/
def MNT_CNT_REPAIRS.COUNT : Field := ⟨1, 0x700110, 0, 64, .cnt, 0x0⟩

/-- The register MNT_CNT_REPAIRS. -/
def regMNT_CNT_REPAIRS : Reg := ⟨0x700110, 8, [MNT_CNT_REPAIRS.COUNT]⟩

/-! ### MNT_CNT_LOST -/

/-- count (R454). -/
def MNT_CNT_LOST.COUNT : Field := ⟨1, 0x700118, 0, 64, .cnt, 0x0⟩

/-- The register MNT_CNT_LOST. -/
def regMNT_CNT_LOST : Reg := ⟨0x700118, 8, [MNT_CNT_LOST.COUNT]⟩

/-! ### MNT_CNT_DECLARED -/

/-- count (R454). -/
def MNT_CNT_DECLARED.COUNT : Field := ⟨1, 0x700120, 0, 64, .cnt, 0x0⟩

/-- The register MNT_CNT_DECLARED. -/
def regMNT_CNT_DECLARED : Reg := ⟨0x700120, 8, [MNT_CNT_DECLARED.COUNT]⟩

/-! ### MNT_CNT_ADMITTED -/

/-- count (R454). -/
def MNT_CNT_ADMITTED.COUNT : Field := ⟨1, 0x700128, 0, 64, .cnt, 0x0⟩

/-- The register MNT_CNT_ADMITTED. -/
def regMNT_CNT_ADMITTED : Reg := ⟨0x700128, 8, [MNT_CNT_ADMITTED.COUNT]⟩

/-! ### MNT_CNT_REFUSED -/

/-- count (R454). -/
def MNT_CNT_REFUSED.COUNT : Field := ⟨1, 0x700130, 0, 64, .cnt, 0x0⟩

/-- The register MNT_CNT_REFUSED. -/
def regMNT_CNT_REFUSED : Reg := ⟨0x700130, 8, [MNT_CNT_REFUSED.COUNT]⟩

/-! ### VRV_CFG -/

/-- compaction threshold of R476, 1 to 99 (R495). -/
def VRV_CFG.COMPACT_PCT : Field := ⟨1, 0x800000, 0, 8, .rw, 0x32⟩
/-- pool reserve of R478, 1 to 20 (R495). -/
def VRV_CFG.RESERVE_PCT : Field := ⟨1, 0x800000, 8, 8, .rw, 0x2⟩
/-- used-capacity warning of R478, 50 to 99 (R495). -/
def VRV_CFG.WARN_PCT : Field := ⟨1, 0x800000, 16, 8, .rw, 0x5a⟩

/-- The register VRV_CFG. -/
def regVRV_CFG : Reg := ⟨0x800000, 4, [VRV_CFG.COMPACT_PCT, VRV_CFG.RESERVE_PCT, VRV_CFG.WARN_PCT]⟩

/-! ### VRV_STATUS -/

/-- bit p is 1 while pool p is below its reserve (R496). -/
def VRV_STATUS.POOL_FULL : Field := ⟨1, 0x800004, 0, 8, .ro, 0x0⟩
/-- bit 8 + p is 1 while pool p is above WARN_PCT (R496). -/
def VRV_STATUS.POOL_WARN : Field := ⟨1, 0x800004, 8, 8, .ro, 0x0⟩
/-- 1: pruning is pending in some namespace (R496). -/
def VRV_STATUS.PRUNING : Field := ⟨1, 0x800004, 16, 1, .ro, 0x0⟩
/-- 1: a compaction is in progress (R496). -/
def VRV_STATUS.COMPACTING : Field := ⟨1, 0x800004, 17, 1, .ro, 0x0⟩
/-- a sending stream stopped under R490 (R496). -/
def VRV_STATUS.STREAM_FAULT : Field := ⟨1, 0x800004, 18, 1, .w1c, 0x0⟩
/-- open Calving streams on this module, 0 to 512 (R496). -/
def VRV_STATUS.STREAMS : Field := ⟨1, 0x800004, 19, 10, .ro, 0x0⟩

/-- The register VRV_STATUS. -/
def regVRV_STATUS : Reg := ⟨0x800004, 4, [VRV_STATUS.POOL_FULL, VRV_STATUS.POOL_WARN, VRV_STATUS.PRUNING, VRV_STATUS.COMPACTING, VRV_STATUS.STREAM_FAULT, VRV_STATUS.STREAMS]⟩

/-! ### VRV_NS_SEL -/

/-- namespace that VRV_NS_INFO, VRV_NS_LIVE and VRV_NS_RETAINED describe (R497). -/
def VRV_NS_SEL.NSID : Field := ⟨1, 0x800008, 0, 17, .rw, 0x0⟩

/-- The register VRV_NS_SEL. -/
def regVRV_NS_SEL : Reg := ⟨0x800008, 4, [VRV_NS_SEL.NSID]⟩

/-! ### VRV_NS_INFO -/

/-- 1: the namespace exists (R497). -/
def VRV_NS_INFO.DEFINED : Field := ⟨1, 0x800010, 0, 1, .ro, 0x0⟩
/-- NSFLAGS bit 0 (R497). -/
def VRV_NS_INFO.REPLICA : Field := ⟨1, 0x800010, 1, 1, .ro, 0x0⟩
/-- NSFLAGS bit 1 (R497). -/
def VRV_NS_INFO.READ_ONLY : Field := ⟨1, 0x800010, 2, 1, .ro, 0x0⟩
/-- 1: 16,384-byte blocks (R497). -/
def VRV_NS_INFO.BSIZE16 : Field := ⟨1, 0x800010, 3, 1, .ro, 0x0⟩
/-- pool (R497). -/
def VRV_NS_INFO.POOL : Field := ⟨1, 0x800010, 4, 3, .ro, 0x0⟩
/-- clone depth, 0 to 8 (R497). -/
def VRV_NS_INFO.DEPTH : Field := ⟨1, 0x800010, 7, 4, .ro, 0x0⟩
/-- snapshots held, hidden ones included, 0 to 65,536 (R497). -/
def VRV_NS_INFO.SNAPSHOTS : Field := ⟨1, 0x800010, 11, 17, .ro, 0x0⟩
/-- parent NSID of a clone; 0 otherwise (R497). -/
def VRV_NS_INFO.PARENT : Field := ⟨1, 0x800010, 32, 17, .ro, 0x0⟩
/-- key owner function (R497). -/
def VRV_NS_INFO.KEY_OWNER : Field := ⟨1, 0x800010, 49, 10, .ro, 0x0⟩

/-- The register VRV_NS_INFO. -/
def regVRV_NS_INFO : Reg := ⟨0x800010, 8, [VRV_NS_INFO.DEFINED, VRV_NS_INFO.REPLICA, VRV_NS_INFO.READ_ONLY, VRV_NS_INFO.BSIZE16, VRV_NS_INFO.POOL, VRV_NS_INFO.DEPTH, VRV_NS_INFO.SNAPSHOTS, VRV_NS_INFO.PARENT, VRV_NS_INFO.KEY_OWNER]⟩

/-! ### VRV_NS_LIVE -/

/-- as R479 (R498). -/
def VRV_NS_LIVE.LIVE_BLOCKS : Field := ⟨1, 0x800018, 0, 40, .ro, 0x0⟩

/-- The register VRV_NS_LIVE. -/
def regVRV_NS_LIVE : Reg := ⟨0x800018, 8, [VRV_NS_LIVE.LIVE_BLOCKS]⟩

/-! ### VRV_NS_RETAINED -/

/-- as R479 (R498). -/
def VRV_NS_RETAINED.RETAINED_BLOCKS : Field := ⟨1, 0x800020, 0, 40, .ro, 0x0⟩

/-- The register VRV_NS_RETAINED. -/
def regVRV_NS_RETAINED : Reg := ⟨0x800020, 8, [VRV_NS_RETAINED.RETAINED_BLOCKS]⟩

/-! ### VRV_POOL_SEL -/

/-- selected pool (R499). -/
def VRV_POOL_SEL.POOL : Field := ⟨1, 0x800028, 0, 3, .rw, 0x0⟩

/-- The register VRV_POOL_SEL. -/
def regVRV_POOL_SEL : Reg := ⟨0x800028, 4, [VRV_POOL_SEL.POOL]⟩

/-! ### VRV_POOL_FREE -/

/-- data capacity of free stripe slots, in units of 4 KiB (R499). -/
def VRV_POOL_FREE.FREE : Field := ⟨1, 0x800030, 0, 48, .ro, 0x0⟩

/-- The register VRV_POOL_FREE. -/
def regVRV_POOL_FREE : Reg := ⟨0x800030, 8, [VRV_POOL_FREE.FREE]⟩

/-! ### VRV_POOL_DEAD -/

/-- dead bytes in occupied stripes, in units of 4 KiB, rounded down (R499). -/
def VRV_POOL_DEAD.DEAD : Field := ⟨1, 0x800038, 0, 48, .ro, 0x0⟩

/-- The register VRV_POOL_DEAD. -/
def regVRV_POOL_DEAD : Reg := ⟨0x800038, 8, [VRV_POOL_DEAD.DEAD]⟩

/-! ### VRV_CNT_SNAPS -/

/-- count (R500). -/
def VRV_CNT_SNAPS.COUNT : Field := ⟨1, 0x800100, 0, 64, .cnt, 0x0⟩

/-- The register VRV_CNT_SNAPS. -/
def regVRV_CNT_SNAPS : Reg := ⟨0x800100, 8, [VRV_CNT_SNAPS.COUNT]⟩

/-! ### VRV_CNT_PRUNED -/

/-- count (R500). -/
def VRV_CNT_PRUNED.COUNT : Field := ⟨1, 0x800108, 0, 64, .cnt, 0x0⟩

/-- The register VRV_CNT_PRUNED. -/
def regVRV_CNT_PRUNED : Reg := ⟨0x800108, 8, [VRV_CNT_PRUNED.COUNT]⟩

/-! ### VRV_CNT_COMPACTED -/

/-- count (R500). -/
def VRV_CNT_COMPACTED.COUNT : Field := ⟨1, 0x800110, 0, 64, .cnt, 0x0⟩

/-- The register VRV_CNT_COMPACTED. -/
def regVRV_CNT_COMPACTED : Reg := ⟨0x800110, 8, [VRV_CNT_COMPACTED.COUNT]⟩

/-! ### VRV_CNT_MSG_SENT -/

/-- count (R500). -/
def VRV_CNT_MSG_SENT.COUNT : Field := ⟨1, 0x800118, 0, 64, .cnt, 0x0⟩

/-- The register VRV_CNT_MSG_SENT. -/
def regVRV_CNT_MSG_SENT : Reg := ⟨0x800118, 8, [VRV_CNT_MSG_SENT.COUNT]⟩

/-! ### VRV_CNT_MSG_APPLIED -/

/-- count (R500). -/
def VRV_CNT_MSG_APPLIED.COUNT : Field := ⟨1, 0x800120, 0, 64, .cnt, 0x0⟩

/-- The register VRV_CNT_MSG_APPLIED. -/
def regVRV_CNT_MSG_APPLIED : Reg := ⟨0x800120, 8, [VRV_CNT_MSG_APPLIED.COUNT]⟩

/-! ### VRV_CNT_AUTH_FAIL -/

/-- count (R500). -/
def VRV_CNT_AUTH_FAIL.COUNT : Field := ⟨1, 0x800128, 0, 64, .cnt, 0x0⟩

/-- The register VRV_CNT_AUTH_FAIL. -/
def regVRV_CNT_AUTH_FAIL : Reg := ⟨0x800128, 8, [VRV_CNT_AUTH_FAIL.COUNT]⟩

/-! ### TWN_CFG -/

/-- 1: the link cipher is on, under R511 (R547). -/
def TWN_CFG.LINK_GCM : Field := ⟨1, 0x900000, 0, 1, .rw, 0x0⟩
/-- 1: lanes return to service under R516 (R547). -/
def TWN_CFG.AUTO_RETRAIN : Field := ⟨1, 0x900000, 1, 1, .rw, 0x1⟩

/-- The register TWN_CFG. -/
def regTWN_CFG : Reg := ⟨0x900000, 4, [TWN_CFG.LINK_GCM, TWN_CFG.AUTO_RETRAIN]⟩

/-! ### TWN_CTRL -/

/-- 1 retrains every lost and parked lane (R548). -/
def TWN_CTRL.LANE_RETRY : Field := ⟨1, 0x900004, 0, 1, .wo, 0x0⟩
/-- 1 restarts the handshake after a refusal (R548). -/
def TWN_CTRL.REJOIN : Field := ⟨1, 0x900004, 1, 1, .wo, 0x0⟩

/-- The register TWN_CTRL. -/
def regTWN_CTRL : Reg := ⟨0x900004, 4, [TWN_CTRL.LANE_RETRY, TWN_CTRL.REJOIN]⟩

/-! ### TWN_STATUS -/

/-- state code of R519 (R549). -/
def TWN_STATUS.STATE : Field := ⟨1, 0x900008, 0, 3, .ro, 0x0⟩
/-- 0 Twin A, 1 Twin B, from SIDE_SEL (R549). -/
def TWN_STATUS.SIDE : Field := ⟨1, 0x900008, 3, 1, .ro, 0x0⟩
/-- lanes in service, transmit, 0 to 16 (R549). -/
def TWN_STATUS.WIDTH_TX : Field := ⟨1, 0x900008, 4, 5, .ro, 0x0⟩
/-- lanes in service, receive, 0 to 16 (R549). -/
def TWN_STATUS.WIDTH_RX : Field := ⟨1, 0x900008, 9, 5, .ro, 0x0⟩
/-- this module completed a failover (R549). -/
def TWN_STATUS.FAILOVER : Field := ⟨1, 0x900008, 14, 1, .w1c, 0x0⟩
/-- this module fenced itself under R527 (R549). -/
def TWN_STATUS.FENCED : Field := ⟨1, 0x900008, 15, 1, .rws, 0x0⟩
/-- pairing was refused under R520 (R549). -/
def TWN_STATUS.PAIR_REFUSED : Field := ⟨1, 0x900008, 16, 1, .w1c, 0x0⟩
/-- a chain break occurred under R524 (R549). -/
def TWN_STATUS.CHAIN_BREAK : Field := ⟨1, 0x900008, 17, 1, .rws, 0x0⟩
/-- a width was reduced under R514 (R549). -/
def TWN_STATUS.DEGRADED : Field := ⟨1, 0x900008, 18, 1, .w1c, 0x0⟩
/-- 1: messages are sealed (R549). -/
def TWN_STATUS.GCM_ON : Field := ⟨1, 0x900008, 19, 1, .ro, 0x0⟩
/-- enabling the link cipher was refused (R549). -/
def TWN_STATUS.GCM_REFUSED : Field := ⟨1, 0x900008, 20, 1, .w1c, 0x0⟩
/-- 1: a role swap runs (R549). -/
def TWN_STATUS.SWAP_BUSY : Field := ⟨1, 0x900008, 21, 1, .ro, 0x0⟩
/-- code of the last refusal under R520 (R549). -/
def TWN_STATUS.REFUSE_CAUSE : Field := ⟨1, 0x900008, 22, 4, .ro, 0x0⟩

/-- The register TWN_STATUS. -/
def regTWN_STATUS : Reg := ⟨0x900008, 4, [TWN_STATUS.STATE, TWN_STATUS.SIDE, TWN_STATUS.WIDTH_TX, TWN_STATUS.WIDTH_RX, TWN_STATUS.FAILOVER, TWN_STATUS.FENCED, TWN_STATUS.PAIR_REFUSED, TWN_STATUS.CHAIN_BREAK, TWN_STATUS.DEGRADED, TWN_STATUS.GCM_ON, TWN_STATUS.GCM_REFUSED, TWN_STATUS.SWAP_BUSY, TWN_STATUS.REFUSE_CAUSE]⟩

/-! ### TWN_HOME -/

/-- bit p is 1 while Twin B is home twin of pool p (R550). -/
def TWN_HOME.HOME : Field := ⟨1, 0x90000c, 0, 8, .ro, 0x0⟩
/-- bit 8 + p is 1 when Twin B is the preferred home of pool p under R522 (R550). -/
def TWN_HOME.PREF : Field := ⟨1, 0x90000c, 8, 8, .rw, 0xf0⟩

/-- The register TWN_HOME. -/
def regTWN_HOME : Reg := ⟨0x90000c, 4, [TWN_HOME.HOME, TWN_HOME.PREF]⟩

/-! ### TWN_LANES -/

/-- bit n is 1 while transmit lane n is in service (R551). -/
def TWN_LANES.TX_IN_SERVICE : Field := ⟨1, 0x900010, 0, 16, .ro, 0x0⟩
/-- bit 16 + n is 1 while receive lane n is in service (R551). -/
def TWN_LANES.RX_IN_SERVICE : Field := ⟨1, 0x900010, 16, 16, .ro, 0x0⟩
/-- bit 32 + n is 1 while lane n is parked under R516 (R551). -/
def TWN_LANES.PARKED : Field := ⟨1, 0x900010, 32, 16, .ro, 0x0⟩
/-- 1: cable 0 is up (R551). -/
def TWN_LANES.CABLE0_UP : Field := ⟨1, 0x900010, 48, 1, .ro, 0x0⟩
/-- 1: cable 1 is up (R551). -/
def TWN_LANES.CABLE1_UP : Field := ⟨1, 0x900010, 49, 1, .ro, 0x0⟩

/-- The register TWN_LANES. -/
def regTWN_LANES : Reg := ⟨0x900010, 8, [TWN_LANES.TX_IN_SERVICE, TWN_LANES.RX_IN_SERVICE, TWN_LANES.PARKED, TWN_LANES.CABLE0_UP, TWN_LANES.CABLE1_UP]⟩

/-! ### TWN_PEER -/

/-- PAIR_LEVEL of the twin's running image (R552). -/
def TWN_PEER.PEER_LEVEL : Field := ⟨1, 0x900018, 0, 16, .ro, 0x0⟩
/-- MIN_PEER_LEVEL of that image (R552). -/
def TWN_PEER.PEER_MIN : Field := ⟨1, 0x900018, 16, 16, .ro, 0x0⟩
/-- the twin's SIDE (R552). -/
def TWN_PEER.PEER_SIDE : Field := ⟨1, 0x900018, 32, 1, .ro, 0x0⟩
/-- last valid sideband state code received; 0 while silent (R552). -/
def TWN_PEER.SB_STATE : Field := ⟨1, 0x900018, 33, 4, .ro, 0x0⟩

/-- The register TWN_PEER. -/
def regTWN_PEER : Reg := ⟨0x900018, 8, [TWN_PEER.PEER_LEVEL, TWN_PEER.PEER_MIN, TWN_PEER.PEER_SIDE, TWN_PEER.SB_STATE]⟩

/-! ### TWN_TB_OFFSET -/

/-- twin timebase minus own, two's complement ticks, under R518 (R553). -/
def TWN_TB_OFFSET.OFFSET : Field := ⟨1, 0x900020, 0, 64, .ro, 0x0⟩

/-- The register TWN_TB_OFFSET. -/
def regTWN_TB_OFFSET : Reg := ⟨0x900020, 8, [TWN_TB_OFFSET.OFFSET]⟩

/-! ### TWN_WITNESS -/

/-- bits [47:0] of the last EPOCH written or read (R553). -/
def TWN_WITNESS.EPOCH : Field := ⟨1, 0x900028, 0, 48, .ro, 0x0⟩
/-- witness blocks designated, 0 to 5 (R553). -/
def TWN_WITNESS.DESIGNATED : Field := ⟨1, 0x900028, 48, 3, .ro, 0x0⟩
/-- WSTATE last written or read (R553). -/
def TWN_WITNESS.WSTATE : Field := ⟨1, 0x900028, 51, 2, .ro, 0x0⟩

/-- The register TWN_WITNESS. -/
def regTWN_WITNESS : Reg := ⟨0x900028, 8, [TWN_WITNESS.EPOCH, TWN_WITNESS.DESIGNATED, TWN_WITNESS.WSTATE]⟩

/-! ### TWN_LAST_EVENT -/

/-- cause code of R526 (R553). -/
def TWN_LAST_EVENT.CAUSE : Field := ⟨1, 0x900030, 0, 8, .ro, 0x0⟩
/-- 01b failover; 10b split won; 11b fenced (R553). -/
def TWN_LAST_EVENT.KIND : Field := ⟨1, 0x900030, 8, 2, .ro, 0x0⟩
/-- bits [47:0] of the timebase at the event (R553). -/
def TWN_LAST_EVENT.TIMEBASE : Field := ⟨1, 0x900030, 16, 48, .ro, 0x0⟩

/-- The register TWN_LAST_EVENT. -/
def regTWN_LAST_EVENT : Reg := ⟨0x900030, 8, [TWN_LAST_EVENT.CAUSE, TWN_LAST_EVENT.KIND, TWN_LAST_EVENT.TIMEBASE]⟩

/-! ### TWN_PAIR_ID -/

/-- PAIR_ID of R521; 0 while blank (R553). -/
def TWN_PAIR_ID.PAIR_ID : Field := ⟨1, 0x900038, 0, 64, .ro, 0x0⟩

/-- The register TWN_PAIR_ID. -/
def regTWN_PAIR_ID : Reg := ⟨0x900038, 8, [TWN_PAIR_ID.PAIR_ID]⟩

/-! ### TWN_CNT_FRAMES -/

/-- count (R554). -/
def TWN_CNT_FRAMES.COUNT : Field := ⟨1, 0x900100, 0, 64, .cnt, 0x0⟩

/-- The register TWN_CNT_FRAMES. -/
def regTWN_CNT_FRAMES : Reg := ⟨0x900100, 8, [TWN_CNT_FRAMES.COUNT]⟩

/-! ### TWN_CNT_REPLAY -/

/-- count (R554). -/
def TWN_CNT_REPLAY.COUNT : Field := ⟨1, 0x900108, 0, 64, .cnt, 0x0⟩

/-- The register TWN_CNT_REPLAY. -/
def regTWN_CNT_REPLAY : Reg := ⟨0x900108, 8, [TWN_CNT_REPLAY.COUNT]⟩

/-! ### TWN_CNT_FEC_UNCORR -/

/-- count (R554). -/
def TWN_CNT_FEC_UNCORR.COUNT : Field := ⟨1, 0x900110, 0, 64, .cnt, 0x0⟩

/-- The register TWN_CNT_FEC_UNCORR. -/
def regTWN_CNT_FEC_UNCORR : Reg := ⟨0x900110, 8, [TWN_CNT_FEC_UNCORR.COUNT]⟩

/-! ### TWN_CNT_LANE_LOST -/

/-- count (R554). -/
def TWN_CNT_LANE_LOST.COUNT : Field := ⟨1, 0x900118, 0, 64, .cnt, 0x0⟩

/-- The register TWN_CNT_LANE_LOST. -/
def regTWN_CNT_LANE_LOST : Reg := ⟨0x900118, 8, [TWN_CNT_LANE_LOST.COUNT]⟩

/-! ### TWN_CNT_FAILOVERS -/

/-- count (R554). -/
def TWN_CNT_FAILOVERS.COUNT : Field := ⟨1, 0x900120, 0, 64, .cnt, 0x0⟩

/-- The register TWN_CNT_FAILOVERS. -/
def regTWN_CNT_FAILOVERS : Reg := ⟨0x900120, 8, [TWN_CNT_FAILOVERS.COUNT]⟩

/-! ### TWN_CNT_SPLITS_WON -/

/-- count (R554). -/
def TWN_CNT_SPLITS_WON.COUNT : Field := ⟨1, 0x900128, 0, 64, .cnt, 0x0⟩

/-- The register TWN_CNT_SPLITS_WON. -/
def regTWN_CNT_SPLITS_WON : Reg := ⟨0x900128, 8, [TWN_CNT_SPLITS_WON.COUNT]⟩

/-! ### TWN_CNT_SWAPS -/

/-- count (R554). -/
def TWN_CNT_SWAPS.COUNT : Field := ⟨1, 0x900130, 0, 64, .cnt, 0x0⟩

/-- The register TWN_CNT_SWAPS. -/
def regTWN_CNT_SWAPS : Reg := ⟨0x900130, 8, [TWN_CNT_SWAPS.COUNT]⟩

/-! ### TWN_CNT_CHAIN_BREAK -/

/-- count (R554). -/
def TWN_CNT_CHAIN_BREAK.COUNT : Field := ⟨1, 0x900138, 0, 64, .cnt, 0x0⟩

/-- The register TWN_CNT_CHAIN_BREAK. -/
def regTWN_CNT_CHAIN_BREAK : Reg := ⟨0x900138, 8, [TWN_CNT_CHAIN_BREAK.COUNT]⟩

/-! ### TWN_CNT_TAG_FAIL -/

/-- count (R554). -/
def TWN_CNT_TAG_FAIL.COUNT : Field := ⟨1, 0x900140, 0, 64, .cnt, 0x0⟩

/-- The register TWN_CNT_TAG_FAIL. -/
def regTWN_CNT_TAG_FAIL : Reg := ⟨0x900140, 8, [TWN_CNT_TAG_FAIL.COUNT]⟩

/-! ### EPX_LINK -/

/-- 0h link down; 1h to 6h for 2.5, 5.0, 8.0, 16.0, 32.0 and 64.0 GT/s (R597). -/
def EPX_LINK.SPEED (e : Nat) : Field := ⟨(epSpace e), 0xf00000, 0, 3, .ro, 0x0⟩
/-- trained width, 0 to 16 (R597). -/
def EPX_LINK.WIDTH (e : Nat) : Field := ⟨(epSpace e), 0xf00000, 3, 5, .ro, 0x0⟩
/-- 1: Flit mode (R597). -/
def EPX_LINK.FLIT (e : Nat) : Field := ⟨(epSpace e), 0xf00000, 8, 1, .ro, 0x0⟩
/-- transmit width in use, 0 to 16 (R597). -/
def EPX_LINK.L0P_TX (e : Nat) : Field := ⟨(epSpace e), 0xf00000, 9, 5, .ro, 0x0⟩
/-- receive width in use, 0 to 16 (R597). -/
def EPX_LINK.L0P_RX (e : Nat) : Field := ⟨(epSpace e), 0xf00000, 14, 5, .ro, 0x0⟩
/-- 0 down; 1 L0; 2 L0p; 3 L1.0; 4 L1.1; 5 L1.2; 6 recovery (R597). -/
def EPX_LINK.STATE (e : Nat) : Field := ⟨(epSpace e), 0xf00000, 19, 3, .ro, 0x0⟩

/-- The register EPX_LINK. -/
def regEPX_LINK (e : Nat) : Reg := ⟨0xf00000, 4, [EPX_LINK.SPEED e, EPX_LINK.WIDTH e, EPX_LINK.FLIT e, EPX_LINK.L0P_TX e, EPX_LINK.L0P_RX e, EPX_LINK.STATE e]⟩

/-! ### EPX_PM_CFG -/

/-- idle time in µs before an L1 request; 0 requests no L1 (R598). -/
def EPX_PM_CFG.L1_IDLE (e : Nat) : Field := ⟨(epSpace e), 0xf00004, 0, 8, .rw, 0x14⟩
/-- idle time before narrowing, in units of 10 µs; 0 narrows never (R598). -/
def EPX_PM_CFG.L0P_IDLE (e : Nat) : Field := ⟨(epSpace e), 0xf00004, 8, 8, .rw, 0xa⟩
/-- narrowest width: 00b x2; 01b x4; 10b x8; 11b x16 (R598). -/
def EPX_PM_CFG.L0P_MIN (e : Nat) : Field := ⟨(epSpace e), 0xf00004, 16, 2, .rw, 0x2⟩
/-- 1: R593 applies (R598). -/
def EPX_PM_CFG.CLASS_A_HOLD (e : Nat) : Field := ⟨(epSpace e), 0xf00004, 18, 1, .rw, 0x1⟩

/-- The register EPX_PM_CFG. -/
def regEPX_PM_CFG (e : Nat) : Reg := ⟨0xf00004, 4, [EPX_PM_CFG.L1_IDLE e, EPX_PM_CFG.L0P_IDLE e, EPX_PM_CFG.L0P_MIN e, EPX_PM_CFG.CLASS_A_HOLD e]⟩

/-! ### EPX_FUNC_SEL -/

/-- function within the endpoint: 0 PF, 1 to 255 VF (R599). -/
def EPX_FUNC_SEL.FUNC (e : Nat) : Field := ⟨(epSpace e), 0xf00008, 0, 8, .rw, 0x0⟩

/-- The register EPX_FUNC_SEL. -/
def regEPX_FUNC_SEL (e : Nat) : Reg := ⟨0xf00008, 4, [EPX_FUNC_SEL.FUNC e]⟩

/-! ### EPX_FUNC_STATE -/

/-- read data held under R581, 0 to 67,108,864 (R599). -/
def EPX_FUNC_STATE.HELD_BYTES (e : Nat) : Field := ⟨(epSpace e), 0xf00010, 0, 27, .ro, 0x0⟩
/-- 1: Bus Master Enable is 0 or the function is in D3hot, and results are held (R599). -/
def EPX_FUNC_STATE.HOLDING (e : Nat) : Field := ⟨(epSpace e), 0xf00010, 27, 1, .ro, 0x0⟩
/-- 1: a function-level reset is running (R599). -/
def EPX_FUNC_STATE.FLR_BUSY (e : Nat) : Field := ⟨(epSpace e), 0xf00010, 28, 1, .ro, 0x0⟩
/-- 1: the function is in D3hot (R599). -/
def EPX_FUNC_STATE.D3HOT (e : Nat) : Field := ⟨(epSpace e), 0xf00010, 29, 1, .ro, 0x0⟩
/-- a read's data was discarded under R581 (R599). -/
def EPX_FUNC_STATE.HOLD_OVER (e : Nat) : Field := ⟨(epSpace e), 0xf00010, 30, 1, .w1c, 0x0⟩
/-- completion entries held for the function (R599). -/
def EPX_FUNC_STATE.HELD_CPL (e : Nat) : Field := ⟨(epSpace e), 0xf00010, 32, 32, .ro, 0x0⟩

/-- The register EPX_FUNC_STATE. -/
def regEPX_FUNC_STATE (e : Nat) : Reg := ⟨0xf00010, 8, [EPX_FUNC_STATE.HELD_BYTES e, EPX_FUNC_STATE.HOLDING e, EPX_FUNC_STATE.FLR_BUSY e, EPX_FUNC_STATE.D3HOT e, EPX_FUNC_STATE.HOLD_OVER e, EPX_FUNC_STATE.HELD_CPL e]⟩

/-! ### EPX_HOLD_POOL -/

/-- read data held in the module-wide hold pool, 0 to 4,294,967,296 (R600). -/
def EPX_HOLD_POOL.POOL_BYTES (e : Nat) : Field := ⟨(epSpace e), 0xf00018, 0, 33, .ro, 0x0⟩

/-- The register EPX_HOLD_POOL. -/
def regEPX_HOLD_POOL (e : Nat) : Reg := ⟨0xf00018, 8, [EPX_HOLD_POOL.POOL_BYTES e]⟩

/-! ### EPX_CNT_FLR -/

/-- count (R601). -/
def EPX_CNT_FLR.COUNT (e : Nat) : Field := ⟨(epSpace e), 0xf00100, 0, 64, .cnt, 0x0⟩

/-- The register EPX_CNT_FLR. -/
def regEPX_CNT_FLR (e : Nat) : Reg := ⟨0xf00100, 8, [EPX_CNT_FLR.COUNT e]⟩

/-! ### EPX_CNT_HOLD_FAIL -/

/-- count (R601). -/
def EPX_CNT_HOLD_FAIL.COUNT (e : Nat) : Field := ⟨(epSpace e), 0xf00108, 0, 64, .cnt, 0x0⟩

/-- The register EPX_CNT_HOLD_FAIL. -/
def regEPX_CNT_HOLD_FAIL (e : Nat) : Reg := ⟨0xf00108, 8, [EPX_CNT_HOLD_FAIL.COUNT e]⟩

/-! ### EPX_CNT_CPL_TIMEOUT -/

/-- count (R601). -/
def EPX_CNT_CPL_TIMEOUT.COUNT (e : Nat) : Field := ⟨(epSpace e), 0xf00110, 0, 64, .cnt, 0x0⟩

/-- The register EPX_CNT_CPL_TIMEOUT. -/
def regEPX_CNT_CPL_TIMEOUT (e : Nat) : Reg := ⟨0xf00110, 8, [EPX_CNT_CPL_TIMEOUT.COUNT e]⟩

/-! ### EPX_CNT_POISONED -/

/-- count (R601). -/
def EPX_CNT_POISONED.COUNT (e : Nat) : Field := ⟨(epSpace e), 0xf00118, 0, 64, .cnt, 0x0⟩

/-- The register EPX_CNT_POISONED. -/
def regEPX_CNT_POISONED (e : Nat) : Reg := ⟨0xf00118, 8, [EPX_CNT_POISONED.COUNT e]⟩

/-! ### EPX_CNT_RETRAIN -/

/-- count (R601). -/
def EPX_CNT_RETRAIN.COUNT (e : Nat) : Field := ⟨(epSpace e), 0xf00120, 0, 64, .cnt, 0x0⟩

/-- The register EPX_CNT_RETRAIN. -/
def regEPX_CNT_RETRAIN (e : Nat) : Reg := ⟨0xf00120, 8, [EPX_CNT_RETRAIN.COUNT e]⟩

/-! ### EPX_CNT_L1_ENTRIES -/

/-- count (R601). -/
def EPX_CNT_L1_ENTRIES.COUNT (e : Nat) : Field := ⟨(epSpace e), 0xf00128, 0, 64, .cnt, 0x0⟩

/-- The register EPX_CNT_L1_ENTRIES. -/
def regEPX_CNT_L1_ENTRIES (e : Nat) : Reg := ⟨0xf00128, 8, [EPX_CNT_L1_ENTRIES.COUNT e]⟩

/-! ### DRV_CFG -/

/-- I/O timeout in units of 10 ms, 1 to 255 (R634). -/
def DRV_CFG.IO_TIMEOUT : Field := ⟨1, 0xb00000, 0, 8, .rw, 0x32⟩
/-- hedge time in ms under R626; 0 disables (R634). -/
def DRV_CFG.READ_HEDGE : Field := ⟨1, 0xb00000, 8, 8, .rw, 0xa⟩
/-- admin timeout in s, 1 to 255 (R634). -/
def DRV_CFG.ADMIN_TIMEOUT : Field := ⟨1, 0xb00000, 16, 8, .rw, 0xa⟩
/-- 1: freed stripe slots are deallocated under R607 (R634). -/
def DRV_CFG.USE_DSM : Field := ⟨1, 0xb00000, 24, 1, .rw, 0x1⟩

/-- The register DRV_CFG. -/
def regDRV_CFG : Reg := ⟨0xb00000, 4, [DRV_CFG.IO_TIMEOUT, DRV_CFG.READ_HEDGE, DRV_CFG.ADMIN_TIMEOUT, DRV_CFG.USE_DSM]⟩

/-! ### DRV_PORT_CFG -/

/-- bifurcation of root port p, coded as in R602 (R635). -/
def DRV_PORT_CFG.BIF (p : Nat) : Field := ⟨1, 0xb00004, 2 * p, 2, .rw, 0⟩

/-- The register DRV_PORT_CFG. -/
def regDRV_PORT_CFG : Reg := ⟨0xb00004, 4, [DRV_PORT_CFG.BIF 0, DRV_PORT_CFG.BIF 1, DRV_PORT_CFG.BIF 2, DRV_PORT_CFG.BIF 3, DRV_PORT_CFG.BIF 4, DRV_PORT_CFG.BIF 5, DRV_PORT_CFG.BIF 6, DRV_PORT_CFG.BIF 7]⟩

/-! ### DRV_STATUS -/

/-- bit p is 1 while a sub-link of root port p is up (R636). -/
def DRV_STATUS.PORT_UP : Field := ⟨1, 0xb00008, 0, 8, .ro, 0x0⟩
/-- a drive was left unenumerated under R605 (R636). -/
def DRV_STATUS.TABLE_FULL : Field := ⟨1, 0xb00008, 8, 1, .w1c, 0x0⟩
/-- a write to DRV_PORT_CFG was refused under R633 (R636). -/
def DRV_STATUS.CONFIG_REFUSED : Field := ⟨1, 0xb00008, 9, 1, .w1c, 0x0⟩
/-- a foreign drive was found under R610 (R636). -/
def DRV_STATUS.FOREIGN : Field := ⟨1, 0xb00008, 10, 1, .w1c, 0x0⟩
/-- a drive was marked UNUSABLE (R636). -/
def DRV_STATUS.UNUSABLE : Field := ⟨1, 0xb00008, 11, 1, .w1c, 0x0⟩
/-- drive table entries not ABSENT, 0 to 1,024 (R636). -/
def DRV_STATUS.DRIVES : Field := ⟨1, 0xb00008, 12, 11, .ro, 0x0⟩

/-- The register DRV_STATUS. -/
def regDRV_STATUS : Reg := ⟨0xb00008, 4, [DRV_STATUS.PORT_UP, DRV_STATUS.TABLE_FULL, DRV_STATUS.CONFIG_REFUSED, DRV_STATUS.FOREIGN, DRV_STATUS.UNUSABLE, DRV_STATUS.DRIVES]⟩

/-! ### DRV_SEL -/

/-- drive table entry (R637). -/
def DRV_SEL.INDEX : Field := ⟨1, 0xb0000c, 0, 10, .rw, 0x0⟩

/-- The register DRV_SEL. -/
def regDRV_SEL : Reg := ⟨0xb0000c, 4, [DRV_SEL.INDEX]⟩

/-! ### DRV_INFO -/

/-- state code of R621 (R637). -/
def DRV_INFO.STATE : Field := ⟨1, 0xb00010, 0, 3, .ro, 0x0⟩
/-- reason code of R606 for UNUSABLE; 0 otherwise (R637). -/
def DRV_INFO.REASON : Field := ⟨1, 0xb00010, 3, 5, .ro, 0x0⟩
/-- root port (R637). -/
def DRV_INFO.PORT : Field := ⟨1, 0xb00010, 8, 3, .ro, 0x0⟩
/-- sub-link (R637). -/
def DRV_INFO.SUBLINK : Field := ⟨1, 0xb00010, 11, 3, .ro, 0x0⟩
/-- drive link rate, coded as EPX_LINK.SPEED (R637). -/
def DRV_INFO.SPEED : Field := ⟨1, 0xb00010, 14, 3, .ro, 0x0⟩
/-- drive link width, 0 to 16 (R637). -/
def DRV_INFO.WIDTH : Field := ⟨1, 0xb00010, 17, 5, .ro, 0x0⟩
/-- pool, for MEMBER (R637). -/
def DRV_INFO.POOL : Field := ⟨1, 0xb00010, 22, 3, .ro, 0x0⟩
/-- member number, for MEMBER (R637). -/
def DRV_INFO.MEMBER : Field := ⟨1, 0xb00010, 25, 9, .ro, 0x0⟩
/-- witness index + 1; 0 when not designated (R637). -/
def DRV_INFO.WITNESS : Field := ⟨1, 0xb00010, 34, 3, .ro, 0x0⟩
/-- GEN of the entry under R620 (R637). -/
def DRV_INFO.GEN : Field := ⟨1, 0xb00010, 37, 16, .ro, 0x0⟩

/-- The register DRV_INFO. -/
def regDRV_INFO : Reg := ⟨0xb00010, 8, [DRV_INFO.STATE, DRV_INFO.REASON, DRV_INFO.PORT, DRV_INFO.SUBLINK, DRV_INFO.SPEED, DRV_INFO.WIDTH, DRV_INFO.POOL, DRV_INFO.MEMBER, DRV_INFO.WITNESS, DRV_INFO.GEN]⟩

/-! ### DRV_CNT_TIMEOUTS -/

/-- count (R638). -/
def DRV_CNT_TIMEOUTS.COUNT : Field := ⟨1, 0xb00100, 0, 64, .cnt, 0x0⟩

/-- The register DRV_CNT_TIMEOUTS. -/
def regDRV_CNT_TIMEOUTS : Reg := ⟨0xb00100, 8, [DRV_CNT_TIMEOUTS.COUNT]⟩

/-! ### DRV_CNT_HEDGED -/

/-- count (R638). -/
def DRV_CNT_HEDGED.COUNT : Field := ⟨1, 0xb00108, 0, 64, .cnt, 0x0⟩

/-- The register DRV_CNT_HEDGED. -/
def regDRV_CNT_HEDGED : Reg := ⟨0xb00108, 8, [DRV_CNT_HEDGED.COUNT]⟩

/-! ### DRV_CNT_MEDIA_ERR -/

/-- count (R638). -/
def DRV_CNT_MEDIA_ERR.COUNT : Field := ⟨1, 0xb00110, 0, 64, .cnt, 0x0⟩

/-- The register DRV_CNT_MEDIA_ERR. -/
def regDRV_CNT_MEDIA_ERR : Reg := ⟨0xb00110, 8, [DRV_CNT_MEDIA_ERR.COUNT]⟩

/-! ### DRV_CNT_RESV_CONFLICT -/

/-- count (R638). -/
def DRV_CNT_RESV_CONFLICT.COUNT : Field := ⟨1, 0xb00118, 0, 64, .cnt, 0x0⟩

/-- The register DRV_CNT_RESV_CONFLICT. -/
def regDRV_CNT_RESV_CONFLICT : Reg := ⟨0xb00118, 8, [DRV_CNT_RESV_CONFLICT.COUNT]⟩

/-! ### DRV_CNT_CTRL_RESET -/

/-- count (R638). -/
def DRV_CNT_CTRL_RESET.COUNT : Field := ⟨1, 0xb00120, 0, 64, .cnt, 0x0⟩

/-- The register DRV_CNT_CTRL_RESET. -/
def regDRV_CNT_CTRL_RESET : Reg := ⟨0xb00120, 8, [DRV_CNT_CTRL_RESET.COUNT]⟩

/-! ### DRV_CNT_INSERTED -/

/-- count (R638). -/
def DRV_CNT_INSERTED.COUNT : Field := ⟨1, 0xb00128, 0, 64, .cnt, 0x0⟩

/-- The register DRV_CNT_INSERTED. -/
def regDRV_CNT_INSERTED : Reg := ⟨0xb00128, 8, [DRV_CNT_INSERTED.COUNT]⟩

/-! ### DRV_CNT_REMOVED -/

/-- count (R638). -/
def DRV_CNT_REMOVED.COUNT : Field := ⟨1, 0xb00130, 0, 64, .cnt, 0x0⟩

/-- The register DRV_CNT_REMOVED. -/
def regDRV_CNT_REMOVED : Reg := ⟨0xb00130, 8, [DRV_CNT_REMOVED.COUNT]⟩

/-! ### FLO_EVENT -/

/-- bit k is event k (R678). -/
def FLO_EVENT.FLAGS (h : Half) : Field := ⟨(halfSpace h), 0xa00000, 0, 64, .ro, 0x0⟩

/-- The register FLO_EVENT. -/
def regFLO_EVENT (h : Half) : Reg := ⟨0xa00000, 8, [FLO_EVENT.FLAGS h]⟩

/-! ### FLO_EVENT_SET -/

/-- 1 in bit k sets event k (R678). -/
def FLO_EVENT_SET.SET (h : Half) : Field := ⟨(halfSpace h), 0xa00008, 0, 64, .wo, 0x0⟩

/-- The register FLO_EVENT_SET. -/
def regFLO_EVENT_SET (h : Half) : Reg := ⟨0xa00008, 8, [FLO_EVENT_SET.SET h]⟩

/-! ### FLO_EVENT_CLR -/

/-- 1 in bit k clears event k (R678). -/
def FLO_EVENT_CLR.CLR (h : Half) : Field := ⟨(halfSpace h), 0xa00010, 0, 64, .wo, 0x0⟩

/-- The register FLO_EVENT_CLR. -/
def regFLO_EVENT_CLR (h : Half) : Reg := ⟨0xa00010, 8, [FLO_EVENT_CLR.CLR h]⟩

/-! ### FLO_SWREQ -/

/-- asserts the line once under R662 (R678). -/
def FLO_SWREQ.LINE (h : Half) : Field := ⟨(halfSpace h), 0xa00018, 0, 5, .wo, 0x0⟩

/-- The register FLO_SWREQ. -/
def regFLO_SWREQ (h : Half) : Reg := ⟨0xa00018, 4, [FLO_SWREQ.LINE h]⟩

/-! ### FLO_REQ -/

/-- pending assertions of line l (R679). -/
def FLO_REQ.COUNT (h : Half) (n : Nat) : Field := ⟨(halfSpace h), (0xa00100 + 4 * n), 0, 8, .cnt, 0x0⟩
/-- an assertion was lost under R662 (R679). -/
def FLO_REQ.OVF (h : Half) (n : Nat) : Field := ⟨(halfSpace h), (0xa00100 + 4 * n), 8, 1, .w1c, 0x0⟩

/-- The register FLO_REQ. -/
def regFLO_REQ (h : Half) (n : Nat) : Reg := ⟨(0xa00100 + 4 * n), 4, [FLO_REQ.COUNT h n, FLO_REQ.OVF h n]⟩

/-! ### FLO_CH_CFG -/

/-- priority; 4h to 7h for host-owned channels (R680). -/
def FLO_CH_CFG.PRIO (h : Half) (n : Nat) : Field := ⟨(halfSpace h), (0xa10000 + 128 * n), 0, 3, .rw, 0x7⟩
/-- traffic class coded as in R71; 01b or 10b for host-owned channels (R680). -/
def FLO_CH_CFG.CLASS (h : Half) (n : Nat) : Field := ⟨(halfSpace h), (0xa10000 + 128 * n), 3, 2, .rw, 0x1⟩
/-- retries per request under R668, 0 to 7 (R680). -/
def FLO_CH_CFG.RETRY (h : Half) (n : Nat) : Field := ⟨(halfSpace h), (0xa10000 + 128 * n), 5, 3, .rw, 0x3⟩
/-- 1: a halt signals ERR_VEC (R680). -/
def FLO_CH_CFG.ERR_IRQ (h : Half) (n : Nat) : Field := ⟨(halfSpace h), (0xa10000 + 128 * n), 8, 1, .rw, 0x1⟩

/-- The register FLO_CH_CFG. -/
def regFLO_CH_CFG (h : Half) (n : Nat) : Reg := ⟨(0xa10000 + 128 * n), 4, [FLO_CH_CFG.PRIO h n, FLO_CH_CFG.CLASS h n, FLO_CH_CFG.RETRY h n, FLO_CH_CFG.ERR_IRQ h n]⟩

/-! ### FLO_CH_CTRL -/

/-- R646 (R680). -/
def FLO_CH_CTRL.KICK (h : Half) (n : Nat) : Field := ⟨(halfSpace h), (0xa10004 + 128 * n), 0, 1, .wo, 0x0⟩
/-- R672 (R680). -/
def FLO_CH_CTRL.PAUSE (h : Half) (n : Nat) : Field := ⟨(halfSpace h), (0xa10004 + 128 * n), 1, 1, .wo, 0x0⟩
/-- R671, R672 (R680). -/
def FLO_CH_CTRL.RESUME (h : Half) (n : Nat) : Field := ⟨(halfSpace h), (0xa10004 + 128 * n), 2, 1, .wo, 0x0⟩
/-- R673 (R680). -/
def FLO_CH_CTRL.ABORT (h : Half) (n : Nat) : Field := ⟨(halfSpace h), (0xa10004 + 128 * n), 3, 1, .wo, 0x0⟩

/-- The register FLO_CH_CTRL. -/
def regFLO_CH_CTRL (h : Half) (n : Nat) : Reg := ⟨(0xa10004 + 128 * n), 4, [FLO_CH_CTRL.KICK h n, FLO_CH_CTRL.PAUSE h n, FLO_CH_CTRL.RESUME h n, FLO_CH_CTRL.ABORT h n]⟩

/-! ### FLO_CH_STATUS -/

/-- 0 IDLE; 1 RUN; 2 WAIT; 3 PAUSING; 4 PAUSED; 5 HALTED; 6 ABORTING (R681). -/
def FLO_CH_STATUS.STATE (h : Half) (n : Nat) : Field := ⟨(halfSpace h), (0xa10008 + 128 * n), 0, 3, .ro, 0x0⟩
/-- R646 (R681). -/
def FLO_CH_STATUS.KICK_PEND (h : Half) (n : Nat) : Field := ⟨(halfSpace h), (0xa10008 + 128 * n), 3, 1, .ro, 0x0⟩
/-- bit 4: software PAUSE; bit 5: Bus Master Enable or power state under R675 (R681). -/
def FLO_CH_STATUS.PAUSE_SRC (h : Half) (n : Nat) : Field := ⟨(halfSpace h), (0xa10008 + 128 * n), 4, 2, .ro, 0x0⟩
/-- cause of the last halt: 01h, 02h, 03h, 04h, 05h or 06h (R681). -/
def FLO_CH_STATUS.CAUSE (h : Half) (n : Nat) : Field := ⟨(halfSpace h), (0xa10008 + 128 * n), 8, 8, .ro, 0x0⟩
/-- bytes waiting in the holding register, 0 to 7 (R681). -/
def FLO_CH_STATUS.HOLD (h : Half) (n : Nat) : Field := ⟨(halfSpace h), (0xa10008 + 128 * n), 16, 3, .ro, 0x0⟩
/-- a write was refused under R677 (R681). -/
def FLO_CH_STATUS.CFG_REFUSED (h : Half) (n : Nat) : Field := ⟨(halfSpace h), (0xa10008 + 128 * n), 19, 1, .w1c, 0x0⟩
/-- the channel halted (R681). -/
def FLO_CH_STATUS.HALT_EVT (h : Half) (n : Nat) : Field := ⟨(halfSpace h), (0xa10008 + 128 * n), 20, 1, .w1c, 0x0⟩

/-- The register FLO_CH_STATUS. -/
def regFLO_CH_STATUS (h : Half) (n : Nat) : Reg := ⟨(0xa10008 + 128 * n), 4, [FLO_CH_STATUS.STATE h n, FLO_CH_STATUS.KICK_PEND h n, FLO_CH_STATUS.PAUSE_SRC h n, FLO_CH_STATUS.CAUSE h n, FLO_CH_STATUS.HOLD h n, FLO_CH_STATUS.CFG_REFUSED h n, FLO_CH_STATUS.HALT_EVT h n]⟩

/-! ### FLO_CH_VEC -/

/-- vector for descriptor completion (R682). -/
def FLO_CH_VEC.DONE_VEC (h : Half) (n : Nat) : Field := ⟨(halfSpace h), (0xa1000c + 128 * n), 0, 11, .rw, 0x0⟩
/-- vector for halts (R682). -/
def FLO_CH_VEC.ERR_VEC (h : Half) (n : Nat) : Field := ⟨(halfSpace h), (0xa1000c + 128 * n), 16, 11, .rw, 0x0⟩

/-- The register FLO_CH_VEC. -/
def regFLO_CH_VEC (h : Half) (n : Nat) : Reg := ⟨(0xa1000c + 128 * n), 4, [FLO_CH_VEC.DONE_VEC h n, FLO_CH_VEC.ERR_VEC h n]⟩

/-! ### FLO_CH_RING -/

/-- bits [63:12] of the ring address (R682). -/
def FLO_CH_RING.BASE (h : Half) (n : Nat) : Field := ⟨(halfSpace h), (0xa10010 + 128 * n), 12, 52, .rw, 0x0⟩

/-- The register FLO_CH_RING. -/
def regFLO_CH_RING (h : Half) (n : Nat) : Reg := ⟨(0xa10010 + 128 * n), 8, [FLO_CH_RING.BASE h n]⟩

/-! ### FLO_CH_HEAD -/

/-- next descriptor; returns to 0 when DEPTH_M1 is written (R682). -/
def FLO_CH_HEAD.HEAD (h : Half) (n : Nat) : Field := ⟨(halfSpace h), (0xa10018 + 128 * n), 0, 12, .ro, 0x0⟩
/-- ring depth minus 1, 1 to 4,095 (R682). -/
def FLO_CH_HEAD.DEPTH_M1 (h : Half) (n : Nat) : Field := ⟨(halfSpace h), (0xa10018 + 128 * n), 16, 12, .rw, 0xfff⟩

/-- The register FLO_CH_HEAD. -/
def regFLO_CH_HEAD (h : Half) (n : Nat) : Reg := ⟨(0xa10018 + 128 * n), 4, [FLO_CH_HEAD.HEAD h n, FLO_CH_HEAD.DEPTH_M1 h n]⟩

/-! ### FLO_CH_PC -/

/-- address of the instruction in progress (R683). -/
def FLO_CH_PC.PC (h : Half) (n : Nat) : Field := ⟨(halfSpace h), (0xa10020 + 128 * n), 0, 64, .ro, 0x0⟩

/-- The register FLO_CH_PC. -/
def regFLO_CH_PC (h : Half) (n : Nat) : Reg := ⟨(0xa10020 + 128 * n), 8, [FLO_CH_PC.PC h n]⟩

/-! ### FLO_CH_SRC -/

/-- next source address (R683). -/
def FLO_CH_SRC.SRC (h : Half) (n : Nat) : Field := ⟨(halfSpace h), (0xa10028 + 128 * n), 0, 64, .ro, 0x0⟩

/-- The register FLO_CH_SRC. -/
def regFLO_CH_SRC (h : Half) (n : Nat) : Reg := ⟨(0xa10028 + 128 * n), 8, [FLO_CH_SRC.SRC h n]⟩

/-! ### FLO_CH_DST -/

/-- next destination address (R683). -/
def FLO_CH_DST.DST (h : Half) (n : Nat) : Field := ⟨(halfSpace h), (0xa10030 + 128 * n), 0, 64, .ro, 0x0⟩

/-- The register FLO_CH_DST. -/
def regFLO_CH_DST (h : Half) (n : Nat) : Reg := ⟨(0xa10030 + 128 * n), 8, [FLO_CH_DST.DST h n]⟩

/-! ### FLO_CH_REMAIN -/

/-- bytes of the current MOVE not yet written (R683). -/
def FLO_CH_REMAIN.REMAIN (h : Half) (n : Nat) : Field := ⟨(halfSpace h), (0xa10038 + 128 * n), 0, 32, .ro, 0x0⟩
/-- bytes read and not yet written, 0 to 4,096 (R683). -/
def FLO_CH_REMAIN.BUFFERED (h : Half) (n : Nat) : Field := ⟨(halfSpace h), (0xa10038 + 128 * n), 32, 13, .ro, 0x0⟩

/-- The register FLO_CH_REMAIN. -/
def regFLO_CH_REMAIN (h : Half) (n : Nat) : Reg := ⟨(0xa10038 + 128 * n), 8, [FLO_CH_REMAIN.REMAIN h n, FLO_CH_REMAIN.BUFFERED h n]⟩

/-! ### FLO_CH_LOOP -/

/-- loop counter 0 (R683). -/
def FLO_CH_LOOP.LC0 (h : Half) (n : Nat) : Field := ⟨(halfSpace h), (0xa10040 + 128 * n), 0, 16, .ro, 0x0⟩
/-- loop counter 1 (R683). -/
def FLO_CH_LOOP.LC1 (h : Half) (n : Nat) : Field := ⟨(halfSpace h), (0xa10040 + 128 * n), 16, 16, .ro, 0x0⟩

/-- The register FLO_CH_LOOP. -/
def regFLO_CH_LOOP (h : Half) (n : Nat) : Reg := ⟨(0xa10040 + 128 * n), 4, [FLO_CH_LOOP.LC0 h n, FLO_CH_LOOP.LC1 h n]⟩

/-! ### FLO_CH_MOVED -/

/-- bytes written by the current descriptor's program; 0 at each descriptor start (R683). -/
def FLO_CH_MOVED.MOVED (h : Half) (n : Nat) : Field := ⟨(halfSpace h), (0xa10048 + 128 * n), 0, 64, .ro, 0x0⟩

/-- The register FLO_CH_MOVED. -/
def regFLO_CH_MOVED (h : Half) (n : Nat) : Reg := ⟨(0xa10048 + 128 * n), 8, [FLO_CH_MOVED.MOVED h n]⟩

/-! ### FLO_CH_RETRIES -/

/-- retries made under R668 (R683). -/
def FLO_CH_RETRIES.RETRIES (h : Half) (n : Nat) : Field := ⟨(halfSpace h), (0xa10050 + 128 * n), 0, 16, .cnt, 0x0⟩

/-- The register FLO_CH_RETRIES. -/
def regFLO_CH_RETRIES (h : Half) (n : Nat) : Reg := ⟨(0xa10050 + 128 * n), 4, [FLO_CH_RETRIES.RETRIES h n]⟩

/-! ### HLD_CFG -/

/-- charge voltage per cell: 2.00 V + 10 mV × value, 3Ch to 50h (R708). -/
def HLD_CFG.VCHG : Field := ⟨1, 0xe00000, 0, 8, .rw, 0x46⟩
/-- window low edge, signed °C (R708). -/
def HLD_CFG.TLO : Field := ⟨1, 0xe00000, 8, 8, .rw, 0x0⟩
/-- window high edge, signed °C, above TLO (R708). -/
def HLD_CFG.THI : Field := ⟨1, 0xe00000, 16, 8, .rw, 0x2d⟩
/-- days between automatic learn cycles; 0 disables (R708). -/
def HLD_CFG.LEARN_DAYS : Field := ⟨1, 0xe00000, 24, 8, .rw, 0x5a⟩

/-- The register HLD_CFG. -/
def regHLD_CFG : Reg := ⟨0xe00000, 4, [HLD_CFG.VCHG, HLD_CFG.TLO, HLD_CFG.THI, HLD_CFG.LEARN_DAYS]⟩

/-! ### HLD_CTRL -/

/-- 1EA5h learn start; 1EA0h learn stop; D15Ch disconnect; C0EEh connect; 9E3Ah pack change; other values ignored (R708). -/
def HLD_CTRL.CMD : Field := ⟨1, 0xe00004, 0, 16, .wo, 0x0⟩

/-- The register HLD_CTRL. -/
def regHLD_CTRL : Reg := ⟨0xe00004, 4, [HLD_CTRL.CMD]⟩

/-! ### HLD_STATUS -/

/-- state code of R701 (R709). -/
def HLD_STATUS.STATE : Field := ⟨1, 0xe00008, 0, 2, .ro, 0x0⟩
/-- R699 (R709). -/
def HLD_STATUS.DUMP_READY : Field := ⟨1, 0xe00008, 2, 1, .ro, 0x0⟩
/-- R687 (R709). -/
def HLD_STATUS.PROVISIONAL : Field := ⟨1, 0xe00008, 3, 1, .ro, 0x0⟩
/-- 1: charge-enable asserted (R709). -/
def HLD_STATUS.CHARGING : Field := ⟨1, 0xe00008, 4, 1, .ro, 0x0⟩
/-- 1: a learn cycle runs (R709). -/
def HLD_STATUS.LEARNING : Field := ⟨1, 0xe00008, 5, 1, .ro, 0x0⟩
/-- a learn was accepted (R709). -/
def HLD_STATUS.LEARN_DONE : Field := ⟨1, 0xe00008, 6, 1, .w1c, 0x0⟩
/-- a learn cycle failed (R709). -/
def HLD_STATUS.LEARN_FAIL : Field := ⟨1, 0xe00008, 7, 1, .w1c, 0x0⟩
/-- cause of R693 (R709). -/
def HLD_STATUS.LEARN_CAUSE : Field := ⟨1, 0xe00008, 8, 3, .ro, 0x0⟩
/-- 1: end of life (R709). -/
def HLD_STATUS.EOL : Field := ⟨1, 0xe00008, 11, 1, .ro, 0x0⟩
/-- a fault of R702 was raised (R709). -/
def HLD_STATUS.FAULT : Field := ⟨1, 0xe00008, 12, 1, .rws, 0x0⟩
/-- cause of the last fault (R709). -/
def HLD_STATUS.FAULT_CAUSE : Field := ⟨1, 0xe00008, 13, 4, .ro, 0x0⟩
/-- a command was refused under R703 (R709). -/
def HLD_STATUS.REFUSED : Field := ⟨1, 0xe00008, 17, 1, .w1c, 0x0⟩
/-- the pack temperature left the window (R709). -/
def HLD_STATUS.EXCURSION : Field := ⟨1, 0xe00008, 18, 1, .w1c, 0x0⟩
/-- an EEPROM write failed (R709). -/
def HLD_STATUS.EEPROM_ERR : Field := ⟨1, 0xe00008, 19, 1, .w1c, 0x0⟩
/-- a pack change was declared (R709). -/
def HLD_STATUS.PACK_NEW : Field := ⟨1, 0xe00008, 20, 1, .w1c, 0x0⟩

/-- The register HLD_STATUS. -/
def regHLD_STATUS : Reg := ⟨0xe00008, 4, [HLD_STATUS.STATE, HLD_STATUS.DUMP_READY, HLD_STATUS.PROVISIONAL, HLD_STATUS.CHARGING, HLD_STATUS.LEARNING, HLD_STATUS.LEARN_DONE, HLD_STATUS.LEARN_FAIL, HLD_STATUS.LEARN_CAUSE, HLD_STATUS.EOL, HLD_STATUS.FAULT, HLD_STATUS.FAULT_CAUSE, HLD_STATUS.REFUSED, HLD_STATUS.EXCURSION, HLD_STATUS.EEPROM_ERR, HLD_STATUS.PACK_NEW]⟩

/-! ### HLD_MEAS -/

/-- pack voltage, mV (R710). -/
def HLD_MEAS.VPACK : Field := ⟨1, 0xe00010, 0, 16, .ro, 0x0⟩
/-- current, signed, 0.1 mA, discharge positive (R710). -/
def HLD_MEAS.IPACK : Field := ⟨1, 0xe00010, 16, 24, .ro, 0x0⟩
/-- pack temperature, signed, 0.1 °C (R710). -/
def HLD_MEAS.TEMP : Field := ⟨1, 0xe00010, 40, 12, .ro, 0x0⟩

/-- The register HLD_MEAS. -/
def regHLD_MEAS : Reg := ⟨0xe00010, 8, [HLD_MEAS.VPACK, HLD_MEAS.IPACK, HLD_MEAS.TEMP]⟩

/-! ### HLD_CHARGE -/

/-- µAh (R710). -/
def HLD_CHARGE.Q_REM : Field := ⟨1, 0xe00018, 0, 32, .ro, 0x0⟩
/-- µAh (R710). -/
def HLD_CHARGE.Q_FULL : Field := ⟨1, 0xe00018, 32, 32, .ro, 0x0⟩

/-- The register HLD_CHARGE. -/
def regHLD_CHARGE : Reg := ⟨0xe00018, 8, [HLD_CHARGE.Q_REM, HLD_CHARGE.Q_FULL]⟩

/-! ### HLD_RESERVE -/

/-- µAh (R710). -/
def HLD_RESERVE.Q_RES : Field := ⟨1, 0xe00020, 0, 32, .ro, 0x0⟩
/-- µΩ (R710). -/
def HLD_RESERVE.IR25 : Field := ⟨1, 0xe00020, 32, 32, .ro, 0x0⟩

/-- The register HLD_RESERVE. -/
def regHLD_RESERVE : Reg := ⟨0xe00020, 8, [HLD_RESERVE.Q_RES, HLD_RESERVE.IR25]⟩

/-! ### HLD_ENERGY -/

/-- 0.1 J (R711). -/
def HLD_ENERGY.E_AVAIL : Field := ⟨1, 0xe00028, 0, 32, .ro, 0x0⟩
/-- E_DUMP(REGION_GIB), 0.1 J (R711). -/
def HLD_ENERGY.E_DUMP : Field := ⟨1, 0xe00028, 32, 16, .ro, 0x0⟩
/-- full dumps covered, under R699 (R711). -/
def HLD_ENERGY.DUMPS : Field := ⟨1, 0xe00028, 48, 8, .ro, 0x0⟩

/-- The register HLD_ENERGY. -/
def regHLD_ENERGY : Reg := ⟨0xe00028, 8, [HLD_ENERGY.E_AVAIL, HLD_ENERGY.E_DUMP, HLD_ENERGY.DUMPS]⟩

/-! ### HLD_PACK -/

/-- mAh (R711). -/
def HLD_PACK.Q_RATED : Field := ⟨1, 0xe00030, 0, 16, .ro, 0x0⟩
/-- mAh (R711). -/
def HLD_PACK.Q_EOL : Field := ⟨1, 0xe00030, 16, 16, .ro, 0x0⟩
/-- µΩ (R711). -/
def HLD_PACK.IR25_NEW : Field := ⟨1, 0xe00030, 32, 16, .ro, 0x0⟩
/-- µΩ (R711). -/
def HLD_PACK.IR_EOL : Field := ⟨1, 0xe00030, 48, 16, .ro, 0x0⟩

/-- The register HLD_PACK. -/
def regHLD_PACK : Reg := ⟨0xe00030, 8, [HLD_PACK.Q_RATED, HLD_PACK.Q_EOL, HLD_PACK.IR25_NEW, HLD_PACK.IR_EOL]⟩

/-! ### HLD_CNT_DUMPS -/

/-- count (R712). -/
def HLD_CNT_DUMPS.COUNT : Field := ⟨1, 0xe00100, 0, 64, .cnt, 0x0⟩

/-- The register HLD_CNT_DUMPS. -/
def regHLD_CNT_DUMPS : Reg := ⟨0xe00100, 8, [HLD_CNT_DUMPS.COUNT]⟩

/-! ### HLD_CNT_LEARNS -/

/-- count (R712). -/
def HLD_CNT_LEARNS.COUNT : Field := ⟨1, 0xe00108, 0, 64, .cnt, 0x0⟩

/-- The register HLD_CNT_LEARNS. -/
def regHLD_CNT_LEARNS : Reg := ⟨0xe00108, 8, [HLD_CNT_LEARNS.COUNT]⟩

/-! ### HLD_CNT_THROUGHPUT -/

/-- count (R712). -/
def HLD_CNT_THROUGHPUT.COUNT : Field := ⟨1, 0xe00110, 0, 64, .cnt, 0x0⟩

/-- The register HLD_CNT_THROUGHPUT. -/
def regHLD_CNT_THROUGHPUT : Reg := ⟨0xe00110, 8, [HLD_CNT_THROUGHPUT.COUNT]⟩

/-! ### CRP_STATUS -/

/-- 1: step 8 of R725 reached (R742). -/
def CRP_STATUS.RELEASED (h : Half) : Field := ⟨(halfSpace h), 0xc00000, 0, 1, .ro, 0x0⟩
/-- last start-up step completed, 0 to 7 (R742). -/
def CRP_STATUS.STAGE (h : Half) : Field := ⟨(halfSpace h), 0xc00000, 1, 3, .ro, 0x0⟩
/-- 0 none; 1h straps; 2h fuse load; 3h no valid image; 4h HBM; 5h Schrund; 6h media firmware; 7h fuse mismatch (R742). -/
def CRP_STATUS.START_FAIL (h : Half) : Field := ⟨(halfSpace h), 0xc00000, 4, 4, .ro, 0x0⟩
/-- bank running: 0 A, 1 B (R742). -/
def CRP_STATUS.BANK (h : Half) : Field := ⟨(halfSpace h), 0xc00000, 8, 1, .ro, 0x0⟩
/-- bank A's image was found invalid at start-up (R742). -/
def CRP_STATUS.BANK_A_BAD (h : Half) : Field := ⟨(halfSpace h), 0xc00000, 9, 1, .w1c, 0x0⟩
/-- bank B's image was found invalid at start-up (R742). -/
def CRP_STATUS.BANK_B_BAD (h : Half) : Field := ⟨(halfSpace h), 0xc00000, 10, 1, .w1c, 0x0⟩
/-- SIDE_SEL as sampled (R742). -/
def CRP_STATUS.SIDE (h : Half) : Field := ⟨(halfSpace h), 0xc00000, 11, 1, .ro, 0x0⟩
/-- POOL_SLOT as sampled (R742). -/
def CRP_STATUS.POOL_SLOT (h : Half) : Field := ⟨(halfSpace h), 0xc00000, 12, 4, .ro, 0x0⟩
/-- board profile in use (R742). -/
def CRP_STATUS.PROFILE (h : Half) : Field := ⟨(halfSpace h), 0xc00000, 16, 4, .ro, 0x0⟩
/-- a CRP_CTRL write was refused under R732 (R742). -/
def CRP_STATUS.REFUSED (h : Half) : Field := ⟨(halfSpace h), 0xc00000, 20, 1, .w1c, 0x0⟩
/-- host half: root reference present; media half: forwarded clock or holdover in use (R742). -/
def CRP_STATUS.REF_OK (h : Half) : Field := ⟨(halfSpace h), 0xc00000, 21, 1, .ro, 0x0⟩
/-- 1: the half's PLL is locked (R742). -/
def CRP_STATUS.PLL_LOCK (h : Half) : Field := ⟨(halfSpace h), 0xc00000, 22, 1, .ro, 0x0⟩

/-- The register CRP_STATUS. -/
def regCRP_STATUS (h : Half) : Reg := ⟨0xc00000, 4, [CRP_STATUS.RELEASED h, CRP_STATUS.STAGE h, CRP_STATUS.START_FAIL h, CRP_STATUS.BANK h, CRP_STATUS.BANK_A_BAD h, CRP_STATUS.BANK_B_BAD h, CRP_STATUS.SIDE h, CRP_STATUS.POOL_SLOT h, CRP_STATUS.PROFILE h, CRP_STATUS.REFUSED h, CRP_STATUS.REF_OK h, CRP_STATUS.PLL_LOCK h]⟩

/-! ### CRP_CTRL -/

/-- 0C1Dh requests a cold reset of this half under R732; other values ignored (R743). -/
def CRP_CTRL.COLD (h : Half) : Field := ⟨(halfSpace h), 0xc00004, 0, 16, .wo, 0x0⟩
/-- 3A7Eh requests a warm reset under R732; other values ignored (R743). -/
def CRP_CTRL.WARM (h : Half) : Field := ⟨(halfSpace h), 0xc00004, 16, 16, .wo, 0x0⟩

/-- The register CRP_CTRL. -/
def regCRP_CTRL (h : Half) : Reg := ⟨0xc00004, 4, [CRP_CTRL.COLD h, CRP_CTRL.WARM h]⟩

/-! ### CRP_FUSE -/

/-- state code of R718 (R743). -/
def CRP_FUSE.LIFECYCLE (h : Half) : Field := ⟨(halfSpace h), 0xc00008, 0, 2, .ro, 0x0⟩
/-- SVN floor, 0 to 63 (R743). -/
def CRP_FUSE.SVN_FLOOR (h : Half) : Field := ⟨(halfSpace h), 0xc00008, 2, 6, .ro, 0x0⟩
/-- bit n: key-hash position n is revoked (R743). -/
def CRP_FUSE.KEY_REVOKED (h : Half) : Field := ⟨(halfSpace h), 0xc00008, 8, 4, .ro, 0x0⟩
/-- bit n: key-hash position n is programmed (R743). -/
def CRP_FUSE.KEY_PRESENT (h : Half) : Field := ⟨(halfSpace h), 0xc00008, 12, 4, .ro, 0x0⟩

/-- The register CRP_FUSE. -/
def regCRP_FUSE (h : Half) : Reg := ⟨0xc00008, 4, [CRP_FUSE.LIFECYCLE h, CRP_FUSE.SVN_FLOOR h, CRP_FUSE.KEY_REVOKED h, CRP_FUSE.KEY_PRESENT h]⟩

/-! ### CRP_THERM -/

/-- hottest junction sensor, signed, 0.1 °C (R744). -/
def CRP_THERM.TJ (h : Half) : Field := ⟨(halfSpace h), 0xc00010, 0, 12, .ro, 0x0⟩
/-- highest TJ since cold reset, signed, 0.1 °C (R744). -/
def CRP_THERM.TJ_MAX (h : Half) : Field := ⟨(halfSpace h), 0xc00010, 12, 12, .ro, 0x0⟩
/-- throttle level of R738 (R744). -/
def CRP_THERM.LEVEL (h : Half) : Field := ⟨(halfSpace h), 0xc00010, 24, 2, .ro, 0x0⟩
/-- bit 26 + s: stack s refreshes at the doubled rate; host half uses bits 26 and 27 (R744). -/
def CRP_THERM.HBM_HOT (h : Half) : Field := ⟨(halfSpace h), 0xc00010, 26, 4, .ro, 0x0⟩
/-- LEVEL rose above 0 (R744). -/
def CRP_THERM.THROTTLED (h : Half) : Field := ⟨(halfSpace h), 0xc00010, 30, 1, .w1c, 0x0⟩
/-- a stack entered doubled refresh (R744). -/
def CRP_THERM.HBM_DOUBLED (h : Half) : Field := ⟨(halfSpace h), 0xc00010, 31, 1, .w1c, 0x0⟩

/-- The register CRP_THERM. -/
def regCRP_THERM (h : Half) : Reg := ⟨0xc00010, 8, [CRP_THERM.TJ h, CRP_THERM.TJ_MAX h, CRP_THERM.LEVEL h, CRP_THERM.HBM_HOT h, CRP_THERM.THROTTLED h, CRP_THERM.HBM_DOUBLED h]⟩

/-! ### CRP_CNT_COLD -/

/-- count (R745). -/
def CRP_CNT_COLD.COUNT (h : Half) : Field := ⟨(halfSpace h), 0xc00100, 0, 64, .cnt, 0x0⟩

/-- The register CRP_CNT_COLD. -/
def regCRP_CNT_COLD (h : Half) : Reg := ⟨0xc00100, 8, [CRP_CNT_COLD.COUNT h]⟩

/-! ### CRP_CNT_WARM -/

/-- count (R745). -/
def CRP_CNT_WARM.COUNT (h : Half) : Field := ⟨(halfSpace h), 0xc00108, 0, 64, .cnt, 0x0⟩

/-- The register CRP_CNT_WARM. -/
def regCRP_CNT_WARM (h : Half) : Reg := ⟨0xc00108, 8, [CRP_CNT_WARM.COUNT h]⟩

/-! ### CRP_CNT_THROTTLE -/

/-- count (R745). -/
def CRP_CNT_THROTTLE.COUNT (h : Half) : Field := ⟨(halfSpace h), 0xc00110, 0, 64, .cnt, 0x0⟩

/-- The register CRP_CNT_THROTTLE. -/
def regCRP_CNT_THROTTLE (h : Half) : Reg := ⟨0xc00110, 8, [CRP_CNT_THROTTLE.COUNT h]⟩

/-! ### GLB_ID -/

/-- part (R782). -/
def GLB_ID.PART : Field := ⟨0, 0x000000, 0, 16, .ro, 0x960⟩
/-- stepping (R782). -/
def GLB_ID.STEPPING : Field := ⟨0, 0x000000, 16, 8, .ro, 0xb0⟩
/-- 0 Twin A, 1 Twin B (R782). -/
def GLB_ID.SIDE : Field := ⟨0, 0x000000, 24, 1, .ro, 0x0⟩
/-- endpoint of this BAR0 (R782). -/
def GLB_ID.ENDPOINT : Field := ⟨0, 0x000000, 25, 2, .ro, 0x0⟩

/-- The register GLB_ID. -/
def regGLB_ID : Reg := ⟨0x000000, 4, [GLB_ID.PART, GLB_ID.STEPPING, GLB_ID.SIDE, GLB_ID.ENDPOINT]⟩

/-! ### GLB_STATUS -/

/-- durability mode, coded as FRN_STATUS.MODE (R782). -/
def GLB_STATUS.MODE : Field := ⟨0, 0x000004, 0, 2, .ro, 0x1⟩
/-- CRP_STATUS.RELEASED (R782). -/
def GLB_STATUS.RELEASED : Field := ⟨0, 0x000004, 2, 1, .ro, 0x0⟩
/-- SCH_STATUS.PEER_DOWN (R782). -/
def GLB_STATUS.PEER_DOWN : Field := ⟨0, 0x000004, 3, 1, .ro, 0x0⟩
/-- TWN_STATUS.STATE (R782). -/
def GLB_STATUS.TWIN_STATE : Field := ⟨0, 0x000004, 4, 3, .ro, 0x0⟩
/-- bit 8 + p: pool p online (R782). -/
def GLB_STATUS.POOL_ONLINE : Field := ⟨0, 0x000004, 8, 8, .ro, 0x0⟩
/-- 1: a bit of FLT_SUMMARY is set on either half (R782). -/
def GLB_STATUS.FAULT : Field := ⟨0, 0x000004, 16, 1, .ro, 0x0⟩
/-- 1: STORM is set on either half (R782). -/
def GLB_STATUS.STORM : Field := ⟨0, 0x000004, 17, 1, .ro, 0x0⟩

/-- The register GLB_STATUS. -/
def regGLB_STATUS : Reg := ⟨0x000004, 4, [GLB_STATUS.MODE, GLB_STATUS.RELEASED, GLB_STATUS.PEER_DOWN, GLB_STATUS.TWIN_STATE, GLB_STATUS.POOL_ONLINE, GLB_STATUS.FAULT, GLB_STATUS.STORM]⟩

/-! ### GLB_TIMEBASE -/

/-- host-half timebase (R783). -/
def GLB_TIMEBASE.TB : Field := ⟨0, 0x000008, 0, 64, .ro, 0x0⟩

/-- The register GLB_TIMEBASE. -/
def regGLB_TIMEBASE : Reg := ⟨0x000008, 8, [GLB_TIMEBASE.TB]⟩

/-! ### GLB_FW -/

/-- running firmware (R783). -/
def GLB_FW.FW_VERSION : Field := ⟨0, 0x000010, 0, 32, .ro, 0x0⟩
/-- boot-flash bank running (R783). -/
def GLB_FW.BANK : Field := ⟨0, 0x000010, 32, 1, .ro, 0x0⟩
/-- running image (R783). -/
def GLB_FW.PAIR_LEVEL : Field := ⟨0, 0x000010, 48, 16, .ro, 0x0⟩

/-- The register GLB_FW. -/
def regGLB_FW : Reg := ⟨0x000010, 8, [GLB_FW.FW_VERSION, GLB_FW.BANK, GLB_FW.PAIR_LEVEL]⟩

/-! ### GLB_SCRATCH -/

/-- no effect on the device; survives warm reset (R783). -/
def GLB_SCRATCH.VALUE : Field := ⟨0, 0x000018, 0, 64, .rw, 0x0⟩

/-- The register GLB_SCRATCH. -/
def regGLB_SCRATCH : Reg := ⟨0x000018, 8, [GLB_SCRATCH.VALUE]⟩

/-! ### RNG_AQ_SQBASE -/

/-- bits [63:12] of the submission ring (R784). -/
def RNG_AQ_SQBASE.BASE (fn : Nat) : Field := ⟨(fnSpace fn), 0x100000, 12, 52, .rw, 0x0⟩

/-- The register RNG_AQ_SQBASE. -/
def regRNG_AQ_SQBASE (fn : Nat) : Reg := ⟨0x100000, 8, [RNG_AQ_SQBASE.BASE fn]⟩

/-! ### RNG_AQ_CQBASE -/

/-- bits [63:12] of the completion ring (R784). -/
def RNG_AQ_CQBASE.BASE (fn : Nat) : Field := ⟨(fnSpace fn), 0x100008, 12, 52, .rw, 0x0⟩

/-- The register RNG_AQ_CQBASE. -/
def regRNG_AQ_CQBASE (fn : Nat) : Reg := ⟨0x100008, 8, [RNG_AQ_CQBASE.BASE fn]⟩

/-! ### RNG_AQ_CFG -/

/-- depth minus 1, 1 to 4,095 (R784). -/
def RNG_AQ_CFG.DEPTH_M1 (fn : Nat) : Field := ⟨(fnSpace fn), 0x100010, 0, 12, .rw, 0x0⟩
/-- vector under R95 (R784). -/
def RNG_AQ_CFG.VECTOR (fn : Nat) : Field := ⟨(fnSpace fn), 0x100010, 16, 11, .rw, 0x0⟩
/-- 1: the admin queue exists (R784). -/
def RNG_AQ_CFG.ENABLE (fn : Nat) : Field := ⟨(fnSpace fn), 0x100010, 28, 1, .rw, 0x0⟩
/-- 1: the admin queue accepts doorbells (R784). -/
def RNG_AQ_CFG.READY (fn : Nat) : Field := ⟨(fnSpace fn), 0x100010, 29, 1, .ro, 0x0⟩
/-- 1: the last write of 1 to ENABLE was refused under R785, or the queue is in the error state of R93 (R784). -/
def RNG_AQ_CFG.ERROR (fn : Nat) : Field := ⟨(fnSpace fn), 0x100010, 30, 1, .ro, 0x0⟩

/-- The register RNG_AQ_CFG. -/
def regRNG_AQ_CFG (fn : Nat) : Reg := ⟨0x100010, 4, [RNG_AQ_CFG.DEPTH_M1 fn, RNG_AQ_CFG.VECTOR fn, RNG_AQ_CFG.ENABLE fn, RNG_AQ_CFG.READY fn, RNG_AQ_CFG.ERROR fn]⟩

/-! ### RNG_EV_HEAD -/

/-- event ring head consumed by software (R786). -/
def RNG_EV_HEAD.HEAD (fn : Nat) : Field := ⟨(fnSpace fn), 0x100020, 0, 12, .rw, 0x0⟩

/-- The register RNG_EV_HEAD. -/
def regRNG_EV_HEAD (fn : Nat) : Reg := ⟨0x100020, 4, [RNG_EV_HEAD.HEAD fn]⟩

/-! ### RNG_EV_STATUS -/

/-- 1: EVENT_RING_SET has taken effect (R786). -/
def RNG_EV_STATUS.SET (fn : Nat) : Field := ⟨(fnSpace fn), 0x100024, 0, 1, .ro, 0x0⟩
/-- next entry the device writes (R786). -/
def RNG_EV_STATUS.TAIL (fn : Nat) : Field := ⟨(fnSpace fn), 0x100024, 1, 12, .ro, 0x0⟩
/-- events held under R771, 0 to 256 (R786). -/
def RNG_EV_STATUS.HELD (fn : Nat) : Field := ⟨(fnSpace fn), 0x100024, 13, 9, .ro, 0x0⟩

/-- The register RNG_EV_STATUS. -/
def regRNG_EV_STATUS (fn : Nat) : Reg := ⟨0x100024, 4, [RNG_EV_STATUS.SET fn, RNG_EV_STATUS.TAIL fn, RNG_EV_STATUS.HELD fn]⟩

/-! ### RNG_EV_LOST -/

/-- events lost under R771 (R786). -/
def RNG_EV_LOST.LOST (fn : Nat) : Field := ⟨(fnSpace fn), 0x100028, 0, 16, .cnt, 0x0⟩

/-- The register RNG_EV_LOST. -/
def regRNG_EV_LOST (fn : Nat) : Reg := ⟨0x100028, 4, [RNG_EV_LOST.LOST fn]⟩

/-! ### FLT_STATUS -/

/-- the watchdog expired under R774 (R787). -/
def FLT_STATUS.WEDGED (h : Half) : Field := ⟨(halfSpace h), 0xd00000, 0, 1, .rws, 0x0⟩
/-- R763 (R787). -/
def FLT_STATUS.STORM (h : Half) : Field := ⟨(halfSpace h), 0xd00000, 1, 1, .rws, 0x0⟩
/-- 1: summary mode of R763 (R787). -/
def FLT_STATUS.SUMMARY_MODE (h : Half) : Field := ⟨(halfSpace h), 0xd00000, 2, 1, .ro, 0x0⟩
/-- R762 (R787). -/
def FLT_STATUS.LEDGER_FULL (h : Half) : Field := ⟨(halfSpace h), 0xd00000, 3, 1, .w1c, 0x0⟩
/-- a last-gasp record was written (R787). -/
def FLT_STATUS.LAST_GASP (h : Half) : Field := ⟨(halfSpace h), 0xd00000, 4, 1, .w1c, 0x0⟩

/-- The register FLT_STATUS. -/
def regFLT_STATUS (h : Half) : Reg := ⟨0xd00000, 4, [FLT_STATUS.WEDGED h, FLT_STATUS.STORM h, FLT_STATUS.SUMMARY_MODE h, FLT_STATUS.LEDGER_FULL h, FLT_STATUS.LAST_GASP h]⟩

/-! ### FLT_CTRL -/

/-- 1 starts a new epoch (R787). -/
def FLT_CTRL.NEW_EPOCH (h : Half) : Field := ⟨(halfSpace h), 0xd00004, 0, 1, .wo, 0x0⟩
/-- 1 writes a last-gasp record (R787). -/
def FLT_CTRL.LAST_GASP (h : Half) : Field := ⟨(halfSpace h), 0xd00004, 1, 1, .wo, 0x0⟩

/-- The register FLT_CTRL. -/
def regFLT_CTRL (h : Half) : Reg := ⟨0xd00004, 4, [FLT_CTRL.NEW_EPOCH h, FLT_CTRL.LAST_GASP h]⟩

/-! ### FLT_SUMMARY -/

/-- bit n: block n had SEVERITY 2h or higher (R788). -/
def FLT_SUMMARY.DEGRADED (h : Half) : Field := ⟨(halfSpace h), 0xd00008, 1, 16, .rws, 0x0⟩
/-- bit 32 + n: block n had SEVERITY 3h or higher (R788). -/
def FLT_SUMMARY.LOST (h : Half) : Field := ⟨(halfSpace h), 0xd00008, 33, 16, .rws, 0x0⟩

/-- The register FLT_SUMMARY. -/
def regFLT_SUMMARY (h : Half) : Reg := ⟨0xd00008, 8, [FLT_SUMMARY.DEGRADED h, FLT_SUMMARY.LOST h]⟩

/-! ### FLT_LEDGER -/

/-- records held, source and summary records together, 0 to 17,408 (R788). -/
def FLT_LEDGER.RECORDS (h : Half) : Field := ⟨(halfSpace h), 0xd00010, 0, 15, .ro, 0x0⟩
/-- current epoch (R788). -/
def FLT_LEDGER.EPOCH (h : Half) : Field := ⟨(halfSpace h), 0xd00010, 16, 16, .ro, 0x0⟩
/-- sources without a record that reported in the current interval, saturating (R788). -/
def FLT_LEDGER.INTERVAL_NEW (h : Half) : Field := ⟨(halfSpace h), 0xd00010, 32, 16, .ro, 0x0⟩

/-- The register FLT_LEDGER. -/
def regFLT_LEDGER (h : Half) : Reg := ⟨0xd00010, 8, [FLT_LEDGER.RECORDS h, FLT_LEDGER.EPOCH h, FLT_LEDGER.INTERVAL_NEW h]⟩

/-! ### FLT_WDOG -/

/-- 6D0Bh kicks the watchdog; other values ignored (R787). -/
def FLT_WDOG.KICK (h : Half) : Field := ⟨(halfSpace h), 0xd00018, 0, 16, .wo, 0x0⟩
/-- 1: the watchdog is armed (R787). -/
def FLT_WDOG.ARMED (h : Half) : Field := ⟨(halfSpace h), 0xd00018, 16, 1, .ro, 0x0⟩

/-- The register FLT_WDOG. -/
def regFLT_WDOG (h : Half) : Reg := ⟨0xd00018, 4, [FLT_WDOG.KICK h, FLT_WDOG.ARMED h]⟩

/-! ### FLT_CNT_REPORTS -/

/-- count (R790). -/
def FLT_CNT_REPORTS.COUNT (h : Half) : Field := ⟨(halfSpace h), 0xd00100, 0, 64, .cnt, 0x0⟩

/-- The register FLT_CNT_REPORTS. -/
def regFLT_CNT_REPORTS (h : Half) : Reg := ⟨0xd00100, 8, [FLT_CNT_REPORTS.COUNT h]⟩

/-! ### FLT_CNT_SUMMARIZED -/

/-- count (R790). -/
def FLT_CNT_SUMMARIZED.COUNT (h : Half) : Field := ⟨(halfSpace h), 0xd00108, 0, 64, .cnt, 0x0⟩

/-- The register FLT_CNT_SUMMARIZED. -/
def regFLT_CNT_SUMMARIZED (h : Half) : Reg := ⟨0xd00108, 8, [FLT_CNT_SUMMARIZED.COUNT h]⟩

/-! ### FLT_CNT_NOTIFY -/

/-- count (R790). -/
def FLT_CNT_NOTIFY.COUNT (h : Half) : Field := ⟨(halfSpace h), 0xd00110, 0, 64, .cnt, 0x0⟩

/-- The register FLT_CNT_NOTIFY. -/
def regFLT_CNT_NOTIFY (h : Half) : Reg := ⟨0xd00110, 8, [FLT_CNT_NOTIFY.COUNT h]⟩

/-! ### FLT_MBX_CMD -/

/-- R776 (R789). -/
def FLT_MBX_CMD.OP : Field := ⟨0, 0xe00000, 0, 8, .wo, 0x0⟩
/-- R776 (R789). -/
def FLT_MBX_CMD.KEY : Field := ⟨0, 0xe00000, 16, 16, .wo, 0x0⟩

/-- The register FLT_MBX_CMD. -/
def regFLT_MBX_CMD : Reg := ⟨0xe00000, 4, [FLT_MBX_CMD.OP, FLT_MBX_CMD.KEY]⟩

/-! ### FLT_MBX_STATUS -/

/-- 1: a command runs (R789). -/
def FLT_MBX_STATUS.BUSY : Field := ⟨0, 0xe00004, 0, 1, .ro, 0x0⟩
/-- R777 (R789). -/
def FLT_MBX_STATUS.RESULT : Field := ⟨0, 0xe00004, 8, 8, .ro, 0x0⟩
/-- OP of the last command taken (R789). -/
def FLT_MBX_STATUS.LAST_OP : Field := ⟨0, 0xe00004, 16, 8, .ro, 0x0⟩

/-- The register FLT_MBX_STATUS. -/
def regFLT_MBX_STATUS : Reg := ⟨0xe00004, 4, [FLT_MBX_STATUS.BUSY, FLT_MBX_STATUS.RESULT, FLT_MBX_STATUS.LAST_OP]⟩

/-! ### FLT_MBX_ARG -/

/-- operand (R789). -/
def FLT_MBX_ARG.ARG : Field := ⟨0, 0xe00008, 0, 64, .rw, 0x0⟩

/-- The register FLT_MBX_ARG. -/
def regFLT_MBX_ARG : Reg := ⟨0xe00008, 8, [FLT_MBX_ARG.ARG]⟩

/-! ### FLT_MBX_RESP -/

/-- response of the last command (R789). -/
def FLT_MBX_RESP.RESP : Field := ⟨0, 0xe00010, 0, 64, .ro, 0x0⟩

/-- The register FLT_MBX_RESP. -/
def regFLT_MBX_RESP : Reg := ⟨0xe00010, 8, [FLT_MBX_RESP.RESP]⟩

/-- The registers that both halves hold at equal offsets (R275, R677, R741, R781), arrays apart. -/
def bothRegs (h : Half) : List Reg :=
  [regSCH_STATUS h, regSCH_CTRL h, regSCH_LANE_H2M h, regSCH_LANE_M2H h, regSCH_CNT_FRAMES h, regSCH_CNT_REPLAY h, regSCH_CNT_FCHECK h, regSCH_CNT_SUBST h, regSCH_CNT_REJECT h, regFLO_EVENT h, regFLO_EVENT_SET h, regFLO_EVENT_CLR h] ++
  [regFLO_SWREQ h, regCRP_STATUS h, regCRP_CTRL h, regCRP_FUSE h, regCRP_THERM h, regCRP_CNT_COLD h, regCRP_CNT_WARM h, regCRP_CNT_THROTTLE h, regFLT_STATUS h, regFLT_CTRL h, regFLT_SUMMARY h, regFLT_LEDGER h] ++
  [regFLT_WDOG h, regFLT_CNT_REPORTS h, regFLT_CNT_SUMMARIZED h, regFLT_CNT_NOTIFY h]

/-- The host half's own registers in every PF's BAR0, arrays apart. -/
def hostOnlyRegs : List Reg :=
  [regING_CFG, regING_CTRL, regING_STATUS, regING_NEVE_LINES, regING_LEND_TABLE, regING_LEND_PAGES, regING_CNT_LOOKUPS, regING_CNT_DRIFT_HITS, regING_CNT_REFS_HONOURED, regING_CNT_REFS_REFUSED, regING_CNT_ZERO, regING_CNT_RAW] ++
  [regING_CNT_STREAM_FAIL, regRIM_STATUS, regRIM_CTRL, regRIM_SLOT_SEL, regRIM_SLOT_INFO, regRIM_CNT_BLOCKS, regRIM_CNT_RETRIES, regRIM_CNT_UNWRAP_FAIL, regRIM_CNT_NONCE_EXH, regRIM_CNT_HEALTH_FAIL, regGLB_ID, regGLB_STATUS] ++
  [regGLB_TIMEBASE, regGLB_FW, regGLB_SCRATCH, regFLT_MBX_CMD, regFLT_MBX_STATUS, regFLT_MBX_ARG, regFLT_MBX_RESP]

/-- The media half's own registers, arrays apart. -/
def mediaOnlyRegs : List Reg :=
  [regFRN_CFG, regFRN_CTRL, regFRN_STATUS, regFRN_SPACE, regFRN_GROUPS, regFRN_POOL_SEL, regFRN_POOL_SEQ, regFRN_DUMP_INFO, regFRN_CNT_RECORDS, regFRN_CNT_STRIPES, regFRN_CNT_REPLAYS, regFRN_CNT_DIVERGENT] ++
  [regFRN_CNT_COMMITS, regFRN_CNT_DISCARDS, regFRN_CNT_SPACE_WAITS, regMOR_STATUS, regMOR_POOL_SEL, regMOR_POOL_GEOM, regMOR_POOL_STATE, regMOR_CTRL, regMOR_CNT_STRIPES, regMOR_CNT_RECON, regMOR_CNT_IDENTITY, regMOR_CNT_REPAIRED] ++
  [regMOR_CNT_DIVERGENT, regMOR_CNT_UNRECOVERED, regMNT_CFG, regMNT_RATE, regMNT_STATUS, regMNT_POOL_SEL, regMNT_POOL_PROG, regMNT_SCRUB_PROG, regMNT_MEMBER_SEL, regMNT_MEMBER, regMNT_CNT_REBUILT, regMNT_CNT_SCRUBBED] ++
  [regMNT_CNT_REPAIRS, regMNT_CNT_LOST, regMNT_CNT_DECLARED, regMNT_CNT_ADMITTED, regMNT_CNT_REFUSED, regVRV_CFG, regVRV_STATUS, regVRV_NS_SEL, regVRV_NS_INFO, regVRV_NS_LIVE, regVRV_NS_RETAINED, regVRV_POOL_SEL] ++
  [regVRV_POOL_FREE, regVRV_POOL_DEAD, regVRV_CNT_SNAPS, regVRV_CNT_PRUNED, regVRV_CNT_COMPACTED, regVRV_CNT_MSG_SENT, regVRV_CNT_MSG_APPLIED, regVRV_CNT_AUTH_FAIL, regTWN_CFG, regTWN_CTRL, regTWN_STATUS, regTWN_HOME] ++
  [regTWN_LANES, regTWN_PEER, regTWN_TB_OFFSET, regTWN_WITNESS, regTWN_LAST_EVENT, regTWN_PAIR_ID, regTWN_CNT_FRAMES, regTWN_CNT_REPLAY, regTWN_CNT_FEC_UNCORR, regTWN_CNT_LANE_LOST, regTWN_CNT_FAILOVERS, regTWN_CNT_SPLITS_WON] ++
  [regTWN_CNT_SWAPS, regTWN_CNT_CHAIN_BREAK, regTWN_CNT_TAG_FAIL, regDRV_CFG, regDRV_PORT_CFG, regDRV_STATUS, regDRV_SEL, regDRV_INFO, regDRV_CNT_TIMEOUTS, regDRV_CNT_HEDGED, regDRV_CNT_MEDIA_ERR, regDRV_CNT_RESV_CONFLICT] ++
  [regDRV_CNT_CTRL_RESET, regDRV_CNT_INSERTED, regDRV_CNT_REMOVED, regHLD_CFG, regHLD_CTRL, regHLD_STATUS, regHLD_MEAS, regHLD_CHARGE, regHLD_RESERVE, regHLD_ENERGY, regHLD_PACK, regHLD_CNT_DUMPS] ++
  [regHLD_CNT_LEARNS, regHLD_CNT_THROUGHPUT]

/-- The EPX registers of endpoint `e` (R596). -/
def epRegs (e : Nat) : List Reg :=
  [regEPX_LINK e, regEPX_PM_CFG e, regEPX_FUNC_SEL e, regEPX_FUNC_STATE e, regEPX_HOLD_POOL e, regEPX_CNT_FLR e, regEPX_CNT_HOLD_FAIL e, regEPX_CNT_CPL_TIMEOUT e, regEPX_CNT_POISONED e, regEPX_CNT_RETRAIN e, regEPX_CNT_L1_ENTRIES e]

/-- The ring registers of function `fn` at their offsets in a PF's BAR0 (R781). -/
def fnRegs (fn : Nat) : List Reg :=
  [regRNG_AQ_SQBASE fn, regRNG_AQ_CQBASE fn, regRNG_AQ_CFG fn, regRNG_EV_HEAD fn, regRNG_EV_STATUS fn, regRNG_EV_LOST fn]

/-- The register arrays that both halves hold. -/
def bothArrayReg (h : Half) (off : Nat) : Option Reg :=
  if 0xa00100 ≤ off ∧ off < 0xa00100 + 4 * 32 ∧ (off - 0xa00100) % 4 = 0 then some (regFLO_REQ h ((off - 0xa00100) / 4)) else
  if 0xa10000 ≤ off ∧ off < 0xa10000 + 128 * 128 ∧ (off - 0xa10000) % 128 = 0 then some (regFLO_CH_CFG h ((off - 0xa10000) / 128)) else
  if 0xa10004 ≤ off ∧ off < 0xa10004 + 128 * 128 ∧ (off - 0xa10004) % 128 = 0 then some (regFLO_CH_CTRL h ((off - 0xa10004) / 128)) else
  if 0xa10008 ≤ off ∧ off < 0xa10008 + 128 * 128 ∧ (off - 0xa10008) % 128 = 0 then some (regFLO_CH_STATUS h ((off - 0xa10008) / 128)) else
  if 0xa1000c ≤ off ∧ off < 0xa1000c + 128 * 128 ∧ (off - 0xa1000c) % 128 = 0 then some (regFLO_CH_VEC h ((off - 0xa1000c) / 128)) else
  if 0xa10010 ≤ off ∧ off < 0xa10010 + 128 * 128 ∧ (off - 0xa10010) % 128 = 0 then some (regFLO_CH_RING h ((off - 0xa10010) / 128)) else
  if 0xa10018 ≤ off ∧ off < 0xa10018 + 128 * 128 ∧ (off - 0xa10018) % 128 = 0 then some (regFLO_CH_HEAD h ((off - 0xa10018) / 128)) else
  if 0xa10020 ≤ off ∧ off < 0xa10020 + 128 * 128 ∧ (off - 0xa10020) % 128 = 0 then some (regFLO_CH_PC h ((off - 0xa10020) / 128)) else
  if 0xa10028 ≤ off ∧ off < 0xa10028 + 128 * 128 ∧ (off - 0xa10028) % 128 = 0 then some (regFLO_CH_SRC h ((off - 0xa10028) / 128)) else
  if 0xa10030 ≤ off ∧ off < 0xa10030 + 128 * 128 ∧ (off - 0xa10030) % 128 = 0 then some (regFLO_CH_DST h ((off - 0xa10030) / 128)) else
  if 0xa10038 ≤ off ∧ off < 0xa10038 + 128 * 128 ∧ (off - 0xa10038) % 128 = 0 then some (regFLO_CH_REMAIN h ((off - 0xa10038) / 128)) else
  if 0xa10040 ≤ off ∧ off < 0xa10040 + 128 * 128 ∧ (off - 0xa10040) % 128 = 0 then some (regFLO_CH_LOOP h ((off - 0xa10040) / 128)) else
  if 0xa10048 ≤ off ∧ off < 0xa10048 + 128 * 128 ∧ (off - 0xa10048) % 128 = 0 then some (regFLO_CH_MOVED h ((off - 0xa10048) / 128)) else
  if 0xa10050 ≤ off ∧ off < 0xa10050 + 128 * 128 ∧ (off - 0xa10050) % 128 = 0 then some (regFLO_CH_RETRIES h ((off - 0xa10050) / 128)) else
  none

/-- The register arrays of the host half. -/
def hostArrayReg (off : Nat) : Option Reg :=
  if 0x200040 ≤ off ∧ off < 0x200040 + 4 * 16 ∧ (off - 0x200040) % 4 = 0 then some (regING_SLICE ((off - 0x200040) / 4)) else
  if 0x300040 ≤ off ∧ off < 0x300040 + 4 * 16 ∧ (off - 0x300040) % 4 = 0 then some (regRIM_SLICE ((off - 0x300040) / 4)) else
  none

/-- The register arrays of the media half. -/
def mediaArrayReg (off : Nat) : Option Reg :=
  if 0x600040 ≤ off ∧ off < 0x600040 + 4 * 16 ∧ (off - 0x600040) % 4 = 0 then some (regMOR_ENG ((off - 0x600040) / 4)) else
  none

/-- The register of the media management space at an offset (R749, R752, R778). -/
def mediaRegAt (off : Nat) : Option Reg :=
  ((mediaOnlyRegs ++ bothRegs .media).find? (fun r => r.off == off)).orElse fun _ =>
    (bothArrayReg .media off).orElse fun _ => mediaArrayReg off

/-- The register of the host half at an offset of the BAR0 of the PF of endpoint `e` (R566). -/
def pfRegAt (e : Nat) (off : Nat) : Option Reg :=
  ((hostOnlyRegs ++ bothRegs .host ++ epRegs e ++ fnRegs (256 * e)).find? (fun r => r.off == off)).orElse fun _ =>
    (bothArrayReg .host off).orElse fun _ => hostArrayReg off

/-- The field that a key of the register table names, in a space other than a configuration space. -/
def fieldOfKey (k : Nat) : Option Field :=
  let space := k / 64 / 2 ^ 28
  let off := k / 64 % 2 ^ 28
  let reg := if space = 1 then mediaRegAt off else if space < 6 then pfRegAt (space - 2) off
    else if space < 2048 then (fnRegs (space - 16)).find? (fun r => r.off == off) else none
  reg.bind fun r => r.fields.find? fun f => f.lsb == k % 64

/-- The PF offset of the ring register at an offset of a VF window (R568, R781). -/
def vfWindowOffset (off : Nat) : Option Nat :=
  if off = 0x10000 then some 0x100000
  else if off = 0x10008 then some 0x100008
  else if off = 0x10010 then some 0x100010
  else if off = 0x20000 then some 0x100020
  else if off = 0x20004 then some 0x100024
  else if off = 0x20008 then some 0x100028
  else none

/-- The register of a VF's window at an offset (R568). -/
def vfRegAt (fn : Nat) (off : Nat) : Option Reg :=
  (vfWindowOffset off).bind fun o => (fnRegs fn).find? (fun r => r.off == o)

end Sys2Proof.Machine
end

