-- ==== Sys2Proof/Config.lean ====
section
/-! DEFINITION. The free values: what the specification leaves open and every statement holds for whatever it is. -/

namespace Sys2Proof

/-- A free value of the machine: number `n` of those a run draws. Nothing constrains it. -/
opaque Config.freeValue : Nat → Nat

/-- Free bytes of the machine, such as the noise a deterministic random bit generator draws on (R224 to R226). -/
opaque Config.freeBytes : Nat → Nat → Bytes

/-- The 4 KiB header of a last-gasp record (R766), which names what it holds and gives no layout: a function of the half, the sequence number,
the timebase, FLT_STATUS, FLT_SUMMARY, FLT_LEDGER and CRP_STATUS. -/
opaque Config.gaspHeader : Nat → Nat → Nat → Nat → Nat → Nat → Nat → Bytes

end Sys2Proof
end

