-- ==== Sys2Proof/Machine/DriveState.lean ====
section
/-! DEFINITION. The drive fabric as plain data (chapter 12): the drive table, configuration blocks, and the NVMe
commands outstanding with the purpose of each. -/

namespace Sys2Proof.Machine

/-- An entry of the drive table (R620, R621, R637). `path` are the downstream ports of the switches between its sub-link and the drive, the
sub-link's first (R604), `window` the base of the memory window assigned to it (R603), `pairs` the I/O queue pairs created on its controller and
`weights` the weights of its weighted round robin, High, Medium and Low, where it is enabled (R625). `keys` are the reservation keys last reported, `registered` whether
this module registered its own (R610), `away` that the drive is absent. -/
structure Drive where
  state : Nat
  reason : Nat
  port : Nat
  sub : Nat
  speed : Nat
  width : Nat
  pool : Nat
  member : Nat
  gen : Nat
  nguid : Nat
  lbads : Nat
  blocks : Nat
  dsm : Bool
  wrr : Bool
  abortLimit : Nat
  aborts : Nat
  block : Option CfgBlock
  keys : List Nat
  registered : Bool
  ready : Bool
  start : Nat
  path : List Nat
  window : Nat
  pairs : Nat
  weights : Option (Nat × Nat × Nat)
  deriving DecidableEq, Repr

/-- What an NVMe command to a drive is for (R607). `listWrite` writes a configuration block for WITNESS_SET or ENUM_WINDOW; `report` reads the
reservation report after a write met Reservation Conflict, with what the write was for (R612); `features` sets a controller up (R607, R625). -/
inductive DrvFor where
  | stripWrite (stripe ord : Nat)
  | stripRead (id ord : Nat)
  | jobWrite (pool stripe ord : Nat)
  | evacWrite (pool member row : Nat)
  | cfgWrite (pool change : Nat)
  | witnessWrite (w : Nat)
  | witnessRace (w : Nat)
  | witnessRead (w : Nat)
  | listWrite
  | register
  | acquire
  | preempt
  | report (why : DrvFor)
  | abort (cid : Nat)
  | dsm
  | health
  | fwDownload (q tag : Nat)
  | fwCommit (q tag : Nat)
  | features
  deriving DecidableEq, Repr

/-- An NVMe command outstanding at a drive (R625 to R628): its drive, opcode, logical block, class, function (1,024 for none) and purpose, the time
it was first issued, whether it was hedged, when it was aborted, and the record number a write carries. -/
structure DrvCmd where
  drive : Nat
  admin : Bool
  op : Nat
  lba : Nat
  cls : Nat
  fn : Nat
  what : DrvFor
  data : Bytes
  issued : Nat
  hedged : Bool
  abortAt : Option Nat
  limit : Nat
  deriving DecidableEq, Repr

/-- The drive fabric: the drive table by index, commands outstanding by their number, the next number, root ports in
service, whether the start-up window still runs for each pool, a scheduled resend of Namespace Not Ready, and the I/O
commands that the limits of R605 and R625 hold back, in order; the bridges found in the segment of each root port, depth first (R603), and the
downstream ports on which link and presence reports are enabled (R604), each a root port with its sub-link and the ports below. -/
structure Drives where
  table : Tab Drive
  cmds : Tab DrvCmd
  next : Nat
  windows : List Nat
  trainedAt : Tab Nat
  retry : List Nat
  queued : List Nat
  started : Bool
  bridges : Tab (List (List Nat))
  watched : List (Nat × List Nat)
  deriving DecidableEq, Repr

end Sys2Proof.Machine
end

