-- ==== Sys2Proof/Machine/HostState.lean ====
section
/-! DEFINITION. The host half's state as plain data: queue pairs and their commands (chapter 02), arbiters (chapter
01), functions, event rings and endpoints (chapters 11 and 16), slices, the Névé index and the Drift cache (chapter
03), key slots and cipher contexts (chapter 04). Register fields stand apart, in `State.regs`. -/

namespace Sys2Proof.Machine

/-- A completion entry before it is written (R79): the submission head and the phase are added at the write. `order` is
the fetch order of its command (R108); `frees` the queue pair whose reset ends once the entry is posted (R99). -/
structure Cqe where
  order : Nat
  result : Nat
  tag : Nat
  status : Nat
  frees : Option Nat
  deriving DecidableEq, Repr

/-- One chunk of a write as its slice settled it (R124 to R142): its plaintext, its fingerprint, the index entry that
produced a hit, the owner and dedup generation of its domain when it was taken up (R131), its chunk ID, whether it goes as a reference or
as new in a form with stored bytes, whether inserts were enabled when it was taken up (R182), and whether its reference was refused (R141). -/
structure HostChunk where
  ord : Nat
  data : Bytes
  fp : Option Bytes
  hit : Option (Nat × Nat)
  hitOwner : Nat
  id : Nat
  isRef : Bool
  form : Nat
  slice : Nat
  index : Bool
  refused : Bool
  deriving DecidableEq, Repr

/-- How far a fetched command has come: fetched and waiting to start, working on the host half, waiting for the media
half with its descriptor sent, or taken over by a queue reset so that it posts nothing (R97). -/
inductive Stage where
  | ready | hostWork | crossed | orphan
  deriving DecidableEq, Repr

/-- A fetched command of a queue: its number in the module's fetch order (R814), its packet, its data segments, its
stage, whether its descriptor has been sent, whether it has committed or taken its data (R104), its chunks and counts, the data read so
far (`buf`) and the stored objects still to be decoded together, the data read from host memory, the failure a read met, whether
it may join its queue's open stream block (R162), and how far a COMPARE_AND_WRITE has come (`phase`): 0 not
sent, 1 comparing, 2 writing; 7 marks a GROUP_DISCARD that discarded its group at its fetch, 8 a command that the media half ends when its
descriptor arrives, and 9 one that it has ended. `silent` marks a member of another queue's group whose queue was reset: it goes on and
posts nothing (R323). -/
structure Cmd where
  order : Nat
  pkt : BitVec 512
  segs : List (Nat × Nat)
  dataLen : Nat
  stage : Stage
  started : Bool
  sent : Bool
  took : Bool
  keySlots : List Nat
  chunks : List HostChunk
  refs : Nat
  news : Nat
  recon : Nat
  warn : Nat
  buf : Bytes
  got : List (Nat × Bytes)
  slice : Nat
  host : Bytes
  failed : Option Nat
  joins : Bool
  phase : Nat
  silent : Bool
  deriving DecidableEq, Repr

/-- A QUEUE_RESET or QUEUE_DELETE in progress on a queue (R97 to R100): the admin queue and tag that asked, whether the
queue pair is freed at the end, and the counts for RESULT. `byFlr` marks a reset that answers no command, and `done` one whose completion
is ready and not yet posted (R99). -/
structure QReset where
  adminQ : Nat
  tag : Nat
  delete : Bool
  took : Nat
  dropped : Nat
  byFlr : Bool
  done : Bool
  deriving DecidableEq, Repr

/-- An open stream block of a queue (R162): its namespace, slice and class, its chunks in block order with the tag of the command of
each, its size in bytes, and whether it has closed and waits for a serial lease. -/
structure StreamBlock where
  nsid : Nat
  slice : Nat
  cls : Nat
  chunks : List (Nat × HostChunk)
  size : Nat
  closing : Bool
  deriving DecidableEq, Repr

/-- A queue pair (R53 to R118). `fetches` counts packet fetches granted and still outstanding; `held` are completions
that wait for room in the completion ring (R116); `nextLba` is where the last fetched command ended (R162). -/
structure Queue where
  fn : Nat
  depth : Nat
  cls : Nat
  ro : Bool
  irq : Bool
  vector : Nat
  coalN : Nat
  coalT : Nat
  sqBase : Nat
  cqBase : Nat
  admin : Bool
  sqTail : Nat
  sqHead : Nat
  cqTail : Nat
  cqHead : Nat
  phase : Bool
  error : Bool
  fetches : Nat
  cmds : List Cmd
  held : List Cqe
  unsig : Nat
  firstUnsig : Nat
  reset : Option QReset
  block : Option StreamBlock
  nextLba : Nat
  deriving DecidableEq, Repr

/-- One arbiter (R43 to R46): its place in the frame of 8, the deficits of the classes A to D, the deficits of the
tenants within each class (numbered class × 2,048 + function), and the last grant given. -/
structure Arb where
  pos : Nat
  cls : List Nat
  ten : Tab Nat
  last : Option (Nat × Nat)
  deriving DecidableEq, Repr

/-- An asynchronous event entry before it is written (R767). -/
structure Event where
  data : Nat
  source : Nat
  code : Nat
  etype : Nat
  deriving DecidableEq, Repr

/-- A function's event ring (R101, R768, R771). -/
structure EvRing where
  set : Bool
  base : Nat
  depth : Nat
  vector : Nat
  tail : Nat
  phase : Bool
  held : List Event
  lostSince : Nat
  deriving DecidableEq, Repr

/-- A result that a function could not deliver while it may not master the bus (R580, R582): read data of a command
with its host address, a completion entry of a queue, or an event entry. -/
inductive HoldItem where
  | data (q tag addr : Nat) (bytes : Bytes) (ro : Bool)
  | cqe (q : Nat) (e : Cqe)
  | event (e : Event)
  deriving DecidableEq, Repr

/-- One MSI-X table entry (R571). -/
structure MsixEntry where
  addr : Nat
  data : Nat
  masked : Bool
  deriving DecidableEq, Repr

/-- A function: its event ring, its held results, whether a function-level reset runs and whether it is in D3hot, its
MSI-X table and pending bits (entries that are masked and never written are not listed), its dedup generation
(R133), and HOLD_OVER of EPX_FUNC_STATE (R581). -/
structure Fn where
  ev : EvRing
  hold : List HoldItem
  flr : Bool
  d3 : Bool
  msix : Tab MsixEntry
  pend : List Nat
  gen : Nat
  holdOver : Bool
  deriving DecidableEq, Repr

/-- One selective IDE stream of an endpoint (R589, R591). -/
structure IdeStream where
  secure : Bool
  key : Bytes
  deriving DecidableEq, Repr

/-- An endpoint: PERST# asserted (D3cold, R595), WAKE# asserted, and its IDE streams by number 0 to 7. -/
structure Endpoint where
  perst : Bool
  wake : Bool
  ide : Tab IdeStream
  deriving DecidableEq, Repr

/-- The ring engine (chapter 02): queue pairs by index, the blocks whose holder is not the PF of R55, the fetch order,
the fetches granted and outstanding with their queues (R814), the functions that take CLASS_A_EXCEEDED events and when
each last had one (R87, R114). -/
structure Rings where
  queues : Tab Queue
  owners : Tab Nat
  order : Nat
  fetches : Tab Nat
  classAEv : List Nat
  exceeded : Tab Nat
  weights : Nat × Nat × Nat
  tenants : Tab Nat
  deriving DecidableEq, Repr

/-- An entry of the Névé index (R134); an entry with VALID 0 is not listed. -/
structure IxEntry where
  tag : Nat
  chunk : Nat
  owner : Nat
  flags : Nat
  hits : Nat
  deriving DecidableEq, Repr

/-- A line of the Drift cache (R143): the index line it holds, its valid sectors, and the entries of those sectors by
their place 0 to 15 in the line. -/
structure DriftLine where
  line : Nat
  valid : List Nat
  ents : Tab IxEntry
  deriving DecidableEq, Repr

/-- A slice's stride detector (R146): its last line requests, newest first, and the lines prefetched ahead. -/
structure Stride where
  lines : List Nat
  ahead : List Nat
  deriving DecidableEq, Repr

/-- A GCM message that runs on a slice's pipeline, and whether it is suspended (R220, R221). -/
structure GcmRun where
  stream : Nat
  cls : Nat
  suspended : Bool
  suspendedOnce : Bool
  deriving DecidableEq, Repr

/-- The Glacier slices (chapter 03): the index entries by line × 16 + place, the Drift cache by set × 16 + way, its
LFSR, the stride detectors, the lend table's copy, each slice's serial lease (next value and values left), the marks
read since start-up (R128), the GCM messages on the pipelines. -/
structure Ingest where
  index : Tab IxEntry
  drift : Tab DriftLine
  lfsr : BitVec 32
  stride : Tab Stride
  lendTable : List Nat
  lendCopied : Bool
  lease : Tab (Nat × Nat)
  marksRead : Bool
  gcm : Tab GcmRun
  deriving DecidableEq, Repr

/-- A KEY_ERASE or a KEY_LOAD that waits for the commands on its slot (R203, R228): the queue and tag that asked, the
commands it waits for by fetch order, how many there were, and the new key of a load. -/
structure KeyErase where
  q : Nat
  tag : Nat
  waits : List Nat
  count : Nat
  load : Option (Nat × Nat × Bytes × Nat)
  deriving DecidableEq, Repr

/-- A key slot (R193 to R213): the key's type, identifier, bytes and owner, its counter (bits [62:0]) and the values
left in its lease, and whether it is exhausted or passed the warning mark. Type 0 is an empty slot. -/
structure KeySlot where
  type : Nat
  keyId : Nat
  key : Bytes
  owner : Nat
  ctr : Nat
  left : Nat
  exhausted : Bool
  warned : Bool
  erase : Option KeyErase
  deriving DecidableEq, Repr

/-- A pending record of a saved encrypt context (R216). -/
structure SaveRec where
  slot : Nat
  counter : Nat
  textLen : Nat
  serial : Nat
  deriving DecidableEq, Repr

/-- The Rime engines' key store (chapter 04). The key slots; the device key as each half holds it; the positions used;
the media half's copy of the link key (KEY_ID and key); pending records; requests served since the DRBG reseeded and
whether a reseed fell due while entropy was not good (R227); the disagreements of the link cipher to be reported (R818). -/
structure Rime where
  slots : Tab KeySlot
  devHost : Option Bytes
  devMedia : Option Bytes
  used : Nat
  linkKey : Option (Nat × Bytes)
  pending : List SaveRec
  requests : Nat
  reseedDue : Bool
  drbg : Nat
  linkFaults : List Nat
  deriving DecidableEq, Repr

end Sys2Proof.Machine
end

