-- ==== Sys2Proof/Machine/LinkState.lean ====
section
/-! DEFINITION. The links' state and the messages that cross them: one end of the Schrund (chapter 05) or of the
Snowbridge (chapter 10), the fault ledger of a half (chapter 16) and the power state of a half (chapter 15). -/

namespace Sys2Proof.Machine

/-- A frame held for replay (R253): its number, the physical lane it went on, its bytes and its replays. -/
structure SentFrame where
  seq : Nat
  lane : Nat
  bytes : Bytes
  replays : Nat
  deriving DecidableEq, Repr

/-- A message frame that waits at the transmit arbiter (R249): whether it goes ahead of every class (R48, R510), its class and
flags, its message number, the function it belongs to (1,024 for none) and its payload. -/
structure WaitFrame where
  ahead : Bool
  fclass : Nat
  flags : Nat
  msgId : Nat
  fn : Nat
  payload : Bytes
  deriving DecidableEq, Repr

/-- The transmitter of one direction: the next frame and message numbers, the next logical lane in rotation, the frames that wait
to be placed, frames held for replay, the physical lanes in service in the order of their logical numbers, the logical numbers of
lanes (a lane without one bears its own number), the warm spares, the spares mapped to a lost logical lane
and not yet in service (R258), whether it has stopped sending (R264), and when a frame of each class that goes ahead was last placed
(R48). -/
structure LinkTx where
  seq : Nat
  msg : Nat
  rot : Nat
  queue : List WaitFrame
  retry : List SentFrame
  lanes : List Nat
  nums : Tab Nat
  spares : List Nat
  mapped : List (Nat × Nat)
  stopped : Bool
  aheadAt : Tab Nat
  deriving DecidableEq, Repr

/-- The receiver of one direction: the next frame number to deliver, frames held out of order, the bytes of messages
partly received by MSG_ID with the flags of their first frame and the numbers of their frames, the complete messages that passed
their checks and whose own commands are still to come, oldest first (R252; none for a sealed one), frames of a sealed message whose tag failed and that must come again (R513), the last 64 check results of each lane (newest first, true
for a failed check), the physical lanes lost, how often each was declared lost, the lanes that hold lock, the spares
being aligned (lost logical lane, spare), the lost lanes being retrained, the width, the time of the last good frame, and
SENT_TB of that frame (R518). -/
structure LinkRx where
  next : Nat
  reorder : List (Nat × Bytes)
  part : Tab (Nat × List Nat × Bytes)
  inbox : List (Option Bytes)
  again : List Nat
  hist : Tab (List Bool)
  lost : List Nat
  losses : Tab Nat
  locked : List Nat
  lanes : List Nat
  aligning : List (Nat × Nat)
  retraining : List Nat
  width : Nat
  lastGood : Nat
  lastSent : Nat
  deriving DecidableEq, Repr

/-- What a management request asks (R20, R204, R776): a command of a queue, or a mailbox operation. -/
inductive Ask where
  | cmd (q tag : Nat)
  | mailbox (op : Nat)
  deriving DecidableEq, Repr

/-- One end of a link. `requests` are the management requests it sent and that are still unanswered (R266): their
MSG_ID and what they ask. -/
structure Link where
  tx : LinkTx
  rx : LinkRx
  requests : List (Nat × Ask)
  deriving DecidableEq, Repr

/-- A record of the fault ledger (R760). -/
structure LedgerRec where
  source : Nat
  code : Nat
  count : Nat
  first : Nat
  last : Nat
  reporter : Nat
  epoch : Nat
  twin : Bool
  summary : Bool
  injected : Bool
  maxSev : Nat
  deriving DecidableEq, Repr

/-- When a source last posted an event, at which severity, and the reports gathered since (R770). -/
structure SrcEvent where
  last : Nat
  sev : Nat
  gathered : Nat
  summary : Bool
  twin : Bool
  code : Nat
  deriving DecidableEq, Repr

/-- A last-gasp record (R766). -/
structure Gasp where
  half : Half
  seq : Nat
  time : Nat
  status : Nat
  summary : Nat
  ledger : Nat
  crp : Nat
  recs : List LedgerRec
  deriving DecidableEq, Repr

/-- A half's fault ledger (R759 to R770): its source records and summary records, the events of each source, the
interval of 1 ms counted in, how many sources without a record reported in it and those of them that got none, the last-gasp sequence number and
the last-gasp records kept (the media half's ring of 256, newest last; the host half's one). -/
structure Ledger where
  recs : List LedgerRec
  sums : List LedgerRec
  ev : Tab SrcEvent
  interval : Nat
  fresh : Nat
  seen : List Nat
  gaspSeq : Nat
  gasps : List Gasp
  deriving DecidableEq, Repr

/-- The instruction in a half's boundary-scan register (R796). -/
inductive TapInstr where
  | bypass | idcode | samplePreload | extest
  deriving DecidableEq, Repr

/-- The management and test ports of a half: SMBus mode of the I3C port (R805), and the boundary-scan instruction (R796). -/
structure Ports where
  smbus : Bool
  tap : TapInstr
  deriving DecidableEq, Repr

/-- A half's power and reset state (R713 to R739): VAON in range, PWRGD asserted, the half held in reset, a cold reset
that waits for a dump's end (R731), a thermal trip and whether the pin was pulsed or the rails cycled since (R739), a start-up that stopped or
a datapath that R736 stopped, and cores that the Nunatak halted or that are wedged (R736, R774); the half's management and test ports. -/
structure HalfPower where
  vaon : Bool
  pwrgd : Bool
  held : Bool
  coldPending : Bool
  tripped : Bool
  tripPulsed : Bool
  stopped : Bool
  halted : Bool
  ports : Ports
  deriving DecidableEq, Repr

/-- The fuses, equal on both halves (R717, R718): lifecycle state, SVN floor, the four key-hash positions (SHA-384 of
the public key; empty for a position not programmed) with their revocation bits, and the serial number. -/
structure Fuses where
  lifecycle : Nat
  svn : Nat
  hashes : List Bytes
  revoked : Nat
  serial : Nat
  deriving DecidableEq, Repr

/-- What a running image brings (R720 to R722): versions, the bank, the option ROM's bytes and the OCV table. -/
structure Image where
  version : Nat
  level : Nat
  minPeer : Nat
  bank : Nat
  svid : Nat
  ssid : Nat
  bar2 : List Nat
  rom : Bytes
  ocv : List Nat
  deriving DecidableEq, Repr

end Sys2Proof.Machine
end

