-- ==== Sys2Proof/Machine/MediaState.lean ====
section
/-! DEFINITION. The media half's state as plain data: commands under way and Firn records (chapter 06), stripes, pools
and the extent map (chapter 07), Regelation and the maintenance ledger (chapter 08), namespaces and Calving streams
(chapter 09). -/

namespace Sys2Proof.Machine

/-- An entry of a MAP_DELTA section (R370, R371, R480). -/
inductive MapDelta where
  | bind (nsid slba count first : Nat)
  | unbind (nsid slba count : Nat)
  | locate (obj ordinal form strip offset len stripe seq : Nat)
  | unlocate (obj ordinal form strip offset len stripe seq : Nat)
  | diverge (stripe cause synd agree seq : Nat)
  | clear (stripe seq : Nat)
  | snapMark (nsid snap label : Nat)
  | snapDrop (nsid snap : Nat)
  | cloneLink (clone snap parent : Nat)
  | prune (nsid lba birth : Nat)
  | nsSet (nsid size pack attrs : Nat)
  | nsRemove (nsid : Nat)
  | nsAttach (nsid fn : Nat) (attach owner : Bool) (keyId : Nat)
  | applyMark (nsid seq stream resume : Nat)
  | applyLabels (nsid base target : Nat)
  | applyEnd (nsid : Nat)
  deriving DecidableEq, Repr

/-- A chunk stored new, as a record carries it (R290): chunk ID (block ID for a stream container), container ordinal,
form, fingerprint (empty for none) and stored bytes. -/
structure ChunkObj where
  id : Nat
  ordinal : Nat
  form : Nat
  fp : Bytes
  bytes : Bytes
  deriving DecidableEq, Repr

/-- A command that a record carries (R290 COMMANDS). -/
structure CmdRef where
  q : Nat
  tag : Nat
  slba : Nat
  nlb : Nat
  firstOrd : Nat
  deriving DecidableEq, Repr

/-- The stripe descriptor of an INTENT record (R367) with the records it destages. `strips` gives each data strip's
NSID, function, kind and chunk ID as its trailer carries them. -/
structure StripePlan where
  stripe : Nat
  replaces : Nat
  k : Nat
  m : Nat
  big : Bool
  members : List Nat
  strips : List (Nat × Nat × Nat × Nat)
  recs : List Nat
  deriving DecidableEq, Repr

/-- A Firn record (R288 to R290) with its local standing. The header fields and sections are those of the spec. The
standing: whether its copy here is written and acknowledged (R299), the partner's acknowledgement (the HCHECK it
carried), whether it was applied, committed (met its completion condition), completed under dual rules (R37), void
(R328), divergent (R301) or failed; the stripes that carry its objects and deltas and those of them done; when it was
admitted; whether its commands have been completed; the MSG_ID of the first RECORD message it went in or
came in; the function of its freeze group (1,024 where its bytes do not say); how many of its stored objects have their place in a
stripe; and whether its other sections have one. `took` tells that this module took its references with the assignment (R28), `place` the
heap pages that it takes (R283), `copy` that it came from the other twin and is acknowledged to it (R299), `gen` the dedup generation of its
chunks (R133), and `counted` that its wait for space was noted (R286). -/
structure FRec where
  rtype : Nat
  pool : Nat
  home : Nat
  receiver : Nat
  member : Bool
  cls : Nat
  cmds : List CmdRef
  seq : Nat
  group : Nat
  func : Nat
  nsid : Nat
  slba : Nat
  nlb : Nat
  aux : Nat
  time : Nat
  chain : Bytes
  chunks : List ChunkObj
  refs : List (Nat × Nat)
  mapDelta : List MapDelta
  refDelta : List (Nat × Int)
  members : List (Nat × Nat)
  effects : List (Nat × Nat)
  marks : List (Nat × Nat × Nat × Nat)
  plan : Option StripePlan
  written : Bool
  ack : Option Nat
  applied : Bool
  committed : Bool
  dualDone : Bool
  void : Bool
  divergent : Bool
  stripes : List Nat
  doneStripes : List Nat
  since : Nat
  posted : Bool
  origin : Half
  order : Nat
  msgId : Nat
  gfn : Nat
  placed : Nat
  sect : Bool
  took : Bool
  place : List Nat
  copy : Bool
  gen : Nat
  counted : Bool
  deriving DecidableEq, Repr

/-- A divergence-list entry (R301, R750 page 04h). -/
structure DivRec where
  pool : Nat
  seq : Nat
  nsid : Nat
  nlb : Nat
  slba : Nat
  covered : List Nat
  deriving DecidableEq, Repr

/-- The states of a freeze group (R321). -/
inductive GroupState where
  | opened | sealing | committing | committed | discarded
  deriving DecidableEq, Repr

/-- A member of a freeze group: its queue, tag and fetch order, whether it is staged or failed, and its record's pool
and COMMIT_SEQ once staged. -/
structure Member where
  q : Nat
  tag : Nat
  order : Nat
  staged : Bool
  failed : Bool
  pool : Nat
  seq : Nat
  deriving DecidableEq, Repr

/-- A freeze group (R313 to R328). -/
structure Group where
  fn : Nat
  tag : Nat
  q : Nat
  nsid : Nat
  pool : Nat
  state : GroupState
  members : List Member
  count : Nat
  payload : Nat
  failed : Bool
  start : Nat
  sealBy : Option (Nat × Nat × Nat)
  effects : List (Nat × Nat)
  status : Nat
  deriving DecidableEq, Repr

/-- The tombstone of a discarded group (R321): function, tag, status and time. -/
structure Tomb where
  fn : Nat
  tag : Nat
  status : Nat
  time : Nat
  deriving DecidableEq, Repr

/-- A Firn dump in its slot (R333): header fields, the records in slot order, the divergence list, and its seal. -/
structure Dump where
  reason : Nat
  region : Nat
  serial : Nat
  time : Nat
  npages : Nat
  poolSeq : List Nat
  twin : Nat
  mode : Nat
  recs : List (Nat × FRec)
  divs : List DivRec
  sealed : Bool
  consumed : Bool
  deriving DecidableEq, Repr

/-- A lease asked for (R127, R210): kind 1 a chunk-serial lease of a slice, 2 a counter lease of a key slot; the function and
KEY_ID of the slot's key; the mark that must be durable in every pool first, and the mark above which the lease begins. -/
structure LeaseAsk where
  kind : Nat
  target : Nat
  fn : Nat
  keyId : Nat
  mark : Nat
  base : Nat
  deriving DecidableEq, Repr

/-- The Firn cache controller (chapter 06). `recs` holds admitted records by header slot; `waiting` those that wait for
space (R286), oldest first. `next` is the next COMMIT_SEQ of each pool, `chainOf` the last CHAIN, `appliedTo` the
highest COMMIT_SEQ applied, `held` the highest held. `locks` are the ranges a COMPARE_AND_WRITE holds (R85).
`serials` holds the highest chunk-serial mark of each slice (by twin × 16 + slice), `nonces` the counter marks by function × 2^32 + KEY_ID, `asks` the
leases whose marks are not yet durable, `nextLocal` numbers the records this module forms, `parts` holds the segments of
a record that is still arriving, by pool. `base` is the COMMIT_SEQ of each pool up to which nothing more is awaited from the other twin, and
`gone` lists (pool, COMMIT_SEQ) of records that left the region before they were applied (R296). `classCStopped` and `destageUrgent` tell that free pages fell below the thresholds of R287. -/
structure Firn where
  recs : Tab FRec
  waiting : List FRec
  next : Tab Nat
  chainOf : Tab Bytes
  appliedTo : Tab Nat
  held : Tab Nat
  groups : List Group
  tombs : List Tomb
  divs : List DivRec
  locks : List (Nat × Nat × Nat × Nat × Nat)
  dumps : Tab Dump
  dumping : Option Nat
  dumpedAt : Nat
  classCStopped : Bool
  destageUrgent : Bool
  serials : Tab Nat
  nonces : Tab Nat
  asks : List LeaseAsk
  nextLocal : Nat
  restoring : List Nat
  parts : Tab Bytes
  base : Tab Nat
  gone : List (Nat × Nat)
  deriving DecidableEq, Repr

/-- An item of a command's context on the media half: a new chunk announced, with its stored bytes once they arrived, or
a reference with the home twin's answer. A chunk of a stream block names the block and how many chunks it has. -/
structure MItem where
  ord : Nat
  id : Nat
  isRef : Bool
  form : Nat
  block : Nat
  count : Nat
  len : Nat
  fp : Bytes
  bytes : Option Bytes
  settled : Bool
  deriving DecidableEq, Repr

/-- What a command asks of the media half (R251). -/
inductive MKind where
  | write | read | zeroes | dealloc | compare | copy | compareWrite | groupOp (op : Nat) | varve (op : Nat) | verify
  deriving DecidableEq, Repr

/-- A command's context on the media half, opened by its descriptor (R251, R266). `order` is its arrival order among the
descriptors, by which R104 is kept; `reads` are the blocks of a read as they were resolved and `need` the objects it still waits for; `refs` and `news` count the chunks taken by reference
and stored new, and `result` is RESULT of a command whose record does not give it. -/
structure MCtx where
  q : Nat
  tag : Nat
  kind : MKind
  nsid : Nat
  snap : Nat
  slba : Nat
  nlb : Nat
  flags : Nat
  opts : Nat
  fn : Nat
  nchunk : Nat
  src : Nat × Nat × Nat
  group : Nat
  items : List MItem
  order : Nat
  took : Bool
  reads : List MItem
  need : List Nat
  served : List Nat
  recon : Nat
  warn : Nat
  status : Nat
  formed : Bool
  label : Nat
  refs : Nat
  news : Nat
  result : Nat
  deriving DecidableEq, Repr

/-- A block-map entry (R461), with the commit sequence under which it was made, which decides between records applied out of order
(R330). -/
structure BmEntry where
  birth : Nat
  unmapped : Bool
  chunk : Nat
  seq : Nat
  deriving DecidableEq, Repr

/-- A chunk-table entry (R368). -/
structure ChunkEnt where
  refs : Nat
  nsid : Nat
  owner : Nat
  size16 : Bool
  inBlock : Bool
  form : Nat
  ncont : Nat
  block : Nat
  fp : Bytes
  pool : Nat
  deriving DecidableEq, Repr

/-- An object-table entry (R369). -/
structure ObjEnt where
  form : Nat
  strip : Nat
  offset : Nat
  len : Nat
  stripe : Nat
  seq : Nat
  deriving DecidableEq, Repr

/-- A live stripe: its sequence, geometry, the member of each strip ordinal, each data strip's trailer identity, the
ordinals whose strip is not present at its place (R399, R407), whether it holds map strips (R412), whether it is still being written,
the stripe it replaces (0 for none, R367), and whether it is freed but for reads under way (R476). -/
structure Stripe where
  seq : Nat
  k : Nat
  m : Nat
  members : List Nat
  strips : List (Nat × Nat × Nat × Nat)
  missing : List Nat
  hasMap : Bool
  reserved : Bool
  replaces : Nat
  freed : Bool
  deriving DecidableEq, Repr

/-- A divergence-log entry (R387). -/
structure DivStripe where
  stripe : Nat
  seq : Nat
  time : Nat
  cause : Nat
  synd : Nat
  agree : Bool
  deriving DecidableEq, Repr

/-- The extent map (R368 to R374): the block map by namespace × 2^41 + block, the chunk table, the object table by
object × 65,536 + ordinal, the stripes and the divergence log; `freed` are objects to be removed by UNLOCATE in the
next RELEASE record of a pool (R372); `found` are stripes that this twin found inconsistent and whose DIVERGE delta it has not yet
applied (R383). -/
structure XMap where
  blocks : Tab (List BmEntry)
  chunks : Tab ChunkEnt
  objs : Tab ObjEnt
  stripes : Tab Stripe
  divLog : List DivStripe
  freed : List (Nat × Nat × Nat)
  found : List Nat
  deriving DecidableEq, Repr

/-- An entry of the map log on the drives (R374): a record with the sequence under which its deltas took effect, and whether the drives hold
them; until then only the Firn cache does. -/
structure MapEntry where
  seq : Nat
  record : FRec
  onDrives : Bool
  deriving DecidableEq, Repr

/-- A destage under way (R303, R307): the plan, the INTENT record's COMMIT_SEQ, the strips' data, the ordinals written,
the failures of each ordinal, the attempts, whether syndromes are computed, the objects it places, and what it is for:
0 destage, 1 repair, 2 compaction, 3 resolve; `ride` are the records whose sections are in its map-log strips, of which there are
`maps`; `abandoned` that it waits for a new placement; `starts` how many objects of each of its records had their place before. -/
structure Destage where
  pool : Nat
  plan : StripePlan
  intent : Nat
  strips : List Bytes
  places : List MapDelta
  synd : Bool
  written : List Nat
  fails : Tab Nat
  attempts : Nat
  release : Nat
  purpose : Nat
  asker : Nat × Nat
  replay : Bool
  ride : List Nat
  maps : Nat
  abandoned : Bool
  starts : List (Nat × Nat)
  deriving DecidableEq, Repr

/-- The purpose of reading a stripe: a command's object (with whether it is to come from reconstructed strips, R179), scrub, rebuild, a
resolve, a compaction, a strip copied to or from a spare position (R445, R446), the replay of a rewrite as the stripe named (R305). -/
inductive ReadFor where
  | cmd (q tag : Nat) (again : Bool)
  | scrub
  | rebuild
  | resolve (action q tag : Nat)
  | compact
  | move (member ord : Nat)
  | replay (stripe : Nat)
  deriving DecidableEq, Repr

/-- A stripe read under way (R375 to R383): its number, the object it is for with the object's entry and the tag its strip must carry, the
strips that arrived, the erasure set with each strip's cause in the order of R379, the strips still awaited, whether every strip that can be
read was asked for, and whether it waits for an engine. -/
structure StripeRead where
  id : Nat
  pool : Nat
  stripe : Nat
  purpose : ReadFor
  obj : Nat × Nat
  ent : ObjEnt
  tagNs : Nat
  tagFn : Nat
  got : Tab Bytes
  erased : Tab Nat
  wait : List Nat
  whole : Bool
  job : Bool
  cls : Nat
  deriving DecidableEq, Repr

/-- A pool member (R397 to R404). The lists hold the times of the events that R400 counts; `checked` are the strips (stripe and ordinal)
written to a FILLING drive or found good on it, `tried` those that were read on a drive bound with RECOVER (R445). -/
structure PoolMember where
  state : Nat
  cause : Nat
  former : Nat
  drive : Option Nat
  timeouts : List Nat
  readErrs : List Nat
  identErrs : List Nat
  abandons : List Nat
  pathLost : Bool
  absentSince : Option Nat
  recover : Bool
  checked : List (Nat × Nat)
  tried : List (Nat × Nat)
  deriving DecidableEq, Repr

/-- A relocation entry (R365, R446): its member and, during an evacuation, its copy mark. -/
structure Reloc where
  member : Nat
  mark : Option Nat
  deriving DecidableEq, Repr

/-- A lost-stripe log entry (R412). -/
structure LostStripe where
  stripe : Nat
  seq : Nat
  time : Nat
  state : Nat
  cause : Nat
  nerased : Nat
  nobj : Nat
  deriving DecidableEq, Repr

/-- The scrub of a pool (R419 to R423): the place of the pass, whether it belongs to a SCRUB activity, when it started,
the routine mark to resume from, the stripes of the divergence log still to examine, whether a pass has begun, and LATE and PASSES of
MNT_SCRUB_PROG. -/
structure Scrub where
  row : Nat
  slot : Nat
  onDemand : Bool
  activity : Nat
  start : Nat
  routine : Nat × Nat
  redo : List Nat
  begun : Bool
  late : Bool
  passes : Nat
  deriving DecidableEq, Repr

/-- A pool (R345 to R366) with its Regelation sequencer. `rows` is set by its smallest member (R361); `home` is the twin
that owns it (0 Twin A, 1 Twin B, R25); `level`, `row` and `slot` are the sequencer's place and `mark` the last mark
recorded (R410). -/
structure Pool where
  k : Nat
  m : Nat
  d : Nat
  spare : Nat
  big : Bool
  seed : Nat
  rows : Nat
  members : Tab PoolMember
  relocs : List Reloc
  home : Nat
  online : Bool
  offline : Bool
  offlineRec : Bool
  level : Nat
  row : Nat
  slot : Nat
  mark : Nat × Nat
  markAt : Nat
  sinceMark : Nat
  jobs : List Nat
  lost : List LostStripe
  repair : List Nat
  scrub : Scrub
  warned : Bool
  full : Bool
  winSecs : Nat
  deriving DecidableEq, Repr

/-- A maintenance activity (R428 to R436). -/
structure Activity where
  id : Nat
  kind : Nat
  pool : Nat
  member : Nat
  twin : Nat
  limit : Nat
  admitted : Nat
  active : Bool
  fn : Nat
  deriving DecidableEq, Repr

/-- A DRIVE_SERVICE operation that waits for its end (R441 to R444): the operation, pool, member, drive firmware slot,
the queue and tag that asked, and when it began. -/
structure ServiceOp where
  op : Nat
  pool : Nat
  member : Nat
  fwSlot : Nat
  q : Nat
  tag : Nat
  start : Nat
  step : Nat
  deriving DecidableEq, Repr

/-- Regelation and maintenance admission (chapter 08): the ledger's activities, the next serial, service operations. -/
structure Maint where
  acts : List Activity
  serial : Nat
  ops : List ServiceOp
  deriving DecidableEq, Repr

/-- A snapshot (R465 to R469). -/
structure Snap where
  id : Nat
  epoch : Nat
  label : Nat
  time : Nat
  hidden : Bool
  size : Nat
  deriving DecidableEq, Repr

/-- A namespace (R455 to R465, R489). A deleted namespace stays until its reclaim ends (R457). `gone` keeps the epochs of snapshots no longer
visible, for the reads fetched before (R471, R475). -/
structure Ns where
  pool : Nat
  big : Bool
  flags : Nat
  pack : Nat
  size : Nat
  epoch : Nat
  nextSnap : Nat
  snaps : List Snap
  attached : List Nat
  owner : Option Nat
  ownerKey : Nat
  parent : Option (Nat × Nat)
  deleted : Bool
  applyLabels : Option (Nat × Nat)
  applyMark : Nat × Nat × Nat
  gone : List (Nat × Nat)
  deriving DecidableEq, Repr

/-- The cipher state of a message in progress that CALVE_SAVE writes out (R215). -/
structure GcmCtx where
  counter : Nat
  aadLen : Nat
  textLen : Nat
  ghash : Nat
  deriving DecidableEq, Repr

/-- A Calving stream (R481 to R493). `seq` is the next sequence number to write or expected; `pos` the next block to
cover; `tail` and `head` the descriptor ring's accepted tail and next descriptor; `detached` a CALVE_SAVE in force;
`ended` the end state of R491 once the stream has stopped. -/
structure Stream where
  fn : Nat
  send : Bool
  q : Nat
  cls : Nat
  nsid : Nat
  slot : Nat
  vector : Nat
  base : Nat
  target : Nat
  first : Nat
  seq : Nat
  pos : Nat
  began : Bool
  coded : Bool
  ringBase : Nat
  depth : Nat
  qpair : Nat
  tail : Nat
  head : Nat
  detached : Bool
  ctx : Option GcmCtx
  ended : Option Nat
  size : Nat
  covered : Nat
  applies : List (Nat × Nat × Nat)
  failFrom : Option Nat
  closing : Option (Nat × Nat)
  deriving DecidableEq, Repr

end Sys2Proof.Machine
end

