-- ==== Sys2Proof/Machine/OutState.lean ====
section
/-! DEFINITION. What leaves the block: everything the module sends to a host, to the other half, to its twin, to a drive,
to a pin or to a management port, in the order it was sent. -/

namespace Sys2Proof.Machine

/-- The message kinds of the Schrund (R251) and of the Snowbridge (R508), by name. -/
inductive Kind where
  | writeEnvelope | newChunk | referenceChunk | readDesc | otherIo | groupOp | varveOp
  | writePayload | readPayload | completion | referenceRefused | mgmtRequest | mgmtReply | timeMark | faultNotice
  | record | ack | refuse | echo | report | coord | pair | recon | swap
  | peerFatal | nak | laneDown | laneUp | width
  deriving DecidableEq, Repr

/-- One thing the module sends. -/
inductive Out where
  /-- A memory write request of a function (R80, R576): address, data, Relaxed Ordering. -/
  | hostWrite (fn addr : Nat) (data : Bytes) (ro : Bool)
  /-- A posted memory write into a lend line: class C, whatever the class of the command (R154). -/
  | lendWrite (fn addr : Nat) (data : Bytes)
  /-- A memory read request of a function with its purpose (R578): address, length, Relaxed Ordering (R575). -/
  | hostRead (fn addr len : Nat) (why : Purpose) (ro : Bool)
  /-- An interrupt message of a function's vector (R572). -/
  | msi (fn vector addr data : Nat)
  /-- A PME message (R595). -/
  | pme (fn : Nat)
  /-- An error message that AER reports for a function (R579, R591): the error's name by the standard's bit. -/
  | aer (fn bit : Nat)
  /-- A message or link-control frame a half sends over the Schrund (R250, R251, R256). -/
  | sch (h : Half) (k : Kind) (m : Msg)
  /-- A message or link-control frame sent over the Snowbridge (R506, R508). -/
  | snow (k : Kind) (m : Msg)
  /-- A frame placed on a physical lane (R246, R505). -/
  | frame (l : LinkEnd) (lane : Nat) (bytes : Bytes)
  /-- An alignment sequence on a spare lane (R258). -/
  | align (l : LinkEnd) (lane : Nat)
  /-- An NVMe command sent to a drive (R607): command number, drive, admin queue, opcode, logical block, data. -/
  | nvme (cid drive : Nat) (admin : Bool) (op lba : Nat) (data : Bytes)
  /-- Link and presence reports enabled on a downstream port: its root port, its sub-link and the ports below (R604). -/
  | watchPort (port : Nat) (path : List Nat)
  /-- A controller reset (R627) or a root port halted or retrained (R527, R633). -/
  | ctrlReset (drive : Nat)
  | portHalt
  | retrain (port : Nat)
  /-- A sideband state word (R503). -/
  | sideband (word : Nat)
  /-- A reply to a register read, a mailbox or an I3C request (R778). -/
  | reply (p : Path) (status : Nat) (data : Bytes)
  /-- A level driven on a pin: WAKE#, HLD_EN, HLD_CHG_EN, HLD_LEARN, DRV_PERST# (R595, R684, R792). -/
  | pin (name : String) (level : Bool)
  deriving DecidableEq, Repr

end Sys2Proof.Machine
end

