-- ==== Sys2Proof/Machine/TwinState.lean ====
section
/-! DEFINITION. What a module knows of its pair (chapter 10) as plain data: the partner as its ECHO messages show it,
the witness blocks, a split, a swap, a firmware activation and the pairing. -/

namespace Sys2Proof.Machine

/-- A witness designation (R618, R619): the drive's NGUID (0 for none), whether it counts as designated, and the block
kept in memory. -/
structure Witness where
  nguid : Nat
  good : Bool
  block : WBlock
  deriving DecidableEq, Repr

/-- A split under way (R533): when it began, the witnesses won and lost, and the attempts in flight. -/
structure Race where
  start : Nat
  won : List Nat
  lost : List Nat
  flying : List Nat
  deriving DecidableEq, Repr

/-- A role swap under way (R538 to R540): the pools, the twin they go to, the command that asked (none for a swap of
R543 or of the partner), whether the hold has begun, when it started, and the pools moved. -/
structure Swap where
  pools : Nat
  dest : Nat
  asker : Option (Nat × Nat)
  hold : Bool
  start : Nat
  moved : Nat
  deriving DecidableEq, Repr

/-- A firmware activation (R543 to R545): the FW_COMMIT's queue and tag, the step reached, the time of step 2, whether
R544 applies, the bank that ran before, whether the halves restarted, and its activity. -/
structure Activation where
  q : Nat
  tag : Nat
  step : Nat
  at2 : Nat
  solo : Bool
  oldBank : Nat
  activity : Nat
  deriving DecidableEq, Repr

/-- What the partner has shown (R517, R520 to R523): its serial number, PAIR_ID, pool geometries, REGION_GIB, whether it
asks for the link cipher and its link key's KEY_ID, the HEALTH byte and chain digests of its last ECHO and when that
arrived, whether it is mirror-only, and the full dumps that its gauge reports. -/
structure Partner where
  serial : Nat
  pairId : Nat
  blank : Bool
  region : Nat
  gcm : Bool
  linkKey : Option Nat
  geoms : Tab (Nat × Nat)
  health : Nat
  echoAt : Option Nat
  chains : Tab (Nat × Bytes)
  mirrorOnly : Bool
  dumps : Nat
  deriving DecidableEq, Repr

/-- A message that waits until the link cipher holds a counter value for it (R210, R512): function, kind, class and the message. -/
structure SealWait where
  fn : Nat
  kind : Kind
  cls : Nat
  msg : Msg
  deriving DecidableEq, Repr

/-- The twin's standing (chapter 10). `declared` is the declaration of the partner's failure with its cause and time;
`selfFailed` that this module takes itself as failed, `bySplit` when it lost a split (R535); `sbs` the last valid word
of each cable's sideband with its time; `takeover` when TAKEOVER was last seen; `breaks` the pools with a chain break;
`chains` the last 4,096 applied CHAIN values of each pool, newest first; `offs` the offset samples of the running 1 ms;
`selfCheck` when a self-check began, `selfDone` that it ended, `cold` that the media half came from a cold reset and has not paired since; `reconcile` the step of R536; `unacked` are records of a resync that still need
the partner's copy; `tagFails` the times of tag failures; `laneLosses` the times of each lane's losses; `preempt` the
drives whose reservation is still to be preempted; `mode` the durability mode last announced; `asked` the commands that wait for the
other twin's answer; `pins` the open Calving streams of the other twin by ID: namespace, base, target and the end of the blocks they cover; `sealed`
the messages that wait for the link cipher, oldest first; `readsTold` the snapshots no longer visible, each with its namespace, whose reads the other
twin told it has served, `readsSaid` those for which this module told it (R475);
`sbWords` the state codes received on either sideband in the last 4 µs with their times (R517). -/
structure Twin where
  partner : Partner
  declared : Option (Nat × Nat)
  selfFailed : Bool
  bySplit : Bool
  mirrorOnly : Bool
  sbs : Tab (Nat × Nat)
  takeover : Option Nat
  breaks : List Nat
  selfCheck : Option Nat
  selfOk : Bool
  selfDone : Bool
  cold : Bool
  chains : Tab (List (Nat × Bytes))
  offs : List Int
  released : Bool
  peerReleased : Bool
  reconcile : Nat
  unacked : List (Nat × Nat)
  witness : List Witness
  race : Option Race
  swap : Option Swap
  act : Option Activation
  tagFails : List Nat
  laneLosses : Tab (List Nat)
  preempt : List Nat
  mode : Nat
  window : Nat
  asked : List (Nat × Nat)
  pins : Tab (Nat × Nat × Nat × Nat)
  sealed : List SealWait
  readsTold : List (Nat × Nat)
  readsSaid : List (Nat × Nat)
  sbWords : List (Nat × Nat)
  deriving DecidableEq, Repr

end Sys2Proof.Machine
end

