-- ==== Sys2Proof/Machine/UnitState.lean ====
section
/-! DEFINITION. Floe (chapter 13), the holdup gauge (chapter 14), firmware staging (chapter 10) and the thermal
sensors (chapter 15) as plain data. -/

namespace Sys2Proof.Machine

/-- What a Floe channel has outstanding besides data bursts (R647, R648, R668). -/
inductive FloeReq where
  | desc | fetch | data | response | moved | dstat
  deriving DecidableEq, Repr

/-- A Floe channel beyond its registers (R643 to R676): the descriptor's PROG, DSTAT and retries, the instruction in
progress, whether it has begun, its bursts granted and not yet returned (address and bytes), the holding register and
later bytes that could not be written, the bytes not yet granted, the request it needs next and whether that is issued, the request that failed and the attempts left, when a timed
WAIT began, and whether a write of the program still lacks its response. -/
structure Chan where
  prog : Nat
  dstat : Nat
  retries : Nat
  instr : Bytes
  begun : Bool
  bursts : List (Nat × Nat)
  held : Bytes
  unread : Nat
  await : Option FloeReq
  issued : Bool
  failed : Option FloeReq
  left : Nat
  since : Nat
  unresponded : Bool
  toHost : Bool
  later : Bytes
  deriving DecidableEq, Repr

/-- Floe of both halves: channels by half × 128 + number, the channel granted last on each half, the pending assertions
of the lines that internal units raise (half × 64 + line). -/
structure Floe where
  chans : Tab Chan
  last : Tab Nat
  lines : Tab Nat
  regWrites : List (Half × Nat × Bytes)
  deriving DecidableEq, Repr

/-- A rest point (R691, R692): its state of charge in parts of 10^6, the gauge's running time in ms when it was taken, and the charge counted
up to it. -/
structure RestPoint where
  soc : Nat
  time : Nat
  mark : Int
  deriving DecidableEq, Repr

/-- The holdup gauge beyond its registers (chapter 14). `fine` is the part of Q_REM below 1 µAh in units of 0.1 mA × ms;
`counted` the charge since the last break (a gap, a dump or a disconnection) in the same unit; `hist` the last windows (current in 0.1 mA, voltage in
mV), newest first; `steps` the current steps that wait for their second mean; `points` the rest points of the last 72 h, newest first; `learn` the phase
of a learn cycle (0 none, 1 waits for point A, 2 bleed, 3 waits for point B); `faults` the not-ready
faults in force; `res` Q_RES in steps of Q_FULL / 200 where it exists; `zeroing` an offset zeroing that the next window
closes; `chgOff` that charging is off until CONNECT;
`eeprom` the 128 slots; then the lifetime fields of the record (R705). -/
structure Gauge where
  fine : Nat
  counted : Int
  hist : List (Int × Nat)
  steps : List (Nat × Int × Nat)
  lastI : Int
  points : List RestPoint
  learn : Nat
  lastLearn : Nat
  faults : List Nat
  res : Option Nat
  zeroing : Bool
  chgOff : Bool
  full : Bool
  enable : Bool
  charge : Bool
  bleed : Bool
  absent : Bool
  gap : Bool
  eol : Bool
  outside : Bool
  eeprom : Tab Bytes
  gseq : Nat
  thru : Nat
  learns : Nat
  dumps : Nat
  tMin : Int
  tMax : Int
  minOut : Nat
  ageMs : Nat
  lastFault : Nat
  held : Bool
  deriving DecidableEq, Repr

/-- Firmware staging (R541): the pages of 4 KiB staged since the last FIRST, by number, how many bytes were staged, and that the staged
image is to go into the inactive bank now. -/
structure Staging where
  segs : Tab Bytes
  bytes : Nat
  store : Bool
  deriving DecidableEq, Repr

/-- The thermal state of a half (R737 to R739, R744): the throttle level, the HBM stacks whose refresh is doubled, the samples of 100 µs taken
at level 1 or above since the last whole millisecond was counted, the last TJ and the highest since cold reset in 0.1 °C. -/
structure Thermal where
  level : Nat
  doubled : List Nat
  samples : Nat
  tj : Option Int
  peak : Option Int
  deriving DecidableEq, Repr

end Sys2Proof.Machine
end

