-- ==== Sys2Proof/Machine/State.lean ====
section
/-! DEFINITION. The state of the block: one module of the pair with both halves, the queue of commands that wait, and
the machine right after reset. Each group of fields stands in its own file (HostState to OutState). -/

namespace Sys2Proof.Machine

/-- Reasons for which a step stops with a fault. No meaning raises one: every command of the table has an effect that the
specification gives, so the type has no value a step could answer with beyond this one, kept for a message the block
could not hold. Safe: it stops. -/
inductive Fault where
  /-- Raised by no meaning. Safe. -/
  | none
  deriving DecidableEq, Repr

/-- Reasons for which a step refuses a command. Raised by an arm of `exec` whose command has no meaning yet. Safe: it
stops. -/
inductive Refusal where
  /-- The command has no meaning yet; the string is its mnemonic. Safe. -/
  | notModelled (mnemonic : String)
  deriving DecidableEq, Repr

/-- The media half's reference (R272 to R274): whether the forwarded clock is lost on both lanes, the MARK_SEQ of the next
marker, the media half's own counts at the markers whose time mark is still to come, by MARK_SEQ, when it last added or withheld a tick, and whether its next tick is
withheld. -/
structure Clocks where
  lost : Bool
  markSeq : Nat
  marks : Tab Nat
  steered : Nat
  withhold : Bool
  deriving DecidableEq, Repr

/-- Everything in the module but its boot flash and its fuses. `tbHost` and `tbMedia` are the timebases of the halves in
ticks of 10 ns (R22). `regs` holds every register field that is not at its reset value, by `Field.key`. `out` is what the
module has sent, oldest first. `free` counts the free values drawn (the model's own field). `sch` holds the two ends of
the Schrund (0 the host half, 1 the media half), `snow` this end of the Snowbridge; `ledger`, `power` and `thermal` the
halves (0 host, 1 media). `straps` are SIDE_SEL and POOL_SLOT as a half sampled them (half × 2, half × 2 + 1), `serial`
the serial number as the fuse load brought it, `mbx` the mailbox command that runs and its endpoint, `schLock` that the Schrund may
retrain only after a cold reset of the media half (R271), `moraine` the stripes whose jobs hold a Moraine engine (R389), and `mapLog` the map pages and the map log of the pools (R374), one entry for
each record applied, in order. -/
structure Dev where
  tbHost : Nat
  tbMedia : Nat
  clocks : Clocks
  regs : Tab Nat
  out : List Out
  free : Nat
  rings : Rings
  arbs : Tab Arb
  fns : Tab Fn
  eps : Tab Endpoint
  ingest : Ingest
  rime : Rime
  sch : Tab Link
  snow : Link
  firn : Firn
  ctxs : List MCtx
  xmap : XMap
  destages : List Destage
  reads : List StripeRead
  pools : Tab Pool
  maint : Maint
  nss : Tab Ns
  streams : Tab Stream
  twin : Twin
  drives : Drives
  floe : Floe
  gauge : Gauge
  staging : Staging
  ledger : Tab Ledger
  power : Tab HalfPower
  thermal : Tab Thermal
  image : Image
  straps : Tab Nat
  serial : Nat
  mbx : Option (Nat × Nat)
  schLock : Bool
  moraine : List Nat
  mapLog : List MapEntry
  deriving DecidableEq, Repr

/-- The state of the block: the commands that wait, first in, first out; the boot flash, the bytes that are not erased, by
address (R719); the fuses (R717); and everything else. -/
structure State where
  pending : List Instr
  flash : List Host.Cell
  fuses : Fuses
  dev : Dev
  deriving DecidableEq, Repr

/-- An event ring before EVENT_RING_SET (R771). -/
def EvRing.fresh : EvRing := ⟨false, 0, 0, 0, 0, true, [], 0⟩

/-- A function after its reset (R571, R585). -/
def Fn.fresh : Fn := ⟨EvRing.fresh, [], false, false, [], [], 0, false⟩

/-- An endpoint before its link trains. -/
def Endpoint.fresh : Endpoint := ⟨false, false, []⟩

/-- An arbiter that has given no grant (R43 to R46). -/
def Arb.fresh : Arb := ⟨0, [0, 0, 0, 0], [], none⟩

/-- A link that carries nothing yet. -/
def Link.fresh : Link :=
  ⟨⟨0, 0, 0, [], [], [], [], [], [], false, []⟩, ⟨0, [], [], [], [], [], [], [], [], [], [], [], 0, 0, 0⟩, []⟩

/-- An empty fault ledger (R761). -/
def Ledger.empty : Ledger := ⟨[], [], [], 0, 0, [], 0, []⟩

/-- A half with its rails and PWRGD good, in cold reset until STARTUP ends. -/
def HalfPower.fresh : HalfPower := ⟨true, true, true, false, false, false, false, false, ⟨false, .idcode⟩⟩

/-- A half at throttle level 0 (R738). -/
def Thermal.fresh : Thermal := ⟨0, [], 0, none, none⟩

/-- No stripe read or write is known of a pool that is not defined. -/
def Scrub.fresh : Scrub := ⟨0, 0, false, 0, 0, (0, 0), [], false, false, 0⟩

/-- The partner before any word of it arrived. -/
def Partner.fresh : Partner := ⟨0, 0, true, 0, false, none, [], 0, none, [], false, 0⟩

/-- A module that knows no partner: the durability mode is solo, no twin (FRN_STATUS.MODE resets to 01b). -/
def Twin.fresh : Twin :=
  ⟨Partner.fresh, none, false, false, false, [], none, [], none, true, false, true, [], [], false, false, 0, [], [], none, none, none,
    [], [], [], 1, 0, [], [], [], [], [], []⟩

/-- A channel that is idle (R680 to R683). -/
def Chan.fresh : Chan := ⟨0, 0, 0, [], false, [], [], 0, none, false, none, 0, 0, false, false, []⟩

/-- The gauge before it has measured anything. -/
def Gauge.fresh : Gauge :=
  { fine := 0, counted := 0, hist := [], steps := [], lastI := 0, points := [], learn := 0,
    lastLearn := 0, faults := [], res := none, zeroing := false, chgOff := false, full := false, enable := false,
    charge := false, bleed := false, absent := true, gap := true, eol := false, outside := false, eeprom := [],
    gseq := 0, thru := 0, learns := 0, dumps := 0, tMin := 0, tMax := 0, minOut := 0, ageMs := 0, lastFault := 0,
    held := false }

/-- The module right after power-on: both halves in cold reset, every register field at its reset value, no command
fetched, nothing stored. Fuses: lifecycle state PROVISIONING, no key hash programmed, SVN floor 0 (see the log). -/
def Dev.reset : Dev where
  tbHost := 0
  tbMedia := 0
  clocks := ⟨false, 0, [], 0, false⟩
  regs := []
  out := []
  free := 0
  rings := ⟨[], [], 0, [], [], [], (12, 3, 1), []⟩
  arbs := []
  fns := []
  eps := []
  ingest := ⟨[], [], 0xFFFFFFFF#32, [], [], false, [], false, []⟩
  rime := ⟨[], none, none, 0, none, [], 0, false, 0, []⟩
  sch := []
  snow := Link.fresh
  firn := ⟨[], [], [], [], [], [], [], [], [], [], [], none, 0, false, false, [], [], [], 0, [], [], [], []⟩
  ctxs := []
  xmap := ⟨[], [], [], [], [], [], []⟩
  destages := []
  reads := []
  pools := []
  maint := ⟨[], 0, []⟩
  nss := []
  streams := []
  twin := Twin.fresh
  drives := ⟨[], [], 0, [], [], [], [], false, [], []⟩
  floe := ⟨[], [], [], []⟩
  gauge := Gauge.fresh
  staging := ⟨[], 0, false⟩
  ledger := []
  power := []
  thermal := []
  image := ⟨0, 0, 0, 0, 0, 0, [0, 0, 0, 0], [], []⟩
  straps := []
  serial := 0
  mbx := none
  schLock := false
  moraine := []
  mapLog := []

/-- The machine right after reset. -/
def State.reset : State where
  pending := []
  flash := []
  fuses := ⟨1, 0, [], 0, 0⟩
  dev := Dev.reset

end Sys2Proof.Machine
end

