-- ==== Sys2Proof/Machine/Ops.lean ====
section
/-! DEFINITION. The named operations on the state: finite tables, register fields, time, what the module sends, and
commands of a queue. -/

namespace Sys2Proof.Machine

/-! ### Finite tables -/

/-- The entry of a number. -/
def tget {α : Type} : Tab α → Nat → Option α
  | [], _ => none
  | (k, v) :: t, n => if n = k then some v else tget t n

/-- The table with the entry of a number set; the numbers stay in rising order. -/
def tput {α : Type} : Tab α → Nat → α → Tab α
  | [], n, v => [(n, v)]
  | (k, w) :: t, n, v =>
    if n < k then (n, v) :: (k, w) :: t else if n = k then (n, v) :: t else (k, w) :: tput t n v

/-- The table without the entry of a number. -/
def tdel {α : Type} (t : Tab α) (n : Nat) : Tab α := t.filter (fun e => e.1 != n)

/-- The table with an entry changed where it is present. -/
def tmod {α : Type} (t : Tab α) (n : Nat) (f : α → α) : Tab α := t.map (fun e => if e.1 = n then (e.1, f e.2) else e)

/-- The numbers of a table that is complete: every entry's number. -/
def tkeys {α : Type} (t : Tab α) : List Nat := t.map (fun e => e.1)

/-- The lowest number from `n` on that a list does not hold. -/
def lowestFree (used : List Nat) : Nat → Nat → Nat
  | 0, n => n
  | fuel + 1, n => if used.contains n then lowestFree used fuel (n + 1) else n

/-- A list with the entry at a place replaced. -/
def setAt {α : Type} : List α → Nat → α → List α
  | [], _, _ => []
  | _ :: t, 0, v => v :: t
  | a :: t, n + 1, v => a :: setAt t n v

/-- A list without a value. -/
def without {α : Type} [DecidableEq α] (l : List α) (a : α) : List α := l.filter (fun x => decide (x ≠ a))

/-- Bit `n` of a number. -/
def bit (v n : Nat) : Bool := v.testBit n

/-- Bits `lsb` to `lsb + w - 1` of a number. -/
def bits (v lsb w : Nat) : Nat := (v >>> lsb) % 2 ^ w

/-- A number with bit `n` set to a value. -/
def setBit (v n : Nat) (b : Bool) : Nat :=
  if v.testBit n = b then v else if b then v + 2 ^ n else v - 2 ^ n

/-- The number of a Boolean. -/
def b2n (b : Bool) : Nat := if b then 1 else 0

/-- A signed value as `w` bits in two's complement. -/
def toBits (w : Nat) (i : Int) : Nat := (i % (2 ^ w : Nat)).toNat

/-- The signed value of `w` bits in two's complement. -/
def ofBits (w v : Nat) : Int := if v % 2 ^ w < 2 ^ (w - 1) then (v % 2 ^ w : Nat) else (v % 2 ^ w : Nat) - (2 ^ w : Nat)

/-! ### Halves and time -/

/-- The number of a half in the tables kept by half. -/
def halfNum : Half → Nat
  | .host => 0
  | .media => 1

/-- The other half. -/
def otherHalf : Half → Half
  | .host => .media
  | .media => .host

/-- A half's timebase (R22). -/
def Dev.now (d : Dev) : Half → Nat
  | .host => d.tbHost
  | .media => d.tbMedia

/-- Ticks in a microsecond (R22: a tick is 10 ns). -/
def us : Nat := 100

/-- Ticks in a millisecond. -/
def ms : Nat := 100000

/-! ### Register fields -/

/-- The value of a register field: its entry, or its reset value (R5 to R10). -/
def Dev.rd (d : Dev) (f : Field) : Nat := (tget d.regs f.key).getD f.reset

/-- The field holds a nonzero value. -/
def Dev.is (d : Dev) (f : Field) : Bool := d.rd f != 0

/-- A register field set to a value, cut to the field's width; a field at its reset value has no entry. -/
def Dev.wr (d : Dev) (f : Field) (v : Nat) : Dev :=
  { d with regs := if v % 2 ^ f.width = f.reset then tdel d.regs f.key else tput d.regs f.key (v % 2 ^ f.width) }

/-- A one-bit field set to 1. -/
def Dev.set (d : Dev) (f : Field) : Dev := d.wr f 1

/-- A field set to 0. -/
def Dev.clr (d : Dev) (f : Field) : Dev := d.wr f 0

/-- A field set from a condition. -/
def Dev.put (d : Dev) (f : Field) (b : Bool) : Dev := d.wr f (b2n b)

/-- A field with one of its bits set to a value. -/
def Dev.putBit (d : Dev) (f : Field) (n : Nat) (b : Bool) : Dev := d.wr f (setBit (d.rd f) n b)

/-- A counter that gains `n`: it saturates (R9), or wraps where its own rule says so. -/
def Dev.bump (d : Dev) (f : Field) (n : Nat) : Dev :=
  d.wr f (if f.acc = .cntWrap then d.rd f + n else min (d.rd f + n) (2 ^ f.width - 1))

/-! ### What the module sends -/

/-- One more thing sent, after everything sent before. -/
def Dev.emit (d : Dev) (o : Out) : Dev := { d with out := d.out ++ [o] }

/-- Several things sent in order. -/
def Dev.emits (d : Dev) (os : List Out) : Dev := { d with out := d.out ++ os }

/-- The next free value, and the state that has drawn it. -/
def Dev.draw (d : Dev) : Nat × Dev := (Config.freeValue d.free, { d with free := d.free + 1 })

/-- `n` free bytes, and the state that has drawn them. -/
def Dev.drawBytes (d : Dev) (n : Nat) : Bytes × Dev := (Config.freeBytes d.free n, { d with free := d.free + 1 })

/-! ### Tables of the state with their defaults -/

/-- A function. -/
def Dev.fn (d : Dev) (n : Nat) : Fn := (tget d.fns n).getD Fn.fresh

/-- A function changed. -/
def Dev.modFn (d : Dev) (n : Nat) (f : Fn → Fn) : Dev := { d with fns := tput d.fns n (f (d.fn n)) }

/-- An endpoint. -/
def Dev.ep (d : Dev) (e : Nat) : Endpoint := (tget d.eps e).getD Endpoint.fresh

/-- An endpoint changed. -/
def Dev.modEp (d : Dev) (e : Nat) (f : Endpoint → Endpoint) : Dev := { d with eps := tput d.eps e (f (d.ep e)) }

/-- The fault ledger of a half. -/
def Dev.led (d : Dev) (h : Half) : Ledger := (tget d.ledger (halfNum h)).getD Ledger.empty

/-- The fault ledger of a half changed. -/
def Dev.modLed (d : Dev) (h : Half) (f : Ledger → Ledger) : Dev :=
  { d with ledger := tput d.ledger (halfNum h) (f (d.led h)) }

/-- The power state of a half. -/
def Dev.pw (d : Dev) (h : Half) : HalfPower := (tget d.power (halfNum h)).getD HalfPower.fresh

/-- The power state of a half changed. -/
def Dev.modPw (d : Dev) (h : Half) (f : HalfPower → HalfPower) : Dev :=
  { d with power := tput d.power (halfNum h) (f (d.pw h)) }

/-- A half's end of the Schrund. -/
def Dev.schEnd (d : Dev) (h : Half) : Link := (tget d.sch (halfNum h)).getD Link.fresh

/-- A half's end of the Schrund changed. -/
def Dev.modSch (d : Dev) (h : Half) (f : Link → Link) : Dev := { d with sch := tput d.sch (halfNum h) (f (d.schEnd h)) }

/-- The link end that a command names. -/
def Dev.link (d : Dev) : LinkEnd → Link
  | .sch h => d.schEnd h
  | .snow => d.snow

/-- A link end changed. -/
def Dev.modLink (d : Dev) (l : LinkEnd) (f : Link → Link) : Dev :=
  match l with
  | .sch h => d.modSch h f
  | .snow => { d with snow := f d.snow }

/-- The twin's standing changed. -/
def Dev.modTwin (d : Dev) (f : Twin → Twin) : Dev := { d with twin := f d.twin }

/-- The gauge changed. -/
def Dev.modGauge (d : Dev) (f : Gauge → Gauge) : Dev := { d with gauge := f d.gauge }

/-- The ring engine changed. -/
def Dev.modRings (d : Dev) (f : Rings → Rings) : Dev := { d with rings := f d.rings }

/-- The Firn cache changed. -/
def Dev.modFirn (d : Dev) (f : Firn → Firn) : Dev := { d with firn := f d.firn }

/-- The extent map changed. -/
def Dev.modMap (d : Dev) (f : XMap → XMap) : Dev := { d with xmap := f d.xmap }

/-- The drive fabric changed. -/
def Dev.modDrv (d : Dev) (f : Drives → Drives) : Dev := { d with drives := f d.drives }

/-- The key store changed. -/
def Dev.modRime (d : Dev) (f : Rime → Rime) : Dev := { d with rime := f d.rime }

/-- The slices changed. -/
def Dev.modIng (d : Dev) (f : Ingest → Ingest) : Dev := { d with ingest := f d.ingest }

/-- A pool changed where it is defined. -/
def Dev.modPool (d : Dev) (p : Nat) (f : Pool → Pool) : Dev := { d with pools := tmod d.pools p f }

/-- A namespace changed where it exists. -/
def Dev.modNs (d : Dev) (n : Nat) (f : Ns → Ns) : Dev := { d with nss := tmod d.nss n f }

/-- A Calving stream changed where it is open. -/
def Dev.modStream (d : Dev) (n : Nat) (f : Stream → Stream) : Dev := { d with streams := tmod d.streams n f }

/-- A queue pair changed where it exists. -/
def Dev.modQ (d : Dev) (q : Nat) (f : Queue → Queue) : Dev :=
  { d with rings := { d.rings with queues := tmod d.rings.queues q f } }

/-- The queue pair of an index. -/
def Dev.queue (d : Dev) (q : Nat) : Option Queue := tget d.rings.queues q

/-- The fetched command of a queue with a tag. -/
def Queue.cmd (q : Queue) (tag : Nat) : Option Cmd := q.cmds.find? (fun c => bits c.pkt.toNat 16 16 == tag)

/-- The namespace that a command's packet names: bytes 4 to 7 (R70). -/
def Cmd.nsid (c : Cmd) : Nat := bits c.pkt.toNat 32 32

/-- A fetched command changed. -/
def Dev.modCmd (d : Dev) (q tag : Nat) (f : Cmd → Cmd) : Dev :=
  d.modQ q fun x => { x with cmds := x.cmds.map fun c => if bits c.pkt.toNat 16 16 = tag then f c else c }

/-- The media half's context of a command. -/
def Dev.ctx (d : Dev) (q tag : Nat) : Option MCtx := d.ctxs.find? (fun c => c.q == q && c.tag == tag)

/-- A context of the media half changed. -/
def Dev.modCtx (d : Dev) (q tag : Nat) (f : MCtx → MCtx) : Dev :=
  { d with ctxs := d.ctxs.map fun c => if c.q = q ∧ c.tag = tag then f c else c }

/-- A context of the media half ended. -/
def Dev.dropCtx (d : Dev) (q tag : Nat) : Dev := { d with ctxs := d.ctxs.filter fun c => !(c.q == q && c.tag == tag) }

/-- An operation for every element of a list, in order. -/
def Dev.each {α : Type} (d : Dev) (l : List α) (f : Dev → α → Dev) : Dev := l.foldl f d

/-- An operation where a condition holds. -/
def Dev.when (d : Dev) (c : Bool) (f : Dev → Dev) : Dev := if c then f d else d

/-- A write to a media-half register reaches it from the PF of endpoint 0 by FEATURE_SET, or from the half's port (R752, R778). -/
def mediaWriter : Path → Bool
  | .feature fn => fn == 0
  | .i3c h => h == .media
  | _ => false

/-- A next state: the device changed, the rest as it was. -/
def State.ok (s : State) (d : Dev) : Host.Outcome State Fault Refusal := .next { s with dev := d }

end Sys2Proof.Machine
end

