-- ==== Sys2Proof/Machine/Arbiter.lean ====
section
/-! DEFINITION. The arbiters (R43 to R49): the frame of 8 grants, deficit round robin over classes and over tenants, and
the grants that throttling leaves idle (R738). -/

namespace Sys2Proof.Machine

/-- The number an arbiter is kept under. -/
def arbNum : ArbId → Nat
  | .ringFetch => 0
  | .sliceDispatch => 1
  | .snowbridge => 2
  | .moraine => 3
  | .epRead e => 16 + e
  | .epWrite e => 32 + e
  | .schTx h => 48 + halfNum h
  | .drive p => 64 + p
  | .hbm h st => 128 + 16 * halfNum h + st

/-- An arbiter of the state. -/
def Dev.arb (d : Dev) (a : ArbId) : Arb := (tget d.arbs (arbNum a)).getD Arb.fresh

/-- A tenant's weight: 16 until it is set (R45); class D has no tenant and counts as function 1,024 (R46). -/
def Dev.tenantWeight (d : Dev) (fn : Nat) : Nat := (tget d.rings.tenants fn).getD 16

/-- The effective weight that a piece of class D work brings to its arbiter, beside WD (R287, R424); a rate is never above WB. -/
def Dev.workWeight (d : Dev) (w : WorkD) : Nat :=
  let wb := d.rings.weights.1
  match w with
  | .rebuild0 => min (d.rd MNT_RATE.CRIT_WD) wb
  | .rebuild1 | .scrub => min (d.rd MNT_RATE.DEG_WD) wb
  | .destage => if d.firn.destageUrgent then wb else 0
  | .other => 0

/-- The weight of class D at an arbiter by R424: the largest that the class D work waiting there brings, and WD. -/
def Dev.weightD (d : Dev) (work : List WorkD) : Nat := work.foldl (fun m w => max m (d.workWeight w)) d.rings.weights.2.2

/-- One round of deficit round robin (R44): the waiting candidate with the largest deficit is chosen after every waiting
candidate added its weight where none held 1 or more; the first of equals in the list wins. The list holds each
candidate's deficit and weight (none: no request waits). -/
def drr (c : List (Nat × Option Nat)) : Option Nat × List Nat :=
  let c := c.map fun x => match x.2 with
    | none => (0, none)
    | some w => (x.1, some w)
  let short := c.all fun x => x.2.isNone || x.1 == 0
  let c := if short then c.map fun x => (x.1 + x.2.getD 0, x.2) else c
  let best := c.foldl (fun m x => if x.2.isSome then max m x.1 else m) 0
  let i := c.findIdx fun x => x.2.isSome && x.1 == best
  if i < c.length then (some i, setAt (c.map (·.1)) i (best - 1)) else (none, c.map (·.1))

/-- The tenants of a class among the requests that wait, in rising order without repeats. -/
def tenantsOf (waiting : List (Nat × Nat)) (cls : Nat) : List Nat :=
  ((waiting.filter fun w => w.1 == cls).foldl (fun t w => tput t w.2 ()) ([] : Tab Unit)).map (·.1)

/-- The tenant that a class's deficits choose, and the deficits after it (R44, R46). DESIGN CHOICE: a function has one deficit for each class,
and one without a request of the class loses it at a grant that serves that class (see the log). -/
def drrTenant (d : Dev) (a : Arb) (waiting : List (Nat × Nat)) (cls : Nat) : Option (Nat × Tab Nat) :=
  let ts := tenantsOf waiting cls
  let r := drr (ts.map fun t => ((tget a.ten (cls * 2048 + t)).getD 0, some (d.tenantWeight t)))
  match r.1 with
  | none => none
  | some i =>
    let kept := a.ten.filter fun e => e.1 / 2048 != cls
    some (ts.getD i 0, (ts.zip r.2).foldl (fun tab e => tput tab (cls * 2048 + e.1) e.2) kept)

/-- The tenant of class A that takes a reserved grant: the largest deficit, the lower function number among equals; no
deficit changes (R43, R44). -/
def reservedTenant (a : Arb) (waiting : List (Nat × Nat)) : Option Nat :=
  let ts := tenantsOf waiting 0
  let best := ts.foldl (fun m t => max m ((tget a.ten t).getD 0)) 0
  ts.find? fun t => (tget a.ten t).getD 0 == best

/-- The grants of each frame that throttling leaves idle at an arbiter: 2L of grants 1 to 7 (R738). -/
def Dev.idleGrants (d : Dev) : ArbId → Nat
  | .epRead _ => 2 * d.rd (CRP_THERM.LEVEL .host)
  | .epWrite _ => 2 * d.rd (CRP_THERM.LEVEL .host)
  | .drive _ => 2 * d.rd (CRP_THERM.LEVEL .media)
  | _ => 0

/-- One grant of an arbiter over the requests that wait, each a class and a function (R43 to R46). DEDUCED: where no request waits there is
no grant. -/
def grant (a : ArbId) (waiting : List (Nat × Nat)) (work : List WorkD) (d : Dev) : Option (Nat × Nat) × Dev :=
  let ar := d.arb a
  let put (x : Arb) : Dev := { d with arbs := tput d.arbs (arbNum a) { x with pos := (ar.pos + 1) % 8 } }
  let hasA := waiting.any fun w => w.1 == 0
  if waiting.isEmpty then (none, d)
  else if ar.pos = 0 ∧ hasA then
    match reservedTenant ar waiting with
    | some t => (some (0, t), put { ar with last := some (0, t) })
    | none => (none, put { ar with last := none })
  else if 1 ≤ ar.pos ∧ ar.pos ≤ d.idleGrants a then (none, put { ar with last := none })
  else
    let w := d.rings.weights
    let weight := fun c => if c ≤ 1 then w.1 else if c = 2 then w.2.1 else d.weightD work
    let r := drr ((List.range 4).map fun c =>
      (ar.cls.getD c 0, if waiting.any (fun x => x.1 == c) then some (weight c) else none))
    match r.1 with
    | none => (none, put { ar with cls := r.2, last := none })
    | some c =>
      match drrTenant d ar waiting c with
      | none => (none, put { ar with cls := r.2, last := none })
      | some (t, ten) => (some (c, t), put { ar with cls := r.2, ten := ten, last := some (c, t) })

/-- The first grant of an arbiter that serves a request: grants that throttling leaves idle pass (R738). The first argument bounds them: at
most 6 of a frame are idle. -/
def grantSome : Nat → ArbId → List (Nat × Nat) → List WorkD → Dev → Option (Nat × Nat) × Dev
  | 0, _, _, _, d => (none, d)
  | fuel + 1, a, waiting, work, d =>
    match grant a waiting work d with
    | (some r, d) => (some r, d)
    | (none, d) => grantSome fuel a waiting work d

/-- The request that an arbiter serves next among those that wait, in the order in which they came: the oldest of the class and function
chosen (R43, R44). -/
def serveNext {α : Type} (a : ArbId) (l : List α) (key : α → Nat × Nat) (work : List WorkD) (d : Dev) : Option α × Dev :=
  match grantSome 8 a (l.map key) work d with
  | (none, d) => (none, d)
  | (some r, d) => (l.find? fun x => key x == r, d)

end Sys2Proof.Machine
end

