-- ==== Sys2Proof/Machine/Sha.lean ====
section
/-! DEFINITION. SHA-256 and HMAC-SHA-256 (R126, R293, R465), SHA-384 (R721) and ECDSA P-384 verification (R721), as
FIPS 180-4, FIPS 198-1 and FIPS 186-5 give them. -/

namespace Sys2Proof.Machine

/-- The 64 round constants of SHA-256, the first in the lowest 32 bits. -/
def sha256K : Nat :=
  0xc67178f2bef9a3f7a4506ceb90befffa8cc7020884c8781478a5636f748f82ee682e6ff35b9cca4f4ed8aa4a391c0cb334b0bcb52748774c1e376c0819a4c116106aa070f40e3585d6990624d192e819c76c51a3c24b8b70a81a664ba2bfe8a192722c8581c2c92e766a0abb650a735453380d134d2c6dfc2e1b213827b70a851429296706ca6351d5a79147c6e00bf3bf597fc7b00327c8a831c66d983e515276f988da5cb0a9dc4a7484aa2de92c6f240ca1cc0fc19dc6efbe4786e49b69c1c19bf1749bdc06a780deb1fe72be5d74550c7dc3243185be12835b01d807aa98ab1c5ed5923f82a459f111f13956c25be9b5dba5b5c0fbcf71374491428a2f98

/-- The initial hash value of SHA-256. -/
def sha256Init : List (BitVec 32) :=
  [0x6a09e667, 0xbb67ae85, 0x3c6ef372, 0xa54ff53a, 0x510e527f, 0x9b05688c, 0x1f83d9ab, 0x5be0cd19]

/-- The state of a hash: eight working words. -/
structure HashWords (w : Nat) where
  a : BitVec w
  b : BitVec w
  c : BitVec w
  d : BitVec w
  e : BitVec w
  f : BitVec w
  g : BitVec w
  h : BitVec w
  deriving DecidableEq, Repr

/-- The eight words of a list. -/
def HashWords.ofList {w : Nat} (l : List (BitVec w)) : HashWords w :=
  ⟨l.getD 0 0, l.getD 1 0, l.getD 2 0, l.getD 3 0, l.getD 4 0, l.getD 5 0, l.getD 6 0, l.getD 7 0⟩

/-- The words as a list. -/
def HashWords.toList {w : Nat} (s : HashWords w) : List (BitVec w) := [s.a, s.b, s.c, s.d, s.e, s.f, s.g, s.h]

/-- One round of the compression function, with the three mixing functions of the word size. -/
def hashRound {w : Nat} (S0 S1 : BitVec w → BitVec w) (k x : BitVec w) (s : HashWords w) : HashWords w :=
  let ch := (s.e &&& s.f) ^^^ ((~~~ s.e) &&& s.g)
  let t1 := s.h + S1 s.e + ch + k + x
  let maj := (s.a &&& s.b) ^^^ (s.a &&& s.c) ^^^ (s.b &&& s.c)
  ⟨t1 + (S0 s.a + maj), s.a, s.b, s.c, s.d + t1, s.e, s.f, s.g⟩

/-- The rounds over a window of the last sixteen schedule words: each round uses the oldest word and appends the
next one of the message schedule. -/
def hashRounds {w : Nat} (S0 S1 g0 g1 : BitVec w → BitVec w) (kOf : Nat → BitVec w) :
    Nat → Nat → List (BitVec w) → HashWords w → HashWords w
  | 0, _, _, s => s
  | n + 1, i, win, s =>
    match win with
    | [] => s
    | x :: rest =>
      let nw := g1 (win.getD 14 0) + win.getD 9 0 + g0 (win.getD 1 0) + x
      hashRounds S0 S1 g0 g1 kOf n (i + 1) (rest ++ [nw]) (hashRound S0 S1 (kOf i) x s)

/-- The word-wise sum of two hash states. -/
def HashWords.add {w : Nat} (x y : HashWords w) : HashWords w :=
  ⟨x.a + y.a, x.b + y.b, x.c + y.c, x.d + y.d, x.e + y.e, x.f + y.f, x.g + y.g, x.h + y.h⟩

/-- A message with the padding of FIPS 180-4: a one bit, zeros, and the bit length in `lenBytes` bytes. -/
def shaPad (block lenBytes : Nat) (m : Bytes) : Bytes :=
  let used := (m.length + 1 + lenBytes) % block
  m ++ [0x80] ++ List.replicate (if used = 0 then 0 else block - used) 0 ++ beBytes lenBytes (8 * m.length)

/-- One block of SHA-256. -/
def sha256Block (s : HashWords 32) (blk : Bytes) : HashWords 32 :=
  let ws := (pieces 4 blk).map (fun p => BitVec.ofNat 32 (beNat p))
  s.add (hashRounds (fun x => x.rotateRight 2 ^^^ x.rotateRight 13 ^^^ x.rotateRight 22)
    (fun x => x.rotateRight 6 ^^^ x.rotateRight 11 ^^^ x.rotateRight 25)
    (fun x => x.rotateRight 7 ^^^ x.rotateRight 18 ^^^ (x >>> 3))
    (fun x => x.rotateRight 17 ^^^ x.rotateRight 19 ^^^ (x >>> 10))
    (fun i => BitVec.ofNat 32 (sha256K >>> (32 * i))) 64 0 ws s)

/-- SHA-256 of a string. -/
def sha256 (m : Bytes) : Bytes :=
  (((pieces 64 (shaPad 64 8 m)).foldl sha256Block (HashWords.ofList sha256Init)).toList.map
    (fun x => beBytes 4 x.toNat)).flatten

/-- HMAC-SHA-256 of a string under a key (FIPS 198-1). -/
def hmac256 (key m : Bytes) : Bytes :=
  let k := padTo 64 (if key.length > 64 then sha256 key else key)
  sha256 (k.map (fun b => b ^^^ 0x5C) ++ sha256 (k.map (fun b => b ^^^ 0x36) ++ m))

/-- The 80 round constants of SHA-384, the first in the lowest 64 bits. -/
def sha512K : Nat :=
  0x6c44198c4a4758175fcb6fab3ad6faec597f299cfc657e2a4cc5d4becb3e42b6431d67c49c100d4c3c9ebe0a15c9bebc32caab7b40c7249328db77f523047d841b710b35131c471b113f9804bef90dae0a637dc5a2c898a606f067aa72176fbaf57d4f7fee6ed178eada7dd6cde0eb1ed186b8c721c0c207ca273eceea26619cc67178f2e372532bbef9a3f7b2c67915a4506cebde82bde990befffa23631e288cc702081a6439ec84c87814a1f0ab7278a5636f43172f60748f82ee5defb2fc682e6ff3d6b2b8a35b9cca4f7763e3734ed8aa4ae3418acb391c0cb3c5c95a6334b0bcb5e19b48a82748774cdf8eeb991e376c085141ab5319a4c116b8d2d0c8106aa07032bbd1b8f40e35855771202ad69906245565a910d192e819d6ef5218c76c51a30654be30c24b8b70d0f89791a81a664bbc423001a2bfe8a14cf1036492722c851482353b81c2c92e47edaee6766a0abb3c77b2a8650a73548baf63de53380d139d95b3df4d2c6dfc5ac42aed2e1b21385c26c92627b70a8546d22ffc142929670a0e6e7006ca6351e003826fd5a79147930aa725c6e00bf33da88fc2bf597fc7beef0ee4b00327c898fb213fa831c66d2db43210983e5152ee66dfab76f988da831153b55cb0a9dcbd41fbd44a7484aa6ea6e4832de92c6f592b0275240ca1cc77ac9c650fc19dc68b8cd5b5efbe4786384f25e3e49b69c19ef14ad2c19bf174cf6926949bdc06a725c7123580deb1fe3b1696b172be5d74f27b896f550c7dc3d5ffb4e2243185be4ee4b28c12835b0145706fbed807aa98a3030242ab1c5ed5da6d8118923f82a4af194f9b59f111f1b605d0193956c25bf348b538e9b5dba58189dbbcb5c0fbcfec4d3b2f7137449123ef65cd428a2f98d728ae22

/-- The initial hash value of SHA-384. -/
def sha384Init : List (BitVec 64) :=
  [0xcbbb9d5dc1059ed8, 0x629a292a367cd507, 0x9159015a3070dd17, 0x152fecd8f70e5939, 0x67332667ffc00b31, 0x8eb44a8768581511, 0xdb0c2e0d64f98fa7, 0x47b5481dbefa4fa4]

/-- One block of SHA-384. -/
def sha512Block (s : HashWords 64) (blk : Bytes) : HashWords 64 :=
  let ws := (pieces 8 blk).map (fun p => BitVec.ofNat 64 (beNat p))
  s.add (hashRounds (fun x => x.rotateRight 28 ^^^ x.rotateRight 34 ^^^ x.rotateRight 39)
    (fun x => x.rotateRight 14 ^^^ x.rotateRight 18 ^^^ x.rotateRight 41)
    (fun x => x.rotateRight 1 ^^^ x.rotateRight 8 ^^^ (x >>> 7))
    (fun x => x.rotateRight 19 ^^^ x.rotateRight 61 ^^^ (x >>> 6))
    (fun i => BitVec.ofNat 64 (sha512K >>> (64 * i))) 80 0 ws s)

/-- SHA-384 of a string (R721). -/
def sha384 (m : Bytes) : Bytes :=
  ((((pieces 128 (shaPad 128 16 m)).foldl sha512Block (HashWords.ofList sha384Init)).toList.map
    (fun x => beBytes 8 x.toNat)).flatten).take 48

/-- A power modulo `m` by the low `n` bits of the exponent. -/
def powMod (m : Nat) : Nat → Nat → Nat → Nat → Nat
  | 0, _, _, acc => acc
  | n + 1, b, e, acc => powMod m n (b * b % m) (e / 2) (if e % 2 = 1 then acc * b % m else acc)

/-- The prime of the field of P-384. -/
def p384p : Nat := 2 ^ 384 - 2 ^ 128 - 2 ^ 96 + 2 ^ 32 - 1

/-- The order of the base point of P-384. -/
def p384n : Nat :=
  0xffffffffffffffffffffffffffffffffffffffffffffffffc7634d81f4372ddf581a0db248b0a77aecec196accc52973

/-- The coefficient b of P-384. -/
def p384b : Nat :=
  0xb3312fa7e23ee7e4988e056be3f82d19181d9c6efe8141120314088f5013875ac656398d8a2ed19d2a85c8edd3ec2aef

/-- The base point of P-384. -/
def p384g : Nat × Nat :=
  (0xaa87ca22be8b05378eb1c71ef320ad746e1d3b628ba79b9859f741e082542a385502f25dbf55296c3a545e3872760ab7,
   0x3617de4a96262c6f5d9e98bf9292dc29f8f41dbd289a147ce9da3113b5f0b8c00a60b1ce1d7e819d7a431d7c90ea0e5f)

/-- The inverse modulo a prime, by Fermat. -/
def invMod (m a : Nat) : Nat := powMod m 384 (a % m) (m - 2) 1

/-- The sum of two points of P-384; `none` is the point at infinity. -/
def p384add (x y : Option (Nat × Nat)) : Option (Nat × Nat) :=
  match x, y with
  | none, q => q
  | q, none => q
  | some (x1, y1), some (x2, y2) =>
    if x1 = x2 ∧ (y1 + y2) % p384p = 0 then none
    else
      let l := if x1 = x2 then (3 * x1 * x1 + (p384p - 3)) * invMod p384p (2 * y1) % p384p
        else (y2 + (p384p - y1)) * invMod p384p (x2 + (p384p - x1)) % p384p
      let x3 := (l * l + 2 * p384p - x1 - x2) % p384p
      some (x3, (l * (x1 + p384p - x3) + p384p - y1) % p384p)

/-- A multiple of a point of P-384 by the low `n` bits of the scalar. -/
def p384mul : Nat → Nat → Option (Nat × Nat) → Option (Nat × Nat) → Option (Nat × Nat)
  | 0, _, _, acc => acc
  | n + 1, k, q, acc => p384mul n (k / 2) (p384add q q) (if k % 2 = 1 then p384add acc q else acc)

/-- The coordinates are those of a point of P-384. -/
def p384on (x y : Nat) : Bool :=
  x < p384p && y < p384p && (y * y) % p384p == (x * x * x + (p384p - 3) * x + p384b) % p384p

/-- ECDSA P-384 verification with SHA-384 (R721): the 96-byte key is X then Y and the 96-byte signature r then s, most
significant byte first. -/
def ecdsa384Verify (pubKey sig m : Bytes) : Bool :=
  let x := beNat (pubKey.take 48)
  let y := beNat (getBytes pubKey 48 48)
  let r := beNat (sig.take 48)
  let s := beNat (getBytes sig 48 48)
  if pubKey.length == 96 && sig.length == 96 && p384on x y && 0 < r && r < p384n && 0 < s && s < p384n then
    let z := beNat (sha384 m)
    let w := invMod p384n s
    match p384add (p384mul 384 (z * w % p384n) (some p384g) none) (p384mul 384 (r * w % p384n) (some (x, y)) none) with
    | none => false
    | some (x1, _) => x1 % p384n == r
  else false

end Sys2Proof.Machine
end

