-- ==== Sys2Proof/Machine/Aes.lean ====
section
/-! DEFINITION. AES-256 (FIPS 197) and the modes the Rime engines use: XTS (R206, R207), GCM (R208, R209) and RFC
3394 key wrap (R201, R202). Keys, tweaks, vectors and tags keep the byte order of their standards (R5). -/

namespace Sys2Proof.Machine

/-- The S-box of AES, entry 0 in the lowest byte. -/
def aesSboxTable : Nat :=
  0x16bb54b00f2d99416842e6bf0d89a18cdf2855cee9871e9b948ed9691198f8e19e1dc186b95735610ef6034866b53e708a8bbd4b1f74dde8c6b4a61c2e2578ba08ae7a65eaf4566ca94ed58d6d37c8e779e4959162acd3c25c2406490a3a32e0db0b5ede14b8ee4688902a22dc4f816073195d643d7ea7c41744975fec130ccdd2f3ff1021dab6bcf5389d928f40a351a89f3c507f02f94585334d43fbaaefd0cf584c4a39becb6a5bb1fc20ed00d153842fe329b3d63b52a05a6e1b1a2c830975b227ebe28012079a059618c323c7041531d871f1e5a534ccf73f362693fdb7c072a49cafa2d4adf04759fa7dc982ca76abd7fe2b670130c56f6bf27b777c63

/-- The inverse S-box of AES, entry 0 in the lowest byte. -/
def aesInvSboxTable : Nat :=
  0x7d0c2155631469e126d677ba7e042b17619953833cbbebc8b0f52aae4d3be0a0ef9cc9939f7ae52d0d4ab519a97f51605fec8027591012b131c7078833a8dd1ff45acd78fec0db9a2079d2c64b3e56fc1bbe18aa0e62b76f89c5291d711af1476edf751ce837f9e28535ade72274ac9673e6b4f0cecff297eadc674f4111913a6b8a130103bdafc1020f3fca8f1e2cd00645b3b80558e4f70ad3bc8c00abd890849d8da75746155edab9edfd5048706c92b6655dcc5ca4d41698688664f6f87225d18b6d49a25b76b224d92866a12e084ec3fa420b954cee3d23c2a632947b54cbe9dec444438e3487ff2f9b8239e37cfbd7f3819ea340bf38a53630d56a0952

/-- One S-box look-up. -/
def aesSbox (b : Byte) : Byte := byteAt aesSboxTable b.toNat

/-- One inverse S-box look-up. -/
def aesInvSbox (b : Byte) : Byte := byteAt aesInvSboxTable b.toNat

/-- Multiplication by x in the field of AES. -/
def aesXtime (b : Byte) : Byte := if b.getLsbD 7 then (b <<< 1) ^^^ 0x1b else b <<< 1

/-- Multiplication by a small constant in the field of AES. -/
def aesMul (k : Nat) (b : Byte) : Byte :=
  let b2 := aesXtime b
  let b4 := aesXtime b2
  let b8 := aesXtime b4
  (if k % 2 = 1 then b else 0) ^^^ (if k / 2 % 2 = 1 then b2 else 0) ^^^ (if k / 4 % 2 = 1 then b4 else 0) ^^^
    (if k / 8 % 2 = 1 then b8 else 0)

/-- The rest of the key expansion of a 256-bit key: `win` holds the last eight words, the oldest first. -/
def aesExpand : Nat → Nat → Byte → List Bytes → List Bytes
  | 0, _, _, _ => []
  | n + 1, i, rcon, win =>
    let last := win.getD 7 []
    let t := if i % 8 = 0 then
        xorBytes ((last.drop 1 ++ last.take 1).map aesSbox) [rcon, 0, 0, 0]
      else if i % 8 = 4 then last.map aesSbox else last
    let nw := xorBytes (win.getD 0 []) t
    nw :: aesExpand n (i + 1) (if i % 8 = 0 then aesXtime rcon else rcon) (win.drop 1 ++ [nw])

/-- The fifteen round keys of AES-256. -/
def aesKeys (key : Bytes) : List Bytes :=
  let ws := pieces 4 (padTo 32 key)
  pieces 16 ((ws ++ aesExpand 52 8 1 ws).flatten)

/-- ShiftRows: byte `r + 4 c` of the result is byte `r + 4 (c + r)` of the state. -/
def aesShiftRows (s : Bytes) : Bytes :=
  [0, 5, 10, 15, 4, 9, 14, 3, 8, 13, 2, 7, 12, 1, 6, 11].map (fun i => s.getD i 0)

/-- The inverse of ShiftRows. -/
def aesInvShiftRows (s : Bytes) : Bytes :=
  [0, 13, 10, 7, 4, 1, 14, 11, 8, 5, 2, 15, 12, 9, 6, 3].map (fun i => s.getD i 0)

/-- One column times the circulant matrix of four constants. -/
def aesMixColumn (k0 k1 k2 k3 : Nat) (c : Bytes) : Bytes :=
  let a := c.getD 0 0
  let b := c.getD 1 0
  let d := c.getD 2 0
  let e := c.getD 3 0
  [aesMul k0 a ^^^ aesMul k1 b ^^^ aesMul k2 d ^^^ aesMul k3 e,
   aesMul k3 a ^^^ aesMul k0 b ^^^ aesMul k1 d ^^^ aesMul k2 e,
   aesMul k2 a ^^^ aesMul k3 b ^^^ aesMul k0 d ^^^ aesMul k1 e,
   aesMul k1 a ^^^ aesMul k2 b ^^^ aesMul k3 d ^^^ aesMul k0 e]

/-- MixColumns. -/
def aesMixColumns (s : Bytes) : Bytes := ((pieces 4 s).map (aesMixColumn 2 3 1 1)).flatten

/-- The inverse of MixColumns. -/
def aesInvMixColumns (s : Bytes) : Bytes := ((pieces 4 s).map (aesMixColumn 14 11 13 9)).flatten

/-- The rounds of the cipher after the first key addition. -/
def aesRounds : List Bytes → Bytes → Bytes
  | [], s => s
  | [k], s => xorBytes (aesShiftRows (s.map aesSbox)) k
  | k :: ks, s => aesRounds ks (xorBytes (aesMixColumns (aesShiftRows (s.map aesSbox))) k)

/-- One block enciphered under expanded keys. -/
def aesEncKeys (ks : List Bytes) (blk : Bytes) : Bytes :=
  match ks with
  | [] => blk
  | k :: rest => aesRounds rest (xorBytes blk k)

/-- The rounds of the inverse cipher, with the round keys last first. -/
def aesInvRounds : List Bytes → Bytes → Bytes
  | [], s => s
  | [k], s => xorBytes ((aesInvShiftRows s).map aesInvSbox) k
  | k :: ks, s => aesInvRounds ks (aesInvMixColumns (xorBytes ((aesInvShiftRows s).map aesInvSbox) k))

/-- One block deciphered under expanded keys. -/
def aesDecKeys (ks : List Bytes) (blk : Bytes) : Bytes :=
  match ks.reverse with
  | [] => blk
  | k :: rest => aesInvRounds rest (xorBytes blk k)

/-- AES-256 encryption of one block. -/
def aesEnc (key blk : Bytes) : Bytes := aesEncKeys (aesKeys key) blk

/-- AES-256 decryption of one block. -/
def aesDec (key blk : Bytes) : Bytes := aesDecKeys (aesKeys key) blk

/-- The XTS tweak times x, first byte least significant (IEEE 1619). -/
def xtsDouble (t : Bytes) : Bytes :=
  let v := leNat t
  leBytes 16 (if v / 2 ^ 127 % 2 = 1 then (2 * v) % 2 ^ 128 ^^^ 0x87 else 2 * v)

/-- The blocks of an XTS unit whose length is a multiple of 16 bytes. -/
def xtsBlocks (f : Bytes → Bytes) : List Bytes → Bytes → List Bytes
  | [], _ => []
  | b :: bs, t => xorBytes (f (xorBytes b t)) t :: xtsBlocks f bs (xtsDouble t)

/-- XTS encryption of a unit with ciphertext stealing for a last partial block. -/
def xtsEnc (k1 k2 tweak data : Bytes) : Bytes :=
  let e := aesEncKeys (aesKeys k1)
  let t0 := aesEnc k2 tweak
  let full := data.length / 16
  let part := data.length % 16
  if part = 0 then (xtsBlocks e (pieces 16 data) t0).flatten
  else
    let out := xtsBlocks e (pieces 16 (data.take (16 * full))) t0
    let tn := full.repeat xtsDouble t0
    let cc := out.getLastD []
    let last := data.drop (16 * full) ++ cc.drop part
    (out.take (full - 1)).flatten ++ xorBytes (e (xorBytes last tn)) tn ++ cc.take part

/-- XTS decryption of a unit. -/
def xtsDec (k1 k2 tweak data : Bytes) : Bytes :=
  let d := aesDecKeys (aesKeys k1)
  let t0 := aesEnc k2 tweak
  let full := data.length / 16
  let part := data.length % 16
  if part = 0 then (xtsBlocks d (pieces 16 data) t0).flatten
  else
    let head := (xtsBlocks d (pieces 16 (data.take (16 * (full - 1)))) t0).flatten
    let tm := (full - 1).repeat xtsDouble t0
    let tn := xtsDouble tm
    let cm := getBytes data (16 * (full - 1)) 16
    let pp := xorBytes (d (xorBytes cm tn)) tn
    let last := data.drop (16 * full) ++ pp.drop part
    head ++ xorBytes (d (xorBytes last tm)) tm ++ pp.take part

/-- The rest of a product in the field of GCM, bit by bit: `x` is read from its most significant bit. -/
def ghashMulBits : Nat → Nat → Nat → Nat → Nat
  | 0, _, _, z => z
  | n + 1, x, v, z =>
    ghashMulBits n x (if v % 2 = 1 then (v / 2) ^^^ (0xE1 * 2 ^ 120) else v / 2)
      (if x / 2 ^ n % 2 = 1 then z ^^^ v else z)

/-- The product in the field of GCM. -/
def ghashMul (x y : Nat) : Nat := ghashMulBits 128 x y 0

/-- GHASH over blocks of 16 bytes, from a running value. -/
def ghash (h acc : Nat) (blocks : List Bytes) : Nat :=
  blocks.foldl (fun a b => ghashMul (a ^^^ beNat (padTo 16 b)) h) acc

/-- Counter mode from a first counter block, the low 32 bits counting. -/
def ctrBlocks (ks : List Bytes) (pre : Bytes) : Nat → List Bytes → List Bytes
  | _, [] => []
  | c, b :: bs => xorBytes b (aesEncKeys ks (pre ++ beBytes 4 c)) :: ctrBlocks ks pre (c + 1) bs

/-- The GCM key stream applied to data under a 96-bit vector; the first data block uses counter 2. -/
def gcmCrypt (key iv data : Bytes) : Bytes := (ctrBlocks (aesKeys key) iv 2 (pieces 16 data)).flatten

/-- The GCM tag of a ciphertext with its associated data under a 96-bit vector. -/
def gcmTag (key iv aad ct : Bytes) : Bytes :=
  let ks := aesKeys key
  let h := beNat (aesEncKeys ks (List.replicate 16 0))
  let g := ghash h 0 (pieces 16 aad ++ pieces 16 ct ++ [beBytes 8 (8 * aad.length) ++ beBytes 8 (8 * ct.length)])
  xorBytes (beBytes 16 g) (aesEncKeys ks (iv ++ [0, 0, 0, 1]))

/-- One pass of RFC 3394 unwrapping over the registers, the last register first: `regs` are paired with their step
numbers. -/
def kwUnwrapPass (ks : List Bytes) : List (Nat × Bytes) → Bytes → Bytes × List Bytes
  | [], a => (a, [])
  | (t, r) :: rest, a =>
    let b := aesDecKeys ks (xorBytes a (beBytes 8 t) ++ r)
    let (a', rs) := kwUnwrapPass ks rest (b.take 8)
    (a', b.drop 8 :: rs)

/-- The passes of RFC 3394 unwrapping, from pass `j - 1` down to 0; `rs` holds the registers last first. -/
def kwUnwrapPasses (ks : List Bytes) (n : Nat) : Nat → Bytes × List Bytes → Bytes × List Bytes
  | 0, x => x
  | j + 1, (a, rs) =>
    kwUnwrapPasses ks n j (kwUnwrapPass ks (((List.range n).map (fun i => n * j + (n - i))).zip rs) a)

/-- RFC 3394 key unwrap with the default initial value: the wrapped key, or none when its check fails. -/
def kwUnwrap (kek blob : Bytes) : Option Bytes :=
  let ps := pieces 8 blob
  if blob.length % 8 ≠ 0 ∨ ps.length < 3 then none
  else
    let (a, rs) := kwUnwrapPasses (aesKeys kek) (ps.length - 1) 6 (ps.headD [], ps.tail.reverse)
    if a == List.replicate 8 0xA6 then some rs.reverse.flatten else none

/-- One pass of RFC 3394 wrapping over the registers, the first register first. -/
def kwWrapPass (ks : List Bytes) : List (Nat × Bytes) → Bytes → Bytes × List Bytes
  | [], a => (a, [])
  | (t, r) :: rest, a =>
    let b := aesEncKeys ks (a ++ r)
    let (a', rs) := kwWrapPass ks rest (xorBytes (b.take 8) (beBytes 8 t))
    (a', b.drop 8 :: rs)

/-- The passes of RFC 3394 wrapping, `todo` of six left. -/
def kwWrapPasses (ks : List Bytes) (n : Nat) : Nat → Bytes × List Bytes → Bytes × List Bytes
  | 0, x => x
  | todo + 1, (a, rs) =>
    kwWrapPasses ks n todo (kwWrapPass ks (((List.range n).map (fun i => n * (5 - todo) + i + 1)).zip rs) a)

/-- RFC 3394 key wrap with the default initial value. -/
def kwWrap (kek key : Bytes) : Bytes :=
  let rs := pieces 8 key
  let (a, out) := kwWrapPasses (aesKeys kek) rs.length 6 (List.replicate 8 0xA6, rs)
  a ++ out.flatten

end Sys2Proof.Machine
end

