-- ==== Sys2Proof/Machine/ConfigSpace.lean ====
section
/-! DEFINITION. The writable fields of a function's configuration space (R559 to R564). The specification gives each
capability's offset and names its fields; where a field stands within its capability, and which bits software may
write, is the PCI Express Base Specification's. PRESUMED: the standard's layout (see the log). -/

namespace Sys2Proof.Machine

/-- Memory Space Enable (R561). -/
def CFG.MSE (fn : Nat) : Field := ⟨cfgSpace fn, 0x4, 1, 1, .rw, 0⟩
/-- Bus Master Enable (R560, R561). -/
def CFG.BME (fn : Nat) : Field := ⟨cfgSpace fn, 0x4, 2, 1, .rw, 0⟩
/-- Parity Error Response (R561). -/
def CFG.PERR (fn : Nat) : Field := ⟨cfgSpace fn, 0x4, 6, 1, .rw, 0⟩
/-- SERR# Enable (R561). -/
def CFG.SERR (fn : Nat) : Field := ⟨cfgSpace fn, 0x4, 8, 1, .rw, 0⟩
/-- Interrupt Disable (R561). -/
def CFG.INTD (fn : Nat) : Field := ⟨cfgSpace fn, 0x4, 10, 1, .rw, 0⟩
/-- Cache Line Size, no effect (R561). -/
def CFG.CLS (fn : Nat) : Field := ⟨cfgSpace fn, 0xc, 0, 8, .rw, 0⟩
/-- address bits of BAR0, 64 MiB (R561). -/
def CFG.BAR0 (fn : Nat) : Field := ⟨cfgSpace fn, 0x10, 26, 38, .rw, 0⟩
/-- address bits of BAR2 above its smallest size (R569). -/
def CFG.BAR2 (fn : Nat) : Field := ⟨cfgSpace fn, 0x18, 21, 43, .rw, 0⟩
/-- Expansion ROM enable (R570). -/
def CFG.ROM_EN (fn : Nat) : Field := ⟨cfgSpace fn, 0x30, 0, 1, .rw, 0⟩
/-- address bits of the Expansion ROM BAR (R570). -/
def CFG.ROM (fn : Nat) : Field := ⟨cfgSpace fn, 0x30, 20, 12, .rw, 0⟩
/-- Interrupt Line, no effect (R561). -/
def CFG.ILINE (fn : Nat) : Field := ⟨cfgSpace fn, 0x3c, 0, 8, .rw, 0⟩
/-- power state: 00b D0, 11b D3hot (R594). -/
def CFG.POWER (fn : Nat) : Field := ⟨cfgSpace fn, 0x44, 0, 2, .rw, 0⟩
/-- PME_En (R595). -/
def CFG.PME_EN (fn : Nat) : Field := ⟨cfgSpace fn, 0x44, 8, 1, .rw, 0⟩
/-- PME_Status. -/
def CFG.PME_ST (fn : Nat) : Field := ⟨cfgSpace fn, 0x44, 15, 1, .w1c, 0⟩
/-- MSI Enable (R574). -/
def CFG.MSI_EN (fn : Nat) : Field := ⟨cfgSpace fn, 0x50, 16, 1, .rw, 0⟩
/-- Multiple Message Enable (R574). -/
def CFG.MME (fn : Nat) : Field := ⟨cfgSpace fn, 0x50, 20, 3, .rw, 0⟩
/-- MSI address bits [31:2]. -/
def CFG.MSI_ADDR (fn : Nat) : Field := ⟨cfgSpace fn, 0x54, 2, 30, .rw, 0⟩
/-- MSI address bits [63:32]. -/
def CFG.MSI_HIGH (fn : Nat) : Field := ⟨cfgSpace fn, 0x58, 0, 32, .rw, 0⟩
/-- MSI data. -/
def CFG.MSI_DATA (fn : Nat) : Field := ⟨cfgSpace fn, 0x5c, 0, 16, .rw, 0⟩
/-- MSI Mask Bits. -/
def CFG.MSI_MASK (fn : Nat) : Field := ⟨cfgSpace fn, 0x60, 0, 32, .rw, 0⟩
/-- MSI Pending Bits. -/
def CFG.MSI_PEND (fn : Nat) : Field := ⟨cfgSpace fn, 0x64, 0, 32, .ro, 0⟩
/-- AER uncorrectable error status. -/
def CFG.AER_UNC (fn : Nat) : Field := ⟨cfgSpace fn, 0x104, 0, 32, .w1c, 0⟩
/-- AER uncorrectable error mask. -/
def CFG.AER_UMASK (fn : Nat) : Field := ⟨cfgSpace fn, 0x108, 0, 32, .rw, 0⟩
/-- AER correctable error status. -/
def CFG.AER_COR (fn : Nat) : Field := ⟨cfgSpace fn, 0x110, 0, 32, .w1c, 0⟩
/-- AER correctable error mask. -/
def CFG.AER_CMASK (fn : Nat) : Field := ⟨cfgSpace fn, 0x114, 0, 32, .rw, 0⟩
/-- VF Enable (R559). -/
def CFG.VF_EN (fn : Nat) : Field := ⟨cfgSpace fn, 0x198, 0, 1, .rw, 0⟩
/-- VF Memory Space Enable (R560). -/
def CFG.VF_MSE (fn : Nat) : Field := ⟨cfgSpace fn, 0x198, 3, 1, .rw, 0⟩
/-- ARI Capable Hierarchy. -/
def CFG.ARI (fn : Nat) : Field := ⟨cfgSpace fn, 0x198, 4, 1, .rw, 0⟩
/-- NumVFs (R559). -/
def CFG.NUMVFS (fn : Nat) : Field := ⟨cfgSpace fn, 0x1a0, 0, 16, .rw, 0⟩
/-- System Page Size. -/
def CFG.PAGE (fn : Nat) : Field := ⟨cfgSpace fn, 0x1b0, 0, 32, .rw, 1⟩
/-- address bits of VF BAR0, 1 MiB (R568). -/
def CFG.VFBAR0 (fn : Nat) : Field := ⟨cfgSpace fn, 0x1b4, 20, 44, .rw, 0⟩
/-- L1 PM Substates enables (R592). -/
def CFG.L1SS (fn : Nat) : Field := ⟨cfgSpace fn, 0x1e8, 0, 4, .rw, 0⟩

/-- The function is the PF of its endpoint (R54). -/
def isPf (fn : Nat) : Bool := fn % 256 == 0

/-- The endpoint of a function (R54). -/
def epOf (fn : Nat) : Nat := fn / 256

/-- Where the PCI Express capability of a function stands (R562, R563). -/
def pcieCap (fn : Nat) : Nat := if isPf fn then 0x80 else 0x40

/-- Where the MSI-X capability of a function stands (R562, R563). -/
def msixCap (fn : Nat) : Nat := if isPf fn then 0x70 else 0x80

/-- MSI-X Function Mask (R572). -/
def CFG.MSIX_MASK (fn : Nat) : Field := ⟨cfgSpace fn, msixCap fn, 30, 1, .rw, 0⟩
/-- MSI-X Enable (R574). -/
def CFG.MSIX_EN (fn : Nat) : Field := ⟨cfgSpace fn, msixCap fn, 31, 1, .rw, 0⟩
/-- The error reporting enables of Device Control. -/
def CFG.ERR_EN (fn : Nat) : Field := ⟨cfgSpace fn, pcieCap fn + 8, 0, 4, .rw, 0⟩
/-- Enable Relaxed Ordering (R575). -/
def CFG.ERO (fn : Nat) : Field := ⟨cfgSpace fn, pcieCap fn + 8, 4, 1, .rw, 1⟩
/-- Max_Payload_Size (R555). -/
def CFG.MPS (fn : Nat) : Field := ⟨cfgSpace fn, pcieCap fn + 8, 5, 3, .rw, 0⟩
/-- Max_Read_Request_Size (R555). -/
def CFG.MRRS (fn : Nat) : Field := ⟨cfgSpace fn, pcieCap fn + 8, 12, 3, .rw, 2⟩
/-- Initiate Function Level Reset: a trigger that reads 0 (R587). -/
def CFG.FLR (fn : Nat) : Field := ⟨cfgSpace fn, pcieCap fn + 8, 15, 1, .wo, 0⟩
/-- The error bits of Device Status. -/
def CFG.DEV_STATUS (fn : Nat) : Field := ⟨cfgSpace fn, pcieCap fn + 8, 16, 4, .w1c, 0⟩
/-- ASPM Control (R592). -/
def CFG.ASPM (fn : Nat) : Field := ⟨cfgSpace fn, pcieCap fn + 0x10, 0, 2, .rw, 0⟩
/-- Completion Timeout Value (R555). -/
def CFG.CTO (fn : Nat) : Field := ⟨cfgSpace fn, pcieCap fn + 0x28, 0, 4, .rw, 0⟩
/-- Completion Timeout Disable (R557). -/
def CFG.CTO_DIS (fn : Nat) : Field := ⟨cfgSpace fn, pcieCap fn + 0x28, 4, 1, .rw, 0⟩

/-! ### Selective IDE streams (R589): the registers of stream `i`, 0 to 7 -/

/-- Where the register block of a selective stream stands: five words, then three for each of its 2 address association blocks. -/
def ideBlock (i : Nat) : Nat := 0x30c + 44 * i

/-- Selective IDE Stream Enable. -/
def CFG.IDE_EN (fn i : Nat) : Field := ⟨cfgSpace fn, ideBlock i + 4, 0, 1, .rw, 0⟩
/-- Default Stream. -/
def CFG.IDE_DEFAULT (fn i : Nat) : Field := ⟨cfgSpace fn, ideBlock i + 4, 22, 1, .rw, 0⟩
/-- Stream ID. -/
def CFG.IDE_ID (fn i : Nat) : Field := ⟨cfgSpace fn, ideBlock i + 4, 24, 8, .rw, 0⟩
/-- RID Limit of the RID association block. -/
def CFG.IDE_RID_LIMIT (fn i : Nat) : Field := ⟨cfgSpace fn, ideBlock i + 0xc, 8, 16, .rw, 0⟩
/-- the RID association block is valid. -/
def CFG.IDE_RID_VALID (fn i : Nat) : Field := ⟨cfgSpace fn, ideBlock i + 0x10, 0, 1, .rw, 0⟩
/-- RID Base of the RID association block. -/
def CFG.IDE_RID_BASE (fn i : Nat) : Field := ⟨cfgSpace fn, ideBlock i + 0x10, 8, 16, .rw, 0⟩
/-- address association block `a`, 0 or 1, is valid. -/
def CFG.IDE_A_VALID (fn i a : Nat) : Field := ⟨cfgSpace fn, ideBlock i + 0x14 + 12 * a, 0, 1, .rw, 0⟩
/-- address bits [31:20] of the first MiB of address association block `a`. -/
def CFG.IDE_A_BASE (fn i a : Nat) : Field := ⟨cfgSpace fn, ideBlock i + 0x14 + 12 * a, 8, 12, .rw, 0⟩
/-- address bits [31:20] of the last MiB of address association block `a`. -/
def CFG.IDE_A_LIMIT (fn i a : Nat) : Field := ⟨cfgSpace fn, ideBlock i + 0x14 + 12 * a, 20, 12, .rw, 0⟩
/-- address bits [63:32] of the last MiB of address association block `a`. -/
def CFG.IDE_A_LIMIT_HI (fn i a : Nat) : Field := ⟨cfgSpace fn, ideBlock i + 0x18 + 12 * a, 0, 32, .rw, 0⟩
/-- address bits [63:32] of the first MiB of address association block `a`. -/
def CFG.IDE_A_BASE_HI (fn i a : Nat) : Field := ⟨cfgSpace fn, ideBlock i + 0x1c + 12 * a, 0, 32, .rw, 0⟩

/-- The fields of a PF's selective IDE streams. -/
def ideFields (fn : Nat) : List Field :=
  (List.range 8).flatMap fun i =>
    [CFG.IDE_EN fn i, CFG.IDE_DEFAULT fn i, CFG.IDE_ID fn i, CFG.IDE_RID_LIMIT fn i, CFG.IDE_RID_VALID fn i, CFG.IDE_RID_BASE fn i] ++
    (List.range 2).flatMap fun a =>
      [CFG.IDE_A_VALID fn i a, CFG.IDE_A_BASE fn i a, CFG.IDE_A_LIMIT fn i a, CFG.IDE_A_LIMIT_HI fn i a, CFG.IDE_A_BASE_HI fn i a]

/-- The fields of the configuration space of a function. -/
def cfgFields (fn : Nat) : List Field :=
  [CFG.MSIX_MASK fn, CFG.MSIX_EN fn, CFG.ERR_EN fn, CFG.ERO fn, CFG.MPS fn, CFG.MRRS fn, CFG.FLR fn,
    CFG.DEV_STATUS fn, CFG.ASPM fn, CFG.CTO fn, CFG.CTO_DIS fn] ++
  (if isPf fn then
    [CFG.MSE fn, CFG.BME fn, CFG.PERR fn, CFG.SERR fn, CFG.INTD fn, CFG.CLS fn,
      CFG.BAR0 fn, CFG.BAR2 fn, CFG.ROM_EN fn, CFG.ROM fn, CFG.ILINE fn, CFG.POWER fn,
      CFG.PME_EN fn, CFG.PME_ST fn, CFG.MSI_EN fn, CFG.MME fn, CFG.MSI_ADDR fn, CFG.MSI_HIGH fn,
      CFG.MSI_DATA fn, CFG.MSI_MASK fn, CFG.MSI_PEND fn, CFG.AER_UNC fn, CFG.AER_UMASK fn, CFG.AER_COR fn,
      CFG.AER_CMASK fn, CFG.VF_EN fn, CFG.VF_MSE fn, CFG.ARI fn, CFG.NUMVFS fn, CFG.PAGE fn,
      CFG.VFBAR0 fn, CFG.L1SS fn] ++ ideFields fn
  else [CFG.BME fn, CFG.AER_UNC fn, CFG.AER_COR fn])

/-- The VF exists: VF Enable of its PF is 1 and its number is at most NumVFs (R559). A PF always exists. -/
def Dev.fnExists (d : Dev) (fn : Nat) : Bool :=
  isPf fn || (d.is (CFG.VF_EN (256 * epOf fn)) && decide (fn % 256 ≤ d.rd (CFG.NUMVFS (256 * epOf fn))))

/-- The PF lets a virtual function issue requests: its VF Enable and VF Memory Space Enable are 1 (R560). -/
def Dev.vfAllowed (d : Dev) (fn : Nat) : Bool := isPf fn || (d.is (CFG.VF_EN (256 * epOf fn)) && d.is (CFG.VF_MSE (256 * epOf fn)))

/-! ### IDE (R589, R591) -/

/-- A stream of the endpoint is in use and in the Insecure state (R591). -/
def Dev.ideInsecure (d : Dev) (e i : Nat) : Bool :=
  d.is (CFG.IDE_EN (256 * e) i) && !((tget (d.ep e).ide i).any (·.secure))

/-- The RID association block of a stream covers a function. PRESUMED: what tells the functions of an endpoint apart is the function part. -/
def Dev.ideRid (d : Dev) (fn i : Nat) : Bool :=
  let pf := 256 * epOf fn
  d.is (CFG.IDE_RID_VALID pf i) && decide (d.rd (CFG.IDE_RID_BASE pf i) % 256 ≤ fn % 256 ∧ fn % 256 ≤ d.rd (CFG.IDE_RID_LIMIT pf i) % 256)

/-- An address association block of a stream holds a host address. -/
def Dev.ideAddr (d : Dev) (fn i a addr : Nat) : Bool :=
  let pf := 256 * epOf fn
  let base := d.rd (CFG.IDE_A_BASE_HI pf i a) * 2 ^ 12 + d.rd (CFG.IDE_A_BASE pf i a)
  let limit := d.rd (CFG.IDE_A_LIMIT_HI pf i a) * 2 ^ 12 + d.rd (CFG.IDE_A_LIMIT pf i a)
  d.is (CFG.IDE_A_VALID pf i a) && decide (base ≤ addr / 2 ^ 20 ∧ addr / 2 ^ 20 ≤ limit)

/-- A request of a function to a host address would travel on an Insecure stream (R591). PRESUMED: a stream carries it when it is the
endpoint's Default Stream, or one of its association blocks covers the function or the address. -/
def Dev.ideBlocks (d : Dev) (fn addr : Nat) : Bool :=
  (List.range 8).any fun i => d.ideInsecure (epOf fn) i &&
    (d.is (CFG.IDE_DEFAULT (256 * epOf fn) i) || d.ideRid fn i || d.ideAddr fn i 0 addr || d.ideAddr fn i 1 addr)

/-- No stream of the function's endpoint that is in use is Insecure. -/
def Dev.ideClear (d : Dev) (fn : Nat) : Bool := (List.range 8).all fun i => !d.ideInsecure (epOf fn) i

/-- What goes to a host may leave: it would not travel on an Insecure stream (R591). -/
def Dev.leaves (d : Dev) (o : Out) : Bool :=
  match o with
  | .hostWrite fn addr _ _ | .lendWrite fn addr _ | .hostRead fn addr _ _ _ | .msi fn _ addr _ => !d.ideBlocks fn addr
  | _ => true

/-- Requests sent to a host in order; those that would travel on an Insecure stream are not sent (R591), and the reads among them count as
completion timeouts (COMPLETION_TIMEOUT). -/
def Dev.asks (d : Dev) (os : List Out) : Dev := d.emits (os.filter d.leaves)

/-- A request sent to a host (R591). -/
def Dev.ask (d : Dev) (o : Out) : Dev := d.asks [o]

/-- The function may issue no request, so that what it would write is held (R560, R580, R594, R595). -/
def Dev.holding (d : Dev) (fn : Nat) : Bool :=
  !d.is (CFG.BME fn) || !d.vfAllowed fn || (d.fn fn).d3 || (d.ep (epOf fn)).perst

end Sys2Proof.Machine
end

