-- ==== Sys2Proof/Machine/Flags.lean ====
section
/-! DEFINITION. The status codes of completions and events (R88), and the event codes of the event ring (R772). A status
is class × 256 + code. -/

namespace Sys2Proof.Machine

/-- The status codes of R88. -/
def stSuccess : Nat := 0x0000
def stDivergentServed : Nat := 0x0001
def stRepaired : Nat := 0x0002
def stInvalidOpcode : Nat := 0x0101
def stInvalidField : Nat := 0x0102
def stInvalidNamespace : Nat := 0x0103
def stLbaOutOfRange : Nat := 0x0104
def stTransferTooLarge : Nat := 0x0105
def stDataPointer : Nat := 0x0106
def stHostMemory : Nat := 0x0107
def stNotPermitted : Nat := 0x0108
def stInternal : Nat := 0x0109
def stNamespaceBusy : Nat := 0x010A
def stCapacity : Nat := 0x010B
def stWriteProtected : Nat := 0x010C
def stActivation : Nat := 0x010D
def stCompareFailed : Nat := 0x010E
def stUnrecovered : Nat := 0x0201
def stWriteFault : Nat := 0x0202
def stPoolOffline : Nat := 0x0203
def stDivergent : Nat := 0x0301
def stTrailer : Nat := 0x0302
def stCheckValue : Nat := 0x0303
def stTagMismatch : Nat := 0x0304
def stDivergentStripe : Nat := 0x0305
def stGroupUnknown : Nat := 0x0401
def stGroupMembers : Nat := 0x0402
def stGroupPayload : Nat := 0x0403
def stGroupOpenLimit : Nat := 0x0404
def stGroupDiscarded : Nat := 0x0405
def stGroupTimeout : Nat := 0x0406
def stGroupTagInUse : Nat := 0x0407
def stGroupSealed : Nat := 0x0408
def stGroupMemberFailed : Nat := 0x0409
def stPathFenced : Nat := 0x0501
def stSwapCollided : Nat := 0x0502
def stTwinUnavailable : Nat := 0x0503
def stKeyEmpty : Nat := 0x0601
def stUnwrapFailed : Nat := 0x0602
def stNonceExhausted : Nat := 0x0603
def stCipherCompare : Nat := 0x0604
def stAuthFailed : Nat := 0x0605
def stKeyNotOwned : Nat := 0x0606
def stZeroized : Nat := 0x0607
def stMaintConflict : Nat := 0x0701
def stMaintMargin : Nat := 0x0702
def stMaintUnknown : Nat := 0x0703
def stNotDivergent : Nat := 0x0704
def stDiagFailed : Nat := 0x0705
def stQueueNotHeld : Nat := 0x0801
def stQueueExists : Nat := 0x0802
def stQueueAbsent : Nat := 0x0803
def stDuplicateTag : Nat := 0x0804
def stClassALimit : Nat := 0x0805
def stRingInvalid : Nat := 0x0806
def stVectorInvalid : Nat := 0x0807
def stBlockInUse : Nat := 0x0808

/-- The event-only codes of R88. -/
def evSqTail : Nat := 0x0810
def evCqHead : Nat := 0x0811
def evNoQueue : Nat := 0x0812
def evDoorbellSize : Nat := 0x0813
def evRingFetch : Nat := 0x0814
def evClassA : Nat := 0x0815

/-- The event codes of R772. -/
def evModeChange : Nat := 0x0101
def evPeerDown : Nat := 0x0102
def evSchDegraded : Nat := 0x0103
def evWedged : Nat := 0x0104
def evPoolOnline : Nat := 0x0201
def evPoolOffline : Nat := 0x0202
def evMember : Nat := 0x0203
def evLostStripe : Nat := 0x0204
def evScrubLate : Nat := 0x0205
def evActivity : Nat := 0x0206
def evCapacity : Nat := 0x0207
def evFailover : Nat := 0x0301
def evSnowbridge : Nat := 0x0302
def evWitness : Nat := 0x0303
def evDrive : Nat := 0x0401
def evHoldup : Nat := 0x0501
def evNonceWarn : Nat := 0x0601
def evGroupTimeout : Nat := 0x0602
def evStreamStopped : Nat := 0x0603
def evEventsLost : Nat := 0x0701
def evLedgerStorm : Nat := 0x0702

/-- A status that a completion may carry (R88): the codes marked "event only" and those not listed never do. -/
def statusListed (st : Nat) : Bool :=
  let top := [2, 0xE, 3, 5, 9, 3, 7, 5, 8].getD (st / 256) 0
  decide (st % 256 ≤ top) && (st / 256 == 0 || decide (1 ≤ st % 256)) && decide (st < 0x900)

/-- A status of class 00h is no error (R88). -/
def okStatus (st : Nat) : Bool := st < 256

end Sys2Proof.Machine
end

