-- ==== Sys2Proof/Machine/Post.lean ====
section
/-! DEFINITION. What reaches a host: interrupt messages (R571 to R574), completion entries (R79 to R82, R96, R115 to
R118), event entries (R767 to R771) and read data, each held while its function may not master the bus (R580 to R583). -/

namespace Sys2Proof.Machine

/-! ### Interrupt messages -/

/-- An entry of a function's MSI-X table; every entry is masked until it is written (R571). -/
def Fn.vec (f : Fn) (v : Nat) : MsixEntry := (tget f.msix v).getD ⟨0, 0, true⟩

/-- A vector's pending bit set (R572). -/
def Fn.pendVec (f : Fn) (v : Nat) : Fn := { f with pend := if f.pend.contains v then f.pend else f.pend ++ [v] }

/-- What the function sends waits: it may not master the bus, or held results are still being delivered, which go first (R580, R582). -/
def Dev.sendsWait (d : Dev) (fn : Nat) : Bool := d.holding fn || !(d.fn fn).hold.isEmpty

/-- A trigger of a vector (R572, R574). While the function's sends wait the vector is left pending (R580, R582). -/
def trigger (fn v : Nat) (d : Dev) : Dev :=
  if d.is (CFG.MSIX_EN fn) then
    let e := (d.fn fn).vec v
    if e.masked || d.is (CFG.MSIX_MASK fn) || d.sendsWait fn then d.modFn fn (·.pendVec v)
    else d.ask (.msi fn v e.addr e.data)
  else if isPf fn && d.is (CFG.MSI_EN fn) then
    let n := v % 2 ^ d.rd (CFG.MME fn)
    if bit (d.rd (CFG.MSI_MASK fn)) n || d.sendsWait fn then d.putBit (CFG.MSI_PEND fn) n true
    else d.ask (.msi fn n (d.rd (CFG.MSI_ADDR fn) * 4 + d.rd (CFG.MSI_HIGH fn) * 2 ^ 32) (d.rd (CFG.MSI_DATA fn) + n))
  else d

/-- A pending vector that is no longer masked sends one message and its bit clears (R572). -/
def sendPending (fn v : Nat) (d : Dev) : Dev :=
  if (d.fn fn).pend.contains v && d.is (CFG.MSIX_EN fn) && !((d.fn fn).vec v).masked && !d.is (CFG.MSIX_MASK fn)
      && !d.sendsWait fn then
    (d.modFn fn fun f => { f with pend := without f.pend v }).ask
      (.msi fn v ((d.fn fn).vec v).addr ((d.fn fn).vec v).data)
  else d

/-- A pending MSI message whose mask bit is 0 is sent and its bit clears (R574). -/
def sendPendingMsi (fn n : Nat) (d : Dev) : Dev :=
  if bit (d.rd (CFG.MSI_PEND fn)) n && d.is (CFG.MSI_EN fn) && !d.is (CFG.MSIX_EN fn) && !bit (d.rd (CFG.MSI_MASK fn)) n
      && !d.sendsWait fn then
    (d.putBit (CFG.MSI_PEND fn) n false).ask
      (.msi fn n (d.rd (CFG.MSI_ADDR fn) * 4 + d.rd (CFG.MSI_HIGH fn) * 2 ^ 32) (d.rd (CFG.MSI_DATA fn) + n))
  else d

/-- Every pending vector of a function that may be sent. -/
def sendAllPending (fn : Nat) (d : Dev) : Dev :=
  ((d.each (d.fn fn).pend fun d v => sendPending fn v d)).when (isPf fn)
    (fun d => d.each (List.range 32) fun d n => sendPendingMsi fn n d)

/-! ### Event entries -/

/-- An index one further on a ring, and the phase, which inverts at the wrap to 0 (R61, R80). -/
def ringNext (depth i : Nat) (phase : Bool) : Nat × Bool := if i + 1 = depth then (0, !phase) else (i + 1, phase)

/-- The event entry's bytes (R767). -/
def Event.bytes (e : Event) (phase : Bool) : Bytes :=
  leBytes 8 e.data ++ leBytes 4 e.source ++ leBytes 2 e.code ++ leBytes 1 (b2n phase) ++ leBytes 1 e.etype

/-- A function's event ring cannot take an entry: it is not set, or full under R116 against RNG_EV_HEAD (R768). -/
def Dev.evFull (d : Dev) (fn : Nat) : Bool :=
  let r := (d.fn fn).ev
  !r.set || (r.tail + 1) % r.depth == d.rd (RNG_EV_HEAD.HEAD fn)

/-- Writes an event entry into a ring that has room and signals its vector (R768). -/
def writeEvent (fn : Nat) (e : Event) (d : Dev) : Dev :=
  let r := (d.fn fn).ev
  let nx := ringNext r.depth r.tail r.phase
  trigger fn r.vector
    ((d.ask (.hostWrite fn (r.base + 16 * r.tail) (e.bytes r.phase) false)).modFn fn fun f =>
      { f with ev := { f.ev with tail := nx.1, phase := nx.2 } })

/-- An event meets a function's ring: written, held up to 256, or lost (R771). -/
def ringEvent (fn : Nat) (e : Event) (d : Dev) : Dev :=
  let r := (d.fn fn).ev
  if r.held.isEmpty && r.lostSince == 0 && !d.evFull fn then writeEvent fn e d
  else if r.held.length < 256 then d.modFn fn fun f => { f with ev := { f.ev with held := f.ev.held ++ [e] } }
  else (d.modFn fn fun f => { f with ev := { f.ev with lostSince := f.ev.lostSince + 1 } }).bump (RNG_EV_LOST.LOST fn) 1

/-- A PME is reported for an event that becomes ready in D3hot, and WAKE# asserted in D3cold (R595). -/
def pmeFor (fn : Nat) (d : Dev) : Dev :=
  if !d.is (CFG.PME_EN fn) then d
  else if (d.ep (epOf fn)).perst then (d.modEp (epOf fn) fun e => { e with wake := true }).emit (.pin "WAKE#" false)
  else if (d.fn fn).d3 then (d.set (CFG.PME_ST fn)).emit (.pme fn)
  else d

/-- Posts an event to a function (R768, R771): held with the function's other results while it may not write. -/
def postEvent (fn : Nat) (e : Event) (d : Dev) : Dev :=
  if d.sendsWait fn then
    pmeFor fn (d.modFn fn fun f => { f with hold := f.hold ++ [.event e] })
  else ringEvent fn e d

/-- A queue event of R88 to the function that owns the queue (R769). -/
def queueEvent (fn q code data : Nat) (d : Dev) : Dev := postEvent fn ⟨data, q, code, 1⟩ d

/-- CLASS_A_EXCEEDED (R114): a function whose class A work broke a condition of R113 is told once per millisecond. -/
def classAExceeded (fn q : Nat) (d : Dev) : Dev :=
  let due := match tget d.rings.exceeded fn with
    | none => true
    | some t => decide (t + ms ≤ d.tbHost)
  if d.rings.classAEv.contains fn && due then
    queueEvent fn q evClassA 0 (d.modRings fun r => { r with exceeded := tput r.exceeded fn d.tbHost })
  else d

/-- Class A work of a queue breaks a condition of R113: its function is told (R114). -/
def classABroken (qi : Nat) (d : Dev) : Dev :=
  match d.queue qi with
  | none => d
  | some q => if q.cls == 0 && !q.admin then classAExceeded q.fn qi d else d

/-- A failover window or a firmware activation meets the class A commands outstanding (condition 5 of R113). -/
def classAWindow (d : Dev) : Dev :=
  d.each (d.rings.queues.filter fun e => !e.2.cmds.isEmpty) fun d e => classABroken e.1 d

/-! ### Completion entries -/

/-- A completion ring is full (R116). -/
def Queue.cqFull (q : Queue) : Bool := (q.cqTail + 1) % q.depth == q.cqHead

/-- The completion entry's bytes (R79). -/
def Cqe.bytes (e : Cqe) (sqHead : Nat) (phase : Bool) : Bytes :=
  leBytes 8 e.result ++ leBytes 2 sqHead ++ leBytes 2 e.tag ++ leBytes 2 e.status ++ leBytes 1 (b2n phase) ++ [0]

/-- The queue pair of an outstanding packet fetch: `rings.fetches` keeps queue + 2^20 × ring index by fetch order. -/
def fetchQueue (v : Nat) : Nat := v % 2 ^ 20

/-- The submission head of a queue as completions report it: the entry of its oldest fetch still outstanding, or the next
entry to fetch (R79, R814). -/
def Dev.sqHeadOf (d : Dev) (qi : Nat) (q : Queue) : Nat :=
  match d.rings.fetches.find? fun f => fetchQueue f.2 == qi with
  | some f => f.2 / 2 ^ 20
  | none => q.sqHead

/-- Signals the queue's vector for the completions not yet signalled (R96). -/
def signalQueue (qi : Nat) (d : Dev) : Dev :=
  match d.queue qi with
  | none => d
  | some q => if q.unsig = 0 then d else trigger q.fn q.vector (d.modQ qi fun q => { q with unsig := 0 })

/-- The completion of a QUEUE_RESET is posted, or lost with its own queue: the queue pair takes doorbells and fetches again (R97, R99). -/
def Dev.endReset (d : Dev) (frees : Option Nat) : Dev :=
  match frees with
  | none => d
  | some q => d.modQ q fun x => { x with reset := none, error := false }

/-- Writes a completion entry into a ring that has room, and counts it for the vector (R80, R96). -/
def writeCqe (qi : Nat) (e : Cqe) (d : Dev) : Dev :=
  match d.queue qi with
  | none => d
  | some q =>
    let nx := ringNext q.depth q.cqTail q.phase
    let d := (d.ask (.hostWrite q.fn (q.cqBase + 16 * q.cqTail) (e.bytes (d.sqHeadOf qi q) q.phase) false)).endReset e.frees
    let d := d.modQ qi fun q => { q with
      cqTail := nx.1, phase := nx.2, unsig := if q.irq then q.unsig + 1 else 0,
      firstUnsig := if q.unsig = 0 then d.tbHost else q.firstUnsig }
    d.when (q.irq && ((q.coalN == 0 && q.coalT == 0) || (q.coalN != 0 && decide (q.coalN ≤ q.unsig + 1)))) (signalQueue qi)

/-- Held completions of a queue that a function holds (R580). -/
def Fn.heldOf (f : Fn) (qi : Nat) : Nat :=
  (f.hold.filter fun i => match i with
    | .cqe q _ => q == qi
    | _ => false).length

/-- The completion ring has no free entry for a completion that becomes ready now: those held before it take theirs (R113 item 3, R116,
R117). -/
def Queue.noEntry (q : Queue) (f : Fn) (qi : Nat) : Bool :=
  decide (q.depth - 1 ≤ (q.cqTail + q.depth - q.cqHead) % q.depth + q.held.length + f.heldOf qi)

/-- Posts a completion: it joins the function's held results while the function's sends wait (R580, R582), the queue's held
completions while the ring is full or others are held (R116, R117), or else it is written. A class A completion without a free entry breaks
condition 3 of R113. -/
def postCqe (qi : Nat) (e : Cqe) (d : Dev) : Dev :=
  match d.queue qi with
  | none => d
  | some q =>
    let d' := if d.sendsWait q.fn then d.modFn q.fn fun f => { f with hold := f.hold ++ [.cqe qi e] }
      else if q.cqFull || !q.held.isEmpty then d.modQ qi fun q => { q with held := q.held ++ [e] }
      else writeCqe qi e d
    d'.when (q.noEntry (d.fn q.fn) qi) (classABroken qi)

/-- Held completions of a queue go into the ring while it has room, oldest first (R117). -/
def drainHeld : Nat → Nat → Dev → Dev
  | 0, _, d => d
  | fuel + 1, qi, d =>
    match d.queue qi with
    | none => d
    | some q =>
      match q.held with
      | [] => d
      | e :: rest =>
        if q.cqFull || d.holding q.fn then d
        else drainHeld fuel qi (writeCqe qi e (d.modQ qi fun q => { q with held := rest }))

/-- A member that completes with an error status marks its group as failed (R320): MEMBER is bit 3 of FLAGS and the group tag
stands in GROUP_OR_SNAP. -/
def noteMember (fn qi tag status : Nat) (c : Cmd) (d : Dev) : Dev :=
  if !c.pkt.getLsbD 11 || okStatus status then d
  else
    let g := bits c.pkt.toNat 64 64
    let fail (m : Member) : Member := if m.q = qi ∧ m.tag = tag ∧ m.order = c.order then { m with failed := true } else m
    d.modFirn fun x => { x with groups := x.groups.map fun y =>
      if y.fn = fn ∧ y.tag = g then { y with failed := true, members := y.members.map fail } else y }

/-- An apply that completes leaves its stream's list; one that failed returns the expected SEQ to its own, and every apply of the stream fetched
before then fails with it (R487, R488). -/
def noteApply (qi tag status : Nat) (c : Cmd) (d : Dev) : Dev :=
  if bits c.pkt.toNat 0 8 ≠ 0x52 then d
  else
    let sid := bits c.pkt.toNat 384 32
    match (tget d.streams sid).bind fun s => s.applies.find? fun a => a.1 == qi && a.2.1 == tag with
    | none => d
    | some a =>
      let order := d.rings.order
      let good := okStatus status
      let d := d.modStream sid fun s => { s with
        applies := s.applies.filter fun x => !(x.1 == qi && x.2.1 == tag)
        seq := if good then s.seq else a.2.2
        failFrom := if good then s.failFrom else some order }
      if good then d.bump VRV_CNT_MSG_APPLIED.COUNT 1 else if status = stAuthFailed then d.bump VRV_CNT_AUTH_FAIL.COUNT 1 else d

/-- Completes a fetched command: it leaves its queue and its completion is posted, unless a queue reset took it over, in
which case it ends without one (R97). A tag that is not outstanding changes nothing. `frees` is the queue pair whose reset the command
ends (R99). -/
def completeFreeing (frees : Option Nat) (qi tag status result : Nat) (d : Dev) : Dev :=
  match (d.queue qi).bind (·.cmd tag) with
  | none => d.endReset frees
  | some c =>
    let fn := ((d.queue qi).map (·.fn)).getD 0
    let d := d.modQ qi fun q => { q with cmds := q.cmds.filter fun x => bits x.pkt.toNat 16 16 != tag }
    let d := (noteApply qi tag status c (noteMember fn qi tag status c d)).dropCtx qi tag
    if c.stage = .orphan ∨ c.silent then d.endReset frees
    else postCqe qi ⟨c.order, result, tag, status, frees⟩ d

/-- Completes a fetched command. -/
def complete (qi tag status result : Nat) (d : Dev) : Dev := completeFreeing none qi tag status result d

/-- A command completed without a result. -/
def failCmd (qi tag status : Nat) (d : Dev) : Dev := complete qi tag status 0 d

/-! ### Held event entries, and whom an event goes to -/

/-- A head write frees space: the held events go first, then one EVENTS_LOST entry when events were lost (R771). -/
def drainEvents : Nat → Nat → Dev → Dev
  | 0, _, d => d
  | fuel + 1, fn, d =>
    let r := (d.fn fn).ev
    if d.evFull fn || d.holding fn then d
    else match r.held with
      | e :: rest => drainEvents fuel fn (writeEvent fn e (d.modFn fn fun f => { f with ev := { f.ev with held := rest } }))
      | [] =>
        if r.lostSince = 0 then d
        else writeEvent fn ⟨r.lostSince % 2 ^ 32, 0, evEventsLost, 4⟩
          (d.modFn fn fun f => { f with ev := { f.ev with lostSince := 0 } })

/-- A device event or a fault event goes to the event ring of every PF of the module (R769). -/
def postToPfs (e : Event) (d : Dev) : Dev := d.each [0, 256, 512, 768] fun d fn => postEvent fn e d

/-- A device event of R772. -/
def devEvent (code data : Nat) (d : Dev) : Dev := postToPfs ⟨data, 0, code, 2⟩ d

/-- A function event of R772. -/
def fnEvent (fn code data : Nat) (d : Dev) : Dev := postEvent fn ⟨data, 0, code, 4⟩ d

/-- An uncorrectable error that AER reports for a function, by its bit of the standard's status register (R579, R591). -/
def aerUnc (fn n : Nat) (d : Dev) : Dev :=
  let d := d.putBit (CFG.AER_UNC fn) n true
  d.when (!bit (d.rd (CFG.AER_UMASK fn)) n) fun d => d.emit (.aer fn n)

/-- A correctable error that AER reports for a function. -/
def aerCor (fn n : Nat) (d : Dev) : Dev :=
  let d := d.putBit (CFG.AER_COR fn) n true
  d.when (!bit (d.rd (CFG.AER_CMASK fn)) n) fun d => d.emit (.aer fn n)

/-- Uncorrectable Internal Error and Corrected Internal Error of the PF of each endpoint (R579). -/
def internalError (d : Dev) : Dev := d.each [0, 256, 512, 768] fun d fn => aerUnc fn 22 d
def correctedError (d : Dev) : Dev := d.each [0, 256, 512, 768] fun d fn => aerCor fn 14 d

/-! ### Read data and delivery -/

/-- Read data that a function holds (R581). -/
def Fn.heldBytes (f : Fn) : Nat :=
  f.hold.foldl (fun n i => match i with | .data _ _ _ b _ => n + b.length | _ => n) 0

/-- Read data held in the module-wide hold pool (R581, R600). -/
def Dev.poolBytes (d : Dev) : Nat := d.fns.foldl (fun n f => n + f.2.heldBytes) 0

/-- The largest payload of a function's write requests (R555). PRESUMED, the standard's: a VF's own field is unused and its PF's applies. -/
def Dev.maxPayload (d : Dev) (fn : Nat) : Nat := 128 * 2 ^ d.rd (CFG.MPS (256 * epOf fn))

/-- The largest of a function's read requests (R555), likewise. -/
def Dev.maxRead (d : Dev) (fn : Nat) : Nat := 128 * 2 ^ d.rd (CFG.MRRS (256 * epOf fn))

/-- A completion that a function held: it goes into the ring, or behind the queue's own held completions (R117). -/
def deliverCqe (qi : Nat) (e : Cqe) (d : Dev) : Dev :=
  match d.queue qi with
  | none => d.endReset e.frees
  | some x => if x.cqFull || !x.held.isEmpty then d.modQ qi fun x => { x with held := x.held ++ [e] } else writeCqe qi e d

/-- A queue of the function that holds completions and whose ring has room again: these became ready before what the function holds. -/
def Dev.roomy (d : Dev) (fn : Nat) : Option Nat :=
  (d.rings.queues.find? fun e => e.2.fn == fn && !e.2.held.isEmpty && !e.2.cqFull).map (·.1)

/-- Delivery of a function's results is under way (R582). -/
def Dev.delivers (d : Dev) (fn : Nat) : Bool := !d.holding fn && (!(d.fn fn).hold.isEmpty || (d.roomy fn).isSome)

/-- One memory write request of a delivery (R583): a completion entry, an event entry, or at most Max Payload Size of a read's data. What is
not written stays at the front. -/
def deliverWrite (fn : Nat) (d : Dev) : Dev :=
  match d.roomy fn with
  | some qi => drainHeld 1 qi d
  | none =>
    let next (d : Dev) : Dev := d.modFn fn fun f => { f with hold := f.hold.drop 1 }
    match (d.fn fn).hold with
    | [] => d
    | .data q tag addr b ro :: rest =>
      let n := d.maxPayload fn
      (d.ask (.hostWrite fn addr (b.take n) ro)).modFn fn fun f =>
        { f with hold := if b.length ≤ n then rest else .data q tag (addr + n) (b.drop n) ro :: rest }
    | .cqe q e :: _ => next (deliverCqe q e d)
    | .event e :: _ => next (ringEvent fn e d)

/-- The class in which the function's next delivery passes the endpoint write arbiter (R582): that of its queue. DESIGN CHOICE: an event
entry, which belongs to no queue, goes in class B, as the function's admin queue would. -/
def Dev.deliverClass (d : Dev) (fn : Nat) : Nat :=
  let cls (q : Nat) : Nat := ((d.queue q).map (·.cls)).getD 1
  match d.roomy fn, (d.fn fn).hold with
  | some q, _ => cls q
  | none, .data q _ _ _ _ :: _ => cls q
  | none, .cqe q _ :: _ => cls q
  | none, _ => 1

/-- The pieces of a data buffer: each segment's address with the bytes that fall into it. -/
def scatter : List (Nat × Nat) → Bytes → List (Nat × Bytes)
  | [], _ => []
  | (a, n) :: t, b => if b.isEmpty then [] else (a, b.take n) :: scatter t (b.drop n)

/-- A buffer in requests of at most `n` bytes. The first argument bounds how many. -/
def requests (n : Nat) : Nat → Nat → Bytes → List (Nat × Bytes)
  | 0, _, _ => []
  | fuel + 1, a, b => if b.isEmpty then [] else (a, b.take n) :: requests n fuel (a + n) (b.drop n)

/-- A read's data written to its segments in requests of at most Max Payload Size, or held against the hold budget of 64 MiB and the pool of
4 GiB while the function's sends wait; `false` when it would take either past its limit and was discarded (R580 to R582). -/
def sendData (fn q tag : Nat) (segs : List (Nat × Nat)) (b : Bytes) (ro : Bool) (d : Dev) : Dev × Bool :=
  let parts := scatter segs b
  if !d.sendsWait fn then
    (d.asks ((parts.flatMap fun p => requests (d.maxPayload fn) p.2.length p.1 p.2).map fun p => .hostWrite fn p.1 p.2 ro), true)
  else if (d.fn fn).heldBytes + b.length > 64 * 2 ^ 20 || d.poolBytes + b.length > 4 * 2 ^ 30 then
    ((d.modFn fn fun f => { f with holdOver := true }).bump (EPX_CNT_HOLD_FAIL.COUNT (epOf fn)) 1, false)
  else (d.modFn fn fun f => { f with hold := f.hold ++ parts.map fun p => .data q tag p.1 p.2 ro }, true)

/-- The address and length of each request of at most `n` bytes that reads a segment. The first argument bounds how many. -/
def readPieces (n : Nat) : Nat → Nat → Nat → List (Nat × Nat)
  | 0, _, _ => []
  | fuel + 1, a, len => if len = 0 then [] else (a, min n len) :: readPieces n fuel (a + n) (len - n)

/-- The module reads a command's data from host memory (R575): requests of at most Max Read Request Size over its segments. Only the data
reads of a write command carry Relaxed Ordering, and only where R73 and the function's Device Control permit it. -/
def readHost (q : Nat) (qu : Queue) (c : Cmd) (d : Dev) : Dev :=
  let ro := bit (bits c.pkt.toNat 8 8) 4 && qu.ro && d.is (CFG.ERO qu.fn) && [1, 6].contains (bits c.pkt.toNat 0 8)
  d.asks ((c.segs.flatMap fun s => readPieces (d.maxRead qu.fn) s.2 s.1 s.2).map fun r =>
    .hostRead qu.fn r.1 r.2 (.dataRead q (bits c.pkt.toNat 16 16)) ro)

end Sys2Proof.Machine
end

