-- ==== Sys2Proof/Machine/Keys.lean ====
section
/-! DEFINITION. Key slots (R193 to R195) and the nonce counters of encrypting slots (R208 to R213). -/

namespace Sys2Proof.Machine

/-- An empty key slot. -/
def KeySlot.empty : KeySlot := ⟨0, 0, [], 0, 0, 0, false, false, none⟩

/-- A key slot. -/
def Dev.slot (d : Dev) (n : Nat) : KeySlot := (tget d.rime.slots n).getD KeySlot.empty

/-- A key slot changed; an empty slot has no entry. -/
def Dev.modSlot (d : Dev) (n : Nat) (f : KeySlot → KeySlot) : Dev :=
  let k := f (d.slot n)
  d.modRime fun r => { r with slots := if k = KeySlot.empty then tdel r.slots n else tput r.slots n k }

/-- The slot number of the link key (R193). -/
def linkSlot : Nat := 4095

/-- The key type that a slot holds (R193): 0 for a reserved slot. -/
def slotType (n : Nat) : Nat :=
  if n < 2048 then 1 + n % 2 else if n ≤ 4087 then 3 else if n = linkSlot then 4 else 0

/-- The function that owns a slot, where one does (R193, R195); the module's slot has none. -/
def Dev.slotOwner (d : Dev) (n : Nat) : Option Nat :=
  if n < 2048 then some (n / 2)
  else if n ≤ 4087 then (if (d.slot n).type = 0 then none else some (d.slot n).owner)
  else none

/-- The function may address the slot (R194). An empty stream-key slot has no owner and may be addressed by any function
(R195). -/
def Dev.mayAddress (d : Dev) (fn n : Nat) : Bool :=
  if n = linkSlot then fn == 0
  else if 4088 ≤ n then false
  else match d.slotOwner n with
    | none => true
    | some o => o == fn || (isPf fn && epOf o == epOf fn)

/-- SIDE_SEL of the module: 0 Twin A, 1 Twin B. -/
def Dev.twinSide (d : Dev) : Nat := (tget d.straps 0).getD 0

/-- A slot that encrypts takes its next counter value, when its lease holds one and it is not exhausted (R210, R212);
passing the mark of R213 sets NONCE_WARN and tells the slot's owner. The value carries the twin in bit 63. -/
def takeCounter (n : Nat) (d : Dev) : Option Nat × Dev :=
  let k := d.slot n
  if k.exhausted || k.left = 0 then (none, d)
  else
    let nx := k.ctr + 1
    let warn := !k.warned && decide (2 ^ 62 < nx)
    let d := d.modSlot n fun k => { k with
      ctr := nx, left := k.left - 1, exhausted := decide (nx = 2 ^ 63 - 1), warned := k.warned || warn }
    let d := d.when warn fun d => fnEvent ((d.slotOwner n).getD 0) evNonceWarn n (d.set RIM_STATUS.NONCE_WARN)
    (some (2 ^ 63 * d.twinSide + k.ctr), d)

/-- The DRBG takes new entropy (R226). -/
def reseed (d : Dev) : Dev := d.modRime fun r => { r with requests := 0, reseedDue := false, drbg := r.drbg + 1 }

/-- The DRBG serves requests (R226); at 2^20 it reseeds, or the reseed falls due where the source has failed (R227). DESIGN CHOICE: a request is
one draw of mask bits, for a block or a key-schedule pass, one cache seed or one SAVE_SERIAL (see the log). -/
def drbgServe (n : Nat) (d : Dev) : Dev :=
  let d := d.modRime fun r => { r with requests := r.requests + n }
  if d.rime.requests < 2 ^ 20 then d
  else if d.is RIM_STATUS.ENTROPY_OK then reseed d
  else d.modRime fun r => { r with reseedDue := true }

/-- The requests that a computation over `len` bytes makes on both copies, for each of its attempts. -/
def cipherRequests (len attempts : Nat) : Nat := attempts * ((len + 15) / 16 + 1)

/-- The initialisation vector of a message (R208). -/
def gcmIv (stream ctr : Nat) : Bytes := beBytes 4 stream ++ beBytes 8 ctr

end Sys2Proof.Machine
end

