-- ==== Sys2Proof/Machine/Link.lean ====
section
/-! DEFINITION. What the two links' transmitters do (R244 to R257, R505 to R508): messages cut into frames, frames placed
on lanes in rotation, and held for replay. -/

namespace Sys2Proof.Machine

/-- No queue pair (R250). -/
def noQueue : Nat := 0xFFFFFFFF

/-- Class and MTYPE of a message kind (R251, R508). -/
def kindCode : Kind → Nat × Nat
  | .writePayload => (1, 1)
  | .readPayload => (1, 2)
  | .writeEnvelope => (2, 1)
  | .newChunk => (2, 2)
  | .referenceChunk => (2, 3)
  | .readDesc => (2, 4)
  | .otherIo => (2, 5)
  | .groupOp => (2, 6)
  | .varveOp => (2, 7)
  | .completion => (3, 1)
  | .referenceRefused => (3, 2)
  | .mgmtRequest => (4, 1)
  | .mgmtReply => (4, 2)
  | .timeMark => (5, 1)
  | .faultNotice => (6, 1)
  | .record => (1, 1)
  | .ack => (2, 1)
  | .refuse => (3, 1)
  | .echo => (4, 1)
  | .report => (5, 1)
  | .coord => (6, 1)
  | .pair => (7, 1)
  | .recon => (8, 1)
  | .swap => (9, 1)
  | .peerFatal => (15, 5)
  | .nak => (15, 1)
  | .laneDown => (15, 2)
  | .laneUp => (15, 3)
  | .width => (15, 4)

/-- A Schrund message's bytes: the header of R250, then the body. The layout of a body of classes 01h to 04h is the module's
own (R251); its operands stand here as 8 bytes each. -/
def schBytes (k : Kind) (m : Msg) : Bytes :=
  let c := kindCode k
  let body := match k with
    | .timeMark => leBytes 8 (m.args.getD 0 0) ++ leBytes 4 (m.args.getD 1 0)
    | .faultNotice => leBytes 4 (m.args.getD 0 0) ++ leBytes 2 (m.args.getD 1 0) ++ leBytes 2 (m.args.getD 2 0) ++
        leBytes 8 (m.args.getD 3 0)
    | _ => (m.args.map (leBytes 8)).flatten ++ m.data
  leBytes 1 c.1 ++ leBytes 1 c.2 ++ [0, 0] ++ leBytes 4 (32 + body.length) ++ leBytes 4 m.q ++ leBytes 2 m.tag ++ [0, 0] ++
    leBytes 8 m.ref ++ leBytes 4 m.nsid ++ leBytes 4 0 ++ body

/-- A Snowbridge message's bytes: the header of R507, then the body. `q` carries POOL, `ref` REF and `tag` AUX. -/
def snowBytes (k : Kind) (m : Msg) : Bytes :=
  let c := kindCode k
  let body := match k with
    | .record => m.data
    | .refuse => leBytes 2 m.args.length ++ List.replicate 6 0 ++ (m.args.map (leBytes 4)).flatten
    | _ => (m.args.map (leBytes 8)).flatten ++ m.data
  leBytes 1 c.1 ++ leBytes 1 c.2 ++ leBytes 1 m.q ++ [0] ++ leBytes 4 (32 + body.length) ++ leBytes 8 m.ref ++
    leBytes 8 m.tag ++ leBytes 8 0 ++ body

/-- A Schrund frame (R244). -/
def schFrame (fclass fflags seq ack msgId : Nat) (payload : Bytes) : Bytes :=
  let b := leBytes 1 fclass ++ leBytes 1 fflags ++ leBytes 2 payload.length ++ leBytes 4 seq ++ leBytes 4 ack ++
    leBytes 4 msgId ++ padTo 232 payload
  b ++ leBytes 8 (crc64 b)

/-- A bridge frame (R505). -/
def snowFrame (fclass fflags seq ack msgId tb : Nat) (payload : Bytes) : Bytes :=
  let b := leBytes 1 fclass ++ leBytes 1 fflags ++ leBytes 2 payload.length ++ leBytes 4 seq ++ leBytes 4 ack ++
    leBytes 4 msgId ++ leBytes 8 tb ++ padTo 288 payload
  b ++ leBytes 8 (crc64 b)

/-- A frame of a link end. -/
def linkFrame (l : LinkEnd) (fclass fflags seq ack msgId tb : Nat) (payload : Bytes) : Bytes :=
  match l with
  | .sch _ => schFrame fclass fflags seq ack msgId payload
  | .snow => snowFrame fclass fflags seq ack msgId tb payload

/-- The payload of a frame of a link. -/
def linkPayload : LinkEnd → Nat
  | .sch _ => 232
  | .snow => 288

/-- Frames a retry buffer holds (R253, R506). -/
def retryLimit : LinkEnd → Nat
  | .sch _ => 16384
  | .snow => 32768

/-- `a` is later than `b` in serial-number arithmetic (R247). -/
def serialLater (a b : Nat) : Bool :=
  let x := (a + 2 ^ 32 - b) % 2 ^ 32
  decide (1 ≤ x ∧ x < 2 ^ 31)

/-- ACK_SEQ: the highest number up to which every frame arrived with a good check (R244). -/
def Link.ackSeq (l : Link) : Nat :=
  ((l.rx.again.foldl (fun m s => if serialLater m s then s else m) l.rx.next) + (2 ^ 32 - 1)) % 2 ^ 32

/-- The timebase a link end stamps its frames with. -/
def Dev.linkTb (d : Dev) : LinkEnd → Nat
  | .sch h => d.now h
  | .snow => d.tbMedia

/-! ### The transmit arbiter and the rotation -/

/-- The logical number of a lane (R242): a lane of the Snowbridge, and one that was never numbered, bears its own. -/
def LinkTx.logical (t : LinkTx) (lane : Nat) : Nat := (tget t.nums lane).getD lane

/-- The next lane in rotation (R248): the lane in service with the lowest logical number from `rot` on, or else the first. -/
def LinkTx.nextLane (t : LinkTx) : Option Nat :=
  (t.lanes.find? fun x => decide (t.rot ≤ t.logical x)).or t.lanes.head?

/-- A lane put into service at the place of its logical number. -/
def LinkTx.enter (t : LinkTx) (lane : Nat) : LinkTx :=
  let n := t.logical lane
  { t with lanes := t.lanes.filter (fun x => decide (t.logical x < n)) ++ lane :: t.lanes.filter fun x => decide (n < t.logical x) }

/-- The arbiter of a link end (R42). -/
def linkArb : LinkEnd → ArbId
  | .sch h => .schTx h
  | .snow => .snowbridge

/-- The class and the function for which a frame asks a grant. -/
def WaitFrame.key (f : WaitFrame) : Nat × Nat := (bits f.flags 2 2, f.fn)

/-- The first frame that goes ahead of every class: one of a class uses at most one frame slot per 1 µs on the Schrund (R48); ECHO has no
such limit (R510). -/
def Dev.aheadFrame (d : Dev) (l : LinkEnd) : Option WaitFrame :=
  let t := (d.link l).tx
  t.queue.find? fun f => f.ahead && (match l with
    | .snow => true
    | .sch _ => ((tget t.aheadAt f.fclass).map fun x => decide (x + us ≤ d.linkTb l)).getD true)

/-- The frame that a link end places next: one that goes ahead takes no grant, every other one is chosen by the transmit arbiter (R43, R48,
R51, R510). Class D records on the Snowbridge are work of the destage (R287). -/
def nextFrame (l : LinkEnd) (d : Dev) : Option WaitFrame × Dev :=
  match d.aheadFrame l with
  | some f => (some f, d)
  | none =>
    let q := (d.link l).tx.queue.filter fun f => !f.ahead
    serveNext (linkArb l) q WaitFrame.key
      ((q.filter fun f => f.key.1 == 3).map fun f => if l = .snow ∧ f.fclass = 1 then .destage else .other) d

/-- A frame leaves on a lane: it takes the next number and is held for replay (R247, R248, R253). -/
def placeFrame (l : LinkEnd) (f : WaitFrame) (lane : Nat) (d : Dev) : Dev :=
  let k := d.link l
  let b := linkFrame l f.fclass f.flags k.tx.seq k.ackSeq f.msgId (d.linkTb l) f.payload
  let d := d.modLink l fun k => { k with tx := { k.tx with
    queue := k.tx.queue.erase f, seq := (k.tx.seq + 1) % 2 ^ 32, rot := k.tx.logical lane + 1,
    retry := k.tx.retry ++ [⟨k.tx.seq, lane, b, 0⟩],
    aheadAt := if f.ahead then tput k.tx.aheadAt f.fclass (d.linkTb l) else k.tx.aheadAt } }
  d.emit (.frame l lane b)

/-- The lane on which a link end may place a frame now: none where it has stopped, has no lane, or its retry buffer is full (R253, R264). -/
def Link.open (k : Link) (l : LinkEnd) : Option Nat :=
  if k.tx.stopped || decide (retryLimit l ≤ k.tx.retry.length) then none else k.tx.nextLane

/-- Places waiting frames on the lanes in service, in rotation, one grant at a time (R248, R253). The first argument bounds them. -/
def pump : Nat → LinkEnd → Dev → Dev
  | 0, _, d => d
  | fuel + 1, l, d =>
    match (d.link l).open l with
    | none => d
    | some lane =>
      match nextFrame l d with
      | (none, d) => d
      | (some f, d) => pump fuel l (placeFrame l f lane d)

/-- All frames that wait at a link end and can be placed. -/
def pumpAll (l : LinkEnd) (d : Dev) : Dev := pump (d.link l).tx.queue.length l d

/-- Idle frames on every lane in service (R246): they bear the number of the next message frame and are not held. -/
def idleFrames (l : LinkEnd) (d : Dev) : Dev :=
  let k := d.link l
  let b := linkFrame l 0 0 k.tx.seq k.ackSeq 0 (d.linkTb l) []
  d.emits (k.tx.lanes.map fun lane => .frame l lane b)

/-- What a link end sends of itself as time passes: the frames that may go now, or, with none, idle frames (R246, R253). -/
def linkTick (l : LinkEnd) (d : Dev) : Dev :=
  if (d.link l).tx.stopped then d
  else
    let e := pumpAll l d
    if (e.link l).tx.seq = (d.link l).tx.seq then idleFrames l e else e

/-- The frames of a message: the first has FIRST set and the last LAST (R249); the traffic class stands in bits [3:2], and on the
Snowbridge SEALED in bit [4] (R505). -/
def messageFrames (l : LinkEnd) (ahead : Bool) (fclass cls msgId fn : Nat) (b : Bytes) : List WaitFrame :=
  let ps := pieces (linkPayload l) b
  ps.zipIdx.map fun p =>
    ⟨ahead, fclass, b2n (p.2 == 0) + 2 * b2n (p.2 + 1 == ps.length) + 4 * cls, msgId, fn, p.1⟩

/-- Time marks and fault notices go ahead of every class on the Schrund (R48), and ECHO on the Snowbridge (R510). -/
def goesAhead : Kind → Bool
  | .timeMark => true
  | .faultNotice => true
  | .echo => true
  | _ => false

/-- Queues a message's frames and places what fits. -/
def queueFrames (l : LinkEnd) (k : Kind) (cls fn : Nat) (b : Bytes) (d : Dev) : Dev :=
  let id := (d.link l).tx.msg
  let fs := messageFrames l (goesAhead k) (kindCode k).1 cls id fn b
  pumpAll l (d.modLink l fun k' => { k' with tx := { k'.tx with msg := (id + 1) % 2 ^ 32, queue := k'.tx.queue ++ fs } })

/-- The function of a queue's work; work that belongs to no queue counts as function 1,024, as class D does (R46). -/
def Dev.fnOf (d : Dev) (q : Nat) : Nat := ((d.queue q).map (·.fn)).getD 1024

/-- A half sends a message over the Schrund, in traffic class `cls`; nothing is sent while the link is not up (R252, R264,
R265). -/
def schSend (h : Half) (k : Kind) (cls : Nat) (m : Msg) (d : Dev) : Dev :=
  if !d.is (SCH_STATUS.UP h) || d.is (SCH_STATUS.PEER_DOWN h) then d
  else queueFrames (.sch h) k cls (d.fnOf m.q) (schBytes k m) (d.emit (.sch h k m))

/-- A message sent that belongs to no queue. -/
def schSendFree (h : Half) (k : Kind) (cls ref nsid : Nat) (args : List Nat) (data : Bytes) (d : Dev) : Dev :=
  schSend h k cls ⟨noQueue, 0, ref, nsid, args, data⟩ d

/-- A management request: its MSG_ID stays outstanding until a reply names it (R266). -/
def schAsk (h : Half) (what : Ask) (m : Msg) (d : Dev) : Dev :=
  let id := (d.schEnd h).tx.msg
  if !d.is (SCH_STATUS.UP h) || d.is (SCH_STATUS.PEER_DOWN h) then d
  else schSend h .mgmtRequest 1 m (d.modSch h fun l => { l with requests := l.requests ++ [(id, what)] })

/-- A management reply to the request with a MSG_ID (R251). -/
def schReply (h : Half) (id : Nat) (args : List Nat) (data : Bytes) (d : Dev) : Dev :=
  schSendFree h .mgmtReply 1 id 0 args data d

/-- The duplicated computation of the link cipher over `len` bytes (R222, R818): the blocks it releases, and how it fared, which is a free
value: 0 agreed, 1 agreed at the second attempt, 2 not. What is to be reported waits for the next tick. -/
def linkCompare (len : Nat) (d : Dev) : Nat × Dev :=
  let (v, d) := d.draw
  let d := drbgServe (cipherRequests len (if v % 3 = 0 then 1 else 2)) d
  let d := d.when (decide (v % 3 ≠ 0)) fun d => (d.modRime fun r => { r with linkFaults := r.linkFaults ++ [v % 3] }).bump RIM_CNT_RETRIES.COUNT 1
  (v % 3, d.bump RIM_CNT_BLOCKS.COUNT ((len + 15) / 16))

/-- A Snowbridge message sealed by the link cipher (R512): its header is the additional authenticated data, its body is
encrypted and the tag follows. Without a key nothing is sealed, and an exhausted slot refuses it (R212). DESIGN CHOICE: a message on which the two
copies disagreed twice is computed afresh until they agree. -/
def sealSnow (b : Bytes) (d : Dev) : Option Bytes × Dev :=
  match d.rime.linkKey with
  | none => (none, d)
  | some (_, key) =>
    match takeCounter linkSlot d with
    | (none, d) => (none, d.bump RIM_CNT_NONCE_EXH.COUNT 1)
    | (some ctr, d) =>
      let d := (linkCompare (b.length - 32) d).2
      let iv := gcmIv (0xFFFFFFF0 + d.twinSide) ctr
      let hd := b.take 4 ++ leBytes 4 (b.length + 16) ++ getBytes b 8 24
      let ct := gcmCrypt key iv (b.drop 32)
      (some (hd ++ ct ++ gcmTag key iv hd ct), d)

/-- A message to be sealed must wait: the link cipher holds no counter value for it, and its slot is not exhausted (R210). -/
def Dev.sealWaits (d : Dev) : Bool :=
  d.is TWN_STATUS.GCM_ON && d.rime.linkKey.isSome && (d.slot linkSlot).left == 0 && !(d.slot linkSlot).exhausted

/-- A function's message sent over the Snowbridge, sealed while the link cipher is on (R512); nothing is sent while no lane is in
service. A message for which the link cipher holds no counter value waits for the lease, and what comes later waits behind it. -/
def snowSendFor (fn : Nat) (k : Kind) (cls : Nat) (m : Msg) (d : Dev) : Dev :=
  if d.snow.tx.lanes.isEmpty || d.snow.tx.stopped then d
  else if !d.twin.sealed.isEmpty || d.sealWaits then d.modTwin fun t => { t with sealed := t.sealed ++ [⟨fn, k, cls, m⟩] }
  else if d.is TWN_STATUS.GCM_ON then
    match sealSnow (snowBytes k m) d with
    | (none, d) => d
    | (some b, d) => queueFrames .snow k (cls + 4) fn b (d.emit (.snow k m))
  else queueFrames .snow k cls fn (snowBytes k m) (d.emit (.snow k m))

/-- A message of the pair's own work sent over the Snowbridge. -/
def snowSend (k : Kind) (cls : Nat) (m : Msg) (d : Dev) : Dev := snowSendFor 1024 k cls m d

/-- The messages that waited for the link cipher go, in their order. -/
def sendSealed (d : Dev) : Dev :=
  (d.modTwin fun t => { t with sealed := [] }).each d.twin.sealed fun d x => snowSendFor x.fn x.kind x.cls x.msg d

/-- A link-control frame of a half, sent four times in every lane in service (R257); it is never held for replay (R246). -/
def linkControl (l : LinkEnd) (k : Kind) (ops : Bytes) (d : Dev) : Dev :=
  let e := d.link l
  if e.tx.stopped then d
  else
    let b := linkFrame l 15 0 e.tx.seq e.ackSeq 0 (d.linkTb l) (leBytes 1 (kindCode k).2 ++ ops)
    d.emits ((e.tx.lanes.map fun lane => [.frame l lane b, .frame l lane b, .frame l lane b, .frame l lane b]).flatten)

/-! ### Messages in their turn -/

/-- A complete message that waits for its command fits a message of a kind, and of given bytes where they are known; what a sealed message
says is not known before it is taken (none). -/
def fitsTurn (x : Option Bytes) (k : Kind) (b : Option Bytes) : Bool :=
  x.all fun x => getLe x 0 1 == (kindCode k).1 && getLe x 1 1 == (kindCode k).2 && b.all fun b => x == b

/-- A message of a link takes effect in its turn (R252): while complete messages wait at the receiver, only the oldest does, and it leaves; one
that is not that message has no effect. Where none waits, the command itself stands for the arrival of all the message's frames (see the
log). -/
def inTurn (l : LinkEnd) (k : Kind) (b : Option Bytes) (s : State) (f : State → Host.Outcome State Fault Refusal) :
    Host.Outcome State Fault Refusal :=
  match (s.dev.link l).rx.inbox with
  | [] => f s
  | x :: rest =>
    if fitsTurn x k b then f { s with dev := s.dev.modLink l fun e => { e with rx := { e.rx with inbox := rest } } } else .next s

/-- A Schrund message of a kind takes effect in its turn. -/
def schTurn (h : Half) (k : Kind) (m : Msg) (s : State) (f : State → Host.Outcome State Fault Refusal) :
    Host.Outcome State Fault Refusal := inTurn (.sch h) k (some (schBytes k m)) s f

/-- A Snowbridge message of a kind takes effect in its turn. -/
def snowTurn (k : Kind) (m : Msg) (s : State) (f : State → Host.Outcome State Fault Refusal) :
    Host.Outcome State Fault Refusal := inTurn .snow k (some (snowBytes k m)) s f

end Sys2Proof.Machine
end

