-- ==== Sys2Proof/Machine/Report.lean ====
section
/-! DEFINITION. Fault reports (R756 to R766): the ledger of each half, summary mode, the sticky summary, last-gasp
records, and the fault events and notices a report gives rise to (R770). -/

namespace Sys2Proof.Machine

/-- A fault source ID (R756). -/
def srcId (h : Half) (block inst : Nat) : Nat := halfNum h * 2 ^ 31 + block * 2 ^ 24 + inst

/-- The half a source ID names (R756). -/
def srcHalf (src : Nat) : Half := if src < 2 ^ 31 then .host else .media

/-- The block a source ID names (R756). -/
def srcBlock (src : Nat) : Nat := bits src 24 7

/-- The INSTANCE of a summary source (R756). -/
def summaryInst : Nat := 0xFFFFFF

/-- The severity of a cause (R758); `left` tells that the named unit left service where the cause alone does not. -/
def severity (block cause inst : Nat) (left : Bool) : Nat :=
  if (block = 5 ∧ 1 ≤ cause ∧ cause ≤ 4) ∨ block = 7 ∨ (block = 8 ∧ cause = 1) then 4
  else if left ∨ (block = 3 ∧ cause = 2) ∨ (block = 0x0B ∧ cause = 2) ∨ (block = 0x0F ∧ cause = 4)
      ∨ (block = 0x10 ∧ 1 ≤ cause ∧ cause ≤ 3) ∨ (block = 0x0E ∧ inst = 0x20 ∧ 1 ≤ cause ∧ cause ≤ 8) then 3
  else if (block = 4 ∧ cause = 1) ∨ (block = 5 ∧ cause = 0x10) then 1
  else 2

/-- The ledger is in summary mode (R763). -/
def Dev.summaryMode (d : Dev) (h : Half) : Bool := d.is (FLT_STATUS.SUMMARY_MODE h)

/-- The interval of 1 ms that a time falls in has begun: the count of the one before is closed, and SUMMARY_MODE clears
at the end of the first interval in which no more than 256 sources without a record reported (R763). -/
def rollInterval (h : Half) (t : Nat) (d : Dev) : Dev :=
  let l := d.led h
  if t / ms ≤ l.interval then d
  else
    let d := d.when (d.summaryMode h && decide (l.fresh ≤ 256 ∨ l.interval + 1 < t / ms))
      fun d => d.clr (FLT_STATUS.SUMMARY_MODE h)
    d.modLed h fun l => { l with interval := t / ms, fresh := 0, seen := [] }

/-- A record that takes `n` more reports (R759). -/
def LedgerRec.again (r : LedgerRec) (n sev t : Nat) : LedgerRec :=
  { r with count := min (r.count + n) 65535, last := t, maxSev := max r.maxSev sev }

/-- A list of records in which the one a test picks takes more reports. -/
def recAgain (p : LedgerRec → Bool) (n sev t : Nat) (l : List LedgerRec) : List LedgerRec :=
  l.map fun r => if p r then r.again n sev t else r

/-- The bytes of a ledger record (R760). -/
def LedgerRec.bytes (r : LedgerRec) : Bytes :=
  leBytes 4 r.source ++ leBytes 2 r.code ++ leBytes 2 r.count ++ leBytes 8 r.first ++ leBytes 8 r.last ++
    leBytes 4 r.reporter ++ leBytes 2 r.epoch ++
    leBytes 2 (b2n r.twin + 2 * b2n r.summary + 4 * b2n r.injected + 16 * r.maxSev)

/-- The sticky summary takes a severity (R765). -/
def stickySummary (h : Half) (block sev : Nat) (d : Dev) : Dev :=
  let d := d.when (decide (2 ≤ sev ∧ 1 ≤ block ∧ block ≤ 16)) fun d => d.putBit (FLT_SUMMARY.DEGRADED h) (block - 1) true
  d.when (decide (3 ≤ sev ∧ 1 ≤ block ∧ block ≤ 16)) fun d => d.putBit (FLT_SUMMARY.LOST h) (block - 1) true

/-- FLT_STATUS as one value (R787). -/
def Dev.fltStatus (d : Dev) (h : Half) : Nat :=
  d.rd (FLT_STATUS.WEDGED h) + 2 * d.rd (FLT_STATUS.STORM h) + 4 * d.rd (FLT_STATUS.SUMMARY_MODE h) +
    8 * d.rd (FLT_STATUS.LEDGER_FULL h) + 16 * d.rd (FLT_STATUS.LAST_GASP h)

/-- FLT_SUMMARY as one value (R788). -/
def Dev.fltSummary (d : Dev) (h : Half) : Nat :=
  2 * d.rd (FLT_SUMMARY.DEGRADED h) + 2 ^ 33 * d.rd (FLT_SUMMARY.LOST h)

/-- The records held in both epochs (R788). -/
def Dev.ledgerRecords (d : Dev) (h : Half) : Nat := (d.led h).recs.length + (d.led h).sums.length

/-- FLT_LEDGER as one value (R788). -/
def Dev.fltLedger (d : Dev) (h : Half) : Nat :=
  d.ledgerRecords h + 2 ^ 16 * d.rd (FLT_LEDGER.EPOCH h) + 2 ^ 32 * min (d.led h).fresh 65535

/-- CRP_STATUS of a half as one value (chapter 15). -/
def Dev.crpStatus (d : Dev) (h : Half) : Nat :=
  d.rd (CRP_STATUS.RELEASED h) + 2 * d.rd (CRP_STATUS.STAGE h) + 16 * d.rd (CRP_STATUS.START_FAIL h) +
    2 ^ 8 * d.rd (CRP_STATUS.BANK h) + 2 ^ 9 * d.rd (CRP_STATUS.BANK_A_BAD h) + 2 ^ 10 * d.rd (CRP_STATUS.BANK_B_BAD h) +
    2 ^ 11 * d.rd (CRP_STATUS.SIDE h) + 2 ^ 12 * d.rd (CRP_STATUS.POOL_SLOT h) + 2 ^ 16 * d.rd (CRP_STATUS.PROFILE h) +
    2 ^ 20 * d.rd (CRP_STATUS.REFUSED h) + 2 ^ 21 * d.rd (CRP_STATUS.REF_OK h) + 2 ^ 22 * d.rd (CRP_STATUS.PLL_LOCK h)

/-- The records a last-gasp record holds: summary records first, then the newest, 1,920 in all (R766). -/
def gaspRecs (l : Ledger) (epoch : Nat) : List LedgerRec :=
  ((l.sums.filter (·.epoch == epoch)) ++ (l.recs.filter (·.epoch == epoch)).reverse).take 1920

/-- The Nunatak of a half writes a last-gasp record: the media half into its ring of 256, the host half into its retained
memory and, while the Schrund is up, into the same ring (R766). -/
def lastGasp (h : Half) (d : Dev) : Dev :=
  let l := d.led h
  let g : Gasp := ⟨h, l.gaspSeq, d.now h, d.fltStatus h, d.fltSummary h, d.fltLedger h, d.crpStatus h,
    gaspRecs l (d.rd (FLT_LEDGER.EPOCH h))⟩
  let d := (d.modLed h fun l => { l with gaspSeq := l.gaspSeq + 1 }).set (FLT_STATUS.LAST_GASP h)
  let ring (d : Dev) : Dev := d.modLed .media fun l => { l with gasps := (l.gasps ++ [g]).drop (l.gasps.length - 255) }
  match h with
  | .media => ring d
  | .host => (d.modLed .host fun l => { l with gasps := [g] }).when (d.is (SCH_STATUS.UP .host)) ring

/-- The event of a source goes out: the host half posts it to every PF; a half tells the other of its own sources by a fault
notice, and the media half of the twin's (R251, R770). -/
def sendFaultEvent (h : Half) (src code count : Nat) (summary twin : Bool) (d : Dev) : Dev :=
  let d := d.bump (FLT_CNT_NOTIFY.COUNT h) 1
  let d := d.when (srcHalf src == h || (h == .media && twin)) fun d =>
    schSendFree h .faultNotice 0 0 0 [src, code, min count 65535, d.now h] [] d
  match h with
  | .host => postToPfs ⟨min count 65535 + 2 ^ 16 * b2n summary + 2 ^ 17 * b2n twin, src, code, 3⟩ d
  | .media => d

/-- A report of a source meets the rule of one event per 100 µs: it posts at once when it is the source's first of the
epoch, comes 100 µs or more after its last event, or is more severe; otherwise it is gathered (R770). -/
def sourceEvent (h : Half) (src code n t : Nat) (first summary twin : Bool) (d : Dev) : Dev :=
  let sev := bits code 12 4
  match tget (d.led h).ev src with
  | none =>
    sendFaultEvent h src code n summary twin
      (d.modLed h fun l => { l with ev := tput l.ev src ⟨t, sev, 0, summary, twin, code⟩ })
  | some e =>
    if first ∨ e.last + 100 * us ≤ t ∨ e.sev < sev then
      sendFaultEvent h src code (e.gathered + n) summary twin
        (d.modLed h fun l => { l with ev := tput l.ev src ⟨t, sev, 0, summary, twin, code⟩ })
    else d.modLed h fun l => { l with ev := tput l.ev src { e with gathered := e.gathered + n, code := code } }

/-- `n` reports that go to a summary record of their BLOCK and CAUSE (R762, R763). -/
def summarise (h : Half) (n src code reporter t : Nat) (twin injected : Bool) (d : Dev) : Dev :=
  let ep := d.rd (FLT_LEDGER.EPOCH h)
  let ssrc := srcId h (srcBlock src) summaryInst
  let mine (r : LedgerRec) : Bool := r.source == ssrc && r.code % 4096 == code % 4096 && r.epoch == ep
  let d := d.bump (FLT_CNT_SUMMARIZED.COUNT h) n
  let l := d.led h
  let first := !(l.sums.any fun r => r.source == ssrc && r.epoch == ep)
  if l.sums.any mine then
    sourceEvent h ssrc code n t false true twin
      (d.modLed h fun l => { l with sums := recAgain mine n (bits code 12 4) t l.sums })
  else if l.sums.length < 1024 then
    sourceEvent h ssrc code n t first true twin
      (d.modLed h fun l => { l with
        sums := l.sums ++ [⟨ssrc, code, min n 65535, t, t, reporter, ep, twin, true, injected, bits code 12 4⟩] })
  else d

/-- The Schrund carries messages between the halves (R265, R271). -/
def Dev.schUp (d : Dev) : Bool := d.is (SCH_STATUS.UP .host) && d.is (SCH_STATUS.UP .media)

/-- A device event that the media half raises; it reaches the host half over the Schrund, and nothing arrives while the
media half is in peer down (R265, R772). -/
def mediaEvent (code data : Nat) (d : Dev) : Dev := if d.schUp then devEvent code data d else d

/-- A function event that the media half raises. -/
def mediaFnEvent (fn code data : Nat) (d : Dev) : Dev :=
  if d.schUp then fnEvent fn code data d else d

/-- A ledger's storm is told to every PF (R763, R772). -/
def stormEvent (h : Half) (d : Dev) : Dev :=
  match h with
  | .host => devEvent evLedgerStorm 0 d
  | .media => mediaEvent evLedgerStorm 1 d

/-- `n` reports of one source enter the ledger of a half (R759 to R765, R770). The sources that made their first record in the interval are
those counted in it but for the ones that got none. DEDUCED: a report that the twin sent is none of the half's own, and no last-gasp record
follows it (R766). -/
def reports (h : Half) (n src code reporter t : Nat) (twin injected : Bool) (d : Dev) : Dev :=
  let d := rollInterval h t ((d.bump (FLT_CNT_REPORTS.COUNT h) n))
  let sev := bits code 12 4
  let d := stickySummary h (srcBlock src) sev d
  let ep := d.rd (FLT_LEDGER.EPOCH h)
  let mine (r : LedgerRec) : Bool := r.source == src && r.epoch == ep
  let l := d.led h
  let d :=
    if l.recs.any mine then
      sourceEvent h src code n t false false twin (d.modLed h fun l => { l with recs := recAgain mine n sev t l.recs })
    else
      let n' := l.fresh + b2n (!l.seen.contains src)
      let others := without l.seen src
      let d := d.modLed h fun l => { l with fresh := n', seen := others }
      let d := d.when (!d.summaryMode h && decide (l.recs.length < 16384) && decide (4096 + others.length < n')) fun d =>
        stormEvent h ((d.set (FLT_STATUS.STORM h)).set (FLT_STATUS.SUMMARY_MODE h))
      let noted (d : Dev) : Dev := d.modLed h fun l => { l with seen := src :: l.seen }
      if d.summaryMode h then summarise h n src code reporter t twin injected (noted d)
      else if 16384 ≤ l.recs.length then
        summarise h n src code reporter t twin injected (noted (d.set (FLT_STATUS.LEDGER_FULL h)))
      else
        sourceEvent h src code n t true false twin
          (d.modLed h fun l => { l with recs := l.recs ++ [⟨src, code, min n 65535, t, t, reporter, ep, twin, false, injected, sev⟩] })
  d.when (sev == 4 && !twin) (lastGasp h)

/-- A report enters the ledger of a half. -/
def report (h : Half) (src code reporter t : Nat) (twin injected : Bool) (d : Dev) : Dev :=
  reports h 1 src code reporter t twin injected d

/-- A unit of a half reports a fault of itself now (R757 to R759); `left` as in `severity`. -/
def fault (h : Half) (block inst cause : Nat) (left : Bool) (d : Dev) : Dev :=
  report h (srcId h block inst) (severity block cause inst left * 4096 + cause) (srcId h block inst) (d.now h) false false d

/-- A new epoch: EPOCH increments, wrapping, and records older than the previous epoch are discarded (R761). -/
def newEpoch (h : Half) (d : Dev) : Dev :=
  let old := d.rd (FLT_LEDGER.EPOCH h)
  (d.modLed h fun l => { l with recs := l.recs.filter (·.epoch == old), sums := l.sums.filter (·.epoch == old) }).wr
    (FLT_LEDGER.EPOCH h) (old + 1)

end Sys2Proof.Machine
end

