-- ==== Sys2Proof/Machine/HostCmd.lean ====
section
/-! DEFINITION. A fetched command on the host half: the fields of its packet (R70, R71), the FENCE rule (R108), and the
refusals at the start of execution (R815). -/

namespace Sys2Proof.Machine

/-! ### Packet fields -/

/-- Bytes `off` to `off + n - 1` of a packet as a little-endian number (R5). -/
def pktField (p : BitVec 512) (off n : Nat) : Nat := bits p.toNat (8 * off) (8 * n)

/-- OPCODE (R70). -/
def pktOp (p : BitVec 512) : Nat := pktField p 0 1
/-- FLAGS (R71). -/
def pktFlags (p : BitVec 512) : Nat := pktField p 1 1
/-- TAG. -/
def pktTag (p : BitVec 512) : Nat := pktField p 2 2
/-- NSID. -/
def pktNsid (p : BitVec 512) : Nat := pktField p 4 4
/-- GROUP_OR_SNAP. -/
def pktGos (p : BitVec 512) : Nat := pktField p 8 8
/-- SLBA. -/
def pktSlba (p : BitVec 512) : Nat := pktField p 16 8
/-- NLB. -/
def pktNlb (p : BitVec 512) : Nat := pktField p 24 4
/-- OPTIONS (R78). -/
def pktOpts (p : BitVec 512) : Nat := pktField p 28 4
/-- DPTR_ADDR. -/
def pktAddr (p : BitVec 512) : Nat := pktField p 32 8
/-- DPTR_LEN. -/
def pktLen (p : BitVec 512) : Nat := pktField p 40 4
/-- DPTR_TYPE. -/
def pktType (p : BitVec 512) : Nat := pktField p 44 1
/-- FLAGS.CLASS (R71). -/
def pktCls (p : BitVec 512) : Nat := bits (pktFlags p) 0 2
/-- FLAGS.FENCE (R108). -/
def pktFence (p : BitVec 512) : Bool := bit (pktFlags p) 2
/-- FLAGS.MEMBER (R314). -/
def pktMember (p : BitVec 512) : Bool := bit (pktFlags p) 3
/-- FLAGS.RO_REQ (R73). -/
def pktRo (p : BitVec 512) : Bool := bit (pktFlags p) 4

/-- A command whose data the device reads from host memory. -/
def needsRead (p : BitVec 512) : Bool :=
  [1, 5, 6, 0x52, 0x54, 0x84, 0x89].contains (pktOp p) || (pktOp p == 0xC3 && pktField p 50 1 == 4)

/-- A fetched command that still needs a read of host memory (R580). -/
def Cmd.unread (c : Cmd) : Bool := needsRead c.pkt && c.stage == .ready && c.chunks.isEmpty

/-- A command's tag. -/
def Cmd.tag (c : Cmd) : Nat := pktTag c.pkt

/-! ### Standing of the module -/

/-- A half is in peer down (R265). -/
def Dev.peerDown (d : Dev) (h : Half) : Bool := d.is (SCH_STATUS.PEER_DOWN h)

/-- The durability mode: 0 dual, 1 solo no twin, 2 solo holdup not ready, 3 fenced (R34). -/
def Dev.mode (d : Dev) : Nat := d.rd FRN_STATUS.MODE

/-- The module is fenced (R34, R527). -/
def Dev.fenced (d : Dev) : Bool := d.mode == 3

/-- A namespace that exists; a deleted one no longer does for a command (R457). -/
def Dev.ns (d : Dev) (n : Nat) : Option Ns := (tget d.nss n).filter fun x => !x.deleted

/-- The block size of a namespace in bytes (R75). -/
def Ns.blockSize (n : Ns) : Nat := if n.big then 16384 else 4096

/-- The pool is offline or not yet restored (R335, R418). -/
def Dev.poolUnavailable (d : Dev) (p : Nat) : Bool :=
  match tget d.pools p with
  | none => true
  | some x => x.offline || x.offlineRec || !x.online || d.is FRN_STATUS.RESTORING

/-! ### The start of execution -/

/-- A completion of an earlier command of the function is not yet posted (R108): the command is outstanding, its packet is
still being fetched, or its entry is held. -/
def Dev.earlierOpen (d : Dev) (fn order : Nat) : Bool :=
  (d.rings.queues.any fun e => e.2.fn == fn &&
    (e.2.cmds.any (fun c => decide (c.order < order) && !((c.stage == .orphan || c.silent) && (c.took || decide (8 ≤ c.phase)))) || e.2.held.any fun c => decide (c.order < order))) ||
  (d.fn fn).hold.any (fun i => match i with
    | .cqe _ e => decide (e.order < order)
    | _ => false) ||
  d.rings.fetches.any fun f => decide (f.1 < order) && ((d.queue (fetchQueue f.2)).map (·.fn) == some fn)

/-- FENCE holds the command back (R108). -/
def Dev.fenceHolds (d : Dev) (fn : Nat) (c : Cmd) : Bool := pktFence c.pkt && d.earlierOpen fn c.order

/-- The write-class opcodes: WRITE, WRITE_ZEROES, DEALLOCATE, COMPARE_AND_WRITE and COPY (R86). -/
def writeOps : List Nat := [1, 3, 4, 6, 8]

/-- The opcodes that R478 refuses below the reserve, CALVE_APPLY apart. -/
def capacityOps : List Nat := [1, 6, 0x48, 0x4A]

/-- The refusals 1 to 4 of R815 for an I/O command that names the namespaces `named`, its NSID first. -/
def ioRefusal (op : Nat) (named : List Nat) (d : Dev) : Option Nat :=
  if d.fenced || d.peerDown .host then some stPathFenced
  else if named.any fun i => (d.ns i).any fun n => d.poolUnavailable n.pool then some stPoolOffline
  else match d.ns (named.headD 0) with
    | none => none
    | some n =>
      if (writeOps.contains op && n.flags % 4 != 0) || (op == 0x52 && bit n.flags 1) then some stWriteProtected
      else if capacityOps.contains op && ((tget d.pools n.pool).map (·.full)).getD false then some stCapacity
      else none

/-- The namespace whose standing a MAP_DELTA entry changes (R480); a PRUNE entry changes no view. -/
def MapDelta.varveNs : MapDelta → Option Nat
  | .snapMark n _ _ | .snapDrop n _ | .cloneLink n _ _ | .nsSet n _ _ _ | .nsRemove n | .nsAttach n _ _ _ _ => some n
  | .applyMark n _ _ _ | .applyLabels n _ _ | .applyEnd n => some n
  | _ => none

/-- The record has committed, alone or with its group, and is not yet applied. -/
def Dev.awaitsApply (d : Dev) (r : FRec) : Bool :=
  !r.applied && !r.void && !r.divergent && (r.committed ||
    (r.member && d.firn.recs.any fun c => c.2.rtype == 6 && c.2.committed && c.2.gfn == r.gfn && c.2.group == r.group))

/-- A change of the namespace that has committed is still to be applied: commands that name the namespace wait for it to be applied, since
it was completed to the host. -/
def Dev.nsAwaits (d : Dev) (nsid : Nat) : Bool :=
  d.firn.recs.any fun e => d.awaitsApply e.2 && e.2.mapDelta.any fun x => x.varveNs == some nsid

/-- The namespaces that a command names: its NSID, and the source of a COPY. -/
def nsNamed (p : BitVec 512) : List Nat := if pktOp p = 8 then [pktNsid p, pktField p 48 4] else [pktNsid p]

/-- Runs a fetched command whose opcode is one of those given, unless a fence holds it back. An I/O command meets the
refusals of R815 at its start; a refused command completes with that status and has no effect. A command that has
started goes on. -/
def runCmd (ops : List Nat) (q tag : Nat) (f : Queue → Cmd → Dev → Dev) (d : Dev) : Dev :=
  match d.queue q with
  | none => d
  | some qu =>
    match qu.cmd tag with
    | none => d
    | some c =>
      if !ops.contains (pktOp c.pkt) || c.stage == .crossed || c.stage == .orphan || d.fenceHolds qu.fn c || (d.pw .host).stopped then d
      else if c.started || decide (0x80 ≤ pktOp c.pkt) then f qu c (d.modCmd q tag fun c => { c with started := true })
      else if (nsNamed c.pkt).any d.nsAwaits then d
      else match ioRefusal (pktOp c.pkt) (nsNamed c.pkt) d with
        | some st => failCmd q tag st d
        | none => f qu c (d.modCmd q tag fun c => { c with started := true })

/-- A fetched command of a queue waits for the media half (R251). -/
def crossCmd (q tag : Nat) (d : Dev) : Dev := d.modCmd q tag fun c => { c with stage := .crossed }

/-! ### Calving streams -/

/-- A stream holds its snapshots and its ring until it is closed (R482, R491); one that closed in state 04h keeps its end state for
CALVE_CLOSE (R493). -/
def Stream.isOpen (s : Stream) : Bool := s.ended != some 4

/-- A stream leaves a slice's pipeline. -/
def dropRun (sid : Nat) (d : Dev) : Dev := d.modIng fun i => { i with gcm := i.gcm.filter fun g => g.2.stream != sid }

/-- The pins of a stream go to the other twin, which holds the snapshots too (R469); the layout of COORD bodies is the firmware's own. -/
def tellPins (open' : Bool) (sid : Nat) (s : Stream) (d : Dev) : Dev :=
  snowSend .coord 3 ⟨0xFF, 0, 0, 0, [23, b2n open', sid, s.nsid, s.base, s.target, s.size], []⟩ d

/-- What an open stream holds is released (R491): its pins, its ring binding and its pending record. -/
def releaseStream (sid : Nat) (s : Stream) (d : Dev) : Dev :=
  let d := match s.ctx with
    | some c => d.modRime fun r => { r with pending := r.pending.filter fun p => !(p.slot == s.slot && p.counter == c.counter) }
    | none => d
  tellPins false sid s (dropRun sid d)

/-- The open streams that a test picks close in state 04h (R493). -/
def closeStreams (p : Stream → Bool) (d : Dev) : Dev :=
  d.each (d.streams.filter fun e => e.2.isOpen && p e.2) fun d e =>
    (releaseStream e.1 e.2 d).modStream e.1 fun s => { s with ended := some 4, ctx := none, detached := false }

/-- NOP (R82, R83): it completes with RESULT zero. -/
def execNop (q tag : Nat) (s : State) : Host.Outcome State Fault Refusal :=
  s.ok (runCmd [0] q tag (fun _ _ d => complete q tag stSuccess 0 d) s.dev)

end Sys2Proof.Machine
end

