-- ==== Sys2Proof/Machine/Xmap.lean ====
section
/-! DEFINITION. The extent map (R368 to R374): the block map with its views (R461 to R464), the chunk table with its
reference counts, the object table, and what each MAP_DELTA entry does (R370, R371, R480). -/

namespace Sys2Proof.Machine

/-! ### Keys -/

/-- The number a logical block of a namespace is kept under. -/
def blockKey (nsid lba : Nat) : Nat := nsid * 2 ^ 41 + lba

/-- The number an object is kept under (R369): its chunk or block ID and its ordinal. -/
def objKey (obj ordinal : Nat) : Nat := obj * 65536 + ordinal

/-- The namespace whatever its standing: a deleted one is kept until its reclaim ends (R457). -/
def Dev.nsAny (d : Dev) (n : Nat) : Option Ns := tget d.nss n

/-- The tenant of a namespace: its key owner (R197). -/
def Ns.tenant (n : Ns) : Nat := n.owner.getD 0

/-- A snapshot of a namespace, hidden ones included. -/
def Ns.snap (n : Ns) (id : Nat) : Option Snap := n.snaps.find? (·.id == id)

/-- A snapshot that commands may name (R468). -/
def Ns.visibleSnap (n : Ns) (id : Nat) : Option Snap := n.snaps.find? fun s => s.id == id && !s.hidden

/-! ### Views -/

/-- A block's entries in rising order of BIRTH. -/
def Dev.entries (d : Dev) (nsid lba : Nat) : List BmEntry := (tget d.xmap.blocks (blockKey nsid lba)).getD []

/-- The entry of a block with the greatest BIRTH no greater than the view's epoch (R463). -/
def seeOwn (es : List BmEntry) (v : Nat) : Option BmEntry := (es.filter fun e => decide (e.birth ≤ v)).getLast?

/-- What a view sees at a block (R463): the entry found in the namespace or, for a clone, in its chain of parents. The first
argument bounds the chain, which holds at most 8 namespaces (R473). -/
def seeFrom : Nat → Nat → Nat → Nat → Dev → Option BmEntry
  | 0, _, _, _, _ => none
  | fuel + 1, nsid, v, lba, d =>
    match seeOwn (d.entries nsid lba) v with
    | some e => some e
    | none => match (d.nsAny nsid).bind (·.parent) with
      | none => none
      | some (p, sid) => match (d.nsAny p).bind (·.snap sid) with
        | none => none
        | some s => seeFrom fuel p s.epoch lba d

/-- What a view sees at a block. -/
def Dev.see (d : Dev) (nsid v lba : Nat) : Option BmEntry := seeFrom 9 nsid v lba d

/-- The chunk a view maps a block to; none for an unmapped block. -/
def Dev.chunkAt (d : Dev) (nsid v lba : Nat) : Option Nat :=
  match d.see nsid v lba with
  | some e => if e.unmapped then none else some e.chunk
  | none => none

/-- The epoch of a view: the live view for snapshot 0 (R463). -/
def Ns.viewEpoch (n : Ns) (snap : Nat) : Nat :=
  if snap = 0 then n.epoch
  else match n.snap snap with
    | some s => s.epoch
    | none => ((n.gone.find? fun g => g.1 == snap).map (·.2)).getD 0

/-! ### Reference counts -/

/-- The reference count of a chunk changed (R368). -/
def modChunk (c : Nat) (f : ChunkEnt → ChunkEnt) (d : Dev) : Dev := d.modMap fun m => { m with chunks := tmod m.chunks c f }

/-- The objects of a chunk that is freed, to be removed by UNLOCATE in the pool's next RELEASE record (R372). The containers
of a stream block stay while any chunk of the block is live (R476). -/
def freeChunk (c : Nat) (e : ChunkEnt) (d : Dev) : Dev :=
  let d := d.modMap fun m => { m with chunks := tdel m.chunks c }
  if !e.inBlock then d.modMap fun m => { m with freed := m.freed ++ [(e.pool, c, 0)] }
  else if d.xmap.chunks.any (fun x => x.2.inBlock && x.2.block == e.block) then d
  else d.modMap fun m => { m with freed := m.freed ++ (List.range e.ncont).map fun o => (e.pool, e.block, o) }

/-- A signed change of a chunk's reference count; a chunk whose count reaches 0 is freed (R372). The zero chunk has no
entry. -/
def refDelta (c : Nat) (n : Int) (d : Dev) : Dev :=
  match tget d.xmap.chunks c with
  | none => d
  | some e =>
    let r := ((e.refs : Int) + n).toNat
    if r = 0 ∧ n < 0 then freeChunk c e d else modChunk c (fun e => { e with refs := r }) d

/-- Every reference a list of entries holds is dropped. -/
def dropRefs (es : List BmEntry) (d : Dev) : Dev := d.each es fun d e => if e.unmapped then d else refDelta e.chunk (-1) d

/-! ### BIND and UNBIND -/

/-- One block bound or unbound (R462): an entry with the current epoch as its BIRTH, which replaces an entry of the same
BIRTH and drops its reference. A record with a higher commit sequence keeps the block (R330); the reference then goes. -/
def bindOne (seq nsid epoch lba : Nat) (unmapped : Bool) (chunk : Nat) (d : Dev) : Dev :=
  let es := d.entries nsid lba
  if es.any fun e => decide (seq < e.seq) then (if unmapped then d else refDelta chunk (-1) d)
  else
  let kept := es.filter fun e => e.birth != epoch
  let d := d.modMap fun m => { m with blocks := tput m.blocks (blockKey nsid lba) (kept ++ [⟨epoch, unmapped, chunk, seq⟩]) }
  dropRefs (es.filter fun e => e.birth == epoch) d

/-- The current epoch of a namespace. -/
def Dev.epoch (d : Dev) (nsid : Nat) : Nat := ((d.nsAny nsid).map (·.epoch)).getD 1

/-- BIND (R370). -/
def bind (seq nsid slba count first : Nat) (d : Dev) : Dev :=
  d.each (List.range count) fun d i =>
    bindOne seq nsid (d.epoch nsid) (slba + i) false (if first = 0 then 0 else first + i) d

/-- UNBIND (R370). -/
def unbind (seq nsid slba count : Nat) (d : Dev) : Dev :=
  d.each (List.range count) fun d i => bindOne seq nsid (d.epoch nsid) (slba + i) true 0 d

/-! ### Snapshots, clones and pruning -/

/-- Some clone depends on the snapshot. -/
def Dev.dependents (d : Dev) (nsid snap : Nat) : Bool := d.nss.any fun e => e.2.parent == some (nsid, snap) && !e.2.deleted

/-- The entry with BIRTH `b` and the next BIRTH `n` is retained (R464). -/
def retained (snaps : List Snap) (b : Nat) (n : Option Nat) : Bool :=
  match n with
  | none => true
  | some e => snaps.any fun s => decide (b ≤ s.epoch) && decide (s.epoch < e)

/-- A block's entries with the BIRTH of the next one. -/
def withNext : List BmEntry → List (BmEntry × Option Nat)
  | [] => []
  | [e] => [(e, none)]
  | e :: f :: t => (e, some f.birth) :: withNext (f :: t)

/-- The prunable entries of a namespace (R464, R475): every entry of a deleted namespace is prunable. -/
def Dev.prunable (d : Dev) (nsid : Nat) : List (Nat × BmEntry) :=
  match d.nsAny nsid with
  | none => []
  | some n => ((d.xmap.blocks.filter fun b => b.1 / 2 ^ 41 == nsid).map fun b =>
      ((withNext b.2).filter fun e => n.deleted || !retained n.snaps e.1.birth e.2).map fun e =>
        (b.1 % 2 ^ 41, e.1)).flatten

/-- Pruning is pending in a namespace (R475, R496): an entry of it is prunable. -/
def Dev.prunePending (d : Dev) (nsid : Nat) : Bool := !(d.prunable nsid).isEmpty

/-- A snapshot taken from a namespace's current state (R465). -/
def snapMark (nsid id label time : Nat) (d : Dev) : Dev :=
  (d.modNs nsid fun n => { n with
    snaps := n.snaps ++ [⟨id, n.epoch, label, time, false, n.size⟩], epoch := n.epoch + 1, nextSnap := max n.nextSnap (id + 1) }).bump
      VRV_CNT_SNAPS.COUNT 1

/-- A snapshot removed from view, or hidden while clones depend on it (R469). -/
def snapDrop (nsid id : Nat) (d : Dev) : Dev :=
  if d.dependents nsid id then
    d.modNs nsid fun n => { n with snaps := n.snaps.map fun s => if s.id = id then { s with hidden := true } else s }
  else d.modNs nsid fun n => { n with
    gone := n.gone ++ ((n.snaps.filter (·.id == id)).map fun s => (s.id, s.epoch)), snaps := n.snaps.filter (·.id != id) }

/-- A clone that no longer exists lets its hidden parent snapshot go (R469). -/
def dropHidden (parent : Option (Nat × Nat)) (d : Dev) : Dev :=
  match parent with
  | none => d
  | some (p, sid) =>
    match (d.nsAny p).bind (·.snap sid) with
    | some s => if s.hidden && !d.dependents p sid then snapDrop p sid d else d
    | none => d

/-- A namespace that does not exist yet. -/
def Ns.empty : Ns := ⟨0, false, 0, 0, 0, 1, 1, [], [], none, 0, none, false, none, (0, 0, 0), []⟩

/-- The reclaim of a deleted namespace ends when its last entry is pruned (R475). -/
def reclaimEnd (nsid : Nat) (d : Dev) : Dev :=
  match d.nsAny nsid with
  | none => d
  | some n => if n.deleted && !(d.xmap.blocks.any fun b => b.1 / 2 ^ 41 == nsid) then { d with nss := tdel d.nss nsid } else d

/-- An entry pruned (R480). -/
def pruneEntry (nsid lba birth : Nat) (d : Dev) : Dev :=
  let es := (d.entries nsid lba).filter fun e => e.birth != birth
  let put (t : Tab (List BmEntry)) : Tab (List BmEntry) :=
    if es.isEmpty then tdel t (blockKey nsid lba) else tput t (blockKey nsid lba) es
  let d := d.modMap fun m => { m with blocks := put m.blocks }
  reclaimEnd nsid (d.bump VRV_CNT_PRUNED.COUNT 1)

/-! ### The operations of MAP_DELTA -/

/-- The pool a stripe ID names (R364). -/
def stripePool (s : Nat) : Nat := bits s 48 3

/-- What one MAP_DELTA entry does (R370, R371, R480), with the TIMEBASE and the effect sequence of its record. -/
def applyDelta (time seq : Nat) (d : Dev) : MapDelta → Dev
  | .bind nsid slba count first => bind seq nsid slba count first d
  | .unbind nsid slba count => unbind seq nsid slba count d
  | .locate obj ordinal form strip offset len stripe seq =>
    d.modMap fun m => { m with objs := tput m.objs (objKey obj ordinal) ⟨form, strip, offset, len, stripe, seq⟩ }
  | .unlocate obj ordinal _ _ _ _ _ _ => d.modMap fun m => { m with objs := tdel m.objs (objKey obj ordinal) }
  | .diverge stripe cause synd agree seq =>
    if d.xmap.divLog.any (·.stripe == stripe) then d
    else ((d.modMap fun m => { m with divLog := m.divLog ++ [⟨stripe, seq, time, cause, synd, agree == 1⟩] }).set
      MOR_STATUS.DIVERGENT).bump MOR_CNT_DIVERGENT.COUNT 1
  | .clear stripe _ => d.modMap fun m => { m with divLog := m.divLog.filter (·.stripe != stripe), found := without m.found stripe }
  | .snapMark nsid snap label => snapMark nsid snap label time d
  | .snapDrop nsid snap => snapDrop nsid snap d
  | .cloneLink clone snap parent => d.modNs clone fun n => { n with parent := some (parent, snap) }
  | .prune nsid lba birth => pruneEntry nsid lba birth d
  | .nsSet nsid size pack attrs =>
    let old := ((tget d.nss nsid).filter fun n => !n.deleted).getD Ns.empty
    { d with nss := tput d.nss nsid { old with
      pool := bits attrs 0 3, big := bit attrs 3, flags := bits attrs 4 2, pack := pack, size := size } }
  | .nsRemove nsid =>
    let parent := (d.nsAny nsid).bind (·.parent)
    reclaimEnd nsid (dropHidden parent (d.modNs nsid fun n => { n with
      deleted := true, gone := n.gone ++ n.snaps.map (fun s => (s.id, s.epoch)), snaps := [] }))
  | .nsAttach nsid fn attach owner keyId =>
    d.modNs nsid fun n => { n with
      attached := (if attach then (if n.attached.contains fn then n.attached else n.attached ++ [fn]) else without n.attached fn)
      owner := if owner then some fn else n.owner
      ownerKey := if owner then keyId else n.ownerKey }
  | .applyMark nsid seq stream resume => d.modNs nsid fun n => { n with applyMark := (seq, stream, resume) }
  | .applyLabels nsid base target => d.modNs nsid fun n => { n with applyLabels := some (base, target) }
  | .applyEnd nsid => d.modNs nsid fun n => { n with applyLabels := none }

/-- BINDs of blocks from `slba` on to the chunks of a list: runs of consecutive chunk IDs and runs of the zero chunk become
one entry each. -/
def bindRuns (nsid slba : Nat) : List Nat → List MapDelta
  | [] => []
  | c :: t =>
    match bindRuns nsid (slba + 1) t with
    | .bind n s k f :: rest =>
      if (c ≠ 0 ∧ f = c + 1 ∧ s = slba + 1) ∨ (c = 0 ∧ f = 0 ∧ s = slba + 1) then .bind n slba (k + 1) c :: rest
      else .bind nsid slba 1 c :: .bind n s k f :: rest
    | rest => .bind nsid slba 1 c :: rest

/-- UNBINDs of a range of any length: COUNT has 32 bits (R370). The first argument bounds the entries. -/
def unbindRuns : Nat → Nat → Nat → Nat → List MapDelta
  | 0, _, _, _ => []
  | fuel + 1, nsid, slba, n =>
    if n = 0 then []
    else if n < 2 ^ 32 then [.unbind nsid slba n]
    else .unbind nsid slba (2 ^ 32 - 1) :: unbindRuns fuel nsid (slba + (2 ^ 32 - 1)) (n - (2 ^ 32 - 1))

/-! ### Counts of a namespace (R479) -/

/-- The chain of a namespace and its parents. -/
def nsChain : Nat → Nat → Dev → List Nat
  | 0, _, _ => []
  | fuel + 1, nsid, d => nsid :: match (d.nsAny nsid).bind (·.parent) with
    | some (p, _) => nsChain fuel p d
    | none => []

/-- The logical blocks that a namespace or one of its parents holds an entry of. -/
def Dev.knownBlocks (d : Dev) (nsid : Nat) : List Nat :=
  let ch := nsChain 9 nsid d
  ((d.xmap.blocks.filter fun b => ch.contains (b.1 / 2 ^ 41)).foldl
    (fun t b => tput t (b.1 % 2 ^ 41) ()) ([] : Tab Unit)).map (·.1)

/-- LIVE_BLOCKS (R479). -/
def Dev.liveBlocks (d : Dev) (nsid : Nat) : Nat :=
  ((d.knownBlocks nsid).filter fun b => (d.chunkAt nsid (d.epoch nsid) b).isSome).length

/-- RETAINED_BLOCKS (R479). -/
def Dev.retainedBlocks (d : Dev) (nsid : Nat) : Nat :=
  let snaps := ((d.nsAny nsid).map (·.snaps)).getD []
  (((d.xmap.blocks.filter fun b => b.1 / 2 ^ 41 == nsid).map fun b =>
    (withNext b.2).filter fun e => !e.1.unmapped && e.2.isSome && retained snaps e.1.birth e.2).flatten).length

/-- UNIQUE_BLOCKS of a snapshot (R479). -/
def Dev.uniqueBlocks (d : Dev) (nsid snap : Nat) : Nat :=
  let snaps := ((d.nsAny nsid).map (·.snaps)).getD []
  let rest := snaps.filter (·.id != snap)
  (((d.xmap.blocks.filter fun b => b.1 / 2 ^ 41 == nsid).map fun b =>
    (withNext b.2).filter fun e =>
      !e.1.unmapped && retained snaps e.1.birth e.2 && !retained rest e.1.birth e.2).flatten).length

end Sys2Proof.Machine
end

