-- ==== Sys2Proof/Machine/Record.lean ====
section
/-! DEFINITION. The bytes of a Firn record (R288 to R292): header, payload sections, check values and CHAIN; and how the
bytes of a copy that arrives are read. -/

namespace Sys2Proof.Machine

/-- A record that carries nothing yet. -/
def FRec.empty : FRec where
  rtype := 0
  pool := 0
  home := 0
  receiver := 0
  member := false
  cls := 3
  cmds := []
  seq := 0
  group := 0
  func := 1024
  nsid := 0
  slba := 0
  nlb := 0
  aux := 0
  time := 0
  chain := []
  chunks := []
  refs := []
  mapDelta := []
  refDelta := []
  members := []
  effects := []
  marks := []
  plan := none
  written := false
  ack := none
  applied := false
  committed := false
  dualDone := false
  void := false
  divergent := false
  stripes := []
  doneStripes := []
  since := 0
  posted := false
  origin := .media
  order := 0
  msgId := 0
  gfn := 1024
  placed := 0
  sect := false
  took := false
  place := []
  copy := false
  gen := 0
  counted := false

/-- The record types of R289. -/
def rtWrite : Nat := 1
def rtMap : Nat := 2
def rtMark : Nat := 3
def rtIntent : Nat := 4
def rtRelease : Nat := 5
def rtCommit : Nat := 6
def rtLink : Nat := 7
def rtAbort : Nat := 8
def rtRevoke : Nat := 9

/-- An internal record (R284). -/
def FRec.internal (r : FRec) : Bool := decide (3 ≤ r.rtype)

/-! ### Sections -/

/-- A section: its header and body, padded to an 8-byte boundary (R290). -/
def sectionBytes (stype : Nat) (body : Bytes) : Bytes :=
  let b := leBytes 1 stype ++ [0, 0, 0] ++ leBytes 4 body.length ++ body
  b ++ List.replicate ((8 - b.length % 8) % 8) 0

/-- A section that is present when its list has entries. -/
def listSection {α : Type} (stype : Nat) (l : List α) (f : α → Bytes) : Bytes :=
  if l.isEmpty then [] else sectionBytes stype (l.map f).flatten

/-- A LOCATE or UNLOCATE entry (R369, R371). -/
def objBytes (mop obj ordinal form strip offset len stripe seq : Nat) : Bytes :=
  leBytes 1 mop ++ leBytes 7 (obj / 256) ++ leBytes 2 ordinal ++ leBytes 1 form ++ leBytes 1 strip ++ leBytes 1 offset ++
    leBytes 1 obj ++ leBytes 2 len ++ leBytes 8 stripe ++ leBytes 8 seq

/-- An entry of 32 bytes with its operands in the columns of R370 and R480. -/
def mopBytes (mop b4 b8 b16 b20 b24 : Nat) : Bytes :=
  leBytes 1 mop ++ [0, 0, 0] ++ leBytes 4 b4 ++ leBytes 8 b8 ++ leBytes 4 b16 ++ leBytes 4 b20 ++ leBytes 8 b24

/-- The bytes of a MAP_DELTA entry (R370, R371, R480). -/
def MapDelta.bytes : MapDelta → Bytes
  | .bind n s c f => mopBytes 1 n s c 0 f
  | .unbind n s c => mopBytes 2 n s c 0 0
  | .locate a b c e f g h i => objBytes 3 a b c e f g h i
  | .unlocate a b c e f g h i => objBytes 4 a b c e f g h i
  | .diverge s c y a q => mopBytes 5 0 s c (y + 256 * a) q
  | .clear s q => mopBytes 6 0 s 0 0 q
  | .snapMark n s l => mopBytes 0x10 n s 0 0 l
  | .snapDrop n s => mopBytes 0x11 n s 0 0 0
  | .cloneLink c s p => mopBytes 0x12 c s p 0 0
  | .prune n l b => mopBytes 0x13 n l 0 b 0
  | .nsSet n s p a => mopBytes 0x14 n s p a 0
  | .nsRemove n => mopBytes 0x15 n 0 0 0 0
  | .nsAttach n f a o k => mopBytes 0x16 n (f + 1024 * b2n a + 2048 * b2n o) k 0 0
  | .applyMark n s st r => mopBytes 0x17 n (s + 2 ^ 32 * st) 0 0 r
  | .applyLabels n b t => mopBytes 0x18 n b 0 0 t
  | .applyEnd n => mopBytes 0x19 n 0 0 0 0

/-- A MAP_DELTA entry from its bytes. -/
def mapDeltaOf (b : Bytes) : Option MapDelta :=
  let n := getLe b 4 4
  let x := getLe b 8 8
  let y := getLe b 16 4
  let z := getLe b 20 4
  let w := getLe b 24 8
  let obj := getLe b 1 7 * 256 + getLe b 13 1
  match getLe b 0 1 with
  | 1 => some (.bind n x y w)
  | 2 => some (.unbind n x y)
  | 3 => some (.locate obj (getLe b 8 2) (getLe b 10 1) (getLe b 11 1) (getLe b 12 1) (getLe b 14 2) (getLe b 16 8) w)
  | 4 => some (.unlocate obj (getLe b 8 2) (getLe b 10 1) (getLe b 11 1) (getLe b 12 1) (getLe b 14 2) (getLe b 16 8) w)
  | 5 => some (.diverge x y (z % 256) (z / 256 % 256) w)
  | 6 => some (.clear x w)
  | 0x10 => some (.snapMark n x w)
  | 0x11 => some (.snapDrop n x)
  | 0x12 => some (.cloneLink n x y)
  | 0x13 => some (.prune n x z)
  | 0x14 => some (.nsSet n x y z)
  | 0x15 => some (.nsRemove n)
  | 0x16 => some (.nsAttach n (x % 1024) (bit x 10) (bit x 11) y)
  | 0x17 => some (.applyMark n (x % 2 ^ 32) (x / 2 ^ 32) w)
  | 0x18 => some (.applyLabels n x w)
  | 0x19 => some (.applyEnd n)
  | _ => none

/-- The stripe descriptor with the records destaged (R367). -/
def StripePlan.bytes (p : StripePlan) : Bytes :=
  leBytes 8 p.stripe ++ leBytes 8 p.replaces ++ leBytes 1 p.k ++ leBytes 1 p.m ++ leBytes 1 (b2n p.big) ++ [0] ++
    leBytes 4 p.recs.length ++
    ((List.range 64).map fun o => leBytes 2 (p.members.getD o 0xFFFF)).flatten ++
    (p.strips.map fun s => leBytes 6 (s.1 + 2 ^ 32 * s.2.1 + 2 ^ 42 * s.2.2.1) ++ [0, 0] ++ leBytes 8 s.2.2.2).flatten ++
    (p.recs.map (leBytes 8)).flatten

/-- A stripe descriptor from its bytes. -/
def planOf (b : Bytes) : StripePlan :=
  let k := getLe b 16 1
  let m := getLe b 17 1
  let strip := fun i =>
    let t := getLe b (152 + 16 * i) 6
    (bits t 0 32, bits t 32 10, bits t 42 4, getLe b (160 + 16 * i) 8)
  ⟨getLe b 0 8, getLe b 8 8, k, m, getLe b 18 1 == 1, (List.range (k + m)).map fun o => getLe b (24 + 2 * o) 2,
    (List.range k).map strip, (List.range (getLe b 20 4)).map fun i => getLe b (152 + 16 * k + 8 * i) 8⟩

/-- The objects of a record, each at a 512-byte boundary of OBJECTS, with its offset. -/
def objOffsets : Nat → List ChunkObj → List (Nat × ChunkObj)
  | _, [] => []
  | o, c :: t => (o, c) :: objOffsets (o + (c.bytes.length + 511) / 512 * 512) t

/-- The body of OBJECTS; the last object ends it. -/
def objectsBody : Nat → List ChunkObj → Bytes
  | _, [] => []
  | o, c :: t =>
    c.bytes ++ (if t.all (fun x => x.bytes.isEmpty) then [] else List.replicate ((512 - c.bytes.length % 512) % 512) 0) ++
      objectsBody (o + (c.bytes.length + 511) / 512 * 512) t

/-- The sections other than OBJECTS, in the order of R290; a map-log strip holds the same (R374). -/
def FRec.sections (r : FRec) : Bytes :=
  (if r.cmds.length ≤ 1 then [] else listSection 1 r.cmds fun c =>
    leBytes 4 c.q ++ leBytes 2 c.tag ++ [0, 0] ++ leBytes 8 c.slba ++ leBytes 4 c.nlb ++ leBytes 4 c.firstOrd) ++
  listSection 2 (objOffsets 0 r.chunks) (fun c =>
    leBytes 8 c.2.id ++ leBytes 4 c.1 ++ leBytes 2 c.2.bytes.length ++ leBytes 1 c.2.form ++ [0] ++ padTo 32 c.2.fp) ++
  listSection 3 r.refs (fun x => leBytes 4 x.1 ++ leBytes 4 0 ++ leBytes 8 x.2) ++
  listSection 4 r.mapDelta MapDelta.bytes ++
  listSection 5 r.refDelta (fun x => leBytes 8 x.1 ++ leBytes 4 (toBits 32 x.2) ++ leBytes 4 0) ++
  listSection 7 r.members (fun x => leBytes 8 x.2 ++ leBytes 1 x.1 ++ List.replicate 7 0) ++
  listSection 8 r.effects (fun x => leBytes 1 x.1 ++ List.replicate 7 0 ++ leBytes 8 x.2) ++
  listSection 9 r.marks (fun x => leBytes 1 x.1 ++ [0, 0, 0] ++ leBytes 4 x.2.1 ++ leBytes 2 x.2.2.1 ++
    List.replicate 6 0 ++ leBytes 8 x.2.2.2) ++
  (match r.plan with
    | some p => sectionBytes 0x0A p.bytes
    | none => [])

/-- The payload before padding to whole pages: OBJECTS stands last and starts on a page boundary (R290). -/
def FRec.payload (r : FRec) : Bytes :=
  let s := r.sections
  if r.chunks.all (fun c => c.bytes.isEmpty) then s
  else
    let s := s ++ List.replicate ((4096 - s.length % 4096) % 4096) 0
    let body := objectsBody 0 r.chunks
    s ++ leBytes 1 6 ++ [0, 0, 0] ++ leBytes 4 body.length ++ body

/-- NPAGE (R290). -/
def FRec.npage (r : FRec) : Nat := (r.payload.length + 4095) / 4096

/-- The pages of a record. -/
def FRec.pages (r : FRec) : Bytes := padTo (4096 * r.npage) r.payload

/-- RFLAGS (R288). -/
def FRec.rflags (r : FRec) : Nat := r.home + 2 * r.receiver + 4 * b2n r.member + 8 * r.cls

/-- A stored container of a stream block: it belongs to chunks and is none itself. -/
def ChunkObj.isContainer (c : ChunkObj) : Bool := c.form == 0x10 && !c.bytes.isEmpty

/-- Bytes 0 to 87 of the header, given NPAGE and PCHECK: the bytes that CHAIN covers (R288, R292). -/
def FRec.head88 (r : FRec) (npage pcheck : Nat) : Bytes :=
  let c := r.cmds.head?
  leBytes 2 0x9F1A ++ [1] ++ leBytes 1 r.rtype ++ leBytes 1 r.pool ++ leBytes 1 r.rflags ++ leBytes 2 r.cmds.length ++
    leBytes 8 r.seq ++ leBytes 8 r.group ++ leBytes 4 ((c.map (·.q)).getD 0xFFFFFFFF) ++ leBytes 2 ((c.map (·.tag)).getD 0) ++
    leBytes 2 r.func ++ leBytes 4 r.nsid ++ leBytes 4 npage ++ leBytes 8 r.slba ++ leBytes 4 r.nlb ++
    leBytes 4 (r.chunks.filter fun c => !c.isContainer).length ++ leBytes 4 r.refs.length ++ leBytes 4 0 ++ leBytes 8 r.aux ++ leBytes 8 r.time ++
    leBytes 8 pcheck

/-- PCHECK (R288). -/
def FRec.pcheck (r : FRec) : Nat := if r.npage = 0 then 0 else crc64 r.pages

/-- The 256 bytes of the header (R288). -/
def FRec.header (r : FRec) : Bytes :=
  let b := r.head88 r.npage r.pcheck ++ padTo 16 r.chain ++ List.replicate 144 0
  b ++ leBytes 8 (crc64 b)

/-- HCHECK (R288). -/
def FRec.hcheck (r : FRec) : Nat := getLe r.header 248 8

/-- CHAIN of a record after the CHAIN of the one before (R292). That of a LINK record is made before its AUX is known. -/
def chainNext (prev : Bytes) (r : FRec) : Bytes :=
  let r := if r.rtype = rtLink then { r with aux := 0 } else r
  (sha256 (padTo 16 prev ++ r.head88 r.npage r.pcheck)).take 16

/-- The bytes of a copy: header and pages. -/
def FRec.bytes (r : FRec) : Bytes := r.header ++ r.pages

/-! ### Reading the bytes of a copy -/

/-- The sections of a payload: kind, body and the offset of the body. OBJECTS starts on a page boundary; the zeros before it
are skipped. The first argument bounds the sections. -/
def sectionsOf : Nat → Nat → Bytes → List (Nat × Bytes)
  | 0, _, _ => []
  | fuel + 1, off, b =>
    if b.length < off + 8 then []
    else if getLe b off 1 = 0 then
      (if off % 4096 = 0 then [] else sectionsOf fuel ((off / 4096 + 1) * 4096) b)
    else
      let n := getLe b (off + 4) 4
      (getLe b off 1, getBytes b (off + 8) n) :: sectionsOf fuel ((off + 8 + n + 7) / 8 * 8) b

/-- The body of a section. -/
def sectionOf (ss : List (Nat × Bytes)) (stype : Nat) : Bytes := ((ss.find? (·.1 == stype)).map (·.2)).getD []

/-- The entries of a section of fixed-size entries. -/
def entriesOf {α : Type} (ss : List (Nat × Bytes)) (stype size : Nat) (f : Bytes → α) : List α :=
  (pieces size (sectionOf ss stype)).map f

/-- Containers take their ordinals from their order among entries of one block ID. -/
def numberContainers : List ChunkObj → List ChunkObj → List ChunkObj
  | _, [] => []
  | seen, c :: t =>
    let n := if c.form = 0x10 ∧ !c.bytes.isEmpty then (seen.filter fun x => x.id == c.id && !x.bytes.isEmpty).length else 0
    { c with ordinal := n } :: numberContainers (c :: seen) t

/-- A record from the bytes of a copy, with its check values tested as they entered the region (R299). -/
def recordOf (b : Bytes) : Option FRec :=
  let h := b.take 256
  let n := getLe h 36 4
  let pages := getBytes b 256 (4096 * n)
  if b.length ≠ 256 + 4096 * n ∨ getLe h 0 2 ≠ 0x9F1A ∨ getLe h 2 1 ≠ 1 ∨ crc64 (h.take 248) ≠ getLe h 248 8
      ∨ (if n = 0 then 0 else crc64 pages) ≠ getLe h 80 8 then none
  else
    let ss := sectionsOf 16 0 pages
    let objs := sectionOf ss 6
    let fl := getLe h 5 1
    let ncmd := getLe h 6 2
    let q := getLe h 24 4
    let tag := getLe h 28 2
    let slba := getLe h 40 8
    let nlb := getLe h 48 4
    let cmds : List CmdRef :=
      if ncmd = 0 then [] else if ncmd = 1 then [⟨q, tag, slba, nlb, 0⟩]
      else entriesOf ss 1 24 fun e => ⟨getLe e 0 4, getLe e 4 2, getLe e 8 8, getLe e 16 4, getLe e 20 4⟩
    let chunk (e : Bytes) : ChunkObj :=
      ⟨getLe e 0 8, 0, getLe e 14 1, if allZero (getBytes e 16 32) then [] else getBytes e 16 32,
        getBytes objs (getLe e 8 4) (getLe e 12 2)⟩
    some { FRec.empty with
      rtype := getLe h 3 1
      pool := getLe h 4 1 % 8
      home := bits fl 0 1
      receiver := bits fl 1 1
      member := bit fl 2
      cls := bits fl 3 2
      cmds := cmds
      seq := getLe h 8 8
      group := getLe h 16 8
      func := getLe h 30 2
      gfn := getLe h 30 2
      nsid := getLe h 32 4
      slba := slba
      nlb := nlb
      aux := getLe h 64 8
      time := getLe h 72 8
      chain := getBytes h 88 16
      chunks := numberContainers [] (entriesOf ss 2 48 chunk)
      refs := entriesOf ss 3 16 fun e => (getLe e 0 4, getLe e 8 8)
      mapDelta := (pieces 32 (sectionOf ss 4)).filterMap mapDeltaOf
      refDelta := entriesOf ss 5 16 fun e => (getLe e 0 8, ofBits 32 (getLe e 8 4))
      members := entriesOf ss 7 16 fun e => (getLe e 8 1, getLe e 0 8)
      effects := entriesOf ss 8 16 fun e => (getLe e 0 1, getLe e 8 8)
      marks := entriesOf ss 9 24 fun e => (getLe e 0 1, getLe e 4 4, getLe e 8 2, getLe e 16 8)
      plan := if (sectionOf ss 0x0A).isEmpty then none else some (planOf (sectionOf ss 0x0A)) }

end Sys2Proof.Machine
end

