-- ==== Sys2Proof/Machine/Firn.lean ====
section
/-! DEFINITION. The Firn cache controller (R280 to R302): space and admission, the assignment of commit sequences, mirroring,
the completion condition of a record, and how a twin applies records to its extent map. -/

namespace Sys2Proof.Machine

/-! ### Who is home -/

/-- This module is home twin of a pool (R25). -/
def Dev.isHome (d : Dev) (p : Nat) : Bool := (tget d.pools p).map (·.home) == some d.twinSide

/-- The twin takes mirror copies: the mode is dual, or solo with the holdup not ready (R34), or a resync runs (R528, R537). -/
def Dev.mirrors (d : Dev) : Bool := d.mode == 0 || d.mode == 2 || (d.mode == 1 && d.rd TWN_STATUS.STATE == 4)

/-- The function on whose share of the arbiters a record travels: class D work has none and counts as 1,024 (R46). -/
def FRec.tenant (r : FRec) : Nat := if r.cls = 3 then 1024 else r.func

/-! ### Space (R280, R284 to R287) -/

/-- Pages of the heap. -/
def Dev.heapPages (d : Dev) : Nat := (d.rd FRN_CFG.REGION_GIB * 2 ^ 30 - 2 ^ 28 - 2 ^ 26) / 4096

/-- Pages of the records that a test picks. -/
def Dev.recPages (d : Dev) (p : FRec → Bool) : Nat := d.firn.recs.foldl (fun n e => if p e.2 then n + e.2.npage else n) 0

/-- Header slots of the records that a test picks. -/
def Dev.recSlots (d : Dev) (p : FRec → Bool) : Nat := (d.firn.recs.filter fun e => p e.2).length

/-- Free pages and slots, reserves included. -/
def Dev.freePages (d : Dev) : Nat := d.heapPages - d.recPages fun _ => true
def Dev.freeSlots (d : Dev) : Nat := 1048576 - d.firn.recs.length

/-- Free pages and slots outside the internal reserve (R284). -/
def Dev.freeOutside (d : Dev) : Nat × Nat :=
  (d.freePages - (16384 - min 16384 (d.recPages FRec.internal)), d.freeSlots - (1024 - min 1024 (d.recSlots FRec.internal)))

/-- The region admits the record now (R284, R285). -/
def Dev.admits (d : Dev) (r : FRec) : Bool :=
  let n := r.npage
  let f := d.freeOutside
  if r.internal then decide (n ≤ d.freePages) && decide (1 ≤ d.freeSlots)
  else if r.cls = 0 then decide (n ≤ f.1) && decide (1 ≤ f.2)
  else decide (n + d.rd FRN_CFG.A_RESERVE * 16384 ≤ f.1) && decide (1 + 65536 ≤ f.2)

/-- The group of R286 a record waits in. -/
def FRec.waitGroup (r : FRec) : Nat := if r.internal then 0 else if r.cls = 0 then 1 else 2

/-- The thresholds of R287: below 25 % free pages the destage takes the weight of class B, below 10 % the ring engine stops fetching class C
write-class commands, above 15 % it resumes. -/
def spaceCheck (d : Dev) : Dev :=
  let f := d.freePages * 100
  d.modFirn fun x => { x with
    destageUrgent := decide (f < d.heapPages * 25)
    classCStopped := if f < d.heapPages * 10 then true else if d.heapPages * 15 < f then false else x.classCStopped }

/-! ### Commit sequences and chains (R292 to R295) -/

/-- The next COMMIT_SEQ of a pool; the first is 1 (R293). -/
def Dev.nextSeq (d : Dev) (p : Nat) : Nat := (tget d.firn.next p).getD 1

/-- The highest COMMIT_SEQ of a pool held (R342). -/
def Dev.heldSeq (d : Dev) (p : Nat) : Nat := (tget d.firn.held p).getD 0

/-- The header slot of the record with a COMMIT_SEQ of a pool. -/
def Dev.slotOf (d : Dev) (p seq : Nat) : Option Nat :=
  (d.firn.recs.find? fun e => e.2.pool == p && e.2.seq == seq && e.2.seq != 0).map (·.1)

/-- A held record. -/
def Dev.recAt (d : Dev) (slot : Nat) : Option FRec := tget d.firn.recs slot

/-- A held record changed. -/
def modRec (slot : Nat) (f : FRec → FRec) (d : Dev) : Dev := d.modFirn fun x => { x with recs := tmod x.recs slot f }

/-- The highest COMMIT_SEQ of a pool applied. -/
def Dev.appliedSeq (d : Dev) (p : Nat) : Nat := (tget d.firn.appliedTo p).getD 0

/-- A record leaves the region. One that goes before it was applied leaves no gap for the records behind it (R296). -/
def freeRec (slot : Nat) (d : Dev) : Dev :=
  let left := ((d.recAt slot).filter fun r => r.seq != 0 && !r.applied && decide (d.appliedSeq r.pool < r.seq)).map fun r => (r.pool, r.seq)
  let d := spaceCheck (d.modFirn fun x => { x with recs := tdel x.recs slot, gone := x.gone ++ left.toList })
  d.put FRN_STATUS.EMPTY d.firn.recs.isEmpty

/-- Records of a pool whose mirror copy is not yet acknowledged (R295). -/
def Dev.unacked (d : Dev) (p : Nat) : Nat :=
  if d.mirrors then d.recSlots fun r => r.pool == p && r.home == d.twinSide && r.seq != 0 && r.ack.isNone else 0

/-- A snapshot ID that stands as 0 in a record's deltas becomes the ID assigned (R465). -/
def fillSnap (id : Nat) : MapDelta → MapDelta
  | .snapMark n 0 l => .snapMark n id l
  | .snapDrop n 0 => .snapDrop n id
  | .cloneLink c 0 p => .cloneLink c id p
  | x => x

/-- The namespace of which a record takes a snapshot. -/
def snapOf (l : List MapDelta) : Option Nat := l.findSome? fun x => match x with
  | .snapMark n 0 _ => some n
  | _ => none

/-! ### References (R28, R140, R372, R373) -/

/-- The home twin may take `n` references on a chunk. -/
def Dev.refOpen (d : Dev) (id n : Nat) : Bool :=
  match tget d.xmap.chunks id with
  | none => false
  | some e => decide (e.refs + n ≤ 0xFFFFFFFE) &&
      !d.xmap.objs.any fun o => o.1 / 65536 == (if e.inBlock then e.block else id) && d.xmap.divLog.any fun v => v.stripe == o.2.stripe

/-- The references of a record that the home twin cannot take, by their ordinals (R28, R140, R373). -/
def Dev.refusals (d : Dev) (r : FRec) : List Nat :=
  let counts (c : Nat) : Nat := (r.refs.filter fun x => x.2 == c).length
  let divergent (c : Nat) : Bool := d.firn.divs.any fun v => v.pool == r.pool && ((d.slotOf v.pool v.seq).bind d.recAt).any fun x =>
    x.divergent && x.chunks.any fun k => k.id == c
  let own (c : Nat) : Bool := match tget d.xmap.chunks c, d.nsAny r.nsid with
    | some e, some n => e.size16 == n.big && e.owner % 1024 == n.tenant && e.pool == r.pool
    | _, _ => false
  (r.refs.filter fun x => x.2 != 0 && !(own x.2 && d.refOpen x.2 (counts x.2) && !divergent x.2)).map (·.1)

/-- The references that this module took for a record go again. -/
def dropTaken (r : FRec) (d : Dev) : Dev :=
  if r.took && !r.applied then d.each (r.refs.filter fun e => e.2 != 0) fun d e => refDelta e.2 (-1) d else d

/-- A lock of R85 is held for a command of the record. -/
def FRec.owns (r : FRec) (side : Nat) (l : Nat × Nat × Nat × Nat × Nat) : Bool :=
  r.cmds.any fun c => c.q + (if r.receiver = side then 0 else 2 ^ 32) == l.1 && c.tag == l.2.1

/-- The home twin assigns a held record its COMMIT_SEQ, TIMEBASE and CHAIN, and a snapshot its ID, and takes its references with them (R28,
R292, R293, R465). The blocks that a COMPARE_AND_WRITE held are free from then on (R85). -/
def assignSeq (slot : Nat) (d : Dev) : Dev :=
  match d.recAt slot with
  | none => d
  | some r =>
    let ns := snapOf r.mapDelta
    let id := (ns.bind fun n => (d.nsAny n).map (·.nextSnap)).getD 0
    let d := match ns with
      | some n => d.modNs n fun n => { n with nextSnap := n.nextSnap + 1 }
      | none => d
    let d := d.each (r.refs.filter fun e => e.2 != 0) fun d e => refDelta e.2 1 d
    let q := d.nextSeq r.pool
    let deltas := if ns.isSome then r.mapDelta.map (fillSnap id) else r.mapDelta
    let r := { r with
      seq := q, time := d.tbMedia, home := d.twinSide, mapDelta := deltas, took := true,
      aux := if r.rtype = rtMap ∧ ns.isSome then id else r.aux
      effects := if r.rtype = rtCommit then r.effects ++ [(r.pool, q)] else r.effects }
    let r := { r with chain := chainNext ((tget d.firn.chainOf r.pool).getD []) r }
    d.modFirn fun x => { x with
      recs := tput x.recs slot r, next := tput x.next r.pool (q + 1), chainOf := tput x.chainOf r.pool r.chain,
      held := tput x.held r.pool q, locks := x.locks.filter fun l => !(r.rtype == rtWrite && r.owns d.twinSide l) }

/-- The RECORD messages of a held record, segments of at most 1 MiB (R508); `ref` is its COMMIT_SEQ, or 0 for assignment. -/
def sendRecord (slot : Nat) (d : Dev) : Dev :=
  match d.recAt slot with
  | none => d
  | some r =>
    let id := d.snow.tx.msg
    let b := r.bytes
    let segs := (pieces (2 ^ 20) b).zipIdx
    (modRec slot (fun r => { r with msgId := id }) d).each segs fun d s =>
      snowSendFor r.tenant .record r.cls ⟨r.pool, s.2 * 2 ^ 20 + 2 ^ 32 * (b.length / 256), r.seq, 0, [id], s.1⟩ d

/-- The lowest `n` pages of the heap that no record takes. -/
def Dev.pagesFor (d : Dev) (n : Nat) : List Nat :=
  let used := d.firn.recs.flatMap fun e => e.2.place
  ((List.range (used.length + n)).filter fun p => !used.contains p).take n

/-- The Firn index entry of a record: its header slot and its pages (R283). -/
def Dev.indexEntry (d : Dev) (slot : Nat) : Option (Nat × List Nat) := (d.recAt slot).map fun r => (slot, r.place)

/-- A record takes its header slot and pages (R283, R284). -/
def takeSlot (r : FRec) (d : Dev) : Nat × Dev :=
  let slot := lowestFree (tkeys d.firn.recs) (d.firn.recs.length + 1) 0
  let place := d.pagesFor r.npage
  let d := d.modFirn fun x => { x with
    recs := tput x.recs slot { r with since := d.tbMedia, order := x.nextLocal, place := place }, nextLocal := x.nextLocal + 1 }
  (slot, spaceCheck ((d.bump FRN_CNT_RECORDS.COUNT 1).clr FRN_STATUS.EMPTY))

/-! ### Completion messages to the host half -/

/-- The media half completes a command of its host half (R251): STATUS, RESULT and the commit sequence; its context ends. -/
def mediaComplete (q tag status result seq : Nat) (d : Dev) : Dev :=
  let cls := ((d.queue q).map (·.cls)).getD 1
  let nsid := (((d.queue q).bind (·.cmd tag)).map Cmd.nsid).getD (((d.ctx q tag).map (·.nsid)).getD 0)
  (schSend .media .completion cls ⟨q, tag, 0, nsid, [status, result, seq], []⟩ d).dropCtx q tag

/-- The command of a queue has committed or taken its data: later commands that wait for it go on (R104, R105). -/
def markTook (q tag : Nat) (d : Dev) : Dev := (d.modCtx q tag fun c => { c with took := true }).modCmd q tag fun c => { c with took := true }

/-- A count of 24 bits of RESULT; a larger count is not stated. -/
def fit24 (n : Nat) (d : Dev) : Nat × Dev :=
  if n < 2 ^ 24 then (n, d) else let (v, d) := d.draw; (v % 2 ^ 24, d)

/-- RESULT of a command that a record carries (R82, R455, R467, R472, R489). -/
def recResult (r : FRec) (q tag : Nat) (d : Dev) : Nat × Dev :=
  let clone := r.mapDelta.findSome? fun x => match x with
    | .cloneLink c _ _ => some c
    | _ => none
  let snap := r.mapDelta.findSome? fun x => match x with
    | .snapMark _ s _ => some s
    | _ => none
  match d.ctx q tag with
  | none => (0, d)
  | some c =>
    match c.kind with
    | .write | .zeroes | .copy | .compareWrite =>
      if c.kind = .write ∧ c.src.2.1 ≠ 0 then (c.src.2.2, d) else
      let (refs, d) := fit24 c.refs d
      let (news, d) := fit24 c.news d
      (refs + 2 ^ 24 * news + 2 ^ 48 * d.mode, d)
    | .varve _ => ((clone.orElse fun _ => snap).getD c.result, d)
    | _ => (0, d)

/-- Every command that a record carries completes with a status (R297, R300, R312). -/
def completeRec (slot status : Nat) (d : Dev) : Dev :=
  match d.recAt slot with
  | none => d
  | some r =>
    if r.posted || r.origin == .media then modRec slot (fun r => { r with posted := true }) d
    else
      let d := modRec slot (fun r => { r with posted := true }) d
      d.each r.cmds fun d c =>
        let (res, d) := recResult r c.q c.tag d
        mediaComplete c.q c.tag status (if okStatus status ∨ status = stDivergent then res else 0) r.seq (markTook c.q c.tag d)

/-! ### What a commit brings about (R127, R210, R301) -/

/-- The number a counter mark is kept under. -/
def nonceKey (fn keyId : Nat) : Nat := fn * 2 ^ 32 + keyId

/-- The marks that a record made durable. -/
def recordMarks (r : FRec) (d : Dev) : Dev :=
  d.each r.marks fun d m =>
    d.modFirn fun x =>
      if m.1 = 1 then { x with serials := tput x.serials m.2.1 (max m.2.2.2 ((tget x.serials m.2.1).getD 0)) }
      else
        let k := nonceKey m.2.2.1 m.2.1
        { x with nonces := tput x.nonces k (max m.2.2.2 ((tget x.nonces k).getD 0)) }

/-- A later write or DEALLOCATE that covers blocks of divergent records committed (R301): a record whose every block is covered
leaves the list, and its copy is freed. -/
def coverDivs (r : FRec) (d : Dev) : Dev :=
  let covers (b : Nat) (x : DivRec) : Bool := x.nsid == r.nsid && decide (r.slba ≤ b) && decide (b < r.slba + r.nlb) && decide (x.seq < r.seq)
  let divs := d.firn.divs.map fun x =>
    { x with covered := x.covered ++ ((List.range x.nlb).map (x.slba + ·)).filter fun b => covers b x && !x.covered.contains b }
  let done := divs.filter fun x => decide (x.nlb ≤ x.covered.length)
  let d := d.modFirn fun f => { f with divs := divs.filter fun x => decide (x.covered.length < x.nlb) }
  d.each done fun d x => match d.slotOf x.pool x.seq with
    | some s => freeRec s d
    | none => d

/-- A new PACK_ATTR of a namespace holds once its record has committed, since NS_MANAGE completes then (R122); a stream block that is open on
the namespace takes no more chunks, and goes out with STREAM_BLOCK_TIMEOUT (R163). -/
def setPack (nsid pack : Nat) (d : Dev) : Dev :=
  if (d.nsAny nsid).all fun n => n.pack == pack then d
  else
    let close (b : StreamBlock) : StreamBlock := if b.nsid = nsid then { b with closing := true } else b
    let shut (e : Nat × Queue) : Nat × Queue := (e.1, { e.2 with block := e.2.block.map close })
    (d.modNs nsid fun n => { n with pack := pack }).modRings fun x => { x with queues := x.queues.map shut }

/-- What the commit of a record brings about beside the completions of its commands: its marks and a namespace's new PACK_ATTR hold, and
blocks of divergent records that it covers are covered. -/
def commitEffects (r : FRec) (d : Dev) : Dev :=
  let d := (recordMarks r d).when (r.rtype == rtWrite) (coverDivs r)
  d.each r.mapDelta fun d x => match x with
    | .nsSet nsid _ pack _ => setPack nsid pack d
    | _ => d

/-! ### What a record does when it enters (R305, R307, R312) -/

/-- An INTENT record reserves its stripe, and the records it names wait for it in place of the stripe it replaces (R307, R367). -/
def noteIntent (r : FRec) (d : Dev) : Dev :=
  match r.plan with
  | none => d
  | some p =>
    let st : Stripe := ⟨r.seq, p.k, p.m, p.members, p.strips, [], p.strips.any (fun t => t.2.2.1 == 3), true, p.replaces, false⟩
    let names (x : FRec) : FRec :=
      if x.pool = r.pool ∧ p.recs.contains x.seq ∧ !x.stripes.contains p.stripe then
        { x with stripes := without x.stripes p.replaces ++ [p.stripe] } else x
    (d.modMap fun m => { m with stripes := tput m.stripes p.stripe st }).modFirn fun x =>
      { x with recs := x.recs.map fun (e : Nat × FRec) => (e.1, names e.2) }

/-- Two records belong to one group, as far as their bytes tell. -/
def sameGroup (a b : FRec) : Bool :=
  a.group != 0 && a.group == b.group && a.receiver == b.receiver && (a.gfn == b.gfn || a.gfn == 1024 || b.gfn == 1024)

/-- The LINK record of another group that has not committed holds back a record of its pool with a higher COMMIT_SEQ (R325). DEDUCED: in the
solo modes an INTENT record is not held, since the destage of the LINK record itself waits for it (R298, R303). -/
def Dev.linkHolds (d : Dev) (r : FRec) : Bool :=
  !(r.rtype == rtIntent && d.mode != 0) && d.firn.recs.any fun e => e.2.rtype == rtLink && e.2.pool == r.pool && !e.2.void &&
    !e.2.committed && decide (e.2.seq < r.seq) && !sameGroup e.2 r

/-- A copy counts as committed on a twin that neither received its command nor is home twin (DEDUCED): in dual mode once it is written, and
once its stripes are all written in any; the records of a group commit with it, and none passes an open LINK record (R325). -/
def Dev.mirrorDone (d : Dev) (r : FRec) : Bool :=
  r.receiver != d.twinSide && r.seq != 0 && r.written && !r.committed && !r.void && !r.member && r.rtype != rtLink && r.rtype != rtCommit &&
    r.rtype != rtAbort && !d.linkHolds r &&
    ((r.home != d.twinSide && d.mode == 0) ||
      (!d.isHome r.pool && !r.stripes.isEmpty && r.stripes.all fun s => r.doneStripes.contains s))

/-- Every copy that counts as committed by now is marked so. -/
def noteMirrored (d : Dev) : Dev :=
  let now := (d.firn.recs.map (·.2)).filter d.mirrorDone
  let mark (r : FRec) : FRec := if d.mirrorDone r then { r with committed := true } else r
  (d.modFirn fun x => { x with recs := x.recs.map fun (e : Nat × FRec) => (e.1, mark e.2) }).each now fun d r => commitEffects r d

/-- Every strip of a stripe is written and acknowledged. -/
def noteWritten (pool stripe : Nat) (d : Dev) : Dev :=
  let mine (x : FRec) : Bool := x.pool == pool && x.stripes.contains stripe && !x.doneStripes.contains stripe
  let done (x : FRec) : FRec := if mine x then { x with doneStripes := x.doneStripes ++ [stripe] } else x
  noteMirrored (d.modFirn fun x => { x with recs := x.recs.map fun (e : Nat × FRec) => (e.1, done e.2) })

/-- A REVOKE record withdraws the record that it names: its references are dropped and its commands complete with 02h/02h (R312). -/
def noteRevoke (r : FRec) (d : Dev) : Dev :=
  match d.slotOf r.pool r.aux with
  | none => d
  | some slot =>
    match d.recAt slot with
    | none => d
    | some x =>
      let d := dropTaken x d
      completeRec slot stWriteFault (modRec slot (fun y => { y with void := true }) d)

/-- The COMMIT_SEQ of a COMMIT record stands in AUX of its group's LINK records (R288). DEDUCED: it is put there once it is assigned, which
is after theirs (R324); their CHAIN covers the header as they were assigned. -/
def noteCommit (r : FRec) (d : Dev) : Dev :=
  let link (x : FRec) : FRec := if x.rtype = rtLink ∧ r.effects.contains (x.pool, x.seq) then { x with aux := r.seq } else x
  d.modFirn fun x => { x with recs := x.recs.map fun (e : Nat × FRec) => (e.1, link e.2) }

/-- The member and LINK records of a discarded group are void from then on (R322, R328); those that wait for space are no more. -/
def voidRecs (a : FRec) (d : Dev) : Dev :=
  let mine (x : FRec) : Bool := (x.member || x.rtype == rtLink) && sameGroup x a && !x.committed
  d.modFirn fun x => { x with
    recs := x.recs.map fun (e : Nat × FRec) => (e.1, if mine e.2 then { e.2 with void := true } else e.2)
    waiting := x.waiting.filter fun w => !mine w }

/-- What a record with its COMMIT_SEQ brings about at once. An ABORT record of the other module ends its group here as well (R322). -/
def noteEntered (r : FRec) (d : Dev) : Dev :=
  if r.rtype = rtIntent then noteIntent r d
  else if r.rtype = rtCommit then noteCommit r d
  else if r.rtype = rtAbort then d.when (r.receiver != d.twinSide) (voidRecs r)
  else if r.rtype = rtRelease then noteWritten r.pool r.aux d
  else if r.rtype = rtRevoke then noteRevoke r d
  else d

/-- A record that another module assigned is held: the pool's highest COMMIT_SEQ and its CHAIN (R292, R342). -/
def noteHeld (r : FRec) (d : Dev) : Dev :=
  if d.heldSeq r.pool < r.seq then
    d.modFirn fun x => { x with held := tput x.held r.pool r.seq, chainOf := tput x.chainOf r.pool r.chain }
  else d

/-- A reference that cannot be taken is refused to the slice, and the command waits for the chunk as new (R140, R141). -/
def refuseRef (c : MCtx) (i : MItem) (d : Dev) : Dev :=
  let d := d.modCtx c.q c.tag fun x => { x with items := x.items.filter fun y => !(y.ord == i.ord && y.isRef) }
  schSend .media .referenceRefused (((d.queue c.q).map (·.cls)).getD 1) ⟨c.q, c.tag, i.id, c.nsid, [i.ord], []⟩ d

/-- A record of this module that was refused goes back to its commands: each refused chunk comes again as new (R141, R509); a COPY, which
has no data of its own here, ends. One of the other twin is refused to it. -/
def refuseRec (slot : Nat) (ords : List Nat) (d : Dev) : Dev :=
  match d.recAt slot with
  | none => d
  | some r =>
    if r.receiver ≠ d.twinSide then
      freeRec slot (snowSendFor r.tenant .refuse r.cls ⟨r.pool, r.msgId, 0, 0, ords, []⟩ d)
    else
      d.each r.cmds (fun d c => match d.ctx c.q c.tag with
        | none => d
        | some x =>
          if x.kind = .write ∨ x.kind = .compareWrite then
            let d := d.modCtx c.q c.tag fun y => { y with formed := false }
            d.each (x.items.filter fun i => i.isRef && ords.contains (i.ord + c.firstOrd)) fun d i => refuseRef x i d
          else mediaComplete c.q c.tag stCapacity 0 0 (markTook c.q c.tag d)) |> freeRec slot

/-- The home twin assigns a record that has its place, or refuses the references that it cannot take (R27, R28). Its own records are
mirrored; one of the other twin is acknowledged to it. -/
def assignNow (slot : Nat) (d : Dev) : Dev :=
  match d.recAt slot with
  | none => d
  | some r =>
    let no := d.refusals r
    if !no.isEmpty then refuseRec slot no d
    else
      let d := assignSeq slot d
      noteEntered ((d.recAt slot).getD r) (d.when (d.mirrors && r.receiver == d.twinSide) (sendRecord slot))

/-- A record enters the region: as home twin this module assigns it; otherwise a record of this module goes to the home twin for
assignment (R27). A copy, which has its COMMIT_SEQ, only takes its place. -/
def enterRec (r : FRec) (d : Dev) : Dev :=
  let (slot, d) := takeSlot r d
  if r.divergent then d
  else if r.seq ≠ 0 then noteEntered r (noteHeld r d)
  else if d.isHome r.pool then assignNow slot d
  else sendRecord slot d

/-- Two block ranges meet. -/
def meetsRange (s n t m : Nat) : Bool := decide (s < t + m) && decide (t < s + n)

/-- The COMMIT or LINK record gives members that cover blocks of the range their place in its pool (R325). -/
def Dev.groupCovers (d : Dev) (r : FRec) (nsid slba nlb : Nat) : Bool :=
  (r.rtype == rtCommit || r.rtype == rtLink) && d.firn.recs.any fun e => e.2.member && !e.2.void && e.2.pool == r.pool && sameGroup e.2 r &&
    e.2.nsid == nsid && meetsRange e.2.slba e.2.nlb slba nlb

/-- The record covers blocks of the range, itself or by the members that it commits. -/
def Dev.covers (d : Dev) (r : FRec) (nsid slba nlb : Nat) : Bool :=
  (r.rtype == rtWrite && r.nsid == nsid && meetsRange r.slba r.nlb slba nlb) || d.groupCovers r nsid slba nlb

/-- A COMPARE_AND_WRITE between its compare and its own COMMIT_SEQ holds back every other record that covers its blocks (R85). Its lock
names its queue (with 2^32 where it came from the other twin) and tag. -/
def Dev.lockHolds (d : Dev) (r : FRec) : Bool :=
  r.seq == 0 && d.isHome r.pool && d.firn.locks.any fun l => d.covers r l.2.2.1 l.2.2.2.1 l.2.2.2.2 && !r.owns d.twinSide l

/-- A swap has begun its hold, so that the pool's assignment stops (R540). -/
def Dev.assignHeld (d : Dev) (p : Nat) : Bool := d.isHome p && d.twin.swap.any fun s => s.hold && bit s.pools p

/-- 65,536 records of the pool lack the twin's acknowledgement, so that assignment waits (R295). -/
def Dev.ackFull (d : Dev) (p : Nat) : Bool := d.isHome p && decide (65536 ≤ d.unacked p)

/-- The record waits for something else than space: a compare or a swap holds it back, 65,536 records of the pool lack the twin's
acknowledgement, or records that came before it still wait for that (R85, R295, R540). A record whose compare was made before the hold of a
swap is assigned in it. -/
def Dev.heldBack (d : Dev) (r : FRec) : Bool :=
  d.lockHolds r || (r.seq == 0 && ((d.assignHeld r.pool && !d.firn.locks.any (r.owns d.twinSide)) || d.ackFull r.pool ||
    (d.isHome r.pool && d.firn.recs.any fun e => e.2.pool == r.pool && e.2.seq == 0)))

/-- The record may be assigned or written now: no dump runs, space fits it, and nothing else holds it back (R286, R332). -/
def Dev.fitsNow (d : Dev) (r : FRec) : Bool := d.firn.dumping.isNone && d.admits r && !d.heldBack r

/-- The record may enter now: it fits, and no record of its group waits for space (R286). -/
def Dev.mayEnter (d : Dev) (r : FRec) : Bool :=
  d.fitsNow r && !(d.firn.waiting.any fun w => w.waitGroup == r.waitGroup && !d.heldBack w)

/-- A record waits for space: FRN_STATUS.SPACE_WAIT (R286). -/
def Dev.spaceWaits (d : Dev) : Bool := d.firn.waiting.any fun w => !d.heldBack w

/-- Records that now wait for space are counted once, and a class A record that does is reported (R286). -/
def noteWaits (d : Dev) : Dev :=
  let new (w : FRec) : Bool := !w.counted && !d.heldBack w
  let mark (w : FRec) : FRec := if new w then { w with counted := true } else w
  let ws := d.firn.waiting.filter new
  (d.modFirn fun x => { x with waiting := x.waiting.map mark }).each ws fun d w =>
    (d.bump FRN_CNT_SPACE_WAITS.COUNT 1).when (w.cls == 0 && !w.internal) fun d =>
      fault .media 0x0A 8 3 false (d.set FRN_STATUS.CLASS_A_WAIT)

/-- A record is formed: it enters, or it waits for space (R286). -/
def formRec (r : FRec) (d : Dev) : Dev :=
  if d.mayEnter r then enterRec r d else noteWaits (d.modFirn fun x => { x with waiting := x.waiting ++ [r] })

/-- A list without its first element that satisfies a test. -/
def dropFirst {α : Type} (p : α → Bool) : List α → List α
  | [] => []
  | a :: t => if p a then t else a :: dropFirst p t

/-- RECORD_ADMITTED (R286): the oldest waiting record of the first group whose oldest record fits is admitted. -/
def execRecordAdmitted (s : State) : Host.Outcome State Fault Refusal :=
  s.ok <|
    let d := s.dev
    let next (g : Nat) (w : FRec) : Bool := w.waitGroup == g && !d.heldBack w
    let heads := [0, 1, 2].filterMap fun g => d.firn.waiting.find? (next g)
    match heads.find? d.fitsNow with
    | none => d
    | some r => noteWaits (enterRec r (d.modFirn fun x => { x with waiting := dropFirst (next r.waitGroup) x.waiting }))

/-! ### The completion condition (R34, R36, R297, R298, R325) -/

/-- A group by function and tag. -/
def Dev.group (d : Dev) (fn tag : Nat) : Option Group := d.firn.groups.find? fun g => g.fn == fn && g.tag == tag

/-- A group changed. -/
def modGroup (fn tag : Nat) (f : Group → Group) (d : Dev) : Dev :=
  d.modFirn fun x => { x with groups := x.groups.map fun g => if g.fn = fn ∧ g.tag = tag then f g else g }

/-- The record's sections and objects are on drives (R298): its stripes are all written. -/
def FRec.destaged (r : FRec) : Bool :=
  if r.rtype = rtIntent ∨ r.rtype = rtRelease then true
  else r.sect && !r.stripes.isEmpty && r.stripes.all fun s => r.doneStripes.contains s

/-- The records of the group that a COMMIT record lists: its members and LINK records. -/
def Dev.groupRecs (d : Dev) (c : FRec) : List FRec :=
  ((d.firn.recs.map (·.2)).filter fun r => !r.void && ((c.members.any fun m => m.1 == r.pool && m.2 == r.seq) ||
    (r.rtype == rtLink && c.effects.any fun e => e.1 == r.pool && e.2 == r.seq)))

/-- The record's copies stand where the mode needs them: a mirror copy that this module neither assigned nor received needs
no acknowledgement here. -/
def Dev.copiesOk (d : Dev) (r : FRec) : Bool :=
  r.written && (d.mode == 1 || r.ack.isSome || (r.home != d.twinSide && r.receiver != d.twinSide))

/-- The record meets the completion condition of the mode in force (R34, R298). -/
def Dev.meets (d : Dev) (r : FRec) : Bool :=
  !r.void && d.mode != 3 && d.copiesOk r && !d.linkHolds r &&
    (d.mode == 0 || r.dualDone || (r.destaged && (r.rtype != rtCommit || (d.groupRecs r).all fun x => x.destaged && d.copiesOk x)))

/-- A member is staged (R318): its record is written in both Firn caches, or in the local one in the solo modes. -/
def Dev.stagedOk (d : Dev) (r : FRec) : Bool := !r.void && d.mode != 3 && r.written && (d.mode != 0 || r.ack.isSome)

/-! ### Divergent records (R300, R301) -/

/-- The copies of a record differ: it enters the divergence list and its commands complete with 03h/01h (R300, R301). -/
def divergeRec (slot : Nat) (d : Dev) : Dev :=
  match d.recAt slot with
  | none => d
  | some r =>
    if r.divergent then d
    else
      let d := modRec slot (fun r => { r with divergent := true, committed := true, took := false }) (dropTaken r d)
      let d := d.modFirn fun x => { x with divs := x.divs ++ [⟨r.pool, r.seq, r.nsid, r.nlb, r.slba, []⟩] }
      let d := d.when (decide (4 ≤ d.rd TWN_STATUS.STATE) && decide (d.rd TWN_STATUS.STATE ≤ 5)) fun d =>
        snowSendFor r.tenant .coord r.cls ⟨r.pool, 0, 0, 0, [9, r.pool, r.seq], []⟩ d
      let d := fault .media 0x0A r.pool 1 false ((d.set FRN_STATUS.DIVERGENT).bump FRN_CNT_DIVERGENT.COUNT 1)
      completeRec slot stDivergent d

/-- The block is covered by a divergent record and reads with 03h/01h (R301). -/
def Dev.divergentAt (d : Dev) (nsid lba : Nat) : Bool :=
  d.firn.divs.any fun x => x.nsid == nsid && decide (x.slba ≤ lba) && decide (lba < x.slba + x.nlb) && !x.covered.contains lba

/-! ### Commit -/

/-- A record commits (R297): its commands complete and later commands that wait for them go on. -/
def commitRec (slot : Nat) (d : Dev) : Dev :=
  match d.recAt slot with
  | none => d
  | some r =>
    let d := modRec slot (fun r => { r with committed := true, dualDone := r.dualDone || d.mode == 0 }) d
    completeRec slot stSuccess (commitEffects r d)

/-- A member of a group counts as staged (R318). -/
def stageMember (slot : Nat) (d : Dev) : Dev :=
  match d.recAt slot with
  | none => d
  | some r =>
    let stage (m : Member) : Member :=
      if r.cmds.any (fun c => c.q == m.q && c.tag == m.tag) then { m with staged := true, pool := r.pool, seq := r.seq } else m
    let d := modGroup r.gfn r.group (fun g => { g with members := g.members.map stage }) d
    completeRec slot stSuccess d

/-! ### Applying records (R296, R301, R326, R470) -/

/-- References that the home twin took at the assignment are not taken again when the record is applied (R28). -/
def applyRefs (r : FRec) (d : Dev) : Dev :=
  d.each r.refDelta fun d e => if r.took ∧ r.refs.any (fun x => x.2 == e.1) then d else refDelta e.1 e.2 d

/-- The chunk-table entries of the chunks a record stores new (R368). -/
def applyChunks (r : FRec) (d : Dev) : Dev :=
  let ns := d.nsAny r.nsid
  let owner := (ns.bind (·.owner)).getD r.func
  let size16 := (ns.map (·.big)).getD false
  let containers (blk : Nat) : Nat := (r.chunks.filter fun c => c.id == blk && c.form == 0x10 && !c.bytes.isEmpty).length
  let block (c : ChunkObj) : Nat :=
    if c.form = 0x10 then (r.chunks.filter fun x => x.form == 0x10 && !x.bytes.isEmpty && decide (x.id ≤ c.id)).foldl
      (fun m x => max m x.id) 0 else c.id
  d.each (r.chunks.filter fun c => !(c.form == 0x10 && !c.bytes.isEmpty)) fun d c =>
    let ent : ChunkEnt := ⟨0, r.nsid, owner + 1024 * r.gen, size16, c.form == 0x10, c.form,
      if c.form = 0x10 then containers (block c) else 0, block c, c.fp, r.pool⟩
    d.modMap fun m => { m with chunks := tput m.chunks c.id ent }

/-- What the deltas of one record do to the extent map, under its effect sequence. -/
def mapDeltas (seq : Nat) (r : FRec) (d : Dev) : Dev := applyRefs r ((applyChunks r d).each r.mapDelta (applyDelta r.time seq))

/-- The deltas of one record are applied; the map log takes them (R374). -/
def applyDeltas (seq : Nat) (r : FRec) (d : Dev) : Dev :=
  if r.divergent then d else mapDeltas seq r { d with mapLog := d.mapLog ++ [⟨seq, r, false⟩] }

/-- The kind of a member in the order of R470. -/
def memberRank (r : FRec) : Nat :=
  if r.rtype = rtWrite then 0
  else if r.mapDelta.any (fun x => match x with
    | .cloneLink _ _ _ => true
    | _ => false) then 2
  else if r.mapDelta.any (fun x => match x with
    | .snapMark _ _ _ => true
    | _ => false) then 1
  else 3

/-- The members that a COMMIT record applies, in the order of R470. -/
def Dev.commitMembers (d : Dev) (c : FRec) : List (Nat × FRec) :=
  let ms := d.firn.recs.filter fun e => e.2.member && c.members.any fun m => m.1 == e.2.pool && m.2 == e.2.seq
  let by' (k : Nat) : List (Nat × FRec) := (ms.filter fun e => memberRank e.2 == k).mergeSort (fun a b => decide (a.2.seq ≤ b.2.seq))
  by' 0 ++ by' 1 ++ by' 2 ++ by' 3

/-- The records of a pool up to a COMMIT_SEQ are applied, or wait for their group. -/
def passTo (p seq : Nat) (d : Dev) : Dev :=
  d.modFirn fun x => { x with
    appliedTo := tput x.appliedTo p (max seq ((tget x.appliedTo p).getD 0)), gone := x.gone.filter fun e => !(e.1 == p && decide (e.2 ≤ seq)) }

/-- A record counts as applied; its CHAIN is kept (R524). -/
def noteApplied (slot : Nat) (d : Dev) : Dev :=
  match d.recAt slot with
  | none => d
  | some r =>
    let d := passTo r.pool r.seq (modRec slot (fun r => { r with applied := true }) d)
    d.modTwin fun t => { t with chains := tput t.chains r.pool (((r.seq, r.chain) :: (tget t.chains r.pool).getD []).take 4096) }

/-- The record of a pool that is applied next: the lowest COMMIT_SEQ not applied. Members and LINK records at or below the last applied wait
for their group. -/
def Dev.nextToApply (d : Dev) (p : Nat) : Option (Nat × FRec) :=
  let c := d.firn.recs.filter fun e => e.2.pool == p && e.2.seq != 0 && !e.2.applied &&
    (decide (d.appliedSeq p < e.2.seq) || !(e.2.member || e.2.rtype == rtLink))
  c.foldl (fun b e => match b with
    | none => some e
    | some x => if e.2.seq < x.2.seq then some e else some x) none

/-- Nothing below a COMMIT_SEQ of the pool is still on its way (R296). The home twin holds all that it assigned. On the other twin the values
between the last applied and this one have left the region; or both lie below what the pair began with; or a new home twin's first value
follows, which no value in flight can be (R294, R295). -/
def Dev.inOrder (d : Dev) (p seq : Nat) : Bool :=
  let base := (tget d.firn.base p).getD 0
  let lo := max base (d.appliedSeq p)
  let left := (d.firn.gone.filter fun e => e.1 == p && decide (lo < e.2 ∧ e.2 < seq)).length
  d.isHome p || decide (seq ≤ lo) || decide (seq ≤ lo + left + 1) || (decide (lo + 65536 < seq) && seq % 2 ^ 24 == 0)

/-- A COMMIT record may be applied: in every pool of the group the records below the effect sequence are applied (R325). -/
def Dev.groupReady (d : Dev) (c : FRec) : Bool :=
  c.effects.all fun e => d.firn.recs.all fun x =>
    !(x.2.pool == e.1 && decide (x.2.seq < e.2) && x.2.seq != 0 && !x.2.member && !x.2.void && !x.2.applied)

/-- The sequence at which a record of a group takes effect (R325, R330). -/
def FRec.effectOf (c r : FRec) : Nat := ((c.effects.find? fun e => e.1 == r.pool).map (·.2)).getD r.seq

/-- The group of a COMMIT record commits: its members and LINK records with it (R324, R325). -/
def commitGroup (slot : Nat) (c : FRec) (d : Dev) : Dev :=
  let mine (x : FRec) : Bool := (x.member && c.members.any fun m => m.1 == x.pool && m.2 == x.seq) ||
    (x.rtype == rtLink && c.effects.any fun e => e.1 == x.pool && e.2 == x.seq)
  let dual (x : FRec) : Bool := x.dualDone || c.dualDone || d.mode == 0
  let now := (d.firn.recs.map (·.2)).filter fun x => mine x && !x.committed
  let done (x : FRec) : FRec := if mine x then { x with committed := true, dualDone := dual x } else x
  let d := (commitRec slot d).modFirn fun x => { x with recs := x.recs.map fun (e : Nat × FRec) => (e.1, done e.2) }
  noteMirrored (d.each now fun d r => commitEffects { r with seq := c.effectOf r } d)

/-- The effect of a COMMIT record: every member of every pool at one instant (R326). -/
def applyCommit (slot : Nat) (c : FRec) (d : Dev) : Dev :=
  let d := d.each (d.commitMembers c) fun d m => noteApplied m.1 (applyDeltas (c.effectOf m.2) m.2 d)
  let d := d.each (d.firn.recs.filter fun e => e.2.rtype == rtLink && c.effects.any fun x => x.1 == e.2.pool && x.2 == e.2.seq)
    fun d l => noteApplied l.1 d
  noteApplied slot d

/-- The void records of a discarded group are freed, and the references that they took are dropped (R322, R328). -/
def voidGroup (a : FRec) (d : Dev) : Dev :=
  let vs := d.firn.recs.filter fun e => (e.2.member || e.2.rtype == rtLink) && sameGroup e.2 a && e.2.void
  noteMirrored <| d.each vs fun d e =>
    let d := dropTaken e.2 d
    let d := d.modFirn fun x => { x with appliedTo := tput x.appliedTo e.2.pool (max ((tget x.appliedTo e.2.pool).getD 0)
      (if e.2.rtype = rtLink ∧ (d.nextToApply e.2.pool).map (·.1) = some e.1 then e.2.seq else 0)) }
    freeRec e.1 d

/-- A replaced stripe and those that it replaced are freed, each once no read that resolved an object in it is under way (R476); the first
argument bounds the chain. -/
def freeChain : Nat → Nat → Dev → Dev
  | 0, _, d => d
  | fuel + 1, s, d =>
    match tget d.xmap.stripes s with
    | none => d
    | some st =>
      let keep := d.reads.any fun r => r.stripe == s
      let d := d.modMap fun m => { m with
        stripes := if keep then tput m.stripes s { st with freed := true } else tdel m.stripes s, found := without m.found s }
      freeChain fuel st.replaces d

/-- A RELEASE record makes its stripe live and frees what it replaces (R307, R382). -/
def releaseStripe (s : Nat) (d : Dev) : Dev :=
  match tget d.xmap.stripes s with
  | none => d
  | some st =>
    let d := if st.replaces = 0 then d else freeChain d.xmap.stripes.length st.replaces d
    d.modMap fun m => { m with stripes := tput m.stripes s { st with reserved := false, replaces := 0 } }

/-- The next record of a pool is applied when it has committed and nothing below it is still on its way (R296, R301). DEDUCED: a member waits for its COMMIT record
and a LINK record for its group, so records behind a LINK wait for it; an INTENT record has no deltas. -/
def applyNext (p : Nat) (d : Dev) : Dev :=
  match d.nextToApply p with
  | none => d
  | some (slot, r) =>
    if !d.inOrder p r.seq then d
    else if r.void ∨ r.rtype = rtIntent then noteApplied slot d
    else if r.member then passTo p r.seq d
    else if !r.committed then d
    else if r.rtype = rtLink then d
    else if r.rtype = rtCommit then (if d.groupReady r then applyCommit slot r (commitGroup slot r d) else d)
    else if r.rtype = rtAbort then noteApplied slot (voidGroup r d)
    else if r.rtype = rtRelease then noteApplied slot (releaseStripe r.aux (applyDeltas r.seq r d))
    else noteApplied slot (applyDeltas r.seq r d)

/-- Every record of a pool that may be applied is applied, in order; the first argument bounds them. -/
def applyAll : Nat → Nat → Dev → Dev
  | 0, _, d => d
  | fuel + 1, p, d =>
    let d' := applyNext p d
    if (d'.nextToApply p).map (·.1) = (d.nextToApply p).map (·.1) then d' else applyAll fuel p d'

/-! ### Records freed (R298, R310) -/

/-- A record's stored objects: its chunks and containers that carry bytes. -/
def FRec.objects (r : FRec) : List ChunkObj := r.chunks.filter fun c => !c.bytes.isEmpty

/-- The root ports carry nothing: the module is fenced, mirror-only or dumping (R269, R332, R527). -/
def Dev.portsHalted (d : Dev) : Bool :=
  d.twin.selfFailed || d.twin.mirrorOnly || d.firn.dumping.isSome

/-- The media half is in peer down and stays home twin of its pools, with no twin to take them (R269). -/
def Dev.alone (d : Dev) : Bool := d.is (SCH_STATUS.PEER_DOWN .media) && !d.portsHalted

/-- A chunk or block that no mapping holds any more (R308, R372). -/
def Dev.deadObj (d : Dev) (c : ChunkObj) : Bool :=
  if c.form = 0x10 then !(d.xmap.chunks.any fun e => e.2.inBlock && e.2.block == c.id) else (tget d.xmap.chunks c.id).isNone

/-- The stripe's RELEASE record has been applied. -/
def Dev.released (d : Dev) (s : Nat) : Bool := !(tget d.xmap.stripes s).any (·.reserved)

/-- Step 6 of a destage: the record's objects are all on drives and its deltas in the map log, by RELEASE records that met their condition;
INTENT and RELEASE records go with their stripe, and a revoked record with its REVOKE record. A media half left alone keeps them (R269). -/
def Dev.mayFree (d : Dev) (r : FRec) : Bool :=
  if d.alone then false
  else if r.rtype = rtIntent then r.applied && d.released r.aux
  else if r.rtype = rtRelease then r.applied && r.committed
  else if r.void && !r.member then d.firn.recs.any fun e => e.2.rtype == rtRevoke && e.2.pool == r.pool && e.2.aux == r.seq && e.2.committed
  else r.applied && r.committed && !r.divergent && !r.stripes.isEmpty && r.stripes.all d.released && (r.sect || !d.isHome r.pool) &&
    r.objects.all fun c => d.deadObj c || (tget d.xmap.objs (objKey c.id c.ordinal)).isSome

/-- Every record of a pool that may be freed is freed. -/
def freeDone (p : Nat) (d : Dev) : Dev :=
  d.each (d.firn.recs.filter fun e => e.2.pool == p && d.mayFree e.2) fun d e => freeRec e.1 d

/-! ### Reads of records not yet on drives -/

/-- What a record maps a block to: none where it does not touch it, some none where it unmaps it. -/
def FRec.mapsTo (r : FRec) (nsid lba : Nat) : Option (Option Nat) :=
  r.mapDelta.foldl (fun a x => match x with
    | .bind n s c f => if n = nsid ∧ s ≤ lba ∧ lba < s + c then some (some (if f = 0 then 0 else f + (lba - s))) else a
    | .unbind n s c => if n = nsid ∧ s ≤ lba ∧ lba < s + c then some none else a
    | _ => a) none

/-- The chunk that the live view of a namespace shows a reader at a block: the newest committed record that covers it, or the
map (R32, R296). -/
def Dev.liveChunk (d : Dev) (nsid lba : Nat) : Option Nat :=
  let rs := (d.firn.recs.filter fun e => e.2.committed && !e.2.applied && !e.2.member && !e.2.void && !e.2.divergent &&
    e.2.rtype == rtWrite && (e.2.mapsTo nsid lba).isSome)
  let top := rs.foldl (fun b e => match b with
    | none => some e.2
    | some (x : FRec) => if x.seq < e.2.seq then some e.2 else some x) (none : Option FRec)
  match top with
  | some r => (r.mapsTo nsid lba).getD none
  | none => d.chunkAt nsid (d.epoch nsid) lba

/-- The stored objects of a chunk in the Firn cache: its entry in a record and, for a chunk of a stream block, the block's
containers. -/
def Dev.firnObjs (d : Dev) (chunk : Nat) : Option (List ChunkObj) :=
  d.firn.recs.findSome? fun e =>
    match e.2.chunks.find? fun c => c.id == chunk && !(c.form == 0x10 && !c.bytes.isEmpty) with
    | none => none
    | some c =>
      if c.form ≠ 0x10 then some [c]
      else
        let cs := e.2.chunks.filter fun x => x.form == 0x10 && !x.bytes.isEmpty && decide (x.id ≤ chunk)
        let blk := cs.foldl (fun m x => max m x.id) 0
        some (cs.filter fun x => x.id == blk)

end Sys2Proof.Machine
end

