-- ==== Sys2Proof/Machine/Group.lean ====
section
/-! DEFINITION. Freeze groups (R313 to R328): the checks of members, the group opcodes, sealing, commit and discard. -/

namespace Sys2Proof.Machine

/-- The operations a freeze-group descriptor names (R251); the numbers are the module's own. -/
def gopOpen : Nat := 0
def gopSeal : Nat := 1
def gopDiscard : Nat := 2
def gopQuery : Nat := 3

/-- A group that is open or sealing. -/
def Group.live (g : Group) : Bool :=
  match g.state with
  | .opened | .sealing | .committing => true
  | _ => false

/-- The open or sealing group of a function and tag. -/
def Dev.liveGroup (d : Dev) (fn tag : Nat) : Option Group := (d.group fn tag).filter Group.live

/-- The status of a command that meets no group: its tombstone's, or 04h/01h (R313, R321). -/
def Dev.noGroupStatus (d : Dev) (fn tag : Nat) : Nat :=
  ((d.firn.tombs.find? fun t => t.fn == fn && t.tag == tag).map (·.status)).getD stGroupUnknown

/-- The payload that a member counts for (R316): WRITE and COPY count their blocks. -/
def memberPayload (op nlb bs : Nat) : Nat := if op = 1 ∨ op = 8 then nlb * bs else 0

/-- Check 7 of R89 for a member (R315, R316). -/
def memberCheck (fn : Nat) (p : BitVec 512) (bs : Nat) (d : Dev) : Nat :=
  match d.liveGroup fn (pktGos p) with
  | none => d.noGroupStatus fn (pktGos p)
  | some g =>
    if g.state ≠ .opened then stGroupSealed
    else if 1024 ≤ g.count then stGroupMembers
    else if 2 ^ 28 < g.payload + memberPayload (pktOp p) (pktNlb p) bs then stGroupPayload
    else stSuccess

/-- An accepted member is counted (R316, R321). -/
def addMember (fn q order : Nat) (p : BitVec 512) (bs : Nat) (d : Dev) : Dev :=
  modGroup fn (pktGos p) (fun g => { g with
    members := g.members ++ [⟨q, pktTag p, order, false, false, 0, 0⟩], count := g.count + 1,
    payload := g.payload + memberPayload (pktOp p) (pktNlb p) bs }) d

/-- Check 7 of R89 for the group opcodes (R313, R317). -/
def groupCheck (fn : Nat) (p : BitVec 512) (d : Dev) : Nat :=
  if pktOp p = 0x40 then
    if (d.liveGroup fn (pktGos p)).isSome then stGroupTagInUse
    else if 65536 ≤ (d.firn.groups.filter Group.live).length then stGroupOpenLimit
    else stSuccess
  else if (d.liveGroup fn (pktGos p)).isNone then d.noGroupStatus fn (pktGos p)
  else if pktOp p = 0x41 ∧ (d.liveGroup fn (pktGos p)).any (·.state != .opened) then stGroupSealed
  else stSuccess

/-- GROUP_SEAL is fetched: the group is sealing from then on (R321, R324). -/
def sealGroup (fn q order : Nat) (p : BitVec 512) (d : Dev) : Dev :=
  modGroup fn (pktGos p) (fun g =>
    if g.state = .opened then { g with state := .sealing, sealBy := some (q, pktTag p, order) } else g) d

/-! ### Discard -/

/-- The records of a group that this module formed: members and LINK records. -/
def Dev.groupRecords (d : Dev) (g : Group) : List (Nat × FRec) :=
  d.firn.recs.filter fun e => e.2.group == g.tag && e.2.gfn == g.fn && !e.2.committed && (e.2.member || e.2.rtype == rtLink)

/-- The COMMIT record of a group has its COMMIT_SEQ (R323). DEDUCED: one that went to the other twin counts as assigned from then on, since
that twin assigns it before it hears of anything later. -/
def Dev.commitAssigned (d : Dev) (g : Group) : Bool :=
  d.firn.recs.any fun e => e.2.rtype == rtCommit && e.2.group == g.tag && e.2.gfn == g.fn && !e.2.committed && !e.2.void &&
    (e.2.seq != 0 || !d.isHome e.2.pool)

/-- A record of the group that waits for space or for its COMMIT_SEQ here is withdrawn; one that the other twin holds is void, and goes with
the ABORT record there. -/
def withdrawGroup (g : Group) (d : Dev) : Dev :=
  let mine (r : FRec) : Bool := r.group == g.tag && r.gfn == g.fn && !r.committed
  let d := d.modFirn fun x => { x with waiting := x.waiting.filter fun r => !mine r }
  let d := d.each (d.firn.recs.filter fun e => mine e.2 && e.2.seq == 0 && d.isHome e.2.pool) fun d e => freeRec e.1 d
  voidRecs { FRec.empty with group := g.tag, gfn := g.fn, receiver := d.twinSide } d

/-- The media half ends a command that crossed to it with a status: at once where its context stands, or when its descriptor arrives.
What the host half still sends for it is discarded from then on (`phase` 8: the descriptor is awaited, 9: the completion went out). -/
def endCrossed (q tag status : Nat) (d : Dev) : Dev :=
  if (d.ctx q tag).isSome then
    mediaComplete q tag status 0 0 (d.modCmd q tag fun c => { c with phase := 9, news := 0, stage := held c.stage })
  else d.modCmd q tag fun c => { c with phase := 8, failed := some (c.failed.getD status), stage := held c.stage }
where
  /-- A command whose host part goes on waits for the media half from now on. -/
  held (s : Stage) : Stage := if s = .hostWork then .crossed else s

/-- A member or a GROUP_SEAL of a discarded group completes with the tombstone's status (R322). -/
def endMember (status : Nat) (d : Dev) (q tag : Nat) : Dev :=
  match (d.queue q).bind (·.cmd tag) with
  | none => d
  | some c =>
    if (c.stage == .crossed || c.stage == .orphan || c.sent) && d.is (SCH_STATUS.UP .media) then endCrossed q tag status d
    else failCmd q tag status (d.dropCtx q tag)

/-- A group leaves for DISCARDED (R321, R322): its members still outstanding and its GROUP_SEAL complete with the status, a
tombstone stays, and an ABORT record frees the member records when any exists. -/
def discardGroup (fn tag status : Nat) (d : Dev) : Dev :=
  match d.liveGroup fn tag with
  | none => d
  | some g =>
    let out := g.members.filter fun m => !m.staged && !m.failed
    let closed (y : Group) : Group := if y.fn = fn ∧ y.tag = tag then { y with state := .discarded, status := status } else y
    let others := d.firn.tombs.filter fun (t : Tomb) => !(t.fn == fn && t.tag == tag)
    let tombs := (others ++ [Tomb.mk fn tag status d.tbMedia]).drop (others.length + 1 - 65536)
    let d := d.modFirn fun x => { x with groups := x.groups.map closed, tombs := tombs }
    let d := d.bump FRN_CNT_DISCARDS.COUNT 1
    let d := d.each out fun d m => endMember status d m.q m.tag
    let d := match g.sealBy with
      | some (q, t, _) => endMember status d q t
      | none => d
    let d := withdrawGroup g d
    if (d.groupRecords g).isEmpty then d.modFirn fun x => { x with groups := x.groups.filter fun y => !(y.fn == fn && y.tag == tag) }
    else formRec { FRec.empty with
      rtype := rtAbort, pool := g.pool, receiver := d.twinSide, group := tag, gfn := fn } d

/-- ABORT_RECORD_ON_MEDIUM (R321, R328): the ABORT record met the completion condition; the group's records are freed. -/
def execAbortRecordOnMedium (fn tag : Nat) (s : State) : Host.Outcome State Fault Refusal :=
  s.ok <|
    let d := s.dev
    match d.firn.recs.find? fun e => e.2.rtype == rtAbort && e.2.group == tag && e.2.gfn == fn && !e.2.committed && d.meets e.2 with
    | none => d
    | some (slot, r) =>
      let d := voidGroup r (commitRec slot d)
      d.modFirn fun x => { x with groups := x.groups.filter fun y => !(y.fn == fn && y.tag == tag && y.state == .discarded) }

/-- GROUP_TIMEOUT (R321): 2 s passed before the COMMIT record was written; an event names the tag. -/
def execGroupTimeout (fn tag : Nat) (s : State) : Host.Outcome State Fault Refusal :=
  s.ok <| match s.dev.liveGroup fn tag with
    | none => s.dev
    | some g => if s.dev.commitAssigned g then s.dev
      else mediaFnEvent fn evGroupTimeout tag (discardGroup fn tag stGroupTimeout s.dev)

/-- TOMBSTONE_EXPIRY (R321): 10 s passed. -/
def execTombstoneExpiry (fn tag : Nat) (s : State) : Host.Outcome State Fault Refusal :=
  s.ok <| s.dev.modFirn fun x => { x with tombs := x.tombs.filter fun t => !(t.fn == fn && t.tag == tag) }

/-- Every group that a queue opened is discarded (R97, R321). -/
def discardQueueGroups (q : Nat) (d : Dev) : Dev :=
  d.each (d.firn.groups.filter fun g => g.live && g.q == q && !d.commitAssigned g) fun d g => discardGroup g.fn g.tag stGroupDiscarded d

/-- Every group of a function is discarded (R321). -/
def discardFnGroups (fn : Nat) (d : Dev) : Dev :=
  d.each (d.firn.groups.filter fun g => g.live && g.fn == fn && !d.commitAssigned g) fun d g => discardGroup g.fn g.tag stGroupDiscarded d

/-! ### The group opcodes -/

/-- A group opcode crosses to the media half as a freeze-group operation with its member count (R251). -/
def crossGroup (q tag op count : Nat) (c : Cmd) (cls : Nat) (d : Dev) : Dev :=
  crossCmd q tag (schSend .host .groupOp cls ⟨q, tag, pktGos c.pkt, pktNsid c.pkt, [op, count], []⟩ d)

/-- A GROUP_OPEN passes its checks (R321): its group is open from its fetch. -/
def openGroup (fn q : Nat) (p : BitVec 512) (d : Dev) : Dev :=
  let g : Group := ⟨fn, pktGos p, q, pktNsid p, ((d.ns (pktNsid p)).map (·.pool)).getD 0, .opened, [], 0, 0,
    false, d.tbMedia, none, [], 0⟩
  d.modFirn fun x => { x with
    groups := (x.groups.filter fun y => !(y.fn == g.fn && y.tag == g.tag)) ++ [g] }

/-- The group that a command of an opcode left as it was, since it was refused at its start (R815). -/
def refusedGroup (op q tag : Nat) (before after : Dev) : Option (Nat × Nat) :=
  match (before.queue q).bind fun qu => (qu.cmd tag).map fun c => (qu.fn, c) with
  | some (fn, c) =>
    if pktOp c.pkt = op ∧ c.stage = .ready ∧ ((after.queue q).bind (·.cmd tag)).isNone then some (fn, pktGos c.pkt) else none
  | none => none

/-- GROUP_OPEN (R313, R317, R321): once accepted, the tombstone of its tag goes. One that is refused at its start opens no group (R815), and
members that were fetched since meet none (R315). -/
def execGroupOpen (q tag : Nat) (s : State) : Host.Outcome State Fault Refusal :=
  s.ok <|
    let d := runCmd [0x40] q tag (fun qu c d =>
      if (d.liveGroup qu.fn (pktGos c.pkt)).isSome then
        crossGroup q tag gopOpen 0 c qu.cls
          (d.modFirn fun x => { x with tombs := x.tombs.filter fun t => !(t.fn == qu.fn && t.tag == pktGos c.pkt) })
      else failCmd q tag (d.noGroupStatus qu.fn (pktGos c.pkt)) d) s.dev
    match refusedGroup 0x40 q tag s.dev d with
    | some (fn, g) =>
      let out := ((d.liveGroup fn g).map (·.members)).getD []
      let d := d.modFirn fun x => { x with groups := x.groups.filter fun y => !(y.fn == fn && y.tag == g && y.state == .opened) }
      d.each out fun d m => endMember (d.noGroupStatus fn g) d m.q m.tag
    | none => d

/-- GROUP_SEAL (R324): its descriptor crosses; the group completes it. One that is refused at its start leaves its group open (R815). -/
def execGroupSeal (q tag : Nat) (s : State) : Host.Outcome State Fault Refusal :=
  s.ok <|
    let d := runCmd [0x41] q tag (fun qu c d =>
      match d.liveGroup qu.fn (pktGos c.pkt) with
      | some g => crossGroup q tag gopSeal g.count c qu.cls d
      | none => failCmd q tag (d.noGroupStatus qu.fn (pktGos c.pkt)) d) s.dev
    match refusedGroup 0x41 q tag s.dev d with
    | some (fn, g) => modGroup fn g (fun y =>
        if y.state = .sealing ∧ (y.sealBy.any fun b => b.1 == q && b.2.1 == tag) then { y with state := .opened, sealBy := none } else y) d
    | none => d

/-- GROUP_DISCARD is fetched: its group leaves for DISCARDED at once (R321). -/
def discardAtFetch (fn q tag : Nat) (p : BitVec 512) (d : Dev) : Dev :=
  match d.liveGroup fn (pktGos p) with
  | none => d
  | some g =>
    if d.commitAssigned g || d.fenced || d.peerDown .host then d
    else discardGroup fn g.tag stGroupDiscarded (d.modCmd q tag fun c => { c with phase := 7, refs := g.count })

/-- GROUP_DISCARD (R321, R323): RESULT counts the members of the group that its fetch discarded. -/
def execGroupDiscard (q tag : Nat) (s : State) : Host.Outcome State Fault Refusal :=
  s.ok <| runCmd [0x42] q tag (fun qu c d =>
    if c.phase = 7 then crossGroup q tag gopDiscard c.refs c qu.cls d
    else match d.liveGroup qu.fn (pktGos c.pkt) with
    | none => failCmd q tag (d.noGroupStatus qu.fn (pktGos c.pkt)) d
    | some g =>
      if d.commitAssigned g then failCmd q tag stGroupSealed d
      else crossGroup q tag gopDiscard g.count c qu.cls (discardGroup qu.fn g.tag stGroupDiscarded d)) s.dev

/-- GROUP_QUERY (R313). -/
def execGroupQuery (q tag : Nat) (s : State) : Host.Outcome State Fault Refusal :=
  s.ok <| runCmd [0x43] q tag (fun qu c d => crossGroup q tag gopQuery 0 c qu.cls d) s.dev

/-- RESULT of GROUP_QUERY (R313). -/
def queryResult (g : Group) : Nat :=
  (if g.state = .opened then 1 else 2) + 16 * b2n g.failed + 2 ^ 16 * g.count + 2 ^ 32 * g.payload

/-- What a freeze-group operation does at the media half: it opens the command's context; all but GROUP_SEAL complete. -/
def groupOperation (m : Msg) (d : Dev) : Dev :=
  let fn := ((d.queue m.q).map (·.fn)).getD 0
  match m.args.getD 0 0 with
  | 0 => mediaComplete m.q m.tag stSuccess 0 0 d
  | 1 => d
  | 2 => mediaComplete m.q m.tag stSuccess (m.args.getD 1 0) 0 d
  | _ => match d.liveGroup fn m.ref with
    | some g => mediaComplete m.q m.tag stSuccess (queryResult g) 0 d
    | none => mediaComplete m.q m.tag (d.noGroupStatus fn m.ref) 0 0 d

/-! ### Sealing and commit -/

/-- The pools other than the anchor pool that hold a member. -/
def Group.linkPools (g : Group) : List Nat :=
  (List.range 8).filter fun p => p != g.pool && g.members.any fun m => m.pool == p

/-- The LINK record of a group in a pool. -/
def Dev.linkOf (d : Dev) (g : Group) (p : Nat) : Option FRec :=
  (d.firn.recs.find? fun e => e.2.rtype == rtLink && e.2.pool == p && e.2.group == g.tag && e.2.gfn == g.fn && !e.2.committed &&
    !e.2.void).map (·.2)

/-- A record of the group waits for space. -/
def Dev.groupWaits (d : Dev) (g : Group) (rtype p : Nat) : Bool :=
  d.firn.waiting.any fun r => r.rtype == rtype && r.pool == p && r.group == g.tag && r.gfn == g.fn

/-- LINK records are formed where they are missing; once each has its COMMIT_SEQ, the COMMIT record is formed (R324). -/
def sealStep (g : Group) (d : Dev) : Dev :=
  let base : FRec := { FRec.empty with receiver := d.twinSide, group := g.tag, gfn := g.fn }
  let missing := g.linkPools.filter fun p => (d.linkOf g p).isNone && !d.groupWaits g rtLink p
  let seqs := g.linkPools.map fun p => (p, ((d.linkOf g p).map (·.seq)).getD 0)
  if !missing.isEmpty then d.each missing fun d p => formRec { base with rtype := rtLink, pool := p } d
  else if seqs.any (fun e => e.2 == 0) then d
  else
    formRec { base with
      rtype := rtCommit, pool := g.pool, members := g.members.map fun m => (m.pool, m.seq), effects := seqs }
      (modGroup g.fn g.tag (fun g => { g with state := .committing, effects := seqs }) d)

/-- GROUP_SEAL_PROCEED (R324): the GROUP_SEAL is at the media half, and every member fetched before it is staged or has failed. -/
def execGroupSealProceed (fn tag : Nat) (s : State) : Host.Outcome State Fault Refusal :=
  s.ok <|
    let d := s.dev
    match d.liveGroup fn tag with
    | none => d
    | some g =>
      let here := g.sealBy.any fun b => (d.ctx b.1 b.2.1).isSome
      if g.state ≠ .sealing ∨ !here ∨ g.members.any (fun m => !m.staged && !m.failed) then d
      else if g.failed then discardGroup fn tag stGroupMemberFailed d
      else sealStep g d

/-- RESULT of GROUP_SEAL (R313). -/
def sealResult (g : Group) (d : Dev) : Nat := g.members.length + 2 ^ 48 * d.mode

/-- GROUP_COMMIT (R324 to R326): the COMMIT record met the completion condition; the GROUP_SEAL completes. DEDUCED: the other twin, whose copy
of the COMMIT record gives the function as 1,024 (R288), commits the group by the same command. -/
def execGroupCommit (fn tag : Nat) (s : State) : Host.Outcome State Fault Refusal :=
  s.ok <|
    let d := s.dev
    match d.firn.recs.find? fun e => e.2.rtype == rtCommit && e.2.group == tag && e.2.gfn == fn && !e.2.committed with
    | some (slot, r) =>
      if r.seq = 0 ∨ !d.meets r then d
      else
        let g := d.liveGroup fn tag
        let d := commitGroup slot r d
        match g with
        | none => d
        | some g =>
          let d := d.modFirn fun x => { x with groups := x.groups.filter fun y => !(y.fn == fn && y.tag == tag) }
          let d := d.bump FRN_CNT_COMMITS.COUNT 1
          match g.sealBy with
          | some (q, t, _) => mediaComplete q t stSuccess (sealResult g d) r.seq d
          | none => d
    | none => d

end Sys2Proof.Machine
end

