-- ==== Sys2Proof/Machine/Mode.lean ====
section
/-! DEFINITION. The durability modes (R34 to R36), the fence of a module (R527), and the two halves' peer down (R264 to
R269). -/

namespace Sys2Proof.Machine

/-! ### The durability mode -/

/-- TWN_STATUS.STATE (R519). -/
def Dev.tstate (d : Dev) : Nat := d.rd TWN_STATUS.STATE

/-- The twin is paired and healthy as far as this module knows (R34). -/
def Dev.twinHealthy (d : Dev) : Bool := d.tstate == 5 && d.twin.declared.isNone

/-- At least one Snowbridge cable is up (R515). -/
def Dev.cableUp (d : Dev) : Bool := d.is TWN_LANES.CABLE0_UP || d.is TWN_LANES.CABLE1_UP

/-- The mode that holds now (R34, R35). -/
def Dev.modeNow (d : Dev) : Nat :=
  if d.twin.selfFailed then 3
  else if !(d.twinHealthy && d.cableUp) || d.twin.mirrorOnly then 1
  else if d.is FRN_STATUS.DUMP_READY && bit d.twin.partner.health 2 then 0
  else 2

/-- As dual mode ends, the records that met its condition stand as completed under dual rules, also those whose completion is not posted yet
(R36, R40). -/
def keepDual (d : Dev) : Dev :=
  if d.mode ≠ 0 then d
  else
    let met (r : FRec) : Bool := !r.member && r.rtype != rtLink && r.seq != 0 && d.meets r
    d.modFirn fun f => { f with recs := f.recs.map fun (e : Nat × FRec) => (e.1, { e.2 with dualDone := e.2.dualDone || met e.2 }) }

/-- The mode follows its inputs; a change is posted (R34, R772). Waiting writes complete by their own commands (R36). -/
def updateMode (d : Dev) : Dev :=
  let m := d.modeNow
  if m = d.mode then d else mediaEvent evModeChange m ((keepDual d).wr FRN_STATUS.MODE m)

/-! ### The fence -/

/-- The root ports are halted and drive writes in flight abandoned (R527, R332). -/
def haltPorts (d : Dev) : Dev :=
  let isWrite (c : DrvCmd) : Bool := match c.what with
    | .stripWrite _ _ | .jobWrite _ _ _ | .evacWrite _ _ _ | .cfgWrite _ _ | .listWrite => true
    | _ => false
  (d.modDrv fun v => { v with cmds := v.cmds.filter fun (e : Nat × DrvCmd) => !isWrite e.2 }).emit .portHalt

/-- The record that carries a fetched command. -/
def Dev.recOf (d : Dev) (q tag : Nat) : Option (Nat × FRec) :=
  d.firn.recs.find? fun e => e.2.origin == .host && !e.2.posted && e.2.cmds.any fun c => c.q == q && c.tag == tag

/-- The record crossed the Snowbridge: it was sent to the twin (R527). -/
def FRec.crossed (r : FRec) (mirrors : Bool) : Bool := mirrors || r.ack.isSome || r.msgId != 0

/-- A command that a fence meets (R527): a write-class command whose record crossed the Snowbridge ends without a completion,
every other one completes with 05h/01h and has no effect. -/
def fenceCommand (q : Nat) (sent : Bool) (d : Dev) (c : Cmd) : Dev :=
  match d.recOf q c.tag with
  | some (slot, r) =>
    if writeOps.contains (pktOp c.pkt) && r.crossed sent then
      (d.modQ q fun x => { x with cmds := x.cmds.filter fun y => y.order != c.order }).dropCtx q c.tag
    else failCmd q c.tag stPathFenced ((freeRec slot d).dropCtx q c.tag)
  | none => failCmd q c.tag stPathFenced (d.dropCtx q c.tag)

/-- Fetched commands that a fence settles: I/O commands and the admin commands that wait for the media half. -/
def fenced (c : Cmd) : Bool := decide (pktOp c.pkt < 0x80) || c.stage == .crossed

/-- The commands of every queue are settled (R527 items 2 and 3). -/
def settleFence (sent : Bool) (d : Dev) : Dev :=
  d.each d.rings.queues fun d e => d.each (e.2.cmds.filter fenced) fun d c => fenceCommand e.1 sent d c

/-- The groups of a module whose partner takes over go without a completion (R42, R321): the records of those that have no COMMIT record with
a COMMIT_SEQ are void (R328). -/
def loseGroups (d : Dev) : Dev :=
  let gone (r : FRec) : Bool := d.firn.groups.any fun g => g.live && !d.commitAssigned g && (r.member || r.rtype == rtLink || r.rtype == rtCommit) &&
    r.group == g.tag && r.gfn == g.fn
  let d := d.bump FRN_CNT_DISCARDS.COUNT (d.firn.groups.filter fun g => g.live && !d.commitAssigned g).length
  let d := d.modFirn fun f => { f with waiting := f.waiting.filter fun r => !gone r }
  d.modFirn fun f => { f with groups := [], recs := f.recs.map fun (e : Nat × FRec) => (e.1, { e.2 with void := e.2.void || gone e.2 }) }

/-- What this module records of an event of the pair (R553). -/
def lastEvent (cause kind : Nat) (d : Dev) : Dev :=
  ((d.wr TWN_LAST_EVENT.CAUSE cause).wr TWN_LAST_EVENT.KIND kind).wr TWN_LAST_EVENT.TIMEBASE d.tbMedia

/-- A module takes itself as failed and fences (R527): root ports halted, commands settled, Firn contents kept. -/
def fenceSelf (cause : Nat) (d : Dev) : Dev :=
  if d.twin.selfFailed then d
  else
    let sent := d.mirrors
    let d := haltPorts (d.modTwin fun t => { t with selfFailed := true, race := none })
    let d := (lastEvent cause 3 (d.set TWN_STATUS.FENCED)).wr TWN_STATUS.STATE 6
    updateMode (closeStreams (fun _ => true) (loseGroups (settleFence sent (fault .media 0x0E 0x21 0x12 false d))))

/-! ### Peer down and the fatal fault -/

/-- TWN_HOME.HOME follows the pools (R550). -/
def syncHome (d : Dev) : Dev := d.wr TWN_HOME.HOME (d.pools.foldl (fun m e => setBit m e.1 (e.2.home == 1)) 0)

/-- Every pool of a module that goes on as a mirror-only partner passes to the twin, with its destages and what waited there for it (R269, R528). -/
def yieldPools (d : Dev) : Dev :=
  let d := syncHome { d with pools := d.pools.map fun (e : Nat × Pool) => (e.1, { e.2 with home := 1 - d.twinSide }), destages := [] }
  d.modFirn fun f => { f with waiting := f.waiting.filter fun r => r.receiver == d.twinSide }

/-- The host half enters peer down (R268): commands that have not crossed complete with 05h/01h, those that have end without
a completion, and every I/O queue enters the error state. -/
def peerDownHost (d : Dev) : Dev :=
  let one (q : Nat) (d : Dev) (c : Cmd) : Dev :=
    if 0x80 ≤ pktOp c.pkt then (if c.stage = .crossed then failCmd q c.tag stPathFenced d else d)
    else if c.stage = .crossed ∨ c.stage = .orphan ∨ c.sent then
      d.modQ q fun x => { x with cmds := x.cmds.filter fun y => y.order != c.order }
    else failCmd q c.tag stPathFenced d
  let d := d.each d.rings.queues fun d e => d.each e.2.cmds fun d c => one e.1 d c
  let d := d.modRings fun r => { r with queues := r.queues.map fun (e : Nat × Queue) =>
    if e.2.admin then e else (e.1, { e.2 with error := true, block := none }) }
  devEvent evPeerDown 0 (internalError d)

/-- The media half enters peer down (R269): it tells the twin, and goes on by the twin's state. -/
def peerDownMedia (d : Dev) : Dev :=
  let src := srcId .media 5 0x1F
  let own (l : Nat × Nat × Nat × Nat × Nat) : Bool := decide (l.1 < 2 ^ 32)
  let d := { d with ctxs := [], firn := { d.firn with locks := d.firn.locks.filter fun l => !own l } }
  let healthy := d.twinHealthy && d.cableUp
  let d := snowSend .report 0 ⟨0xFF, d.tbMedia, src, 0, [1], []⟩ d
  if !healthy then d
  else if d.is FRN_STATUS.DUMP_READY then
    closeStreams (fun _ => true) (yieldPools (loseGroups (haltPorts (d.modTwin fun t => { t with mirrorOnly := true }))))
  else fenceSelf 1 d

/-- What GLB_STATUS shows of the media half (R782) is kept as it stood when the Schrund stopped carrying it. -/
def keepGlb (d : Dev) : Dev :=
  if !d.schUp then d
  else
    let online := d.pools.foldl (fun v e => if e.2.online then setBit v e.1 true else v) 0
    let d := ((d.wr GLB_STATUS.MODE d.mode).wr GLB_STATUS.TWIN_STATE d.tstate).wr GLB_STATUS.POOL_ONLINE online
    (d.put GLB_STATUS.FAULT (d.fltSummary .media != 0)).put GLB_STATUS.STORM (d.is (FLT_STATUS.STORM .media))

/-- The mailbox command that runs ends (R777, R778): RESULT and RESP are written and BUSY clears, or the I3C port answers. -/
def mbxEnd (result resp : Nat) (d : Dev) : Dev :=
  match d.mbx with
  | none => d
  | some (_, e) =>
    let d := { d with mbx := none }
    if e = 4 then d.emit (.reply (.i3c .host) 0 (leBytes 1 result ++ leBytes 8 resp))
    else ((d.clr FLT_MBX_STATUS.BUSY).wr FLT_MBX_STATUS.RESULT result).wr FLT_MBX_RESP.RESP resp

/-- A half enters peer down (R265, R268, R269). `cause` is the SCH cause its fault record carries. -/
def enterPeerDown (h : Half) (cause : Nat) (d : Dev) : Dev :=
  if d.is (SCH_STATUS.PEER_DOWN h) then d
  else
    let d := fault h 5 0x1F cause false (keepGlb d)
    let d := (d.clr (SCH_STATUS.UP h)).set (SCH_STATUS.PEER_DOWN h)
    let d := d.modSch h fun l => { l with tx := { l.tx with stopped := true }, requests := [] }
    match h with
    | .host => mbxEnd 4 0 (peerDownHost d)
    | .media => updateMode (peerDownMedia d)

/-- A half raises the fatal Schrund fault (R264): PEER_FATAL goes out in the direction it still drives, and it stops. After a fault of
validation or of R263 the link retrains only after a cold reset of the media half (R271). -/
def fatalSch (h : Half) (cause : Nat) (d : Dev) : Dev :=
  if d.is (SCH_STATUS.PEER_DOWN h) then d
  else
    let d := { d with schLock := d.schLock || cause == 1 || cause == 3 }
    enterPeerDown h cause (linkControl (.sch h) .peerFatal [BitVec.ofNat 8 cause] (d.set (SCH_STATUS.FATAL h)))

/-- A half meets an invalid message (R267): it is discarded, the peer is untrusted, and the fatal fault follows. -/
def rejectSch (h : Half) (d : Dev) : Dev :=
  let d := ((d.set (SCH_STATUS.REJECT h)).set (SCH_STATUS.UNTRUSTED h))
  let d := (d.bump (SCH_CNT_REJECT.COUNT .host) 1).bump (SCH_CNT_REJECT.COUNT .media) 1
  fatalSch h 3 (fault h 5 0x1F 0x13 false d)

end Sys2Proof.Machine
end

