-- ==== Sys2Proof/Machine/Rings.lean ====
section
/-! DEFINITION. The ring engine (chapter 02): blocks and their holders, doorbells, packet fetches, coalescing, the creation
of queue pairs, event rings, the assignment of blocks, and the weights of classes and tenants. -/

namespace Sys2Proof.Machine

/-! ### Blocks and holders -/

/-- The function that holds a block: the PF of R55 until the block was moved. -/
def Dev.holder (d : Dev) (b : Nat) : Nat := (tget d.rings.owners b).getD (256 * (b / 4096))

/-- A block given to a function; a block back at the PF of R55 has no entry. -/
def Dev.giveBlock (d : Dev) (b fn : Nat) : Dev :=
  d.modRings fun r => { r with owners := if fn = 256 * (b / 4096) then tdel r.owners b else tput r.owners b fn }

/-- The blocks that a virtual function holds, in rising order. -/
def Dev.vfBlocks (d : Dev) (fn : Nat) : List Nat := (d.rings.owners.filter fun e => e.2 == fn).map (·.1)

/-- How many blocks a function holds. -/
def Dev.blockCount (d : Dev) (fn : Nat) : Nat :=
  if isPf fn then 4096 - (d.rings.owners.filter fun e => e.1 / 4096 == epOf fn).length + (d.vfBlocks fn).length
  else (d.vfBlocks fn).length

/-- The admin queue of a function (R58): queue 262,144e for a PF, the lowest queue in its blocks for a VF. -/
def Dev.adminQueue (d : Dev) (fn : Nat) : Option Nat :=
  if isPf fn then some (262144 * epOf fn) else (d.vfBlocks fn).head?.map (64 * ·)

/-- The queue pair is one that the function holds. -/
def Dev.holdsQueue (d : Dev) (fn q : Nat) : Bool := decide (q < 1048576) && d.holder (q / 64) == fn

/-- A Calving stream uses the queue pair's doorbell (R483). -/
def Dev.streamOf (d : Dev) (q : Nat) : Option Nat :=
  (d.streams.find? fun e => e.2.send && e.2.qpair == q && e.2.isOpen).map (·.1)

/-- A vector lies within the function's table (R95). -/
def vectorOk (fn v : Nat) : Bool := if isPf fn then decide (v < 2048) else decide (v < 64)

/-! ### Doorbells -/

/-- The function decodes memory requests: it exists, its memory space is enabled, and no reset or D3hot holds it (R559,
R560, R587, R594). -/
def Dev.decodes (d : Dev) (fn : Nat) : Bool :=
  d.fnExists fn && !(d.fn fn).flr && !(d.fn fn).d3 && !(d.ep (epOf fn)).perst && !(d.pw .host).held &&
    (if isPf fn then d.is (CFG.MSE fn) else d.is (CFG.VF_MSE (256 * epOf fn)))

/-- The queue pair behind a doorbell slot, and whether a slot with none behind it is silent (R64, R65). -/
def Dev.slotQueue (d : Dev) (fn off : Nat) : Option Nat × Bool :=
  if isPf fn then
    let q := (off - 0x1000000) / 16
    if d.holdsQueue fn q then (some q, false) else (none, true)
  else
    let n := off / 16
    (((d.vfBlocks fn)[n / 64]?).map fun b => 64 * b + n % 64, false)

/-- The offset lies in the function's doorbell slots. -/
def isDoorbell (fn off : Nat) : Bool :=
  if isPf fn then decide (0x1000000 ≤ off) && decide (off < 0x2000000) else decide (off < 0x10000)

/-- An accepted tail of a queue (R67, R68). -/
def tailWrite (fn qi v : Nat) (d : Dev) : Dev :=
  match d.queue qi with
  | none => d
  | some q => if q.depth ≤ v then queueEvent fn qi evSqTail v d else d.modQ qi fun q => { q with sqTail := v }

/-- An accepted head frees room for held completions (R67, R116, R117). -/
def headWrite (fn qi v : Nat) (d : Dev) : Dev :=
  match d.queue qi with
  | none => d
  | some q =>
    if q.depth ≤ v ∨ (q.cqTail + q.depth - q.cqHead) % q.depth < (v + q.depth - q.cqHead) % q.depth then
      queueEvent fn qi evCqHead v d
    else drainHeld q.depth qi (d.modQ qi fun q => { q with cqHead := v })

/-- A new tail of a stream's buffer ring (R483, R67). -/
def streamTail (fn qi sid v : Nat) (d : Dev) : Dev :=
  match tget d.streams sid with
  | none => d
  | some st => if st.depth ≤ v then queueEvent fn qi evSqTail v d else d.modStream sid fun st => { st with tail := v }

/-- The queue pair discards every doorbell write without an event: it is in error or under reset, or an admin queue that is not ready (R93, R97, R785). -/
def Dev.bellDeaf (d : Dev) (fn : Nat) (q : Queue) : Bool := q.error || q.reset.isSome || (q.admin && !d.is (RNG_AQ_CFG.READY fn))

/-- A doorbell write that reached a slot: `off` is the offset within the slot (R63, R66). -/
def doorbell (fn qi off size value : Nat) (d : Dev) : Dev :=
  let tail := if off < 4 then some (bits value (8 * (0 - off)) 16) else none
  let head := if off ≤ 8 ∧ 8 < off + size then some (bits value (8 * (8 - off)) 16) else none
  match d.streamOf qi with
  | some sid => match tail with
    | some v => streamTail fn qi sid v d
    | none => d
  | none =>
    match d.queue qi with
    | none => queueEvent fn qi evNoQueue 0 d
    | some q =>
      if d.bellDeaf fn q then d
      else
        let d := match tail with
          | some v => tailWrite fn qi v d
          | none => d
        match head with
        | some v => headWrite fn qi v d
        | none => d

/-- DOORBELL_WRITE (R63 to R68): `off` is the offset in the function's BAR0. An admin queue that is enabled and not ready
discards the write without an event (R785). -/
def execDoorbellWrite (fn off size value : Nat) (s : State) : Host.Outcome State Fault Refusal :=
  s.ok <|
    let d := s.dev
    if !d.decodes fn || !isDoorbell fn off then d
    else
      let sl := d.slotQueue fn off
      let ok := (size == 4 || size == 8 || size == 16) && off % size == 0
      match sl.1 with
      | none =>
        if sl.2 then d else if ok then queueEvent fn 0 evNoQueue 0 d else queueEvent fn 0 evDoorbellSize 0 d
      | some qi =>
        if ok then doorbell fn qi (off % 16) size value d
        else if (d.streamOf qi).isNone && (d.queue qi).any (d.bellDeaf fn) then d
        else queueEvent fn qi evDoorbellSize 0 d

/-! ### Packet fetches -/

/-- Completions of a queue that its function holds (R580). -/
def Dev.heldCqes (d : Dev) (qi : Nat) (fn : Nat) : Nat := (d.fn fn).heldOf qi

/-- Packet fetches of an endpoint still outstanding (R814). -/
def Dev.epFetches (d : Dev) (e : Nat) : Nat :=
  (d.rings.fetches.filter fun f => ((d.queue (fetchQueue f.2)).map fun q => epOf q.fn) == some e).length

/-- The queue takes part in a grant of the ring fetch arbiter: its tail is ahead of its head (R61), R69 and R118 leave it
room, no error, reset or Bus Master stop holds it (R93, R97, R580), its endpoint has fewer than 4,096 fetches outstanding
(R814), and the Firn cache takes its class (R287). -/
def Dev.mayFetch (d : Dev) (qi : Nat) (q : Queue) : Bool :=
  q.sqTail != q.sqHead && decide (q.cmds.length + q.held.length + d.heldCqes qi q.fn + q.fetches < q.depth - 1) &&
    !q.error && q.reset.isNone && !(q.admin && !d.is (RNG_AQ_CFG.READY q.fn)) && !d.sendsWait q.fn && !(d.fn q.fn).flr &&
    decide (d.epFetches (epOf q.fn) < 4096) && !(q.cls == 2 && d.firn.classCStopped) &&
    !(d.pw .host).stopped && (q.admin || !(d.twin.act.any fun a => decide (2 ≤ a.step ∧ a.step < 5)))

/-- RING_FETCH_GRANT (R814): one grant for one packet; among the queues of the class and function that the arbiter chose,
`pick` tells which. -/
def execRingFetchGrant (pick : Nat) (s : State) : Host.Outcome State Fault Refusal :=
  s.ok <|
    let d := s.dev
    let elig := d.rings.queues.filter fun e => d.mayFetch e.1 e.2
    match grant .ringFetch (elig.map fun e => (e.2.cls, e.2.fn)) [] d with
    | (none, d) => d
    | (some (cls, fn), d) =>
      let cand := elig.filter fun e => e.2.cls == cls && e.2.fn == fn
      match cand[pick % cand.length]? with
      | none => d
      | some (qi, q) =>
        let o := d.rings.order
        ((d.modRings fun r => { r with order := o + 1, fetches := tput r.fetches o (qi + 2 ^ 20 * q.sqHead) }).modQ qi
          fun q => { q with sqHead := (q.sqHead + 1) % q.depth, fetches := q.fetches + 1 }).ask
            (.hostRead q.fn (q.sqBase + 64 * q.sqHead) 64 (.packetFetch o) false)

/-- COALESCING_TIMEOUT (R96): the coalescing time passed since the first completion not yet signalled. -/
def execCoalescingTimeout (q : Nat) (s : State) : Host.Outcome State Fault Refusal :=
  s.ok <| match s.dev.queue q with
    | none => s.dev
    | some x => if x.irq && x.coalT != 0 then signalQueue q s.dev else s.dev

/-! ### Creation of queue pairs -/

/-- A queue pair as it is created (R94). -/
def Queue.make (fn depth cls : Nat) (ro irq : Bool) (vector coalN coalT sqBase cqBase : Nat) (admin : Bool) : Queue where
  fn := fn
  depth := depth
  cls := cls
  ro := ro
  irq := irq
  vector := vector
  coalN := coalN
  coalT := coalT
  sqBase := sqBase
  cqBase := cqBase
  admin := admin
  sqTail := 0
  sqHead := 0
  cqTail := 0
  cqHead := 0
  phase := true
  error := false
  fetches := 0
  cmds := []
  held := []
  unsig := 0
  firstUnsig := 0
  reset := none
  block := none
  nextLba := 0

/-- Puts a queue pair into the table. -/
def Dev.addQueue (d : Dev) (qi : Nat) (q : Queue) : Dev :=
  d.modRings fun r => { r with queues := tput r.queues qi q }

/-- The checks of R816, in order. -/
def queueCreateCheck (fn : Nat) (p : BitVec 512) (d : Dev) : Nat :=
  let qi := pktField p 56 4
  let flags := pktField p 62 1
  let dep := pktField p 60 2
  if d.adminQueue fn == some qi then stInvalidField
  else if !d.holdsQueue fn qi then stQueueNotHeld
  else if (d.queue qi).isSome || (d.streamOf qi).isSome then stQueueExists
  else if pktAddr p % 4096 ≠ 0 ∨ pktField p 48 8 % 4096 ≠ 0 ∨ dep = 0 ∨ pktLen p ≠ 64 * (dep + 1) then stRingInvalid
  else if bit flags 3 && !vectorOk fn (bits (pktOpts p) 0 11) then stVectorInvalid
  else if bits flags 0 2 = 0 ∧ 65536 ≤ (d.rings.queues.filter fun e => e.2.cls == 0).length then stClassALimit
  else stSuccess

/-- QUEUE_CREATE (R94, R95, R816). -/
def execQueueCreate (q tag : Nat) (s : State) : Host.Outcome State Fault Refusal :=
  s.ok <| runCmd [0x86] q tag (fun qu c d =>
    let p := c.pkt
    let flags := pktField p 62 1
    let o := pktOpts p
    match queueCreateCheck qu.fn p d with
    | 0 => complete q tag stSuccess 0 (d.addQueue (pktField p 56 4)
        (Queue.make qu.fn (pktField p 60 2 + 1) (bits flags 0 2) (bit flags 2) (bit flags 3) (bits o 0 11) (bits o 16 8)
          (bits o 24 8) (pktAddr p) (pktField p 48 8) false))
    | st => failCmd q tag st d) s.dev

/-! ### Event rings -/

/-- EVENT_RING_SET (R101): the ring starts empty, with its head at 0, and takes the events held for the function (R771).
DEDUCED: a bad base, depth or vector completes with the status that R88 names for it. -/
def execEventRingSet (q tag : Nat) (s : State) : Host.Outcome State Fault Refusal :=
  s.ok <| runCmd [0x8C] q tag (fun qu c d =>
    let dep := pktField c.pkt 60 2
    let v := bits (pktOpts c.pkt) 0 11
    if pktAddr c.pkt % 4096 ≠ 0 ∨ dep = 0 ∨ 4095 < dep then failCmd q tag stRingInvalid d
    else if !vectorOk qu.fn v then failCmd q tag stVectorInvalid d
    else
      let d := (d.modFn qu.fn fun f => { f with ev := { f.ev with
        set := true, base := pktAddr c.pkt, depth := dep + 1, vector := v, tail := 0, phase := true } }).clr
          (RNG_EV_HEAD.HEAD qu.fn)
      complete q tag stSuccess 0 (drainEvents 257 qu.fn d)) s.dev

/-- RNG_EV_HEAD written (R786, R771): a head beyond the depth or the entries posted is discarded. -/
def evHeadWrite (fn value : Nat) (d : Dev) : Dev :=
  let r := (d.fn fn).ev
  let v := bits value 0 12
  let h := d.rd (RNG_EV_HEAD.HEAD fn)
  if r.depth ≤ v ∨ (r.tail + r.depth - h) % r.depth < (v + r.depth - h) % r.depth then d
  else drainEvents 257 fn (d.wr (RNG_EV_HEAD.HEAD fn) v)

/-- RNG_EV_HEAD_WRITE. -/
def execRngEvHeadWrite (fn value : Nat) (s : State) : Host.Outcome State Fault Refusal :=
  s.ok (s.dev.when (s.dev.decodes fn) (evHeadWrite fn value))

/-! ### Blocks given, taken back and transferred -/

/-- The checks of R103, in order, for the blocks `bs`. -/
def qpoolCheck (fn op target : Nat) (bs : List Nat) (d : Dev) : Nat :=
  let e := epOf fn
  let vf := 256 * e + target
  let pf := 256 * e
  if 2 < op ∨ (op < 2 ∧ (target = 0 ∨ d.rd (CFG.NUMVFS pf) < target ∨ !d.is (CFG.VF_EN pf)))
      ∨ (op = 2 ∧ (3 < target ∨ target = e)) then stInvalidField
  else if bs.contains (4096 * e) then stInvalidField
  else if bs.any (fun b => decide (16383 < b) || d.holder b != (if op = 1 then vf else pf)) then stQueueNotHeld
  else if bs.any (fun b => d.rings.queues.any (fun x => x.1 / 64 == b) ||
      d.streams.any fun x => x.2.send && x.2.isOpen && x.2.qpair / 64 == b) then stBlockInUse
  else if op = 0 ∧ 64 < d.blockCount vf + bs.length then stInvalidField
  else stSuccess

/-- QPOOL_ASSIGN (R102, R103). -/
def execQpoolAssign (q tag : Nat) (s : State) : Host.Outcome State Fault Refusal :=
  s.ok <| runCmd [0x8D] q tag (fun qu c d =>
    let n := pktField c.pkt 52 2
    let op := pktField c.pkt 54 1
    let target := pktField c.pkt 55 1
    let bs := (List.range n).map (pktField c.pkt 48 4 + ·)
    if n = 0 then failCmd q tag stInvalidField d
    else match qpoolCheck qu.fn op target bs d with
      | 0 =>
        let dest := if op = 0 then 256 * epOf qu.fn + target else if op = 1 then 256 * epOf qu.fn else 256 * target
        complete q tag stSuccess 0 (d.each bs fun d b => d.giveBlock b dest)
      | st => failCmd q tag st d) s.dev

/-! ### Weights and class A events -/

/-- A FEATURE_SET of one feature (R87): the feature ID is in byte 48. -/
def runFeature (fid q tag : Nat) (f : Queue → Cmd → Dev → Dev) (d : Dev) : Dev :=
  runCmd [0x83] q tag (fun qu c d => if pktField c.pkt 48 1 = fid then f qu c d else d) d

/-- TENANT_WEIGHT (R45, R87): for a function of the PF's endpoint, named by its number of R54 in bytes 52 to 53. -/
def execTenantWeight (q tag : Nat) (s : State) : Host.Outcome State Fault Refusal :=
  s.ok <| runFeature 2 q tag (fun qu c d =>
    let fn := pktField c.pkt 52 2
    let w := pktField c.pkt 56 1
    if w = 0 ∨ epOf fn ≠ epOf qu.fn then failCmd q tag stInvalidField d
    else complete q tag stSuccess 0
      (d.modRings fun r => { r with tenants := if w = 16 then tdel r.tenants fn else tput r.tenants fn w })) s.dev

/-- CLASS_A_EVENTS (R87, R114). -/
def execClassAEvents (q tag : Nat) (s : State) : Host.Outcome State Fault Refusal :=
  s.ok <| runFeature 3 q tag (fun qu c d =>
    let l := d.rings.classAEv
    let l := if !bit (pktField c.pkt 56 1) 0 then without l qu.fn else if l.contains qu.fn then l else l ++ [qu.fn]
    complete q tag stSuccess 0 (d.modRings fun r => { r with classAEv := l })) s.dev

end Sys2Proof.Machine
end

