-- ==== Sys2Proof/Machine/Rime.lean ====
section
/-! DEFINITION. The key store and the cipher engines' shared rules (chapter 04): loading and erasing keys, duplicated
computation, quarantine, entropy, and the zeroize. -/

namespace Sys2Proof.Machine

/-! ### Slices in service and duplicated computation -/

/-- Slice `n` is quarantined (R176). -/
def Dev.quarantined (d : Dev) (n : Nat) : Bool := bit (d.rd ING_STATUS.QUARANTINED) n

/-- The slices in service. -/
def Dev.serving (d : Dev) : List Nat := (List.range 16).filter fun n => !d.quarantined n

/-- The slice that takes a command: the one the ring engine chose, or the first in service where that one is not (R176);
none while every slice is quarantined (R178). -/
def Dev.sliceFor (d : Dev) (n : Nat) : Option Nat := if n < 16 ∧ !d.quarantined n then some n else d.serving.head?

/-- A slice leaves service (R176, R224, R779). -/
def quarantine (n : Nat) (d : Dev) : Dev :=
  if d.quarantined n then d
  else fault .host 3 n 2 true ((d.set (ING_SLICE.QUAR n)).putBit ING_STATUS.QUARANTINED n true)

/-- A verify mismatch of a slice; the third takes it out of service (R175, R176). -/
def verifyMismatch (n : Nat) (d : Dev) : Dev :=
  let d := fault .host 3 n 1 false (d.bump (ING_SLICE.VMISMATCH n) 1)
  d.when (decide (3 ≤ d.rd (ING_SLICE.VMISMATCH n))) (quarantine n)

/-- The duplicated computation on a slice: whether its output of `len` bytes is released (R222, R223), with the counts and faults of a
disagreement and the quarantine of R224. DEDUCED: an output that is no whole number of blocks counts as one block more in
RIM_CNT_BLOCKS (R240). -/
def compare2 (n len : Nat) (c : Cmp) (d : Dev) : Bool × Dev :=
  let d := drbgServe (cipherRequests len (if c = .agree then 1 else 2)) d
  let out (d : Dev) : Dev := d.bump RIM_CNT_BLOCKS.COUNT ((len + 15) / 16)
  match c with
  | .agree => (true, out d)
  | .recovered => (true, out (fault .host 4 n 1 false ((d.bump (RIM_SLICE.CRETRY n) 1).bump RIM_CNT_RETRIES.COUNT 1)))
  | .failed =>
    let d := fault .host 4 n 2 false ((d.bump (RIM_SLICE.CMISMATCH n) 1).bump RIM_CNT_RETRIES.COUNT 1)
    (false, d.when (decide (3 ≤ d.rd (RIM_SLICE.CMISMATCH n))) (quarantine n))

/-- QUAR_RELEASE (R177, R224): bit n of the mask returns slice n to service with its mismatch counts at 0. -/
def quarRelease (mask : Nat) (d : Dev) : Dev :=
  d.each (List.range 16) fun d n => d.when (bit mask n) fun d =>
    (((d.clr (ING_SLICE.VMISMATCH n)).clr (RIM_SLICE.CMISMATCH n)).clr (ING_SLICE.QUAR n)).putBit
      ING_STATUS.QUARANTINED n false

/-! ### Entropy -/

/-- A reseed fell due while the noise source had not passed its tests: commands that need Rime complete with 01h/09h
(R227). -/
def Dev.rimeBlocked (d : Dev) : Bool := d.rime.reseedDue && !d.is RIM_STATUS.ENTROPY_OK

/-- The noise source failed a test (R227). -/
def noiseFail (d : Dev) : Dev :=
  fault .host 4 0x11 3 false (((d.bump RIM_CNT_HEALTH_FAIL.COUNT 1).clr RIM_STATUS.ENTROPY_OK).set RIM_STATUS.ENTROPY_FAULT)

/-- NOISE_HEALTH_FAIL (R227). -/
def execNoiseHealthFail (s : State) : Host.Outcome State Fault Refusal := s.ok (noiseFail s.dev)

/-- ENTROPY_RESTORED (R227): the source passed its start-up test again; a reseed that fell due happens. -/
def execEntropyRestored (s : State) : Host.Outcome State Fault Refusal :=
  s.ok <|
    let d := s.dev.set RIM_STATUS.ENTROPY_OK
    if d.rime.reseedDue then reseed d else d

/-- DRBG_RESEED (R226, R227): the reseed falls due; it happens when the source is sound. -/
def execDrbgReseed (s : State) : Host.Outcome State Fault Refusal :=
  s.ok <| if s.dev.is RIM_STATUS.ENTROPY_OK then reseed s.dev
    else s.dev.modRime fun r => { r with reseedDue := true }

/-- GCM_RESUME (R221): a suspended message goes on. -/
def execGcmResume (slice : Nat) (s : State) : Host.Outcome State Fault Refusal :=
  s.ok <| s.dev.modIng fun i => { i with gcm := tmod i.gcm slice fun g => { g with suspended := false } }

/-- A class A job reaches a pipeline: a message of class B or C that runs there is suspended, once (R220). -/
def gcmSuspend (slice cls : Nat) (d : Dev) : Dev :=
  if cls ≠ 0 then d
  else d.modIng fun i => { i with gcm := tmod i.gcm slice fun g =>
    if g.cls = 0 ∨ g.suspendedOnce then g else { g with suspended := true, suspendedOnce := true } }

/-- QUAR_RELEASE as a register write: only the PF of endpoint 0 reaches ING_CTRL (R177, R180). -/
def execQuarRelease (path : Path) (mask : Nat) (s : State) : Host.Outcome State Fault Refusal :=
  s.ok <| if path = .pf 0 ∨ path = .i3c .host then quarRelease mask s.dev else s.dev

/-! ### Keys -/

/-- The dedup generation of a function steps (R133). -/
def stepGen (fn : Nat) (d : Dev) : Dev := d.modFn fn fun f => { f with gen := (f.gen + 1) % 64 }

/-- A key placed in a slot (R201 to R203). A KEY_ID whose marks have reached the end stays exhausted (R212). -/
def placeKey (n type keyId : Nat) (key : Bytes) (owner : Nat) (d : Dev) : Dev :=
  let pair := nonceKey (if n = linkSlot then 0 else owner) keyId
  d.modSlot n fun _ => ⟨type, keyId, key, owner, 0, 0, decide (2 ^ 63 - 1 ≤ (tget d.firn.nonces pair).getD 0), false, none⟩

/-- What a blob holds (R199): type, slot, KEY_ID and key, once its integrity check passed. -/
def blobFields (p : Bytes) : Nat × Nat × Nat × Bytes := (getLe p 0 1, getLe p 2 2, getLe p 4 4, p.drop 8)

/-- The unwrapped blob passes the checks of R202 against the packet's type and slot. -/
def blobOk (p : Bytes) (type slot : Nat) : Bool :=
  let f := blobFields p
  f.1 == type && f.2.1 == slot && f.2.2.1 != 0 && (if type = 15 then slot == 0 else slotType slot == type) &&
    f.2.2.2.length == (if type = 1 then 64 else 32) && !(type == 1 && f.2.2.2.take 32 == f.2.2.2.drop 32)

/-- A command has cipher work left (R228): one that reads chunks until it ends; one that writes until all its chunks crossed, and longer while
references may still be refused (R141) or its compare half goes on (R85); a save or a restore of a stream. -/
def Cmd.cipherLeft (c : Cmd) : Bool :=
  let host := c.stage == .ready || c.stage == .hostWork
  match pktOp c.pkt with
  | 2 | 5 | 7 => c.stage != .orphan && decide (c.phase < 8)
  | 1 | 0x52 => host || (c.stage == .crossed && c.chunks.any (·.isRef))
  | 6 => host || (c.stage == .crossed && decide (c.phase < 8))
  | 0x53 | 0x54 => host
  | _ => false

/-- The commands outstanding that passed check 7 for a slot's key and have cipher work left, by fetch order (R228). -/
def Dev.slotUsers (d : Dev) (n : Nat) : List Nat :=
  (d.rings.queues.map fun e => (e.2.cmds.filter fun c => c.keySlots.contains n && c.cipherLeft).map (·.order)).flatten

/-- An erase begins: it waits for the commands on the slot (R203, R228). -/
def beginErase (n q tag : Nat) (load : Option (Nat × Nat × Bytes × Nat)) (d : Dev) : Dev :=
  let w := d.slotUsers n
  d.modSlot n fun k => { k with erase := some ⟨q, tag, w, w.length, load⟩ }

/-- The RESULT of a KEY_LOAD (R202). -/
def loadResult (n keyId : Nat) : Nat := keyId + 2 ^ 32 * n

/-- A data, dedup or stream key whose blob passed goes into its slot, or waits for the erase of the key there (R203). -/
def loadSlot (fn n type keyId : Nat) (key : Bytes) (q tag : Nat) (d : Dev) : Dev :=
  let owner := if n < 2048 then n / 2 else fn
  if (d.slot n).type ≠ 0 then beginErase n q tag (some (type, keyId, key, owner)) d
  else
    let d := placeKey n type keyId key owner d
    complete q tag stSuccess (loadResult n keyId) (d.when (type == 2) (stepGen owner))

/-- The function that will own a stream-key slot once what waits there is done, where one will (R195). -/
def KeySlot.holder (k : KeySlot) : Option Nat :=
  match k.erase.bind (·.load) with
  | some (_, _, _, fn) => some fn
  | none => if k.type = 3 then some k.owner else none

/-- The stream-key slots that a function holds, those among them that wait for its key (R195). -/
def Dev.streamSlots (d : Dev) (fn : Nat) : Nat :=
  (d.rime.slots.filter fun e => decide (2048 ≤ e.1 ∧ e.1 ≤ 4087) && e.2.holder == some fn).length

/-- A device key takes the next position of both key stores (R198). -/
def placeDevKey (key : Bytes) (d : Dev) : Dev :=
  let pos := d.rime.used
  ((d.modRime fun r => { r with devHost := some key, devMedia := some key, used := pos + 1 }).set
    RIM_STATUS.DEVKEY_PRESENT).wr RIM_STATUS.DEVKEY_POS pos

/-- A KEY_LOAD fetched earlier, or a packet of an admin queue still being fetched ahead of this one, that could fill the
same empty stream-key slot first (R195). -/
def Dev.earlierLoad (d : Dev) (n order : Nat) : Bool :=
  2048 ≤ n && n ≤ 4087 && (d.slot n).type == 0 &&
    (d.rings.queues.any (fun e => e.2.cmds.any fun c =>
      pktOp c.pkt == 0x89 && pktField c.pkt 48 2 == n && decide (c.order < order)) ||
    d.rings.fetches.any fun f => decide (f.1 < order) && ((d.queue (fetchQueue f.2)).map (·.admin)).getD false)

/-- KEY_LOAD with its blob (R198 to R204, R818). `slice` is the slice whose pipeline unwraps it. -/
def keyLoad (fn q tag : Nat) (p : BitVec 512) (blob : Bytes) (slice : Nat) (cmp : Cmp) (d : Dev) : Dev :=
  let n := pktField p 48 2
  let type := pktField p 50 1
  match compare2 slice (blob.length - 8) cmp d with
  | (false, d) => failCmd q tag stCipherCompare d
  | (true, d) =>
    match d.rime.devHost.bind fun kek => (kwUnwrap kek blob).filter fun b => blobOk b type n with
    | none => failCmd q tag stUnwrapFailed (d.bump RIM_CNT_UNWRAP_FAIL.COUNT 1)
    | some b =>
      let f := blobFields b
      if type = 15 then complete q tag stSuccess f.2.2.1 (placeDevKey f.2.2.2 d)
      else if type = 4 then
        crossCmd q tag (schAsk .host (.cmd q tag) ⟨q, tag, linkSlot, 0, [0x89], blob⟩ (d.modCmd q tag fun c => { c with host := b }))
      else loadSlot fn n type f.2.2.1 f.2.2.2 q tag d

/-- KEY_LOAD (R201): `data` is the blob as the device read it (none: the read failed). It waits while an erase of its slot goes on (R203). -/
def execKeyLoad (q tag : Nat) (data : Option Bytes) (slice : Nat) (cmp : Cmp) (s : State) :
    Host.Outcome State Fault Refusal :=
  s.ok <| runCmd [0x89] q tag (fun qu c d =>
    let n := pktField c.pkt 48 2
    let type := pktField c.pkt 50 1
    if d.earlierLoad n c.order then d
    else if d.rimeBlocked then failCmd q tag stInternal d
    else match d.sliceFor slice with
      | none => failCmd q tag stInternal d
      | some sl =>
        if type ≠ 15 ∧ !d.mayAddress qu.fn n then failCmd q tag stKeyNotOwned d
        else if type ≠ 15 ∧ (d.slot n).erase.isSome then d
        else if type = 3 ∧ 64 ≤ d.streamSlots qu.fn ∧ (d.slot n).holder ≠ some qu.fn then failCmd q tag stCapacity d
        else if type = 15 ∧ 16 ≤ d.rime.used then failCmd q tag stCapacity d
        else if (type = 4 ∨ type = 15) ∧ d.peerDown .host then failCmd q tag stPathFenced d
        else match data with
          | none => failCmd q tag stHostMemory (readHost q qu c d)
          | some b => keyLoad qu.fn q tag c.pkt b sl cmp (readHost q qu c d)) s.dev

/-- KEY_ERASE begins (R228). -/
def execKeyErase (q tag : Nat) (s : State) : Host.Outcome State Fault Refusal :=
  s.ok <| runCmd [0x8A] q tag (fun _ c d =>
    let n := pktField c.pkt 48 2
    if (d.slot n).erase.isSome then d else beginErase n q tag none d) s.dev

/-- The messages that run under a slot's key leave the pipelines' suspend slots (R228). -/
def dropSlotRuns (n : Nat) (d : Dev) : Dev :=
  d.modIng fun i => { i with gcm := i.gcm.filter fun g => !((tget d.streams g.2.stream).any fun s => s.slot == n) }

/-- KEY_ERASE_DRAINED (R203, R228): once the commands waited for have no cipher work left, the slot and its copies are zeros; a waiting
KEY_LOAD then places its key. -/
def execKeyEraseDrained (slot : Nat) (s : State) : Host.Outcome State Fault Refusal :=
  s.ok <|
    let d := s.dev
    match (d.slot slot).erase with
    | none => d
    | some e =>
      if e.waits.any fun o => (d.slotUsers slot).contains o then d
      else
        let had := (d.slot slot).type
        let d := dropSlotRuns slot (d.modSlot slot fun _ => KeySlot.empty)
        let d := d.when (slot == linkSlot && e.load.isNone) fun d => d.modRime fun r => { r with linkKey := none }
        let d := d.when (had == 2) (stepGen (slot / 2))
        match e.load with
        | none => complete e.q e.tag stSuccess e.count d
        | some (type, keyId, key, owner) =>
          complete e.q e.tag stSuccess (loadResult slot keyId) (placeKey slot type keyId key owner d)

/-! ### The zeroize -/

/-- A fetched command that needs a key and has not yet passed Rime (R230). -/
def beforeRime (c : Cmd) : Bool := !c.keySlots.isEmpty && (c.stage == .ready || c.stage == .hostWork)

/-- Every queue's commands that have not passed Rime complete with 06h/07h, and their open stream blocks with them. -/
def zeroizeCommands (d : Dev) : Dev :=
  d.each d.rings.queues fun d e =>
    let d := d.each (e.2.cmds.filter beforeRime) fun d c => endMember stZeroized d e.1 c.tag
    d.modQ e.1 fun q => { q with block := none }

/-- An erase under way ends with the zeroize; a KEY_LOAD that waited for it is refused. -/
def zeroizeErases (d : Dev) : Dev :=
  d.each d.rime.slots fun d e => match e.2.erase with
    | none => d
    | some k => if k.load.isSome then failCmd k.q k.tag stZeroized d else complete k.q k.tag stSuccess k.count d

/-- A zeroize (R230 to R232, R591): on the host half every slot, the DRBG state, the pending records and the IDE keys; on the
media half the copies of the link key; with `incl` also the device key and every counter mark. A half that the trigger
cannot reach over the Schrund keeps its copies. -/
def zeroize (incl host media : Bool) (d : Dev) : Dev :=
  let d := d.when host fun d =>
    let d := zeroizeErases (zeroizeCommands d)
    let d := d.modRime fun r => { r with slots := [], pending := [], drbg := r.drbg + 1 }
    let d := d.modIng fun i => { i with gcm := [] }
    let d := d.when incl fun d => (d.modRime fun r => { r with devHost := none }).clr RIM_STATUS.DEVKEY_PRESENT
    let d := { d with eps := d.eps.map fun (e : Nat × Endpoint) =>
      (e.1, { e.2 with ide := e.2.ide.map fun (i : Nat × IdeStream) => (i.1, ⟨false, []⟩) }) }
    fault .host 4 0x12 4 false (d.set RIM_STATUS.ZEROIZED)
  d.when media fun d =>
    let d := d.modRime fun r => { r with linkKey := none }
    d.when incl fun d => (d.modRime fun r => { r with devMedia := none }).modFirn fun f => { f with nonces := [] }

/-- A zeroize whose trigger reached a half (R231). -/
def zeroizeAt (h : Half) (incl : Bool) (d : Dev) : Dev :=
  zeroize incl (h == .host || d.schUp) (h == .media || d.schUp) d

/-- RIM_ZEROIZE (R231, R236): 5A3Ch in bits [15:0], INCL_DEVKEY in bit 16; by the PF of endpoint 0 or a management port. -/
def execRimZeroize (path : Path) (value : Nat) (s : State) : Host.Outcome State Fault Refusal :=
  s.ok <|
    if bits value 0 16 ≠ 0x5A3C then s.dev
    else match path with
      | .pf 0 => zeroizeAt .host (bit value 16) s.dev
      | .i3c h => zeroizeAt h (bit value 16) s.dev
      | _ => s.dev

/-- DEVICE_ZEROIZE (R230). -/
def execDeviceZeroize (q tag : Nat) (s : State) : Host.Outcome State Fault Refusal :=
  s.ok <| runCmd [0xC5] q tag (fun _ c d =>
    complete q tag stSuccess 0 (zeroizeAt .host (bit (pktOpts c.pkt) 0) d)) s.dev

end Sys2Proof.Machine
end

