-- ==== Sys2Proof/Machine/Neve.lean ====
section
/-! DEFINITION. The Névé index with the Drift cache before it and the lend window behind it (R129 to R157). What a read of a
lend line brings arrives with the command that needs it, in the order of the reads; `lend` is what is left of it. -/

namespace Sys2Proof.Machine

/-! ### Lines and entries -/

/-- N, the number of index lines (R135). -/
def Dev.indexLines (d : Dev) : Nat :=
  d.rd ING_NEVE_LINES.LINES + if d.is ING_CFG.LEND_EN then 4096 * d.rd ING_LEND_PAGES.PAGES else 0

/-- The line lies in the lend window (R135). -/
def Dev.isLend (d : Dev) (line : Nat) : Bool := decide (d.rd ING_NEVE_LINES.LINES ≤ line)

/-- The PF that lends memory (R151). -/
def Dev.lendFn (d : Dev) : Nat := 256 * d.rd ING_LEND_TABLE.EP

/-- The lend window can be reached (R153, R155, R156). -/
def Dev.lendOn (d : Dev) : Bool := d.is ING_STATUS.LEND_ON && !d.holding d.lendFn

/-- The host address of a lend line, where its table entry is valid (R151, R153). -/
def Dev.lendAddr (d : Dev) (line : Nat) : Option Nat :=
  let i := line - d.rd ING_NEVE_LINES.LINES
  match d.ingest.lendTable[i / 4096]? with
  | none => none
  | some e => if bit e 0 then some (e / 2 ^ 21 * 2 ^ 21 + i % 4096 * 512) else none

/-- An entry's bytes (R134). -/
def IxEntry.bytes (e : IxEntry) : Bytes :=
  leBytes 16 e.tag ++ leBytes 8 e.chunk ++ leBytes 2 e.owner ++ leBytes 1 e.flags ++ leBytes 1 e.hits ++ leBytes 4 0

/-- An entry read from lend memory; none where VALID is 0 (R134). -/
def entryOf (b : Bytes) : Option IxEntry :=
  if bit (getLe b 26 1) 0 then some ⟨getLe b 0 16, getLe b 16 8, getLe b 24 2, getLe b 26 1, getLe b 27 1⟩ else none

/-- The entries of one sector of a line, by place. -/
abbrev Sector := List (Nat × Option IxEntry)

/-- A sector from its 64 bytes. -/
def sectorOf (sec : Nat) (b : Bytes) : Sector :=
  [(2 * sec, entryOf (getBytes b 0 32)), (2 * sec + 1, entryOf (getBytes b 32 32))]

/-- A sector of the index in HBM. -/
def Dev.hbmSector (d : Dev) (line sec : Nat) : Sector :=
  [(2 * sec, tget d.ingest.index (16 * line + 2 * sec)), (2 * sec + 1, tget d.ingest.index (16 * line + 2 * sec + 1))]

/-- An empty sector. -/
def emptySector (sec : Nat) : Sector := [(2 * sec, none), (2 * sec + 1, none)]

/-! ### The Drift cache -/

/-- Lookups and inserts use the cache (R150). DESIGN CHOICE: DRIFT_ON stays 1 while an invalidate makes them bypass it (see the log). -/
def Dev.driftUsed (d : Dev) : Bool := d.is ING_STATUS.DRIFT_ON && !d.is ING_STATUS.INV_BUSY

/-- The place of a line in the cache, where it is held (R143). -/
def Dev.driftAt (d : Dev) (line : Nat) : Option Nat :=
  ((List.range 16).map (16 * (line % 6144) + ·)).find? fun w => match tget d.ingest.drift w with
    | some l => l.line == line && !l.valid.isEmpty
    | none => false

/-- A sector as the cache holds it, where it is valid. -/
def Dev.driftSector (d : Dev) (line sec : Nat) : Option Sector :=
  match (d.driftAt line).bind (tget d.ingest.drift) with
  | none => none
  | some l => if l.valid.contains sec then some [(2 * sec, tget l.ents (2 * sec)), (2 * sec + 1, tget l.ents (2 * sec + 1))]
    else none

/-- One step of the LFSR of R145. DESIGN CHOICE: the Fibonacci form, shifting towards bit 31 (see the log). -/
def lfsrStep (x : BitVec 32) : BitVec 32 :=
  let taps := Bool.xor (Bool.xor (x.getLsbD 31) (x.getLsbD 21)) (Bool.xor (x.getLsbD 1) (x.getLsbD 0))
  (x <<< 1) ||| BitVec.ofNat 32 (b2n taps)

/-- The way a new line takes: one whose sectors are all invalid, or the way the LFSR gives, which advances once (R145). DESIGN CHOICE: of
several ways whose sectors are all invalid, the one with the lowest number (see the log). -/
def driftWay (line : Nat) (d : Dev) : Nat × Dev :=
  let base := 16 * (line % 6144)
  let free := (List.range 16).find? fun w => match tget d.ingest.drift (base + w) with
    | some l => l.valid.isEmpty
    | none => true
  let way := free.getD (d.ingest.lfsr.toNat % 16)
  (base + way, d.modIng fun i => { i with lfsr := lfsrStep i.lfsr })

/-- A cached sector's entries. -/
def putSector (l : DriftLine) (sec : Nat) (es : Sector) : DriftLine :=
  { l with
    valid := if l.valid.contains sec then l.valid else l.valid ++ [sec]
    ents := es.foldl (fun t e => match e.2 with
      | some x => tput t e.1 x
      | none => tdel t e.1) l.ents }

/-- A fetched sector enters the cache (R143). -/
def driftFill (line sec : Nat) (es : Sector) (d : Dev) : Dev :=
  if !d.driftUsed then d
  else match d.driftAt line with
    | some w => d.modIng fun i => { i with drift := tmod i.drift w fun l => putSector l sec es }
    | none =>
      let (w, d) := driftWay line d
      d.modIng fun i => { i with drift := tput i.drift w (putSector ⟨line, [], []⟩ sec es) }

/-- An entry written to a cached sector when that sector is valid (R144). -/
def driftWrite (line place : Nat) (e : Option IxEntry) (d : Dev) : Dev :=
  match d.driftAt line with
  | none => d
  | some w =>
    let put (l : DriftLine) : DriftLine := if l.valid.contains (place / 2) then putSector l (place / 2) [(place, e)] else l
    d.modIng fun i => { i with drift := tmod i.drift w put }

/-! ### Reads and writes of a line -/

/-- A lend request failed (R148, R156); no copy of the lend table is awaited any more. -/
def lendFault (d : Dev) : Dev :=
  let d := d.modIng fun i => { i with lendCopied := true }
  fault .host 3 0x10 3 false (((d.clr ING_STATUS.LEND_ON).set ING_STATUS.LEND_FAULT).clr ING_STATUS.INV_CLEAN)

/-- A sector of a line from the cache, HBM or the lend window; none where the lookup that needs it is a miss: a class A
lookup of a lend line that the cache lacks (R154), or a read that failed (R156). Only what a lookup or a prefetch asks for enters the cache
(`fill`, R143). -/
def readSector (fill : Bool) (line sec cls : Nat) (d : Dev) (lend : List (Option Bytes)) : Option Sector × Dev × List (Option Bytes) :=
  if d.isLend line && (!d.lendOn || (d.lendAddr line).isNone) then (some (emptySector sec), d, lend)
  else
    let cached := if d.driftUsed then d.driftSector line sec else none
    match cached with
    | some es => (some es, d, lend)
    | none =>
      if !d.isLend line then
        let es := d.hbmSector line sec
        (some es, d.when fill (driftFill line sec es), lend)
      else if cls = 0 then (none, d, lend)
      else
        let d := d.ask (.hostRead d.lendFn ((d.lendAddr line).getD 0 + 64 * sec) 64 (.lendRead cls) false)
        match lend with
        | some b :: rest => (some (sectorOf sec b), d.when fill (driftFill line sec (sectorOf sec b)), rest)
        | _ :: rest => (none, lendFault d, rest)
        | [] => (none, lendFault d, [])

/-- The sectors of a line in scan order from the home sector (R137); what cannot be read counts as empty. -/
def readSectors (fill : Bool) (line cls : Nat) : List Nat → Dev → List (Option Bytes) → Sector × Dev × List (Option Bytes)
  | [], d, lend => ([], d, lend)
  | s :: t, d, lend =>
    let (es, d, lend) := readSector fill line s cls d lend
    let (rest, d, lend) := readSectors fill line cls t d lend
    (es.getD (emptySector s) ++ rest, d, lend)

/-- An entry written to the index, and to the cached sector (R144, R154). -/
def writeEntry (line place : Nat) (e : Option IxEntry) (d : Dev) : Dev :=
  let d := driftWrite line place e d
  if d.isLend line then
    if !d.lendOn then d
    else match d.lendAddr line with
      | none => d
      | some a => d.ask (.lendWrite d.lendFn (a + 32 * place) ((e.map IxEntry.bytes).getD (List.replicate 32 0)))
  else d.modIng fun i => { i with index := match e with
    | some x => tput i.index (16 * line + place) x
    | none => tdel i.index (16 * line + place) }

/-! ### Lookups -/

/-- What a lookup must match beside the tag (R131, R137): OWNER, and SIZE16 with POOL as EFLAGS holds them. -/
structure Domain where
  owner : Nat
  size16 : Bool
  pool : Nat
  deriving DecidableEq, Repr

/-- EFLAGS of an entry of a domain (R134). -/
def Domain.flags (m : Domain) : Nat := 1 + 2 * b2n m.size16 + 4 * m.pool

/-- An entry matches a fingerprint in a domain (R137). -/
def matchesEntry (fp : Bytes) (m : Domain) (e : IxEntry) : Bool :=
  e.tag == getLe fp 0 16 && e.owner == m.owner && e.flags % 32 == m.flags

/-- The first matching entry among sectors in scan order. -/
def firstMatch (fp : Bytes) (m : Domain) (es : Sector) : Option (Nat × IxEntry) :=
  es.findSome? fun e => match e.2 with
    | some x => if matchesEntry fp m x then some (e.1, x) else none
    | none => none

/-- A fingerprint's line and home sector (R135). -/
def fpLine (fp : Bytes) (n : Nat) : Nat := getLe fp 16 8 % n
def fpHome (fp : Bytes) : Nat := getLe fp 24 1 % 8

/-- The sectors after the home sector, wrapping within the line (R137). -/
def otherSectors (home : Nat) : List Nat := (List.range 7).map fun i => (home + 1 + i) % 8

/-- Stride prefetch (R146): a slice's request for a line; when its last three requests keep a stride, a line further ahead is
fetched, one sector per valid sector of the line requested, with at most two lines ahead. DESIGN CHOICE: the line requests of a stream are
its lookups; inserts and HITS updates are none (see the log). -/
def strideRequest (slice line cls : Nat) (d : Dev) (lend : List (Option Bytes)) : Dev × List (Option Bytes) :=
  let st := (tget d.ingest.stride slice).getD ⟨[], []⟩
  let ls := (line :: st.lines).take 3
  let put (ahead : List Nat) (d : Dev) : Dev := d.modIng fun i => { i with stride := tput i.stride slice ⟨ls, ahead⟩ }
  match ls with
  | [l3, l2, l1] =>
    let s : Int := (l3 : Int) - l2
    if s = 0 ∨ (l2 : Int) - l1 ≠ s ∨ 64 < s.natAbs ∨ !d.driftUsed then (put [] d, lend)
    else
      let ahead := without st.ahead line
      let next : Int := ((ahead.getLastD line : Nat) : Int) + s
      if 2 ≤ ahead.length ∨ next < 0 ∨ (d.indexLines : Int) ≤ next then (put ahead d, lend)
      else
        let secs := match (d.driftAt line).bind (tget d.ingest.drift) with
          | some l => l.valid
          | none => []
        let (_, d, lend) := readSectors true next.toNat cls secs d lend
        (put (ahead ++ [next.toNat]) d, lend)
  | _ => (put [] d, lend)

/-- A lookup by a slice (R135 to R137): the entry that hits, by line × 16 + place. One that met a failed lend read is a miss (R156). -/
def lookup (slice cls : Nat) (fp : Bytes) (m : Domain) (d : Dev) (lend : List (Option Bytes)) :
    Option (Nat × IxEntry) × Dev × List (Option Bytes) :=
  let n := d.indexLines
  if n = 0 then (none, d, lend)
  else
    let line := fpLine fp n
    let home := fpHome fp
    let d := d.bump ING_CNT_LOOKUPS.COUNT 1
    let d := d.when (d.driftUsed && (d.driftSector line home).isSome) fun d => d.bump ING_CNT_DRIFT_HITS.COUNT 1
    let on := d.is ING_STATUS.LEND_ON
    match readSector true line home cls d lend with
    | (none, d, lend) => (none, d, lend)
    | (some es, d, lend) =>
      let (rest, d, lend) :=
        if (firstMatch fp m es).isSome || es.any (fun e => e.2.isNone) then (([] : Sector), d, lend)
        else readSectors true line cls (otherSectors home) d lend
      let failed := on && !d.is ING_STATUS.LEND_ON
      let (d, lend) := strideRequest slice line cls d lend
      (if failed then none else (firstMatch fp m (es ++ rest)).map fun x => (16 * line + x.1, x.2), d, lend)

/-! ### Inserts and HITS -/

/-- The place an insert takes (R138): a matching entry, an empty one, or the one with the lowest HITS, in scan order. -/
def insertPlace (fp : Bytes) (m : Domain) (es : Sector) : Nat :=
  match firstMatch fp m es with
  | some x => x.1
  | none =>
    match es.find? (fun e => e.2.isNone) with
    | some e => e.1
    | none =>
      let low := es.foldl (fun a e => min a ((e.2.map (·.hits)).getD 0)) 255
      ((es.find? fun e => (e.2.map (·.hits)).getD 0 == low).map (·.1)).getD 0

/-- An insert for a chunk stored new (R136, R138, R154). -/
def indexInsert (fp : Bytes) (chunk : Nat) (m : Domain) (d : Dev) (lend : List (Option Bytes)) : Dev × List (Option Bytes) :=
  let n := d.indexLines
  if n = 0 then (d, lend)
  else
    let line := fpLine fp n
    if d.isLend line && (!d.lendOn || (d.lendAddr line).isNone) then (d, lend)
    else
      let (es, d, lend) := readSectors false line 2 (fpHome fp :: otherSectors (fpHome fp)) d lend
      (writeEntry line (insertPlace fp m es) (some ⟨getLe fp 0 16, chunk, m.owner, m.flags, 0⟩) d, lend)

/-- A line's entries by place. -/
def readLine (line : Nat) (d : Dev) (lend : List (Option Bytes)) : Sector × Dev × List (Option Bytes) :=
  readSectors false line 2 (List.range 8) d lend

/-- A reference was honoured: the entry that produced it gains a hit if it still holds what it held (R138). -/
def indexHit (ix : Nat) (old : IxEntry) (d : Dev) (lend : List (Option Bytes)) : Dev × List (Option Bytes) :=
  let line := ix / 16
  let (es, d, lend) := readLine line d lend
  match ((es.find? fun e => e.1 == ix % 16).bind (·.2)) with
  | none => (d, lend)
  | some e =>
    if e.tag ≠ old.tag ∨ e.chunk ≠ old.chunk ∨ e.owner ≠ old.owner then (d, lend)
    else if e.hits < 255 then (writeEntry line (ix % 16) (some { e with hits := e.hits + 1 }) d, lend)
    else
      let d := d.each es fun d x => match x.2 with
        | some y => writeEntry line x.1 (some { y with hits := y.hits / 2 + b2n (x.1 == ix % 16) }) d
        | none => d
      (d, lend)

/-- A reference was refused: the entry that produced it is cleared unless it changed (R141). -/
def indexClear (ix : Nat) (old : IxEntry) (d : Dev) (lend : List (Option Bytes)) : Dev × List (Option Bytes) :=
  let (es, d, lend) := readLine (ix / 16) d lend
  match ((es.find? fun e => e.1 == ix % 16).bind (·.2)) with
  | none => (d, lend)
  | some e =>
    if e.tag = old.tag ∧ e.chunk = old.chunk ∧ e.owner = old.owner ∧ e.flags = old.flags then
      (writeEntry (ix / 16) (ix % 16) none d, lend)
    else (d, lend)

/-! ### Enables, invalidate and configuration -/

/-- Only the PF of endpoint 0, or the host half's I3C port, writes ING registers (R180, R747). -/
def ingWriter : Path → Bool
  | .pf 0 => true
  | .i3c .host => true
  | _ => false

/-- INVALIDATE (R145, R150): every valid bit is cleared and the LFSR reseeded; ignored while one runs. -/
def invalidate (d : Dev) : Dev :=
  if d.is ING_STATUS.INV_BUSY then d
  else
    let (v, d) := d.draw
    let seed := BitVec.ofNat 32 v
    (d.modIng fun i => { i with drift := [], lfsr := if seed = 0 then 1 else seed }).set ING_STATUS.INV_BUSY

/-- INVALIDATE as a register write. -/
def execInvalidate (path : Path) (s : State) : Host.Outcome State Fault Refusal :=
  s.ok <| if ingWriter path then invalidate s.dev else s.dev

/-- INVALIDATE_DONE (R148, R150). -/
def execInvalidateDone (s : State) : Host.Outcome State Fault Refusal :=
  s.ok <| if s.dev.is ING_STATUS.INV_BUSY then (s.dev.clr ING_STATUS.INV_BUSY).set ING_STATUS.INV_CLEAN else s.dev

/-- LEND_EN is cleared with LEND_ON (R148, R153, R157). -/
def lendOff (d : Dev) : Dev :=
  ((d.clr ING_CFG.LEND_EN).clr ING_STATUS.LEND_ON).clr ING_STATUS.INV_CLEAN

/-- The lend table is read, where the lending PF may issue requests (R153, R155). -/
def askTable (d : Dev) : Dev :=
  if d.is ING_CFG.LEND_EN && !d.ingest.lendCopied && !d.holding d.lendFn then
    d.ask (.hostRead d.lendFn (d.rd ING_LEND_TABLE.BASE * 4096) (8 * d.rd ING_LEND_PAGES.PAGES) (.lendRead 2) false)
  else d

/-- A write to ING_CFG (R148, R149, R153, R182, R184): an enable without a clean invalidate is refused. A taken LEND_EN asks
for the copy of the lend table. -/
def ingCfgWrite (value : Nat) (d : Dev) : Dev :=
  let clean := d.is ING_STATUS.INV_CLEAN
  let d := d.put ING_CFG.DEDUP_EN (bit value 0)
  let d :=
    if bit value 1 && !d.is ING_CFG.DRIFT_EN then
      if clean then (d.set ING_CFG.DRIFT_EN).set ING_STATUS.DRIFT_ON else d.set ING_STATUS.ENABLE_REFUSED
    else if !bit value 1 && d.is ING_CFG.DRIFT_EN then
      ((d.clr ING_CFG.DRIFT_EN).clr ING_STATUS.DRIFT_ON).clr ING_STATUS.INV_CLEAN
    else d
  if bit value 2 && !d.is ING_CFG.LEND_EN then
    if clean then
      askTable ((d.set ING_CFG.LEND_EN).modIng fun i => { i with lendCopied := false })
    else d.set ING_STATUS.ENABLE_REFUSED
  else if !bit value 2 && d.is ING_CFG.LEND_EN then lendOff d
  else d

/-- ING_CFG_WRITE. -/
def execIngCfgWrite (path : Path) (value : Nat) (s : State) : Host.Outcome State Fault Refusal :=
  s.ok <| if ingWriter path then ingCfgWrite value s.dev else s.dev

/-- LEND_TABLE_COPIED (R153): the copy of the lend table is complete, or its read failed (R156). -/
def execLendTableCopied (table : Option (List Nat)) (s : State) : Host.Outcome State Fault Refusal :=
  s.ok <|
    let d := s.dev
    if !d.is ING_CFG.LEND_EN || d.ingest.lendCopied || d.holding d.lendFn then d
    else match table with
      | none => lendFault d
      | some t => (d.modIng fun i => { i with lendTable := t.take (d.rd ING_LEND_PAGES.PAGES), lendCopied := true }).set
          ING_STATUS.LEND_ON

/-- The size of the BAR2 of endpoint `e` in bytes (R569). -/
def Dev.bar2Size (d : Dev) (e : Nat) : Nat := d.image.bar2.getD e 0

/-- A write to ING_NEVE_LINES, ING_LEND_TABLE or ING_LEND_PAGES (R148, R152, R181, R187 to R189). DEDUCED: the lend table and
the page count are checked together against the size of the BAR2 of the endpoint named. -/
def ingIndexWrite (off value : Nat) (d : Dev) : Dev :=
  let refuse := d.set ING_STATUS.CONFIG_REFUSED
  let take (d : Dev) : Dev := d.clr ING_STATUS.INV_CLEAN
  if off = 0x200010 then
    let v := bits value 0 27
    if d.is ING_CFG.DEDUP_EN ∨ 83886080 < v then refuse else take (d.wr ING_NEVE_LINES.LINES v)
  else if off = 0x200018 then
    let ep := bits value 0 2
    if d.is ING_CFG.LEND_EN ∨ d.bar2Size ep < d.rd ING_LEND_PAGES.PAGES * 2 ^ 21 then refuse
    else take ((d.wr ING_LEND_TABLE.EP ep).wr ING_LEND_TABLE.BASE (bits value 12 52))
  else if off = 0x200020 then
    let v := bits value 0 22
    if d.is ING_CFG.LEND_EN ∨ 2097152 < v ∨ d.bar2Size (d.rd ING_LEND_TABLE.EP) < v * 2 ^ 21 then refuse
    else take (d.wr ING_LEND_PAGES.PAGES v)
  else d

/-- ING_INDEX_CONFIG_WRITE. -/
def execIngIndexConfigWrite (path : Path) (off value : Nat) (s : State) : Host.Outcome State Fault Refusal :=
  s.ok <| if ingWriter path then ingIndexWrite off value s.dev else s.dev

end Sys2Proof.Machine
end

