-- ==== Sys2Proof/Machine/Pack.lean ====
section
/-! DEFINITION. Pack's stored forms (R158 to R173): the sequence coding, bin chunks, and the containers of a stream block.
The compressor's own choice of coding is the device's (R174) and arrives with a command; how a coding is read is here. -/

namespace Sys2Proof.Machine

/-! ### The sequence coding -/

/-- A LEN field and what follows it (R171). -/
def lenField : Bytes → Option (Nat × Bytes)
  | [] => none
  | v :: t =>
    if v.toNat < 0xF0 then some (v.toNat + 1, t)
    else match t with
      | [] => none
      | w :: t => some ((v.toNat - 0xF0) * 256 + w.toNat + 241, t)

/-- A match copied one byte at a time; the output stands newest first, so the byte at `off` back is at place `off - 1`
(R172). -/
def copyBack : Nat → Nat → Bytes → Bytes
  | 0, _, out => out
  | n + 1, off, out => copyBack n off (out.getD (off - 1) 0 :: out)

/-- The literal run of a sequence: the output with it, and the input after it. -/
def literalRun (present : Bool) (inp out : Bytes) : Option (Bytes × Bytes) :=
  if !present then some (inp, out)
  else match lenField inp with
    | none => none
    | some (n, t) => if t.length < n then none else some (t.drop n, (t.take n).reverse ++ out)

/-- The match of a sequence with the low six bits of its control byte (R171, R172). -/
def matchRun (present : Bool) (low : Nat) (inp out : Bytes) : Option (Bytes × Bytes) :=
  if !present then (if low = 0 then some (inp, out) else none)
  else match inp with
    | a :: b :: t =>
      let off := a.toNat + 256 * b.toNat + 1
      if out.length < off then none
      else if low < 63 then some (t, copyBack (low + 4) off out)
      else match lenField t with
        | none => none
        | some (n, t) => some (t, copyBack (66 + n) off out)
    | _ => none

/-- The series of sequences up to its end byte (R171, R172): the output must reach `limit` exactly, and no byte may follow
the end byte. The first argument bounds the sequences read. -/
def unpackSeqs : Nat → Bytes → Bytes → Nat → Option Bytes
  | 0, _, _, _ => none
  | fuel + 1, inp, out, limit =>
    match inp with
    | [] => none
    | c :: t =>
      if c = 0 then (if t.isEmpty && out.length == limit then some out.reverse else none)
      else match literalRun (bit7 c) t out with
        | none => none
        | some (t, out) =>
          match matchRun (bit6 c) (c.toNat % 64) t out with
          | none => none
          | some (t, out) => if limit < out.length then none else unpackSeqs fuel t out limit
where
  /-- Literal run present. -/
  bit7 (c : Byte) : Bool := c.toNat.testBit 7
  /-- Match present. -/
  bit6 (c : Byte) : Bool := c.toNat.testBit 6

/-- A coded stream of `limit` uncompressed bytes. -/
def unpack (coded : Bytes) (limit : Nat) : Option Bytes := unpackSeqs (coded.length + 1) coded [] limit

/-! ### Bin chunks -/

/-- A chunk coded into bin `k` (R161). -/
def binBytes (k : Nat) (coded data : Bytes) : Bytes :=
  padTo (512 * k) (leBytes 2 coded.length ++ [1] ++ leBytes 1 k ++ leBytes 4 (crc32c data) ++ coded)

/-- The coded payload fits bin `k` (R158). -/
def fitsBin (k : Nat) (coded : Bytes) : Bool := decide (coded.length ≤ 512 * k - 8)

/-- The uncompressed bytes of a chunk in bin `k`, or none where a decoder rejects it or CHECK differs (R161, R172, R179). -/
def binDecode (k : Nat) (b : Bytes) : Option Bytes :=
  let clen := getLe b 0 2
  if getLe b 2 1 ≠ 1 ∨ getLe b 3 1 ≠ k ∨ 512 * k - 8 < clen then none
  else (unpack (getBytes b 8 clen) 4096).filter fun d => crc32c d == getLe b 4 4

/-! ### Stream containers -/

/-- One container's header and payload (R169). -/
def containerBytes (first last : Bool) (ord blockId : Nat) (payload : Bytes) : Bytes :=
  leBytes 2 0x46C7 ++ [1] ++ leBytes 1 ((if first then 1 else 0) + if last then 2 else 0) ++ leBytes 2 ord ++
    leBytes 2 payload.length ++ leBytes 8 blockId ++ payload

/-- The last container with the block trailer (R170). -/
def lastContainer (first : Bool) (ord blockId : Nat) (payload data : Bytes) (nchunk : Nat) : Bytes :=
  padTo 4080 (containerBytes first true ord blockId payload) ++ leBytes 4 data.length ++ leBytes 2 nchunk ++ [0, 0] ++
    leBytes 4 (crc32c data) ++ leBytes 4 0

/-- How the coded bytes fall into containers: 4,080 bytes each, and the rest in the last (R170).
The first argument bounds the containers. -/
def splitContainers : Nat → Bytes → List Bytes
  | 0, b => [b]
  | fuel + 1, b =>
    if b.length ≤ 4080 then [b]
    else b.take 4080 :: splitContainers fuel (b.drop 4080)

/-- The containers of a stream block (R169, R170). A coding that leaves 4,065 to 4,080 bytes for the last container fits no
run of containers. -/
def blockContainers (blockId : Nat) (coded data : Bytes) (nchunk : Nat) : Option (List Bytes) :=
  let parts := splitContainers coded.length coded
  let n := parts.length
  if coded.isEmpty || decide (4064 < (parts.getLastD []).length) then none
  else some (parts.zipIdx.map fun p =>
    if p.2 + 1 = n then lastContainer (p.2 == 0) p.2 blockId p.1 data nchunk
    else containerBytes (p.2 == 0) false p.2 blockId p.1)

/-- A container's header fits its place in the block (R170, R172). -/
def containerOk (blockId n ord : Nat) (b : Bytes) : Bool :=
  let last := ord + 1 == n
  b.length == 4096 && getLe b 0 2 == 0x46C7 && getLe b 2 1 == 1 &&
    getLe b 3 1 == (if ord = 0 then 1 else 0) + (if last then 2 else 0) && getLe b 4 2 == ord && getLe b 8 8 == blockId &&
    (if last then decide (1 ≤ getLe b 6 2 ∧ getLe b 6 2 ≤ 4064) else getLe b 6 2 == 4080)

/-- The uncompressed bytes of a stream block from its containers in order (R169 to R173, R179). -/
def blockDecode (blockId : Nat) (cs : List Bytes) : Option Bytes :=
  let n := cs.length
  let lastC := cs.getLastD []
  if n = 0 || !(cs.zipIdx.all fun c => containerOk blockId n c.2 c.1) then none
  else (unpack ((cs.map fun c => getBytes c 16 (getLe c 6 2)).flatten) (getLe lastC 4080 4)).filter fun d =>
    crc32c d == getLe lastC 4088 4

end Sys2Proof.Machine
end

