-- ==== Sys2Proof/Machine/Slices.lean ====
section
/-! DEFINITION. What a Glacier slice does with the data of a write (R124 to R142, R158 to R168, R175, R206, R207): chunks settled,
serials leased, stored forms chosen, encrypted and sent to the media half. -/

namespace Sys2Proof.Machine

/-! ### What a run of a slice still holds -/

/-- The next coding the compressor chose; none left reads as no coding, which fits nothing. -/
def nextCode (r : SliceRun) : Bytes × SliceRun := (r.codes.headD [], { r with codes := r.codes.tail })

/-- The outcome of the next duplicated computation. -/
def nextCmp (r : SliceRun) : Cmp × SliceRun := (r.cmps.headD .agree, { r with cmps := r.cmps.tail })

/-! ### Hazards of one queue (R104, R105) -/

/-- The block ranges a command addresses, by namespace, first block and length, with whether it writes them (R86). DESIGN CHOICE: the blocks of a
snapshot count as those of the live view with the same numbers (see the log). -/
def Cmd.ranges (c : Cmd) : List (Nat × Nat × Nat × Bool) :=
  let here (w : Bool) := (pktNsid c.pkt, pktSlba c.pkt, pktNlb c.pkt, w)
  match pktOp c.pkt with
  | 1 | 3 | 4 | 6 => [here true]
  | 2 | 5 | 7 => [here false]
  | 8 => [here true, (pktField c.pkt 48 4, pktField c.pkt 56 8, pktNlb c.pkt, false)]
  | _ => []

/-- Two ranges share a block and one of them is written. -/
def clash (a b : Nat × Nat × Nat × Bool) : Bool :=
  a.1 == b.1 && (a.2.2.2 || b.2.2.2) && decide (a.2.1 < b.2.1 + b.2.2.1) && decide (b.2.1 < a.2.1 + a.2.2.1)

/-- A command waits for an earlier one of its queue: one that shares a block and has neither committed nor taken its data, or a packet
of the queue still being fetched. A member and a non-member never wait for each other (R319). -/
def Dev.hazard (d : Dev) (qi : Nat) (c : Cmd) : Bool :=
  (d.rings.fetches.any fun f => decide (f.1 < c.order) && fetchQueue f.2 == qi) ||
  (match d.queue qi with
    | none => false
    | some q => q.cmds.any fun e => decide (e.order < c.order) && !e.took && pktMember e.pkt == pktMember c.pkt &&
        e.ranges.any fun a => c.ranges.any fun b => clash a b)

/-! ### Serial leases (R127, R128) -/

/-- A mark to be made durable in every pool: one MARK record each. -/
def formMarks (kind id fn mark : Nat) (d : Dev) : Dev :=
  d.each d.pools fun d p => formRec { FRec.empty with
    rtype := rtMark, pool := p.1, receiver := d.twinSide, marks := [(kind, id, fn, mark)] } d

/-- The number that a slice's marks are kept under: both twins' slices count apart. -/
def Dev.sliceKey (d : Dev) (sl : Nat) : Nat := d.twinSide * 16 + sl

/-- The highest mark of a kind, slice or KEY_ID and function, among those recorded and those of MARK records under way. -/
def Dev.topMark (d : Dev) (kind id fn recorded : Nat) : Nat :=
  ((d.firn.recs.map (·.2)) ++ d.firn.waiting).foldl (fun n r => r.marks.foldl (fun n m =>
    if m.1 = kind ∧ m.2.1 = id ∧ m.2.2.1 = fn then max n m.2.2.2 else n) n) recorded

/-- A slice asks for a lease of 16,777,216 serials above every mark recorded for it, or about to be. -/
def askLease (sl : Nat) (d : Dev) : Dev :=
  if d.firn.asks.any (fun a => a.kind == 1 && a.target == sl) || !d.ingest.marksRead then d
  else
    let mark := d.topMark 1 (d.sliceKey sl) 0 ((tget d.firn.serials (d.sliceKey sl)).getD 0) + 16777216
    formMarks 1 (d.sliceKey sl) 0 mark (d.modFirn fun x => { x with asks := x.asks ++ [⟨1, sl, 0, 0, mark, mark - 16777216⟩] })

/-- Values left in a slice's lease. -/
def Dev.leaseLeft (d : Dev) (sl : Nat) : Nat := ((tget d.ingest.lease sl).map (·.2)).getD 0

/-- `n` consecutive chunk IDs of a slice (R126): the first of them. -/
def takeSerials (sl n : Nat) (d : Dev) : Nat × Dev :=
  let l := (tget d.ingest.lease sl).getD (1, 0)
  (2 ^ 63 * d.twinSide + 2 ^ 58 * sl + l.1, d.modIng fun i => { i with lease := tput i.lease sl (l.1 + n, l.2 - n) })

/-! ### Chunks settled: zero, reference or new -/

/-- PACK_ATTR's fields (R120). -/
def packMode (p : Nat) : Nat := bits p 0 2
def packDedup (p : Nat) : Bool := bit p 2
def packCeiling (p : Nat) : Nat := bits p 4 3
def packExtent (p : Nat) : Nat := (bits p 8 6 + 1) * 65536

/-- The dedup domain of a namespace's chunks (R131). -/
def Dev.domain (d : Dev) (n : Ns) : Domain := ⟨n.tenant + 1024 * (d.fn n.tenant).gen, n.big, n.pool⟩

/-- The form of a raw chunk (R158, R160). -/
def rawForm (n : Ns) : Nat := if n.big then 9 else 8

/-- One chunk settled (R125, R129, R132, R137). DESIGN CHOICE: ING_CNT_ZERO counts here, and ING_CNT_RAW where a chunk takes its raw form, also for
a command that stores nothing in the end (R191; see the log). -/
def settleChunk (sl cls : Nat) (n : Ns) (opts ord : Nat) (data : Bytes) (lend : List (Option Bytes)) (d : Dev) :
    HostChunk × List (Option Bytes) × Dev :=
  let new : HostChunk := ⟨ord, data, none, none, (d.domain n).owner, 0, false, rawForm n, sl, d.is ING_CFG.DEDUP_EN, false⟩
  if allZero data then ({ new with data := [], isRef := true }, lend, d.bump ING_CNT_ZERO.COUNT 1)
  else if !packDedup n.pack then (new, lend, d)
  else
    let fp := hmac256 (d.slot (2 * n.tenant + 1)).key data
    let new := { new with fp := some fp }
    if bit opts 0 || !d.is ING_CFG.DEDUP_EN then (new, lend, d)
    else match lookup sl cls fp (d.domain n) d lend with
      | (none, d, lend) => (new, lend, d)
      | (some (place, e), d, lend) =>
        ({ new with hit := some (place, e.flags), hitOwner := e.owner, id := e.chunk, isRef := true }, lend, d)

/-- The chunks of a command settled in order. -/
def settleChunks (sl cls : Nat) (n : Ns) (opts : Nat) :
    List (Bytes × Nat) → List (Option Bytes) → Dev → List HostChunk × List (Option Bytes) × Dev
  | [], lend, d => ([], lend, d)
  | (b, i) :: t, lend, d =>
    let (c, lend, d) := settleChunk sl cls n opts i b lend d
    let (cs, lend, d) := settleChunks sl cls n opts t lend d
    (c :: cs, lend, d)

/-! ### Stored forms and encryption -/

/-- The stored form of a new chunk that is not in a stream block, and its bytes before encryption (R159 to R161, R175). -/
def packChunk (sl : Nat) (n : Ns) (opts : Nat) (data : Bytes) (run : SliceRun) (d : Dev) : Nat × Bytes × SliceRun × Dev :=
  let raw (run : SliceRun) (d : Dev) := (rawForm n, data, run, d.bump ING_CNT_RAW.COUNT 1)
  if packMode n.pack ≠ 1 ∨ bit opts 1 ∨ d.quarantined sl then raw run d
  else
    let (code, run) := nextCode run
    let k := packCeiling n.pack
    if code.isEmpty ∨ !fitsBin k code then raw run d
    else if unpack code 4096 = some data then (k, binBytes k code data, run, d)
    else raw run (verifyMismatch sl d)

/-- One data unit encrypted under the tenant's data key (R206, R207); none where the duplicated computation failed (R223). -/
def encryptUnit (sl : Nat) (n : Ns) (id ordinal : Nat) (plain : Bytes) (run : SliceRun) (d : Dev) :
    Option Bytes × SliceRun × Dev :=
  let (cmp, run) := nextCmp run
  let key := (d.slot (2 * n.tenant)).key
  match compare2 sl plain.length cmp d with
  | (false, d) => (none, run, d)
  | (true, d) => (some (xtsEnc (key.take 32) (key.drop 32) (leBytes 8 id ++ leBytes 8 ordinal) plain), run, d)

/-- What a slice sends for one new chunk: the chunk with its ID and form, and its stored object. -/
structure Stored where
  chunk : HostChunk
  bytes : Bytes
  deriving DecidableEq, Repr

/-- New chunks take their IDs from `id` on and are stored, each by itself; none where a computation failed. -/
def storeChunks (sl : Nat) (n : Ns) (opts : Nat) : Nat → List HostChunk → SliceRun → Dev → Option (List Stored) × SliceRun × Dev
  | _, [], run, d => (some [], run, d)
  | id, c :: t, run, d =>
    let (form, plain, run, d) := packChunk sl n opts c.data run d
    match encryptUnit sl n id 0 plain run d with
    | (none, run, d) => (none, run, d)
    | (some b, run, d) =>
      let (rest, run, d) := storeChunks sl n opts (id + 1) t run d
      (rest.map fun l => ⟨{ c with id := id, form := form, slice := sl, isRef := false }, b⟩ :: l, run, d)

/-- The containers of a block encrypted in order. -/
def sealContainers (sl : Nat) (n : Ns) (block : Nat) : Nat → List Bytes → SliceRun → Dev → Option (List Bytes) × SliceRun × Dev
  | _, [], run, d => (some [], run, d)
  | o, b :: t, run, d =>
    match encryptUnit sl n block o b run d with
    | (none, run, d) => (none, run, d)
    | (some x, run, d) =>
      let (rest, run, d) := sealContainers sl n block (o + 1) t run d
      (rest.map (x :: ·), run, d)

/-! ### What crosses to the media half (R251) -/

/-- For a CALVE_APPLY: the stream ID, the next SEQ and the first block not yet covered (R489). -/
def applyArgs (q : Nat) (c : Cmd) (d : Dev) : List Nat :=
  let sid := pktField c.pkt 48 4
  if pktOp c.pkt ≠ 0x52 then []
  else match ((tget d.streams sid).bind fun s => s.applies.find? fun a => a.1 == q && a.2.1 == c.tag) with
    | some a => [sid, a.2.2 + 1, pktSlba c.pkt + pktNlb c.pkt]
    | none => [sid, 0, 0]

/-- The write envelope of a command: SLBA, NLB, FLAGS, OPTIONS, the chunk count and the opcode. -/
def sendEnvelope (q : Nat) (cls : Nat) (c : Cmd) (count : Nat) (d : Dev) : Dev :=
  schSend .host .writeEnvelope cls ⟨q, c.tag, 0, pktNsid c.pkt,
    [pktSlba c.pkt, pktNlb c.pkt, pktFlags c.pkt, pktOpts c.pkt, count, pktOp c.pkt] ++ applyArgs q c d, []⟩ d

/-- A new-chunk descriptor: ordinal in the command, form, block ID and chunks of the block (0 outside a block), stored length; the
fingerprint goes with it, since the record carries it (R290). -/
def sendNew (q tag nsid cls : Nat) (c : HostChunk) (block count len : Nat) (d : Dev) : Dev :=
  schSend .host .newChunk cls ⟨q, tag, c.id, nsid, [c.ord, c.form, block, count, len], c.fp.getD []⟩ d

/-- A stored object (R251). -/
def sendPayload (q tag nsid cls id : Nat) (b : Bytes) (d : Dev) : Dev :=
  schSend .host .writePayload cls ⟨q, tag, id, nsid, [], b⟩ d

/-- A reference-chunk descriptor. -/
def sendRef (q tag nsid cls : Nat) (c : HostChunk) (d : Dev) : Dev :=
  schSend .host .referenceChunk cls ⟨q, tag, c.id, nsid, [c.ord], c.fp.getD (List.replicate 32 0)⟩ d

/-- New chunks stored by themselves: a descriptor and a payload each. -/
def sendStored (q tag nsid cls : Nat) (l : List Stored) (d : Dev) : Dev :=
  d.each l fun d x => sendPayload q tag nsid cls x.chunk.id x.bytes (sendNew q tag nsid cls x.chunk 0 0 x.bytes.length d)

/-- A chunk of a command replaced by its ordinal. -/
def putChunk (x : HostChunk) (l : List HostChunk) : List HostChunk := l.map fun c => if c.ord = x.ord then x else c

/-- A command keeps the settled form of its chunks. -/
def keepChunks (q tag : Nat) (l : List HostChunk) (d : Dev) : Dev :=
  d.modCmd q tag fun c => { c with chunks := l.foldl (fun cs x => putChunk x cs) c.chunks }

/-- The envelope of a command and its references go once. -/
def sendOpening (q tag cls : Nat) (d : Dev) : Dev :=
  match (d.queue q).bind (·.cmd tag) with
  | none => d
  | some c =>
    if c.sent then d
    else
      let d := sendEnvelope q cls c c.chunks.length (d.modCmd q tag fun c => { c with sent := true })
      d.each (c.chunks.filter (·.isRef)) fun d x => sendRef q tag (pktNsid c.pkt) cls x d

/-- The command has sent every chunk, so it waits for the media half. -/
def crossIfSent (q tag : Nat) (d : Dev) : Dev :=
  match (d.queue q).bind (·.cmd tag) with
  | none => d
  | some c => if c.stage = .hostWork ∧ c.chunks.all (fun x => x.isRef || x.id != 0) then crossCmd q tag d else d

/-! ### Stream blocks (R162 to R168) -/

/-- The tags of the commands of a list of block chunks, once each. -/
def tagsOf (l : List (Nat × HostChunk)) : List Nat := l.foldl (fun t x => if t.contains x.1 then t else t ++ [x.1]) []

/-- Why no cipher work starts (R227, R230): the status, where there is one. -/
def Dev.cipherStop (d : Dev) : Option Nat :=
  if d.is RIM_STATUS.ZEROIZED then some stZeroized else if d.rimeBlocked then some stInternal else none

/-- A stream job: its containers before encryption, within the budget of R166, once the verifier passed them; the second part tells
that the verifier found a mismatch. -/
def streamJob (block : Nat) (code data : Bytes) (nchunk : Nat) : Option (List Bytes) × Bool :=
  match blockContainers block code data nchunk with
  | none => (none, false)
  | some cs =>
    if data.length / 4096 - 1 < cs.length then (none, false)
    else if unpack code data.length ≠ some data then (none, true)
    else (some cs, false)

/-- The chunks of a block go out: as containers of one block, or raw each by itself when the job failed. A computation that failed
completes its commands with 06h/04h. -/
def sendBlock (q nsid cls sl : Nat) (n : Ns) (l : List (Nat × HostChunk)) (run : SliceRun) (d : Dev) : SliceRun × Dev :=
  let (first, d) := takeSerials sl l.length d
  let chunks := l.zipIdx.map fun x => (x.1.1, { x.1.2 with id := first + x.2, form := 0x10, slice := sl })
  let data := (l.map fun x => x.2.data).flatten
  let (code, run) := nextCode run
  let job := if d.quarantined sl then (none, false) else streamJob first code data l.length
  let d := d.when job.2 (verifyMismatch sl)
  let fail (d : Dev) : Dev := d.each (tagsOf l) fun d t => endMember stCipherCompare d q t
  let open' (d : Dev) : Dev := d.each (tagsOf l) fun d t => sendOpening q t cls d
  let close (d : Dev) : Dev := d.each (tagsOf l) fun d t => crossIfSent q t d
  match job.1 with
  | some cs =>
    match sealContainers sl n first 0 cs run d with
    | (none, run, d) => (run, fail d)
    | (some bs, run, d) =>
      let d := open' (d.each chunks fun d x => keepChunks q x.1 [x.2] d)
      let d := d.each chunks fun d x => sendNew q x.1 nsid cls x.2 first l.length (4096 * cs.length) d
      (run, close (d.each bs fun d b => sendPayload q (l.headD (0, default')).1 nsid cls first b d))
  | none =>
    let d := d.when (!job.2 && !d.quarantined sl) fun d => d.bump ING_CNT_STREAM_FAIL.COUNT 1
    match storeChunks sl { n with pack := 0 } 2 first (l.map (·.2)) run d with
    | (none, run, d) => (run, fail d)
    | (some st, run, d) =>
      let pairs := l.zip st
      let d := open' (d.each pairs fun d x => keepChunks q x.1.1 [x.2.chunk] d)
      (run, close (d.each pairs fun d x => sendStored q x.1.1 nsid cls [x.2] d))
where
  /-- A chunk that carries nothing. -/
  default' : HostChunk := ⟨0, [], none, none, 0, 0, false, 0, 0, false, false⟩

/-- The open block of a queue closes (R163); without the serials it needs, it stays closed until a lease comes. -/
def closeBlock (q : Nat) (run : SliceRun) (d : Dev) : SliceRun × Dev :=
  match (d.queue q).bind (·.block) with
  | none => (run, d)
  | some b =>
    let clear (d : Dev) : Dev := d.modQ q fun x => { x with block := none }
    let l := b.chunks.filter fun x => ((d.queue q).bind (·.cmd x.1)).any (·.stage == .hostWork)
    if l.isEmpty then (run, clear d)
    else if let some e := d.cipherStop then (run, (clear d).each (tagsOf l) fun d t => endMember e d q t)
    else if d.leaseLeft b.slice < l.length then
      (run, askLease b.slice (d.modQ q fun x => { x with block := some { b with closing := true } }))
    else match d.ns b.nsid with
      | none => (run, clear d)
      | some n => sendBlock q b.nsid b.cls b.slice n l run (clear d)

/-- A new chunk joins the open block of its queue, or opens one; the block that it fills closes. -/
def joinBlock (q tag nsid cls sl : Nat) (n : Ns) (c : HostChunk) (run : SliceRun) (d : Dev) : SliceRun × Dev :=
  let b := ((d.queue q).bind (·.block)).getD ⟨nsid, sl, cls, [], 0, false⟩
  let b := { b with chunks := b.chunks ++ [(tag, c)], size := b.size + n.blockSize }
  let d := d.modQ q fun x => { x with block := some b }
  if packExtent n.pack ≤ b.size then closeBlock q run d else (run, d)

/-- Chunks join one after the other; behind a block that is full and waits for serials they wait as well (R163). -/
def joinAll (q tag nsid cls sl : Nat) (n : Ns) : List HostChunk → SliceRun → Dev → SliceRun × Dev
  | [], run, d => (run, d)
  | c :: t, run, d =>
    if ((d.queue q).bind (·.block)).any (·.closing) then (run, d) else
    let (run, d) := joinBlock q tag nsid cls sl n c run d
    joinAll q tag nsid cls sl n t run d

/-- The chunks of a command that forms its own blocks (R164). The first argument bounds the blocks. -/
def ownBlocks (q tag nsid cls sl : Nat) (n : Ns) : Nat → List HostChunk → SliceRun → Dev → SliceRun × Dev
  | 0, _, run, d => (run, d)
  | fuel + 1, l, run, d =>
    if l.isEmpty || !((d.queue q).bind (·.cmd tag)).any (·.stage == .hostWork) then (run, d)
    else
      let per := packExtent n.pack / n.blockSize
      let (run, d) := sendBlock q nsid cls sl n ((l.take per).map fun c => (tag, c)) run d
      ownBlocks q tag nsid cls sl n fuel (l.drop per) run d

/-! ### WRITE and COMPARE_AND_WRITE -/

/-- The data of a write as the slice takes it: exactly the command's length. -/
def Cmd.chunksOf (c : Cmd) (n : Ns) (b : Bytes) : List (Bytes × Nat) :=
  (pieces n.blockSize (padTo (pktNlb c.pkt * n.blockSize) b)).zipIdx

/-- The second phase of a write: its new chunks get their IDs, are stored and sent. It waits while its slice lacks serials (R128). A
chunk whose reference was refused is compressed and sent by itself (R141), in a stream block of its own where the mode is stream. DESIGN
CHOICE: so are the chunks of a COMPARE_AND_WRITE or an apply, of which R162 to R164 say nothing (see the log). PACK_FLUSH closes the open block that the
command meets, also where none of its chunks joined (R163). -/
def sendWrite (qi : Nat) (qu : Queue) (c : Cmd) (n : Ns) (sl : Nat) (run : SliceRun) (d : Dev) : Dev :=
  let tag := c.tag
  let nsid := pktNsid c.pkt
  let new := c.chunks.filter fun x => !x.isRef && x.id == 0
  let stream := packMode n.pack == 2 && !bit (pktOpts c.pkt) 1
  let alone := pktMember c.pkt || pktFence c.pkt || pktOp c.pkt != 1 || new.any (·.refused)
  let stop := if new.isEmpty then none else d.cipherStop
  if let some e := stop then endMember e d qi tag
  else if stream && !alone && !new.isEmpty then
    let (run, d) := if !c.joins then closeBlock qi run d else (run, d)
    if ((d.queue qi).bind (·.block)).any (fun b => b.closing || b.nsid != nsid) then d
    else
      let (run, d) := joinAll qi tag nsid qu.cls sl n new run (d.modCmd qi tag fun c => { c with stage := .hostWork, host := [] })
      if bit (pktOpts c.pkt) 2 then (closeBlock qi run d).2 else d
  else if d.leaseLeft sl < new.length then askLease sl d
  else if stream && !new.isEmpty then
    (ownBlocks qi tag nsid qu.cls sl n new.length new run (d.modCmd qi tag fun c => { c with stage := .hostWork })).2
  else
    let (first, d) := if new.isEmpty then (0, d) else takeSerials sl new.length d
    match storeChunks sl n (pktOpts c.pkt) first new run d with
    | (none, _, d) => endMember stCipherCompare d qi tag
    | (some st, run, d) =>
      let d := keepChunks qi tag (st.map (·.chunk)) d
      let d := crossCmd qi tag (sendStored qi tag nsid qu.cls st (sendOpening qi tag qu.cls d))
      let ours := ((d.queue qi).bind (·.block)).any fun b => b.nsid == nsid
      if c.joins && !c.sent && packMode n.pack == 2 && bit (pktOpts c.pkt) 2 && ours then (closeBlock qi run d).2 else d

/-- The first phase of a write: the slice chosen, the data taken and its chunks settled; the data of a compare stays aside. -/
def settleWrite (qi : Nat) (qu : Queue) (c : Cmd) (n : Ns) (run : SliceRun) (b : Bytes) (d : Dev) : Dev :=
  match d.sliceFor run.slice with
  | none => failCmd qi c.tag stInternal d
  | some sl =>
    let caw := pktOp c.pkt == 6
    let half := pktNlb c.pkt * n.blockSize
    let w := if caw then getBytes b half half else b
    let d := gcmSuspend sl qu.cls d
    let (cs, lend, d) := settleChunks sl qu.cls n (pktOpts c.pkt) (c.chunksOf n w) run.lend d
    let c := { c with chunks := cs, slice := sl, host := if caw then b.take half else [], stage := .hostWork, started := true }
    sendWrite qi qu c n sl { run with lend := lend } (d.modCmd qi c.tag fun _ => c)

/-- A WRITE or COMPARE_AND_WRITE runs, or goes on once its slice has serials. The class A events of R114 are for its function. -/
def runWrite (qi : Nat) (run : SliceRun) (qu : Queue) (c : Cmd) (d : Dev) : Dev :=
  match d.ns (pktNsid c.pkt) with
  | none => failCmd qi c.tag stInvalidNamespace d
  | some n =>
    if c.chunks.isEmpty then
      if d.rimeBlocked then failCmd qi c.tag stInternal d
      else match run.data with
        | none => failCmd qi c.tag stHostMemory (readHost qi qu c d)
        | some b => settleWrite qi qu c n run b (readHost qi qu c d)
    else if c.chunks.all (fun x => x.isRef || x.id != 0) then d
    else if ((d.queue qi).bind (·.block)).any (fun b => b.chunks.any fun x => x.1 == c.tag) then d
    else sendWrite qi qu c n c.slice run d

/-- WRITE (R27, R124 to R168). -/
def execWrite (q tag : Nat) (run : SliceRun) (s : State) : Host.Outcome State Fault Refusal :=
  s.ok (runCmd [1] q tag (runWrite q run) s.dev)

/-- COMPARE_AND_WRITE (R84, R85): the write half goes as a write; the media half then sends what the compare half meets. -/
def execCompareAndWrite (q tag : Nat) (run : SliceRun) (s : State) : Host.Outcome State Fault Refusal :=
  s.ok (runCmd [6] q tag (fun qu c d =>
    (runWrite q run qu c d).modCmd q tag fun c => { c with phase := max 1 c.phase, buf := [] }) s.dev)

/-- STREAM_BLOCK_TIMEOUT (R163): 100 µs passed with no chunk joining. -/
def execStreamBlockTimeout (q : Nat) (run : SliceRun) (s : State) : Host.Outcome State Fault Refusal :=
  s.ok (closeBlock q run s.dev).2

/-! ### Reads, and commands that move no data (R84) -/

/-- The operations that an other-I/O descriptor names; the numbers are the module's own. -/
def ioZeroes : Nat := 0
def ioDealloc : Nat := 1
def ioCompare : Nat := 2
def ioCopy : Nat := 3
def ioPassed : Nat := 4
def ioFailed : Nat := 5

/-- Commands whose data must pass a slice complete with 01h/09h where Rime or every slice is out (R178, R227). -/
def needSlice (qi : Nat) (c : Cmd) (d : Dev) (f : Dev → Dev) : Dev :=
  if d.rimeBlocked ∨ d.serving.isEmpty then failCmd qi c.tag stInternal d else f d

/-- A read of blocks crosses once no earlier command of its queue holds it back (R104); `snap` is GROUP_OR_SNAP. -/
def crossRead (qi : Nat) (qu : Queue) (c : Cmd) (d : Dev) : Dev :=
  if d.hazard qi c then d
  else crossCmd qi c.tag (schSend .host .readDesc qu.cls ⟨qi, c.tag, pktGos c.pkt, pktNsid c.pkt,
    [pktSlba c.pkt, pktNlb c.pkt, pktOpts c.pkt, 0], []⟩ d)

/-- READ (R84, R104). -/
def execRead (q tag : Nat) (s : State) : Host.Outcome State Fault Refusal :=
  s.ok (runCmd [2] q tag (fun qu c d => needSlice q c d (crossRead q qu c)) s.dev)

/-- VERIFY (R84). -/
def execVerify (q tag : Nat) (s : State) : Host.Outcome State Fault Refusal :=
  s.ok (runCmd [7] q tag (fun qu c d => needSlice q c d (crossRead q qu c)) s.dev)

/-- An other-I/O descriptor of a command: the operation, SLBA, NLB, FLAGS, OPTIONS, and the source range. -/
def crossOther (qi op : Nat) (qu : Queue) (c : Cmd) (ref : Nat) (src : List Nat) (d : Dev) : Dev :=
  crossCmd qi c.tag (schSend .host .otherIo qu.cls ⟨qi, c.tag, ref, pktNsid c.pkt,
    [op, pktSlba c.pkt, pktNlb c.pkt, pktFlags c.pkt, pktOpts c.pkt] ++ src, []⟩ d)

/-- COMPARE (R84): the buffer is read, then the blocks. -/
def execCompare (q tag : Nat) (data : Option Bytes) (s : State) : Host.Outcome State Fault Refusal :=
  s.ok (runCmd [5] q tag (fun qu c d => needSlice q c d fun d =>
    if d.hazard q c then d
    else match data with
      | none => failCmd q tag stHostMemory (readHost q qu c d)
      | some b =>
        let n := c.dataLen
        crossOther q ioCompare qu c (pktGos c.pkt) [] ((readHost q qu c d).modCmd q tag fun c => { c with host := padTo n b })) s.dev)

/-- WRITE_ZEROES (R84). -/
def execWriteZeroes (q tag : Nat) (s : State) : Host.Outcome State Fault Refusal :=
  s.ok (runCmd [3] q tag (fun qu c d => crossOther q ioZeroes qu c 0 [] d) s.dev)

/-- DEALLOCATE (R84). -/
def execDeallocate (q tag : Nat) (s : State) : Host.Outcome State Fault Refusal :=
  s.ok (runCmd [4] q tag (fun qu c d => crossOther q ioDealloc qu c 0 [] d) s.dev)

/-- The refusals of COPY (R474): 0 for none. -/
def copyCheck (fn : Nat) (p : BitVec 512) (d : Dev) : Nat :=
  let snid := pktField p 48 4
  let snap := pktField p 52 4
  match d.ns snid, d.ns (pktNsid p) with
  | some s, some n =>
    if !s.attached.contains fn then stInvalidNamespace
    else if s.pool ≠ n.pool ∨ s.big ≠ n.big ∨ s.owner ≠ n.owner ∨ s.ownerKey ≠ n.ownerKey then stInvalidField
    else if snap ≠ 0 ∧ (s.visibleSnap snap).isNone then stInvalidField
    else if (((if snap = 0 then none else s.visibleSnap snap).map (·.size)).getD s.size) < pktField p 56 8 + pktNlb p then stLbaOutOfRange
    else stSuccess
  | _, _ => stInvalidNamespace

/-- COPY (R474). -/
def execCopy (q tag : Nat) (s : State) : Host.Outcome State Fault Refusal :=
  s.ok (runCmd [8] q tag (fun qu c d =>
    match copyCheck qu.fn c.pkt d with
    | 0 => crossOther q ioCopy qu c (pktField c.pkt 52 4) [pktField c.pkt 48 4, pktField c.pkt 56 8] d
    | st => failCmd q tag st d) s.dev)

end Sys2Proof.Machine
end

