-- ==== Sys2Proof/Machine/Gf.lean ====
section
/-! DEFINITION. The arithmetic of the syndromes in GF(2^8) with the reducing polynomial 11Dh and generator 2 (R351 to R354), byte by
byte over strips. -/

namespace Sys2Proof.Machine

/-- A field element doubled. -/
def gfDouble (a : Nat) : Nat := if 128 ≤ a then (2 * a) ^^^ 0x11D else 2 * a

/-- A product; the first argument counts the bits of `b` still to come. -/
def gfMulBits : Nat → Nat → Nat → Nat
  | 0, _, _ => 0
  | k + 1, a, b => (if b % 2 = 1 then a else 0) ^^^ gfMulBits k (gfDouble a) (b / 2)

/-- A product in the field. -/
def gfMul (a b : Nat) : Nat := gfMulBits 8 a b

/-- A power. -/
def gfPow (a : Nat) : Nat → Nat
  | 0 => 1
  | n + 1 => gfMul a (gfPow a n)

/-- g^i. -/
def gfExp (i : Nat) : Nat := gfPow 2 (i % 255)

/-- The inverse of a nonzero element. -/
def gfInv (a : Nat) : Nat := gfPow a 254

/-- A strip multiplied by an element. -/
def gfScale (c : Nat) (b : Bytes) : Bytes := if c = 1 then b else b.map fun x => BitVec.ofNat 8 (gfMul c x.toNat)

/-- The sum of strips of `n` bytes. -/
def gfSum (n : Nat) (l : List Bytes) : Bytes := l.foldl xorBytes (List.replicate n 0)

/-- Syndrome `j` of extended strips with their ordinals (R351). -/
def syndrome (n j : Nat) (es : List (Nat × Bytes)) : Bytes := gfSum n (es.map fun e => gfScale (gfExp (j * e.1)) e.2)

/-- The first row whose leading coefficient is not zero, and the others. -/
def pivotOf : List (List Nat × Bytes) → Option ((List Nat × Bytes) × List (List Nat × Bytes))
  | [] => none
  | r :: t => if r.1.headD 0 ≠ 0 then some (r, t) else (pivotOf t).map fun p => (p.1, r :: p.2)

/-- The solution of a linear system with as many unknowns as the first argument says. -/
def gfSolve : Nat → List (List Nat × Bytes) → Option (List Bytes)
  | 0, _ => some []
  | n + 1, rows =>
    match pivotOf rows with
    | none => none
    | some (p, rest) =>
      let c := gfInv (p.1.headD 1)
      let cs := p.1.tail.map (gfMul c)
      let b := gfScale c p.2
      let low := rest.map fun r =>
        let a := r.1.headD 0
        (List.zipWith (fun x y => x ^^^ gfMul a y) r.1.tail cs, xorBytes r.2 (gfScale a b))
      (gfSolve n low).map fun xs => List.foldl xorBytes b (List.zipWith gfScale cs xs) :: xs

/-- Lost data strips rebuilt (R354): `data` are the surviving data strips by ordinal, `synds` the surviving syndromes by number from 0 in
rising order, `lost` the ordinals of the lost data strips. -/
def gfRebuild (n : Nat) (data synds : List (Nat × Bytes)) (lost : List Nat) : Option (List (Nat × Bytes)) :=
  let used := synds.take lost.length
  if used.length < lost.length then none
  else
    let rows := used.map fun s => (lost.map fun x => gfExp (s.1 * x), xorBytes s.2 (syndrome n s.1 data))
    (gfSolve lost.length rows).map fun xs => lost.zip xs

end Sys2Proof.Machine
end

