-- ==== Sys2Proof/Machine/Stripe.lean ====
section
/-! DEFINITION. Stripes (R345 to R366, R375, R376): where strips lie, what a drive block holds, and the checks of strips that are
read. -/

namespace Sys2Proof.Machine

/-! ### Geometry and placement (R345, R361 to R366) -/

/-- W: strips of a stripe. -/
def Pool.width (p : Pool) : Nat := p.k + p.m

/-- L: the bytes of a strip's data. -/
def Pool.stripLen (p : Pool) : Nat := if p.big then 16384 else 4096

/-- SLOTS (R363). -/
def Pool.slots (p : Pool) : Nat := (p.d - p.spare) / p.width

/-- SPARE_POS (R363). -/
def Pool.sparePos (p : Pool) : Nat := p.d - p.slots * p.width

/-- A stripe ID (R364). -/
def stripeId (pool row slot : Nat) : Nat := slot + 2 ^ 7 * row + 2 ^ 48 * pool

/-- The row and the slot of a stripe ID. -/
def stripeRow (s : Nat) : Nat := bits s 7 41
def stripeSlot (s : Nat) : Nat := bits s 0 7

/-- One advance of the state of R362. -/
def rotStep (s : BitVec 32) : BitVec 32 :=
  let s := s ^^^ (s <<< 13)
  let s := s ^^^ (s >>> 17)
  s ^^^ (s <<< 5)

/-- Step 3 of R362, from position `j` down. -/
def rotLoop : Nat → BitVec 32 → List Nat → List Nat
  | 0, _, l => l
  | j + 1, s, l =>
    let s := rotStep s
    let r := s.toNat % (j + 2)
    rotLoop j s (setAt (setAt l (j + 1) (l.getD r 0)) r (l.getD (j + 1) 0))

/-- The rotation permutation of `d` members (R362). -/
def rotation (seed d t : Nat) : List Nat :=
  let s := BitVec.ofNat 32 seed ^^^ BitVec.ofNat 32 ((t + 1) * 0x9E3779B1)
  rotLoop (d - 1) (if s = 0 then 1 else s) (List.range d)

/-- The permutation of a row (R361). -/
def Pool.perm (p : Pool) (row : Nat) : List Nat := rotation p.seed p.d (row % 1024)

/-- The spare position that each relocation entry uses in a row (R365, R446). DEDUCED: an entry uses one only where R363 places a strip
on its member. -/
def relocSpots (pi named : List Nat) (lo hi : Nat) : List Reloc → List Nat → List (Reloc × Option Nat)
  | [], _ => []
  | e :: t, used =>
    if lo ≤ pi.idxOf e.member then (e, none) :: relocSpots pi named lo hi t used
    else
      let q := (List.range' lo (hi - lo)).find? fun q => !named.contains (pi.getD q 0) && !used.contains q
      (e, q) :: relocSpots pi named lo hi t (used ++ q.toList)

/-- The state of a member number; a number with no entry is EMPTY (R397). -/
def Pool.mstate (p : Pool) (m : Nat) : Nat := ((tget p.members m).map (·.state)).getD 0

/-- The member on which a row places a position (R363, R365): none where a relocated strip has no place. DEDUCED from R445: such a strip is
placed on the member itself while a drive fills it. -/
def Pool.memberAt (p : Pool) (row pos : Nat) : Option Nat :=
  let pi := p.perm row
  match pi[pos]? with
  | none => none
  | some m =>
    let spots := relocSpots pi (p.relocs.map (·.member)) (p.slots * p.width) p.d p.relocs []
    match spots.find? fun e => e.1.member == m with
    | none => some m
    | some (e, q) =>
      if e.mark.any (fun k => decide (k ≤ row)) then some m
      else match q with
        | some q => pi[q]?
        | none => if p.mstate m = 5 then some m else none

/-- The member of a strip of a stripe. -/
def Pool.place (p : Pool) (stripe ord : Nat) : Option Nat := p.memberAt (stripeRow stripe) (stripeSlot stripe * p.width + ord)

/-- The member to which R363 alone assigns a strip. -/
def Pool.homePlace (p : Pool) (stripe ord : Nat) : Option Nat := (p.perm (stripeRow stripe))[stripeSlot stripe * p.width + ord]?

/-- A member counts as in service for placement (R398). -/
def inService (st : Nat) : Bool := st == 1 || st == 2 || st == 6

/-- A member of a pool. -/
def Dev.member (d : Dev) (p m : Nat) : Option PoolMember := (tget d.pools p).bind fun x => tget x.members m

/-- A member changed. -/
def modMember (p m : Nat) (f : PoolMember → PoolMember) (d : Dev) : Dev :=
  d.modPool p fun x => { x with members := tmod x.members m f }

/-- A live stripe or one being written. -/
def Dev.stripe (d : Dev) (s : Nat) : Option Stripe := tget d.xmap.stripes s

/-- The stripes of a pool. -/
def Dev.poolStripes (d : Dev) (p : Nat) : List (Nat × Stripe) := d.xmap.stripes.filter fun e => stripePool e.1 == p

/-- The live stripes of a pool. -/
def Dev.liveStripes (d : Dev) (p : Nat) : List (Nat × Stripe) := (d.poolStripes p).filter fun e => !e.2.reserved && !e.2.freed

/-- The drive that serves a strip of a pool's member on this module's path: the member is in service, or a drive fills it. -/
def Dev.driveFor (d : Dev) (p m : Nat) : Option Nat :=
  match d.member p m with
  | none => none
  | some x =>
    if !(inService x.state || x.state == 5) || x.pathLost then none
    else x.drive.filter fun i => (tget d.drives.table i).any fun v => v.state == 4

/-- The drive from which a strip can be read now (R376, R398). -/
def Dev.stripDrive (d : Dev) (s ord : Nat) : Option Nat :=
  match tget d.pools (stripePool s), d.stripe s with
  | some p, some st => if st.missing.contains ord then none else (p.place s ord).bind (d.driveFor (stripePool s))
  | _, _ => none

/-- A lost strip (R407). -/
def Dev.stripLost (d : Dev) (s ord : Nat) : Bool :=
  match tget d.pools (stripePool s), d.stripe s with
  | some p, some st => st.missing.contains ord || match p.place s ord with
    | none => true
    | some m => p.mstate m == 4 || p.mstate m == 0
  | _, _ => false

/-- A strip in the erasure set whoever reads it: lost, or on a member out of service (R398). -/
def Dev.stripOut (d : Dev) (s ord : Nat) : Bool :=
  d.stripLost s ord || match tget d.pools (stripePool s) with
    | some p => (p.place s ord).any fun m => p.mstate m == 3 || p.mstate m == 7
    | none => true

/-- The lost strips of a stripe. -/
def Dev.lostOrds (d : Dev) (s : Nat) : List Nat :=
  (List.range (((d.stripe s).map fun x => x.k + x.m).getD 0)).filter fun o => d.stripLost s o

/-- The strips of a stripe in the erasure set. -/
def Dev.outOrds (d : Dev) (s : Nat) : List Nat :=
  (List.range (((d.stripe s).map fun x => x.k + x.m).getD 0)).filter fun o => d.stripOut s o

/-- A change of members or relocation entries: a strip whose place changed counts as lost there until it is written (R365, R406), but for
those that `written` names. -/
def remap (p : Nat) (written : Nat → Nat → Bool) (f : Pool → Pool) (d : Dev) : Dev :=
  match tget d.pools p with
  | none => d
  | some old =>
    let new := f old
    let one (e : Nat × Stripe) : Nat × Stripe :=
      if stripePool e.1 ≠ p then e
      else
        let w := List.range (e.2.k + e.2.m)
        let moved (o : Nat) : Bool := old.place e.1 o != new.place e.1 o
        let gone := w.filter fun o => if moved o then !written e.1 o else e.2.missing.contains o
        (e.1, { e.2 with missing := gone })
    (d.modPool p fun _ => new).modMap fun x => { x with stripes := x.stripes.map one }

/-- A stripe of the divergence log, or found inconsistent by this twin (R383). -/
def Dev.divergentStripe (d : Dev) (s : Nat) : Bool := d.xmap.divLog.any (·.stripe == s) || d.xmap.found.contains s

/-- The lost-stripe entry of a stripe. -/
def Dev.lostEntry (d : Dev) (s : Nat) : Option LostStripe := ((tget d.pools (stripePool s)).bind fun p => p.lost.find? (·.stripe == s))

/-- A stripe joins the repair queue of its pool (R421). -/
def addRepair (s : Nat) (d : Dev) : Dev :=
  match tget d.pools (stripePool s) with
  | none => d
  | some p =>
    if p.repair.contains s then d
    else if 4096 ≤ p.repair.length then d.set MNT_STATUS.REPAIR_OVF
    else d.modPool (stripePool s) fun p => { p with repair := p.repair ++ [s] }

/-- A stripe needs rebuilding (R407). -/
def Dev.needsRebuild (d : Dev) (s : Nat) : Bool :=
  (d.stripe s).any (fun x => !x.reserved && !x.freed) && !d.divergentStripe s && !(d.lostOrds s).isEmpty

/-- A stripe's level (R407). -/
def Dev.stripeLevel (d : Dev) (s : Nat) : Nat := ((d.stripe s).map (·.m)).getD 0 - (d.outOrds s).length

/-- A free stripe slot in which every strip falls on a member in service (R304, R366); `avoid` are members left out (R307). -/
def Dev.slotFree (d : Dev) (p row slot : Nat) (avoid : List Nat) : Bool :=
  match tget d.pools p with
  | none => false
  | some x =>
    decide (row < x.rows) && decide (slot < x.slots) && (d.stripe (stripeId p row slot)).isNone &&
      !(d.reads.any fun r => r.stripe == stripeId p row slot) &&
      (List.range x.width).all fun o => (x.place (stripeId p row slot) o).any fun m => inService (x.mstate m) && !avoid.contains m

/-- The members of a stripe's strips in order of ordinal (R367). -/
def Pool.membersOf (p : Pool) (stripe : Nat) : List Nat := (List.range p.width).map fun o => (p.place stripe o).getD 0xFFFF

/-! ### Drive blocks (R351, R352, R355 to R358) -/

/-- The kinds of a strip (R356). -/
def kindData : Nat := 0
def kindSyndrome : Nat := 1
def kindFill : Nat := 2
def kindMap : Nat := 3
def kindWitness : Nat := 4

/-- Bytes 0 to 23 of a trailer. -/
def trailerHead (seq chunk ord k m nsid fn kind : Nat) : Bytes :=
  leBytes 8 seq ++ leBytes 8 chunk ++ leBytes 2 (ord + 64 * k + 4096 * (m - 2)) ++ leBytes 6 (nsid + 2 ^ 32 * fn + 2 ^ 42 * kind)

/-- A drive block: data, trailer head, CCHECK (R357) and the last 32 bytes. -/
def driveBlock (data head tail : Bytes) : Bytes := data ++ head ++ leBytes 8 (crc64 (data ++ head ++ tail)) ++ tail

/-- The extended strip of a data strip (R351). -/
def extended (p : Pool) (seq ord : Nat) (tag : Nat × Nat × Nat × Nat) (data : Bytes) : Bytes :=
  padTo p.stripLen data ++ trailerHead seq tag.2.2.2 ord p.k p.m tag.1 tag.2.1 tag.2.2.1

/-- The block of a data strip from its extended strip. -/
def dataBlock (p : Pool) (e : Bytes) : Bytes := driveBlock (e.take p.stripLen) (e.drop p.stripLen) (List.replicate 32 0)

/-- The block of syndrome strip `j` (R352, R358). -/
def syndromeBlock (p : Pool) (stripe seq j : Nat) (s : Bytes) : Bytes :=
  driveBlock (s.take p.stripLen) (trailerHead seq stripe (p.k + j) p.k p.m 0 0 kindSyndrome)
    (s.drop p.stripLen ++ List.replicate 8 0)

/-- The extended data strips of a stripe with their ordinals. -/
def extendedAll (p : Pool) (seq : Nat) (tags : List (Nat × Nat × Nat × Nat)) (data : List Bytes) : List (Nat × Bytes) :=
  ((tags.zip data).zipIdx).map fun x => (x.2, extended p seq x.2 x.1.1 x.1.2)

/-- Every block of a stripe, by ordinal (R351, R352). -/
def stripeBlocks (p : Pool) (stripe seq : Nat) (tags : List (Nat × Nat × Nat × Nat)) (data : List Bytes) : List Bytes :=
  let es := extendedAll p seq tags data
  (es.map fun e => dataBlock p e.2) ++
    (List.range p.m).map fun j => syndromeBlock p stripe seq j (syndrome (p.stripLen + 24) j es)

/-! ### What a block that was read shows (R375) -/

/-- Trailer fields of a block read from a pool. -/
def blkSeq (p : Pool) (b : Bytes) : Nat := getLe b p.stripLen 8
def blkChunk (p : Pool) (b : Bytes) : Nat := getLe b (p.stripLen + 8) 8
def blkStrip (p : Pool) (b : Bytes) : Nat := getLe b (p.stripLen + 16) 2
def blkTag (p : Pool) (b : Bytes) : Nat := getLe b (p.stripLen + 18) 6
def blkKind (p : Pool) (b : Bytes) : Nat := bits (blkTag p b) 42 4

/-- The part of a block that enters the syndromes: an extended strip, or a syndrome (R351, R352). -/
def blkExtended (p : Pool) (ord : Nat) (b : Bytes) : Bytes :=
  b.take p.stripLen ++ getBytes b (p.stripLen + (if ord < p.k then 0 else 32)) 24

/-- A strip's own check at the position it was read from (R375). -/
def ownCheck (p : Pool) (ord : Nat) (b : Bytes) : Bool :=
  let l := p.stripLen
  let kind := blkKind p b
  b.length == l + 64 && crc64 (b.take (l + 24) ++ b.drop (l + 32)) == getLe b (l + 24) 8 &&
    bits (blkStrip p b) 6 6 == p.k && bits (blkStrip p b) 12 2 == p.m - 2 && bits (blkStrip p b) 14 2 == 0 &&
    bits (blkTag p b) 46 2 == 0 &&
    (if ord < p.k then (kind == kindData || kind == kindFill || kind == kindMap) && allZero (b.drop (l + 32))
     else kind == kindSyndrome && allZero (b.drop (l + 56)))

/-- The stripe check (R375). -/
def stripeCheck (p : Pool) (stripe seq ord : Nat) (b : Bytes) : Bool :=
  blkSeq p b == seq && bits (blkStrip p b) 0 6 == ord && (decide (ord < p.k) || blkChunk p b == stripe)

/-- How a strip read for an object stands: 0 it passes, 1 its tag differs, 2 its own or another identity check failed (R375, R379). -/
def objectCheck (p : Pool) (o : ObjEnt) (obj nsid fn : Nat) (b : Bytes) : Nat :=
  if !ownCheck p o.strip b then 2
  else if bits (blkTag p b) 0 32 ≠ nsid ∨ bits (blkTag p b) 32 10 ≠ fn then 1
  else if blkSeq p b ≠ o.seq ∨ bits (blkStrip p b) 0 6 ≠ o.strip ∨ blkKind p b ≠ kindData ∨
      (o.offset = 0 ∧ blkChunk p b ≠ obj) then 2
  else 0

/-- The stored object within a strip's data. -/
def objectIn (o : ObjEnt) (b : Bytes) : Bytes := getBytes b (512 * o.offset) o.len

end Sys2Proof.Machine
end

