-- ==== Sys2Proof/Machine/HostRx.lean ====
section
/-! DEFINITION. Leases granted (R127, R210), and what the host half does with the messages of the media half: stored objects of reads
(R179), refused references (R141) and completions (R26, R82, R138). -/

namespace Sys2Proof.Machine

/-! ### Leases -/

/-- Every MARK record that carries the mark of a lease has committed, in every pool (R127, R210). -/
def Dev.markDurable (d : Dev) (a : LeaseAsk) : Bool :=
  let id := if a.kind = 1 then d.sliceKey a.target else a.keyId
  let has (r : FRec) : Bool := r.rtype == rtMark && !r.committed && r.marks.contains (a.kind, id, a.fn, a.mark)
  !(d.firn.recs.any fun e => has e.2) && !d.firn.waiting.any has

/-- An ask answered leaves the list. -/
def dropAsk (kind target : Nat) (d : Dev) : Dev :=
  d.modFirn fun x => { x with asks := x.asks.filter fun a => !(a.kind == kind && a.target == target) }

/-- Stream blocks that closed and wait for serials go out (R168). -/
def closeWaiting (sl : Nat) (run : SliceRun) (d : Dev) : Dev :=
  (d.rings.queues.foldl (fun (x : SliceRun × Dev) e =>
    if e.2.block.any (fun b => b.closing && b.slice == sl) then closeBlock e.1 x.1 x.2 else x) (run, d)).2

/-- SERIAL_LEASE_GRANT (R127): the first value lies above the mark that stood before; none is granted until the marks of every pool have been
read (R128). -/
def execSerialLeaseGrant (slice : Nat) (run : SliceRun) (s : State) : Host.Outcome State Fault Refusal :=
  s.ok <|
    let d := s.dev
    match d.firn.asks.find? fun a => a.kind == 1 && a.target == slice with
    | none => d
    | some a =>
      if !d.markDurable a || !d.ingest.marksRead then d
      else
        let k := d.sliceKey slice
        let d := d.modFirn fun x => { x with serials := tput x.serials k (max a.mark ((tget x.serials k).getD 0)) }
        let d := d.modIng fun i => { i with lease := tput i.lease slice (a.mark - 16777216 + 1, 16777216) }
        closeWaiting slice run (dropAsk 1 slice d)

/-- The pair of owner function and KEY_ID under which a slot's counter marks are kept; the link key's owner is the module (PF 0). -/
def Dev.noncePair (d : Dev) (n : Nat) : Nat × Nat :=
  if n = linkSlot then (0, ((d.rime.linkKey).map (·.1)).getD 0) else ((d.slotOwner n).getD 0, (d.slot n).keyId)

/-- An encrypting slot asks for a lease of 2^32 counter values (R210); 01h/0Bh where a new pair finds all marks in use (R211). -/
def askNonce (n : Nat) (d : Dev) : Nat × Dev :=
  let p := d.noncePair n
  let k := nonceKey p.1 p.2
  if d.firn.asks.any (fun a => a.kind == 2 && a.target == n) then (stSuccess, d)
  else if (tget d.firn.nonces k).isNone ∧ 65536 ≤ d.firn.nonces.length + (d.firn.asks.filter fun a => a.kind == 2 &&
      (tget d.firn.nonces (nonceKey a.fn a.keyId)).isNone).length then (stCapacity, d)
  else
    let asked := d.firn.asks.foldl (fun m a => if a.kind = 2 ∧ a.fn = p.1 ∧ a.keyId = p.2 then max m a.mark else m) 0
    let base := max asked (d.topMark 2 p.2 p.1 ((tget d.firn.nonces k).getD 0))
    let mark := min (2 ^ 63 - 1) (base + 2 ^ 32)
    (stSuccess, formMarks 2 p.2 p.1 mark (d.modFirn fun x => { x with asks := x.asks ++ [⟨2, n, p.1, p.2, mark, base⟩] }))

/-- NONCE_LEASE_GRANT (R210): a slot whose counter reached its end is exhausted (R212). -/
def execNonceLeaseGrant (slot : Nat) (s : State) : Host.Outcome State Fault Refusal :=
  s.ok <|
    let d := s.dev
    match d.firn.asks.find? fun a => a.kind == 2 && a.target == slot with
    | none => d
    | some a =>
      if !d.markDurable a then d
      else
        let k := nonceKey a.fn a.keyId
        let d := d.modFirn fun x => { x with nonces := tput x.nonces k (max a.mark ((tget x.nonces k).getD 0)) }
        let d := dropAsk 2 slot d
        let d := if d.noncePair slot ≠ (a.fn, a.keyId) then d
          else d.modSlot slot fun y => { y with
            ctr := a.base + 1, left := a.mark - a.base, exhausted := y.exhausted || decide (2 ^ 63 - 1 ≤ a.base + 1) }
        d.when (slot == linkSlot) sendSealed

/-! ### Stored objects of a read (R179, R222, R223) -/

/-- A fetched command that waits for the media half, as a message of the Schrund names it (R266). -/
def Dev.waiting (d : Dev) (m : Msg) (ops : List Nat) : Option Cmd :=
  match (d.queue m.q).bind (·.cmd m.tag) with
  | none => none
  | some c =>
    if (c.stage == .crossed || c.stage == .orphan || c.stage == .hostWork) && (ops.isEmpty || ops.contains (pktOp c.pkt)) &&
        m.nsid == pktNsid c.pkt then some c
    else none

/-- The opcodes whose commands end by a completion of the media half (R82, R251). -/
def crossingOps : List Nat := [1, 2, 3, 4, 5, 6, 7, 8, 0x40, 0x41, 0x42, 0x43, 0x48, 0x49, 0x4A, 0x52, 0x8B, 0xC2]

/-- The operands of a read payload fit its command (R19, R266): a form that is listed, an ordinal below the containers of the object, and
blocks of the command filled from blocks that a chunk of that form holds. -/
def payloadOk (m : Msg) (c : Cmd) : Bool :=
  let form := m.args.getD 0 0
  let total := m.args.getD 2 0 % 2 ^ 16
  decide (3 ≤ m.args.length ∧ m.ref ≠ 0 ∧ m.data.length % 16 = 0) &&
    (if form = 0x10 then decide (1 ≤ total ∧ m.args.getD 1 0 < total)
      else decide (1 ≤ form ∧ form ≤ 9 ∧ total = 1 ∧ m.args.getD 1 0 = 0)) &&
    decide (m.args.getD 2 0 < 2 ^ 17) &&
    (m.args.drop 3).all fun p => decide (p % 2 ^ 32 < pktNlb c.pkt) && (form == 0x10 || p / 2 ^ 32 == 0)

/-- The second slice of a retry: one in service other than the first (R179, R223). -/
def Dev.otherSlice (d : Dev) (first n : Nat) : Option Nat :=
  if n < 16 ∧ n ≠ first ∧ !d.quarantined n then some n else (d.serving.filter (· != first)).head?

/-- A stored object decrypted: the duplicated computation may fail on the slice and on a second one (R223). -/
def decryptUnit (run : ReadRun) (sl : Nat) (n : Ns) (id ordinal : Nat) (b : Bytes) (d : Dev) : Option Bytes × Dev :=
  let key := (d.slot (2 * n.tenant)).key
  let plain := xtsDec (key.take 32) (key.drop 32) (leBytes 8 id ++ leBytes 8 ordinal) b
  match compare2 sl b.length run.cmp d with
  | (true, d) => (some plain, d)
  | (false, d) => match d.otherSlice sl run.slice2 with
    | none => (none, d)
    | some s2 => match compare2 s2 b.length run.cmp2 d with
      | (true, d) => (some plain, d)
      | (false, d) => (none, d)

/-- How a decoding went: done, to be tried again from reconstructed strips, or failed. -/
inductive Decoded where
  | done (b : Bytes)
  | again
  deriving DecidableEq, Repr

/-- Steps 1 and 2 of R179: a slice that rejects what another accepts gains a mismatch. What was reconstructed is decoded once (step 3). -/
def decodeTwice (again : Bool) (reject : Bool × Bool) (other : Option Nat) (sl : Nat) (r : Option Bytes) (d : Dev) : Decoded × Dev :=
  match (if reject.1 then none else r) with
  | some b => (.done b, d)
  | none =>
    if again || other.isNone then (.again, d)
    else match (if reject.2 then none else r) with
      | some b => (.done b, verifyMismatch sl d)
      | none => (.again, d)

/-- Blocks of a read filled in: each pair is the block's place in the command and the chunk's place in the decoded bytes. -/
def fillBlocks (c : Cmd) (bs : Nat) (pairs : List Nat) (b : Bytes) : Bytes :=
  pairs.foldl (fun buf p => putAt buf (bs * (p % 2 ^ 32)) (getBytes b (bs * (p / 2 ^ 32)) bs))
    (padTo (pktNlb c.pkt * bs) c.buf)
where
  /-- Bytes written over a place of a buffer. -/
  putAt (buf : Bytes) (off : Nat) (x : Bytes) : Bytes := buf.take off ++ x ++ buf.drop (off + x.length)

/-- A read that failed keeps its status until its completion arrives. -/
def failRead (q tag st : Nat) (d : Dev) : Dev := d.modCmd q tag fun c => { c with failed := some (c.failed.getD st) }

/-- Step 3 of R179: the media half is asked for the object again, from reconstructed strips; a reconstructed object that fails ends
the read with 03h/03h. -/
def askAgain (q tag : Nat) (cls : Nat) (c : Cmd) (id : Nat) (was : Bool) (d : Dev) : Dev :=
  if was then failRead q tag stCheckValue d
  else schSend .host .readDesc cls ⟨q, tag, id, pktNsid c.pkt, [pktSlba c.pkt, pktNlb c.pkt, pktOpts c.pkt, 1], []⟩
    (d.modCmd q tag fun c => { c with news := c.news + 1 })

/-- The live stripe that holds an object. -/
def Dev.stripeOf (d : Dev) (id ordinal : Nat) : Option Nat := (tget d.xmap.objs (objKey id ordinal)).map (·.stripe)

/-- The stored copy of a chunk served from reconstructed strips is queued for repair by scrub (R179, R421). -/
def queueRepair (id : Nat) (d : Dev) : Dev :=
  match d.stripeOf id 0 with
  | none => d
  | some st => addRepair st d

/-- A decoded object reaches the blocks of its command; `again` says that it came from reconstructed strips. -/
def serveObject (q tag : Nat) (cls bs : Nat) (c : Cmd) (id : Nat) (again : Bool) (pairs : List Nat) (r : Decoded) (d : Dev) : Dev :=
  let d := d.when again fun d => d.modCmd q tag fun c => { c with news := c.news - 1 }
  match r with
  | .again => askAgain q tag cls c id again d
  | .done b => (d.when again (queueRepair id)).modCmd q tag fun c => { c with buf := fillBlocks c bs pairs b }

/-- A stored object that arrived for a read. Its operands: form, container ordinal, containers of its block with 2^16 where it comes from
reconstructed strips, then the blocks it serves. -/
def readObject (m : Msg) (run : ReadRun) (c : Cmd) (n : Ns) (sl : Nat) (d : Dev) : Dev :=
  let cls := ((d.queue m.q).map (·.cls)).getD 1
  let form := m.args.getD 0 8
  let ord := m.args.getD 1 0
  let total := m.args.getD 2 1 % 2 ^ 16
  let again := decide (2 ^ 16 ≤ m.args.getD 2 1)
  let pairs := m.args.drop 3
  match decryptUnit run sl n m.ref ord m.data (gcmSuspend sl cls d) with
  | (none, d) => failRead m.q m.tag stCipherCompare d
  | (some plain, d) =>
    if form = 8 ∨ form = 9 then serveObject m.q m.tag cls n.blockSize c m.ref again pairs (.done plain) d
    else if form < 8 then
      let (r, d) := decodeTwice again (run.reject, run.reject2) (d.otherSlice sl run.slice2) sl (binDecode form plain) d
      serveObject m.q m.tag cls n.blockSize c m.ref again pairs r d
    else
      let got := (c.got.filter fun g => g.1 != objKey m.ref ord) ++ [(objKey m.ref ord, plain)]
      let cs := (List.range total).filterMap fun o => (got.find? fun g => g.1 == objKey m.ref o).map (·.2)
      if cs.length < total then d.modCmd m.q m.tag fun c => { c with got := got }
      else
        let (r, d) := decodeTwice again (run.reject, run.reject2) (d.otherSlice sl run.slice2) sl (blockDecode m.ref cs) d
        let rest := got.filter fun g => g.1 / 65536 != m.ref
        serveObject m.q m.tag cls n.blockSize c m.ref again pairs r (d.modCmd m.q m.tag fun c => { c with got := rest })

/-- READ_PAYLOAD (R179): a stored object arrives for a READ, COMPARE, VERIFY or the compare of a COMPARE_AND_WRITE. -/
def execReadPayload (msg : Msg) (run : ReadRun) (s : State) : Host.Outcome State Fault Refusal :=
  schTurn .host .readPayload msg s fun s => s.ok <|
    let d := s.dev
    if !d.is (SCH_STATUS.UP .host) then d
    else match d.waiting msg [2, 5, 6, 7], tget d.nss msg.nsid with
      | some c, some n =>
        if 8 ≤ c.phase then d
        else if !payloadOk msg c then rejectSch .host d
        else if let some e := d.cipherStop then failRead msg.q msg.tag e d
        else if (d.slot (2 * n.tenant)).type = 0 then failRead msg.q msg.tag stKeyEmpty d
        else match d.sliceFor run.slice with
          | none => failRead msg.q msg.tag stInternal d
          | some sl => readObject msg run c n sl d
      | _, _ => rejectSch .host d

/-! ### Refused references (R141) -/

/-- REFERENCE_REFUSED: the entry that produced the hit is cleared, and the chunk goes as new within the same command. -/
def execReferenceRefused (msg : Msg) (run : SliceRun) (s : State) : Host.Outcome State Fault Refusal :=
  schTurn .host .referenceRefused msg s fun s => s.ok <|
    let d := s.dev
    if !d.is (SCH_STATUS.UP .host) then d
    else match d.waiting msg [1, 6, 0x52] with
      | none => rejectSch .host d
      | some c =>
        if 8 ≤ c.phase then d
        else match c.chunks.find? fun x => x.ord == msg.args.getD 0 0 && x.isRef && x.id == msg.ref && x.id != 0 with
        | none => rejectSch .host d
        | some x =>
          let d := d.bump ING_CNT_REFS_REFUSED.COUNT 1
          let (d, lend) := match x.hit, x.fp with
            | some (place, flags), some fp => indexClear place ⟨getLe fp 0 16, x.id, x.hitOwner, flags, 0⟩ d run.lend
            | _, _ => (d, run.lend)
          let d := keepChunks msg.q msg.tag [{ x with isRef := false, id := 0, hit := none, refused := true }] d
          match d.queue msg.q, (d.queue msg.q).bind (·.cmd msg.tag), tget d.nss msg.nsid with
          | some qu, some c, some n =>
            if c.stage = .orphan then d
            else
              let d := d.modCmd msg.q msg.tag fun c => { c with stage := .hostWork }
              sendWrite msg.q qu { c with stage := .hostWork } n c.slice { run with lend := lend } d
          | _, _, _ => d

/-! ### Completions (R26, R79 to R82, R138) -/

/-- Index entries for the chunks a record stored new, and hits for the references honoured (R138). -/
def indexRecord (c : Cmd) (n : Ns) : List HostChunk → List (Option Bytes) → Dev → Dev
  | [], _, d => d
  | x :: t, lend, d =>
    let (d, lend) := match x.isRef, x.hit, x.fp with
      | true, some (place, flags), some fp =>
        indexHit place ⟨getLe fp 0 16, x.id, x.hitOwner, flags, 0⟩ (d.bump ING_CNT_REFS_HONOURED.COUNT 1) lend
      | false, _, some fp => if x.index then indexInsert fp x.id ⟨x.hitOwner, n.big, n.pool⟩ d lend else (d, lend)
      | _, _, _ => (d, lend)
    indexRecord c n t lend d

/-- The compare of a COMPARE_AND_WRITE is decided on the host half, where the plaintext is (R33, R85). -/
def decideCaw (q tag : Nat) (cls : Nat) (c : Cmd) (d : Dev) : Dev :=
  let bs := c.host.length
  let st := match c.failed with
    | some st => st
    | none => if padTo bs c.buf = c.host then stSuccess else stCompareFailed
  let op := if st = 0 then ioPassed else ioFailed
  schSend .host .otherIo cls ⟨q, tag, 0, pktNsid c.pkt, [op, pktSlba c.pkt, pktNlb c.pkt, pktFlags c.pkt, pktOpts c.pkt, st], []⟩
    (d.modCmd q tag fun c => { c with phase := 2, failed := none })

/-- A read's data goes to the host ahead of its completion (R80, R581). -/
def finishRead (q tag : Nat) (qu : Queue) (c : Cmd) (st result : Nat) (d : Dev) : Dev :=
  let ro := pktRo c.pkt && qu.ro && d.is (CFG.ERO qu.fn)
  let (d, sent) := if c.stage = .orphan then (d, true) else sendData qu.fn q tag c.segs (padTo c.dataLen c.buf) ro d
  if sent then complete q tag st result d
  else failCmd q tag stHostMemory (fault .host 9 (epOf qu.fn * 256 + qu.fn % 256) 3 false d)

/-- Two warnings of one read give 00h/01h (R92). -/
def mergeWarn (a b : Nat) : Nat := if a = stDivergentServed ∨ b = stDivergentServed then stDivergentServed else max a b

/-- A completion message completes its command. -/
def completionFor (q tag : Nat) (qu : Queue) (c : Cmd) (st result : Nat) (lend : List (Option Bytes)) (d : Dev) : Dev :=
  let st := match c.failed with
    | some f => if okStatus st then f else st
    | none => if okStatus st then mergeWarn st c.warn else st
  let op := pktOp c.pkt
  let result := if op = 2 ∨ op = 7 then result + c.recon else result
  if op = 6 ∧ c.phase = 1 ∧ okStatus st then decideCaw q tag qu.cls c d
  else if op = 2 ∧ okStatus st then finishRead q tag qu c st result d
  else if op = 5 ∧ okStatus st then
    if padTo c.dataLen c.buf = c.host then complete q tag st 0 d else failCmd q tag stCompareFailed d
  else
    let d := match tget d.nss (pktNsid c.pkt) with
      | some n => if (op = 1 ∨ op = 6 ∨ op = 0x52) ∧ (okStatus st ∨ st = stDivergent) then indexRecord c n c.chunks lend d else d
      | none => d
    complete q tag st (if okStatus st ∨ st = stDivergent then result else 0) d

end Sys2Proof.Machine
end

