-- ==== Sys2Proof/Machine/DriveIo.lean ====
section
/-! DEFINITION. The NVMe commands that a module gives its drives (R607, R613, R625), and the configuration blocks of members (R615,
R616). -/

namespace Sys2Proof.Machine

/-- A media half left alone that has destaged every record it holds stops all drive writes (R269). -/
def Dev.writesOver (d : Dev) : Bool :=
  d.alone && d.destages.isEmpty && d.firn.waiting.isEmpty &&
    d.firn.recs.all fun e => e.2.void || e.2.divergent || e.2.destaged || !d.isHome e.2.pool

/-- The opcode writes to a drive: Write, Compare fused with Write, or Dataset Management (R607). -/
def nvWrites (admin : Bool) (op : Nat) : Bool := !admin && (op == 1 || op == 5 || op == 9)

/-- A drive of the table. -/
def Dev.drive (d : Dev) (i : Nat) : Option Drive := tget d.drives.table i

/-! ### The submission arbiters (R43, R389, R605, R625) -/

/-- The function for which a destage works: that of the first record of the class in its stripe (R389). -/
def Dev.destageFn (d : Dev) (x : Destage) (cls : Nat) : Nat :=
  if cls = 3 then 1024
  else ((d.firn.recs.find? fun e => e.2.pool == x.pool && x.plan.recs.contains e.2.seq && e.2.cls == cls).map (·.2.func)).getD 1024

/-- The function for which a stripe is read (R389): that of the command's queue. -/
def Dev.readFn (d : Dev) (r : StripeRead) : Nat :=
  match r.purpose with
  | .cmd q _ _ => d.fnOf q
  | _ => 1024

/-- The kind of class D work of a rebuild (R424): the pool's level tells how urgent it is. -/
def Dev.rebuildKind (d : Dev) (pool : Nat) : WorkD :=
  match (tget d.pools pool).map (·.level) with
  | some 0 => .rebuild0
  | some 1 => .rebuild1
  | _ => .other

/-- The kind of class D work of a stripe read (R424): only the stripes of a SCRUB activity bear a weight of their own. -/
def Dev.readWork (d : Dev) (r : StripeRead) : WorkD :=
  match r.purpose with
  | .rebuild => d.rebuildKind r.pool
  | .scrub => if (tget d.pools r.pool).any (·.scrub.onDemand) then .scrub else .other
  | _ => .other

/-- The function for which a drive command asks a grant; class D has none (R46, R389). -/
def Dev.nvmeFn (d : Dev) (cls : Nat) (what : DrvFor) : Nat :=
  if cls = 3 then 1024
  else match what with
    | .stripWrite s _ => ((d.destages.find? fun x => x.plan.stripe == s).map fun x => d.destageFn x cls).getD 1024
    | .stripRead id _ => ((d.reads.find? fun r => r.id == id).map d.readFn).getD 1024
    | _ => 1024

/-- The kind of class D work of a drive command (R287, R424). -/
def Dev.nvmeWork (d : Dev) (what : DrvFor) : WorkD :=
  match what with
  | .stripWrite s _ => if d.destages.any fun x => x.plan.stripe == s && x.purpose == 0 then .destage else .other
  | .stripRead id _ => ((d.reads.find? fun r => r.id == id).map d.readWork).getD .other
  | .jobWrite p _ _ => d.rebuildKind p
  | _ => .other

/-- The root port of a drive. -/
def Dev.portOf (d : Dev) (drive : Nat) : Nat := ((d.drive drive).map (·.port)).getD 0

/-- A command that waits may go to its controller: fewer than 512 of its class are in flight there, in two queue pairs of depth 256, or 32
admin commands (R625), and fewer than 65,536 I/O commands at its root port (R605). -/
def Dev.nvmeRoom (d : Dev) (c : DrvCmd) : Bool :=
  let flying := d.drives.cmds.filter fun e => !d.drives.queued.contains e.1
  let mine (e : Nat × DrvCmd) : Bool := e.2.drive == c.drive && e.2.admin == c.admin && (c.admin || e.2.cls == c.cls)
  let port (e : Nat × DrvCmd) : Bool := !e.2.admin && d.portOf e.2.drive == d.portOf c.drive
  decide ((flying.filter mine).length < if c.admin then 32 else 512) && (c.admin || decide ((flying.filter port).length < 65536))

/-- The commands that wait at a root port and may go, oldest first. -/
def Dev.nvmeReady (d : Dev) (port : Nat) : List (Nat × DrvCmd) :=
  d.drives.queued.filterMap fun cid => match tget d.drives.cmds cid with
    | some c => if d.portOf c.drive = port && d.nvmeRoom c then some (cid, c) else none
    | none => none

/-- The submission arbiter of a root port grants the commands that may go, one after the other (R43, R51, R389). The first argument bounds
them. -/
def submitNvme : Nat → Nat → Dev → Dev
  | 0, _, d => d
  | fuel + 1, port, d =>
    let ready := d.nvmeReady port
    match serveNext (.drive port) ready (fun e => (e.2.cls, e.2.fn)) ((ready.filter fun e => e.2.cls == 3).map fun e => d.nvmeWork e.2.what) d with
    | (none, d) => d
    | (some (cid, c), d) =>
      submitNvme fuel port ((d.modDrv fun v => { v with queued := without v.queued cid }).emit
        (.nvme cid c.drive c.admin c.op c.lba c.data))

/-- Commands that found room go out (R605, R625); those that ended while they waited leave the queue. -/
def releaseNvme (d : Dev) : Dev :=
  let d := d.modDrv fun v => { v with queued := v.queued.filter fun cid => (tget v.cmds cid).isSome }
  if d.portsHalted then d else d.each (List.range 8) fun d p => submitNvme d.drives.queued.length p d

/-- An NVMe command to a drive; none goes out while the root ports are halted, a write none once R269 stops them; it passes the submission
arbiter of its root port. -/
def issueNvme (drive : Nat) (admin : Bool) (op lba cls : Nat) (what : DrvFor) (data : Bytes) (d : Dev) : Dev :=
  if d.portsHalted || (nvWrites admin op && d.writesOver) then d
  else
    let cid := d.drives.next
    releaseNvme (d.modDrv fun v => { v with
      cmds := tput v.cmds cid ⟨drive, admin, op, lba, cls, d.nvmeFn cls what, what, data, d.tbMedia, false, none, 0⟩, next := cid + 1,
      queued := v.queued ++ [cid] })

/-- A drive changed. -/
def modDrive (i : Nat) (f : Drive → Drive) (d : Dev) : Dev := d.modDrv fun v => { v with table := tmod v.table i f }

/-- RES (R613). -/
def Drive.res (v : Drive) : Nat := if v.lbads = 14 then 16384 else 65536

/-- The logical block of row `r` (R613). -/
def Dev.rowLba (d : Dev) (drive r : Nat) : Nat := ((d.drive drive).map fun v => v.res + r).getD r

/-- Opcodes of the NVM command set and of the admin set that R607 lists. -/
def nvWrite : Nat := 1
def nvRead : Nat := 2
def nvCompare : Nat := 5
def nvDsm : Nat := 9
def nvRegister : Nat := 0x0D
def nvReport : Nat := 0x0E
def nvAcquire : Nat := 0x11
def nvAbort : Nat := 8
def nvGetLog : Nat := 2
def nvFwCommit : Nat := 0x10
def nvFwDownload : Nat := 0x11
def nvEvents : Nat := 0x0C

/-- Opens a read of a strip (R376); `false` where no drive serves it. -/
def readStrip (id s ord cls : Nat) (d : Dev) : Bool × Dev :=
  match d.stripDrive s ord with
  | none => (false, d)
  | some v => (true, issueNvme v false nvRead (d.rowLba v (stripeRow s)) cls (.stripRead id ord) [] d)

/-! ### Setting a controller up (R607, R625) -/

/-- Admin opcodes of the queues and of Set Features. -/
def nvCreateSq : Nat := 1
def nvCreateCq : Nat := 5
def nvSetFeatures : Nat := 9

/-- The weights of weighted round robin: High, Medium and Low (R625). -/
def Dev.wrrWeights (d : Dev) : Nat × Nat × Nat := (d.rings.weights.1 - 1, d.rings.weights.2.1 - 1, d.rings.weights.2.2 - 1)

/-- The operand of Set Features 01h, Arbitration: the weights at bytes 1 to 3, Low first. -/
def arbitrationBytes (w : Nat × Nat × Nat) : Bytes := leBytes 1 0 ++ leBytes 1 w.2.2 ++ leBytes 1 w.2.1 ++ leBytes 1 w.1

/-- The admin commands that give a controller its 8 I/O queue pairs of depth 256: Set Features 07h, then for each pair its completion queue and
its submission queue, two for each class with class A Urgent to class D Low; each an opcode, its first operand and its second. -/
def queueCommands : List (Nat × Nat × Bytes) :=
  (nvSetFeatures, 7, leBytes 2 7 ++ leBytes 2 7) ::
    ((List.range 8).map fun i =>
      let head := (i + 1) + 2 ^ 16 * 255
      [(nvCreateCq, head, leBytes 4 1), (nvCreateSq, head, leBytes 2 (1 + 2 * (i / 2)) ++ leBytes 2 (i + 1))]).flatten

/-- A controller that this module binds gets its Host Identifier (R609), the events it is to report, its queues, and its weights where it
arbitrates by weighted round robin; which events are asked for is not stated. DESIGN CHOICE: these commands belong to its enumeration, whose
outcome DRIVE_READY brings (see the log). -/
def setUpQueues (i : Nat) (d : Dev) : Dev :=
  match d.drive i with
  | none => d
  | some v =>
    if v.pairs = 8 then d
    else
      let w := d.wrrWeights
      let (events, d) := d.draw
      let own := [(nvSetFeatures, 0x81, leBytes 8 d.serial ++ leBytes 8 0), (nvSetFeatures, 0x0B, leBytes 4 events)]
      let arb := if v.wrr then [(nvSetFeatures, 1, arbitrationBytes w)] else []
      let d := (own ++ queueCommands ++ arb).foldl (fun (d : Dev) c =>
        (d.modDrv fun x => { x with next := x.next + 1 }).emit (.nvme d.drives.next i true c.1 c.2.1 c.2.2)) d
      modDrive i (fun v => { v with pairs := 8, weights := if v.wrr then some w else none }) d

/-- The weights of the classes changed: each controller that arbitrates by them is told (R625). -/
def updateWeights (d : Dev) : Dev :=
  let w := d.wrrWeights
  d.each (d.drives.table.filter fun e => e.2.weights.any (· != w)) fun d e =>
    issueNvme e.1 true nvSetFeatures 1 3 .features (arbitrationBytes w) (modDrive e.1 (fun v => { v with weights := some w }) d)

/-! ### Configuration blocks -/

/-- The POOL_GEOMETRY value of a pool (R348). -/
def Pool.geometry (p : Pool) : Nat :=
  p.k + 2 ^ 6 * p.m + 2 ^ 9 * p.d + 2 ^ 19 * p.spare + 2 ^ 23 * b2n p.big + 2 ^ 32 * p.seed

/-- The bytes of a configuration block (R615), before its trailer. -/
def cfgBytes (b : CfgBlock) : Bytes :=
  let reloc (i : Nat) : Bytes := match b.relocs[i]? with
    | some (m, mark) => leBytes 2 m ++ leBytes 6 (mark.getD (2 ^ 48 - 1))
    | none => List.replicate 8 0xFF
  leBytes 4 0x3B9E41C7 ++ [1] ++ leBytes 1 b.kind ++ leBytes 2 b.member ++ leBytes 8 b.pairId ++ leBytes 8 b.epoch ++
    leBytes 8 b.geometry ++ leBytes 1 b.pool ++ List.replicate 7 0 ++ leBytes 16 b.nguid ++
    ((List.range 5).map fun i => leBytes 16 (b.witnesses.getD i 0)).flatten ++ ((List.range 8).map reloc).flatten ++
    leBytes 1 b.level ++ List.replicate 7 0 ++ leBytes 8 b.row ++
    ((List.range 512).map fun i => let e := b.members.getD i (0, 0); leBytes 1 e.1 ++ leBytes 1 e.2).flatten ++ leBytes 8 b.window

/-- The drive block of a configuration block with its trailer (R615). -/
def cfgBlockBytes (lbads : Nat) (b : CfgBlock) : Bytes :=
  let l := 2 ^ lbads
  driveBlock (padTo l (cfgBytes b)) (leBytes 8 b.epoch ++ leBytes 8 0 ++ leBytes 2 0 ++ leBytes 6 (2 ^ 42 * kindMap))
    (List.replicate 32 0)

/-- The configuration block that a member's drive is to carry now, with the next EPOCH. -/
def Dev.memberBlock (d : Dev) (p m : Nat) (x : Pool) (v : Drive) : CfgBlock where
  kind := 2
  member := m
  pairId := d.rd TWN_PAIR_ID.PAIR_ID
  epoch := ((v.block).map (·.epoch)).getD 0 + 1
  geometry := x.geometry
  pool := p
  nguid := v.nguid
  witnesses := (List.range 5).map fun i => ((d.twin.witness[i]?).map (·.nguid)).getD 0
  relocs := x.relocs.map fun r => (r.member, r.mark)
  level := x.mark.1
  row := x.mark.2
  members := (List.range 512).map fun i => ((tget x.members i).map fun y => (y.state, y.cause)).getD (0, 0)
  window := d.twin.window

/-- A drive's block written to the copy that holds the lower EPOCH; the copies alternate (R616). -/
def writeBlock (drive pool change : Nat) (b : CfgBlock) (d : Dev) : Dev :=
  match d.drive drive with
  | none => d
  | some v =>
    issueNvme drive false nvWrite (b.epoch % 2) 3 (.cfgWrite pool change) (cfgBlockBytes v.lbads b)
      (modDrive drive (fun v => { v with block := some b }) d)

/-- The geometry, members and relocation entries of a pool go to the other twin (R434, R508): pool, geometry, ROWS, level and row, the number
of relocation entries, each entry's member and copy mark plus one, then each member's state and cause. -/
def sendPool (p : Nat) (d : Dev) : Dev :=
  match tget d.pools p with
  | none => d
  | some x =>
    if !d.isHome p || !(decide (3 ≤ d.rd TWN_STATUS.STATE) && decide (d.rd TWN_STATUS.STATE ≤ 5)) then d
    else
      let rs := (x.relocs.map fun r => [r.member, match r.mark with
        | some k => k + 1
        | none => 0]).flatten
      let nguid (y : PoolMember) : Nat := ((y.drive.bind d.drive).map (·.nguid)).getD 0
      let ms := (List.range x.d).map fun i => ((tget x.members i).map fun y => y.state + 2 ^ 8 * y.cause + 2 ^ 16 * nguid y).getD 0
      snowSend .coord 3 ⟨p, 0, 0, 0, [7, p, x.geometry, x.rows, x.mark.1, x.mark.2, x.relocs.length] ++ rs ++ ms, []⟩ d

/-- A pool with its geometry and no member (R345, R348). -/
def Pool.make (geometry rows home : Nat) : Pool where
  k := bits geometry 0 6
  m := bits geometry 6 3
  d := bits geometry 9 10
  spare := bits geometry 19 4
  big := bit geometry 23
  seed := bits geometry 32 32
  rows := rows
  members := []
  relocs := []
  home := home
  online := true
  offline := false
  offlineRec := false
  level := 7
  row := 0
  slot := 0
  mark := (7, 0)
  markAt := 0
  sinceMark := 0
  jobs := []
  lost := []
  repair := []
  scrub := Scrub.fresh
  warned := false
  full := false
  winSecs := 0

/-- A member number with a state and no drive. -/
def PoolMember.make (state cause : Nat) : PoolMember := ⟨state, cause, 0, none, [], [], [], [], false, none, false, [], []⟩

/-- A change of a pool is recorded in the block of every member in service (R397, R616). Its number is that of its first command. DEDUCED:
the change takes effect in the step that records it; where no write succeeds, the pool goes offline. The other twin is told. -/
def recordPool (p : Nat) (d : Dev) : Dev :=
  match tget d.pools p with
  | none => d
  | some x =>
    let d := sendPool p d
    let change := d.drives.next + 1
    d.each x.members fun d e =>
      if !(inService e.2.state || e.2.state == 5) then d
      else match e.2.drive.bind d.drive, e.2.drive with
        | some v, some i => writeBlock i p change (d.memberBlock p e.1 x v) d
        | _, _ => d

/-- MNT_STATUS.POOL_OFFLINE follows the pools (R450). -/
def syncOffline (d : Dev) : Dev :=
  d.wr MNT_STATUS.POOL_OFFLINE (d.pools.foldl (fun m e => setBit m e.1 (e.2.offline || e.2.offlineRec)) 0)

/-- A pool goes offline or comes back (R418); a change posts an event that names the pool. -/
def setOffline (p : Nat) (off : Bool) (d : Dev) : Dev :=
  match tget d.pools p with
  | none => d
  | some x =>
    if x.offline = off then d
    else (if off then fault .media 0x0C (0x1000 + p) 0x11 false else id) <| mediaEvent (if off then evPoolOffline else evPoolOnline) p
      (syncOffline (d.modPool p fun y => { y with offline := off }))

/-- No write of a configuration change succeeded, or one did again (R616). -/
def setOfflineRec (p : Nat) (off : Bool) (d : Dev) : Dev :=
  match tget d.pools p with
  | none => d
  | some x =>
    if x.offlineRec = off then d
    else mediaEvent (if off then evPoolOffline else evPoolOnline) p
      (syncOffline (d.modPool p fun y => { y with offlineRec := off }))

/-- The end of a configuration write (R616). -/
def cfgWritten (p change : Nat) (ok : Bool) (d : Dev) : Dev :=
  if ok then
    let again (c : DrvCmd) : DrvCmd := if c.what = .cfgWrite p change then { c with what := .cfgWrite p 0 } else c
    setOfflineRec p false (d.modDrv fun v => { v with cmds := v.cmds.map fun (e : Nat × DrvCmd) => (e.1, again e.2) })
  else if change = 0 ∨ d.drives.cmds.any (fun e => e.2.what == .cfgWrite p change) then d
  else setOfflineRec p true d

end Sys2Proof.Machine
end

