-- ==== Sys2Proof/Machine/Destage.lean ====
section
/-! DEFINITION. Destage (R303 to R312, R351 to R359, R366, R367, R374, R817): stripes laid out from records, written, released and placed
anew, and the replay of INTENT records. -/

namespace Sys2Proof.Machine

/-! ### Laying out a stripe (R306, R308, R309, R359, R374) -/

/-- A data strip that is being laid out: the namespace and key owner of its objects, and the objects from offset 0 on. -/
structure StripLay where
  nsid : Nat
  fn : Nat
  objs : List ChunkObj
  deriving DecidableEq, Repr

/-- The bytes an object takes up to the next 512-byte boundary. -/
def slotLen (c : ChunkObj) : Nat := (c.bytes.length + 511) / 512 * 512

/-- Bytes of a strip in use. -/
def StripLay.used (s : StripLay) : Nat := s.objs.foldl (fun n c => n + slotLen c) 0

/-- The data of a strip. -/
def StripLay.data (l : Nat) (s : StripLay) : Bytes := padTo l ((s.objs.map fun c => padTo (slotLen c) c.bytes).flatten)

/-- The tag of a strip: NSID, function, kind and the ID of its first object (R356, R358). -/
def StripLay.tag (s : StripLay) : Nat × Nat × Nat × Nat := (s.nsid, s.fn, kindData, ((s.objs.head?).map (·.id)).getD 0)

/-- An object joins the last strip where that holds its namespace and has room, or starts a strip; strips stand last first. -/
def putObj (l nsid fn : Nat) (c : ChunkObj) : List StripLay → List StripLay
  | s :: t =>
    if s.nsid = nsid ∧ s.fn = fn ∧ s.used + slotLen c ≤ l then { s with objs := s.objs ++ [c] } :: t
    else ⟨nsid, fn, [c]⟩ :: s :: t
  | [] => [⟨nsid, fn, [c]⟩]

/-- A stripe that is being laid out: its data strips, last first; how many objects of each record have their place; the records whose
sections ride in it; the UNLOCATE entries of its RELEASE record; and whether no more fits. -/
structure Lay where
  strips : List StripLay
  recs : List (Nat × Nat)
  ride : List FRec
  unloc : Nat
  full : Bool
  deriving DecidableEq, Repr

/-- Nothing laid out yet. -/
def Lay.empty : Lay := ⟨[], [], [], 0, false⟩

/-- What a map-log strip holds of a record: its COMMIT_SEQ, the length of its sections, and the sections (R374; the layout is the
firmware's own). -/
def mapEntry (r : FRec) : Bytes :=
  let s := r.sections
  leBytes 8 r.seq ++ leBytes 8 s.length ++ padTo ((s.length + 7) / 8 * 8) s

/-- Bytes of the map log of a stripe, with the entries of its own RELEASE record. -/
def Lay.mapLen (y : Lay) : Nat :=
  y.ride.foldl (fun n r => n + (mapEntry r).length) (32 * (y.unloc + y.strips.foldl (fun n s => n + s.objs.length) 0) + 16)

/-- Map-log strips of a stripe. -/
def Lay.maps (l : Nat) (y : Lay) : Nat := (y.mapLen + l - 1) / l

/-- The layout fits `k` data positions of `l` bytes. -/
def Lay.fits (k l : Nat) (y : Lay) : Bool := decide (y.strips.length + y.maps l ≤ k)

/-- No object fits any more: every data position is in use, and the last data strip has no 512 bytes left. -/
def Lay.packed (k l : Nat) (y : Lay) : Bool :=
  decide (k ≤ y.strips.length + y.maps l) && y.strips.head?.all fun s => decide (l < s.used + 512)

/-- How many objects of a record have their place. -/
def setPlaced (seq n : Nat) (l : List (Nat × Nat)) : List (Nat × Nat) := l.filter (fun e => e.1 != seq) ++ [(seq, n)]

/-- The objects of a record from a place on are laid out; its sections ride with the last of them. -/
def layRec (k l fn : Nat) (dead : ChunkObj → Bool) (r : FRec) : List (ChunkObj × Nat) → Lay → Lay
  | [], y =>
    let y' := { y with ride := y.ride ++ [r], recs := setPlaced r.seq r.objects.length y.recs }
    if y'.fits k l then y' else { y with full := true }
  | (c, i) :: t, y =>
    let strips := if dead c then y.strips else putObj l r.nsid fn c y.strips
    let y' := { y with strips := strips, recs := setPlaced r.seq (i + 1) y.recs }
    if t.isEmpty then
      let y'' := { y' with ride := y.ride ++ [r] }
      if y''.fits k l then y'' else { y with full := true }
    else if y'.fits k l then layRec k l fn dead r t y' else { y with full := true }

/-- Records laid out in order until the stripe is full. -/
def layAll (k l : Nat) (d : Dev) : List FRec → Lay → Lay
  | [], y => { y with full := y.full || y.packed k l }
  | r :: t, y =>
    if y.full then y
    else
      let fn := ((d.nsAny r.nsid).map (·.tenant)).getD 0
      layAll k l d t (layRec k l fn (fun c => r.applied && d.deadObj c) r ((r.objects.zipIdx).drop r.placed) y)

/-- Records of a list in rising order of COMMIT_SEQ. -/
def bySeq (l : List FRec) : List FRec := l.mergeSort fun a b => decide (a.seq ≤ b.seq)

/-- The records of a pool that wait for destage, in the order of R306. DEDUCED: in dual mode a record is destaged once it has committed. -/
def Dev.destageOrder (d : Dev) (p : Nat) : List FRec :=
  let rs := (d.firn.recs.map (·.2)).filter fun r => r.pool == p && d.isHome p && r.seq != 0 && r.written && !r.void &&
    !r.divergent && r.rtype != rtIntent && r.rtype != rtRelease && !r.sect
  if d.mode = 0 then bySeq (rs.filter (·.committed))
  else
    bySeq (rs.filter (·.dualDone)) ++
      ([0, 1, 2, 3].map fun c => bySeq (rs.filter fun r => !r.dualDone && (if r.internal then 3 else r.cls) == c)).flatten

/-- UNLOCATE entries of a pool's next RELEASE record (R372). -/
def Dev.unlocates (d : Dev) (p : Nat) : List MapDelta :=
  (d.xmap.freed.filter fun f => f.1 == p).filterMap fun f =>
    (tget d.xmap.objs (objKey f.2.1 f.2.2)).map fun o => .unlocate f.2.1 f.2.2 o.form o.strip o.offset o.len o.stripe o.seq

/-- The LOCATE entries of a strip, before the stripe sequence is known. -/
def locatesOf (stripe ord : Nat) : Nat → List ChunkObj → List MapDelta
  | _, [] => []
  | off, c :: t => .locate c.id c.ordinal c.form ord (off / 512) c.bytes.length stripe 0 :: locatesOf stripe ord (off + slotLen c) t

/-! ### Stripes written -/

/-- A destage under way of a stripe. -/
def Dev.destage (d : Dev) (stripe : Nat) : Option Destage := d.destages.find? fun x => x.plan.stripe == stripe

/-- A destage changed. -/
def modDestage (stripe : Nat) (f : Destage → Destage) (d : Dev) : Dev :=
  { d with destages := d.destages.map fun x => if x.plan.stripe = stripe then f x else x }

/-- The INTENT record of a stripe is formed and its slot is taken (R366, R367). -/
def formIntent (x : Destage) (d : Dev) : Dev :=
  let d := { d with destages := d.destages ++ [x] }
  let st : Stripe := ⟨0, x.plan.k, x.plan.m, x.plan.members, x.plan.strips, [], true, true, x.plan.replaces, false⟩
  let d := d.modMap fun m => { m with stripes := tput m.stripes x.plan.stripe st }
  formRec { FRec.empty with
    rtype := rtIntent, pool := x.pool, receiver := d.twinSide, aux := x.plan.stripe, plan := some x.plan } d

/-- A stripe of given data strips starts: fill strips and map-log strips complete it (R309, R374). -/
def startStripe (p stripe replaces purpose : Nat) (asker : Nat × Nat) (data : List ((Nat × Nat × Nat × Nat) × Bytes)) (y : Lay)
    (places : List MapDelta) (d : Dev) : Dev :=
  match tget d.pools p with
  | none => d
  | some x =>
    let maps := y.maps x.stripLen
    let fills := x.k - maps - data.length
    let tags := data.map (·.1) ++ List.replicate fills (0, 0, kindFill, 0) ++ List.replicate maps (0, 0, kindMap, 0)
    let blocks := data.map (·.2) ++ List.replicate fills (List.replicate x.stripLen 0)
    let plan : StripePlan := ⟨stripe, replaces, x.k, x.m, x.big, x.membersOf stripe, tags, y.recs.map (·.1)⟩
    let starts := y.recs.map fun e => (e.1, ((d.firn.recs.find? fun r => r.2.pool == p && r.2.seq == e.1).map (·.2.placed)).getD 0)
    let place (r : FRec) : FRec := match y.recs.find? fun e => r.pool == p && e.1 == r.seq with
      | some e => { r with placed := e.2, sect := r.sect || y.ride.any (fun q => q.seq == r.seq) }
      | none => r
    let d := d.modFirn fun f => { f with recs := f.recs.map fun (e : Nat × FRec) => (e.1, place e.2) }
    let d := d.modMap fun m => { m with freed := m.freed.filter fun f => f.1 != p }
    formIntent ⟨p, plan, 0, blocks, places, false, [], [], 0, 0, purpose, asker, false, y.ride.map (·.seq), maps, false, starts⟩ d

/-- The data strips of a layout with their places. -/
def layStrips (l stripe : Nat) (y : Lay) : List ((Nat × Nat × Nat × Nat) × Bytes) × List MapDelta :=
  let ss := y.strips.reverse
  (ss.map fun s => (s.tag, s.data l), (ss.zipIdx.map fun s => locatesOf stripe s.2 0 s.1.objs).flatten)

/-- A stripe of the pool's waiting records is laid out at a free slot; nothing happens unless it fills or is to be closed. -/
def destageAt (p row slot replaces : Nat) (close : Bool) (d : Dev) : Dev :=
  match tget d.pools p with
  | none => d
  | some x =>
    let un := d.unlocates p
    let y := layAll x.k x.stripLen d (d.destageOrder p) { Lay.empty with unloc := un.length }
    if !d.slotFree p row slot [] || y.recs.isEmpty || !(close || y.full) then d
    else
      let stripe := stripeId p row slot
      let (data, places) := layStrips x.stripLen stripe y
      startStripe p stripe replaces 0 (0, 0) data y (places ++ un) d

/-- Every engine is quarantined: destage stops (R388). -/
def Dev.enginesOut (d : Dev) : Bool := d.rd MOR_STATUS.ENG_QUAR == 0xFFFF

/-- The home twin of the pool may start writes to its drives: none in a split (R533), and no destage of a pool that is being handed over
(R540) or while an activation without a twin waits for its destages (R544). -/
def Dev.mayDestage (d : Dev) (p : Nat) : Bool :=
  d.isHome p && !d.portsHalted && !d.enginesOut && d.twin.race.isNone && !(d.twin.swap.any fun s => bit s.pools p) && !(d.twin.act.any fun a => decide (1 ≤ a.step ∧ a.step < 5))

/-- A partly filled stripe is to be closed at once: a solo mode holds a waiting record (R38), a record completed under dual rules waits
after the mode left dual (R37), or free pages are below 25 % (R817). -/
def Dev.closeNow (d : Dev) (p : Nat) : Bool :=
  (d.mode != 0 && !(d.destageOrder p).isEmpty) || decide (d.freePages * 4 < d.heapPages)

/-- The member whose drive made a stripe's destage fail: the one of a strip that failed 3 times. -/
def Destage.failedMembers (x : Destage) : List Nat := (x.fails.filter fun f => decide (3 ≤ f.2)).filterMap fun f => x.plan.members[f.1]?

/-- An abandoned stripe is placed anew (R307): the same strips, a new INTENT record that names the old stripe; or, where a record was
revoked from it, a new layout. A rewrite of a stripe that has not been placed yet (R382, R476) gets its first place. -/
def replaceStripe (x : Destage) (p row slot : Nat) (d : Dev) : Dev :=
  let old := x.plan.stripe
  let d' : Dev := { d with destages := d.destages.filter fun y => y.plan.stripe != old }
  if x.strips.isEmpty then (if x.plan.recs.isEmpty then d else destageAt p row slot old true d')
  else if !d.slotFree p row slot x.failedMembers then d
  else match tget d.pools p with
    | none => d
    | some y =>
      let stripe := stripeId p row slot
      let move : MapDelta → MapDelta
        | .locate a b c e f g _ i => .locate a b c e f g stripe i
        | z => z
      formIntent { x with
        plan := { x.plan with stripe := stripe, replaces := old, members := y.membersOf stripe },
        intent := 0, places := x.places.map move, synd := false, written := [], fails := [], attempts := if x.plan.members.isEmpty then 0 else x.attempts + 1,
        release := 0, replay := false, abandoned := false } d'

/-- STRIPE_CLOSE_TIMEOUT (R309, R817): the oldest record not yet in a stripe has been held for 100 ms. -/
def execStripeCloseTimeout (pool slot : Nat) (s : State) : Host.Outcome State Fault Refusal :=
  s.ok <|
    let d := s.dev
    if !d.mayDestage pool then d else destageAt pool (slot / 128) (slot % 128) 0 true d

/-- The record of a kind for a stripe. -/
def Dev.stripeRec (d : Dev) (rtype stripe : Nat) : Option (Nat × FRec) :=
  d.firn.recs.find? fun e => e.2.rtype == rtype && e.2.aux == stripe && !e.2.void

/-- INTENT_MET (R303, R351): the INTENT record met the completion condition; the engines compute the syndromes. -/
def execIntentMet (pool stripe : Nat) (s : State) : Host.Outcome State Fault Refusal :=
  s.ok <|
    let d := s.dev
    match d.stripeRec rtIntent stripe, d.destage stripe with
    | some (slot, r), some x =>
      if r.pool ≠ pool ∨ r.seq = 0 ∨ x.intent ≠ 0 ∨ !d.meets r then d
      else modDestage stripe (fun x => { x with intent := r.seq }) (commitRec slot d)
    | _, _ => d

/-- A LOCATE entry with the stripe sequence. -/
def withSeq (seq : Nat) : MapDelta → MapDelta
  | .locate a b c e f g h _ => .locate a b c e f g h seq
  | z => z

/-- The data of the map-log strips of a stripe (R374). -/
def Destage.mapData (x : Destage) (l : Nat) (d : Dev) : List Bytes :=
  let rs := x.ride.filterMap fun q => (d.firn.recs.find? fun e => e.2.pool == x.pool && e.2.seq == q).map (·.2)
  let own := x.places.map (withSeq x.intent)
  let b := (rs.map mapEntry).flatten ++ leBytes 8 x.plan.stripe ++ leBytes 8 (32 * own.length) ++ (own.map MapDelta.bytes).flatten
  (List.range x.maps).map fun i => padTo l (getBytes b (l * i) l)

/-- The blocks of a stripe that is being written. -/
def Destage.blocks (x : Destage) (p : Pool) (d : Dev) : List Bytes :=
  stripeBlocks p x.plan.stripe x.intent x.plan.strips (x.strips ++ x.mapData p.stripLen d)

/-- The most urgent class among the records of a stripe (R389). -/
def Destage.cls (x : Destage) (d : Dev) : Nat :=
  x.plan.recs.foldl (fun c q => match d.firn.recs.find? fun e => e.2.pool == x.pool && e.2.seq == q with
    | some e => min c (if e.2.internal then 3 else e.2.cls)
    | none => c) 3

/-! ### Failed strip writes (R307, R311, R312) -/

/-- The records of a destage go back to wait for another stripe, and so do its UNLOCATE entries (R372). -/
def unplace (x : Destage) (d : Dev) : Dev :=
  let un := x.places.filterMap fun y => match y with
    | .unlocate id ord _ _ _ _ _ _ => some (x.pool, id, ord)
    | _ => none
  let d := d.modMap fun m => { m with freed := m.freed ++ un }
  let back (r : FRec) : FRec := match x.starts.find? fun e => r.pool == x.pool && e.1 == r.seq with
    | some e => { r with placed := e.2, sect := r.sect && !x.ride.contains r.seq }
    | none => r
  d.modFirn fun f => { f with recs := f.recs.map fun (e : Nat × FRec) => (e.1, back e.2) }

/-- A stripe whose records cannot be placed (R311, R312): the pool goes offline for a record that completed under dual rules; each other record
is revoked. -/
def unplaceable (x : Destage) (d : Dev) : Dev :=
  let recs := (d.firn.recs.map (·.2)).filter fun r => r.pool == x.pool && x.plan.recs.contains r.seq
  let stay := recs.filter fun r => r.dualDone || r.committed || d.mode == 0
  let go := recs.filter fun r => !stay.contains r
  let d := d.when (!stay.isEmpty) (setOffline x.pool true)
  if go.isEmpty then modDestage x.plan.stripe (fun y => { y with abandoned := true }) d
  else
    let d := d.each go fun d r => formRec { FRec.empty with
      rtype := rtRevoke, pool := x.pool, receiver := d.twinSide, aux := r.seq } d
    modDestage x.plan.stripe (fun y => { y with
      abandoned := true, strips := [], attempts := 0, plan := { y.plan with recs := stay.map (·.seq) } }) (unplace x d)

/-- A stripe is abandoned (R307); the third new placement in a row that fails leaves its records without one (R311). -/
def abandonStripe (stripe : Nat) (d : Dev) : Dev :=
  match d.destage stripe with
  | none => d
  | some x =>
    let gone (c : DrvCmd) : Bool := match c.what with
      | .stripWrite s _ => s == stripe
      | _ => false
    let d := d.modDrv fun v => { v with cmds := v.cmds.filter fun (e : Nat × DrvCmd) => !gone e.2 }
    if x.attempts < 3 then modDestage stripe (fun y => { y with abandoned := true }) d else unplaceable x d

/-- A strip of a stripe goes to its drive, or fails at once for want of one (R303, R629). -/
def sendStrip (stripe ord : Nat) (d : Dev) : Bool × Dev :=
  match d.destage stripe with
  | none => (true, d)
  | some x => match tget d.pools x.pool with
    | none => (true, d)
    | some p => match (p.place stripe ord).bind (d.driveFor x.pool) with
      | none => (false, d)
      | some v => (true, issueNvme v false nvWrite (d.rowLba v (stripeRow stripe)) (x.cls d) (.stripWrite stripe ord)
          ((x.blocks p d).getD ord []) d)

/-- A strip write failed (R307): it is tried again, up to 3 failures; the answer names the member for which the stripe was abandoned. The
first argument bounds the attempts. -/
def stripFailed : Nat → Nat → Nat → Dev → Option Nat × Dev
  | 0, _, _, d => (none, d)
  | fuel + 1, stripe, ord, d =>
    match d.destage stripe with
    | none => (none, d)
    | some x =>
      if x.abandoned ∨ x.written.contains ord then (none, d)
      else
        let n := (tget x.fails ord).getD 0 + 1
        let d := modDestage stripe (fun x => { x with fails := tput x.fails ord n }) d
        if 3 ≤ n then (x.plan.members[ord]?, abandonStripe stripe d)
        else match sendStrip stripe ord d with
          | (true, d) => (none, d)
          | (false, d) => stripFailed fuel stripe ord d

/-- Every strip of a stripe goes out (R303); a strip without a drive fails at once and counts toward no cause but absence (R629). -/
def sendStripe (stripe : Nat) (d : Dev) : Dev :=
  match d.destage stripe with
  | none => d
  | some x => d.each (List.range (x.plan.k + x.plan.m)) fun d o =>
      if (d.destage stripe).any (fun y => y.abandoned) then d
      else match sendStrip stripe o d with
        | (true, d) => d
        | (false, d) => (stripFailed 3 stripe o d).2

/-! ### Strips written and stripes released (R303, R304, R310) -/

/-- The RELEASE record of a stripe is formed (R303, R371). -/
def formRelease (x : Destage) (d : Dev) : Dev :=
  formRec { FRec.empty with
    rtype := rtRelease, pool := x.pool, receiver := d.twinSide, aux := x.plan.stripe,
    mapDelta := x.places.map (withSeq x.intent) } (noteWritten x.pool x.plan.stripe d)

/-- A strip write is acknowledged (R303): with the last one the RELEASE record is formed. -/
def stripWritten (stripe ord : Nat) (d : Dev) : Dev :=
  match d.destage stripe with
  | none => d
  | some x =>
    if x.abandoned ∨ x.release ≠ 0 then d
    else
      let w := if x.written.contains ord then x.written else x.written ++ [ord]
      let d := modDestage stripe (fun x => { x with written := w }) d
      if w.length < x.plan.k + x.plan.m then d
      else formRelease x (modDestage stripe (fun x => { x with release := 1 }) d)

/-- Syndromes are computed: the strips go out (R303, R388, R396). -/
def destageJob (x : Destage) (d : Dev) : Dev :=
  sendStripe x.plan.stripe (modDestage x.plan.stripe (fun x => { x with synd := true }) (d.bump MOR_CNT_STRIPES.COUNT 1))

/-- A CLEAR delta in a MAP record of the pool (R370); `asker` is the command that waits for it, if any. -/
def formClear (p stripe seq : Nat) (asker : Option (Nat × Nat)) (d : Dev) : Dev :=
  formRec { FRec.empty with
    rtype := rtMap, pool := p, receiver := d.twinSide, mapDelta := [.clear stripe seq],
    origin := if asker.isSome then .host else .media,
    cmds := (asker.map fun a => ⟨a.1, a.2, 0, 0, 0⟩).toList } d

/-- What follows the release of a stripe that rewrote another one: a repair is counted (R420), a compaction is (R500), and a divergent stripe is cleared (R370,
R382, R385). -/
def rewritten (x : Destage) (d : Dev) : Dev :=
  let old := x.plan.replaces
  let d := d.when (x.purpose == 1) fun d => d.bump MNT_CNT_REPAIRS.COUNT 1
  let emptied := x.purpose == 0 && (tget d.xmap.stripes old).any fun s => !s.reserved
  let d := d.when (x.purpose == 2 || emptied) fun d => d.bump VRV_CNT_COMPACTED.COUNT 1
  match d.xmap.divLog.find? fun v => v.stripe == old with
  | none => d
  | some v => formClear x.pool old v.seq (if x.purpose = 3 ∧ x.asker.1 < noQueue then some x.asker else none) d

/-- A pool that was offline comes back once no record of it lacks a place and no map stripe is lost (R418). -/
def placedAgain (p : Nat) (d : Dev) : Dev :=
  let stuck := d.destages.any fun y => y.pool == p && y.abandoned && (decide (3 ≤ y.attempts) || y.strips.isEmpty) && !y.plan.recs.isEmpty
  let lost := (tget d.pools p).any fun x => x.lost.any fun l => l.cause == 4
  if stuck || lost then d else setOffline p false d

/-- The strips of stripes that were freed are deallocated on their drives, where DRV_CFG asks for it (R607): `before` are the stripes there
were. -/
def trimFreed (before : Tab Stripe) (d : Dev) : Dev :=
  if !d.is DRV_CFG.USE_DSM then d
  else d.each (before.filter fun e => (tget d.xmap.stripes e.1).isNone && d.isHome (stripePool e.1)) fun d e =>
    match tget d.pools (stripePool e.1) with
    | none => d
    | some p => d.each (List.range (e.2.k + e.2.m)) fun d o =>
        match (p.place e.1 o).bind (d.driveFor (stripePool e.1)) with
        | some v =>
          let lba := d.rowLba v (stripeRow e.1)
          if (d.drive v).any (·.dsm) then issueNvme v false nvDsm lba 3 .dsm (leBytes 4 0 ++ leBytes 4 1 ++ leBytes 8 lba) d else d
        | none => d

/-- RELEASE_MET (R303, R304, R310): the records whose objects are all on drives are freed. -/
def execReleaseMet (pool stripe : Nat) (s : State) : Host.Outcome State Fault Refusal :=
  s.ok <|
    let d := s.dev
    match d.stripeRec rtRelease stripe with
    | none => d
    | some (slot, r) =>
      if r.pool ≠ pool ∨ r.seq = 0 ∨ r.committed ∨ !d.meets r then d
      else
        let x := d.destage stripe
        let d := (commitRec slot d).bump FRN_CNT_STRIPES.COUNT 1
        let d := match x with
          | some x => rewritten x { d with destages := d.destages.filter fun y => y.plan.stripe != stripe }
          | none => d
        let d := placedAgain pool d
        trimFreed s.dev.xmap.stripes (spaceCheck (freeDone pool (applyAll d.firn.recs.length pool d)))

end Sys2Proof.Machine
end

