-- ==== Sys2Proof/Machine/Member.lean ====
section
/-! DEFINITION. Members of a pool (R397 to R416) and the ledger's margins (R426 to R436): changes of state, relocation entries, the
lost-stripe log, activities and their withdrawal. -/

namespace Sys2Proof.Machine

/-- Ticks in a second. -/
def secs : Nat := 100000000

/-- A command is answered where it was fetched: a queue number from 2^32 on is one of the other twin's. -/
def finish (q tag st result : Nat) (d : Dev) : Dev :=
  if 2 ^ 32 ≤ q then snowSend .coord 3 ⟨0xFF, 0, 0, 0, [11, q - 2 ^ 32, tag, st, result], []⟩ d else complete q tag st result d

/-! ### Lost strips and margins -/

/-- A member counts as lost (R399). -/
def Dev.memberLost (d : Dev) (p m : Nat) : Bool :=
  match tget d.pools p with
  | none => false
  | some x =>
    let st := x.mstate m
    (st == 0 || st == 3 || st == 4 || st == 5) && (d.liveStripes p).any fun e =>
      (List.range (e.2.k + e.2.m)).any fun o =>
        x.homePlace e.1 o == some m && (st == 5 || (st == 3 && x.place e.1 o == some m) || d.stripLost e.1 o)

/-- The members of a pool that count as lost. -/
def Dev.lostMembers (d : Dev) (p : Nat) : List Nat :=
  (List.range (((tget d.pools p).map (·.d)).getD 0)).filter fun m => d.memberLost p m

/-- Activities whose tickets count for a margin. -/
def Activity.onMember (a : Activity) : Bool := a.kind == 1 || a.kind == 2

/-- The syndrome margin of a pool with the tickets of some activities (R426). -/
def Dev.synMargin (d : Dev) (p : Nat) (acts : List Activity) : Int :=
  let held := (acts.filter fun a => a.onMember && a.pool == p).map (·.member)
  let lost := d.lostMembers p
  let union := lost ++ (held.foldl (fun l m => if l.contains m || lost.contains m then l else l ++ [m]) [])
  ((((tget d.pools p).map (·.m)).getD 0 : Nat) : Int) - (union.length : Int)

/-- A module is absent, failed, fenced or activating firmware (R426). -/
def Dev.moduleOut (d : Dev) (twin : Nat) : Bool :=
  if twin = d.twinSide then d.tstate == 6 || d.tstate == 7 || d.twin.selfFailed
  else d.tstate != 5 || d.twin.declared.isSome

/-- The modules of the twin union: out, or named by a TWIN_SERVICE ticket. -/
def Dev.twinUnion (d : Dev) (acts : List Activity) : List Nat :=
  [0, 1].filter fun t => d.moduleOut t || acts.any fun a => a.kind == 5 && a.twin == t

/-- The twin margin (R426). -/
def Dev.twinMargin (d : Dev) (acts : List Activity) : Int := 2 - ((d.twinUnion acts).length : Int)

/-- The holdup margin (R426). -/
def Dev.holdMargin (d : Dev) (acts : List Activity) : Nat :=
  let u := d.twinUnion acts
  let dumps (t : Nat) : Nat := if t = d.twinSide then d.rd HLD_ENERGY.DUMPS else d.twin.partner.dumps
  (([0, 1].filter fun t => !u.contains t && !acts.any fun a => a.kind == 6 && a.twin == t).map dumps).sum

/-- Some activity's ticket bears on the margin: 1 syndrome of a pool, 2 twin, 3 holdup. -/
def Activity.ticketOn (a : Activity) (margin pool : Nat) : Bool :=
  match margin with
  | 1 => a.onMember && a.pool == pool
  | 2 => a.kind == 5
  | _ => a.kind == 5 || a.kind == 6

/-- The margin stands below its floor (R427). -/
def Dev.belowFloor (d : Dev) (margin pool : Nat) (acts : List Activity) : Bool :=
  match margin with
  | 1 => decide (d.synMargin pool acts < (d.rd MNT_CFG.SYN_FLOOR : Nat))
  | 2 => decide (d.twinMargin acts < (d.rd MNT_CFG.TWIN_FLOOR : Nat))
  | _ => decide (d.holdMargin acts < d.rd MNT_CFG.HOLD_FLOOR)

/-- This module holds the pair's ledger (R434). -/
def Dev.holdsLedger (d : Dev) : Bool := d.tstate != 5 || d.twinSide == 0

/-- MNT_STATUS.ACTIVITIES and LEDGER follow the ledger (R450). -/
def syncLedger (d : Dev) : Dev := (d.wr MNT_STATUS.ACTIVITIES d.maint.acts.length).put MNT_STATUS.LEDGER d.holdsLedger

/-- Activities changed. -/
def modActs (f : List Activity → List Activity) (d : Dev) : Dev :=
  syncLedger { d with maint := { d.maint with acts := f d.maint.acts } }

/-- A change of the ledger goes to the other twin (R434); the layout of COORD bodies is the firmware's own. The first operand tells what
the message carries: 2 an activity as it now stands, 3 one that ended. -/
def mirrorActivity (a : Activity) (ended : Bool) (d : Dev) : Dev :=
  if d.tstate ≠ 5 then d
  else snowSend .coord 3 ⟨0xFF, 0, a.id, 0, [if ended then 3 else 2, a.kind, a.pool, a.member, a.twin, a.limit, a.admitted, b2n a.active, a.fn], []⟩ d

/-- An activity of the ledger changed, on both twins. -/
def putActivity (a : Activity) (d : Dev) : Dev :=
  mirrorActivity a false (modActs (fun l => if l.any (·.id == a.id) then l.map fun x => if x.id = a.id then a else x else l ++ [a]) d)

/-- An activity ends, on both twins. -/
def dropActivity (a : Activity) (d : Dev) : Dev :=
  mirrorActivity a true (modActs (fun l => l.filter fun x => x.id != a.id) d)

/-- ADMITTED activities with a ticket on a margin that fell below its floor are withdrawn (R435). -/
def withdraw (margin pool : Nat) (d : Dev) : Dev :=
  if !d.holdsLedger || !d.belowFloor margin pool d.maint.acts then d
  else d.each (d.maint.acts.filter fun a => !a.active && a.ticketOn margin pool) fun d a =>
    mediaEvent evActivity (a.id + 2 ^ 16) (dropActivity a (d.set MNT_STATUS.WITHDRAWN))

/-- Twin and holdup margins looked at after a change of the pair or of a gauge (R435). -/
def withdrawPair (d : Dev) : Dev := withdraw 3 0 (withdraw 2 0 d)

/-- The next free activity ID (R434). -/
def Dev.nextActId (d : Dev) : Nat :=
  let used := d.maint.acts.map fun a => a.id % 2 ^ 15
  let s := lowestFree used 65 (d.maint.serial + 1)
  let s := if 0x7FFE < s then lowestFree used 65 1 else s
  s + 2 ^ 15 * d.twinSide

/-- The activity that names a member. -/
def Dev.memberActivity (d : Dev) (p m : Nat) : Option Activity :=
  d.maint.acts.find? fun a => decide (1 ≤ a.kind ∧ a.kind ≤ 3) && a.pool == p && a.member == m

/-! ### The sequencer's place (R408) -/

/-- A missing strip on a member bound with RECOVER that was not yet read there (R414, R445). -/
def Dev.untried (d : Dev) (s o : Nat) : Bool :=
  match tget d.pools (stripePool s) with
  | none => false
  | some x => (x.place s o).any fun m => (tget x.members m).any fun y => y.state == 5 && y.recover && !y.tried.contains (s, o)

/-- More strips of a stripe are out than it has syndromes, whatever may still be read. -/
def Dev.beyondRepair (d : Dev) (s : Nat) : Bool :=
  decide (((d.stripe s).map (·.m)).getD 0 < ((d.outOrds s).filter fun o => !d.untried s o).length)

/-- A stripe that waits for rebuild: it may be beyond repair and not yet in the lost-stripe log, or some lost strip of it has a drive to be
written to. -/
def Dev.rebuildable (d : Dev) (s : Nat) : Bool :=
  d.needsRebuild s && if d.beyondRepair s then (d.lostEntry s).isNone
    else (d.lostOrds s).any fun o => ((tget d.pools (stripePool s)).bind fun p => p.place s o).any fun m => (d.driveFor (stripePool s) m).isSome

/-- The stripes of a pool that hold rebuild work. -/
def Dev.rebuildWork (d : Dev) (p : Nat) : List Nat := ((d.liveStripes p).map (·.1)).filter d.needsRebuild

/-- The first stripe in the order of R408 from a level on, among those that can be rebuilt and are not being rebuilt. -/
def Dev.nextRebuild (d : Dev) (p : Nat) : Option Nat :=
  let jobs := (d.reads.filter fun r => r.purpose == .rebuild).map (·.stripe)
  let busy := ((tget d.pools p).map (·.jobs)).getD []
  let work := (d.rebuildWork p).filter fun s => d.rebuildable s && !jobs.contains s && !busy.contains s
  let key (s : Nat) : Nat := d.stripeLevel s * 2 ^ 64 + stripeRow s * 128 + stripeSlot s
  work.foldl (fun b s => match b with
    | none => some s
    | some t => if key s < key t then some s else some t) none

/-- MNT_STATUS.REBUILDING and CRITICAL follow the work of the pools (R450). -/
def syncRebuild (d : Dev) : Dev :=
  let work := (d.pools.map fun p => d.rebuildWork p.1).flatten
  (d.put MNT_STATUS.REBUILDING !work.isEmpty).put MNT_STATUS.CRITICAL (work.any fun s => d.stripeLevel s == 0)

/-- The sequencer restarts at the lowest level that holds work, from row 0 (R408). -/
def restartSeq (p : Nat) (d : Dev) : Dev :=
  let lv := (d.rebuildWork p).foldl (fun m s => min m (d.stripeLevel s)) 7
  syncRebuild (d.modPool p fun x => { x with level := lv, row := 0, slot := 0 })

/-! ### The lost-stripe log (R412 to R416) -/

/-- Objects that lie in a stripe. -/
def Dev.stripeObjs (d : Dev) (s : Nat) : List (Nat × ObjEnt) := d.xmap.objs.filter fun e => e.2.stripe == s

/-- A stripe enters the lost-stripe log (R412, R413, R416); a stripe with map strips takes its pool offline (R418). -/
def loseStripe (s cause nerased : Nat) (d : Dev) : Dev :=
  let p := stripePool s
  match tget d.pools p, d.stripe s with
  | some x, some st =>
    if (d.lostEntry s).isSome then d
    else if 65536 ≤ x.lost.length then (d.bump MNT_CNT_LOST.COUNT 1).set MNT_STATUS.LOST_OVF
    else
      let c := if st.hasMap then 4 else cause
      let e : LostStripe := ⟨s, st.seq, d.tbMedia, if cause = 3 then 2 else 1, c, nerased, (d.stripeObjs s).length⟩
      let d := (d.modPool p fun x => { x with lost := x.lost ++ [e] }).bump MNT_CNT_LOST.COUNT 1
      let d := mediaEvent evLostStripe s (fault .media 0x0C (0x1000 + p) 0x10 false (d.set MNT_STATUS.LOST))
      d.when (c == 4) (setOffline p true)
  | _, _ => d

/-- A stripe leaves the lost-stripe log; a pool whose map stripe was rebuilt comes back (R413, R418). -/
def unloseStripe (s : Nat) (d : Dev) : Dev :=
  match d.lostEntry s with
  | none => d
  | some _ => placedAgain (stripePool s) (d.modPool (stripePool s) fun x => { x with lost := x.lost.filter fun l => l.stripe != s })

/-- A strip out of the stripe can still return (R414). -/
def Dev.mayReturn (d : Dev) (s o : Nat) : Bool :=
  match tget d.pools (stripePool s) with
  | none => false
  | some x => (x.homePlace s o).any fun m => match tget x.members m with
    | none => false
    | some y => y.state == 3 || y.state == 4 || (y.state == 5 && y.recover && !y.tried.contains (s, o))

/-- PENDING entries whose returnable strips no longer suffice become LOST (R414). -/
def settleLost (p : Nat) (d : Dev) : Dev :=
  let gone (l : LostStripe) : Bool :=
    decide (((d.stripe l.stripe).map (·.m)).getD 0 < ((d.outOrds l.stripe).filter fun o => !d.mayReturn l.stripe o).length)
  d.modPool p fun x => { x with lost := x.lost.map fun l => if l.state = 1 ∧ gone l then { l with state := 2 } else l }

/-- Stripes whose objects are all freed leave the log, and their slots become free (R415); a map stripe stays, and its pool with it offline
(R418). -/
def dropLost (p : Nat) (d : Dev) : Dev :=
  let done := ((tget d.pools p).map (·.lost)).getD [] |>.filter fun l => l.state == 2 && (d.stripeObjs l.stripe).isEmpty && l.cause != 4
  d.each done fun d l => unloseStripe l.stripe (d.modMap fun m => { m with stripes := tdel m.stripes l.stripe })

/-! ### Changes of a member's state (R400 to R406) -/

/-- The MEMBER event (R772). -/
def memberEvent (p m extra : Nat) (d : Dev) : Dev :=
  let x := d.member p m
  mediaEvent evMember (p + 2 ^ 16 * m + 2 ^ 32 * ((x.map (·.state)).getD 0) + 2 ^ 40 * ((x.map (·.cause)).getD 0) + 2 ^ 48 * extra) d

/-- A member takes a state; the change is recorded, the sequencer restarts, and PENDING entries are looked at again. -/
def changeMember (p m st : Nat) (f : PoolMember → PoolMember) (d : Dev) : Dev :=
  let upd (y : PoolMember) : PoolMember := f { y with state := st, former := y.state }
  let d := remap p (fun _ _ => false) (fun x => { x with members := tmod x.members m upd }) d
  restartSeq p (settleLost p (recordPool p d))

/-- Relocation entries a pool may hold (R365). -/
def Pool.relocLimit (x : Pool) : Nat := min x.sparePos 8

/-- A relocation entry is free. -/
def Dev.relocFree (d : Dev) (p : Nat) : Bool := (tget d.pools p).any fun x => decide (x.relocs.length < x.relocLimit)

/-- A relocation entry is created (R405, R446). -/
def addReloc (p m : Nat) (mark : Option Nat) (d : Dev) : Dev :=
  remap p (fun _ _ => false) (fun x => { x with relocs := x.relocs ++ [⟨m, mark⟩] }) d

/-- The relocation entry of a member is removed (R406); `written` names strips that are already at their new places. -/
def dropReloc (p m : Nat) (written : Nat → Nat → Bool) (d : Dev) : Dev :=
  remap p written (fun x => { x with relocs := x.relocs.filter fun r => r.member != m }) d

/-- An evacuation starts (R403, R446). -/
def startEvacuation (p m : Nat) (d : Dev) : Dev := changeMember p m 6 id (addReloc p m (some 0) d)

/-- A SUSPECT member is evacuated by the device itself when an entry is free and the ledger admits it (R403); otherwise an event is
posted. A module that does not hold the ledger asks for it. -/
def autoEvacuate (p m : Nat) (d : Dev) : Dev :=
  if !d.relocFree p then memberEvent p m 0 d
  else if !d.holdsLedger then
    snowSend .coord 3 ⟨0xFF, 0, 0, 0, [1, 3, p, m, d.twinSide, 0, 1024, noQueue, 0], []⟩ d
  else if 64 ≤ d.maint.acts.length ∨ (d.memberActivity p m).isSome then d
  else
    let a : Activity := ⟨d.nextActId, 3, p, m, 0, 0, d.tbMedia, true, 1024⟩
    let d := putActivity a { d with maint := { d.maint with serial := a.id % 2 ^ 15 } }
    startEvacuation p m (d.bump MNT_CNT_ADMITTED.COUNT 1)

/-- A member in service becomes SUSPECT (R400, R403). -/
def suspectMember (p m cause : Nat) (d : Dev) : Dev :=
  match d.member p m with
  | none => d
  | some x =>
    if x.state ≠ 1 ∨ !d.isHome p then d
    else autoEvacuate p m (changeMember p m 2 (fun y => { y with cause := cause }) d)

/-- A member becomes FAILED (R400, R402, R405, R446): its drive is bound no more, it gets a relocation entry while one is free, and the
declaration is counted, recorded and posted. -/
def failMember (p m cause : Nat) (d : Dev) : Dev :=
  match d.member p m with
  | none => d
  | some x =>
    if x.state = 4 ∨ x.state = 0 ∨ !d.isHome p then d
    else
      let unbind (v : Drive) : Drive := { v with state := 3 }
      let d := match x.drive with
        | some i => modDrive i unbind d
        | none => d
      let has := (tget d.pools p).any fun y => y.relocs.any fun r => r.member == m
      let d := if has then remap p (fun _ _ => false)
          (fun y => { y with relocs := y.relocs.map fun r => if r.member = m then { r with mark := none } else r }) d
        else if x.state ≠ 5 ∧ d.relocFree p then addReloc p m none d else d
      let d := changeMember p m 4 (fun y => { y with
        cause := cause, drive := none, absentSince := none, recover := false, checked := [], tried := [] }) d
      let d := memberEvent p m 0 (fault .media 0x0C (p * 512 + m) cause true (d.bump MNT_CNT_DECLARED.COUNT 1))
      withdraw 1 p d

/-- A time of evidence added to those within a window. -/
def within (now span : Nat) (l : List Nat) : List Nat := now :: l.filter fun t => decide (now < t + span)

/-- Evidence against a member (R400): the answer names the cause for which it is to be declared FAILED. -/
def evidence (p m cause : Nat) (d : Dev) : Option Nat × Dev :=
  if !d.isHome p then (none, d)
  else
    let now := d.tbMedia
    match cause with
    | 3 =>
      let d := modMember p m (fun x => { x with timeouts := within now (10 * secs) x.timeouts }) d
      let n : Nat := ((d.member p m).map (·.timeouts.length)).getD 0
      (if 8 ≤ n then some 3 else none, d)
    | 4 =>
      let d := modMember p m (fun x => { x with abandons := within now (60 * secs) x.abandons }) d
      let n : Nat := ((d.member p m).map (·.abandons.length)).getD 0
      if 2 ≤ n then (some 4, d) else (none, suspectMember p m 4 d)
    | 5 =>
      let d := modMember p m (fun x => { x with readErrs := within now (3600 * secs) x.readErrs }) d
      let n : Nat := ((d.member p m).map (·.readErrs.length)).getD 0
      if 32 ≤ n then (some 5, d) else (none, if 8 ≤ n then suspectMember p m 5 d else d)
    | 6 =>
      let d := modMember p m (fun x => { x with identErrs := within now (3600 * secs) x.identErrs }) d
      let n : Nat := ((d.member p m).map (·.identErrs.length)).getD 0
      (none, if 16 ≤ n then suspectMember p m 6 d else d)
    | c => (none, suspectMember p m c d)

/-- The member and the pool that a drive is bound to. -/
def Dev.boundTo (d : Dev) (drive : Nat) : Option (Nat × Nat) :=
  match d.drive drive with
  | none => none
  | some v => if v.state = 4 then some (v.pool, v.member) else none

/-- The end of a member's rebuild is posted (R411): the members that counted as lost before and no longer do. -/
def rebuildEnds (p : Nat) (before : List Nat) (d : Dev) : Dev :=
  let now := d.lostMembers p
  d.each (before.filter fun m => !now.contains m && ((d.member p m).any fun x => x.state == 4 || x.state == 0)) fun d m =>
    memberEvent p m 1 d

end Sys2Proof.Machine
end

