-- ==== Sys2Proof/Machine/ReadMedia.lean ====
section
/-! DEFINITION. Reading stripes (R375 to R387, R409, R420): the strips of a stripe read for a command's object, for scrub, rebuild, resolve
or compaction; reconstruction and the spare-syndrome check; stripes that disagree; and stripes written anew. -/

namespace Sys2Proof.Machine

/-! ### Stripe reads -/

/-- A stripe read by its number. -/
def Dev.sread (d : Dev) (id : Nat) : Option StripeRead := d.reads.find? fun r => r.id == id

/-- A stripe read changed. -/
def modRead (id : Nat) (f : StripeRead → StripeRead) (d : Dev) : Dev :=
  { d with reads := d.reads.map fun r => if r.id = id then f r else r }

/-- Stripes that were freed and that no read needs any more are gone (R476). -/
def dropFreed (d : Dev) : Dev :=
  d.modMap fun m => { m with stripes := m.stripes.filter fun e => !e.2.freed || d.reads.any fun r => r.stripe == e.1 }

/-- A stripe read ended; what its drives still bring is discarded. -/
def dropRead (id : Nat) (d : Dev) : Dev := dropFreed { d with reads := d.reads.filter fun r => r.id != id }

/-- No object. -/
def ObjEnt.none' : ObjEnt := ⟨0, 0, 0, 0, 0, 0⟩

/-- A stripe read begins; it takes a number of the drive fabric. -/
def newRead (r : StripeRead) (d : Dev) : Nat × Dev :=
  let id := d.drives.next
  (id, { (d.modDrv fun v => { v with next := id + 1 }) with reads := d.reads ++ [{ r with id := id }] })

/-- A read of a stripe for a purpose other than an object. -/
def StripeRead.make (s cls : Nat) (purpose : ReadFor) : StripeRead :=
  ⟨0, stripePool s, s, purpose, (0, 0), ObjEnt.none', 0, 0, [], [], [], false, false, cls⟩

/-- A strip is asked for; where no drive serves it, it is erased for want of its member (R376, R379 cause 4). -/
def askStrip (id ord : Nat) (d : Dev) : Dev :=
  match d.sread id with
  | none => d
  | some r =>
    let again := if r.purpose = .rebuild ∧ d.untried r.stripe ord then
        ((tget d.pools r.pool).bind fun p => p.place r.stripe ord).bind (d.driveFor r.pool) else none
    match (match again with
      | some v => (true, issueNvme v false nvRead (d.rowLba v (stripeRow r.stripe)) r.cls (.stripRead id ord) [] d)
      | none => readStrip id r.stripe ord r.cls d) with
    | (true, d) => modRead id (fun r => { r with wait := r.wait ++ [ord] }) d
    | (false, d) => modRead id (fun r => { r with erased := tput r.erased ord 4 }) d

/-- Strips of a stripe. -/
def StripeRead.width (r : StripeRead) (d : Dev) : Nat := ((d.stripe r.stripe).map fun x => x.k + x.m).getD 0

/-- Every strip that is not yet known is asked for (R377 step 1). -/
def askWhole (id : Nat) (d : Dev) : Dev :=
  match d.sread id with
  | none => d
  | some r =>
    let new (o : Nat) : Bool := (tget r.got o).isNone && (tget r.erased o).isNone && !r.wait.contains o
    (modRead id (fun r => { r with whole := true }) d).each ((List.range (r.width d)).filter new) fun d o => askStrip id o d

/-! ### Stripes written anew (R382, R385, R476) -/

/-- A stripe's contents wait to be written as a new stripe that replaces it; the home twin places it with its next destage. DEDUCED: the
deltas in map-log strips of the old stripe are folded into map pages by then, so its map-log strips are not carried over. -/
def queueRewrite (old purpose : Nat) (asker : Nat × Nat) (data : List ((Nat × Nat × Nat × Nat) × Bytes)) (places : List MapDelta)
    (d : Dev) : Dev :=
  let p := stripePool old
  match tget d.pools p with
  | none => d
  | some x =>
    let maps := min ((32 * places.length + 16 + x.stripLen - 1) / x.stripLen) (x.k - data.length)
    let fills := x.k - maps - data.length
    let tags := data.map (·.1) ++ List.replicate fills (0, 0, kindFill, 0) ++ List.replicate maps (0, 0, kindMap, 0)
    let plan : StripePlan := ⟨old, 0, x.k, x.m, x.big, [], tags, []⟩
    let y : Destage := ⟨p, plan, 0, data.map (·.2) ++ List.replicate fills (List.replicate x.stripLen 0), places, false, [], [], 0, 0,
      purpose, asker, false, [], maps, true, []⟩
    { d with destages := d.destages ++ [y] }

/-- The LOCATE entries that move the objects of a stripe as they stand (R382). -/
def Dev.moves (d : Dev) (s : Nat) : List MapDelta :=
  (d.stripeObjs s).map fun e => .locate (e.1 / 65536) (e.1 % 65536) e.2.form e.2.strip e.2.offset e.2.len s 0

/-- A stripe is rewritten whole with given data strips (R382, R384, R385). -/
def rewriteStripe (s purpose : Nat) (asker : Nat × Nat) (data : List Bytes) (d : Dev) : Dev :=
  match d.stripe s with
  | none => d
  | some st => queueRewrite s purpose asker ((st.strips.zip data).filter fun x => x.1.2.2.1 == kindData) (d.moves s) d

/-- The stripe and those it replaced, back to the first (R307); the first argument bounds the chain. -/
def replacedBy : Nat → Nat → Dev → List Nat
  | 0, _, _ => []
  | fuel + 1, s, d => if s = 0 then [] else s :: replacedBy fuel (((d.stripe s).map (·.replaces)).getD 0) d

/-- A rewrite of a stripe is under way. -/
def Dev.rewriting (d : Dev) (s : Nat) : Option Destage :=
  d.destages.find? fun x => x.purpose != 0 && (x.plan.stripe == s || (replacedBy 64 x.plan.replaces d).contains s)

/-- The data of an object in the buffers of a rewrite that keeps the old stripe's places (R382). -/
def Dev.buffered (d : Dev) (o : ObjEnt) : Option Bytes :=
  match d.rewriting o.stripe with
  | none => none
  | some x => if x.purpose = 2 then none else (x.strips[o.strip]?).map (objectIn o)

/-! ### Objects served to a command (R32, R82, R179, R251, R379) -/

/-- The durable parts of a status (R92): a divergent stripe's warning goes before a repair's. -/
def warnOf (a b : Nat) : Nat := if a = stDivergentServed ∨ b = stDivergentServed then stDivergentServed else max a b

/-- The blocks of a command that an object serves, each its place in the command with its place in the decoded bytes. -/
def MCtx.blocksOf (c : MCtx) (id form : Nat) : List (Nat × Nat) :=
  (c.reads.filter fun i => i.id != 0 && (if form = 0x10 then i.form == 0x10 && i.block == id else i.form != 0x10 && i.id == id)).map
    fun i => (i.ord, if form = 0x10 then i.id - id else 0)

/-- The number of objects of a chunk or block that a command reads. -/
def MCtx.partsOf (c : MCtx) (id : Nat) : Nat := ((c.reads.find? fun i => i.form == 0x10 && i.block == id).map (·.count)).getD 1

/-- The locked blocks of a COMPARE_AND_WRITE are free again (R85); where the other twin holds them as home twin, it is told. -/
def unlock (q tag : Nat) (d : Dev) : Dev :=
  let mine (l : Nat × Nat × Nat × Nat × Nat) : Bool := l.1 == q && l.2.1 == tag
  if d.firn.locks.any mine then d.modFirn fun f => { f with locks := f.locks.filter fun l => !mine l }
  else d.when ((d.ctx q tag).any fun c => c.kind == .compareWrite && [1, 2, 3].contains c.status)
    (snowSendFor (d.fnOf q) .coord 1 ⟨0xFF, 0, 0, 0, [6, q, tag], []⟩)

/-- A read of a command has ended with a status (R82, R92, R379). The read phase of a COMPARE_AND_WRITE keeps its context. -/
def endRead (q tag st : Nat) (d : Dev) : Dev :=
  match d.ctx q tag with
  | none => d
  | some c =>
    let d := dropFreed { d with reads := d.reads.filter fun r => match r.purpose with
      | .cmd q' t' _ => !(q' == q && t' == tag)
      | _ => true }
    let cls := ((d.queue q).map (·.cls)).getD 1
    if c.kind = .compareWrite then
      if okStatus st then
        schSend .media .completion cls ⟨q, tag, 0, c.nsid, [st, 0, 0], []⟩ (d.modCtx q tag fun c => { c with status := 1, need := [] })
      else mediaComplete q tag st 0 0 (unlock q tag d)
    else
      let res := if okStatus st ∧ (c.kind = .read ∨ c.kind = .verify) then c.recon else 0
      mediaComplete q tag st res 0 (markTook q tag d)

/-- A read that cannot serve an object (R379). -/
def failObject (q tag st : Nat) (d : Dev) : Dev :=
  endRead q tag st ((d.bump MOR_CNT_UNRECOVERED.COUNT 1).set MOR_STATUS.UNRECOVERED)

/-- The status of R379 for the cause of an erased strip. -/
def erasedStatus (cause : Nat) : Nat :=
  if cause = 1 then stTagMismatch else if cause = 2 then stTrailer else if cause = 3 then stCheckValue else stUnrecovered

/-- A stored object goes to the host half for a command; `rebuilt` says that it came from reconstructed strips. -/
def sendObject (q tag id ord form : Nat) (b : Bytes) (again rebuilt : Bool) (warn : Nat) (d : Dev) : Dev :=
  match d.ctx q tag with
  | none => d
  | some c =>
    let bl := c.blocksOf id form
    let new := if rebuilt then (bl.map (·.1)).filter fun o => !c.served.contains o else []
    let n := c.partsOf id
    let cls := ((d.queue q).map (·.cls)).getD 1
    let d := schSend .media .readPayload cls
      ⟨q, tag, id, c.nsid, [form, ord, n + (if again then 65536 else 0)] ++ bl.map (fun e => e.1 + 2 ^ 32 * e.2), b⟩ d
    let d := d.modCtx q tag fun c => { c with
      need := c.need.filter fun k => k != objKey id ord, served := c.served ++ new, recon := c.recon + new.length
      warn := warnOf c.warn warn }
    match d.ctx q tag with
    | some c => if c.need.isEmpty then endRead q tag c.warn d else d
    | none => d

/-! ### Stripes that disagree (R380 to R384) -/

/-- A stripe is found inconsistent with no strip located (R383): the home twin writes its DIVERGE delta, the other twin tells it. -/
def markDivergent (s cause synd : Nat) (agree : Bool) (d : Dev) : Dev :=
  if d.divergentStripe s then d
  else
    let p := stripePool s
    let seq := ((d.stripe s).map (·.seq)).getD 0
    let d := d.modMap fun m => { m with found := m.found ++ [s] }
    let d := fault .media 0x0B (0x100 + p) 3 false (d.set MOR_STATUS.DIVERGENT)
    if d.isHome p then
      formRec { FRec.empty with
        rtype := rtMap, pool := p, receiver := d.twinSide, mapDelta := [.diverge s cause synd (b2n agree) seq] } d
    else snowSend .report 3 ⟨p, d.tbMedia, srcId .media 0x0B (0x100 + p), 0, [3, s, cause + 256 * synd + 65536 * b2n agree], []⟩ d

/-- What the engines find in a stripe whose strips were read (R354, R377, R380): every extended data strip, the syndromes recomputed from
them, and the mask of stored syndromes that differ. -/
structure Solved where
  full : List Bytes
  synds : List Bytes
  diff : List (Nat × Bytes)

/-- The strips of a read solved; none where more are erased than can be rebuilt. -/
def StripeRead.solve (r : StripeRead) (p : Pool) : Option Solved :=
  let n := p.stripLen + 24
  let data := (r.got.filter fun e => decide (e.1 < p.k)).map fun e => (e.1, blkExtended p e.1 e.2)
  let synds := (r.got.filter fun e => decide (p.k ≤ e.1)).map fun e => (e.1 - p.k, blkExtended p e.1 e.2)
  let lost := (List.range p.k).filter fun o => !data.any fun e => e.1 == o
  match gfRebuild n data synds lost with
  | none => none
  | some xs =>
    let all := data ++ xs
    let full := (List.range p.k).map fun o => ((all.find? fun e => e.1 == o).map (·.2)).getD []
    let out := (List.range p.m).map fun j => syndrome n j (full.zipIdx.map fun x => (x.2, x.1))
    some ⟨full, out, synds.filterMap fun e =>
      let s := xorBytes e.2 (out.getD e.1 [])
      if allZero s then none else some (e.1, s)⟩

/-- The data of an extended strip. -/
def dataOf (p : Pool) (e : Bytes) : Bytes := e.take p.stripLen

/-- The mask of syndromes that differ (R387 SYND). -/
def Solved.mask (x : Solved) : Nat := x.diff.foldl (fun m e => setBit m e.1 true) 0

/-- Every data strip carries the stripe sequence (R387 SEQ_AGREE). -/
def Solved.agree (x : Solved) (p : Pool) (seq : Nat) : Bool := x.full.all fun e => blkSeq p e == seq

/-- The one inconsistent strip of a stripe whose every strip is present, by its ordinal (R381). -/
def locate (p : Pool) (diff : List (Nat × Bytes)) : Option Nat :=
  if p.m < 3 then none
  else match diff with
    | [e] => some (p.k + e.1)
    | _ =>
      if diff.length < p.m then none
      else
        let s (j : Nat) : Bytes := ((diff.find? fun e => e.1 == j).map (·.2)).getD []
        (List.range p.k).find? fun x => (List.range (p.m - 1)).all fun j => s (j + 1) == gfScale (gfExp x) (s j)

/-- The CAUSE of a divergence (R387). -/
def StripeRead.divCause (r : StripeRead) (p : Pool) : Nat := if !r.erased.isEmpty then 3 else if p.m = 2 then 2 else 1

/-- The block of a strip from a stripe that was solved; CCHECK is computed anew (R352, R409). -/
def Solved.block (x : Solved) (p : Pool) (s seq ord : Nat) : Bytes :=
  if ord < p.k then dataBlock p (x.full.getD ord []) else syndromeBlock p s seq (ord - p.k) (x.synds.getD (ord - p.k) [])

/-! ### Commands that wait for a resolve (R385) -/

/-- A resolve that the other twin forwarded is kept among the service operations, with its stripe as member and its RESULT as step, until
it is answered. -/
def dropOp (q tag : Nat) (d : Dev) : Dev :=
  { d with maint := { d.maint with ops := d.maint.ops.filter fun o => !(o.q == q && o.tag == tag) } }

/-- A command that the media half answers with a status of its own. -/
def answer (q tag st result : Nat) (d : Dev) : Dev :=
  if q < noQueue then mediaComplete q tag st result 0 d
  else if q < 2 ^ 32 then d
  else finish q tag st result (dropOp q tag d)

/-- The live objects of a stripe (R476): those that no UNLOCATE entry is due for. -/
def Dev.liveObjs (d : Dev) (s : Nat) : List (Nat × ObjEnt) :=
  (d.stripeObjs s).filter fun e => !d.xmap.freed.any fun f => objKey f.2.1 f.2.2 == e.1

/-- The live objects of a stripe laid out in order from its strips, last strip first (R476). -/
def Dev.liveLay (d : Dev) (s : Nat) (st : Stripe) (p : Pool) (strip : Nat → Bytes) : List StripLay :=
  (d.liveObjs s).foldl (fun y e =>
    let tag := st.strips.getD e.2.strip (0, 0, 0, 0)
    putObj p.stripLen tag.1 tag.2.1 ⟨e.1 / 65536, e.1 % 65536, e.2.form, [], objectIn e.2 (strip e.2.strip)⟩ y) []

/-! ### A rewrite replayed from the stripe it replaces (R305) -/

/-- The tags of a plan's data strips. -/
def StripePlan.dataTags (p : StripePlan) : List (Nat × Nat × Nat × Nat) := p.strips.filter fun t => t.2.2.1 == kindData

/-- A stripe is written again at the places of its INTENT record, with given data strips (R305). -/
def replayWith (r : FRec) (plan : StripePlan) (data : List Bytes) (places : List MapDelta) (ride : List Nat) (purpose : Nat) (d : Dev) :
    Dev :=
  match tget d.pools r.pool with
  | none => d
  | some p =>
    let maps := (plan.strips.filter fun t => t.2.2.1 == kindMap).length
    let fills := List.replicate (plan.k - maps - data.length) (List.replicate p.stripLen 0)
    let x : Destage := ⟨r.pool, plan, r.seq, data ++ fills, places, false, [], [], 0, 0, purpose, (noQueue, 0), true, ride, maps, false, []⟩
    ({ d with destages := d.destages ++ [x] }).bump FRN_CNT_REPLAYS.COUNT 1

/-- The INTENT record of a rewrite that cannot be replayed is dropped: the stripe that it was to replace stays. -/
def dropIntent (stripe : Nat) (d : Dev) : Dev :=
  match d.stripeRec rtIntent stripe with
  | none => d
  | some (slot, _) => freeRec slot (d.modMap fun m => { m with stripes := tdel m.stripes stripe })

/-- The stripe that a rewrite replaces was read: its contents are written again as the INTENT record planned them, as they stand or with
the live objects laid out anew. -/
def replayRewrite (stripe old : Nat) (p : Pool) (strip : Nat → Bytes) (d : Dev) : Dev :=
  match d.stripeRec rtIntent stripe, d.stripe old with
  | some (_, r), some st => match r.plan with
    | none => d
    | some plan =>
      let moved : MapDelta → MapDelta
        | .locate a b c e f g _ i => .locate a b c e f g stripe i
        | z => z
      let tags := st.strips.filter fun t => t.2.2.1 == kindData
      if plan.dataTags = tags then
        let data := (st.strips.zipIdx.filter fun t => t.1.2.2.1 == kindData).map fun t => strip t.2
        replayWith r plan data ((d.moves old).map moved) [] 1 d
      else
        let (data, places) := layStrips p.stripLen stripe { Lay.empty with strips := d.liveLay old st p strip }
        replayWith r plan (data.map (·.2)) places [] 2 d
  | _, _ => d

/-! ### Ends of a stripe read -/

/-- The first cause of R379 that applies to an erased strip which holds the chunk: a stream block's containers may lie in several strips. -/
def Dev.lossCause (d : Dev) (r : StripeRead) : Nat :=
  let mine := (d.stripeObjs r.stripe).filter fun e => e.1 / 65536 == r.obj.1
  (mine.filterMap fun e => tget r.erased e.2.strip).foldl min ((tget r.erased r.ent.strip).getD 4)

/-- More strips are erased than the stripe has syndromes (R377, R379, R409, R412, R420). -/
def readFailed (r : StripeRead) (d : Dev) : Dev :=
  let d := dropRead r.id d
  let lose (cause : Nat) (d : Dev) : Dev := d.when (d.isHome r.pool) (loseStripe r.stripe cause r.erased.length)
  match r.purpose with
  | .cmd q tag _ => failObject q tag (erasedStatus (d.lossCause r)) (lose 2 d)
  | .resolve _ q tag => answer q tag stUnrecovered 0 d
  | .scrub => lose 1 (d.bump MNT_CNT_SCRUBBED.COUNT 1)
  | .replay s => dropIntent s (lose 1 d)
  | _ => lose 1 d

/-- Lost strips go to their places (R409); a strip of a HELD member is solved and not written. -/
def writeLost (r : StripeRead) (p : Pool) (x : Solved) (d : Dev) : Dev :=
  let seq := ((d.stripe r.stripe).map (·.seq)).getD 0
  let d := d.when (d.lostOrds r.stripe).isEmpty (unloseStripe r.stripe)
  let todo := (d.lostOrds r.stripe).filterMap fun o => ((p.place r.stripe o).bind (d.driveFor r.pool)).map fun v => (o, v)
  let d := d.when (!todo.isEmpty) fun d => d.modPool r.pool fun p => { p with jobs := p.jobs ++ [r.stripe] }
  d.each todo fun d e => issueNvme e.2 false nvWrite (d.rowLba e.2 (stripeRow r.stripe)) 3 (.jobWrite r.pool r.stripe e.1)
    (x.block p r.stripe seq e.1) d

/-- The spare position that a member's relocation entry uses in a row, without regard to a copy mark (R446). -/
def Pool.spareOf (p : Pool) (row m : Nat) : Option Nat :=
  let pi := p.perm row
  let spots := relocSpots pi (p.relocs.map (·.member)) (p.slots * p.width) p.d p.relocs []
  ((spots.find? fun e => e.1.member == m).bind (·.2)).bind fun q => pi[q]?

/-- A strip goes to its other place: from an evacuating member to the spare position, or from there onto a FILLING member. -/
def writeMoved (p m s : Nat) (b : Bytes) (d : Dev) : Dev :=
  match tget d.pools p with
  | none => d
  | some x =>
    let dest := if x.mstate m = 5 then some m else x.spareOf (stripeRow s) m
    match dest.bind (d.driveFor p) with
    | none => d
    | some v => issueNvme v false nvWrite (d.rowLba v (stripeRow s)) 3 (.evacWrite p m (stripeRow s)) b d

/-- The live objects of a stripe are laid out for a new stripe (R476). -/
def compactNow (s : Nat) (p : Pool) (strip : Nat → Bytes) (d : Dev) : Dev :=
  match d.stripe s with
  | none => d
  | some st =>
    let (data, places) := layStrips p.stripLen s { Lay.empty with strips := d.liveLay s st p strip }
    queueRewrite s 2 (0, 0) data places d

/-- The number of objects that a resolve moves is its RESULT (R385). -/
def resolveBy (s q tag : Nat) (data : List Bytes) (d : Dev) : Dev :=
  let n := (d.stripeObjs s).length
  let keep (o : ServiceOp) : ServiceOp := if o.q = q ∧ o.tag = tag then { o with step := n } else o
  rewriteStripe s 3 (q, tag) data { (d.modCtx q tag fun c => { c with result := n }) with
    maint := { d.maint with ops := d.maint.ops.map keep } }

/-- What scrub does with a stripe that was read and solved (R381 to R384, R420). -/
def scrubSolved (r : StripeRead) (p : Pool) (x : Solved) (d : Dev) : Dev :=
  let s := r.stripe
  let inLog := d.divergentStripe s
  let data := x.full.map (dataOf p)
  let seq := ((d.stripe s).map (·.seq)).getD 0
  if x.diff.isEmpty then
    if !r.erased.isEmpty ∨ inLog then rewriteStripe s 1 (noQueue, 0) data (d.bump MOR_CNT_RECON.COUNT r.erased.length) else d
  else match (if r.erased.isEmpty then locate p x.diff else none) with
    | some o =>
      let d := (d.bump MOR_CNT_REPAIRED.COUNT 1).set MOR_STATUS.REPAIRED
      let s0 := ((x.diff.find? fun e => e.1 == 0).map (·.2)).getD []
      let data := if o < p.k then data.set o (dataOf p (xorBytes (x.full.getD o []) s0)) else data
      rewriteStripe s 1 (noQueue, 0) data d
    | none =>
      if inLog then
        if (r.erased.all fun e => decide (p.k ≤ e.1)) ∧ x.agree p seq then rewriteStripe s 1 (noQueue, 0) data d else d
      else markDivergent s (r.divCause p) x.mask (x.agree p seq) d

/-- The engines solved a stripe and agree (R377, R388, R409, R420). -/
def readSolved (r : StripeRead) (p : Pool) (x : Solved) (d : Dev) : Dev :=
  let d := dropRead r.id d
  let s := r.stripe
  let seq := ((d.stripe s).map (·.seq)).getD 0
  let diverge (d : Dev) : Dev := markDivergent s (r.divCause p) x.mask (x.agree p seq) d
  match r.purpose with
  | .scrub => scrubSolved r p x (d.bump MNT_CNT_SCRUBBED.COUNT 1)
  | .resolve a q tag =>
    resolveBy s q tag (x.full.map (dataOf p)) (d.when (a == 1) fun d => d.bump MOR_CNT_RECON.COUNT r.erased.length)
  | .cmd q tag again =>
    if !x.diff.isEmpty then failObject q tag stUnrecovered (diverge d)
    else
      let d := d.bump MOR_CNT_RECON.COUNT r.erased.length
      let d := d.when (d.isHome r.pool) (addRepair s)
      sendObject q tag r.obj.1 r.obj.2 r.ent.form (objectIn r.ent (x.full.getD r.ent.strip [])) again true 0 d
  | .rebuild =>
    if !x.diff.isEmpty then diverge d
    else
      let extra := (r.erased.filter fun e => !d.stripOut s e.1).length
      let d := (d.bump MOR_CNT_RECON.COUNT r.erased.length).when (extra != 0) (addRepair s)
      writeLost r p x d
  | .compact =>
    if !x.diff.isEmpty then diverge d
    else compactNow s p (fun o => dataOf p (x.full.getD o [])) (d.bump MOR_CNT_RECON.COUNT r.erased.length)
  | .move m o =>
    if !x.diff.isEmpty then diverge d
    else writeMoved r.pool m s (x.block p s seq o) (d.bump MOR_CNT_RECON.COUNT r.erased.length)
  | .replay t =>
    if !x.diff.isEmpty then dropIntent t (diverge d)
    else replayRewrite t s p (fun o => dataOf p (x.full.getD o [])) (d.bump MOR_CNT_RECON.COUNT r.erased.length)

/-- The strips that a read needs at the least; none for a read of the whole stripe. -/
def StripeRead.needs (r : StripeRead) (k : Nat) (d : Dev) : List Nat :=
  match r.purpose with
  | .cmd _ _ _ => [r.ent.strip]
  | .move _ o => [o]
  | .resolve 0 _ _ => List.range k
  | .compact => (List.range k).filter fun o => (d.liveObjs r.stripe).any fun e => e.2.strip == o
  | _ => []

/-- Every strip that a read needs passed its checks (R375, R377, R383). -/
def readDirect (r : StripeRead) (p : Pool) (d : Dev) : Dev :=
  let d := dropRead r.id d
  let strip (o : Nat) : Bytes := (tget r.got o).getD []
  match r.purpose with
  | .cmd q tag _ =>
    let div := d.divergentStripe r.stripe
    if div ∧ (d.ctx q tag).any (fun c => bit c.opts 3) then endRead q tag stDivergentStripe d
    else sendObject q tag r.obj.1 r.obj.2 r.ent.form (objectIn r.ent (strip r.ent.strip)) false false (if div then stDivergentServed else 0) d
  | .move m o => writeMoved r.pool m r.stripe (strip o) d
  | .resolve _ q tag => resolveBy r.stripe q tag ((List.range p.k).map fun o => (strip o).take p.stripLen) d
  | .compact => compactNow r.stripe p strip d
  | _ => d

/-- A whole read has all that its drives can give (R377 steps 2 and 3): it waits for an engine, or ends. -/
def readAll (r : StripeRead) (p : Pool) (d : Dev) : Dev :=
  let rebuild := r.erased.any fun e => decide (e.1 < p.k)
  if p.m < r.erased.length then readFailed r d
  else if d.enginesOut ∧ (rebuild ∨ !r.erased.isEmpty) then
    match r.purpose with
    | .cmd q tag _ => endRead q tag stInternal (dropRead r.id d)
    | .resolve _ q tag => answer q tag stInternal 0 (dropRead r.id d)
    | _ => dropRead r.id d
  else modRead r.id (fun r => { r with job := true }) d

/-- A read goes on once no strip is awaited. -/
def readOn (id : Nat) (d : Dev) : Dev :=
  match d.sread id with
  | none => d
  | some r =>
    match tget d.pools r.pool with
    | none => dropRead id d
    | some p =>
      if !r.wait.isEmpty ∨ r.job then d
      else if r.whole then readAll r p d
      else if (r.needs p.k d).all fun o => (tget r.got o).isSome then readDirect r p d
      else match r.purpose with
        | .resolve 0 q tag => answer q tag stUnrecovered 0 (dropRead id d)
        | .cmd q tag _ =>
          if d.divergentStripe r.stripe then failObject q tag stUnrecovered (dropRead id d)
          else whole p d
        | _ => whole p d
where
  /-- The other strips are asked for; where none comes, the read ends at once. -/
  whole (p : Pool) (d : Dev) : Dev :=
    let d := askWhole id d
    match d.sread id with
    | none => d
    | some r => if r.wait.isEmpty then readAll r p d else d

/-- A read begins with the strips it needs. -/
def beginRead (r : StripeRead) (d : Dev) : Dev :=
  match tget d.pools r.pool with
  | none => d
  | some p =>
    let (id, d) := newRead r d
    let need := (r.needs p.k d).filter fun o => (tget r.erased o).isNone
    let d := if r.whole then askWhole id d else d.each need fun d o => askStrip id o d
    readOn id d

/-- A strip was read on a drive bound with RECOVER: it is present when it passed its checks (R445). -/
def noteTried (s ord : Nat) (good : Bool) (d : Dev) : Dev :=
  if !d.untried s ord then d
  else
    let p := stripePool s
    match (tget d.pools p).bind fun x => x.place s ord with
    | none => d
    | some m =>
      let d := modMember p m (fun y => { y with
        tried := y.tried ++ [(s, ord)], checked := if good then y.checked ++ [(s, ord)] else y.checked }) d
      if good then d.modMap fun x => { x with stripes := tmod x.stripes s fun t => { t with missing := without t.missing ord } } else d

/-- A strip that failed its read or its checks joins the erasure set (R376). -/
def stripErased (id ord cause : Nat) (d : Dev) : Dev :=
  match d.sread id with
  | none => d
  | some r =>
    if !r.wait.contains ord then d
    else readOn id (modRead id (fun r => { r with wait := without r.wait ord, erased := tput r.erased ord cause })
      (noteTried r.stripe ord false d))

/-- A strip's identity failed while its own check passed (R376, R396, R400). -/
def identityFailed (r : StripeRead) (ord : Nat) (d : Dev) : Dev :=
  let d := (d.bump MOR_CNT_IDENTITY.COUNT 1).when (d.isHome r.pool) (addRepair r.stripe)
  match (tget d.pools r.pool).bind fun p => p.place r.stripe ord with
  | some m => (evidence r.pool m 6 d).2
  | none => d

/-- A strip that was read arrives and is checked (R375, R376). A divergent stripe that software resolves is read by the strips' own checks. -/
def stripArrived (id ord : Nat) (b : Bytes) (d : Dev) : Dev :=
  match d.sread id with
  | none => d
  | some r =>
    match tget d.pools r.pool, d.stripe r.stripe with
    | some p, some st =>
      if !r.wait.contains ord then d
      else
        let own := ownCheck p ord b
        let good (d : Dev) : Dev :=
          readOn id (modRead id (fun r => { r with wait := without r.wait ord, got := tput r.got ord b }) d)
        match r.purpose with
        | .cmd _ _ _ =>
          if ord = r.ent.strip ∧ !r.whole then
            match objectCheck p r.ent r.obj.1 r.tagNs r.tagFn b with
            | 0 => good d
            | c => stripErased id ord c (d.when own (identityFailed r ord))
          else if own ∧ stripeCheck p r.stripe st.seq ord b then good d else stripErased id ord 2 d
        | .resolve _ _ _ => if own then good d else stripErased id ord 2 d
        | _ => if own ∧ stripeCheck p r.stripe st.seq ord b then good (noteTried r.stripe ord true d) else stripErased id ord 2 d
    | _, _ => dropRead id d

/-! ### Objects asked for (R32, R377, R415) -/

/-- An object of a command is read from its strip, from the buffers of a rewrite, or, for `again`, from reconstructed strips. -/
def readObjectFor (q tag id ord : Nat) (again : Bool) (tagNs tagFn : Nat) (o : ObjEnt) (d : Dev) : Dev :=
  let s := o.stripe
  let cls := ((d.queue q).map (·.cls)).getD 1
  if (d.lostEntry s).any (fun l => l.state == 2) then failObject q tag stUnrecovered d
  else match (if again ∨ d.divergentStripe s then none else d.buffered o) with
    | some b => sendObject q tag id ord o.form b false false 0 d
    | none => beginRead { StripeRead.make s cls (.cmd q tag again) with
        obj := (id, ord), ent := o, tagNs := tagNs, tagFn := tagFn,
        erased := if again then [(o.strip, 3)] else [], whole := again } d

/-! ### Replay of INTENT records (R305) -/

/-- The objects of the records that an INTENT record names, in order, each with its namespace, its key owner and whether nothing needs it any
more; those that a RELEASE record located are left out. -/
def replayObjects (d : Dev) (p : Nat) (recs : List Nat) : List (Nat × Nat × ChunkObj × Bool) :=
  (recs.map fun q => match d.firn.recs.find? fun e => e.2.pool == p && e.2.seq == q with
    | none => []
    | some e => (e.2.objects.filter fun c => (tget d.xmap.objs (objKey c.id c.ordinal)).isNone).map fun c =>
        (e.2.nsid, ((d.nsAny e.2.nsid).map (·.tenant)).getD 0, c, e.2.applied && d.deadObj c)).flatten

/-- The data strips of a stripe again, each from the first object that its tag names up to the first of the next. An object that was dropped
meanwhile keeps its place unless the strip then has no room for the others. -/
def replayStrips (l : Nat) : List (Nat × Nat × Nat × Nat) → List (Nat × Nat × ChunkObj × Bool) → List StripLay
  | [], _ => []
  | t :: ts, objs =>
    let from' := objs.dropWhile fun o => o.2.2.1.id != t.2.2.2
    let run := match ts.head? with
      | some u => if u.2.2.2 = t.2.2.2 then from' else from'.take 1 ++ (from'.drop 1).takeWhile fun o => o.2.2.1.id != u.2.2.2
      | none => from'
    let lay (os : List (Nat × Nat × ChunkObj × Bool)) : List StripLay :=
      (os.foldl (fun y o => putObj l o.1 o.2.1 o.2.2.1 y) []).reverse
    let ss := if (lay run).length ≤ 1 then lay run else lay (run.take 1 ++ (run.drop 1).filter fun o => !o.2.2.2)
    let strip := (ss.head?).getD ⟨t.1, t.2.1, []⟩
    let last := (strip.objs.getLast?).map fun c => (c.id, c.ordinal)
    strip :: replayStrips l ts ((from'.dropWhile fun o => some (o.2.2.1.id, o.2.2.1.ordinal) != last).drop 1)

/-- An INTENT record without a RELEASE record is replayed: its stripe is rebuilt from the records it names and written again at the same
places. -/
def replayIntent (r : FRec) (plan : StripePlan) (d : Dev) : Dev :=
  match tget d.pools r.pool with
  | none => d
  | some p =>
    let lay := replayStrips p.stripLen plan.dataTags (replayObjects d r.pool plan.recs)
    let places := (lay.zipIdx.map fun s => locatesOf plan.stripe s.2 0 s.1.objs).flatten
    let held := fun (x : FRec) => x.objects.all fun c => (tget d.xmap.objs (objKey c.id c.ordinal)).isSome ||
      lay.any (fun s => s.objs.any fun o => o.id == c.id && o.ordinal == c.ordinal)
    let ride := plan.recs.filter fun q => d.firn.recs.any fun e => e.2.pool == r.pool && e.2.seq == q && held e.2
    let place (x : FRec) : FRec :=
      if x.pool = r.pool ∧ ride.contains x.seq then { x with placed := x.objects.length, sect := true } else x
    let d := d.modFirn fun f => { f with recs := f.recs.map fun (e : Nat × FRec) => (e.1, place e.2) }
    replayWith r plan (lay.map (·.data p.stripLen)) places ride 0 d

/-- The INTENT records of the pools this module owns that have no RELEASE record, were not replaced, and are not under way. -/
def Dev.toReplay (d : Dev) : List (Nat × FRec × StripePlan) :=
  let intents := d.firn.recs.filter fun e => e.2.rtype == rtIntent && d.isHome e.2.pool && !e.2.void && e.2.seq != 0
  intents.filterMap fun e => match e.2.plan with
    | none => none
    | some p =>
      if (d.stripeRec rtRelease p.stripe).isSome || (d.destage p.stripe).isSome ||
          intents.any (fun x => x.2.plan.any fun y => y.replaces == p.stripe) then none
      else some (e.1, e.2, p)

/-- Every INTENT record that is to be replayed is: those that name records at once, a rewrite of a stripe with the next destage. -/
def replayIntents (d : Dev) : Dev :=
  d.each (d.toReplay.filter fun e => !e.2.2.recs.isEmpty) fun d e => replayIntent e.2.1 e.2.2 d

/-- A rewrite that is to be replayed and whose old stripe is not yet read: an INTENT record that names no record is rebuilt from the stripe
that it replaces, which is live still (R304, R305). -/
def Dev.rewriteToReplay (d : Dev) (p : Nat) : Option StripePlan :=
  (d.toReplay.find? fun e => e.2.1.pool == p && e.2.2.recs.isEmpty && !d.reads.any fun r => r.purpose == .replay e.2.2.stripe).map (·.2.2)

/-- DESTAGE_START (R303 to R309, R366, R367, R817): the slot that the home twin chose, as row × 128 + slot. A rewrite left over from
before a restart comes first (R305). -/
def execDestageStart (pool slot : Nat) (s : State) : Host.Outcome State Fault Refusal :=
  s.ok <|
    let d := s.dev
    if !d.mayDestage pool then d
    else match d.rewriteToReplay pool with
      | some plan => beginRead { StripeRead.make plan.replaces 3 (.replay plan.stripe) with whole := true } d
      | none => match d.destages.find? fun x => x.pool == pool && x.abandoned && decide (x.attempts < 3) with
        | some x => replaceStripe x pool (slot / 128) (slot % 128) d
        | none => destageAt pool (slot / 128) (slot % 128) 0 (d.closeNow pool) d

end Sys2Proof.Machine
end

