-- ==== Sys2Proof/Machine/MediaMsg.lean ====
section
/-! DEFINITION. What the media half does with the descriptors and data of its host half (R251, R266): contexts of commands, Firn records
formed from them (R27 to R29, R105, R140, R165, R290, R373), reads (R32, R82, R301, R377), COMPARE_AND_WRITE (R85) and COPY (R474). -/

namespace Sys2Proof.Machine

/-! ### Contexts -/

/-- A command's context opens (R251). -/
def openCtx (m : Msg) (kind : MKind) (snap slba nlb flags opts nchunk : Nat) (src : Nat × Nat × Nat) (d : Dev) : Dev :=
  let fn := ((d.queue m.q).map (·.fn)).getD 0
  let group := ((d.firn.groups.find? fun g => g.fn == fn && g.members.any fun x => x.q == m.q && x.tag == m.tag).map (·.tag)).getD 0
  let order := d.ctxs.foldl (fun n c => max n c.order) 0 + 1
  { d with ctxs := (d.ctxs.filter fun c => !(c.q == m.q && c.tag == m.tag)) ++ [{
      q := m.q, tag := m.tag, kind := kind, nsid := m.nsid, snap := snap, slba := slba, nlb := nlb, flags := flags, opts := opts,
      fn := fn, nchunk := nchunk, src := src, group := group, items := [], order := order, took := false, reads := [], need := [], served := [],
      recon := 0, warn := 0, status := 0, formed := false, label := 0, refs := 0, news := 0, result := 0 }] }

/-- An item joins a context. -/
def addItem (q tag : Nat) (i : MItem) (d : Dev) : Dev := d.modCtx q tag fun c => { c with items := c.items ++ [i] }

/-- The chunks of a context, without the containers of stream blocks. -/
def MCtx.chunks (c : MCtx) : List MItem := c.items.filter fun i => decide (i.ord < 2 ^ 32)

/-- The containers of stream blocks whose bytes arrived with a context. -/
def MCtx.containers (c : MCtx) : List MItem := c.items.filter fun i => decide (2 ^ 32 ≤ i.ord)

/-! ### References (R140, R373) -/

/-- This module's map holds the chunk in the domain and with the fingerprint of the descriptor (R140). DEDUCED: a record carries neither a
fingerprint nor a generation for a reference, so both are tested where the descriptor arrives, and the rest by the home twin as it assigns. -/
def Dev.refSeen (d : Dev) (n : Ns) (i : MItem) : Bool :=
  let dom := d.domain n
  i.id == 0 || (tget d.xmap.chunks i.id).any fun e =>
    e.owner == dom.owner && e.size16 == dom.size16 && e.pool == dom.pool && e.fp == i.fp

/-- A list without repeats. -/
def once (l : List Nat) : List Nat := l.foldl (fun r a => if r.contains a then r else r ++ [a]) []

/-- The reference counts that a list of mapped chunks adds (R372); the zero chunk has none. -/
def refCounts (l : List Nat) : List (Nat × Int) :=
  (once (l.filter (· != 0))).map fun c => (c, ((l.filter (· == c)).length : Int))

/-! ### Records of writes (R27, R105, R165, R290) -/

/-- The contexts whose chunks share stream blocks with a list of contexts; the first argument bounds the rounds. -/
def shareBlocks : Nat → List MCtx → List MCtx → List MCtx
  | 0, _, l => l
  | fuel + 1, all, l =>
    let blocks := (l.map fun c => (c.chunks.filter fun i => i.form == 0x10).map (·.block)).flatten
    let more := all.filter fun c => !l.contains c && c.chunks.any fun i => i.form == 0x10 && blocks.contains i.block
    if more.isEmpty then l else shareBlocks fuel all (l ++ more)

/-- Everything that the record of the contexts carries has arrived. -/
def complete? (cs : List MCtx) : Bool :=
  let chunks := (cs.map (·.chunks)).flatten
  let bytes (blk : Nat) : Nat := ((cs.map (·.containers)).flatten.filter fun i => i.block == blk).foldl (fun n i => n + i.len) 0
  (cs.all fun c => c.chunks.length == c.nchunk && c.chunks.all (·.settled)) &&
    chunks.all fun i => i.form != 0x10 || ((chunks.filter fun x => x.form == 0x10 && x.block == i.block).length == i.count &&
      bytes i.block == i.len)

/-- No earlier command of its queue holds back the record of a command (R104, R105), but for those that go in the same record. -/
def Dev.unheld (d : Dev) (cs : List MCtx) (c : MCtx) : Bool :=
  match (d.queue c.q).bind (·.cmd c.tag) with
  | none => false
  | some cmd =>
    let mine (e : Cmd) : Bool := cs.any fun x => x.q == c.q && x.tag == e.tag
    let d' := d.modQ c.q fun q => { q with cmds := q.cmds.map fun e => if mine e then { e with took := true } else e }
    !d'.hazard c.q cmd

/-- The chunk of each block of a context in order. -/
def MCtx.ids (c : MCtx) : List Nat := (List.range c.nchunk).map fun o => ((c.chunks.find? fun i => i.ord == o).map (·.id)).getD 0

/-- What the record of contexts holds before its sections (R288); `c` is the first of them. -/
def recFor (c : MCtx) (cs : List MCtx) (n : Ns) (d : Dev) : FRec :=
  let lo := cs.foldl (fun m c => min m c.slba) c.slba
  let hi := cs.foldl (fun m c => max m (c.slba + c.nlb)) 0
  { FRec.empty with
    rtype := rtWrite, pool := n.pool, receiver := d.twinSide, member := bit c.flags 3, cls := ((d.queue c.q).map (·.cls)).getD 1,
    cmds := cs.map fun c => ⟨c.q, c.tag, c.slba, c.nlb, c.slba - lo⟩, group := c.group, func := c.fn, gfn := c.fn, nsid := c.nsid,
    slba := lo, nlb := hi - lo, origin := .host, gen := (d.fn n.tenant).gen }

/-- The APPLY_MARK of a context that a CALVE_APPLY opened (R489). -/
def MCtx.applyDelta (c : MCtx) : List MapDelta := if c.src.2.1 = 0 then [] else [.applyMark c.nsid c.src.2.1 c.src.1 c.src.2.2]

/-- The record of a WRITE, of a COMPARE_AND_WRITE or of the commands of a stream block (R290). -/
def writeRec (c : MCtx) (cs : List MCtx) (n : Ns) (d : Dev) : FRec :=
  let r := recFor c cs n d
  let stored (i : MItem) : ChunkObj := ⟨i.id, 0, i.form, i.fp, i.bytes.getD []⟩
  let conts := (cs.map (·.containers)).flatten.map fun i => (⟨i.block, i.count, 0x10, [], i.bytes.getD []⟩ : ChunkObj)
  { r with
    chunks := ((cs.map fun c => (c.chunks.filter fun i => !i.isRef).map stored).flatten) ++ conts
    refs := (cs.map fun c => (c.chunks.filter (·.isRef)).map fun i => (c.slba - r.slba + i.ord, i.id)).flatten
    mapDelta := (cs.map fun c => bindRuns c.nsid c.slba c.ids ++ c.applyDelta).flatten
    refDelta := refCounts (cs.map MCtx.ids).flatten }

/-- A context's record is formed. -/
def markFormed (cs : List MCtx) (d : Dev) : Dev :=
  d.each cs fun d c => d.modCtx c.q c.tag fun x => { x with
    formed := true, refs := (x.chunks.filter (·.isRef)).length, news := (x.chunks.filter fun i => !i.isRef).length }

/-- The record of contexts that are complete goes out, or the references that cannot be taken are refused. -/
def formWrite (c : MCtx) (cs : List MCtx) (n : Ns) (d : Dev) : Dev :=
  let bad := (cs.map fun c => (c.chunks.filter fun i => i.isRef && !d.refSeen n i).map fun i => (c, i)).flatten
  if !bad.isEmpty then d.each bad fun d e => refuseRef e.1 e.2 d
  else formRec (writeRec c cs n d) (markFormed cs d)

/-! ### Reads (R32, R82, R301, R377) -/

/-- Form, block and containers of a chunk, from the chunk table or from a record that is not yet applied. -/
def Dev.chunkForm (d : Dev) (c : Nat) : Nat × Nat × Nat :=
  match tget d.xmap.chunks c with
  | some e => (e.form, e.block, e.ncont)
  | none => match d.firnObjs c with
    | some (o :: t) => (o.form, o.id, t.length + 1)
    | _ => (8, c, 0)

/-- What a block of a read shows: none for a block that reads as zeros. -/
def Dev.shows (d : Dev) (n : Ns) (nsid snap lba : Nat) : Nat :=
  ((if snap = 0 then d.liveChunk nsid lba else d.chunkAt nsid (n.viewEpoch snap) lba).getD 0)

/-- An object of a read is served from the Firn cache, or read from its stripe. -/
def fetchObject (q tag key chunk : Nat) (d : Dev) : Dev :=
  let id := key / 65536
  let ord := key % 65536
  if !(d.ctx q tag).any (fun c => c.need.contains key) then d
  else match (d.firnObjs chunk).bind fun os => os.find? fun o => o.id == id && o.ordinal == ord && !o.bytes.isEmpty with
    | some o => sendObject q tag id ord o.form o.bytes false false 0 d
    | none =>
      match tget d.xmap.objs key, tget d.xmap.chunks chunk with
      | some o, some e => readObjectFor q tag id ord false e.nsid (e.owner % 1024) o d
      | _, _ => failObject q tag stUnrecovered d

/-- The blocks of a command are resolved, and their objects read (R104 item 2 of the read steps). -/
def readBlocks (q tag : Nat) (d : Dev) : Dev :=
  match d.ctx q tag with
  | none => d
  | some c =>
    match d.nsAny c.nsid with
    | none => mediaComplete q tag stInvalidNamespace 0 0 d
    | some n =>
      let lbas := (List.range c.nlb).map (c.slba + ·)
      if c.snap = 0 ∧ lbas.any (fun b => d.divergentAt c.nsid b) then endRead q tag stDivergent d
      else
        let item (x : Nat × Nat) : MItem :=
          let id := d.shows n c.nsid c.snap x.1
          let f := d.chunkForm id
          ⟨x.2, id, false, f.1, f.2.1, f.2.2, 0, [], none, true⟩
        let items := lbas.zipIdx.map item
        let keys := (items.filter (·.id != 0)).map fun i =>
          if i.form = 0x10 then (List.range i.count).map fun o => (objKey i.block o, i.id) else [(objKey i.id 0, i.id)]
        let keys := keys.flatten.foldl (fun l k => if l.any (fun x => x.1 == k.1) then l else l ++ [k]) ([] : List (Nat × Nat))
        let d := d.modCtx q tag fun c => { c with reads := items, need := keys.map (·.1) }
        if keys.isEmpty then endRead q tag stSuccess d else d.each keys fun d k => fetchObject q tag k.1 k.2 d

/-! ### COMPARE_AND_WRITE (R85) -/

/-- Nothing keeps the compare from being made: no record of the pool that covers the blocks, nor a group in flight whose members cover
them, is uncommitted, no other compare holds them, and no swap hands the pool over. -/
def Dev.mayCompare (d : Dev) (pool nsid slba nlb : Nat) : Bool :=
  !(d.firn.recs.any fun e => e.2.seq != 0 && !e.2.member && !e.2.void && !e.2.committed && d.covers e.2 nsid slba nlb) &&
    !(d.firn.locks.any fun l => l.2.2.1 == nsid && meetsRange l.2.2.2.1 l.2.2.2.2 slba nlb) && !d.assignHeld pool

/-- A COMPARE_AND_WRITE starts its compare: the home twin holds its blocks, or the other twin asks it to (R85). DEDUCED: the twin that
received the command compares, since plaintext is on a host half only (R33). -/
def startCompare (c : MCtx) (n : Ns) (d : Dev) : Dev :=
  if d.isHome n.pool then
    if d.mayCompare n.pool c.nsid c.slba c.nlb then
      readBlocks c.q c.tag ((d.modFirn fun f => { f with locks := f.locks ++ [(c.q, c.tag, c.nsid, c.slba, c.nlb)] }).modCtx c.q c.tag
        fun c => { c with status := 3 })
    else d
  else
    snowSendFor (d.fnOf c.q) .coord (((d.queue c.q).map (·.cls)).getD 1) ⟨n.pool, 0, 0, 0, [4, c.q, c.tag, c.nsid, c.slba, c.nlb], []⟩
      (d.modCtx c.q c.tag fun c => { c with status := 4 })

/-! ### COPY (R474) -/

/-- The record of a COPY: the destination is bound to the chunks that the source shows. -/
def copyRec (c : MCtx) (n : Ns) (ids : List (Option Nat)) (d : Dev) : FRec :=
  let r := recFor c [c] n d
  let delta (x : Option Nat × Nat) : MapDelta := match x.1 with
    | some id => .bind c.nsid (c.slba + x.2) 1 id
    | none => .unbind c.nsid (c.slba + x.2) 1
  { r with
    refs := ids.zipIdx.filterMap fun x => x.1.map fun id => (x.2, id)
    mapDelta := ids.zipIdx.map delta
    refDelta := refCounts (ids.filterMap id) }

/-- A COPY whose source blocks are all applied is formed; a reference that cannot be taken ends it. DEDUCED: no slice could send such a
chunk as new, so the command fails: 03h/05h for a divergent stripe, 01h/0Bh for a full count. -/
def formCopy (c : MCtx) (n : Ns) (d : Dev) : Dev :=
  let (snid, sslba, _) := c.src
  match d.nsAny snid with
  | none => mediaComplete c.q c.tag stInvalidNamespace 0 0 d
  | some s =>
    let lbas := (List.range c.nlb).map (sslba + ·)
    let ids := lbas.map fun b => if c.snap = 0 then d.liveChunk snid b else d.chunkAt snid (s.viewEpoch c.snap) b
    let used := (ids.filterMap id).filter (· != 0)
    if c.snap = 0 ∧ lbas.any (fun b => d.divergentAt snid b) then mediaComplete c.q c.tag stDivergent 0 0 (markTook c.q c.tag d)
    else if used.any fun x => (tget d.xmap.chunks x).isNone then d
    else match used.find? fun x => !d.refOpen x (used.filter (· == x)).length with
      | some x => mediaComplete c.q c.tag (if d.refOpen x 0 then stCapacity else stDivergentStripe) 0 0 (markTook c.q c.tag d)
      | none =>
        let r := copyRec c n ids d
        let k := (ids.filterMap id).length
        formRec r (d.modCtx c.q c.tag fun c => { c with formed := true, refs := k })

/-! ### Contexts that can go on -/

/-- A context that waits goes on once nothing holds it back: its record is formed, or its compare starts. -/
def settleOne (c : MCtx) (d : Dev) : Dev :=
  match d.ctx c.q c.tag, d.ns c.nsid with
  | some c, some n =>
    let go (f : Dev → Dev) : Dev := if !c.formed && d.unheld [c] c then f d else d
    match c.kind with
    | .write =>
      let cs := shareBlocks (d.ctxs.length + 1) (d.ctxs.filter fun x => x.q == c.q && x.kind == .write && !x.formed) [c]
      if c.formed ∨ !complete? cs ∨ !cs.all (d.unheld cs) then d else formWrite c cs n d
    | .compareWrite =>
      if c.status = 0 then go (startCompare c n)
      else if c.status = 2 ∧ complete? [c] then go (formWrite c [c] n) else d
    | .zeroes => go fun d =>
        let r := recFor c [c] n d
        formRec { r with mapDelta := [.bind c.nsid c.slba c.nlb 0] } (d.modCtx c.q c.tag fun c => { c with formed := true, refs := c.nlb })
    | .dealloc => go fun d =>
        let r := recFor c [c] n d
        formRec { r with mapDelta := unbindRuns 64 c.nsid c.slba c.nlb } (d.modCtx c.q c.tag fun c => { c with formed := true })
    | .copy => go (formCopy c n)
    | _ => d
  | _, _ => d

/-- Every context that waits is looked at, in the order of arrival. -/
def settle (d : Dev) : Dev := noteWaits (d.each d.ctxs fun d c => settleOne c d)

end Sys2Proof.Machine
end

