-- ==== Sys2Proof/Machine/MediaRx.lean ====
section
/-! DEFINITION. The messages of the host half at the media half (R251, R266), the copies of records in the Firn cache (R299), their commit
(R297, R318) and their application to the extent map (R296, R478). -/

namespace Sys2Proof.Machine

/-! ### Messages of the host half (R251, R266) -/

/-- A message of the host half meets the media half: it must name a command of its queue that waits for it, and its context where it has
one; otherwise it is invalid (R266, R267). Nothing arrives while the link is down. -/
def mediaMsg (m : Msg) (ops : List Nat) (ctx : Bool) (f : Cmd → MCtx → Option Dev) (first : Cmd → Option Dev) (d : Dev) : Dev :=
  if !d.is (SCH_STATUS.UP .media) then d
  else match d.waiting m ops with
    | none => rejectSch .media d
    | some c =>
      if c.phase = 9 then d
      else if c.phase = 8 then
        if ctx then d
        else mediaComplete m.q m.tag (c.failed.getD 0) 0 0 (d.modCmd m.q m.tag fun c => { c with phase := 9, news := 0 })
      else match (if ctx then (d.ctx m.q m.tag).bind (f c) else first c) with
      | none => rejectSch .media d
      | some d => settle d

/-- WRITE_ENVELOPE (R251): a write's context opens. Its operands: SLBA, NLB, FLAGS, OPTIONS, the chunk count and the opcode; for a
CALVE_APPLY the stream ID, the next SEQ and the first block not yet covered as well (R489). -/
def execWriteEnvelope (msg : Msg) (s : State) : Host.Outcome State Fault Refusal :=
  schTurn .media .writeEnvelope msg s fun s => s.ok <| mediaMsg msg [1, 6, 0x52] false (fun _ _ => none) (fun c =>
    let a (i : Nat) : Nat := msg.args.getD i 0
    if msg.ref ≠ 0 ∨ (s.dev.ctx msg.q msg.tag).isSome ∨ msg.nsid ≠ pktNsid c.pkt ∨ a 0 ≠ pktSlba c.pkt ∨ a 1 ≠ pktNlb c.pkt ∨
        a 5 ≠ pktOp c.pkt ∨ a 4 ≠ a 1 then none
    else some (openCtx msg (if a 5 = 6 then .compareWrite else .write) 0 (a 0) (a 1) (a 2) (a 3) (a 4) (a 6, a 7, a 8) s.dev)) s.dev

/-- NEW_CHUNK (R251): a chunk that is stored new. Its operands: ordinal in the command, form, block ID and chunks of the block (0 outside
a block), stored length; its fingerprint is the data. DEDUCED: the fingerprint crosses with it, since the home twin records it (R290). -/
def execNewChunk (msg : Msg) (s : State) : Host.Outcome State Fault Refusal :=
  schTurn .media .newChunk msg s fun s => s.ok <| mediaMsg msg [1, 6, 0x52] true (fun _ c =>
    let a (i : Nat) : Nat := msg.args.getD i 0
    let block := a 1 == 0x10
    if msg.ref = 0 ∨ c.formed ∨ (c.kind ≠ .write ∧ c.kind ≠ .compareWrite) ∨ c.nchunk ≤ a 0 ∨ c.chunks.any (fun i => i.ord == a 0) ∨
        a 1 = 0 ∨ (9 < a 1 ∧ !block) ∨ (!block ∧ (a 4 < 512 ∨ 16384 < a 4)) then none
    else some (addItem msg.q msg.tag ⟨a 0, msg.ref, false, a 1, if block then a 2 else msg.ref, a 3, a 4, msg.data, none, block⟩ s.dev))
    (fun _ => none) s.dev

/-- REFERENCE_CHUNK (R125, R140, R251): a chunk taken by reference; the zero chunk needs no check. -/
def execReferenceChunk (msg : Msg) (s : State) : Host.Outcome State Fault Refusal :=
  schTurn .media .referenceChunk msg s fun s => s.ok <| mediaMsg msg [1, 6, 0x52] true (fun _ c =>
    let a (i : Nat) : Nat := msg.args.getD i 0
    if c.formed ∨ (c.kind ≠ .write ∧ c.kind ≠ .compareWrite) ∨ c.nchunk ≤ a 0 ∨ c.chunks.any (fun i => i.ord == a 0) ∨
        (msg.ref ≠ 0 ∧ msg.data.length ≠ 32) then none
    else some (addItem msg.q msg.tag ⟨a 0, msg.ref, true, 0, msg.ref, 0, 0, msg.data, none, true⟩ s.dev)) (fun _ => none) s.dev

/-- WRITE_PAYLOAD (R251): a stored object lands in its record as it came; the containers of a stream block come in order under its block
ID. -/
def execWritePayload (msg : Msg) (s : State) : Host.Outcome State Fault Refusal :=
  schTurn .media .writePayload msg s fun s => s.ok <| mediaMsg msg [1, 6, 0x52] true (fun _ c =>
    let len := msg.data.length
    if c.formed ∨ len < 512 ∨ 16384 < len then none
    else match c.chunks.find? fun i => !i.isRef && i.id == msg.ref && i.form != 0x10 && !i.settled with
      | some i =>
        if i.len ≠ len then none
        else
          let fill (x : MItem) : MItem := if x.ord = i.ord then { x with bytes := some msg.data, settled := true } else x
          some (s.dev.modCtx msg.q msg.tag fun c => { c with items := c.items.map fill })
      | none =>
        if !(c.chunks.any fun i => i.form == 0x10 && i.block == msg.ref) ∨ len ≠ 4096 then none
        else
          let n := (c.containers.filter fun i => i.block == msg.ref).length
          some (addItem msg.q msg.tag ⟨2 ^ 32 + c.containers.length, msg.ref, false, 0x10, msg.ref, n, len, [], some msg.data, true⟩ s.dev))
    (fun _ => none) s.dev

/-- Step 3 of R179: an object is read again from reconstructed strips. Where its command has its data already, its blocks are resolved
again; an object they no longer show cannot be reconstructed for it. -/
def readAgain (m : Msg) (kind : MKind) (d : Dev) : Dev :=
  let d := if (d.ctx m.q m.tag).isSome then d
    else openCtx m kind 0 (m.args.getD 0 0) (m.args.getD 1 0) 0 (m.args.getD 2 0) 0 (0, 0, 0) d
  match d.ctx m.q m.tag, d.nsAny m.nsid with
  | some c, some n =>
    let snap := ((d.queue m.q).bind (·.cmd m.tag)).elim 0 fun x => if pktMember x.pkt ∨ kind = .compareWrite then 0 else pktGos x.pkt
    let item (x : Nat × Nat) : MItem :=
      let id := d.shows n m.nsid snap x.1
      let f := d.chunkForm id
      ⟨x.2, id, false, f.1, f.2.1, f.2.2, 0, [], none, true⟩
    let rs := if c.reads.isEmpty then (((List.range c.nlb).map (c.slba + ·)).zipIdx.map item).filter fun i => i.block == m.ref else c.reads
    let mine := rs.filter fun i => i.block == m.ref && i.id != 0
    match mine.head?.bind fun i => (tget d.xmap.chunks i.id).map fun e => (i, e) with
    | none => endRead m.q m.tag stCheckValue d
    | some (i, e) =>
      let ords := if i.form = 0x10 then List.range i.count else [0]
      let d := d.modCtx m.q m.tag fun c => { c with reads := rs, need := c.need ++ ords.map (objKey m.ref) }
      d.each ords fun d o => match tget d.xmap.objs (objKey m.ref o) with
        | some x => if (d.ctx m.q m.tag).isSome then readObjectFor m.q m.tag m.ref o true e.nsid (e.owner % 1024) x d else d
        | none => endRead m.q m.tag stCheckValue d
  | _, _ => endRead m.q m.tag stCheckValue d

/-- The kind of a read by its opcode. -/
def readKind (op : Nat) : MKind := if op = 7 then .verify else if op = 5 then .compare else if op = 6 then .compareWrite else .read

/-- READ_DESCRIPTOR (R32, R251): a READ or VERIFY of the live view or of a snapshot, or an object asked for again (R179). -/
def execReadDescriptor (msg : Msg) (s : State) : Host.Outcome State Fault Refusal :=
  schTurn .media .readDesc msg s fun s => s.ok <| mediaMsg msg [2, 5, 6, 7] false (fun _ _ => none) (fun c =>
    let a (i : Nat) : Nat := msg.args.getD i 0
    let op := pktOp c.pkt
    if msg.nsid ≠ pktNsid c.pkt ∨ a 0 ≠ pktSlba c.pkt ∨ a 1 ≠ pktNlb c.pkt then none
    else if a 3 = 1 then some (readAgain msg (readKind op) s.dev)
    else if (op ≠ 2 ∧ op ≠ 7) ∨ msg.ref ≠ pktGos c.pkt ∨ (s.dev.ctx msg.q msg.tag).isSome then none
    else some (readBlocks msg.q msg.tag (openCtx msg (readKind op) msg.ref (a 0) (a 1) 0 (a 2) 0 (0, 0, 0) s.dev))) s.dev

/-- OTHER_IO (R84, R85, R251, R474): zeroes, deallocate, compare and copy, and what a COMPARE_AND_WRITE's compare found. -/
def execOtherIo (msg : Msg) (s : State) : Host.Outcome State Fault Refusal :=
  schTurn .media .otherIo msg s fun s => s.ok <| mediaMsg msg [3, 4, 5, 6, 8] false (fun _ _ => none) (fun c =>
    let a (i : Nat) : Nat := msg.args.getD i 0
    let op := pktOp c.pkt
    let d := s.dev
    let opens (kind : MKind) (snap : Nat) (src : Nat × Nat × Nat) : Dev :=
      openCtx msg kind snap (a 1) (a 2) (a 3) (a 4) 0 src d
    let fresh := (d.ctx msg.q msg.tag).isNone
    if msg.nsid ≠ pktNsid c.pkt ∨ a 1 ≠ pktSlba c.pkt ∨ a 2 ≠ pktNlb c.pkt then none
    else if a 0 = ioZeroes ∧ op = 3 ∧ fresh then some (opens .zeroes 0 (0, 0, 0))
    else if a 0 = ioDealloc ∧ op = 4 ∧ fresh then some (opens .dealloc 0 (0, 0, 0))
    else if a 0 = ioCompare ∧ op = 5 ∧ fresh then some (readBlocks msg.q msg.tag (opens .compare msg.ref (0, 0, 0)))
    else if a 0 = ioCopy ∧ op = 8 ∧ fresh then some (opens .copy msg.ref (a 5, a 6, 0))
    else if op = 6 ∧ (d.ctx msg.q msg.tag).any (fun x => x.status == 1) then
      if a 0 = ioPassed then some (d.modCtx msg.q msg.tag fun x => { x with status := 2 })
      else if a 0 = ioFailed then some (mediaComplete msg.q msg.tag (a 5) 0 0 (unlock msg.q msg.tag (markTook msg.q msg.tag d)))
      else none
    else none) s.dev

/-- FREEZE_GROUP_OPERATION (R251, R313). -/
def execFreezeGroupOperation (msg : Msg) (s : State) : Host.Outcome State Fault Refusal :=
  schTurn .media .groupOp msg s fun s => s.ok <| mediaMsg msg [0x40, 0x41, 0x42, 0x43] false (fun _ _ => none) (fun c =>
    if msg.ref ≠ pktGos c.pkt ∨ (s.dev.ctx msg.q msg.tag).isSome then none
    else some (groupOperation msg (openCtx msg (.groupOp (msg.args.getD 0 0)) 0 0 0 0 0 0 (0, 0, 0) s.dev))) s.dev

/-- COMPLETION_MESSAGE (R26, R266): an invalid message ends the link. A completion that arrives while an object is awaited from
reconstructed strips is kept until the second one. -/
def execCompletionMessage (msg : Msg) (lend : List (Option Bytes)) (s : State) : Host.Outcome State Fault Refusal :=
  schTurn .host .completion msg s fun s => s.ok <| settle <|
    let d := s.dev
    if !d.is (SCH_STATUS.UP .host) then d
    else match d.waiting msg crossingOps, d.queue msg.q with
      | some c, some qu =>
        let st := msg.args.getD 0 0
        if !statusListed st ∨ (!okStatus st ∧ st ≠ stDivergent ∧ msg.args.getD 1 0 ≠ 0) then rejectSch .host d
        else if c.news ≠ 0 ∧ [2, 5, 7].contains (pktOp c.pkt) ∧ okStatus st then
          d.modCmd msg.q msg.tag fun c => { c with warn := mergeWarn c.warn st, recon := c.recon + msg.args.getD 1 0 }
        else completionFor msg.q msg.tag qu c st (msg.args.getD 1 0) lend d
      | _, _ => rejectSch .host d

/-! ### Copies (R27, R299) -/

/-- The record of a pool whose copy is meant: by its COMMIT_SEQ, or the first one that waits for assignment. -/
def Dev.copyOf (d : Dev) (p seq : Nat) : Option (Nat × FRec) :=
  d.firn.recs.find? fun e => e.2.pool == p && e.2.seq == seq && !e.2.written

/-- A copy's acknowledgement (R299, R508): its HCHECK, and for a record that this module assigned its TIMEBASE and CHAIN. It is withheld
for a pool whose chain broke (R524). -/
def sendAck (r : FRec) (d : Dev) : Dev :=
  if d.twin.breaks.contains r.pool then d
  else snowSendFor r.tenant .ack r.cls ⟨r.pool, r.msgId, r.seq, 0, [r.hcheck, r.time], r.chain⟩ d

/-- LOCAL_COPY_WRITTEN (R27, R299): header and pages are in HBM and the check values passed. A copy that came from the other twin is
acknowledged. -/
def execLocalCopyWritten (pool seq : Nat) (s : State) : Host.Outcome State Fault Refusal :=
  s.ok <|
    let d := s.dev
    match d.copyOf pool seq with
    | none => d
    | some (slot, r) =>
      let d := noteMirrored (modRec slot (fun r => { r with written := true }) d)
      if r.copy ∧ r.seq ≠ 0 then sendAck r d else d

/-! ### Commit and application (R296, R297, R318, R478) -/

/-- Where a REVOKE record met its condition, stripes abandoned for no other record are freed (R312). -/
def freeAbandoned (p : Nat) (d : Dev) : Dev :=
  let gone (x : Destage) : Bool := x.pool == p && x.abandoned && x.purpose == 0 && x.strips.isEmpty && x.plan.recs.isEmpty
  let d' := d.each (d.destages.filter gone) fun d x => freeChain d.xmap.stripes.length x.plan.stripe d
  placedAgain p { d' with destages := d.destages.filter fun x => !gone x }

/-- A CLEAR delta met its completion condition: a resolve that the other twin forwarded is answered, and one that waited finds the stripe
cleared (R385, R386). -/
def clearDone (d : Dev) : MapDelta → Dev
  | .clear s _ => d.each (d.maint.ops.filter fun o => o.op == 0xC2 && o.member == s) fun d o =>
      if o.fwSlot = 1 then answer o.q o.tag stNotDivergent 0 d else answer o.q o.tag stSuccess o.step d
  | _ => d

/-- WRITE_COMMIT (R297, R318): a WRITE, MAP, MARK or REVOKE record meets the completion condition, or a member of a group is staged. -/
def execWriteCommit (pool seq : Nat) (s : State) : Host.Outcome State Fault Refusal :=
  s.ok <|
    let d := s.dev
    match (d.slotOf pool seq).bind fun n => (d.recAt n).map fun r => (n, r) with
    | none => d
    | some (slot, r) =>
      if ! [rtWrite, rtMap, rtMark, rtRevoke].contains r.rtype ∨ r.committed ∨ r.void then d
      else if r.member then (if d.stagedOk r ∧ !r.posted then settle (stageMember slot d) else d)
      else if d.meets r then
        let d := commitRec slot d
        let d := d.each r.mapDelta clearDone
        settle (freeDone pool (d.when (r.rtype == rtRevoke) (freeAbandoned pool)))
      else d

/-- Stripe slots of a pool, and those that are free (R478). -/
def Dev.slotCount (d : Dev) (p : Nat) : Nat × Nat :=
  match tget d.pools p with
  | none => (0, 0)
  | some x => (x.rows * x.slots, x.rows * x.slots - (d.poolStripes p).length)

/-- The capacity levels of R478 are looked at; passing the warning level and entering or leaving the reserve post events. -/
def capacityCheck (p : Nat) (d : Dev) : Dev :=
  match tget d.pools p with
  | none => d
  | some x =>
    let (all, free) := d.slotCount p
    let full := decide (free * 100 < d.rd VRV_CFG.RESERVE_PCT * all)
    let warn := decide (d.rd VRV_CFG.WARN_PCT * all < (all - free) * 100)
    let d := d.modPool p fun y => { y with full := full, warned := warn }
    let d := (d.putBit VRV_STATUS.POOL_FULL p full).putBit VRV_STATUS.POOL_WARN p warn
    let d := d.when (warn && !x.warned) (mediaEvent evCapacity (p + 256))
    if full && !x.full then mediaEvent evCapacity (p + 512) d
    else if !full && x.full then mediaEvent evCapacity (p + 768) d
    else d

/-- RECORD_APPLY (R296): the pool's next record is applied in COMMIT_SEQ order; records that nothing needs any more are freed. -/
def execRecordApply (pool : Nat) (s : State) : Host.Outcome State Fault Refusal :=
  s.ok <|
    let d := freeDone pool (applyNext pool s.dev)
    settle (capacityCheck pool (dropLost pool (trimFreed s.dev.xmap.stripes d)))

end Sys2Proof.Machine
end

