-- ==== Sys2Proof/Machine/LinkRx.lean ====
section
/-! DEFINITION. What the receivers of the two links do with frames, and what a transmitter does with the link-control frames of
its peer (R244 to R263, R505 to R516). -/

namespace Sys2Proof.Machine

/-! ### Status of the lanes -/

/-- A set of lanes as a mask. -/
def laneMask (l : List Nat) : Nat := l.foldl (fun m n => setBit m n true) 0

/-- A list with a value at its place in rising order. -/
def insertSorted : List Nat → Nat → List Nat
  | [], n => [n]
  | a :: t, n => if n < a then n :: a :: t else if n = a then a :: t else a :: insertSorted t n

/-- Lanes declared lost 3 times (R262). -/
def Link.retired (l : Link) : List Nat := (l.rx.losses.filter fun e => decide (3 ≤ e.2)).map (·.1)

/-- W of the direction that a half transmits: the lanes in rotation and those whose spare is being aligned. -/
def Link.width (l : Link) : Nat := l.tx.lanes.length + l.tx.mapped.length

/-- SCH_STATUS and the lane registers of both ends show the lanes of both directions (R275, R276, R278). -/
def syncSch (d : Dev) : Dev :=
  let a := d.schEnd .host
  let b := d.schEnd .media
  d.each [Half.host, Half.media] fun d h =>
    let d := ((d.wr (SCH_STATUS.W_H2M h) a.width).wr (SCH_STATUS.W_M2H h) b.width).wr (SCH_STATUS.SPARE_H2M h)
      (min 2 a.tx.spares.length)
    let d := (d.wr (SCH_STATUS.SPARE_M2H h) (min 2 b.tx.spares.length)).wr (SCH_LANE_H2M.LOCKED h) (laneMask b.rx.locked)
    let d := (d.wr (SCH_LANE_H2M.IN_SERVICE h) (laneMask a.tx.lanes)).wr (SCH_LANE_M2H.LOCKED h) (laneMask a.rx.locked)
    d.wr (SCH_LANE_M2H.IN_SERVICE h) (laneMask b.tx.lanes)

/-- RETIRED of both ends gains the lanes of the direction that half `h` receives (R262, R278). -/
def markRetired (h : Half) (lanes : List Nat) (d : Dev) : Dev :=
  d.each [Half.host, Half.media] fun d e => d.each lanes fun d lane =>
    d.putBit (match h with
      | .media => SCH_LANE_H2M.RETIRED e
      | .host => SCH_LANE_M2H.RETIRED e) lane true

/-- DATA of a SNOWBRIDGE event (R772). -/
def Dev.snowEventData (d : Dev) : Nat :=
  d.rd TWN_STATUS.WIDTH_TX + 2 ^ 8 * d.rd TWN_STATUS.WIDTH_RX + 2 ^ 16 * d.rd TWN_LANES.CABLE0_UP +
    2 ^ 17 * d.rd TWN_LANES.CABLE1_UP

/-- A cable is up while a lane of it is in service in each direction (R515). -/
def Dev.cableOf (d : Dev) (c : Nat) : Bool :=
  (d.snow.tx.lanes.any fun l => l / 8 == c) && d.snow.rx.lanes.any fun l => l / 8 == c

/-- TWN_STATUS and TWN_LANES show the lanes of the Snowbridge; a cable that goes down is told by an event (R515). -/
def syncSnow (d : Dev) : Dev :=
  let was := (d.is TWN_LANES.CABLE0_UP, d.is TWN_LANES.CABLE1_UP)
  let d := (d.wr TWN_STATUS.WIDTH_TX d.snow.tx.lanes.length).wr TWN_STATUS.WIDTH_RX d.snow.rx.lanes.length
  let d := (d.wr TWN_LANES.TX_IN_SERVICE (laneMask d.snow.tx.lanes)).wr TWN_LANES.RX_IN_SERVICE (laneMask d.snow.rx.lanes)
  let d := (d.put TWN_LANES.CABLE0_UP (d.cableOf 0)).put TWN_LANES.CABLE1_UP (d.cableOf 1)
  let d := d.when (was.1 && !d.cableOf 0) fun d => mediaEvent evSnowbridge d.snowEventData d
  let d := d.when (was.2 && !d.cableOf 1) fun d => mediaEvent evSnowbridge d.snowEventData d
  updateMode d

/-- An event that a half raises. -/
def halfEvent (h : Half) (code data : Nat) (d : Dev) : Dev :=
  match h with
  | .host => devEvent code data d
  | .media => mediaEvent code data d

/-- A counter of the Schrund counts both directions together, so an event counts at both ends (R279). -/
def schCount (f : Half → Field) (n : Nat) (d : Dev) : Dev := (d.bump (f .host) n).bump (f .media) n

/-- A status bit of the Schrund that both ends show. -/
def schMark (f : Half → Field) (d : Dev) : Dev := correctedError ((d.set (f .host)).set (f .media))

/-- DATA of SCHRUND_DEGRADED (R772). -/
def Dev.schEventData (d : Dev) : Nat := (d.schEnd .host).width + 2 ^ 8 * (d.schEnd .media).width

/-- The fault instance of a lane of the direction a half transmits (R757). DEDUCED: direction 0 is host to media. -/
def laneInst (tx : Half) (lane : Nat) : Nat := halfNum tx * 32 + lane

/-! ### Acknowledgement and replay -/

/-- An ACK_SEQ that arrived frees the frames it covers (R253). -/
def ackFrames (l : LinkEnd) (ack : Nat) (d : Dev) : Dev :=
  pumpAll l (d.modLink l fun k => { k with tx := { k.tx with retry := k.tx.retry.filter fun f => serialLater f.seq ack } })

/-- One frame goes again on the next lane in rotation. -/
def replayOne (l : LinkEnd) (d : Dev) (f : SentFrame) : Dev :=
  let k := d.link l
  match k.tx.nextLane with
  | none => d
  | some lane =>
    let again (x : SentFrame) : SentFrame := if x.seq = f.seq then { x with lane := lane, replays := x.replays + 1 } else x
    let d := d.modLink l fun k => { k with tx := { k.tx with rot := k.tx.logical lane + 1, retry := k.tx.retry.map again } }
    let d := d.emit (.frame l lane f.bytes)
    match l with
    | .sch _ => schCount SCH_CNT_REPLAY.COUNT 1 d
    | .snow => d.bump TWN_CNT_REPLAY.COUNT 1

/-- Frames held for replay go again, in order, ahead of new frames (R255, R258); the answer tells whether one has now been
replayed 8 times. -/
def replayFrames (l : LinkEnd) (p : SentFrame → Bool) (d : Dev) : Dev × Bool :=
  let k := d.link l
  if k.tx.stopped then (d, false)
  else
    let fs := k.tx.retry.filter p
    (d.each fs (replayOne l), fs.any fun f => decide (8 ≤ f.replays + 1))

/-! ### Frames that arrive -/

/-- Where a frame's payload stands. -/
def payloadAt : LinkEnd → Nat
  | .sch _ => 16
  | .snow => 24

/-- Bytes of a frame. -/
def frameSize : LinkEnd → Nat
  | .sch _ => 256
  | .snow => 320

/-- A frame's check value is good (R244, R505). -/
def frameGood (l : LinkEnd) (f : Bytes) : Bool :=
  f.length == frameSize l && crc64 (f.take (frameSize l - 8)) == getLe f (frameSize l - 8) 8

/-- The body length of a Schrund message fits its class and MTYPE in the module's own layout of `schBytes` (R251, check 2 of R266): a stored
object, and what places a read object's blocks beside it; operands of 8 bytes each; a fingerprint of 32 bytes. -/
def schBodyOk (fclass mtype n : Nat) : Bool :=
  match fclass, mtype with
  | 1, 1 => decide (512 ≤ n ∧ n ≤ 16384)
  | 1, 2 => decide (512 ≤ n)
  | 2, 1 => decide (48 ≤ n) && n % 8 == 0
  | 2, 2 => n == 40 || n == 72
  | 2, 3 => n == 40
  | 2, 4 => n == 32
  | 2, 5 => n == 48
  | 2, 6 => n == 16
  | 2, 7 => decide (16 ≤ n) && n % 8 == 0
  | 3, 1 => n == 24
  | 3, 2 => n == 8
  | 4, 1 => decide (8 ≤ n)
  | 4, 2 => decide (8 ≤ n)
  | 5, 1 => n == 12
  | 6, 1 => n == 16
  | _, _ => false

/-- The class and MTYPE of a Schrund message may reach a half (R245, R251, check 1 of R266). -/
def schKindOk (rx : Half) (fclass mtype : Nat) : Bool :=
  match fclass, rx with
  | 1, .media => mtype == 1
  | 1, .host => mtype == 2
  | 2, .media => decide (1 ≤ mtype ∧ mtype ≤ 7)
  | 3, .host => decide (1 ≤ mtype ∧ mtype ≤ 2)
  | 4, _ => decide (1 ≤ mtype ∧ mtype ≤ 2)
  | 5, .media => mtype == 1
  | 6, _ => mtype == 1
  | _, _ => false

/-- A message's header and body length fit its class and direction (checks 1 and 2 of R266). -/
def schShapeOk (rx : Half) (fclass : Nat) (b : Bytes) : Bool :=
  let t := getLe b 1 1
  let q := getLe b 8 4
  getLe b 0 1 == fclass && decide (32 ≤ b.length ∧ b.length ≤ 65536) && getLe b 4 4 == b.length && getLe b 2 2 == 0 &&
    getLe b 14 2 == 0 && getLe b 28 4 == 0 && (q == noQueue || decide (q < 2 ^ 20)) && (q != noQueue || getLe b 12 2 == 0) &&
    schKindOk rx fclass t && schBodyOk fclass t (b.length - 32)

/-- A Snowbridge message's header fits its class (R507, R508, R510). -/
def snowShapeOk (bclass : Nat) (b : Bytes) : Bool :=
  let n := b.length - 32
  getLe b 0 1 == bclass && decide (1 ≤ bclass ∧ bclass ≤ 9) && (decide (6 ≤ bclass) || getLe b 1 1 == 1) &&
    (decide (getLe b 2 1 < 8) || getLe b 2 1 == 0xFF) && getLe b 3 1 == 0 && getLe b 4 4 == b.length &&
    decide (32 ≤ b.length ∧ b.length ≤ 1048624) && getLe b 24 8 == 0 &&
    (match bclass with
      | 1 => decide (1 ≤ n)
      | 2 => n == 32
      | 3 => decide (8 ≤ n) && n == 8 + 4 * getLe b 32 2
      | 5 => decide (8 ≤ n)
      | _ => true)

/-- What a complete message asks beyond its own command: nothing, rejection of an invalid message, or link loss. -/
inductive RxEnd where
  | fine | overrun | invalid | linkLoss
  deriving DecidableEq, Repr

/-- A complete message that passed its checks waits for its own command (R252). -/
def enqueueMessage (l : LinkEnd) (b : Option Bytes) (d : Dev) : Dev :=
  d.modLink l fun k => { k with rx := { k.rx with inbox := k.rx.inbox ++ [b] } }

/-- A message is complete: a sealed one must carry a good tag (R513); then its shape is checked, and it waits for its own command (see the
log). Whether a tag is good is a free value: the receiver's counter is not stated. -/
def messageEnd (l : LinkEnd) (fclass : Nat) (flags : Nat) (seqs : List Nat) (b : Bytes) (d : Dev) : Dev × RxEnd :=
  match l with
  | .sch h => if schShapeOk h fclass b then (enqueueMessage l (some b) d, .fine) else (d, .invalid)
  | .snow =>
    if !bit flags 4 then (if snowShapeOk fclass b then (enqueueMessage l (some b) d, .fine) else (d, .invalid))
    else
      let d := (linkCompare (b.length - 48) d).2
      let (v, d) := d.draw
      if v % 2 = 1 then
        (if 48 ≤ b.length ∧ getLe b 0 1 = fclass then (enqueueMessage l none d, .fine) else (d, .invalid))
      else
        let d := d.bump TWN_CNT_TAG_FAIL.COUNT 1
        let d := d.modTwin fun t => { t with tagFails := d.tbMedia :: t.tagFails.filter fun x => decide (d.tbMedia < x + ms) }
        let d := d.modLink .snow fun k => { k with rx := { k.rx with again := k.rx.again ++ seqs } }
        let d := d.each seqs fun d s => linkControl .snow .nak (leBytes 4 s) d
        (d, if 4 ≤ d.twin.tagFails.length then .linkLoss else .fine)

/-- A frame is delivered: its payload joins its message, which may be complete (R249, R252). -/
def deliverOne (l : LinkEnd) (seq : Nat) (f : Bytes) (d : Dev) : Dev × RxEnd :=
  let fclass := getLe f 0 1
  let flags := getLe f 1 1
  let id := getLe f 12 4
  let pay := getBytes f (payloadAt l) (getLe f 2 2)
  let old := if bit flags 0 then (flags, ([] : List Nat), ([] : Bytes)) else (tget (d.link l).rx.part id).getD (flags, [], [])
  let seqs := old.2.1 ++ [seq]
  let b := old.2.2 ++ pay
  let d := match l with
    | .sch _ => schCount SCH_CNT_FRAMES.COUNT 1 d
    | .snow => d.bump TWN_CNT_FRAMES.COUNT 1
  if bit flags 1 then
    messageEnd l fclass old.1 seqs b (d.modLink l fun k => { k with rx := { k.rx with part := tdel k.rx.part id } })
  else (d.modLink l fun k => { k with rx := { k.rx with part := tput k.rx.part id (old.1, seqs, b) } }, .fine)

/-- Frames are delivered in order as far as they are held (R248, R254). The first argument bounds them. -/
def deliverHeldFrames : Nat → LinkEnd → Dev → Dev × RxEnd
  | 0, _, d => (d, .fine)
  | fuel + 1, l, d =>
    let rx := (d.link l).rx
    match rx.reorder.find? fun e => e.1 == rx.next with
    | none => (d, .fine)
    | some (seq, f) =>
      let d := d.modLink l fun k => { k with rx := { k.rx with
        next := (seq + 1) % 2 ^ 32, reorder := k.rx.reorder.filter fun e => e.1 != seq } }
      match deliverOne l seq f d with
      | (d, .fine) => deliverHeldFrames fuel l d
      | (d, e) => (d, e)

/-- A message frame with a good check: a duplicate is discarded, another is held and delivered in order (R254). -/
def messageFrame (l : LinkEnd) (f : Bytes) (d : Dev) : Dev × RxEnd :=
  let rx := (d.link l).rx
  let seq := getLe f 4 4
  if rx.again.contains seq then
    deliverOne l seq f (d.modLink l fun k => { k with rx := { k.rx with again := without k.rx.again seq } })
  else if serialLater rx.next seq || rx.reorder.any fun e => e.1 == seq then (d, .fine)
  else if retryLimit l ≤ (seq + 2 ^ 32 - rx.next) % 2 ^ 32 then (d, .overrun)
  else
    let d := d.modLink l fun k => { k with rx := { k.rx with reorder := k.rx.reorder ++ [(seq, f)] } }
    deliverHeldFrames (rx.reorder.length + 1) l d

/-! ### Losing and regaining lanes of the Schrund -/

/-- The receiver of half `h` declares a lane lost (R258): it sends LANE_DOWN, or raises the fatal fault where the loss would leave
the width at 11 (R263). `locked` tells that the lane still holds lock. -/
def schLaneLost (h : Half) (lane : Nat) (locked : Bool) (d : Dev) : Dev :=
  let r := (d.schEnd h).rx
  if 20 ≤ lane then d
  else if r.lost.contains lane ∨ !d.is (SCH_STATUS.UP h) then
    d.when (!locked) fun d => syncSch (d.modSch h fun l => { l with rx := { l.rx with locked := without l.rx.locked lane } })
  else
    let k := d.schEnd (otherHalf h)
    let pend := (r.lost.filter fun x => k.tx.lanes.contains x || k.tx.mapped.any fun m => m.2 == x).length
    let serves := k.tx.lanes.contains lane || k.tx.mapped.any fun m => m.2 == lane
    let d := d.modSch h fun l => { l with rx := { l.rx with
      lost := l.rx.lost ++ [lane], losses := tput l.rx.losses lane ((tget l.rx.losses lane).getD 0 + 1),
      locked := if locked then l.rx.locked else without l.rx.locked lane, lanes := without l.rx.lanes lane,
      aligning := l.rx.aligning.filter fun a => a.2 != lane } }
    let d := d.when ((d.schEnd h).retired.contains lane) (markRetired h [lane])
    if serves ∧ k.tx.spares.length ≤ pend ∧ k.width + k.tx.spares.length ≤ 12 + pend then fatalSch h 1 (syncSch d)
    else syncSch (linkControl (.sch h) .laneDown (leBytes 1 lane ++ leBytes 4 r.next) d)

/-- The transmitter of half `h` drops a lane that its receiver declared lost, replays what it placed there, and maps a warm spare to
it or goes on at a smaller width (R258, R260). -/
def schLaneDown (h : Half) (lane : Nat) (d : Dev) : Dev × Bool :=
  let tx := (d.schEnd h).tx
  let logical := match tx.mapped.find? fun m => m.2 == lane with
    | some m => some m.1
    | none => if tx.lanes.contains lane then some (tx.logical lane) else none
  let d := d.modSch h fun l => { l with tx := { l.tx with
    lanes := without l.tx.lanes lane, spares := without l.tx.spares lane, mapped := l.tx.mapped.filter fun m => m.2 != lane } }
  match logical with
  | none => (syncSch d, false)
  | some lost =>
    let (d, limit) := replayFrames (.sch h) (fun f => f.lane == lane) d
    match (d.schEnd h).tx.spares with
    | sp :: rest =>
      let d := d.modSch h fun l => { l with tx := { l.tx with spares := rest, mapped := l.tx.mapped ++ [(lost, sp)] } }
      let d := d.emit (.align (.sch h) sp)
      (syncSch (d.modSch (otherHalf h) fun l => { l with rx := { l.rx with aligning := l.rx.aligning ++ [(lost, sp)] } }), limit)
    | [] =>
      let w := (d.schEnd h).width
      if w < 12 then (syncSch d, limit)
      else
        let d := linkControl (.sch h) .width (leBytes 1 w ++ leBytes 4 (d.schEnd h).tx.seq) d
        let d := syncSch (schMark SCH_STATUS.DEGRADED (fault h 5 (laneInst h lane) 0x11 false d))
        (halfEvent h evSchDegraded d.schEventData d, limit)

/-- A warm spare takes the place of a lost lane in rotation (R258, R259). -/
def schLaneUp (h : Half) (lane : Nat) (d : Dev) : Dev :=
  match (d.schEnd h).tx.mapped.find? fun m => m.2 == lane with
  | none => d
  | some m =>
    let d := d.modSch h fun l => { l with tx := ({ l.tx with
      nums := tput l.tx.nums lane m.1, mapped := l.tx.mapped.filter fun x => x.2 != lane } : LinkTx).enter lane }
    let d := fault h 5 (laneInst h m.1) 0x10 false (schMark SCH_STATUS.SUBST (schCount SCH_CNT_SUBST.COUNT 1 d))
    pumpAll (.sch h) (syncSch d)

/-- LANE_LOST (R258): loss of lock, unless the lane's failed checks had brought it down already. -/
def execLaneLost (half : Half) (lane : Nat) (s : State) : Host.Outcome State Fault Refusal :=
  s.ok (schLaneLost half lane false s.dev)

/-- SPARE_ALIGNED (R258): the receiver sends LANE_UP with the spare and the logical lane it stands for. -/
def execSpareAligned (half : Half) (lane : Nat) (s : State) : Host.Outcome State Fault Refusal :=
  s.ok <| match (s.dev.schEnd half).rx.aligning.find? fun a => a.2 == lane with
    | none => s.dev
    | some a =>
      let d := s.dev.modSch half fun l => { l with rx := { l.rx with
        aligning := l.rx.aligning.filter fun x => x.2 != lane, lanes := l.rx.lanes ++ [lane] } }
      linkControl (.sch half) .laneUp (leBytes 1 lane ++ leBytes 1 a.1) d

/-- A write to a register of a half's Schrund end takes effect (R275). -/
def schWriter (h : Half) (p : Path) : Bool :=
  match h with
  | .host => decide (p = .pf 0) || decide (p = .i3c .host)
  | .media => mediaWriter p

/-- Lost lanes that are not retired are to be retrained, in both directions (R262). -/
def schRetry (d : Dev) : Dev :=
  d.each [Half.host, Half.media] fun d h =>
    let l := d.schEnd h
    d.modSch h fun l' => { l' with rx := { l'.rx with retraining := l.rx.lost.filter fun x => !l.retired.contains x } }

/-- SCH_LANE_RETRY (R262, R277). -/
def execSchLaneRetry (path : Path) (half : Half) (s : State) : Host.Outcome State Fault Refusal :=
  s.ok <| if schWriter half path then schRetry s.dev else s.dev

/-- LANE_RETRAINED (R262): a lost lane that regained lock is a warm spare again. -/
def execLaneRetrained (half : Half) (lane : Nat) (s : State) : Host.Outcome State Fault Refusal :=
  s.ok <|
    let d := s.dev
    if !(d.schEnd half).rx.retraining.contains lane then d
    else
      let d := d.modSch half fun l => { l with rx := { l.rx with
        retraining := without l.rx.retraining lane, lost := without l.rx.lost lane, locked := insertSorted l.rx.locked lane,
        hist := tdel l.rx.hist lane } }
      syncSch (d.modSch (otherHalf half) fun l => { l with tx := { l.tx with spares := insertSorted l.tx.spares lane } })

/-! ### Peer down -/

/-- PEER_FATAL (R265). -/
def execPeerFatal (half : Half) (cause : Nat) (s : State) : Host.Outcome State Fault Refusal :=
  s.ok <| if s.dev.is (SCH_STATUS.UP half) then enterPeerDown half cause s.dev else s.dev

/-- A half that hears nothing for 2 µs enters peer down; the cause its fault record then carries is not stated (R265, R757). -/
def silentPeer (h : Half) (d : Dev) : Dev :=
  if d.is (SCH_STATUS.PEER_DOWN h) || !d.is (SCH_STATUS.UP h) then d
  else
    let (v, d) := d.draw
    enterPeerDown h (1 + v % 4) d

/-- SCHRUND_SILENCE_TIMEOUT (R265). -/
def execSchrundSilenceTimeout (half : Half) (s : State) : Host.Outcome State Fault Refusal := s.ok (silentPeer half s.dev)

/-! ### Clock and time -/

/-- FORWARDED_CLOCK_LOST (R23, R272): the alternate lane serves, or, with both lanes lost, the half's own crystal. -/
def execForwardedClockLost (both : Bool) (s : State) : Host.Outcome State Fault Refusal :=
  s.ok <|
    let d := s.dev
    if !both ∧ !d.is (SCH_STATUS.CLK_ALT .media) then (d.set (SCH_STATUS.CLK_ALT .media)).set (SCH_STATUS.CLK_ALT .host)
    else if d.clocks.lost then d
    else
      let d := { d with clocks := { d.clocks with lost := true } }
      let d := (d.clr (SCH_STATUS.CLK_ALT .media)).clr (SCH_STATUS.CLK_ALT .host)
      fault .media 5 0x1F 0x12 false ((d.set (SCH_STATUS.HOLDOVER .media)).set (SCH_STATUS.HOLDOVER .host))

/-- FORWARDED_CLOCK_RETURN (R23): the media half locks again to the primary lane. -/
def execForwardedClockReturn (s : State) : Host.Outcome State Fault Refusal :=
  s.ok <|
    let d := { s.dev with clocks := { s.dev.clocks with lost := false } }
    let d := (d.clr (SCH_STATUS.HOLDOVER .media)).clr (SCH_STATUS.HOLDOVER .host)
    (d.clr (SCH_STATUS.CLK_ALT .media)).clr (SCH_STATUS.CLK_ALT .host)

/-- CLOCK_MARKER (R273): the host half sends a time mark; the media half notes its own count at the marker. -/
def execClockMarker (s : State) : Host.Outcome State Fault Refusal :=
  s.ok <|
    let d := s.dev
    let seq := d.clocks.markSeq
    let d := { d with clocks := { d.clocks with
      markSeq := (seq + 1) % 2 ^ 32
      marks := if d.clocks.lost || !d.is (SCH_STATUS.UP .media) then d.clocks.marks else tput d.clocks.marks seq d.tbMedia } }
    schSendFree .host .timeMark 0 0 0 [d.tbHost, seq] [] d

/-- The media half's own count at the marker that a time mark tells of; in holdover, or for a marker it did not see, its count at the
mark's arrival stands for it (R273, R274). -/
def Dev.ownMark (d : Dev) (seq : Nat) : Nat :=
  if d.clocks.lost then d.tbMedia else (tget d.clocks.marks seq).getD d.tbMedia

/-- TIME_MARK (R273, R274): the media half adds or withholds one tick where it differs, at most one in 10,000 ticks (100 ppm). -/
def execTimeMark (tb seq : Nat) (s : State) : Host.Outcome State Fault Refusal :=
  schTurn .media .timeMark ⟨noQueue, 0, 0, 0, [tb, seq], []⟩ s fun s => s.ok <|
    let d := s.dev
    let own := d.ownMark seq
    let d := if !d.is (SCH_STATUS.UP .media) || decide (2 ^ 32 ≤ seq) then d
      else { d with clocks := { d.clocks with marks := d.clocks.marks.filter fun e => serialLater e.1 seq } }
    if !d.is (SCH_STATUS.UP .media) ∨ own = tb ∨ d.tbMedia < d.clocks.steered + 10000 ∨ 2 ^ 32 ≤ seq then d
    else if own < tb then { d with tbMedia := d.tbMedia + 1, clocks := { d.clocks with steered := d.tbMedia + 1 } }
    else { d with clocks := { d.clocks with steered := d.tbMedia, withhold := true } }

/-- A source and code that a fault notice may tell half `h` of (R756 to R758): a block of the other half that is listed, a severity that is
listed, and a cause, which GLB alone lacks. -/
def noticeOk (h : Half) (source code : Nat) : Bool :=
  bits source 31 1 == halfNum (otherHalf h) && decide (source < 2 ^ 32 ∧ code < 2 ^ 16 ∧ 1 ≤ srcBlock source ∧ srcBlock source ≤ 0x10) &&
    decide (1 ≤ bits code 12 4 ∧ bits code 12 4 ≤ 4) && (srcBlock source == 1) == (bits code 0 12 == 0)

/-- FAULT_NOTICE (R19, R251, R759, R770): the reports of the other half's source enter the ledger; a source or code that the other half cannot
have makes the message invalid (R267). -/
def execFaultNotice (half : Half) (source code count time : Nat) (s : State) : Host.Outcome State Fault Refusal :=
  schTurn half .faultNotice ⟨noQueue, 0, 0, 0, [source, code, count, time], []⟩ s fun s => s.ok <|
    if !s.dev.is (SCH_STATUS.UP half) ∨ count = 0 then s.dev
    else if !noticeOk half source code then rejectSch half s.dev
    else reports half count source code source time false false s.dev

end Sys2Proof.Machine
end

