-- ==== Sys2Proof/Machine/DriveFail.lean ====
section
/-! DEFINITION. Drive commands that end without success (R307, R376, R612, R627, R628), and the declaration of a member with what it does to
the commands of its drive (R400, R402). -/

namespace Sys2Proof.Machine

/-- A member to be declared FAILED: pool, member and cause (R400). -/
abbrev Verdict := Nat × Nat × Nat

/-- Evidence against a member, with the verdict it may bring. -/
def weigh (p m cause : Nat) (d : Dev) : List Verdict × Dev :=
  let (c, d) := evidence p m cause d
  ((c.map fun c => (p, m, c)).toList, d)

/-- A write of a rebuild job has ended; the job ends with its last one. -/
def jobOver (p s : Nat) (d : Dev) : Dev :=
  let open' := d.drives.cmds.any fun e => match e.2.what with
    | .jobWrite _ t _ => t == s
    | _ => false
  if open' then d else d.modPool p fun x => { x with jobs := without x.jobs s }

/-- A service operation of a member. -/
def Dev.serviceOp (d : Dev) (p m : Nat) : Option ServiceOp := d.maint.ops.find? fun o => o.pool == p && o.member == m && o.op != 0xC2

/-- The commands that wait for configuration and witness writes (R618, R624) complete once the last of these ended; step 1 tells that the other
twin's writes are still awaited. -/
def listOver (d : Dev) : Dev :=
  let busy := d.drives.cmds.any fun e => match e.2.what with
    | .listWrite | .witnessWrite _ => true
    | _ => false
  if busy then d
  else d.each (d.maint.ops.filter fun o => (o.op == 0x21 || o.op == 0x22) && (o.step == 0 || d.tstate != 5)) fun d o => finish o.q o.tag stSuccess 0 (dropOp o.q o.tag d)

/-- A command of a drive ended without success; `evid` tells that it counts toward the causes of R400, `st` is the NVMe status field. -/
def failedWhat (evid : Bool) (st : Nat) : DrvFor → Dev → List Verdict × Dev
  | .stripWrite s o, d =>
    match stripFailed 3 s o d with
    | (some m, d) => if evid then weigh (stripePool s) m 4 d else ([], d)
    | (none, d) => ([], d)
  | .stripRead id o, d => ([], stripErased id o 4 d)
  | .jobWrite p s _, d => ([], jobOver p s d)
  | .evacWrite _ _ _, d => ([], d)
  | .cfgWrite p c, d => ([], cfgWritten p c false d)
  | .witnessWrite _, d => ([], listOver d)
  | .listWrite, d => ([], listOver d)
  | .witnessRace w, d => ([], d.modTwin fun t => { t with race := t.race.map fun r => { r with flying := without r.flying w } })
  | .witnessRead w, d => ([], d)
  | .report why, d => failedWhat evid st why d
  | .fwDownload q tag, d => ([], finish q tag stDiagFailed st d)
  | .fwCommit q tag, d =>
    match d.maint.ops.find? fun o => o.q == q && o.tag == tag with
    | some o => ([(o.pool, o.member, 8)], finish q tag stDiagFailed 0 (dropOp q tag d))
    | none => ([], d)
  | .register, d => ([], d)
  | .acquire, d => ([], d)
  | .preempt, d => ([], d)
  | .abort _, d => ([], d)
  | .dsm, d => ([], d)
  | .health, d => ([], d)
  | .features, d => ([], d)

/-- A command leaves the table of outstanding commands. -/
def dropCid (cid : Nat) (d : Dev) : Dev :=
  d.modDrv fun v => { v with cmds := tdel v.cmds cid, retry := without v.retry cid, queued := without v.queued cid }

/-- Every command that was outstanding at a drive fails (R402, R627, R629). -/
def failDrive (evid : Bool) (i : Nat) (d : Dev) : List Verdict × Dev :=
  (d.drives.cmds.filter fun e => e.2.drive == i).foldl (fun a e =>
    if (tget a.2.drives.cmds e.1).isNone then a
    else let (v, d) := failedWhat evid 0 e.2.what (dropCid e.1 a.2); (a.1 ++ v, d)) ([], d)

/-- Operations under way on a member, RELEASE_MEMBER or FW_ACTIVATE, end with a status (R440, R441, R443). -/
def endOps (p m : Nat) (st : ServiceOp → Nat) (d : Dev) : Dev :=
  d.each (d.maint.ops.filter fun o => o.pool == p && o.member == m && (o.op == 1 || o.op == 5)) fun d o =>
    finish o.q o.tag (st o) 0 (dropOp o.q o.tag d)

/-- Members are declared FAILED one after the other, with what their drives' commands bring (R402); the first argument bounds them. -/
def declareAll : Nat → List Verdict → Dev → Dev
  | 0, _, d => d
  | _, [], d => d
  | fuel + 1, (p, m, c) :: t, d =>
    let drive := if d.isHome p then ((d.member p m).filter fun x => x.state != 4 && x.state != 0).bind (·.drive) else none
    let d := failMember p m c d
    let d := d.when (((tget d.pools p).map fun x => x.mstate m) == some 4)
      (endOps p m fun o => if o.op = 5 then stDiagFailed else stInvalidField)
    match drive with
    | none => declareAll fuel t d
    | some i => let (v, d) := failDrive false i d; declareAll fuel (t ++ v) d

/-- A verdict carried out. -/
def declare (vs : List Verdict) (d : Dev) : Dev := declareAll 8192 vs d

/-- One member declared FAILED. -/
def declareOne (p m c : Nat) (d : Dev) : Dev := declare [(p, m, c)] d

/-- A failed command of a drive with what it brings. -/
def failedCmd (evid : Bool) (cid st : Nat) (c : DrvCmd) (d : Dev) : Dev :=
  let (v, d) := failedWhat evid st c.what (dropCid cid d); declare v d

/-- A drive that is bound is asked to tell of asynchronous events (R607), of which a health warning is one (R628). -/
def askEvents (i : Nat) (d : Dev) : Dev :=
  let asked := d.drives.cmds.any fun e => e.2.drive == i && e.2.what == .health
  if asked || !(d.drive i).any (fun v => v.state == 4 || v.state == 6) then d else issueNvme i true nvEvents 0 3 .health [] d

/-- A controller is reset (R627): every command outstanding at it fails at once; a drive that is bound gets its queues again (R625). -/
def ctrlReset (i : Nat) (d : Dev) : Dev :=
  let d := fault .media 0x0F i 1 false ((d.bump DRV_CNT_CTRL_RESET.COUNT 1).emit (.ctrlReset i))
  let (v, d) := failDrive true i (modDrive i (fun v => { v with aborts := 0, pairs := 0, weights := none }) d)
  let d := d.when ((d.drive i).any fun v => v.state == 4 || v.state == 6) (setUpQueues i)
  askEvents i (declare v d)

/-- A command timed out (R400 cause 03h). -/
def timeoutSeen (i : Nat) (d : Dev) : Dev :=
  match d.boundTo i with
  | none => d
  | some (p, m) => let (v, d) := weigh p m 3 d; declare v d

/-! ### Writes of Regelation that ended well -/

/-- A strip is present at its place. -/
def stripPresent (s o : Nat) (d : Dev) : Dev :=
  d.modMap fun x => { x with stripes := tmod x.stripes s fun t => { t with missing := without t.missing o } }

/-- A rebuilt strip's write is acknowledged (R410, R411, R413). -/
def rebuilt (p s o : Nat) (d : Dev) : Dev :=
  let before := d.lostMembers p
  let d := stripPresent s o (d.bump MNT_CNT_REBUILT.COUNT 1)
  let m := ((tget d.pools p).bind fun x => x.place s o).getD 0xFFFF
  let d := modMember p m (fun y => if y.state = 5 then { y with checked := y.checked ++ [(s, o)] } else y) d
  let d := jobOver p s (d.when (d.isHome p && d.tstate == 5) fun d => snowSend .coord 3 ⟨p, 0, 0, 0, [8, s, o], []⟩ d)
  let d := d.when (d.lostOrds s).isEmpty (unloseStripe s)
  syncRebuild (rebuildEnds p before d)

/-- The strip that R363 places on a member in a row, among the stripes of the pool. -/
def Dev.rowStrip (d : Dev) (p m row : Nat) : Option (Nat × Nat) :=
  match tget d.pools p with
  | none => none
  | some x => (d.poolStripes p).findSome? fun e =>
      if stripeRow e.1 ≠ row ∨ e.2.freed then none
      else ((List.range (e.2.k + e.2.m)).find? fun o => x.homePlace e.1 o == some m).map fun o => (e.1, o)

/-- A strip was copied to its other place (R445, R446). -/
def moved (p m row : Nat) (d : Dev) : Dev :=
  match d.member p m, d.rowStrip p m row with
  | some y, some (s, o) =>
    if y.state = 5 then modMember p m (fun y => { y with checked := y.checked ++ [(s, o)] }) (d.bump MNT_CNT_REBUILT.COUNT 1)
    else if y.state = 6 then
      recordPool p (remap p (fun t q => t == s && q == o) (fun x => { x with
        relocs := x.relocs.map fun r => if r.member = m ∧ r.mark = some row then { r with mark := some (row + 1) } else r }) d)
    else d
  | _, _ => d

end Sys2Proof.Machine
end

