-- ==== Sys2Proof/Machine/Ledger.lean ====
section
/-! DEFINITION. The maintenance ledger (R426 to R439): what a request is checked against, admission, and the release of an activity with its
effect on the pool. -/

namespace Sys2Proof.Machine

/-- An admin command of the media half runs, or completes with 05h/01h while the module is fenced or its halves do not talk (R268,
R527). -/
def mediaAdmin (ops : List Nat) (q tag : Nat) (f : Queue → Cmd → Dev → Dev) (d : Dev) : Dev :=
  runCmd ops q tag (fun qu c d => if d.fenced || d.peerDown .host || !d.schUp then failCmd q tag stPathFenced d else f qu c d) d

/-- A command waits for the other twin, which is asked by a COORD message (R508); its body is the firmware's own. -/
def forward (q tag : Nat) (args : List Nat) (data : Bytes) (d : Dev) : Dev :=
  let d := d.modTwin fun t => { t with asked := t.asked ++ [(q, tag)] }
  crossCmd q tag (snowSend .coord 3 ⟨0xFF, 0, 0, 0, args, data⟩ d)

/-- A command under way is a FW_COMMIT. -/
def Dev.isCommit (d : Dev) (q tag : Nat) : Bool := ((d.queue q).bind fun x => x.cmd tag).any fun c => pktOp c.pkt == 0x85

/-- The other twin answered a command. The admission of an activation starts it (R543): its step is 0 until it begins. -/
def answered (q tag st result : Nat) (d : Dev) : Dev :=
  if !d.twin.asked.contains (q, tag) then d
  else
    let d := d.modTwin fun t => { t with asked := without t.asked (q, tag) }
    if st = stSuccess ∧ d.isCommit q tag then
      d.modTwin fun t => { t with act := some ⟨q, tag, 0, 0, false, d.image.bank, result % 2 ^ 16⟩ }
    else complete q tag st result d

/-- Commands that wait for the other twin end with 05h/03h once it has failed. -/
def unanswered (d : Dev) : Dev := d.each d.twin.asked fun d e => answered e.1 e.2 stTwinUnavailable 0 d

/-! ### Checks of a request (R429 to R431) -/

/-- What a request names: kind, pool, member, module, time limit and function (R438). -/
structure MaintReq where
  kind : Nat
  pool : Nat
  member : Nat
  twin : Nat
  limit : Nat
  fn : Nat

/-- The activity that a request would become. -/
def MaintReq.act (r : MaintReq) (id now : Nat) : Activity :=
  ⟨id, r.kind, r.pool, r.member, r.twin, r.limit, now, r.kind == 3 || r.kind == 4, r.fn⟩

/-- The packet of a request is well formed for the pair (R438). -/
def MaintReq.ok (r : MaintReq) (d : Dev) : Bool :=
  decide (1 ≤ r.kind) && decide (r.kind ≤ 6) &&
    (if r.kind ≤ 4 then
      (match tget d.pools r.pool with
        | none => false
        | some x => r.kind == 4 && r.member == 0 || r.kind != 4 && decide (r.member < x.d)) && r.twin == 0
     else decide (r.twin ≤ 1) && r.pool == 0 && r.member == 0)

/-- A held activity names the request's target (check 3). -/
def MaintReq.clash (r : MaintReq) (a : Activity) : Bool :=
  if r.kind ≤ 3 then decide (1 ≤ a.kind ∧ a.kind ≤ 3) && a.pool == r.pool && a.member == r.member
  else if r.kind = 4 then a.kind == 4 && a.pool == r.pool
  else a.kind == r.kind && a.twin == r.twin

/-- The value of a margin: 1 syndrome of a pool, 2 twin, 3 holdup (R426). -/
def Dev.margin (d : Dev) (k pool : Nat) (acts : List Activity) : Int :=
  if k = 1 then d.synMargin pool acts else if k = 2 then d.twinMargin acts else (d.holdMargin acts : Int)

/-- The first margin, in the order syndrome, twin, holdup, that an activity beside others lowers below its floor (R429, R430). -/
def Dev.marginFails (d : Dev) (acts : List Activity) (a : Activity) : Option Nat :=
  [1, 2, 3].find? fun k => a.ticketOn k a.pool && decide (d.margin k a.pool (acts ++ [a]) < d.margin k a.pool acts) &&
    d.belowFloor k a.pool (acts ++ [a])

/-- RESULT of a refusal (R431). -/
def refusal (id kind margin pool : Nat) : Nat :=
  id + 2 ^ 16 * kind + 2 ^ 24 * margin + 2 ^ 32 * (if margin = 1 then pool else 0)

/-- The first of two activities by a number. -/
def least (f : Activity → Nat) (l : List Activity) : Option Activity :=
  l.foldl (fun b a => match b with
    | none => some a
    | some x => if f a < f x then some a else some x) none

/-- The activity that blocks a request under check 5 (R431). -/
def Dev.blocker (d : Dev) (acts : List Activity) (a : Activity) (k : Nat) : Option Activity :=
  match least (·.id) (acts.filter fun x => (d.marginFails (acts.filter fun y => y.id != x.id) a).isNone) with
  | some x => some x
  | none => least (·.admitted) (acts.filter fun x => x.ticketOn k a.pool)

/-- The checks of R429 in order: the status (0 when every check passes) and the RESULT. -/
def Dev.maintCheck (d : Dev) (r : MaintReq) : Nat × Nat :=
  let acts := d.maint.acts
  let a := r.act 0 0
  let st := ((tget d.pools r.pool).map fun x => x.mstate r.member).getD 0
  if 64 ≤ acts.length then (stCapacity, 0)
  else if r.kind = 3 ∧ !d.relocFree r.pool then (stCapacity, 0)
  else if r.kind = 3 ∧ !(st == 1 || st == 2) then (stInvalidField, 0)
  else match acts.find? r.clash with
    | some x => (stMaintConflict, refusal x.id x.kind 0 0)
    | none => match d.marginFails [] a with
      | some k => (stMaintMargin, refusal 0xFFFF 0 k r.pool)
      | none => match d.marginFails acts a with
        | none => (0, 0)
        | some k => match d.blocker acts a k with
          | some x => (stMaintConflict, refusal x.id x.kind k r.pool)
          | none => (stMaintConflict, refusal 0xFFFF 0 k r.pool)

/-- A margin in a field of RESULT: a negative one shows as 0. -/
def marginField (m : Int) (w : Nat) : Nat := min m.toNat (2 ^ w - 1)

/-- RESULT of an admission (R432). -/
def Dev.admitResult (d : Dev) (a : Activity) : Nat :=
  let acts := d.maint.acts
  a.id + 2 ^ 16 * (if a.kind ≤ 4 then marginField (d.synMargin a.pool acts) 8 else 0xFF) +
    2 ^ 24 * marginField (d.twinMargin acts) 8 + 2 ^ 32 * marginField (d.holdMargin acts) 8

/-! ### Activities that act at once (R419, R423, R446) -/

/-- A SCRUB activity starts a pass at once, from row 0 (R423). -/
def startScrub (p act : Nat) (d : Dev) : Dev :=
  let redo := (d.xmap.divLog.map (·.stripe)).filter fun s => stripePool s == p
  d.modPool p fun x => { x with scrub := { x.scrub with
    row := 0, slot := 0, onDemand := true, activity := act, start := d.tbMedia, redo := redo, begun := true,
    routine := if x.scrub.onDemand then x.scrub.routine else (x.scrub.row, x.scrub.slot) } }

/-- Routine scrub resumes from its own mark (R423). -/
def stopScrub (p : Nat) (d : Dev) : Dev :=
  d.modPool p fun x => { x with scrub := { x.scrub with
    row := x.scrub.routine.1, slot := x.scrub.routine.2, onDemand := false, activity := 0, redo := [],
    begun := x.scrub.routine != (0, 0), routine := (0, 0) } }

/-- An activity that becomes ACTIVE at its admission acts at the home twin of its pool (R428). -/
def onAdmit (a : Activity) (d : Dev) : Dev :=
  if !d.isHome a.pool then d
  else if a.kind = 3 then startEvacuation a.pool a.member d
  else if a.kind = 4 then startScrub a.pool a.id d
  else d

/-- The ledger answers a request (R429 to R434). -/
def ledgerRequest (r : MaintReq) (q tag : Nat) (d : Dev) : Dev :=
  match d.maintCheck r with
  | (0, _) =>
    let a := r.act d.nextActId d.tbMedia
    let d := putActivity a { d with maint := { d.maint with serial := a.id % 2 ^ 15 } }
    let d := d.bump MNT_CNT_ADMITTED.COUNT 1
    finish q tag stSuccess (d.admitResult a) (onAdmit a d)
  | (st, res) =>
    finish q tag st res (d.when (st == stMaintConflict || st == stMaintMargin) fun d => d.bump MNT_CNT_REFUSED.COUNT 1)

/-- MAINT_REQUEST (R429, R434, R438). -/
def execMaintRequest (q tag : Nat) (s : State) : Host.Outcome State Fault Refusal :=
  s.ok <| mediaAdmin [0xC0] q tag (fun qu c d =>
    let r : MaintReq := ⟨pktField c.pkt 48 1, pktField c.pkt 49 1, pktField c.pkt 50 2, pktField c.pkt 52 1, pktField c.pkt 56 4, qu.fn⟩
    if !r.ok d then failCmd q tag stInvalidField d
    else if d.holdsLedger then ledgerRequest r q tag d
    else forward q tag [1, r.kind, r.pool, r.member, r.twin, r.limit, r.fn, q, tag] [] d) s.dev

/-! ### Release (R436, R437, R439) -/

/-- An evacuation stops before its end: the relocation entry goes, and the member is in service again. -/
def stopEvacuation (p m : Nat) (d : Dev) : Dev :=
  if ((tget d.pools p).map fun x => x.mstate m).getD 0 = 6 then changeMember p m 1 id (dropReloc p m (fun _ _ => false) d) else d

/-- The effect of a release at the home twin of the pool (R437); `good` tells that the member's drive passes the checks of FW_ACTIVATE. -/
def releaseEffect (a : Activity) (good : Bool) (d : Dev) : Dev :=
  if !d.isHome a.pool then d
  else match a.kind with
    | 3 => stopEvacuation a.pool a.member d
    | 4 => if ((tget d.pools a.pool).map (·.scrub.activity)).getD 0 = a.id then stopScrub a.pool d else d
    | 1 | 2 =>
      let d := endOps a.pool a.member (fun _ => stMaintUnknown) d
      match d.member a.pool a.member with
      | none => d
      | some x =>
        if x.state ≠ 3 then d
        else if good && x.drive.isSome then changeMember a.pool a.member 1 id d
        else declareOne a.pool a.member 9 d
    | _ => d

/-- An activity released: its tickets are free, and it ends with its effect. -/
def releaseActivity (a : Activity) (good : Bool) (d : Dev) : Dev :=
  let d := modActs (fun l => l.filter fun x => x.id != a.id) d
  let d := d.when (d.tstate == 5) fun d => snowSend .coord 3 ⟨0xFF, 0, a.id, 0,
    [3, a.kind, a.pool, a.member, a.twin, a.limit, a.admitted, b2n a.active, a.fn, 1, b2n good], []⟩ d
  releaseEffect a good d

/-- An activity of the ledger by its ID. -/
def Dev.activity (d : Dev) (id : Nat) : Option Activity := d.maint.acts.find? fun a => a.id == id

/-- The ledger answers a release. -/
def ledgerRelease (id : Nat) (good : Bool) (q tag : Nat) (d : Dev) : Dev :=
  match d.activity id with
  | none => finish q tag stMaintUnknown 0 d
  | some a => finish q tag stSuccess 0 (releaseActivity a good d)

/-- MAINT_RELEASE (R437, R439): `good` tells whether the drive of a HELD member passes the checks of FW_ACTIVATE. -/
def execMaintRelease (q tag : Nat) (good : Bool) (s : State) : Host.Outcome State Fault Refusal :=
  s.ok <| mediaAdmin [0xC1] q tag (fun _ c d =>
    let id := pktField c.pkt 48 2
    if d.holdsLedger then ledgerRelease id good q tag d
    else forward q tag [12, id, b2n good, q, tag] [] d) s.dev

/-- ACTIVITY_LIMIT_EXPIRY (R436): LIMIT_S seconds passed since the admission. -/
def execActivityLimitExpiry (activity : Nat) (good : Bool) (s : State) : Host.Outcome State Fault Refusal :=
  s.ok <|
    let d := s.dev
    match d.activity activity with
    | none => d
    | some a =>
      if a.limit = 0 ∨ !d.holdsLedger then d
      else mediaEvent evActivity (a.id + 2 ^ 17) (releaseActivity a good d)

/-- An activity becomes ACTIVE (R428). -/
def activate (id : Nat) (d : Dev) : Dev :=
  match d.activity id with
  | none => d
  | some a => if a.active then d else putActivity { a with active := true } d

/-- The ADMITTED activities of a kind that name a module become ACTIVE (R428). -/
def activateTwin (kind twin : Nat) (d : Dev) : Dev :=
  d.each (d.maint.acts.filter fun a => a.kind == kind && a.twin == twin && !a.active) fun d a => activate a.id d

end Sys2Proof.Machine
end

