-- ==== Sys2Proof/Machine/Regelation.lean ====
section
/-! DEFINITION. The Regelation sequencer of a pool (R405 to R423, R445, R446): rebuild, fill, evacuation, scrub, and a pool that is offline. -/

namespace Sys2Proof.Machine

/-- The pool's home twin may work on its drives in class D. -/
def Dev.mayRegelate (d : Dev) (p : Nat) : Bool := d.isHome p && !d.portsHalted && !d.enginesOut && d.twin.race.isNone

/-- Stripe jobs of a pool in flight (R411). -/
def Dev.jobsOf (d : Dev) (p : Nat) : Nat :=
  ((tget d.pools p).map (·.jobs.length)).getD 0 + (d.reads.filter fun r => r.pool == p && match r.purpose with
    | .rebuild | .move _ _ => true
    | _ => false).length

/-! ### Fill (R445) -/

/-- The strips at spare positions that are still to be copied onto a FILLING member (R445 item 2). -/
def Dev.toCopy (d : Dev) (p m : Nat) : List (Nat × Nat) :=
  match tget d.pools p, d.member p m with
  | some x, some y => ((d.liveStripes p).map fun e =>
      ((List.range (e.2.k + e.2.m)).filter fun o =>
        x.homePlace e.1 o == some m && x.place e.1 o != some m && !y.checked.contains (e.1, o)).map fun o => (e.1, o)).flatten
  | _, _ => []

/-- A strip is on its way to its other place. -/
def Dev.moving (d : Dev) (p m s : Nat) : Bool :=
  (d.reads.any fun r => r.stripe == s && match r.purpose with
    | .move n _ => n == m
    | _ => false) || d.drives.cmds.any fun e => e.2.what == .evacWrite p m (stripeRow s)

/-- A fill ends (R445 item 3): the relocation entry goes, the member is in service, and its activity is told (R444). -/
def fillEnd (p m : Nat) (d : Dev) : Dev :=
  let done := ((d.member p m).map (·.checked)).getD []
  let act := ((d.memberActivity p m).map (·.id)).getD 0
  let d := dropReloc p m (fun s o => done.contains (s, o)) d
  let d := changeMember p m 1 (fun y => { y with cause := 0, recover := false, checked := [], tried := [] }) d
  mediaEvent evActivity (act + 3 * 2 ^ 16) d

/-- The next step of a member's fill once no stripe can be rebuilt. -/
def fillStep (p m : Nat) (d : Dev) : Dev :=
  let waits := (d.liveStripes p).any fun e => (List.range (e.2.k + e.2.m)).any fun o =>
    e.2.missing.contains o && !d.divergentStripe e.1 && ((tget d.pools p).bind fun x => x.place e.1 o) == some m
  let todo := d.toCopy p m
  match todo.find? fun e => !d.moving p m e.1 && !d.divergentStripe e.1 with
  | some (s, o) => beginRead (StripeRead.make s 3 (.move m o)) d
  | none => if todo.isEmpty && !waits then fillEnd p m d else d

/-! ### Rebuild (R408 to R411) -/

/-- The sequencer's level and row are recorded as the mark to resume from (R410). -/
def recordMark (p : Nat) (d : Dev) : Dev :=
  recordPool p (d.modPool p fun x => { x with mark := (x.level, x.row), markAt := d.tbMedia, sinceMark := 0 })

/-- The sequencer's position moves to a stripe, and is recorded after 1,024 rows at the latest (R410). -/
def advanceRebuild (p s : Nat) (d : Dev) : Dev :=
  let level := d.stripeLevel s
  let row := stripeRow s
  let d := d.modPool p fun x => { x with
    level := level, row := row, slot := stripeSlot s, sinceMark := x.sinceMark + if x.level = level then row - x.row else row + 1 }
  d.when ((tget d.pools p).any fun x => decide (1024 ≤ x.sinceMark)) (recordMark p)

/-- The next rebuild job of a pool starts (R408, R410). -/
def rebuildNext (p : Nat) (d : Dev) : Dev :=
  match d.nextRebuild p with
  | some s =>
    let d := syncRebuild (advanceRebuild p s d)
    if d.beyondRepair s then loseStripe s 1 (d.outOrds s).length d
    else beginRead { StripeRead.make s 3 .rebuild with whole := true } d
  | none =>
    let d := if (d.rebuildWork p).isEmpty then syncRebuild (d.modPool p fun x => { x with level := 7, row := 0, slot := 0 }) else d
    d.each ((((tget d.pools p).map (·.members)).getD []).filter fun e => e.2.state == 5) fun d e => fillStep p e.1 d

/-- REBUILD_JOB_START (R408, R411, R445): one more job of the pool's sequencer. -/
def execRebuildJobStart (pool : Nat) (s : State) : Host.Outcome State Fault Refusal :=
  s.ok <| if !s.dev.mayRegelate pool || decide (256 ≤ s.dev.jobsOf pool) then s.dev else rebuildNext pool s.dev

/-- REBUILD_MARK_TIMER (R410): the sequencer's level and row are recorded. -/
def execRebuildMarkTimer (pool : Nat) (s : State) : Host.Outcome State Fault Refusal :=
  s.ok <|
    let d := s.dev
    match tget d.pools pool with
    | none => d
    | some x =>
      if !d.isHome pool || d.portsHalted || x.mark == (x.level, x.row) then d
      else recordMark pool d

/-- POOL_PLACEMENT_RETRY (R418): placement of what has no place is tried once more, and a record of the pool's state that no drive took is
written again. -/
def execPoolPlacementRetry (pool : Nat) (s : State) : Host.Outcome State Fault Refusal :=
  s.ok <|
    let d := s.dev
    match tget d.pools pool with
    | none => d
    | some x =>
      if !d.isHome pool || d.portsHalted then d
      else
        let again (y : Destage) : Destage := if y.pool = pool ∧ y.abandoned ∧ 3 ≤ y.attempts then { y with attempts := 2 } else y
        let d := if x.offline then { d with destages := d.destages.map again } else d
        if x.offlineRec then recordPool pool d else d

/-! ### Evacuation (R446) -/

/-- The first row from a mark on in which R363 places a strip on a member. -/
def Dev.nextEvacRow (d : Dev) (p m k : Nat) : Option Nat :=
  match tget d.pools p with
  | none => none
  | some x =>
    ((d.poolStripes p).filter fun e => decide (k ≤ stripeRow e.1) && !e.2.freed &&
      (List.range (e.2.k + e.2.m)).any fun o => x.homePlace e.1 o == some m).foldl (fun b e => match b with
        | none => some (stripeRow e.1)
        | some r => some (min r (stripeRow e.1))) none

/-- The copy mark of a member advances over rows that hold no strip of it. -/
def setMark (p m k : Nat) (d : Dev) : Dev :=
  remap p (fun _ _ => false) (fun x => { x with
    relocs := x.relocs.map fun r => if r.member = m then { r with mark := some k } else r }) d

/-- EVACUATION_ROW_COPY (R446): the next row of an evacuating member is copied; after the last one the member is EVACUATED. A stripe that is
being written is waited for. -/
def execEvacuationRowCopy (pool member : Nat) (s : State) : Host.Outcome State Fault Refusal :=
  s.ok <|
    let d := s.dev
    match tget d.pools pool with
    | none => d
    | some x => match x.relocs.find? fun r => r.member == member with
      | none => d
      | some r => match r.mark with
        | none => d
        | some k =>
          if !d.mayRegelate pool || x.mstate member != 6 then d
          else match d.nextEvacRow pool member k with
            | none => changeMember pool member 7 (fun y => { y with checked := [], tried := [] }) (setMark pool member x.rows d)
            | some row => match d.rowStrip pool member row with
              | none => d
              | some (t, o) =>
                if d.moving pool member t || (d.stripe t).any (·.reserved) then d
                else beginRead (StripeRead.make t 3 (.move member o)) (setMark pool member row d)

/-! ### Scrub (R386, R419 to R423) -/

/-- Work on a stripe that a resolve or scrub must wait for (R386). -/
def Dev.stripeBusy (d : Dev) (s : Nat) : Bool :=
  (d.rewriting s).isSome || (d.reads.any fun r => r.stripe == s && match r.purpose with
    | .scrub | .resolve _ _ _ => true
    | _ => false) || d.firn.recs.any fun e => !e.2.applied && e.2.mapDelta.any fun x => match x with
    | .clear t _ => t == s
    | _ => false

/-- Scrub may read the stripe: it is live, its objects are not given up, no strip of it lies on a HELD member, and nothing else works on it. -/
def Dev.mayScrub (d : Dev) (s : Nat) : Bool :=
  (d.stripe s).any (fun x => !x.reserved && !x.freed) && !(d.lostEntry s).any (fun l => l.state == 2) && !d.stripeBusy s &&
    match tget d.pools (stripePool s), d.stripe s with
    | some p, some st => !(List.range (st.k + st.m)).any fun o => (p.place s o).any fun m => p.mstate m == 3
    | _, _ => false

/-- A place of the sweep as one number. -/
def sweepKey (s : Nat) : Nat := stripeRow s * 128 + stripeSlot s

/-- The next live stripe of the sweep from a place on. -/
def Dev.nextSweep (d : Dev) (p k : Nat) : Option Nat :=
  ((d.liveStripes p).map (·.1)).foldl (fun b s =>
    if sweepKey s < k then b
    else match b with
      | none => some s
      | some t => if sweepKey s < sweepKey t then some s else b) none

/-- A stripe is read for scrub, or passed over. -/
def scrubOne (s : Nat) (d : Dev) : Dev :=
  if d.mayScrub s then beginRead { StripeRead.make s 3 .scrub with whole := true } d else d

/-- A pass ends (R419, R423). -/
def passEnd (p : Nat) (d : Dev) : Dev :=
  match tget d.pools p with
  | none => d
  | some x =>
    let d := d.modPool p fun x => { x with scrub := { x.scrub with passes := (x.scrub.passes + 1) % 65536, begun := false, row := 0, slot := 0 } }
    if !x.scrub.onDemand then d
    else
      let act := d.activity x.scrub.activity
      let d := stopScrub p d
      match act with
      | some a => dropActivity a d
      | none => d

/-- One stripe of scrub: the divergence log at the start of a pass, then the repair queue, then the sweep. -/
def scrubNext (p : Nat) (d : Dev) : Dev :=
  match tget d.pools p with
  | none => d
  | some x =>
    let redo := (d.xmap.divLog.map (·.stripe)).filter fun s => stripePool s == p
    let d := if x.scrub.begun then d
      else d.modPool p fun x => { x with scrub := { x.scrub with begun := true, start := d.tbMedia, redo := redo, row := 0, slot := 0 } }
    match tget d.pools p with
    | none => d
    | some x => match x.scrub.redo, x.repair with
      | s :: t, _ => scrubOne s (d.modPool p fun x => { x with scrub := { x.scrub with redo := t } })
      | [], s :: t => scrubOne s (d.modPool p fun x => { x with repair := t })
      | [], [] => match d.nextSweep p (x.scrub.row * 128 + x.scrub.slot) with
        | none => passEnd p d
        | some s =>
          let k := sweepKey s + 1
          scrubOne s (d.modPool p fun x => { x with scrub := { x.scrub with row := k / 128, slot := k % 128 } })

/-- SCRUB_STRIPE (R420 to R423): none while the pool holds rebuild work. -/
def execScrubStripe (pool : Nat) (s : State) : Host.Outcome State Fault Refusal :=
  s.ok <| if !s.dev.mayRegelate pool || !(s.dev.rebuildWork pool).isEmpty then s.dev else scrubNext pool s.dev

/-- SCRUB_LATE (R419): a pass did not end in time. -/
def execScrubLate (pool : Nat) (s : State) : Host.Outcome State Fault Refusal :=
  s.ok <|
    let d := s.dev
    match tget d.pools pool with
    | none => d
    | some x =>
      if !d.isHome pool || !x.scrub.begun then d
      else mediaEvent evScrubLate pool (d.modPool pool fun x => { x with scrub := { x.scrub with late := true } })

/-! ### Absence (R400 cause 01h) -/

/-- DRIVE_ABSENCE_TIMEOUT (R400, R623): a member's drive has been absent, or its link down, for 100 ms. -/
def execDriveAbsenceTimeout (pool member : Nat) (s : State) : Host.Outcome State Fault Refusal :=
  s.ok <|
    let d := s.dev
    if (d.member pool member).any (fun y => y.absentSince.isSome) && d.isHome pool && !d.drives.windows.contains pool then
      settle (declareOne pool member 1 d)
    else d

/-! ### DIVERGENCE_RESOLVE (R385, R386) -/

/-- Set bits of a mask below a bound. -/
def maskBits (v n : Nat) : List Nat := (List.range n).filter fun i => bit v i

/-- A resolve at the home twin: 0 trust data, 1 rebuild, 2 abandon. A stripe that is being worked on makes it wait. -/
def resolveStripe (action s map q tag : Nat) (d : Dev) : Dev :=
  match d.stripe s with
  | none => answer q tag stNotDivergent 0 d
  | some st =>
    let w := st.k + st.m
    let n := (maskBits map w).length
    if action = 1 ∧ (map = 0 ∨ 2 ^ w ≤ map ∨ st.m < n) then answer q tag stInvalidField 0 d
    else if action = 2 then
      let objs := (d.stripeObjs s).length
      let keep (o : ServiceOp) : ServiceOp := if o.q = q ∧ o.tag = tag then { o with step := objs } else o
      let d := loseStripe s 3 (d.outOrds s).length { (d.modCtx q tag fun c => { c with result := objs }) with
        maint := { d.maint with ops := d.maint.ops.map keep } }
      formClear (stripePool s) s st.seq (if q < noQueue then some (q, tag) else none) d
    else
      let erased := if action = 1 then (maskBits map w).map fun o => (o, 2) else []
      beginRead { StripeRead.make s 3 (.resolve action q tag) with erased := erased, whole := action == 1 } d

/-- The stripe is in the divergence log. -/
def Dev.inDivLog (d : Dev) (s : Nat) : Bool := d.xmap.divLog.any fun v => v.stripe == s

/-- Resolves that the other twin forwarded and that waited for work on their stripe begin (R386); the word kept with each holds its action
and ERASE_MAP. -/
def settleResolves (d : Dev) : Dev :=
  match d.maint.ops.find? fun o => o.op == 0xC2 && o.fwSlot == 1 && !d.stripeBusy o.member with
  | none => d
  | some o =>
    let begun (x : ServiceOp) : ServiceOp := if x = o then { x with fwSlot := 0 } else x
    let d := { d with maint := { d.maint with ops := d.maint.ops.map begun } }
    if !d.inDivLog o.member then answer o.q o.tag stNotDivergent 0 d
    else resolveStripe (o.start % 4) o.member (o.start / 4) o.q o.tag d

/-- A media context of an admin command that a record or a read completes. -/
def adminCtx (q tag op : Nat) (d : Dev) : Dev := openCtx ⟨q, tag, 0, 0, [], []⟩ (.varve op) 0 0 0 0 0 0 (0, 0, 0) d

/-- DIVERGENCE_RESOLVE (R385). While scrub or another resolve works on the stripe, the command stays as it is and is given again. -/
def execDivergenceResolve (q tag : Nat) (s : State) : Host.Outcome State Fault Refusal :=
  s.ok <| mediaAdmin [0xC2] q tag (fun _ c d =>
    let action := pktOpts c.pkt % 4
    let stripe := pktField c.pkt 48 8
    let map := pktField c.pkt 56 8
    if action = 3 ∨ (action ≠ 1 ∧ map ≠ 0) then failCmd q tag stInvalidField d
    else if !d.isHome (stripePool stripe) then
      (if d.inDivLog stripe then forward q tag [10, 0xC2, stripe, action + 4 * map, q, tag] [] d else failCmd q tag stNotDivergent d)
    else if d.stripeBusy stripe then d
    else if !d.inDivLog stripe then failCmd q tag stNotDivergent d
    else resolveStripe action stripe map q tag (crossCmd q tag (adminCtx q tag 0xC2 d))) s.dev

end Sys2Proof.Machine
end

