-- ==== Sys2Proof/Machine/Service.lean ====
section
/-! DEFINITION. DRIVE_SERVICE (R440 to R445): a member taken out of service and returned, a drive bound, and drive firmware. -/

namespace Sys2Proof.Machine

/-- The entry of a drive handle that is not stale (R620). -/
def Dev.byHandle (d : Dev) (h : Nat) : Option (Nat × Drive) :=
  ((d.drive (h % 1024)).filter fun v => v.gen == bits h 10 16 && bits h 26 6 == 0 && v.state != 0).map fun v => (h % 1024, v)

/-- The handle of an entry. -/
def Drive.handle (v : Drive) (i : Nat) : Nat := i + 1024 * v.gen

/-- A DRIVE_SERVICE operation as it reaches the home twin (R440): the operation, its activity, the drive's table entry here, bytes 56 to 63,
what the drive reported when it was looked at, whether its checks passed, and bytes of firmware. -/
structure ServiceReq where
  op : Nat
  act : Activity
  drive : Nat
  arg : Nat
  facts : Option DriveFacts
  good : Bool
  data : Bytes

/-- The member states that an operation accepts (R440). -/
def serviceStates (op : Nat) : List Nat :=
  match op with
  | 1 => [1, 2]
  | 2 => [3]
  | 3 => [3, 4, 0, 7]
  | 4 => [1, 2, 3, 5, 6, 7]
  | _ => [1, 2, 3]

/-- The kinds of activity that an operation belongs to (R440). -/
def serviceKinds (op : Nat) : List Nat := if op = 3 then [2] else if op ≤ 2 then [1, 2] else [1]

/-- An operation begins that ends with a later command. -/
def openOp (op p m fw q tag step : Nat) (d : Dev) : Dev :=
  { d with maint := { d.maint with ops := d.maint.ops ++ [⟨op, p, m, fw, q, tag, d.tbMedia, step⟩] } }

/-- Firmware Commit for a slot with the action that activates at once (R443). -/
def fwCommitNow (i slot q tag : Nat) (d : Dev) : Dev := issueNvme i true nvFwCommit (slot + 8 * 3) 3 (.fwCommit q tag) [] d

/-- The drive's configuration block names this pair and member. -/
def Dev.blockIs (d : Dev) (b : Option CfgBlock) (p m : Nat) : Bool :=
  b.any fun b => b.kind == 2 && b.pairId == d.rd TWN_PAIR_ID.PAIR_ID && b.pool == p && b.member == m

/-- The two reservation keys of the pair (R609). -/
def Dev.rkey (d : Dev) (side : Nat) : Nat := d.rd TWN_PAIR_ID.PAIR_ID / 2 * 2 + side

/-- A key of no module of this pair is registered on the drive (R610). -/
def Dev.foreignKeys (d : Dev) (keys : List Nat) : Bool := keys.any fun k => k != d.rkey 0 && k != d.rkey 1

/-- This module gives a drive it binds its queues (R625), registers its key on a drive it binds, and acquires the reservation where none is held (R610). -/
def reserve (i : Nat) (keys : List Nat) (d : Dev) : Dev :=
  let d := modDrive i (fun v => { v with registered := true, keys := keys }) (setUpQueues i d)
  let d := if keys.contains (d.rkey d.twinSide) then d else issueNvme i false nvRegister 0 3 .register (leBytes 8 0 ++ leBytes 8 (d.rkey d.twinSide)) d
  let d := if keys.isEmpty then issueNvme i false nvAcquire 0 3 .acquire (leBytes 8 (d.rkey d.twinSide) ++ leBytes 8 0) d else d
  askEvents i d

/-- Strips that lie on a member are not yet written to the drive that now fills it (R398). -/
def unwritten (p m : Nat) (d : Dev) : Dev :=
  match tget d.pools p with
  | none => d
  | some x =>
    let one (e : Nat × Stripe) : Nat × Stripe :=
      if stripePool e.1 ≠ p then e
      else (e.1, { e.2 with missing := (List.range (e.2.k + e.2.m)).filter fun o => e.2.missing.contains o || x.place e.1 o == some m })
    d.modMap fun y => { y with stripes := y.stripes.map one }

/-- A foreign drive is found (R610). -/
def markForeign (i : Nat) (d : Dev) : Dev := fault .media 0x0F i 3 false ((modDrive i (fun v => { v with state := 5 }) d).set DRV_STATUS.FOREIGN)

/-- ROWS of a pool is the smallest namespace among its members (R361, R613). -/
def syncRows (p : Nat) (d : Dev) : Dev :=
  let sizes := d.drives.table.filterMap fun e => if e.2.state = 4 ∧ e.2.pool = p then some (e.2.blocks - e.2.res) else none
  match sizes with
  | [] => d
  | n :: t => d.modPool p fun x => if x.rows = 0 then { x with rows := t.foldl min n } else x

/-- BIND (R444): the checks of the drive, and the binding. -/
def bindMember (r : ServiceReq) (q tag : Nat) (d : Dev) : Dev :=
  let p := r.act.pool
  let m := r.act.member
  match tget d.pools p, d.drive r.drive with
  | some x, some v =>
    let lbads := (r.facts.map (·.lbads)).getD v.lbads
    let blocks := (r.facts.map (·.blocks)).getD v.blocks
    let keys := (r.facts.map (·.keys)).getD v.keys
    let block := (r.facts.map (·.block)).getD v.block
    let mine := bit r.arg 0 && d.blockIs block p m
    let free := mine || !block.any fun b => b.kind == 2
    if r.facts.any (fun f => f.failed != 0) ∨ !(v.state == 3 || v.state == 6) ∨ lbads ≠ (if x.big then 14 else 12) ∨
        blocks < x.rows + (if lbads = 14 then 16384 else 65536) ∨ !free ∨ !r.good then finish q tag stInvalidField 0 d
    else if d.foreignKeys keys then finish q tag stInvalidField 0 (markForeign r.drive d)
    else
      let unbind (v : Drive) : Drive := { v with state := 3 }
      let d := match (d.member p m).bind (·.drive) with
        | some i => modDrive i unbind d
        | none => d
      let d := syncRows p (reserve r.drive keys (modDrive r.drive (fun v => { v with state := 4, pool := p, member := m, block := block }) d))
      let upd (y : PoolMember) : PoolMember := { y with
        drive := some r.drive, absentSince := none, pathLost := false, recover := mine, checked := [], tried := [] }
      let d := if (tget x.members m).isSome then d else d.modPool p fun x => { x with members := tput x.members m (PoolMember.make 0 0) }
      let d := activate r.act.id (restartSeq p (unwritten p m (changeMember p m 5 upd d)))
      finish q tag stSuccess 0 d
  | _, _ => finish q tag stInvalidField 0 d

/-- A DRIVE_SERVICE operation at the home twin of the member's pool (R440 to R444). -/
def serviceNow (r : ServiceReq) (q tag : Nat) (d : Dev) : Dev :=
  let p := r.act.pool
  let m := r.act.member
  let st := ((tget d.pools p).map fun x => x.mstate m).getD 0
  if !(serviceStates r.op).contains st ∨ (r.op ≠ 4 ∧ (d.serviceOp p m).isSome) then finish q tag stInvalidField 0 d
  else match r.op with
    | 1 => activate r.act.id (openOp 1 p m 0 q tag d.drives.next d)
    | 2 =>
      if r.facts.all (fun f => f.failed == 0 && d.blockIs f.block p m) && r.good then
        finish q tag stSuccess 0 (changeMember p m (if (d.member p m).any (·.former == 2) then 2 else 1) id d)
      else finish q tag stDiagFailed 0 (declareOne p m 8 d)
    | 3 => bindMember r q tag d
    | 4 => issueNvme r.drive true nvFwDownload (r.arg % 2 ^ 32 / 4) 3 (.fwDownload q tag) r.data d
    | _ =>
      let d := activate r.act.id (openOp 5 p m (r.arg % 8) q tag d.drives.next d)
      if st = 3 then fwCommitNow r.drive (r.arg % 8) q tag d else d

/-- The fields of a DRIVE_SERVICE packet are well formed (R440). -/
def serviceArgOk (op arg : Nat) : Bool :=
  match op with
  | 3 => decide (arg < 2)
  | 4 => decide (arg < 2 ^ 32) && arg % 4096 == 0
  | 5 => decide (1 ≤ arg) && decide (arg < 8)
  | _ => arg == 0

/-- A DRIVE_SERVICE command: the activity, the kind, the handle and the member are checked where the packet was received; the home twin acts on
the drive's NGUID (R608). -/
def driveService (op q tag : Nat) (facts : Option DriveFacts) (good : Bool) (data : Bytes) (d : Dev) : Dev :=
  mediaAdmin [0xC3] q tag (fun qu c d =>
    if pktField c.pkt 50 1 ≠ op then d
    else
      let d := d.when (op == 4) (readHost q qu c)
      let arg := pktField c.pkt 56 8
      match d.activity (pktField c.pkt 48 2) with
      | none => failCmd q tag stMaintUnknown d
      | some a =>
        if !(serviceKinds op).contains a.kind ∨ !serviceArgOk op arg then failCmd q tag stInvalidField d
        else match d.byHandle (pktField c.pkt 52 4) with
          | none => failCmd q tag stInvalidField d
          | some (i, v) =>
            if op ≠ 3 ∧ !(v.state == 4 && v.pool == a.pool && v.member == a.member) then failCmd q tag stInvalidField d
            else if d.isHome a.pool then serviceNow ⟨op, a, i, arg, facts, good, data⟩ q tag (crossCmd q tag d)
            else
              let ok := good && facts.all fun f => f.failed == 0
              forward q tag [10, 0xC3, op, a.id, v.nguid, arg, b2n ok, q, tag] data d) d

/-- RELEASE_MEMBER (R441). -/
def execReleaseMember (q tag : Nat) (s : State) : Host.Outcome State Fault Refusal :=
  s.ok <| driveService 1 q tag none true [] s.dev

/-- RETURN_MEMBER (R441): `facts` is what the drive shows and `good` that the trailers of 64 live strips pass. -/
def execReturnMember (q tag : Nat) (facts : DriveFacts) (good : Bool) (s : State) : Host.Outcome State Fault Refusal :=
  s.ok <| driveService 2 q tag (some facts) good [] s.dev

/-- BIND (R444): `facts` is what the drive shows. -/
def execBind (q tag : Nat) (facts : DriveFacts) (s : State) : Host.Outcome State Fault Refusal :=
  s.ok <| driveService 3 q tag (some facts) true [] s.dev

/-- FW_STAGE (R442): `data` is the buffer as the device read it (none: the read failed). -/
def execFwStage (q tag : Nat) (data : Option Bytes) (s : State) : Host.Outcome State Fault Refusal :=
  s.ok <| match data with
    | none => mediaAdmin [0xC3] q tag (fun qu c d =>
        if pktField c.pkt 50 1 = 4 then failCmd q tag stHostMemory (readHost q qu c d) else d) s.dev
    | some b => driveService 4 q tag none true b s.dev

/-- FW_ACTIVATE (R443). -/
def execFwActivate (q tag : Nat) (s : State) : Host.Outcome State Fault Refusal :=
  s.ok <| driveService 5 q tag none true [] s.dev

/-- MEMBER_HELD (R441, R443): the drive commands in flight to the member when it was released have ended. -/
def execMemberHeld (pool member : Nat) (s : State) : Host.Outcome State Fault Refusal :=
  s.ok <|
    let d := s.dev
    match d.serviceOp pool member, d.member pool member with
    | some o, some y =>
      let flying := y.drive.any fun i => d.drives.cmds.any fun e => e.2.drive == i && decide (e.1 < o.step)
      if flying || !(o.op == 1 || o.op == 5) || !(y.state == 1 || y.state == 2) then d
      else
        let d := changeMember pool member 3 id d
        if o.op = 1 then finish o.q o.tag stSuccess 0 (dropOp o.q o.tag d)
        else match y.drive with
          | some i => fwCommitNow i o.fwSlot o.q o.tag d
          | none => finish o.q o.tag stDiagFailed 0 (declareOne pool member 8 (dropOp o.q o.tag d))
    | _, _ => d

/-- FW_ACTIVATE_READY (R443): the drive is ready within 60 s, or not, and its block and trailers pass their checks, or not. -/
def execFwActivateReady (pool member : Nat) (ready good : Bool) (s : State) : Host.Outcome State Fault Refusal :=
  s.ok <|
    let d := s.dev
    match d.serviceOp pool member with
    | none => d
    | some o =>
      let open' := d.drives.cmds.any fun e => e.2.what == .fwCommit o.q o.tag
      if o.op ≠ 5 ∨ open' ∨ ((tget d.pools pool).map fun x => x.mstate member).getD 0 ≠ 3 then d
      else
        let d := dropOp o.q o.tag d
        if ready && good then finish o.q o.tag stSuccess 0 (changeMember pool member 1 id d)
        else finish o.q o.tag stDiagFailed 0 (declareOne pool member 8 d)

end Sys2Proof.Machine
end

