-- ==== Sys2Proof/Machine/Twin.lean ====
section
/-! DEFINITION. The pair (R517 to R531, R533 to R540, R553): a partner declared failed, failover, splits, witness blocks, and pools taken
over by this module. -/

namespace Sys2Proof.Machine

/-! ### Witness blocks (R532, R617) -/

/-- The bytes of a witness block with its trailer. -/
def witnessBytes (lbads : Nat) (b : WBlock) : Bytes :=
  driveBlock (padTo (2 ^ lbads) (leBytes 4 0x57A71C3E ++ [1] ++ leBytes 1 b.wstate ++ [0, 0] ++ leBytes 8 b.pairId ++ leBytes 8 b.epoch ++
    leBytes 8 b.time)) (leBytes 8 b.epoch ++ leBytes 8 b.pairId ++ leBytes 2 0 ++ leBytes 6 (2 ^ 42 * kindWitness)) (List.replicate 32 0)

/-- The drive that a witness designation names, where it is present (R619). -/
def Dev.witnessDrive (d : Dev) (w : Nat) : Option (Nat × Drive) :=
  match d.twin.witness[w]? with
  | none => none
  | some x => if x.nguid = 0 then none
    else d.drives.table.find? fun e => e.2.nguid == x.nguid && (e.2.state == 4 || e.2.state == 6)

/-- Witness blocks that count as designated. -/
def Dev.witnesses (d : Dev) : Nat := (d.twin.witness.filter (·.good)).length

/-- A witness designation changed; TWN_WITNESS follows (R553). -/
def modWitness (w : Nat) (f : Witness → Witness) (d : Dev) : Dev :=
  let l := (List.range 5).map fun i => (d.twin.witness[i]?).getD ⟨0, false, ⟨0, 0, 0, 0⟩⟩
  let d := d.modTwin fun t => { t with witness := l.zipIdx.map fun x => if x.2 = w then f x.1 else x.1 }
  d.wr TWN_WITNESS.DESIGNATED d.witnesses

/-- A fall or rise of the designated witnesses is posted (R619). -/
def witnessGood (w : Nat) (good : Bool) (d : Dev) : Dev :=
  if ((d.twin.witness[w]?).map (·.good)).getD false = good then d
  else let d := modWitness w (fun x => { x with good := good }) d; mediaEvent evWitness d.witnesses d

/-- The block last written or read of a witness (R532, R553). -/
def keepBlock (w : Nat) (b : WBlock) (d : Dev) : Dev :=
  (modWitness w (fun x => { x with block := b }) d |>.wr TWN_WITNESS.EPOCH b.epoch).wr TWN_WITNESS.WSTATE b.wstate

/-- The next block of a witness with a state. -/
def Dev.nextBlock (d : Dev) (w wstate : Nat) : WBlock :=
  let old := ((d.twin.witness[w]?).map (·.block)).getD ⟨0, 0, 0, 0⟩
  ⟨wstate, d.rd TWN_PAIR_ID.PAIR_ID, old.epoch + 1, d.tbMedia⟩

/-- A witness block is written (R530, R532). -/
def writeWitness (w wstate : Nat) (d : Dev) : Dev :=
  match d.witnessDrive w with
  | none => d
  | some (i, v) =>
    let b := d.nextBlock w wstate
    keepBlock w b (issueNvme i false nvWrite 2 0 (.witnessWrite w) (witnessBytes v.lbads b) d)

/-- A witness block is read back (R532). -/
def rereadWitness (w : Nat) (d : Dev) : Dev :=
  match d.witnessDrive w with
  | none => d
  | some (i, _) => issueNvme i false nvRead 2 0 (.witnessRead w) [] d

/-- A witness block passes its checks: the layout and trailer of R532 and R617, and CCHECK (R357). -/
def witnessGoodBytes (l pair : Nat) (b : Bytes) : Bool :=
  getLe b 0 4 == 0x57A71C3E && getLe b 4 1 == 1 && getLe b 8 8 == pair && getLe b (l + 8) 8 == pair &&
    getLe b (l + 16) 8 == 2 ^ 58 * kindWitness &&
    getLe b (l + 24) 8 == crc64 (b.take (l + 24) ++ getBytes b (l + 32) 32)

/-- A witness block as it was read: its contents are kept where it passes its checks, else it does not count as designated (R532, R619). -/
def witnessSeen (w : Nat) (b : Bytes) (d : Dev) : Dev :=
  let l := 2 ^ (((d.witnessDrive w).map (·.2.lbads)).getD 12)
  if witnessGoodBytes l (d.rd TWN_PAIR_ID.PAIR_ID) b then
    witnessGood w true (keepBlock w ⟨getLe b 5 1, getLe b 8 8, getLe b 16 8, getLe b 24 8⟩ d)
  else witnessGood w false d

/-- A witness block was written: while the pair is paired both twins read it (R532). -/
def witnessWritten (w : Nat) (d : Dev) : Dev :=
  if d.tstate ≠ 5 then d else rereadWitness w (snowSend .coord 3 ⟨0xFF, 0, 0, 0, [24, w], []⟩ d)

/-- WSTATE of this module as holder. -/
def Dev.ownState (d : Dev) : Nat := d.twinSide + 1

/-- Every witness is written with a state. -/
def writeWitnesses (wstate : Nat) (d : Dev) : Dev := d.each (List.range 5) fun d w => writeWitness w wstate d

/-! ### Pools taken over (R294, R305, R529, R540) -/

/-- The home twins of the defined pools set by a mask: bit p is 1 for Twin B. -/
def setHomes (mask : Nat) (d : Dev) : Dev :=
  syncHome { d with pools := d.pools.map fun (e : Nat × Pool) => (e.1, { e.2 with home := b2n (bit mask e.1) }) }

/-- The first COMMIT_SEQ that a new home twin assigns (R294). -/
def firstSeq (h : Nat) : Nat := (h / 2 ^ 24 + 3) * 2 ^ 24

/-- How far the records of a pool have their places in stripes, for a twin that did not lay them out: the objects located, and the sections
with the last of them. -/
def adoptRecs (p : Nat) (d : Dev) : Dev :=
  let adopt (r : FRec) : FRec :=
    if r.pool ≠ p ∨ r.seq = 0 then r
    else
      let n := (r.objects.takeWhile fun c => d.deadObj c || (tget d.xmap.objs (objKey c.id c.ordinal)).isSome).length
      { r with placed := n, sect := n == r.objects.length && !r.stripes.isEmpty && r.stripes.all d.released }
  d.modFirn fun f => { f with recs := f.recs.map fun (e : Nat × FRec) => (e.1, adopt e.2) }

/-- Records that wait for an assignment by the pool's new home twin, this module, in the order they were formed (R529 item 5), as far as
R295 lets it. -/
def assignMarked (p : Nat) (d : Dev) : Dev :=
  let marked := (d.firn.recs.filter fun e => e.2.pool == p && e.2.seq == 0).mergeSort fun a b => decide (a.2.order ≤ b.2.order)
  d.each marked fun d e => if d.ackFull p then d else assignNow e.1 d

/-- A compare that the former home twin of a pool let begin goes on under this module, which holds its blocks from now on; one that it had
not answered is asked for again (R85). -/
def takeLocks (p : Nat) (d : Dev) : Dev :=
  let cs := d.ctxs.filter fun c => c.kind == .compareWrite && (d.nsAny c.nsid).any fun n => n.pool == p
  let held := (cs.filter fun c => [1, 2, 3].contains c.status).map fun c => (c.q, c.tag, c.nsid, c.slba, c.nlb)
  (d.modFirn fun f => { f with locks := f.locks ++ held.filter fun l => !f.locks.contains l }).each (cs.filter fun c => c.status == 4)
    fun d c => d.modCtx c.q c.tag fun c => { c with status := 0 }

/-- A pool passes to this module: its sequence starts anew and marked records are assigned; stripes in flight are replayed by the caller. -/
def takePool (p : Nat) (d : Dev) : Dev :=
  let d := takeLocks p (d.modPool p fun x => { x with home := d.twinSide })
  let d := d.modFirn fun f => { f with
    next := tput f.next p (firstSeq (d.heldSeq p)), waiting := f.waiting.filter fun r => !(r.pool == p && r.seq == 0 && r.receiver != d.twinSide) }
  restartSeq p (assignMarked p (adoptRecs p d))

/-! ### Failover (R40, R42, R527 to R529) -/

/-- The state in which the partner is watched (R523, R526). -/
def Dev.inPair (d : Dev) : Bool := 3 ≤ d.tstate && d.tstate ≤ 5 && !d.twin.selfFailed

/-- A sideband word (R503). -/
def sbWord (code : Nat) : Nat := code + 16 * (15 - code)

/-- Open freeze groups of the failed partner: its member and LINK records are void, but for groups whose COMMIT record is held (R42, R328,
R529 item 2). -/
def voidPartner (d : Dev) : Dev :=
  let open' := d.firn.recs.filter fun e => e.2.receiver != d.twinSide && (e.2.member || e.2.rtype == rtLink) && !e.2.void &&
    !d.firn.recs.any fun c => c.2.rtype == rtCommit && sameGroup c.2 e.2
  d.each open' fun d e => if (d.recAt e.1).isSome then voidGroup e.2 (voidRecs e.2 d) else d

/-- A swap under way ends, and its ROLE_SWAP completes with 05h/03h (R540). -/
def endSwap (d : Dev) : Dev :=
  match d.twin.swap with
  | none => d
  | some x =>
    let d := (d.modTwin fun t => { t with swap := none }).clr TWN_STATUS.SWAP_BUSY
    match x.asker with
    | some (q, tag) => finish q tag stTwinUnavailable 0 d
    | none => d

/-- The fields of the failover event and of TWN_LAST_EVENT (R553, R772). -/
def failoverEvent (cause kind : Nat) (d : Dev) : Dev :=
  mediaEvent evFailover (cause + 2 ^ 8 * kind) (((lastEvent cause kind d).set TWN_STATUS.FAILOVER).bump TWN_CNT_FAILOVERS.COUNT 1)

/-- Messages of the partner not yet delivered are discarded (R529 item 1); of one that stays as a mirror only those that carry records for
assignment (R528). -/
def dropMessages (keep : Bool) (d : Dev) : Dev :=
  let stays (b : Option Bytes) : Bool := keep && !b.any fun x => getLe x 0 1 == 1 && getLe x 8 8 == 0
  d.modLink .snow fun k => { k with rx := { k.rx with inbox := k.rx.inbox.filter stays } }

/-- A failover from its opening to its close (R529). `keep` says that the partner stays as a mirror (R528). -/
def failover (cause kind : Nat) (keep : Bool) (d : Dev) : Dev :=
  let d := (endSwap (dropMessages keep d)).modTwin fun t => { t with declared := some (cause, d.tbMedia), race := none, breaks := [], pins := [] }
  let d := (d.emit (.sideband (sbWord 2))).wr TWN_STATUS.STATE (if keep then 4 else if d.snow.rx.lanes.isEmpty then 0 else 2)
  let d := d.modFirn fun f => { f with locks := f.locks.filter fun l => decide (l.1 < 2 ^ 32), parts := [] }
  let d := updateMode (voidPartner (fault .media 0x0E 0x20 cause true d))
  let mine := (d.pools.filter fun e => e.2.home != d.twinSide).map (·.1)
  let d := replayIntents (syncHome (d.each mine fun d p => takePool p d))
  let drives := (d.drives.table.filter fun e => e.2.state == 4 || e.2.state == 6).map (·.1)
  let d := d.modTwin fun t => { t with preempt := drives, cold := false }
  let d := if !keep then d else
    let todo := d.firn.recs.filter fun e => e.2.seq != 0 && e.2.ack.isNone
    d.each todo fun d e => sendRecord e.1 (d.modTwin fun t => { t with unacked := t.unacked ++ [(e.2.pool, e.2.seq)] })
  settle (withdrawPair (syncLedger (listOver (unanswered (failoverEvent cause kind (classAWindow d))))))

/-- A twin declares its partner failed (R526, R528): a mirror-only partner of its twin fences, every other twin fails over. -/
def declarePartner (cause : Nat) (d : Dev) : Dev :=
  if !d.inPair || d.twin.declared.isSome then d
  else if d.twin.mirrorOnly then fenceSelf cause d
  else failover cause 1 (cause == 1 && d.twin.partner.mirrorOnly) d

/-- A twin that takes itself as declared failed for a reason that has no cause code of R526: TWN_LAST_EVENT then holds a value that is not
stated. -/
def fenceFree (d : Dev) : Dev :=
  if d.twin.selfFailed then d else let (c, d) := d.draw; fenceSelf (c % 256) (endSwap d)

/-! ### Splits (R533, R534) -/

/-- The third success: the split is won, and the failover begins. Its cause is none of R526. -/
def winSplit (d : Dev) : Dev :=
  let (c, d) := (d.bump TWN_CNT_SPLITS_WON.COUNT 1).draw
  failover (c % 256) 2 false d

/-- A split not won (R533 item 5). -/
def loseSplit (d : Dev) : Dev := fenceFree (d.modTwin fun t => { t with bySplit := true, race := none })

/-- One attempt at a witness: a fused Compare and Write of the block kept and the next one with this side as holder. -/
def raceWitness (w : Nat) (d : Dev) : Dev :=
  match d.witnessDrive w, d.twin.witness[w]? with
  | some (i, v), some x =>
    issueNvme i false nvCompare 2 0 (.witnessRace w) (witnessBytes v.lbads x.block ++ witnessBytes v.lbads (d.nextBlock w d.ownState))
      (d.modTwin fun t => { t with race := t.race.map fun r => { r with flying := r.flying ++ [w] } })
  | _, _ => d

/-- Witnesses whose attempt is to be sent. -/
def Race.todo (r : Race) : List Nat := (List.range 5).filter fun w => !r.won.contains w && !r.lost.contains w && !r.flying.contains w

/-- TWN_STATUS.STATE after link loss (R519): DOWN where no lane is left. -/
def Dev.unlinked (d : Dev) : Nat := if d.snow.rx.lanes.isEmpty || d.snow.tx.lanes.isEmpty then 0 else 1

/-- The split procedure begins (R533, R534). -/
def split (d : Dev) : Dev :=
  let few := decide (d.witnesses < 5)
  let d := updateMode ((d.modTwin fun t => { t with race := some ⟨d.tbMedia, [], [], []⟩ }).wr TWN_STATUS.STATE d.unlinked)
  if few then (if d.twinSide = 0 then winSplit d else loseSplit d)
  else d.each (List.range 5) fun d w => raceWitness w d

/-- Link loss (R517): the sideband words of the last 4 µs decide. -/
def linkLoss (d : Dev) : Dev :=
  if !d.inPair then (if d.twin.selfFailed || d.tstate == 7 then d else updateMode (d.wr TWN_STATUS.STATE d.unlinked))
  else if d.twin.declared.isSome then updateMode (d.wr TWN_STATUS.STATE d.unlinked)
  else if d.twin.mirrorOnly then fenceFree d
  else if d.twin.sbWords.any fun e => [3, 5, 4, 6, 7].contains e.1 && decide (d.tbMedia ≤ e.2 + 4 * us) then declarePartner 8 d
  else split d

/-- A Fused Compare and Write succeeded (R533 item 4). -/
def raceWon (w : Nat) (d : Dev) : Dev :=
  match d.twin.race with
  | none => d
  | some r =>
    let r := { r with won := r.won ++ [w], flying := without r.flying w }
    let d := keepBlock w (d.nextBlock w d.ownState) (d.modTwin fun t => { t with race := some r })
    if 3 ≤ r.won.length then winSplit d else d

/-- A Fused Compare and Write met a compare failure (R533 item 5). -/
def raceLost (w : Nat) (d : Dev) : Dev :=
  match d.twin.race with
  | none => d
  | some r =>
    let r := { r with lost := r.lost ++ [w], flying := without r.flying w }
    let d := d.modTwin fun t => { t with race := some r }
    if 3 ≤ r.lost.length then loseSplit d else d

/-- LINK_LOSS_TIMEOUT (R517): no good frame for 4 µs on any lane. -/
def execLinkLossTimeout (s : State) : Host.Outcome State Fault Refusal := s.ok (linkLoss s.dev)

/-- WITNESS_RETRY (R533): 50 µs passed; attempts that timed out or could not be sent go again. -/
def execWitnessRetry (s : State) : Host.Outcome State Fault Refusal :=
  s.ok <| match s.dev.twin.race with
    | none => s.dev
    | some r => s.dev.each r.todo fun d w => raceWitness w d

/-- SPLIT_TIMEOUT (R533): 400 µs passed without three successes. -/
def execSplitTimeout (s : State) : Host.Outcome State Fault Refusal :=
  s.ok (if s.dev.twin.race.isSome then loseSplit s.dev else s.dev)

/-- WITNESS_TAKEOVER_WRITE (R530): the survivor of a failover is written as holder. -/
def execWitnessTakeoverWrite (s : State) : Host.Outcome State Fault Refusal :=
  s.ok (if s.dev.twin.declared.isSome && !s.dev.twin.selfFailed then writeWitnesses s.dev.ownState s.dev else s.dev)

/-- RESERVATION_PREEMPT (R530, R611): the partner's registration is preempted on a drive, or tried again. -/
def execReservationPreempt (drive : Nat) (s : State) : Host.Outcome State Fault Refusal :=
  s.ok <|
    let d := s.dev
    let flying := d.drives.cmds.any fun e => e.2.drive == drive && e.2.what == .preempt
    if !d.twin.preempt.contains drive || flying || !(d.drive drive).any (fun v => v.state == 4 || v.state == 6) then d
    else issueNvme drive false nvAcquire 1 0 .preempt (leBytes 8 (d.rkey d.twinSide) ++ leBytes 8 (d.rkey (1 - d.twinSide))) d

/-! ### The sideband (R503, R527) -/

/-- The state code that this module's sideband sends (R503). DEDUCED: where several apply, a dump, a fence, an activation and a mirror-only
partner go before TAKEOVER. -/
def Dev.sbCode (d : Dev) : Nat :=
  if d.firn.dumping.isSome then 5 else if d.twin.selfFailed then 4 else if d.twin.act.any (fun a => decide (2 ≤ a.step ∧ a.step < 5)) then 6
  else if d.twin.mirrorOnly then 7 else if d.twin.declared.isSome then 2 else 1

/-- SIDEBAND_SEND (R503). -/
def execSidebandSend (s : State) : Host.Outcome State Fault Refusal := s.ok (s.dev.emit (.sideband (sbWord s.dev.sbCode)))

/-- TAKEOVER is seen (R527); a mirror-only partner shows RESYNC from then on (R528). -/
def takeoverSeen (d : Dev) : Dev :=
  let first := d.twin.takeover.isNone
  let d := d.modTwin fun t => { t with takeover := some d.tbMedia }
  if d.twin.selfFailed then d
  else if d.twin.mirrorOnly then (if first ∧ d.tstate = 5 then updateMode (d.wr TWN_STATUS.STATE 4) else d)
  else match d.twin.declared with
    | some (_, t) => if d.twinSide = 1 ∧ d.tbMedia ≤ t + 4 * us then fenceFree d else d
    | none => if d.inPair || d.twin.race.isSome then fenceFree d else d

/-- SIDEBAND_WORD (R503, R526, R527, R543): a word whose halves match is acted on. -/
def execSidebandWord (cable word : Nat) (s : State) : Host.Outcome State Fault Refusal :=
  s.ok <|
    let d := s.dev
    let c := word % 16
    if word / 16 ≠ 15 - c ∨ 1 < cable then d
    else
      let d := (d.modTwin fun t => { t with
        sbs := tput t.sbs cable (c, d.tbMedia), sbWords := (c, d.tbMedia) :: t.sbWords.filter fun e => decide (d.tbMedia ≤ e.2 + 4 * us), partner := { t.partner with
        mirrorOnly := if c = 7 then true else if c = 1 then false else t.partner.mirrorOnly } }).wr TWN_PEER.SB_STATE c
      match c with
      | 2 => takeoverSeen d
      | 3 => declarePartner 2 d
      | 5 => declarePartner 2 d
      | 6 => if d.tstate = 5 then withdrawPair (syncLedger (updateMode (d.wr TWN_STATUS.STATE 2))) else d
      | _ => d

/-- SIDEBAND_SILENT (R503): no valid word for 2 µs. -/
def execSidebandSilent (cable : Nat) (s : State) : Host.Outcome State Fault Refusal :=
  s.ok <|
    let d := s.dev.modTwin fun t => { t with sbs := tdel t.sbs cable }
    d.wr TWN_PEER.SB_STATE ((d.twin.sbs.head?.map (·.2.1)).getD 0)

/-! ### Chains, ECHO and the watch (R518, R523 to R526) -/

/-- A chain break (R524, R525): ACKs of the pool are withheld and the self-check starts. -/
def chainBreak (p : Nat) (d : Dev) : Dev :=
  if d.twin.breaks.contains p then d
  else (d.modTwin fun t => { t with breaks := t.breaks ++ [p], selfCheck := some d.tbMedia, selfDone := false }).set TWN_STATUS.CHAIN_BREAK
    |>.bump TWN_CNT_CHAIN_BREAK.COUNT 1

/-- The CHAIN of a COMMIT_SEQ of a pool, where it is kept (R524). -/
def Dev.chainAt (d : Dev) (p seq : Nat) : Option Bytes :=
  match (d.slotOf p seq).bind d.recAt with
  | some r => some r.chain
  | none => (((tget d.twin.chains p).getD []).find? fun e => e.1 == seq).map (·.2)

/-- A CHAIN that arrived is compared with the one recomputed after the next lower COMMIT_SEQ (R524). -/
def checkChain (r : FRec) (d : Dev) : Dev :=
  match d.chainAt r.pool (r.seq - 1) with
  | none => d
  | some c => if chainNext c r = r.chain then d else chainBreak r.pool d

/-- HEALTH of this module's ECHO (R523). -/
def Dev.health (d : Dev) : Nat :=
  b2n d.twin.selfOk + 2 * b2n (d.firn.waiting.any fun r => r.seq != 0) + 4 * d.rd FRN_STATUS.DUMP_READY

/-- ECHO_SEND (R523). -/
def execEchoSend (s : State) : Host.Outcome State Fault Refusal :=
  s.ok <|
    let d := s.dev
    if d.tstate < 2 ∨ 5 < d.tstate then d
    else
      let pools := List.range 8
      let chain (p : Nat) : Bytes := ((((tget d.twin.chains p).getD []).find? fun e => e.1 == d.appliedSeq p).map (·.2)).getD []
      snowSend .echo 0 ⟨0xFF, 0, 0, 0, [d.health, d.snow.rx.lastSent, d.snow.rx.lastGood] ++ pools.map d.appliedSeq,
        (pools.map fun p => padTo 16 (chain p)).flatten⟩ d

/-- ECHO (R518, R523 to R526): its operands are HEALTH, ECHO_TB, RECV_TB and the pools' SEQ; its bytes the CHAIN values. -/
def execEcho (msg : Msg) (s : State) : Host.Outcome State Fault Refusal :=
  snowTurn .echo msg s fun s => s.ok <|
    let d := s.dev
    let a (i : Nat) : Nat := msg.args.getD i 0
    let sent := d.snow.rx.lastSent
    let off : Int := (((a 2 : Int) - (a 1 : Int)) + ((sent : Int) - (d.tbMedia : Int))) / 2
    let d := d.modTwin fun t => { t with
      offs := if a 1 = 0 then t.offs else t.offs ++ [off], partner := { t.partner with health := a 0, echoAt := some d.tbMedia } }
    let d := updateMode d
    if !d.inPair then d
    else
      let d := d.each (List.range 8) fun d p =>
        let theirs := getBytes msg.data (16 * p) 16
        match ((tget d.twin.chains p).getD []).find? fun e => e.1 == a (3 + p) with
        | some e => if a (3 + p) = 0 ∨ e.2 = theirs then d else chainBreak p d
        | none => d
      if d.twin.breaks.isEmpty || !d.twin.selfDone || !d.twin.selfOk then d
      else if !bit (a 0) 0 then declarePartner 3 d
      else if d.twin.selfCheck.any fun t => decide (t + 4 * us ≤ d.tbMedia) then declarePartner 4 d
      else d

/-- ECHO_TIMEOUT (R526): no ECHO for 8 µs while frames arrive. -/
def execEchoTimeout (s : State) : Host.Outcome State Fault Refusal :=
  s.ok <|
    let d := s.dev
    if !d.twin.breaks.isEmpty && d.twin.selfDone && d.twin.selfOk then declarePartner 3 d else declarePartner 6 d

/-- RECORD_ACK_TIMEOUT (R526 cause 07h): a record unacknowledged for 50 µs while the partner does not wait for space. -/
def execRecordAckTimeout (pool seq : Nat) (s : State) : Host.Outcome State Fault Refusal :=
  s.ok <|
    let d := s.dev
    let waits := d.twin.unacked.contains (pool, seq) ||
      d.firn.recs.any fun e => e.2.pool == pool && e.2.seq == seq && e.2.receiver == d.twinSide && e.2.ack.isNone
    if waits && !bit d.twin.partner.health 1 then declarePartner 7 d else d

/-- SELF_CHECK_END (R525): the outcome of the self-check. -/
def execSelfCheckEnd (ok : Bool) (s : State) : Host.Outcome State Fault Refusal :=
  s.ok <|
    let d := s.dev
    if d.twin.selfCheck.isNone || d.twin.selfDone then d
    else
      let d := d.modTwin fun t => { t with selfOk := ok, selfDone := true }
      if ok then d else fenceFree (d.emit (.sideband (sbWord 3)))

/-- TB_OFFSET_UPDATE (R518): the mean of the last 1 ms. -/
def execTbOffsetUpdate (s : State) : Host.Outcome State Fault Refusal :=
  s.ok <|
    let d := s.dev
    let l := d.twin.offs
    if l.isEmpty then d
    else (d.modTwin fun t => { t with offs := [] }).wr TWN_TB_OFFSET.OFFSET (toBits 64 (l.foldl (· + ·) 0 / (l.length : Int)))

/-! ### Reports of the partner (R269, R382, R383, R401) -/

/-- REPORT_FAULT_NOTICE (R269, R526): the partner's media half is in peer down. Its record's code does not cross (a free value). -/
def execReportFaultNotice (source time : Nat) (s : State) : Host.Outcome State Fault Refusal :=
  inTurn .snow .report none s fun s => s.ok <|
    let (c, d) := s.dev.draw
    declarePartner 1 (report .media source (c % 65536) (srcId .media 0x0E 0x20) time true false d)

/-- A message names no pool of the pair, or a stripe that is not of its pool (R510). -/
def Dev.notOfPool (d : Dev) (pool stripe : Nat) : Bool := (tget d.pools pool).isNone || stripePool stripe != pool

/-- REPORT_PATH_LOSS (R401): the other twin lost its path to a member; no member state changes. -/
def execReportPathLoss (pool member : Nat) (s : State) : Host.Outcome State Fault Refusal :=
  inTurn .snow .report none s fun s => s.ok <|
    let d := s.dev
    if (d.member pool member).isNone then declarePartner 5 d else if d.isHome pool then memberEvent pool member 2 d else d

/-- REPORT_DIVERGENT_STRIPE (R383): the home twin writes the DIVERGE delta. -/
def execReportDivergentStripe (pool stripe cause synd : Nat) (agree : Bool) (s : State) : Host.Outcome State Fault Refusal :=
  inTurn .snow .report none s fun s => s.ok <|
    let d := s.dev
    if d.notOfPool pool stripe then declarePartner 5 d
    else if d.isHome pool && (d.stripe stripe).isSome then markDivergent stripe cause synd agree d else d

/-- REPORT_LOCATED_STRIP (R382): the home twin examines the stripe again, ahead of its sweep. -/
def execReportLocatedStrip (pool stripe : Nat) (s : State) : Host.Outcome State Fault Refusal :=
  inTurn .snow .report none s fun s => s.ok <|
    let d := s.dev
    if d.notOfPool pool stripe then declarePartner 5 d else if d.isHome pool && (d.stripe stripe).isSome then addRepair stripe d else d

end Sys2Proof.Machine
end

