-- ==== Sys2Proof/Machine/TwinLink.lean ====
section
/-! DEFINITION. Frames and link-control frames that arrive on either link (R254 to R260, R505, R506), and the lanes of the Snowbridge
(R513 to R517, R519). -/

namespace Sys2Proof.Machine

/-! ### Losing and regaining lanes of the Snowbridge -/

/-- DEGRADED is set and the event posted (R514). -/
def snowDegraded (d : Dev) : Dev :=
  let d := syncSnow (d.set TWN_STATUS.DEGRADED)
  mediaEvent evSnowbridge d.snowEventData d

/-- Every lane of this twin is dropped (R513). DEDUCED: those it transmits on as well as those it receives on. -/
def dropLanes (d : Dev) : Dev :=
  let d := d.modLink .snow fun k => { k with
    tx := { k.tx with lanes := [] }, rx := { k.rx with lost := once (k.rx.lost ++ k.rx.lanes), lanes := [] } }
  linkLoss (snowDegraded d)

/-- Losses of a lane within the last hour (R516). -/
def Dev.lossTimes (d : Dev) (lane : Nat) : List Nat :=
  ((tget d.twin.laneLosses lane).getD []).filter fun t => decide (d.tbMedia < t + 3600 * 1000 * ms)

/-- The receiver declares a lane of the Snowbridge lost (R514): LANE_DOWN goes out on every other lane, the width falls, and the eighth
loss within an hour parks the lane (R516). -/
def snowLaneLost (lane : Nat) (d : Dev) : Dev :=
  let r := d.snow.rx
  if !r.lanes.contains lane then d
  else
    let d := d.modLink .snow fun k => { k with rx := { k.rx with
      lanes := without k.rx.lanes lane, lost := insertSorted k.rx.lost lane, locked := without k.rx.locked lane } }
    let times := d.tbMedia :: d.lossTimes lane
    let d := d.modTwin fun t => { t with laneLosses := tput t.laneLosses lane times }
    let d := d.when (decide (8 ≤ times.length)) fun d => d.putBit TWN_LANES.PARKED lane true
    let d := fault .media 0x0E lane 0x11 false (d.bump TWN_CNT_LANE_LOST.COUNT 1)
    let d := snowDegraded (linkControl .snow .laneDown (leBytes 1 lane ++ leBytes 4 r.next) d)
    if d.snow.rx.lanes.isEmpty then linkLoss d else d

/-- SNOWBRIDGE_LANE_LOST (R514): a lane met one of the three cases; `uncorrectable` codewords were met on it. -/
def execSnowbridgeLaneLost (lane uncorrectable : Nat) (s : State) : Host.Outcome State Fault Refusal :=
  s.ok (snowLaneLost lane (s.dev.bump TWN_CNT_FEC_UNCORR.COUNT uncorrectable))

/-- The first lane that trains takes the link out of DOWN; both directions then count their frames from 0 (R247, R519). -/
def leaveDown (d : Dev) : Dev :=
  if d.tstate ≠ 0 then d
  else (d.modLink .snow fun k => { k with
      tx := { k.tx with seq := 0, msg := 0, queue := [], retry := [], stopped := false },
      rx := { k.rx with next := 0, reorder := [], part := [], again := [] } }).wr TWN_STATUS.STATE 1

/-- A receive lane is in service again (R516): its transmitter is told by LANE_UP. -/
def snowLaneBack (lane : Nat) (d : Dev) : Dev :=
  let d := (leaveDown d).modLink .snow fun k => { k with rx := { k.rx with
    lanes := insertSorted k.rx.lanes lane, lost := without k.rx.lost lane, locked := insertSorted k.rx.locked lane,
    retraining := without k.rx.retraining lane } }
  linkControl .snow .laneUp (leBytes 1 lane ++ leBytes 1 lane) (syncSnow d)

/-- LANE_AUTO_RETRAIN (R516): a lost lane that is not parked regained signal. -/
def execLaneAutoRetrain (lane : Nat) (s : State) : Host.Outcome State Fault Refusal :=
  s.ok <|
    let d := s.dev
    if d.is TWN_CFG.AUTO_RETRAIN && d.snow.rx.lost.contains lane && !bit (d.rd TWN_LANES.PARKED) lane then snowLaneBack lane d else d

/-- LANE_RETRY of the Snowbridge: every lost and parked lane is to be retrained (R516, R548). -/
def twnLaneRetry (d : Dev) : Dev :=
  let d := (d.wr TWN_LANES.PARKED 0).modTwin fun t => { t with laneLosses := [] }
  d.modLink .snow fun k => { k with rx := { k.rx with retraining := k.rx.lost } }

/-- TWN_LANE_RETRY (R516, R546, R548). -/
def execTwnLaneRetry (path : Path) (s : State) : Host.Outcome State Fault Refusal :=
  s.ok (if mediaWriter path then twnLaneRetry s.dev else s.dev)

/-- SNOWBRIDGE_LANE_TRAINED (R519): a lane trains in both directions. A lost lane comes back only once it was to be retrained. -/
def execSnowbridgeLaneTrained (lane : Nat) (s : State) : Host.Outcome State Fault Refusal :=
  s.ok <|
    let d := s.dev
    if 16 ≤ lane ∨ (d.snow.rx.lost.contains lane ∧ !d.snow.rx.retraining.contains lane) then d
    else
      let d := snowLaneBack lane d
      pumpAll .snow (syncSnow (d.modLink .snow fun k => { k with tx := { k.tx with lanes := insertSorted k.tx.lanes lane } }))

/-! ### Link-control frames of the peer -/

/-- A frame was replayed 8 times without acknowledgement (R255, R506). -/
def replayLimit (l : LinkEnd) (d : Dev) : Dev :=
  match l with
  | .sch h => fatalSch h 2 d
  | .snow => linkLoss d

/-- What arrives on a lane that was declared lost is discarded (R258), and so is what reaches a half in peer down (R264, R265) or a host
half whose receiver the Nunatak halted (R774). -/
def Dev.deaf (d : Dev) (l : LinkEnd) (lane : Nat) : Bool :=
  (d.link l).rx.lost.contains lane || (match l with
    | .sch h => d.is (SCH_STATUS.PEER_DOWN h) || (h == .host && (d.pw .host).halted)
    | .snow => false)

/-- NAK (R255): the named frames are replayed ahead of new frames. -/
def execNak (link : LinkEnd) (lane : Nat) (seqs : List Nat) (s : State) : Host.Outcome State Fault Refusal :=
  s.ok <|
    if s.dev.deaf link lane then s.dev
    else
      let (d, limit) := replayFrames link (fun f => seqs.contains f.seq) s.dev
      if limit then replayLimit link d else d

/-- The transmitter of the Snowbridge drops a lane (R514): WIDTH tells the new width, and what it placed there is replayed. -/
def snowLaneDown (lane : Nat) (d : Dev) : Dev :=
  if !d.snow.tx.lanes.contains lane then d
  else
    let d := d.modLink .snow fun k => { k with tx := { k.tx with lanes := without k.tx.lanes lane } }
    let d := d.bump TWN_CNT_LANE_LOST.COUNT 1
    let w := d.snow.tx.lanes.length
    if w = 0 then linkLoss (snowDegraded d)
    else
      let d := linkControl .snow .width (leBytes 1 w ++ leBytes 4 d.snow.tx.seq) d
      let (d, limit) := replayFrames .snow (fun f => f.lane == lane) d
      let d := snowDegraded d
      if limit then linkLoss d else d

/-- LANE_DOWN (R258, R260, R514). -/
def execLaneDown (link : LinkEnd) (lane : Nat) (s : State) : Host.Outcome State Fault Refusal :=
  s.ok <| match link with
    | .sch h =>
      if s.dev.is (SCH_STATUS.PEER_DOWN h) then s.dev
      else
        let (d, limit) := schLaneDown h lane s.dev
        if limit then replayLimit link d else d
    | .snow => snowLaneDown lane s.dev

/-- LANE_UP (R258, R259, R516): on the Snowbridge the lane joins the rotation and WIDTH tells the new width. -/
def execLaneUp (link : LinkEnd) (logical lane : Nat) (s : State) : Host.Outcome State Fault Refusal :=
  s.ok <|
    let d := s.dev
    match link with
    | .sch h =>
      if d.is (SCH_STATUS.PEER_DOWN h) || !(d.schEnd h).tx.mapped.contains (logical, lane) then d else schLaneUp h lane d
    | .snow =>
      if d.snow.tx.lanes.contains lane ∨ 16 ≤ lane ∨ logical ≠ lane then d
      else
        let d := d.modLink .snow fun k => { k with tx := { k.tx with lanes := insertSorted k.tx.lanes lane } }
        let d := linkControl .snow .width (leBytes 1 d.snow.tx.lanes.length ++ leBytes 4 d.snow.tx.seq) d
        pumpAll .snow (syncSnow d)

/-- WIDTH (R256, R260, R506): the peer's new width, within the bounds of its link. -/
def execWidth (link : LinkEnd) (width first : Nat) (s : State) : Host.Outcome State Fault Refusal :=
  s.ok <|
    let ok : Bool := match link with
      | .sch h => decide (12 ≤ width ∧ width ≤ 18) && !s.dev.is (SCH_STATUS.PEER_DOWN h)
      | .snow => decide (1 ≤ width ∧ width ≤ 16)
    if ok ∧ first < 2 ^ 32 then s.dev.modLink link fun k => { k with rx := { k.rx with width := width } } else s.dev

/-! ### Frames -/

/-- What a complete message asks beyond its own command (R264, R267, R510, R513). A frame beyond the reorder buffer of the Snowbridge is
discarded. -/
def afterMessage (l : LinkEnd) (e : RxEnd) (d : Dev) : Dev :=
  match l, e with
  | _, .fine => d
  | .sch h, .overrun => fatalSch h 4 d
  | .sch h, .invalid => rejectSch h d
  | .sch _, .linkLoss => d
  | .snow, .overrun => d
  | .snow, .invalid => declarePartner 5 d
  | .snow, .linkLoss => dropLanes d

/-- The check result of a frame joins the last 64 of its lane; the answer tells that 4 of them failed (R258). -/
def noteCheck (l : LinkEnd) (lane : Nat) (bad : Bool) (d : Dev) : Dev × Bool :=
  let h := (bad :: (tget (d.link l).rx.hist lane).getD []).take 64
  (d.modLink l fun k => { k with rx := { k.rx with hist := tput k.rx.hist lane h } }, decide (4 ≤ (h.filter id).length))

/-- A frame that failed its check is discarded and named in a NAK (R255); the fourth failure in 64 frames loses a lane of the Schrund
(R258). -/
def badFrame (l : LinkEnd) (lane : Nat) (f : Bytes) (d : Dev) : Dev :=
  let (d, four) := noteCheck l lane true d
  let d := linkControl l .nak (leBytes 4 (getLe f 4 4)) d
  match l with
  | .sch h => (schCount SCH_CNT_FCHECK.COUNT 1 d).when four (schLaneLost h lane true)
  | .snow => d

/-- A frame with a good check (R253, R254, R518): it acknowledges, and a message frame is delivered in its order. Idle and link-control
frames belong to no message; what a link-control frame asks is its own command. -/
def goodFrame (l : LinkEnd) (lane : Nat) (f : Bytes) (d : Dev) : Dev :=
  let now := d.linkTb l
  let sent := match l with
    | .sch _ => 0
    | .snow => getLe f 16 8
  let d := (noteCheck l lane false d).1
  let d := d.modLink l fun k => { k with rx := { k.rx with lastGood := now, lastSent := sent } }
  let d := ackFrames l (getLe f 8 4) d
  let c := getLe f 0 1
  if c = 0 ∨ c = 15 then d
  else let (d, e) := messageFrame l f d; afterMessage l e d

/-- FRAME_RECEIVED (R254, R255, R505, R506). -/
def execFrameReceived (link : LinkEnd) (lane : Nat) (frame : Bytes) (s : State) : Host.Outcome State Fault Refusal :=
  s.ok <|
    if s.dev.deaf link lane then s.dev
    else if frameGood link frame then goodFrame link lane frame s.dev
    else badFrame link lane frame s.dev

end Sys2Proof.Machine
end

