-- ==== Sys2Proof/Machine/Drives.lean ====
section
/-! DEFINITION. The drive fabric (chapter 12): drives that come and go, the start-up windows, completions and timeouts of NVMe commands, the
witness designations, and the jobs of the Moraine engines (R388). -/

namespace Sys2Proof.Machine

/-! ### The drive table (R605, R620 to R623, R629 to R632) -/

/-- DRV_STATUS shows the drive table (R636); a sub-link is up while a drive stands behind it. -/
def syncDrives (d : Dev) : Dev :=
  let here := d.drives.table.filter fun e => e.2.state != 0
  (d.wr DRV_STATUS.DRIVES here.length).wr DRV_STATUS.PORT_UP (here.foldl (fun m e => setBit m e.2.port true) 0)

/-- The event of an entry (R772). -/
def driveEvent (i : Nat) (d : Dev) : Dev :=
  match d.drive i with
  | none => d
  | some v => mediaEvent evDrive (v.handle i + 2 ^ 32 * v.state) d

/-- An entry that a newly found drive takes; `gen` is the GEN of the handle (R620), `window` the memory window assigned (R603). -/
def Drive.found (port sub speed width gen now : Nat) (path : List Nat) (window : Nat) : Drive :=
  ⟨1, 0, port, sub, speed, width, 0, 0, gen, 0, 0, 0, false, false, 0, 0, none, [], false, false, now, path, window, 0, none⟩

/-! ### The segments (R603, R604) -/

/-- A path before another one in the order of a depth-first walk: the shorter first where it leads to the other. -/
def pathBefore : List Nat → List Nat → Bool
  | [], [] => false
  | [], _ :: _ => true
  | _ :: _, [] => false
  | a :: s, b :: t => decide (a < b) || (a == b && pathBefore s t)

/-- A bridge at its place among those of its segment. -/
def addBridge (b : List Nat) : List (List Nat) → List (List Nat)
  | [] => [b]
  | x :: t => if x = b then x :: t else if pathBefore b x then b :: x :: t else x :: addBridge b t

/-- The bridges on the way to a drive: its sub-link, then for each switch its upstream port and the downstream port that leads on. -/
def bridgesTo (sub : Nat) (path : List Nat) : List (List Nat) :=
  let all := sub :: (path.map fun p => [0, p]).flatten
  (List.range all.length).map fun n => all.take (n + 1)

/-- The bus number behind a bridge (R603): the bridges of a segment are numbered from 1 in the order of a depth-first walk. -/
def Dev.busBehind (d : Dev) (port : Nat) (bridge : List Nat) : Nat := ((tget d.drives.bridges port).getD []).findIdx (· == bridge) + 1

/-- Segment and bus number of a drive: root port p forms segment p (R603). -/
def Dev.busOf (d : Dev) (i : Nat) : Option (Nat × Nat) :=
  (d.drive i).map fun v => (v.port, d.busBehind v.port ((bridgesTo v.sub v.path).getLastD []))

/-- The downstream ports on the way to a drive, each with its sub-link and the ports above it. -/
def downstreamTo (sub : Nat) (path : List Nat) : List (List Nat) := (List.range (path.length + 1)).map fun n => sub :: path.take n

/-- The way to a drive is enumerated (R603, R604): its bridges join the segment, and link and presence reports are enabled on each downstream
port on it. DEDUCED: each supports them, since the drive's coming was reported. -/
def enumeratePath (port sub : Nat) (path : List Nat) (d : Dev) : Dev :=
  let old := (tget d.drives.bridges port).getD []
  let d := d.modDrv fun v => { v with bridges := tput v.bridges port ((bridgesTo sub path).foldl (fun l b => addBridge b l) old) }
  d.each (downstreamTo sub path) fun d p =>
    if d.drives.watched.contains (port, p) then d
    else (d.modDrv fun v => { v with watched := v.watched ++ [(port, p)] }).emit (.watchPort port p)

/-- Sub-links of a root port (R602). -/
def Dev.subLinks (d : Dev) (port : Nat) : Nat := 2 ^ d.rd (DRV_PORT_CFG.BIF port)

/-- DRIVE_INSERTED (R603 to R605, R631): the lowest entry that is free takes the drive, within the limits of R605, two levels of switches among
them. A drive left unenumerated has no handle, and what the event shows in its place is not stated; nor is the place of its memory window. -/
def execDriveInserted (port : Nat) (place : DrivePlace) (speed width : Nat) (s : State) : Host.Outcome State Fault Refusal :=
  s.ok <|
    let d := s.dev
    let sub := place.sub
    let path := place.path
    let here := d.drives.table.filter fun e => e.2.state != 0
    if 8 ≤ port ∨ d.subLinks port ≤ sub then d
    else if 2 < path.length ∨ 1024 ≤ here.length ∨ 128 ≤ (here.filter fun e => e.2.port == port).length then
      let (v, d) := d.draw
      mediaEvent evDrive (v % 2 ^ 32) (d.set DRV_STATUS.TABLE_FULL)
    else
      let i := lowestFree (here.map (·.1)) 1024 0
      let gen := match d.drive i with
        | some v => (v.gen + 1) % 65536
        | none => 0
      let (w, d) := (enumeratePath port sub path d).draw
      let d := d.modDrv fun v => { v with
        table := tput v.table i (Drive.found port sub speed width gen d.tbMedia path w),
        trainedAt := if (tget v.trainedAt port).isSome then v.trainedAt else tput v.trainedAt port d.tbMedia }
      syncDrives d

/-- A drive that a requirement of R606 makes unusable. -/
def unusable (i reason : Nat) (d : Dev) : Dev :=
  let d := modDrive i (fun v => { v with state := 2, reason := reason }) d
  driveEvent i (fault .media 0x0F i 4 true (d.set DRV_STATUS.UNUSABLE))

/-- DRIVE_READY_TIMEOUT (R606 reason 07h, R631). -/
def execDriveReadyTimeout (index : Nat) (s : State) : Host.Outcome State Fault Refusal :=
  s.ok (if (s.dev.drive index).any fun v => v.state == 1 then unusable index 7 s.dev else s.dev)

/-- The first requirement of R606 that what a drive reports does not meet; 0 where it meets all. -/
def factsReason (f : DriveFacts) : Nat :=
  let res := if f.lbads = 14 then 16384 else 65536
  let own := if f.lbads ≠ 12 ∧ f.lbads ≠ 14 then 3 else if f.blocks < res + 1024 then 6 else 0
  if f.failed = 0 then own else if own = 0 then f.failed else min f.failed own

/-- The members that a configuration block records, on the members known here (R615). -/
def membersOf (b : CfgBlock) (x : Pool) : Tab PoolMember :=
  (List.range x.d).filterMap fun m =>
    let e := b.members.getD m (0, 0)
    match tget x.members m with
    | some y => some (m, { y with state := e.1, cause := e.2 })
    | none => if e.1 = 0 then none else some (m, PoolMember.make e.1 e.2)

/-- At start-up the newest configuration block of a pool tells its members, relocation entries and marks, the witnesses and the window
(R615, R621 to R623). DEDUCED: the first block read gives PAIR_ID, which no register keeps over a cold reset. -/
def learnBlock (b : CfgBlock) (d : Dev) : Dev :=
  if d.drives.started then d
  else
    let d := if d.rd TWN_PAIR_ID.PAIR_ID = 0 then d.wr TWN_PAIR_ID.PAIR_ID b.pairId else d
    if b.pairId ≠ d.rd TWN_PAIR_ID.PAIR_ID then d
    else
      let names := d.twin.witness.any fun w => w.nguid != 0
      let d := if names || b.witnesses.all (· == 0) then d
        else d.modTwin fun t => { t with witness := (List.range 5).map fun i => ⟨b.witnesses.getD i 0, false, ⟨0, 0, 0, 0⟩⟩ }
      let newer := d.drives.table.any fun e => e.2.block.any fun o => o.kind == 2 && o.pool == b.pool && decide (b.epoch ≤ o.epoch)
      if b.kind ≠ 2 ∨ 8 ≤ b.pool ∨ newer then d
      else
        let d := if (tget d.pools b.pool).isSome then d
          else { d with pools := tput d.pools b.pool (Pool.make b.geometry 0 (b2n (bit (d.rd TWN_HOME.HOME) b.pool))),
                        drives := { d.drives with windows := d.drives.windows ++ [b.pool] } }
        (d.modPool b.pool fun x => { x with
          members := membersOf b x, relocs := b.relocs.map fun r => ⟨r.1, r.2⟩, mark := (b.level, b.row), level := b.level, row := b.row,
          winSecs := b.window }).modTwin fun t => { t with window := b.window }

/-- The designated witnesses on a drive (R618, R619): their blocks as read. -/
def readWitness (nguid : Nat) (w : Option WBlock) (d : Dev) : Dev :=
  let ws := (List.range 5).filter fun i => ((d.twin.witness[i]?).map (·.nguid)).getD 0 == nguid && nguid != 0
  d.each ws fun d i => match w with
    | some b => if b.pairId = d.rd TWN_PAIR_ID.PAIR_ID then witnessGood i true (keepBlock i b d) else witnessGood i false d
    | none => witnessGood i false d

/-- The NGUID names a designated witness. -/
def Dev.isWitness (d : Dev) (nguid : Nat) : Bool := nguid != 0 && d.twin.witness.any fun w => w.nguid == nguid

/-- The member that a usable drive is bound to by its configuration block (R622): the one it names, in a state of R622, to which no other
drive is bound, or one whose block does not record its own NGUID. -/
def Dev.bindsTo (d : Dev) (i : Nat) (v : Drive) : Option (Nat × Nat) :=
  match v.block with
  | none => none
  | some b =>
    match d.member b.pool b.member with
    | none => none
    | some y =>
      let rival := match y.drive with
        | none => false
        | some j => j != i && !((d.drive j).any fun w => w.block.any (fun o => o.nguid != w.nguid) && b.nguid == v.nguid)
      if b.kind = 2 ∧ b.pairId = d.rd TWN_PAIR_ID.PAIR_ID ∧ [1, 2, 3, 5, 6, 7].contains y.state ∧ !rival then some (b.pool, b.member) else none

/-- Every member that the pool's record shows is bound (R623). -/
def Dev.allBound (d : Dev) (p : Nat) : Bool :=
  match tget d.pools p with
  | none => true
  | some x => x.members.all fun e => e.2.state == 0 || e.2.state == 4 || e.2.drive.isSome

/-- The start-up window of a pool ends (R623): the absence of its members counts from now. -/
def windowEnds (p : Nat) (d : Dev) : Dev :=
  if !d.drives.windows.contains p then d
  else
    let d := d.modDrv fun v => { v with windows := without v.windows p }
    let miss (e : Nat × PoolMember) : Nat × PoolMember :=
      if e.2.drive.isNone && e.2.state != 0 && e.2.state != 4 then (e.1, { e.2 with absentSince := some d.tbMedia }) else e
    let d := d.modPool p fun x => { x with members := x.members.map miss }
    if d.drives.windows.isEmpty && !d.is FRN_STATUS.RESTORING then d.modDrv fun v => { v with started := true } else d

/-- ENUM_WINDOW_EXPIRY (R623). -/
def execEnumWindowExpiry (pool : Nat) (s : State) : Host.Outcome State Fault Refusal := s.ok (windowEnds pool s.dev)

/-- A drive is bound to a member again (R622, R630): the member keeps its state. -/
def bindAgain (i p m : Nat) (keys : List Nat) (d : Dev) : Dev :=
  let unbind (v : Drive) : Drive := { v with state := 3 }
  let d := match (d.member p m).bind (·.drive) with
    | some j => if j = i then d else modDrive j unbind d
    | none => d
  let d := modDrive i (fun v => { v with state := 4, pool := p, member := m }) d
  let d := modMember p m (fun y => { y with drive := some i, absentSince := none, pathLost := false }) (reserve i keys d)
  let d := syncRows p d
  if d.allBound p then windowEnds p d else d

/-- DRIVE_READY (R606, R610, R619, R622, R631): the drive is checked, its reserved area read, and it is bound where R622 says so. -/
def execDriveReady (index : Nat) (facts : DriveFacts) (s : State) : Host.Outcome State Fault Refusal :=
  s.ok <|
    let d := s.dev
    if !(d.drive index).any (fun v => v.state == 1) then d
    else
      let d := d.when d.drives.started fun d => d.bump DRV_CNT_INSERTED.COUNT 1
      if (factsReason facts) ≠ 0 then unusable index (factsReason facts) d
      else
        let d := match facts.block with
          | some b => learnBlock b d
          | none => d
        let d := modDrive index (fun v => { v with
          state := 3, nguid := facts.nguid, lbads := facts.lbads, blocks := facts.blocks, dsm := facts.dsm, wrr := facts.wrr,
          abortLimit := facts.abortLimit, block := facts.block, keys := facts.keys, ready := true }) d
        let member := (d.drive index).bind (d.bindsTo index)
        let label := facts.block.any fun b => b.kind == 1 && b.pairId == d.rd TWN_PAIR_ID.PAIR_ID
        let witness := label && d.isWitness facts.nguid
        let d := match member with
          | some (p, m) => if d.foreignKeys facts.keys then markForeign index d else bindAgain index p m facts.keys d
          | none =>
            if !witness then d
            else if d.foreignKeys facts.keys then markForeign index d
            else reserve index facts.keys (modDrive index (fun v => { v with state := 6 }) d)
        let d := if (d.drive index).any (fun v => v.state == 4 || v.state == 6) then readWitness facts.nguid facts.witness d else d
        settle (driveEvent index (syncRebuild (syncDrives d)))

/-- DRIVE_REMOVED (R629, R632, R401): every command outstanding at the drive fails, and its member is absent from now. -/
def execDriveRemoved (index : Nat) (s : State) : Host.Outcome State Fault Refusal :=
  s.ok <|
    let d := s.dev
    match d.drive index with
    | none => d
    | some v =>
      if v.state = 0 then d
      else
        let bound := d.boundTo index
        let gone : Drive := { Drive.found v.port v.sub 0 0 v.gen 0 v.path 0 with state := 0 }
        let d := syncDrives (modDrive index (fun _ => gone) (d.bump DRV_CNT_REMOVED.COUNT 1))
        let d := driveEvent index d
        let away (p : Nat) (y : PoolMember) : PoolMember := { y with
          drive := none, absentSince := if d.drives.windows.contains p then y.absentSince else some d.tbMedia }
        let d := match bound with
          | none => d
          | some (p, m) =>
            let d := modMember p m (away p) d
            if d.isHome p then d
            else
              let d := modMember p m (fun y => { y with pathLost := true }) d
              memberEvent p m 2 (snowSend .report 0 ⟨p, d.tbMedia, 0, 0, [2, p, m], []⟩ d)
        let d := d.each ((List.range 5).filter fun i => ((d.twin.witness[i]?).map (·.nguid)).getD 0 == v.nguid && v.nguid != 0)
          fun d i => witnessGood i false d
        let (vs, d) := failDrive false index d
        settle (releaseNvme (syncRebuild (declare vs d)))

/-- CONTROLLER_FATAL_STATUS (R400 cause 02h, R628). -/
def execControllerFatalStatus (index : Nat) (s : State) : Host.Outcome State Fault Refusal :=
  s.ok <| match s.dev.boundTo index with
    | some (p, m) => settle (releaseNvme (syncRebuild (declareOne p m 2 s.dev)))
    | none => s.dev

/-- The reset pin of a root port's drives (R792). -/
def perstName (p : Nat) : String :=
  (["DRV_PERST#_0", "DRV_PERST#_1", "DRV_PERST#_2", "DRV_PERST#_3", "DRV_PERST#_4", "DRV_PERST#_5", "DRV_PERST#_6", "DRV_PERST#_7"][p]?).getD ""

/-- A write to DRV_PORT_CFG (R633): a port with a member or a witness keeps its field, and a port whose field changes retrains. -/
def drvPortCfgWrite (value : Nat) (d : Dev) : Dev :=
  d.each (List.range 8) fun d p =>
    let v := bits value (2 * p) 2
    if v = d.rd (DRV_PORT_CFG.BIF p) then d
    else if d.drives.table.any fun e => e.2.port == p && (e.2.state == 4 || e.2.state == 6) then d.set DRV_STATUS.CONFIG_REFUSED
    else (d.wr (DRV_PORT_CFG.BIF p) v).emits [.pin (perstName p) false, .pin (perstName p) true, .retrain p]

/-- DRV_PORT_CFG_WRITE. -/
def execDrvPortCfgWrite (path : Path) (value : Nat) (s : State) : Host.Outcome State Fault Refusal :=
  s.ok (if mediaWriter path then drvPortCfgWrite value s.dev else s.dev)

/-- CLASS_WEIGHTS (R45, R87, R625): a weight of 0 is refused; drives that arbitrate by the weights are told. -/
def execClassWeights (q tag : Nat) (s : State) : Host.Outcome State Fault Refusal :=
  s.ok <| runFeature 1 q tag (fun _ c d =>
    let wb := pktField c.pkt 56 1
    let wc := pktField c.pkt 57 1
    let wd := pktField c.pkt 58 1
    if wb = 0 ∨ wc = 0 ∨ wd = 0 then failCmd q tag stInvalidField d
    else complete q tag stSuccess 0 (updateWeights (d.modRings fun r => { r with weights := (wb, wc, wd) }))) s.dev

/-! ### Witnesses and the start-up window as features (R618, R624) -/

/-- A FEATURE_SET of a feature that the media half keeps. -/
def mediaFeature (fid q tag : Nat) (f : Queue → Cmd → Dev → Dev) (d : Dev) : Dev :=
  runFeature fid q tag (fun qu c d => if d.fenced || d.peerDown .host || !d.schUp then failCmd q tag stPathFenced d else f qu c d) d

/-- The configuration block of a drive that belongs to the pair, with the witnesses and the window in force. -/
def Dev.ownBlock (d : Dev) (v : Drive) : CfgBlock :=
  let label : CfgBlock := ⟨1, 0xFFFF, d.rd TWN_PAIR_ID.PAIR_ID, ((v.block).map (·.epoch)).getD 0 + 1, 0, 0xFF, v.nguid,
    (List.range 5).map fun i => ((d.twin.witness[i]?).map (·.nguid)).getD 0, [], 0, 0, [], 0⟩
  match tget d.pools v.pool with
  | some x => if v.state = 4 then d.memberBlock v.pool v.member x v else label
  | none => label

/-- A drive's block is written for a command of this section. -/
def writeList (i : Nat) (d : Dev) : Dev :=
  match d.drive i with
  | none => d
  | some v =>
    let b := d.ownBlock v
    issueNvme i false nvWrite (b.epoch % 2) 3 .listWrite (cfgBlockBytes v.lbads b) (modDrive i (fun v => { v with block := some b }) d)

/-- The witness list of both twins takes a designation; a drive that is no witness any more leaves WITNESS_ONLY (R618, R621). -/
def setWitness (w nguid : Nat) (d : Dev) : Dev :=
  let d := modWitness w (fun _ => ⟨nguid, nguid != 0, ⟨0, 0, 0, 0⟩⟩) d
  let drop (v : Drive) : Drive := if v.state = 6 ∧ !d.isWitness v.nguid then { v with state := 3 } else v
  d.modDrv fun v => { v with table := v.table.map fun (e : Nat × Drive) => (e.1, drop e.2) }

/-- A designation is carried out by Twin A (R618): the drive is bound, its witness block is written with WSTATE 0, and the list goes to every
bound drive. The other twin keeps the list too. -/
def designate (w nguid q tag : Nat) (d : Dev) : Dev :=
  let epoch := ((d.twin.witness[w]?).map (·.block.epoch)).getD 0
  let d := modWitness w (fun x => { x with block := ⟨0, 0, epoch, 0⟩ }) (setWitness w nguid d)
  let d := match d.drives.table.find? fun e => e.2.nguid == nguid && e.2.state == 3 && nguid != 0 with
    | some (i, v) => reserve i v.keys (modDrive i (fun v => { v with state := 6 }) d)
    | none => d
  let d := openOp 0x21 0 w 0 q tag 0 (snowSend .coord 3 ⟨0xFF, 0, 0, 0, [18, w, nguid, 0, 0], []⟩ d)
  let d := if nguid = 0 then d else writeWitness w 0 d
  let bound := (d.drives.table.filter fun e => e.2.state == 4 || e.2.state == 6).map (·.1)
  listOver (d.each bound fun d i => writeList i d)

/-- The drive may be designated as witness `w` (R618). -/
def Dev.mayDesignate (d : Dev) (w : Nat) (v : Drive) (peerPorts : List Nat) : Bool :=
  let others := (List.range 5).filterMap fun i => if i = w then none else (d.witnessDrive i).map fun e => e.2.port
  let failed := v.block.any fun b => b.kind == 2 && (d.member b.pool b.member).any fun y => y.state == 4
  [3, 4, 6].contains v.state && !(v.state == 3 && (failed || d.foreignKeys v.keys)) && !others.contains v.port &&
    !(peerPorts.drop 1).contains (peerPorts.headD 8)

/-- WITNESS_SET (R618): `peerPorts` is the drive's root port on the other twin, then those of the other designated witnesses there. -/
def execWitnessSet (q tag : Nat) (peerPorts : List Nat) (s : State) : Host.Outcome State Fault Refusal :=
  s.ok <| mediaFeature 0x21 q tag (fun _ c d =>
    let w := pktField c.pkt 49 1
    let h := pktField c.pkt 56 4
    let go (nguid : Nat) : Dev :=
      if d.twinSide = 0 then designate w nguid q tag (crossCmd q tag d) else forward q tag [18, w, nguid, q + 1, tag] [] d
    if d.tstate ≠ 5 then failCmd q tag stTwinUnavailable d
    else if 4 < w then failCmd q tag stInvalidField d
    else if h = 0xFFFFFFFF then go 0
    else match d.byHandle h with
      | none => failCmd q tag stInvalidField d
      | some (_, v) => if d.mayDesignate w v peerPorts then go v.nguid else failCmd q tag stInvalidField d) s.dev

/-- The window goes into the block of every member of the pools this module owns (R624), and is in force from the next start-up on; `step` 1
awaits the other twin. -/
def windowNow (len q tag step : Nat) (d : Dev) : Dev :=
  let d := (d.modTwin fun t => { t with window := len })
  let d := openOp 0x22 0 0 0 q tag step d
  let mine := (d.drives.table.filter fun e => e.2.state == 4 && d.isHome e.2.pool).map (·.1)
  listOver (d.each mine fun d i => writeList i d)

/-- The start-up window in force (R623, R624): that of the blocks read at start-up, the same for every pool. -/
def Dev.windowInForce (d : Dev) : Nat := (d.pools.map (·.2.winSecs)).foldl max 0

/-- ENUM_WINDOW (R624). -/
def execEnumWindow (q tag : Nat) (s : State) : Host.Outcome State Fault Refusal :=
  s.ok <| mediaFeature 0x22 q tag (fun _ c d =>
    let n := pktField c.pkt 56 4
    if n ≠ 0 ∧ (n < 1000 ∨ 600000 < n) then failCmd q tag stInvalidField d
    else if d.tstate = 5 then windowNow n q tag 1 (crossCmd q tag (snowSend .coord 3 ⟨0xFF, 0, 0, 0, [17, n, q, tag], []⟩ d))
    else windowNow n q tag 0 (crossCmd q tag d)) s.dev

/-! ### Completions and timeouts (R612, R625 to R628) -/

/-- The keys of a Reservation Report in its extended form: 64 bytes of header with the number of registrants in bytes 5 and 6, then 64
bytes each with the key in bytes 8 to 15. -/
def reportKeys (b : Bytes) : List Nat := (List.range (getLe b 5 2)).map fun i => getLe b (64 + 64 * i + 8) 8

/-- What follows an NVMe command that completed with success (R303, R376, R409, R446, R532, R533, R607 to R612). -/
def nvmeGood (c : DrvCmd) (data : Bytes) (d : Dev) : Dev :=
  let own (b : Bool) (v : Drive) : Drive := { v with keys := if b then once (v.keys ++ [d.rkey d.twinSide]) else v.keys }
  match c.what with
  | .stripWrite s o => stripWritten s o d
  | .stripRead id o => if c.hedged then d else stripArrived id o data d
  | .jobWrite p s o => rebuilt p s o d
  | .evacWrite p m r => moved p m r d
  | .cfgWrite p n => cfgWritten p n true d
  | .witnessWrite w => witnessWritten w (listOver d)
  | .listWrite => listOver d
  | .witnessRace w => raceWon w d
  | .witnessRead w => witnessSeen w data d
  | .register => modDrive c.drive (own true) d
  | .acquire => d
  | .preempt =>
    let mine (v : Drive) : Drive := { v with keys := v.keys.filter fun k => k != d.rkey (1 - d.twinSide) }
    modDrive c.drive mine (d.modTwin fun t => { t with preempt := without t.preempt c.drive })
  | .report why =>
    if (reportKeys data).contains (d.rkey d.twinSide) then let (v, d) := failedWhat true 0x83 why d; declare v d else fenceFree d
  | .abort _ => modDrive c.drive (fun v => { v with aborts := v.aborts - 1 }) d
  | .health =>
    if c.op = nvEvents then askEvents c.drive (issueNvme c.drive true nvGetLog 2 3 .health [] d)
    else match d.boundTo c.drive with
      | some (p, m) => if getLe data 0 1 = 0 then d else let (v, d) := weigh p m 7 d; declare v d
      | none => d
  | .fwDownload q tag => finish q tag stSuccess 0 d
  | .fwCommit _ _ => d
  | .dsm => d
  | .features => d

/-- A write of this module to a drive it is bound to (R612). -/
def DrvFor.isWrite : DrvFor → Bool
  | .stripWrite _ _ | .jobWrite _ _ _ | .evacWrite _ _ _ | .cfgWrite _ _ | .listWrite | .witnessWrite _ | .witnessRace _ => true
  | _ => false

/-- Status SCT 1 that Firmware Commit answers where the image runs only after a reset: its codes of the NVMe base specification. -/
def resetNeeded (c : DrvCmd) (sct sc : Nat) : Bool :=
  (match c.what with
    | .fwCommit _ _ => true
    | _ => false) && sct == 1 && (sc == 0x0B || sc == 0x10 || sc == 0x11)

/-- A strip read that met an unrecovered error counts against its member (R400 cause 05h); a hedged one counts for nothing (R626). -/
def readError (c : DrvCmd) (d : Dev) : Dev :=
  match c.what, d.boundTo c.drive with
  | .stripRead _ _, some (p, m) => if c.hedged then d else let (v, d) := weigh p m 5 d; declare v d
  | _, _ => d

/-- A command that ended without success, where evidence has not already ended it. -/
def nvmeFailed (cid st : Nat) (c : DrvCmd) (d : Dev) : Dev :=
  if (tget d.drives.cmds cid).isNone then d
  else if c.hedged then dropCid cid d
  else
    let d := match c.what with
      | .abort _ => modDrive c.drive (fun v => { v with aborts := v.aborts - 1 }) d
      | _ => d
    failedCmd true cid st c d

/-- A command in flight at its drive: outstanding, and not held back by the limits of R605. -/
def Drives.flying (v : Drives) (cid : Nat) : Option DrvCmd := if v.queued.contains cid then none else tget v.cmds cid

/-- NVME_COMPLETION (R628): a completion with its status code type and status code, and the data of a read. -/
def execNvmeCompletion (cid sct sc : Nat) (data : Bytes) (s : State) : Host.Outcome State Fault Refusal :=
  s.ok <|
    let d := s.dev
    match d.drives.flying cid with
    | none => d
    | some c =>
      let st := sct * 256 + sc
      let d :=
        if st = 0 then nvmeGood c data (dropCid cid d)
        else if resetNeeded c sct sc then ctrlReset c.drive (dropCid cid d)
        else if st = 0x281 then nvmeFailed cid st c (readError c (d.bump DRV_CNT_MEDIA_ERR.COUNT 1))
        else if st = 0x280 then nvmeFailed cid st c (d.bump DRV_CNT_MEDIA_ERR.COUNT 1)
        else if st = 0x82 then d.modDrv fun v => { v with retry := once (v.retry ++ [cid]) }
        else if st = 0x83 ∧ c.what.isWrite then
          issueNvme c.drive false nvReport 0 c.cls (.report c.what) [] (dropCid cid (d.bump DRV_CNT_RESV_CONFLICT.COUNT 1))
        else match c.what with
          | .witnessRace w => if st = 0x285 then raceLost w (dropCid cid d) else nvmeFailed cid st c d
          | _ => nvmeFailed cid st c (if sct = 3 ∧ !c.hedged then timeoutSeen c.drive d else d)
      settle (releaseNvme (settleResolves d))

/-- A strip read that timed out counts as erased (R376); what it still brings is discarded. -/
def readTimedOut (cid : Nat) (c : DrvCmd) (d : Dev) : Dev :=
  match c.what with
  | .stripRead id o =>
    if (tget d.drives.cmds cid).isNone || c.hedged then d
    else stripErased id o 4 (d.modDrv fun v => { v with cmds := tmod v.cmds cid fun c => { c with hedged := true } })
  | _ => d

/-- NVME_COMMAND_TIMEOUT (R376, R627): the command counts toward cause 03h and an Abort is sent, or the controller is reset once its limit of
Aborts is reached. -/
def execNvmeCommandTimeout (cid : Nat) (s : State) : Host.Outcome State Fault Refusal :=
  s.ok <|
    let d := s.dev
    match d.drives.flying cid with
    | none => d
    | some c =>
      let waits := match c.what with
        | .abort _ => true
        | .health => c.op == nvEvents
        | _ => false
      if waits || c.abortAt.isSome then d
      else
        let d := fault .media 0x0F c.drive 2 false (d.bump DRV_CNT_TIMEOUTS.COUNT 1)
        let d := if c.hedged then d else timeoutSeen c.drive d
        let d := d.modDrv fun v => { v with cmds := tmod v.cmds cid fun c => { c with abortAt := some d.tbMedia } }
        let d := match tget d.drives.cmds cid, d.drive c.drive with
          | some _, some v =>
            if v.abortLimit ≤ v.aborts then ctrlReset c.drive d
            else issueNvme c.drive true nvAbort cid c.cls (.abort cid) [] (modDrive c.drive (fun v => { v with aborts := v.aborts + 1 }) d)
          | _, _ => d
        settle (releaseNvme (settleResolves (readTimedOut cid c d)))

/-- ABORT_TIMEOUT (R627): an Abort has not completed for 1 s. -/
def execAbortTimeout (cid : Nat) (s : State) : Host.Outcome State Fault Refusal :=
  s.ok <|
    let d := s.dev
    match tget d.drives.cmds cid with
    | some ⟨drive, _, _, _, _, _, .abort _, _, _, _, _, _⟩ => settle (releaseNvme (settleResolves (ctrlReset drive d)))
    | _ => d

/-- READ_HEDGE_TIMEOUT (R626): the strip counts as timed out, and the read stays outstanding. -/
def execReadHedgeTimeout (cid : Nat) (s : State) : Host.Outcome State Fault Refusal :=
  s.ok <|
    let d := s.dev
    match d.drives.flying cid with
    | none => d
    | some c =>
      match c.what with
      | .stripRead id o =>
        if c.hedged || d.rd DRV_CFG.READ_HEDGE == 0 then d
        else
          let d := d.modDrv fun v => { v with cmds := tmod v.cmds cid fun c => { c with hedged := true } }
          settle (settleResolves (stripErased id o 4 (d.bump DRV_CNT_HEDGED.COUNT 1)))
      | _ => d

/-- NAMESPACE_NOT_READY_RETRY (R628). -/
def execNamespaceNotReadyRetry (cid : Nat) (s : State) : Host.Outcome State Fault Refusal :=
  s.ok <|
    let d := s.dev
    match tget d.drives.cmds cid with
    | none => d
    | some c =>
      if !d.drives.retry.contains cid || d.portsHalted then d
      else (d.modDrv fun v => { v with retry := without v.retry cid }).emit (.nvme cid c.drive c.admin c.op c.lba c.data)

/-! ### Engines (R377, R388) -/

/-- An engine takes no further jobs; while all are out, reads that need one end (R388). -/
def engineOut (n : Nat) (d : Dev) : Dev :=
  if bit (d.rd MOR_STATUS.ENG_QUAR) n then d
  else
    let d := fault .media 0x0B n 2 true (d.putBit MOR_STATUS.ENG_QUAR n true)
    if !d.enginesOut then d
    else d.each (d.reads.filter (·.job)) fun d r => match tget d.pools r.pool with
      | some p => readAll { r with job := false } p d
      | none => d

/-- An engine whose two results differed: the third time it is quarantined (R388). -/
def engineMismatch (n : Nat) (d : Dev) : Dev :=
  let d := fault .media 0x0B n 1 false (d.bump (MOR_ENG.PMISMATCH n) 1)
  if d.rd (MOR_ENG.PMISMATCH n) < 3 then d else engineOut n d

/-- The jobs that wait for an engine or hold one: each a stripe with its class, its function and what it is for; the destages come
first (R303, R377, R389). -/
def Dev.moraineJobs (d : Dev) : List (Nat × (Nat × Nat) × WorkD) :=
  let out := if d.twin.race.isSome then [] else d.destages.filter fun x => x.intent != 0 && !x.synd
  (out.map fun x =>
    (x.plan.stripe, (x.cls d, d.destageFn x (x.cls d)), if x.purpose = 0 then WorkD.destage else .other)) ++
    (d.reads.filter (·.job)).map fun r => (r.stripe, (r.cls, if r.cls = 3 then 1024 else d.readFn r), d.readWork r)

/-- Engines in service. -/
def Dev.enginesUp (d : Dev) : Nat := ((List.range 16).filter fun n => !bit (d.rd MOR_STATUS.ENG_QUAR) n).length

/-- The Moraine arbiter gives engines that are free to jobs that wait (R43, R51, R389). The first argument bounds them. -/
def grantEngines : Nat → Dev → Dev
  | 0, d => d
  | fuel + 1, d =>
    if d.enginesUp ≤ d.moraine.length then d
    else
      let w := d.moraineJobs.filter fun j => !d.moraine.contains j.1
      match serveNext .moraine w (fun j => j.2.1) ((w.filter fun j => j.2.1.1 == 3).map (·.2.2)) d with
      | (none, d) => d
      | (some j, d) => grantEngines fuel { d with moraine := d.moraine ++ [j.1] }

/-- Engines whose jobs are over are free, and jobs that wait take them. -/
def startJobs (d : Dev) : Dev :=
  let jobs := d.moraineJobs.map (·.1)
  grantEngines 16 { d with moraine := d.moraine.filter jobs.contains }

/-- MORAINE_JOB_COMPLETE (R303, R377, R388, R389): the destage of the stripe, or else the first read of it that waits, has its result; a job
that the arbiter has not given an engine has none. -/
def execMoraineJobComplete (pool stripe engine : Nat) (agree : Bool) (s : State) : Host.Outcome State Fault Refusal :=
  s.ok <|
    let d := startJobs s.dev
    let job := d.reads.find? fun r => r.stripe == stripe && r.job
    let out := (d.destage stripe).filter fun x => x.intent != 0 && !x.synd && d.twin.race.isNone
    if 16 ≤ engine ∨ bit (d.rd MOR_STATUS.ENG_QUAR) engine ∨ stripePool stripe ≠ pool ∨ !d.moraine.contains stripe ∨
        (job.isNone && out.isNone) then d
    else if !agree then settle (settleResolves (engineMismatch engine d))
    else
      let d := { d with moraine := without d.moraine stripe }
      let d := match out, job, tget d.pools pool with
        | some x, _, _ => destageJob x d
        | none, some r, some p => match r.solve p with
          | some x => readSolved r p x d
          | none => readFailed r d
        | _, _, _ => d
      settle (releaseNvme (settleResolves d))

/-- ENG_RELEASE of the engines in a mask (R388, R395). -/
def engRelease (mask : Nat) (d : Dev) : Dev :=
  d.each ((List.range 16).filter (bit mask)) fun d n =>
    if bit (d.rd MOR_STATUS.ENG_QUAR) n then (d.putBit MOR_STATUS.ENG_QUAR n false).wr (MOR_ENG.PMISMATCH n) 0 else d

/-- ENG_RELEASE (R388, R390, R395). -/
def execEngRelease (path : Path) (mask : Nat) (s : State) : Host.Outcome State Fault Refusal :=
  s.ok (if mediaWriter path then engRelease mask s.dev else s.dev)

end Sys2Proof.Machine
end

