-- ==== Sys2Proof/Machine/Varve.lean ====
section
/-! DEFINITION. Namespaces, snapshots and clones as commands (R455 to R473), the definition of pools (R348, R349), and the class D work that
gives space back: pruning and compaction (R475 to R477). -/

namespace Sys2Proof.Machine

/-! ### What records under way will change -/

/-- The records that will still change the map: not yet applied, and not withdrawn; those that wait for space among them. -/
def Dev.toApply (d : Dev) : List FRec :=
  (d.firn.recs.filterMap fun e => if e.2.applied || e.2.void || e.2.divergent then none else some e.2) ++ d.firn.waiting

/-- The MAP_DELTA entries of records that are not members and will still change the map. -/
def Dev.dueDeltas (d : Dev) : List MapDelta := ((d.toApply.filter fun r => !r.member).map (·.mapDelta)).flatten

/-- A change of the namespace itself is under way: its next change waits for it. -/
def Dev.nsChanging (d : Dev) (nsid : Nat) : Bool := d.dueDeltas.any fun x => match x with
  | .nsSet n _ _ _ | .nsRemove n | .nsAttach n _ _ _ _ | .applyLabels n _ _ => n == nsid
  | _ => false

/-- Snapshots that records under way will take of a namespace. -/
def Dev.snapsDue (d : Dev) (nsid : Nat) : Nat :=
  ((d.toApply.map (·.mapDelta)).flatten.filter fun x => match x with
    | .snapMark n _ _ => n == nsid
    | _ => false).length

/-- NSIDs in use: those of namespaces, deleted ones until their reclaim ends (R457), and those that records under way create. -/
def Dev.nsidsUsed (d : Dev) : List Nat :=
  d.nss.map (·.1) ++ (d.toApply.map (·.mapDelta)).flatten.filterMap fun x => match x with
    | .nsSet n _ _ _ => if (tget d.nss n).isSome then none else some n
    | _ => none

/-- The lowest free NSID (R457); NSID 0 names no namespace. -/
def Dev.newNsid (d : Dev) : Nat := lowestFree d.nsidsUsed (d.nsidsUsed.length + 1) 1

/-- The snapshot ID that a MAP record carries in AUX (R288); one that its home twin assigns comes with the COMMIT_SEQ. -/
def auxSnap (l : List MapDelta) : Nat := (l.findSome? fun x => match x with
  | .snapDrop _ s => some s
  | .cloneLink _ s _ => some s
  | _ => none).getD 0

/-- The MAP record of a command's context (R460, R467, R469, R472). -/
def mapRec (c : MCtx) (pool : Nat) (deltas : List MapDelta) (d : Dev) : FRec :=
  { FRec.empty with
    rtype := rtMap, pool := pool, receiver := d.twinSide, member := bit c.flags 3, cls := ((d.queue c.q).map (·.cls)).getD 1,
    cmds := [⟨c.q, c.tag, 0, 0, 0⟩], group := c.group, func := c.fn, gfn := c.fn, nsid := c.nsid, mapDelta := deltas, aux := auxSnap deltas, origin := .host }

/-- The record of a context is formed with its deltas. -/
def formMap (c : MCtx) (pool : Nat) (deltas : List MapDelta) (d : Dev) : Dev :=
  formRec (mapRec c pool deltas d) (d.modCtx c.q c.tag fun c => { c with formed := true })

/-- What a namespace is, as an NS_SET entry gives it (R480). -/
def Ns.attrs (n : Ns) : Nat := n.pool + 8 * b2n n.big + 16 * (n.flags % 4)

/-! ### Snapshots and clones at the host half (R110, R466 to R473) -/

/-- The snapshot operand of SNAP_DELETE and CLONE_CREATE (R466). -/
def snapOperand (p : BitVec 512) : Nat := if pktMember p then pktField p 56 8 else pktGos p

/-- A snapshot of the namespace waits for the writes of its queue submitted before it (R110). DEDUCED: members and other commands do not wait
for each other, as in R319. -/
def Dev.snapWaits (d : Dev) (qi : Nat) (c : Cmd) : Bool :=
  (d.rings.fetches.any fun f => decide (f.1 < c.order) && fetchQueue f.2 == qi) ||
  (d.queue qi).any fun q => q.cmds.any fun e => decide (e.order < c.order) && !e.took && pktMember e.pkt == pktMember c.pkt &&
    (writeOps.contains (pktOp e.pkt) || pktOp e.pkt == 0x52) && pktNsid e.pkt == pktNsid c.pkt

/-- A Varve operation crosses to the media half (R251): its operands are the opcode, FLAGS and LABEL, and REF is its snapshot operand. -/
def crossVarve (qi : Nat) (qu : Queue) (c : Cmd) (ref : Nat) (args : List Nat) (d : Dev) : Dev :=
  crossCmd qi c.tag (schSend .host .varveOp qu.cls ⟨qi, c.tag, ref, pktNsid c.pkt, [pktOp c.pkt, pktFlags c.pkt] ++ args, []⟩ d)

/-- SNAP_CREATE (R467). -/
def execSnapCreate (q tag : Nat) (s : State) : Host.Outcome State Fault Refusal :=
  s.ok <| runCmd [0x48] q tag (fun qu c d =>
    if d.snapWaits q c then d else crossVarve q qu c 0 [pktField c.pkt 48 8] d) s.dev

/-- SNAP_DELETE (R469). -/
def execSnapDelete (q tag : Nat) (s : State) : Host.Outcome State Fault Refusal :=
  s.ok <| runCmd [0x49] q tag (fun qu c d => crossVarve q qu c (snapOperand c.pkt) [0] d) s.dev

/-- CLONE_CREATE (R472): the snapshot of the live view waits as SNAP_CREATE does. -/
def execCloneCreate (q tag : Nat) (s : State) : Host.Outcome State Fault Refusal :=
  s.ok <| runCmd [0x4A] q tag (fun qu c d =>
    if snapOperand c.pkt = 0 ∧ d.snapWaits q c then d else crossVarve q qu c (snapOperand c.pkt) [0] d) s.dev

/-! ### The same at the media half -/

/-- A record of a freeze group, staged before the context's command was fetched, took the snapshot (R470). -/
def Dev.ownStaged (d : Dev) (c : MCtx) (snap : Nat) : Bool :=
  bit c.flags 3 && match d.firn.groups.find? fun g => g.fn == c.fn && g.tag == c.group with
    | none => false
    | some g =>
      let at' (q tag : Nat) : Nat := ((g.members.find? fun m => m.q == q && m.tag == tag).map (·.order)).getD 0
      d.toApply.any fun r => r.member && r.gfn == c.fn && r.group == c.group &&
        r.mapDelta.contains (.snapMark c.nsid snap ((r.mapDelta.findSome? fun x => match x with
          | .snapMark _ _ l => some l
          | _ => none).getD 0)) &&
        r.cmds.any fun x => g.members.any fun m => m.q == x.q && m.tag == x.tag && m.staged && decide (m.order < at' c.q c.tag)

/-- A record of a freeze group that has not committed took the snapshot (R469). -/
def Dev.groupSnap (d : Dev) (nsid snap : Nat) : Bool :=
  d.toApply.any fun r => r.member && r.mapDelta.any fun x => match x with
    | .snapMark n i _ => n == nsid && i == snap
    | _ => false

/-- A snapshot may be named by a command of a context (R468, R470). -/
def Dev.mayName (d : Dev) (c : MCtx) (n : Ns) (snap : Nat) : Bool := (n.visibleSnap snap).isSome || d.ownStaged c snap

/-- An open Calving stream holds the snapshot as its base or target (R469, R482), or a stream of the other twin does. -/
def Dev.pinned (d : Dev) (nsid snap : Nat) : Bool :=
  (d.streams.any fun e => e.2.send && e.2.nsid == nsid && e.2.isOpen && (e.2.base == snap || e.2.target == snap)) ||
    d.twin.pins.any fun x => x.2.1 == nsid && (x.2.2.1 == snap || x.2.2.2.1 == snap)

/-- One more snapshot of the namespace would pass a limit (R465). -/
def Dev.snapLimit (d : Dev) (nsid : Nat) (n : Ns) : Bool :=
  let due := d.snapsDue nsid
  decide (65536 ≤ n.snaps.length + due) || decide (0xFFFFFFFE ≤ n.nextSnap + due) || decide (0xFFFFFFFE ≤ n.epoch + due)

/-- Namespaces of a chain of clones, the namespace itself included (R473). -/
def Dev.depth (d : Dev) (nsid : Nat) : Nat := (nsChain 16 nsid d).length

/-- CLONE_CREATE's record (R472). The LABEL of a hidden snapshot is not stated: a free value. -/
def cloneNow (c : MCtx) (n : Ns) (snap : Nat) (d : Dev) : Dev :=
  let key := 2 * c.fn
  let fail (st : Nat) : Dev := mediaComplete c.q c.tag st 0 0 d
  if snap ≠ 0 ∧ !d.mayName c n snap then fail stInvalidField
  else if 8 < d.depth c.nsid then fail stCapacity
  else if 65536 ≤ d.nsidsUsed.length ∨ (snap = 0 ∧ d.snapLimit c.nsid n) then fail stCapacity
  else if d.is RIM_STATUS.ZEROIZED then fail stZeroized
  else if (d.slot key).type = 0 then fail stKeyEmpty
  else
    let id := d.newNsid
    let (label, d) := if snap = 0 then d.draw else (0, d)
    let owner := n.owner.getD c.fn
    let own := if owner = c.fn then [MapDelta.nsAttach id c.fn true true n.ownerKey]
      else [MapDelta.nsAttach id owner false true n.ownerKey, MapDelta.nsAttach id c.fn true false 0]
    let first := if snap = 0 then [MapDelta.snapMark c.nsid 0 (label % 2 ^ 64)] else []
    let last := if snap = 0 then [MapDelta.snapDrop c.nsid 0] else []
    let link := [MapDelta.nsSet id n.size n.pack (n.pool + 8 * b2n n.big)] ++ own ++ [MapDelta.cloneLink id snap c.nsid]
    formMap c n.pool (first ++ link ++ last) d

/-- A SNAP_CREATE, SNAP_DELETE or CLONE_CREATE at the media half: its checks, and its MAP record (R465, R467, R469, R472, R473). -/
def varveNow (op snap label : Nat) (c : MCtx) (d : Dev) : Dev :=
  match d.ns c.nsid with
  | none => mediaComplete c.q c.tag stInvalidNamespace 0 0 d
  | some n =>
    let fail (st : Nat) : Dev := mediaComplete c.q c.tag st 0 0 d
    if op = 0x48 then
      if d.snapLimit c.nsid n then fail stCapacity else formMap c n.pool [.snapMark c.nsid 0 label] d
    else if op = 0x4A then cloneNow c n snap d
    else if d.ownStaged c snap then formMap c n.pool [.snapDrop c.nsid snap] d
    else if d.pinned c.nsid snap ∨ d.groupSnap c.nsid snap then fail stNamespaceBusy
    else if (n.visibleSnap snap).isNone then fail stInvalidField
    else formMap c n.pool [.snapDrop c.nsid snap] d

/-! ### NS_MANAGE (R455 to R460) -/

/-- PACK_ATTR is within R120 and R121. -/
def packAttrOk (pack : Nat) (big : Bool) : Bool :=
  let mode := pack % 4
  let ceiling := bits pack 4 3
  let extent := bits pack 8 6
  mode != 3 && !bit pack 3 && !bit pack 7 && decide (pack < 2 ^ 14) &&
    (if mode == 1 then ceiling != 0 && !big else ceiling == 0) && (mode == 2 || extent == 0)

/-- An NS_MANAGE operation runs at the media half (R456, R460): a context opens with its RESULT, and its MAP record is formed. Its namespace
must exist, but for CREATE, and no other change of it may be under way. -/
def nsManage (op q tag : Nat) (f : Queue → Cmd → Ns → Dev → Nat ⊕ (Nat × Nat × List MapDelta × Dev)) (d : Dev) : Dev :=
  mediaAdmin [0x8B] q tag (fun qu c d =>
    let nsid := pktNsid c.pkt
    let create := op == 1
    if pktField c.pkt 48 1 ≠ op then d
    else match (if create then some Ns.empty else d.ns nsid) with
      | none => if (d.nsAny nsid).isNone && d.nsChanging nsid then d else failCmd q tag stInvalidNamespace d
      | some n =>
        if !create && d.nsChanging nsid then d
        else if !create && d.poolUnavailable n.pool then failCmd q tag stPoolOffline d
        else match f qu c n d with
          | .inl st => failCmd q tag st d
          | .inr (pool, res, deltas, d) =>
            let m : Msg := ⟨q, tag, 0, res, [], []⟩
            let d := openCtx m (.varve 0x8B) 0 0 0 0 0 0 (0, 0, 0) (crossCmd q tag d)
            let d := d.modCtx q tag fun c => { c with result := res }
            match d.ctx q tag with
            | some x => formMap x pool deltas d
            | none => d) d

/-- A namespace's NS_SET entry with one thing changed. -/
def Ns.setEntry (n : Ns) (nsid : Nat) : MapDelta := .nsSet nsid n.size n.pack n.attrs

/-- SIZE is within 1 to 2^40 (R455). -/
def sizeOk (n : Nat) : Bool := decide (1 ≤ n) && decide (n ≤ 2 ^ 40)

/-- NS_CREATE (R455 to R457). -/
def execNsCreate (q tag : Nat) (s : State) : Host.Outcome State Fault Refusal :=
  s.ok <| nsManage 1 q tag (fun _ c _ d =>
    let pool := pktField c.pkt 49 1
    let bsize := pktField c.pkt 50 1
    let flags := pktField c.pkt 51 1
    let pack := pktField c.pkt 52 4
    let size := pktField c.pkt 56 8
    match tget d.pools pool with
    | none => .inl stInvalidField
    | some p =>
      if pktNsid c.pkt ≠ 0 ∨ 1 < bsize ∨ 3 < flags ∨ (bsize = 1 ∧ !p.big) ∨ !packAttrOk pack (bsize == 1) ∨ !sizeOk size then .inl stInvalidField
      else if 65536 ≤ d.nsidsUsed.length then .inl stCapacity
      else
        let id := d.newNsid
        .inr (pool, id, [.nsSet id size pack (pool + 8 * bsize + 16 * flags)], d)) s.dev

/-- NS_DELETE (R456, R475): it must be attached to no function, and have no dependent clone and no open stream. -/
def execNsDelete (q tag : Nat) (s : State) : Host.Outcome State Fault Refusal :=
  s.ok <| nsManage 2 q tag (fun _ c n d =>
    let nsid := pktNsid c.pkt
    let clone := (d.nss.any fun e => !e.2.deleted && e.2.parent.any fun p => p.1 == nsid) || d.dueDeltas.any fun x => match x with
      | .cloneLink _ _ p => p == nsid
      | _ => false
    let stream := (d.streams.any fun e => e.2.nsid == nsid && e.2.isOpen) || d.twin.pins.any fun x => x.2.1 == nsid
    if !n.attached.isEmpty ∨ clone ∨ stream then .inl stNamespaceBusy
    else .inr (n.pool, nsid, [.nsRemove nsid], d)) s.dev

/-- NS_ATTACH (R456, R458): the first makes the function the key owner. -/
def execNsAttach (q tag : Nat) (s : State) : Host.Outcome State Fault Refusal :=
  s.ok <| nsManage 3 q tag (fun qu c n d =>
    let fn := pktField c.pkt 52 4
    let first := n.owner.isNone
    if 1023 < fn ∨ epOf fn ≠ epOf qu.fn then .inl stInvalidField
    else if 16 ≤ n.attached.length ∧ !n.attached.contains fn then .inl stCapacity
    else if first ∧ d.is RIM_STATUS.ZEROIZED then .inl stZeroized
    else if first ∧ (d.slot (2 * fn)).type = 0 then .inl stKeyEmpty
    else .inr (n.pool, pktNsid c.pkt, [.nsAttach (pktNsid c.pkt) fn true first (if first then (d.slot (2 * fn)).keyId else 0)], d)) s.dev

/-- NS_DETACH (R456, R458): the key owner stays recorded. -/
def execNsDetach (q tag : Nat) (s : State) : Host.Outcome State Fault Refusal :=
  s.ok <| nsManage 4 q tag (fun qu c n d =>
    let fn := pktField c.pkt 52 4
    if 1023 < fn ∨ epOf fn ≠ epOf qu.fn then .inl stInvalidField
    else .inr (n.pool, pktNsid c.pkt, [.nsAttach (pktNsid c.pkt) fn false false 0], d)) s.dev

/-- Open stream blocks of a namespace close one after the other (R122, R163). -/
def closeBlocks : List Nat → SliceRun → Dev → Dev
  | [], _, d => d
  | q :: t, run, d =>
    let (run, d) := closeBlock q run d
    closeBlocks t run d

/-- NS_SET_PACK (R122, R456): open stream blocks of the namespace close first; `run` is how their slices fare. -/
def execNsSetPack (q tag : Nat) (run : SliceRun) (s : State) : Host.Outcome State Fault Refusal :=
  s.ok <| nsManage 5 q tag (fun _ c n d =>
    let pack := pktField c.pkt 52 4
    let nsid := pktNsid c.pkt
    if !packAttrOk pack n.big then .inl stInvalidField
    else
      let qs := d.rings.queues.filterMap fun e => if e.2.block.any fun b => b.nsid == nsid then some e.1 else none
      .inr (n.pool, nsid, [({ n with pack := pack }).setEntry nsid], closeBlocks qs run d)) s.dev

/-- The UNBIND entries of a namespace that shrinks (R460): live blocks from the new size on, and what records under way still bind there. -/
def shrinkDeltas (nsid size : Nat) (d : Dev) : List MapDelta :=
  let live := ((d.knownBlocks nsid).filter fun b => decide (size ≤ b) && (d.liveChunk nsid b).isSome).map fun b => MapDelta.unbind nsid b 1
  let due := d.dueDeltas.filterMap fun x => match x with
    | .bind n slba count _ =>
      if n = nsid ∧ size < slba + count then some (MapDelta.unbind nsid (max size slba) (slba + count - max size slba)) else none
    | _ => none
  live ++ due

/-- NS_RESIZE (R456, R460). -/
def execNsResize (q tag : Nat) (s : State) : Host.Outcome State Fault Refusal :=
  s.ok <| nsManage 6 q tag (fun _ c n d =>
    let size := pktField c.pkt 56 8
    let nsid := pktNsid c.pkt
    let past := (d.streams.any fun e => e.2.nsid == nsid && e.2.isOpen && decide (size < e.2.size)) ||
      d.twin.pins.any fun x => x.2.1 == nsid && decide (size < x.2.2.2.2)
    if !sizeOk size then .inl stInvalidField
    else if size < n.size ∧ past then .inl stNamespaceBusy
    else .inr (n.pool, nsid, ({ n with size := size }).setEntry nsid :: (if size < n.size then shrinkDeltas nsid size d else []), d)) s.dev

/-- NS_SET_FLAGS (R456, R459). -/
def execNsSetFlags (q tag : Nat) (s : State) : Host.Outcome State Fault Refusal :=
  s.ok <| nsManage 7 q tag (fun _ c n d =>
    let flags := pktField c.pkt 51 1
    if 3 < flags then .inl stInvalidField
    else .inr (n.pool, pktNsid c.pkt, [({ n with flags := flags }).setEntry (pktNsid c.pkt)], d)) s.dev

/-! ### Pools (R345 to R349) -/

/-- A pool's geometry is within R345 and R346. -/
def geometryOk (v : Nat) : Bool :=
  let k := bits v 0 6
  let m := bits v 6 3
  let dd := bits v 9 10
  let spare := bits v 19 4
  decide (2 ≤ k) && decide (k ≤ 60) && decide (2 ≤ m) && decide (m ≤ 4) && decide (k + m ≤ 64) && decide (spare ≤ 8) &&
    decide (k + m + spare ≤ dd) && decide (dd ≤ 512) && (m != 4 || decide (k ≤ 21)) && bits v 24 8 == 0

/-- A pool is defined anew: no member, no stripe. DEDUCED: its home twin is the preferred one. -/
def definePool (p geometry : Nat) (d : Dev) : Dev :=
  let home := b2n (bit (d.rd TWN_HOME.PREF) p)
  let free (v : Drive) : Drive := if v.state = 4 ∧ v.pool = p then { v with state := 3 } else v
  let d := d.modDrv fun v => { v with table := v.table.map fun (e : Nat × Drive) => (e.1, free e.2) }
  syncOffline { d with pools := tput d.pools p (Pool.make geometry 0 home) }

/-- POOL_GEOMETRY (R348, R349). -/
def execPoolGeometry (q tag : Nat) (s : State) : Host.Outcome State Fault Refusal :=
  s.ok <| mediaFeature 0x20 q tag (fun _ c d =>
    let p := pktField c.pkt 49 1
    let v := pktField c.pkt 56 8
    if d.tstate ≠ 5 then failCmd q tag stTwinUnavailable d
    else if 7 < p ∨ !geometryOk v then failCmd q tag stInvalidField d
    else if !(d.poolStripes p).isEmpty then failCmd q tag stNamespaceBusy d
    else complete q tag stSuccess 0 (snowSend .coord 3 ⟨p, 0, 0, 0, [14, p, v], []⟩ (definePool p v d))) s.dev

/-! ### Pruning (R475) -/

/-- A read of a snapshot has not yet taken its data on this module. -/
def Dev.stillReads (d : Dev) (nsid snap : Nat) : Bool :=
  d.rings.queues.any fun e => e.2.cmds.any fun c => !c.took && [2, 5, 7, 8].contains (pktOp c.pkt) &&
    if pktOp c.pkt = 8 then pktField c.pkt 48 4 == nsid && pktField c.pkt 52 4 == snap
    else pktNsid c.pkt == nsid && !pktMember c.pkt && pktGos c.pkt == snap

/-- A read of a snapshot that was fetched before the snapshot's deletion has not yet taken its data, here or, while the pair is paired, as far
as the other twin has told (R475). -/
def Dev.readsGone (d : Dev) (nsid : Nat) (n : Ns) : Bool :=
  n.gone.any fun g => d.stillReads nsid g.1 || (d.tstate == 5 && !d.twin.readsTold.contains (nsid, g.1))

/-- The reads of a namespace's former snapshots are over, and so is its pruning: what was kept for them goes. -/
def forgetGone (nsid : Nat) (d : Dev) : Dev :=
  (d.modNs nsid fun n => { n with gone := [] }).modTwin fun t => { t with
    readsTold := t.readsTold.filter (·.1 != nsid), readsSaid := t.readsSaid.filter (·.1 != nsid) }

/-- The twin that is not home of a namespace's pool tells the other one of the former snapshots whose reads it has served (R475); the layout of
COORD bodies is the firmware's own. -/
def tellReads (nsid : Nat) (n : Ns) (d : Dev) : Dev :=
  if d.tstate ≠ 5 ∨ d.isHome n.pool then d
  else
    let d := d.each (n.gone.filter fun g => !d.twin.readsSaid.contains (nsid, g.1) && !d.stillReads nsid g.1) fun d g =>
      snowSend .coord 3 ⟨n.pool, 0, 0, nsid, [25, nsid, g.1], []⟩ (d.modTwin fun t => { t with readsSaid := t.readsSaid ++ [(nsid, g.1)] })
    if n.gone.all (fun g => d.twin.readsSaid.contains (nsid, g.1)) && !d.prunePending nsid then forgetGone nsid d else d

/-- Entries that one PRUNE record removes at most; the number is the firmware's own. -/
def pruneBatch : Nat := 1024

/-- PRUNE (R475): the home twin prunes one namespace of the pool that has prunable entries. -/
def execPrune (pool : Nat) (s : State) : Host.Outcome State Fault Refusal :=
  s.ok <|
    let d := s.dev
    let busy (nsid : Nat) : Bool := d.dueDeltas.any fun x => match x with
      | .prune n _ _ => n == nsid
      | _ => false
    if !d.isHome pool then d
    else match d.nss.find? fun e => e.2.pool == pool && (d.prunePending e.1 || !e.2.gone.isEmpty) && !busy e.1 && !d.readsGone e.1 e.2 with
      | none => d
      | some (nsid, _) =>
        match (d.prunable nsid).take pruneBatch with
        | [] => reclaimEnd nsid (forgetGone nsid d)
        | es =>
          let chunks := es.filterMap fun e => if e.2.unmapped then none else some e.2.chunk
          formRec { FRec.empty with
            rtype := rtMap, pool := pool, receiver := d.twinSide, nsid := nsid,
            mapDelta := es.map fun e => .prune nsid e.1 e.2.birth
            refDelta := (refCounts chunks).map fun x => (x.1, -x.2) } d

/-! ### Compaction (R476, R477) -/

/-- Live object bytes of a stripe. -/
def Dev.liveBytes (d : Dev) (s : Nat) : Nat := (d.liveObjs s).foldl (fun n e => n + e.2.len) 0

/-- The stripe that compaction takes next: the one with the fewest live bytes, among those below the threshold. -/
def Dev.compactNext (d : Dev) (p : Nat) : Option Nat :=
  match tget d.pools p with
  | none => none
  | some x =>
    let ok (e : Nat × Stripe) : Bool :=
      decide (d.liveBytes e.1 * 100 < d.rd VRV_CFG.COMPACT_PCT * (x.k * x.stripLen)) && (d.rewriting e.1).isNone && !e.2.freed &&
        !d.divergentStripe e.1 && (d.lostEntry e.1).isNone && !d.reads.any (fun r => r.stripe == e.1 && r.purpose == .compact) &&
        e.2.strips.any fun t => t.2.2.1 == kindData
    let l := (d.liveStripes p).filter ok
    (l.foldl (fun (b : Option (Nat × Nat)) e =>
      let n := d.liveBytes e.1
      match b with
      | none => some (n, e.1)
      | some y => if n < y.1 then some (n, e.1) else b) none).map (·.2)

/-- COMPACTION (R476, R477): a compacted stripe that waits for its place gets the free slot (row × 128 + slot); else the next stripe is read.
A stripe with no live object is replaced by the next stripe of waiting records. -/
def execCompaction (pool slot : Nat) (s : State) : Host.Outcome State Fault Refusal :=
  s.ok <|
    let d := s.dev
    if !d.mayDestage pool then d
    else match d.destages.find? fun x => x.pool == pool && x.purpose == 2 && x.abandoned && decide (x.attempts < 3) with
      | some x => replaceStripe x pool (slot / 128) (slot % 128) d
      | none =>
        if !(d.rebuildWork pool).isEmpty && !((tget d.pools pool).any (·.full)) then d
        else match d.compactNext pool with
          | none => d
          | some st =>
            if (d.liveObjs st).isEmpty then destageAt pool (slot / 128) (slot % 128) st (d.closeNow pool) d
            else beginRead { StripeRead.make st 3 .compact with whole := true } d

end Sys2Proof.Machine
end

