-- ==== Sys2Proof/Machine/Calving.lean ====
section
/-! DEFINITION. Calving (R481 to R493, R214 to R218): streams opened and closed, messages sealed and written to host memory, messages applied to a
replica namespace, and the cipher state of a stream saved and restored; and the descriptors of Varve and Calving operations at the media half. -/

namespace Sys2Proof.Machine

/-! ### Streams (R481, R482, R491) -/

/-- The stream that a command of a function names; a stream belongs to the function that opened it. -/
def Dev.streamFor (d : Dev) (fn sid : Nat) : Option Stream := (tget d.streams sid).bind fun s => if s.fn = fn then some s else none

/-- The key state of a slot for a command (R233): 0 for none against it. -/
def keyCheck (fn n : Nat) (enc : Bool) (d : Dev) : Nat :=
  if d.is RIM_STATUS.ZEROIZED then stZeroized
  else if !d.mayAddress fn n then stKeyNotOwned
  else if (d.slot n).type ≠ 3 then stKeyEmpty
  else if enc && (d.slot n).exhausted then stNonceExhausted
  else stSuccess

/-- The checks of CALVE_OPEN (R481, R482). -/
def calveOpenCheck (qu : Queue) (c : Cmd) (n : Ns) (d : Dev) : Nat :=
  let p := c.pkt
  let send := !bit (pktOpts p) 0
  let sid := pktField p 48 4
  let depth := pktLen p / 16
  let qp := pktField p 60 4
  let base := pktField p 56 4
  let snapsOk := match n.visibleSnap (pktGos p) with
    | none => false
    | some t => base == 0 || (n.visibleSnap base).any fun b => decide (b.epoch < t.epoch)
  let vector := bits (pktOpts p) 16 11
  if qu.cls = 0 then stNotPermitted
  else if (tget d.streams sid).any (·.isOpen) ∨ 0xFFFFFFEF < sid then stInvalidField
  else if send ∧ (!snapsOk ∨ !vectorOk qu.fn vector ∨ pktAddr p % 4096 ≠ 0 ∨ pktLen p % 16 ≠ 0 ∨ depth < 2 ∨ 4096 < depth) then stInvalidField
  else if send ∧ (2 ^ 20 ≤ qp ∨ (d.queue qp).isSome ∨ d.holder (qp / 64) ≠ qu.fn ∨ (d.streamOf qp).isSome) then stInvalidField
  else if !send ∧ !bit n.flags 0 then stInvalidField
  else if 512 ≤ (d.streams.filter fun e => e.2.isOpen).length then stCapacity
  else keyCheck qu.fn (pktField p 52 2) send d

/-- The message in progress of a sending stream runs on the pipeline of one of the slices offered, the first that no other stream's message
occupies (R220); it has no place where all are occupied. -/
def placeRun (offered : List Nat) (sid cls : Nat) (d : Dev) : Dev :=
  let d := dropRun sid d
  match offered.find? fun sl => (tget d.ingest.gcm sl).isNone with
  | none => d
  | some sl => d.modIng fun i => { i with gcm := tput i.gcm sl ⟨sid, cls, false, false⟩ }

/-- CALVE_OPEN (R481, R482). DESIGN CHOICE: the stream's first message runs on the lowest slice in service that has no other. -/
def execCalveOpen (q tag : Nat) (s : State) : Host.Outcome State Fault Refusal :=
  s.ok <| runCmd [0x50] q tag (fun qu c d =>
    match d.ns (pktNsid c.pkt) with
    | none => failCmd q tag stInvalidNamespace d
    | some n =>
      let p := c.pkt
      let sid := pktField p 48 4
      let send := !bit (pktOpts p) 0
      match calveOpenCheck qu c n d with
      | 0 =>
        let st : Stream := {
          fn := qu.fn, send := send, q := q, cls := qu.cls, nsid := pktNsid p, slot := pktField p 52 2, vector := bits (pktOpts p) 16 11,
          base := pktField p 56 4, target := pktGos p, first := pktSlba p, seq := pktNlb p, pos := pktSlba p, began := false,
          coded := bit (pktOpts p) 1, ringBase := pktAddr p, depth := pktLen p / 16, qpair := pktField p 60 4, tail := 0, head := 0,
          detached := false, ctx := none, ended := none, size := if send then ((n.snap (pktGos p)).map (·.size)).getD 0 else n.size,
          covered := 0, applies := [], failFrom := none, closing := none }
        let d := tellPins true sid st { d with streams := tput d.streams sid st }
        complete q tag stSuccess 0 (d.when send (placeRun d.serving sid qu.cls))
      | e => failCmd q tag e (d.when (e == stNonceExhausted) fun d => d.bump RIM_CNT_NONCE_EXH.COUNT 1)) s.dev

/-- CALVE_CLOSE (R491): the next SEQ not written or expected, and the end state. -/
def execCalveClose (q tag : Nat) (s : State) : Host.Outcome State Fault Refusal :=
  s.ok <| runCmd [0x51] q tag (fun qu c d =>
    let sid := pktField c.pkt 48 4
    match d.streamFor qu.fn sid with
    | none => failCmd q tag stInvalidField d
    | some st =>
      let d := if st.isOpen then releaseStream sid st d else d
      let ended := if st.send ∨ !st.isOpen then st.ended.getD 1 else 0
      complete q tag stSuccess (st.seq % 2 ^ 32 + 2 ^ 32 * ended) { d with streams := tdel d.streams sid }) s.dev

/-! ### What a stream sends next (R484 to R486) -/

/-- The kind of message that sends a block: EXTENT, ZERO or UNMAP, by the entry that the target view sees. -/
def sendKind (e : Option BmEntry) : Nat :=
  match e with
  | none => 4
  | some x => if x.unmapped then 4 else if x.chunk = 0 then 3 else 2

/-- Blocks from `pos` on, as pieces of one kind each: first block, length, and the kind where the piece is sent. `ks` are the blocks that may
hold an entry, in rising order; every other block is unmapped in both views. -/
def sendPieces (kind : Nat → Option Nat) (gap : Option Nat) (size : Nat) : List Nat → Nat → List (Nat × Nat × Option Nat)
  | [], pos => if pos < size then [(pos, size - pos, gap)] else []
  | k :: t, pos =>
    if k < pos then sendPieces kind gap size t pos
    else if size ≤ k then (if pos < size then [(pos, size - pos, gap)] else [])
    else (if pos < k then [(pos, k - pos, gap)] else []) ++ (k, 1, kind k) :: sendPieces kind gap size t (k + 1)

/-- The first maximal run of pieces sent with one kind: first block, length and kind. -/
def firstRun : List (Nat × Nat × Option Nat) → Option (Nat × Nat × Nat)
  | [] => none
  | (_, _, none) :: t => firstRun t
  | (s, n, some k) :: t =>
    let more := (t.takeWhile fun x => x.2.2 == some k).foldl (fun m x => m + x.2.1) 0
    some (s, n + more, k)

/-- The next run of blocks that a stream sends (R484). -/
def Dev.nextRun (d : Dev) (st : Stream) (n : Ns) : Option (Nat × Nat × Nat) :=
  let vt := n.viewEpoch st.target
  let kind (b : Nat) : Option Nat :=
    let e := d.see st.nsid vt b
    if st.base ≠ 0 ∧ e = d.see st.nsid (n.viewEpoch st.base) b then none else some (sendKind e)
  firstRun (sendPieces kind (if st.base = 0 then some 4 else none) st.size (d.knownBlocks st.nsid) st.pos)

/-- How the slices fare with the next object decoded (R179). -/
def nextReject (r : SliceRun) : (Bool × Bool) × SliceRun := (r.rejects.headD (false, false), { r with rejects := r.rejects.tail })

/-- The stored objects of a chunk read for a stream and decoded once; `again` where they come from reconstructed strips. -/
def readStored (again : Bool) (sl : Nat) (n : Ns) (c : Nat) (run : SliceRun) (d : Dev) : (Decoded ⊕ Nat) × SliceRun × Dev :=
  let (form, block, count) := d.chunkForm c
  let ords := if form = 0x10 then List.range count else [0]
  let id := if form = 0x10 then block else c
  let one (acc : (List Bytes ⊕ Nat) × SliceRun × Dev) (o : Nat) : (List Bytes ⊕ Nat) × SliceRun × Dev :=
    match acc with
    | (.inr e, run, d) => (.inr e, run, d)
    | (.inl bs, run, d) =>
      let (got, run) := match (if again then none else d.firnObjs c).bind fun os => os.find? fun x => x.id == id && x.ordinal == o && !x.bytes.isEmpty with
        | some x => (some x.bytes, run)
        | none => (run.lend.headD none, { run with lend := run.lend.tail })
      match got with
      | none =>
        let (v, d) := d.draw
        (.inr ([stTagMismatch, stTrailer, stCheckValue, stUnrecovered].getD (v % 4) stUnrecovered), run, d)
      | some b =>
        let (cmp, run) := nextCmp run
        let key := (d.slot (2 * n.tenant)).key
        match compare2 sl b.length cmp d with
        | (false, d) => (.inr stCipherCompare, run, d)
        | (true, d) => (.inl (bs ++ [xtsDec (key.take 32) (key.drop 32) (leBytes 8 id ++ leBytes 8 o) b]), run, d)
  match ords.foldl one (.inl [], run, d) with
  | (.inr e, run, d) => (.inr e, run, d)
  | (.inl bs, run, d) =>
    let plain := bs.headD []
    if form = 8 ∨ form = 9 then (.inl (.done plain), run, d)
    else
      let r := if form < 8 then binDecode form plain
        else (blockDecode block bs).map fun b => getBytes b ((c - block) * n.blockSize) n.blockSize
      let (reject, run) := nextReject run
      let (x, d) := decodeTwice again reject (d.serving.filter (· != sl)).head? sl r d
      (.inl x, run, d)

/-- What reading a chunk for a stream brought: its data, or the status of the failure. A chunk that two slices reject is read again from
reconstructed strips, and its stored copy is queued for repair where that passes (R179). -/
def readChunk (sl : Nat) (n : Ns) (c : Nat) (run : SliceRun) (d : Dev) : (Bytes ⊕ Nat) × SliceRun × Dev :=
  let id := if (d.chunkForm c).1 = 0x10 then (d.chunkForm c).2.1 else c
  match readStored false sl n c run d with
  | (.inr e, run, d) => (.inr e, run, d)
  | (.inl (.done b), run, d) => (.inl b, run, d)
  | (.inl .again, run, d) => match readStored true sl n c run d with
    | (.inr e, run, d) => (.inr e, run, d)
    | (.inl (.done b), run, d) => (.inl b, run, queueRepair id d)
    | (.inl .again, run, d) => (.inr stCheckValue, run, d)

/-- The data of a run of blocks. -/
def readRun (sl : Nat) (n : Ns) : List Nat → SliceRun → Dev → (Bytes ⊕ Nat) × SliceRun × Dev
  | [], run, d => (.inl [], run, d)
  | c :: t, run, d =>
    match readChunk sl n c run d with
    | (.inr e, run, d) => (.inr e, run, d)
    | (.inl b, run, d) => match readRun sl n t run d with
      | (.inr e, run, d) => (.inr e, run, d)
      | (.inl x, run, d) => (.inl (b ++ x), run, d)

/-- The message a stream writes next: its kind, first block, blocks and plaintext, and whether that is coded. -/
structure NextMsg where
  kind : Nat
  slba : Nat
  nlb : Nat
  text : Bytes
  coded : Bool

/-- The LABEL of a snapshot; 0 for the base of a full stream (R486). -/
def Ns.label (n : Ns) (snap : Nat) : Nat := if snap = 0 then 0 else ((n.snap snap).map (·.label)).getD 0

/-- The next message of a stream for a buffer of `len` bytes (R484, R486), or the status of a failure. -/
def nextMsg (sl len : Nat) (st : Stream) (n : Ns) (run : SliceRun) (d : Dev) : (NextMsg ⊕ Nat) × SliceRun × Dev :=
  if !st.began then
    (.inl ⟨1, 0, 0, leBytes 8 (n.label st.base) ++ leBytes 8 (n.label st.target) ++ leBytes 8 st.size ++ leBytes 8 st.first, false⟩, run, d)
  else match d.nextRun st n with
    | none => (.inl ⟨5, 0, 0, leBytes 8 (st.size - st.first) ++ leBytes 8 0, false⟩, run, d)
    | some (slba, cnt, kind) =>
      if kind ≠ 2 then (.inl ⟨kind, slba, min cnt (2 ^ 32 - 1), [], false⟩, run, d)
      else
        let nlb := min cnt (min (2 ^ 24 / n.blockSize) ((len - 80) / n.blockSize))
        let chunks := (List.range nlb).map fun i => (d.chunkAt st.nsid (n.viewEpoch st.target) (slba + i)).getD 0
        match readRun sl n chunks run d with
        | (.inr e, run, d) => (.inr e, run, d)
        | (.inl data, run, d) =>
          if !st.coded then (.inl ⟨2, slba, nlb, data, false⟩, run, d)
          else
            let (code, run) := nextCode run
            if code.isEmpty ∨ data.length ≤ code.length then (.inl ⟨2, slba, nlb, data, false⟩, run, d)
            else if unpack code data.length = some data then (.inl ⟨2, slba, nlb, code, true⟩, run, d)
            else (.inl ⟨2, slba, nlb, data, false⟩, run, verifyMismatch sl d)

/-- The header of a message (R485). -/
def msgHeader (sid seq keyId ctr : Nat) (big : Bool) (m : NextMsg) : Bytes :=
  leBytes 2 0x5C4B ++ leBytes 1 1 ++ leBytes 1 m.kind ++ leBytes 4 sid ++ leBytes 4 seq ++ leBytes 4 keyId ++ gcmIv sid ctr ++
    leBytes 4 m.text.length ++ leBytes 8 m.slba ++ leBytes 4 m.nlb ++ leBytes 1 (b2n m.coded + 2 * b2n big) ++ List.replicate 19 0

/-- A descriptor of a stream's ring is written back, and the vector signalled (R483). -/
def writeDesc (st : Stream) (addr len stat : Nat) (d : Dev) : Dev :=
  trigger st.fn st.vector (d.ask (.hostWrite st.fn (st.ringBase + 16 * st.head) (leBytes 8 addr ++ leBytes 4 len ++ leBytes 4 stat) false))

/-- A sending stream stops (R490): the descriptor of the message in progress is written back as FAILED, and the loss is posted. -/
def stopStream (sid state status addr : Nat) (st : Stream) (d : Dev) : Dev :=
  let d := (writeDesc st addr 0 4 d).modStream sid fun s => { s with ended := some state, head := (s.head + 1) % s.depth }
  fnEvent st.fn evStreamStopped (sid + 2 ^ 32 * state + 2 ^ 40 * status) (dropRun sid (d.set VRV_STATUS.STREAM_FAULT))

/-- A message is sealed and written into its buffer, then its descriptor (R483, R485). -/
def writeMsg (sid sl addr ctr : Nat) (st : Stream) (n : Ns) (m : NextMsg) (run : SliceRun) (d : Dev) : Dev :=
  let (cmp, _) := nextCmp run
  let k := d.slot st.slot
  match compare2 sl m.text.length cmp d with
  | (false, d) => stopStream sid 3 stCipherCompare addr st d
  | (true, d) =>
    let h := msgHeader sid st.seq k.keyId ctr n.big m
    let iv := gcmIv sid ctr
    let ct := gcmCrypt k.key iv m.text
    let b := h ++ ct ++ gcmTag k.key iv h ct
    let last := m.kind == 5
    let d := writeDesc st addr b.length (1 + 2 * b2n last) (d.ask (.hostWrite st.fn addr b false))
    let d := d.modStream sid fun s => { s with
      seq := s.seq + 1, head := (s.head + 1) % s.depth, began := true, pos := if m.kind = 1 ∨ last then s.pos else m.slba + m.nlb,
      ended := if last then some 0 else none, ctx := none, covered := s.covered + m.nlb }
    let d := d.bump VRV_CNT_MSG_SENT.COUNT 1
    if last then dropRun sid d else placeRun [sl] sid st.cls d

/-- CALVE_MESSAGE_WRITE (R484, R490): the stream writes its next message into the next available buffer. `run` is the descriptor as it was
read, the slice, what each stored object brought that the Firn cache does not hold (`lend`), the coding and the duplicated computations. A
descriptor out of the limits of R483 stops the stream in state 03h; its status is not stated: a free value. -/
def execCalveMessageWrite (stream : Nat) (run : SliceRun) (s : State) : Host.Outcome State Fault Refusal :=
  s.ok <|
    let d := s.dev
    match tget d.streams stream with
    | none => d
    | some st =>
      if !st.send ∨ st.detached ∨ st.ended.isSome ∨ st.head = st.tail ∨ d.holding st.fn then d
      else
      let d := d.ask (.hostRead st.fn (st.ringBase + 16 * st.head) 16 (.calvingDesc stream) false)
      match run.data, d.ns st.nsid with
        | none, _ =>
          let (a, d) := d.draw
          stopStream stream 3 stHostMemory (a % 2 ^ 64) st d
        | some _, none => d
        | some desc, some n =>
          let addr := getLe desc 0 8
          let len := getLe desc 8 4
          let stop (e : Nat) (d : Dev) : Dev := stopStream stream 3 e addr st d
          let k := d.slot st.slot
          if addr % 64 ≠ 0 ∨ len % 4096 ≠ 0 ∨ len < 2 * n.blockSize ∨ 2 ^ 24 + 4096 < len then
            let (v, d) := d.draw
            stop (v % 2 ^ 16) d
          else if 2 ^ 32 ≤ st.seq then
            let (v, d) := d.draw
            stop (v % 2 ^ 16) d
          else if d.is RIM_STATUS.ZEROIZED then stop stZeroized d
          else if k.type ≠ 3 then stop stKeyEmpty d
          else if k.exhausted ∧ st.ctx.all (fun x => decide (x.counter % 2 ^ 63 = 2 ^ 63 - 1)) then stopStream stream 2 stNonceExhausted addr st (d.bump RIM_CNT_NONCE_EXH.COUNT 1)
          else if d.rimeBlocked then stop stInternal d
          else match d.sliceFor run.slice with
            | none => stop stInternal d
            | some sl =>
              if st.ctx.isNone ∧ k.left = 0 then
                match askNonce st.slot d with
                | (0, d) => d
                | (e, d) => stop e d
              else match nextMsg sl len st n run d with
                | (.inr e, _, d) => stop e d
                | (.inl m, run, d) =>
                  match st.ctx with
                  | some x => writeMsg stream sl addr x.counter st n m run d
                  | none => match takeCounter st.slot d with
                    | (some ctr, d) => writeMsg stream sl addr ctr st n m run d
                    | (none, d) => d

/-! ### CALVE_APPLY (R487 to R489) -/

/-- An earlier apply of the stream has not ended: its record has not committed. -/
def Dev.applyBefore (d : Dev) (sid order : Nat) : Bool :=
  d.rings.queues.any fun e => e.2.cmds.any fun c => pktOp c.pkt == 0x52 && pktField c.pkt 48 4 == sid && decide (c.order < order) &&
    c.stage != .orphan

/-- The checks of a message's header and length (R485, R486, R488), before its tag: 0 for none against it. DEDUCED: a header that R485 and R486
do not allow completes with 01h/02h. -/
def headerCheck (b : Bytes) (sid : Nat) (st : Stream) (n : Ns) (d : Dev) : Nat :=
  let kind := getLe b 3 1
  let clen := getLe b 28 4
  let slba := getLe b 32 8
  let nlb := getLe b 40 4
  let sflags := getLe b 44 1
  let iv := beNat (getBytes b 16 4)
  let coded := bit sflags 0
  let full := nlb * n.blockSize
  if getLe b 0 2 ≠ 0x5C4B ∨ getLe b 2 1 ≠ 1 ∨ kind = 0 ∨ 5 < kind ∨ getLe b 4 4 ≠ sid then stInvalidField
  else if getLe b 12 4 ≠ (d.slot st.slot).keyId then stKeyEmpty
  else if iv ≠ sid ∨ b.length ≠ clen + 80 ∨ 3 < sflags ∨ bit sflags 1 ≠ n.big ∨ (coded ∧ kind ≠ 2) ∨
      (getBytes b 45 19).any (· != 0) then stInvalidField
  else if (kind = 1 ∧ clen ≠ 32) ∨ (kind = 5 ∧ clen ≠ 16) ∨ ((kind = 1 ∨ kind = 5) ∧ (slba ≠ 0 ∨ nlb ≠ 0)) then stInvalidField
  else if (kind = 3 ∨ kind = 4) ∧ (clen ≠ 0 ∨ nlb = 0) then stInvalidField
  else if kind = 2 ∧ (nlb = 0 ∨ 2 ^ 24 < full ∨ (if coded then full ≤ clen else clen ≠ full)) then stInvalidField
  else if n.size < slba + nlb then stInvalidField
  else stSuccess

/-- The GHASH accumulator after the associated data and text that a saved context had absorbed (R215). -/
def ghashAt (key b : Bytes) (aad text : Nat) : Nat :=
  ghash (beNat (aesEnc key (List.replicate 16 0))) 0 (pieces 16 ((b.take 64).take aad) ++ pieces 16 ((b.drop 64).take text))

/-- The tag of a message is right (R485), and so are the counter and accumulator of a context restored for it that had taken in part of the
message (R217). -/
def tagOk (key b : Bytes) (ctx : Option GcmCtx) : Bool :=
  let ct := (b.drop 64).take (b.length - 80)
  gcmTag key (getBytes b 16 12) (b.take 64) ct == b.drop (b.length - 16) &&
    ctx.all fun x => x.aadLen + x.textLen == 0 || (x.counter == beNat (getBytes b 20 8) && x.ghash == ghashAt key b x.aadLen x.textLen)

/-- An accepted message whose tag is right is carried out (R487 to R489): the blocks of an EXTENT go as a WRITE of them, every other kind crosses
to the media half. -/
def applyNow (qi : Nat) (qu : Queue) (c : Cmd) (n : Ns) (sid seq : Nat) (st : Stream) (b : Bytes) (run : SliceRun) (d : Dev) : Dev :=
  let kind := getLe b 3 1
  let slba := getLe b 32 8
  let nlb := getLe b 40 4
  let text := gcmCrypt (d.slot st.slot).key (getBytes b 16 12) ((b.drop 64).take (b.length - 80))
  let full := nlb * n.blockSize
  if kind = 2 then
    match (if bit (getLe b 44 1) 0 then unpack text full else some text) with
    | none => failCmd qi c.tag stInvalidField d
    | some data =>
      if ((tget d.pools n.pool).map (·.full)).getD false then failCmd qi c.tag stCapacity d
      else
        let c := { c with pkt := BitVec.ofNat 512 (c.pkt.toNat + slba * 2 ^ 128 + nlb * 2 ^ 192) }
        settleWrite qi qu c n run data (d.modCmd qi c.tag fun _ => c)
  else
    let a := [kind, slba, nlb, seq, sid] ++ (List.range 4).map fun i => getLe text (8 * i) 8
    crossVarve qi qu c 0 a d

/-- A CALVE_APPLY takes its message (R487, R488). -/
def takeApply (qi : Nat) (run : SliceRun) (qu : Queue) (c : Cmd) (st : Stream) (n : Ns) (b : Bytes) (d : Dev) : Dev :=
  let sid := pktField c.pkt 48 4
  let seq := getLe b 8 4
  let fail (e : Nat) (d : Dev) : Dev := failCmd qi c.tag e d
  if st.failFrom.any (fun o => decide (c.order < o)) then fail stInvalidField d
  else if seq ≠ st.seq then complete qi c.tag stInvalidField st.seq d
  else
    let d := d.modStream sid fun s => { s with seq := seq + 1, applies := s.applies ++ [(qi, c.tag, seq)], failFrom := none }
    match headerCheck b sid st n d with
    | 0 =>
      if (d.slot st.slot).type ≠ 3 then fail stKeyEmpty d
      else if d.rimeBlocked then fail stInternal d
      else match d.sliceFor run.slice with
        | none => fail stInternal d
        | some sl =>
          let (cmp, run) := nextCmp run
          match compare2 sl (b.length - 80) cmp d with
          | (false, d) => fail stCipherCompare d
          | (true, d) =>
            if !tagOk (d.slot st.slot).key b st.ctx then fail stAuthFailed d
            else applyNow qi qu c n sid seq st b run (d.modStream sid fun s => { s with ctx := none })
    | e => fail e d

/-- CALVE_APPLY (R487, R488): `run` brings the message as it was read from host memory, the slice that opens it, and how the blocks of an
EXTENT fare as a write. The applies of a stream go one after the other; one of a saved stream waits for CALVE_RESTORE (R492). -/
def execCalveApply (q tag : Nat) (run : SliceRun) (s : State) : Host.Outcome State Fault Refusal :=
  s.ok <| runCmd [0x52] q tag (fun qu c d =>
    if !c.chunks.isEmpty then runWrite q run qu c d
    else
      let sid := pktField c.pkt 48 4
      match d.streamFor qu.fn sid, d.ns (pktNsid c.pkt) with
      | some st, some n =>
        if st.send ∨ !st.isOpen ∨ st.nsid ≠ pktNsid c.pkt ∨ !bit n.flags 0 then failCmd q tag stInvalidField d
        else if st.detached ∨ d.applyBefore sid c.order then d
        else match run.data with
          | none => failCmd q tag stHostMemory (readHost q qu c d)
          | some b => takeApply q run qu c st n (padTo c.dataLen b) (readHost q qu c d)
      | _, none => failCmd q tag stInvalidNamespace d
      | none, some _ => failCmd q tag stInvalidField d) s.dev

/-- The newest snapshot of a namespace that commands may name. -/
def Ns.newest (n : Ns) : Option Snap := (n.snaps.filter fun s => !s.hidden).getLast?

/-- A BEGIN may be accepted (R489). -/
def beginOk (n : Ns) (base target first : Nat) : Bool :=
  (first == 0 && (base == 0 || n.newest.any fun s => s.label == base)) ||
    (n.applyLabels == some (base, target) && decide (first ≤ n.applyMark.2.2))

/-- An apply that stores no data, at the media half (R489): its record with its APPLY_MARK. -/
def applyRecord (c : MCtx) (a : Nat → Nat) (d : Dev) : Dev :=
  match d.ns c.nsid with
  | none => mediaComplete c.q c.tag stInvalidNamespace 0 0 d
  | some n =>
    let fail (st : Nat) : Dev := mediaComplete c.q c.tag st 0 0 d
    let (kind, slba, nlb, seq, sid) := (a 2, a 3, a 4, a 5, a 6)
    let mark (r : Nat) : MapDelta := .applyMark c.nsid (seq + 1) sid r
    let res (r : Nat) : Dev := d.modCtx c.q c.tag fun c => { c with result := r }
    if kind = 1 then
      if !beginOk n (a 7) (a 8) (a 10) ∨ !sizeOk (a 9) then fail stInvalidField
      else formMap c n.pool [({ n with size := a 9 }).setEntry c.nsid, .applyLabels c.nsid (a 7) (a 8), mark (a 10)] (res (a 10))
    else if kind = 5 then
      match n.applyLabels with
      | none => fail stInvalidField
      | some l =>
        if d.snapLimit c.nsid n then fail stCapacity
        else formMap c n.pool [.snapMark c.nsid 0 l.2, mark n.size, .applyEnd c.nsid] d
    else
      let body := if kind = 3 then [MapDelta.bind c.nsid slba nlb 0] else unbindRuns 64 c.nsid slba nlb
      let r := mapRec c n.pool (body ++ [mark (slba + nlb)]) d
      formRec { r with rtype := rtWrite, aux := 0, slba := slba, nlb := nlb } ((res (slba + nlb)).modCtx c.q c.tag fun c => { c with formed := true })

/-- VARVE_OPERATION (R251, R471): a Varve or Calving operation descriptor arrives. Its operands: the opcode, FLAGS, then LABEL, or for an apply
the kind, SLBA, NLB, SEQ, stream ID and the four numbers of its plaintext. -/
def execVarveOperation (msg : Msg) (s : State) : Host.Outcome State Fault Refusal :=
  schTurn .media .varveOp msg s fun s => s.ok <| mediaMsg msg [0x48, 0x49, 0x4A, 0x52] false (fun _ _ => none) (fun c =>
    let a (i : Nat) : Nat := msg.args.getD i 0
    let op := pktOp c.pkt
    let d := s.dev
    if a 0 ≠ op ∨ msg.nsid ≠ pktNsid c.pkt ∨ (d.ctx msg.q msg.tag).isSome ∨ (op < 0x50 ∧ op ≠ 0x48 ∧ msg.ref ≠ snapOperand c.pkt) then none
    else
      let d := openCtx msg (.varve op) msg.ref 0 0 (a 1) 0 0 (0, 0, 0) d
      match d.ctx msg.q msg.tag with
      | none => none
      | some x => some (if op = 0x52 then applyRecord x a d else varveNow op msg.ref (a 2) x d)) s.dev

/-! ### Saving and restoring a stream's cipher state (R214 to R218, R492) -/

/-- The 64 bytes of a saved context (R215). -/
def ctxBytes (sid serial keyId side : Nat) (st : Stream) (x : GcmCtx) : Bytes :=
  leBytes 1 1 ++ leBytes 1 (b2n (!st.send)) ++ leBytes 2 st.slot ++ leBytes 4 keyId ++ leBytes 4 sid ++ leBytes 1 side ++ leBytes 3 0 ++
    leBytes 8 x.counter ++ leBytes 8 x.aadLen ++ leBytes 8 x.textLen ++ leBytes 8 serial ++ beBytes 16 x.ghash

/-- The cipher state that CALVE_SAVE writes out. Messages are whole steps of this model, so the message in progress has absorbed nothing yet
(DESIGN CHOICE: one of the boundaries R215 allows); a sending stream's message has its counter, or that of the end where the slot is exhausted; that
of a receiving stream is not known before its message came: a free value. -/
def saveCtx (st : Stream) (d : Dev) : Option GcmCtx × Dev :=
  match st.ctx with
  | some x => (some x, d)
  | none =>
    if st.send then
      match takeCounter st.slot d with
      | (some c, d) => (some ⟨c, 0, 0, 0⟩, d)
      | (none, d) =>
        if (d.slot st.slot).exhausted then (some ⟨2 ^ 63 * d.twinSide + 2 ^ 63 - 1, 0, 0, 0⟩, d) else (none, (askNonce st.slot d).2)
    else let (v, d) := d.draw; (some ⟨v % 2 ^ 64, 0, 0, 0⟩, d)

/-- A context wrapped (R199, R215), by a pipeline whose duplicated computation must agree (R222), or the status of the failure. DESIGN CHOICE: the
lowest slice in service; how the computation fares is a free value. -/
def wrapCtx (b : Bytes) (d : Dev) : (Bytes ⊕ Nat) × Dev :=
  match d.rime.devHost, d.serving.head? with
  | none, _ => (.inr stKeyEmpty, d)
  | _, none => (.inr stInternal, d)
  | some k, some sl =>
    let (v, d) := d.draw
    match compare2 sl 64 (if v % 3 = 0 then .agree else if v % 3 = 1 then .recovered else .failed) d with
    | (false, d) => (.inr stCipherCompare, d)
    | (true, d) => (.inl (kwWrap k b), d)

/-- CALVE_SAVE (R214 to R216, R492). It waits where the message in progress has no counter value yet. DESIGN CHOICE: a stream that is detached
already may be saved again, of which R216 says nothing; an encrypt context then has a further pending record. -/
def execCalveSave (q tag : Nat) (s : State) : Host.Outcome State Fault Refusal :=
  s.ok <| runCmd [0x53] q tag (fun qu c d =>
    let sid := pktField c.pkt 48 4
    let wrapped := pktField c.pkt 52 1 == 1
    match d.streamFor qu.fn sid with
    | none => failCmd q tag stInvalidField d
    | some st =>
      if !st.isOpen then failCmd q tag stInvalidField d
      else if st.send ∧ 256 ≤ d.rime.pending.length then failCmd q tag stCapacity d
      else if (wrapped ∨ st.send) ∧ d.rimeBlocked then failCmd q tag stInternal d
      else match saveCtx st d with
        | (none, d) => d
        | (some x, d) =>
          let d := d.when st.send fun d => drbgServe 1 (d.modStream sid fun s => { s with ctx := some x })
          let (v, d) := if st.send then d.draw else (0, d)
          let serial := v % 2 ^ 64
          let b := ctxBytes sid serial (d.slot st.slot).keyId d.twinSide st x
          match (if wrapped then wrapCtx b d else (.inl b, d)) with
          | (.inr e, d) => failCmd q tag e d
          | (.inl b, d) =>
            let d := d.when st.send fun d => d.modRime fun r => { r with pending := r.pending ++ [⟨st.slot, x.counter, x.textLen, serial⟩] }
            let d := (dropRun sid d).modStream sid fun s => { s with detached := true }
            complete q tag stSuccess 0 (sendData qu.fn q tag c.segs b false d).1) s.dev

/-- CALVE_RESTORE (R217, R492, R818): `data` is the context as it was read, `slice` the slice that unwraps and checks it, and `cmp` how its
duplicated computation fares. A context that is no GCM context, or for the other direction or another stream, completes with 01h/02h (DEDUCED).
DESIGN CHOICE: a stream that is not detached may be restored, of which R217 says nothing. -/
def execCalveRestore (q tag : Nat) (data : Option Bytes) (slice : Nat) (cmp : Cmp) (s : State) : Host.Outcome State Fault Refusal :=
  s.ok <| runCmd [0x54] q tag (fun qu c d =>
    let sid := pktField c.pkt 48 4
    let wrapped := pktField c.pkt 52 1 == 1
    let fail (e : Nat) (d : Dev) : Dev := failCmd q tag e d
    match d.streamFor qu.fn sid, data with
    | none, _ => fail stInvalidField d
    | some _, none => fail stHostMemory d
    | some st, some b =>
      if !st.isOpen then fail stInvalidField d
      else if d.rimeBlocked then fail stInternal d
      else match d.sliceFor slice with
        | none => fail stInternal d
        | some sl => match compare2 sl 64 cmp d with
          | (false, d) => fail stCipherCompare d
          | (true, d) =>
            let plain := if wrapped then d.rime.devHost.bind fun k => kwUnwrap k (padTo 72 b) else some (padTo 64 b)
            match plain with
            | none => fail stUnwrapFailed (d.bump RIM_CNT_UNWRAP_FAIL.COUNT 1)
            | some p =>
              let x : GcmCtx := ⟨getLe p 16 8, getLe p 24 8, getLe p 32 8, beNat (getBytes p 48 16)⟩
              let rec' : SaveRec := ⟨getLe p 2 2, x.counter, x.textLen, getLe p 40 8⟩
              let k := d.slot st.slot
              if getLe p 0 1 ≠ 1 ∨ 1 < getLe p 1 1 then fail stInvalidField d
              else if getLe p 1 1 = 0 ∧ !d.rime.pending.contains rec' then fail stUnwrapFailed (d.bump RIM_CNT_UNWRAP_FAIL.COUNT 1)
              else if getLe p 1 1 ≠ b2n (!st.send) ∨ getLe p 8 4 ≠ sid then fail stInvalidField d
              else if k.type = 0 ∨ k.keyId ≠ getLe p 4 4 then fail stKeyEmpty d
              else
                let d := d.when st.send fun d => placeRun [sl] sid st.cls (d.modRime fun r => { r with pending := without r.pending rec' })
                complete q tag stSuccess 0 (d.modStream sid fun s => { s with detached := false, ctx := some x })) s.dev

end Sys2Proof.Machine
end

