-- ==== Sys2Proof/Machine/Holdup.lean ====
section
/-! DEFINITION. The holdup pack and its gauge (chapter 14): charge counting, resistance samples, rest points and learn
cycles, the energy model, faults, the pack's connection, and the records of the gauge EEPROM. Charge is counted in
units of 0.1 mA × 1 ms, of which 36,000 make 1 µAh. -/

namespace Sys2Proof.Machine

/-! ### Tables and interpolation -/

/-- The cell open-circuit voltages of R690 in mV, at 0 % to 100 % in steps of 10 %. -/
def ocvDefault : List Nat := [1900, 2220, 2280, 2320, 2350, 2380, 2410, 2450, 2500, 2580, 2700]

/-- The open-circuit voltage table in force (R685). -/
def Dev.ocvTable (d : Dev) : List Nat := if d.image.ocv.length = 11 then d.image.ocv else ocvDefault

/-- The points of k(T): temperature in 0.1 °C, k in millionths (R690). -/
def kTable : List (Int × Nat) :=
  [(-400, 6000000), (-200, 3000000), (0, 1800000), (250, 1000000), (450, 850000), (650, 800000)]

/-- k(T) in millionths, by linear interpolation; outside the table the end value holds (R690). -/
def kOf (t : Int) : Nat :=
  let rec go : List (Int × Nat) → Nat
    | [] => 0
    | [(_, k)] => k
    | (a, ka) :: (b, kb) :: rest =>
      if t ≤ a then ka
      else if t ≤ b then ((ka : Int) - ((ka : Int) - kb) * (t - a) / (b - a)).toNat
      else go ((b, kb) :: rest)
  go kTable

/-- The pack's open-circuit voltage in nV at a charge given in units of Q_FULL / 200 / Q_FULL: `q200` is 200 times the
charge in µAh (R690). -/
def packOcv (tab : List Nat) (qFull q200 : Nat) : Nat :=
  let i := q200 / (20 * qFull)
  let r := q200 % (20 * qFull)
  let a : Int := (tab.getD i 0 : Nat)
  let b : Int := (tab.getD (i + 1) (tab.getD i 0) : Nat)
  (4 * (a * 1000000 + (b - a) * 1000000 * r / (20 * qFull : Nat))).toNat

/-- The state of charge in parts of 10^6 for a pack voltage in mV, where it lies in the table (R690). -/
def socOf (tab : List Nat) (mv : Nat) : Option Nat :=
  let rec go : Nat → List Nat → Option Nat
    | _, [] => none
    | i, [a] => if mv = 4 * a then some (i * 100000) else none
    | i, a :: b :: rest =>
      if 4 * a ≤ mv ∧ mv < 4 * b then some (i * 100000 + 100000 * (mv - 4 * a) / (4 * b - 4 * a))
      else go (i + 1) (b :: rest)
  go 0 tab

/-- The integer square root, found bit by bit from bit `n - 1` down. -/
def isqrtBits (v : Nat) : Nat → Nat → Nat
  | 0, r => r
  | n + 1, r => isqrtBits v n (if (r + 2 ^ n) * (r + 2 ^ n) ≤ v then r + 2 ^ n else r)

/-- The integer square root of a number below 2^80. -/
def isqrt (v : Nat) : Nat := isqrtBits v 40 0

/-- The energy in nJ that the pack delivers at 200 W as its charge falls (R696). `q` and `lo` are 200 times the charge in
µAh, `rr` the resistance in units of 10^-12 Ω. Real numbers are rounded down at 1 nV and 1 nJ (see the log). -/
def deliverSteps (tab : List Nat) (qFull rr lo : Nat) : Nat → Nat → Nat → Nat
  | 0, _, e => e
  | fuel + 1, q, e =>
    if q < lo + qFull then e
    else
      let v := packOcv tab qFull q
      if v * v < 800 * rr * 1000000 then e
      else
        let diff := v - isqrt (v * v - 800 * rr * 1000000)
        if rr < 15 * diff then e
        else deliverSteps tab qFull rr lo fuel (q - qFull) (e + qFull * 7200 * rr / diff)

/-- The energy delivered from a charge down to another, in nJ; none where the resistance is 0 and R696 divides by 0. -/
def deliver (tab : List Nat) (qFull ir k hi lo : Nat) : Option Nat :=
  if qFull = 0 then some 0 else if ir * k = 0 then none else some (deliverSteps tab qFull (ir * k) lo 201 hi 0)

/-- E_DUMP of a region of `g` GiB in 0.1 J (R695). -/
def eDump (g : Nat) : Nat := 600 + 168 * g

/-- Q_RES in steps of Q_FULL / 200: the smallest from which 2 × E_DUMP(32) is delivered at −40 °C (R697). -/
def reserveSteps (tab : List Nat) (qFull ir : Nat) : Option Nat :=
  (List.range 201).find? fun m =>
    match deliver tab qFull ir 6000000 (m * qFull) 0 with
    | some e => decide (1195200000000 ≤ e)
    | none => false

/-! ### Registers of the gauge -/

/-- The pack temperature in 0.1 °C (R710). -/
def Dev.packTemp (d : Dev) : Int := ofBits 12 (d.rd HLD_MEAS.TEMP)

/-- A Firn dump runs (R331). -/
def Dev.dumpRuns (d : Dev) : Bool := d.firn.dumping.isSome

/-- The state code of the pack (R701). -/
def Gauge.state (g : Gauge) : Nat := if g.absent then 0 else if !g.enable then 1 else if g.faults.isEmpty then 2 else 3

/-- HLD_STATUS.STATE follows the gauge. -/
def packState (d : Dev) : Dev := d.wr HLD_STATUS.STATE d.gauge.state

/-- The HOLDUP event (R772). -/
def holdupEvent (d : Dev) : Dev :=
  mediaEvent evHoldup (d.rd HLD_STATUS.STATE + 4 * d.rd HLD_STATUS.DUMP_READY + 8 * d.rd HLD_STATUS.FAULT_CAUSE +
    128 * d.rd HLD_STATUS.EOL) d

/-- Charge-enable may be asserted (R687, R689, R693, R702). -/
def Dev.mayCharge (d : Dev) : Bool :=
  let g := d.gauge
  g.enable && !g.absent && !g.gap && decide (-300 ≤ d.packTemp) && decide (d.packTemp ≤ 550) && !d.dumpRuns && !g.bleed &&
    decide (g.learn < 2) && !g.full && !g.chgOff && !g.faults.contains 4

/-- Charge-enable and its pin follow their conditions (R689). -/
def chargeUpdate (d : Dev) : Dev :=
  if d.gauge.charge = d.mayCharge then d
  else ((d.modGauge fun g => { g with charge := d.mayCharge }).put HLD_STATUS.CHARGING d.mayCharge).emit
    (.pin "HLD_CHG_EN" d.mayCharge)

/-- The enable output and the pack state set (R700 to R703). -/
def packEnable (on : Bool) (d : Dev) : Dev :=
  let d := d.when (d.gauge.enable != on) fun d => d.emit (.pin "HLD_EN" on)
  chargeUpdate (packState (d.modGauge fun g => { g with enable := on, points := if on then g.points else [] }))

/-- The bleed load switched (R693). -/
def bleedSet (on : Bool) (d : Dev) : Dev :=
  (d.when (d.gauge.bleed != on) fun d => d.emit (.pin "HLD_LEARN" on)).modGauge fun g => { g with bleed := on }

/-! ### EEPROM records -/

/-- A record of the gauge EEPROM (R705). -/
def gaugeRecord (reason : Nat) (d : Dev) : Bytes :=
  let g := d.gauge
  let body := leBytes 4 0x48D70E5B ++ leBytes 1 1 ++ leBytes 1 reason ++ leBytes 2 0 ++ leBytes 4 g.gseq ++
    leBytes 4 (d.rd HLD_CHARGE.Q_FULL) ++ leBytes 4 (d.rd HLD_RESERVE.IR25) ++ leBytes 4 (d.rd HLD_CHARGE.Q_REM) ++
    leBytes 8 d.tbMedia ++ leBytes 4 (g.thru / 36000000) ++ leBytes 2 g.learns ++ leBytes 2 g.dumps ++
    leBytes 2 (toBits 16 g.tMin) ++ leBytes 2 (toBits 16 g.tMax) ++ leBytes 4 (g.minOut / 60000) ++
    leBytes 4 (g.ageMs / 3600000) ++ leBytes 1 g.lastFault ++ leBytes 7 0
  body ++ leBytes 4 (crc32c body)

/-- A record written into slot GSEQ mod 128 (R705). -/
def writeRecord (reason : Nat) (d : Dev) : Dev :=
  let r := gaugeRecord reason d
  d.modGauge fun g => { g with eeprom := tput g.eeprom (g.gseq % 128) r, gseq := g.gseq + 1 }

/-- A record's magic and check pass (R705). -/
def recordValid (r : Bytes) : Bool :=
  r.length == 64 && getLe r 0 4 == 0x48D70E5B && getLe r 60 4 == crc32c (r.take 60)

/-- The valid record with the highest GSEQ (R705). -/
def newestRecord (t : Tab Bytes) : Option Bytes :=
  t.foldl (fun best e =>
    if recordValid e.2 && (best.elim true fun b => decide (getLe b 8 4 < getLe e.2 8 4)) then some e.2 else best) none

/-! ### Faults (R702) -/

/-- A learn cycle ends without an accepted Q_NEW (R693). -/
def learnFail (cause : Nat) (d : Dev) : Dev :=
  if d.gauge.learn = 0 then d
  else
    let d := bleedSet false d
    chargeUpdate ((((d.modGauge fun g => { g with learn := 0 }).clr HLD_STATUS.LEARNING).set HLD_STATUS.LEARN_FAIL).wr
      HLD_STATUS.LEARN_CAUSE cause)

/-- A fault of the pack is raised (R702). -/
def packFault (cause : Nat) (d : Dev) : Dev :=
  let d := (d.set HLD_STATUS.FAULT).wr HLD_STATUS.FAULT_CAUSE cause
  let d := fault .media 0x10 0 cause false d
  let d := d.modGauge fun g => { g with
    lastFault := cause,
    faults := if 4 ≤ cause ∧ cause ≤ 7 ∧ !g.faults.contains cause then g.faults ++ [cause] else g.faults,
    chgOff := g.chgOff || cause == 8, held := g.held || decide (cause ≤ 3) }
  let d := learnFail 4 d
  let d := if cause ≤ 3 then packEnable false d else chargeUpdate (packState d)
  writeRecord 7 (holdupEvent d)

/-! ### Q_FULL, IR25 and what follows them -/

/-- The pack is at its end of life (R704): EOL is set and an event posted once. -/
def endOfLife (d : Dev) : Dev :=
  let eol := decide (d.rd HLD_CHARGE.Q_FULL < 1000 * d.rd HLD_PACK.Q_EOL) ||
    decide (d.rd HLD_PACK.IR_EOL < d.rd HLD_RESERVE.IR25)
  let d := d.put HLD_STATUS.EOL eol
  if eol && !d.gauge.eol then holdupEvent (d.modGauge fun g => { g with eol := true })
  else if !eol then d.modGauge fun g => { g with eol := false }
  else d

/-- Q_RES computed anew after Q_FULL or IR25 changed (R697). Where none exists the register keeps its value and the pack has fault 6h, once the
pack parameters are known (R702). -/
def reserveUpdate (d : Dev) : Dev :=
  let qf := d.rd HLD_CHARGE.Q_FULL
  let res := reserveSteps d.ocvTable qf (max (d.rd HLD_PACK.IR_EOL) (d.rd HLD_RESERVE.IR25))
  let d := d.modGauge fun g => { g with res := res }
  endOfLife (match res with
    | some m => d.wr HLD_RESERVE.Q_RES (m * qf / 200)
    | none => d.when (qf != 0 && !d.gauge.faults.contains 6) (packFault 6))

/-- The remaining charge set, in µAh, within 0 and Q_FULL (R686). -/
def setCharge (q : Nat) (d : Dev) : Dev :=
  (d.wr HLD_CHARGE.Q_REM (min q (d.rd HLD_CHARGE.Q_FULL))).modGauge fun g => { g with fine := 0 }

/-- The state of charge of a voltage; outside the table the specification states none, and it is a free value (R690). -/
def socDraw (mv : Nat) (d : Dev) : Nat × Dev :=
  match socOf d.ocvTable mv with
  | some s => (s, d)
  | none => (min d.draw.1 1000000, d.draw.2)

/-- A pack change (R704). -/
def packChange (d : Dev) : Dev :=
  let d := learnFail 4 d
  let d := (d.wr HLD_CHARGE.Q_FULL (800 * d.rd HLD_PACK.Q_RATED)).wr HLD_RESERVE.IR25 (d.rd HLD_PACK.IR_EOL)
  let d := setCharge (d.rd HLD_CHARGE.Q_REM) d
  let d := (d.set HLD_STATUS.PACK_NEW).set HLD_STATUS.PROVISIONAL
  let t := d.packTemp
  let d := d.modGauge fun g => { g with
    thru := 0, learns := 0, dumps := 0, tMin := t, tMax := t, minOut := 0, ageMs := 0, lastFault := 0, points := [],
    counted := 0, lastLearn := 0, eol := false }
  writeRecord 4 (reserveUpdate d)

/-- The gauge starts after VAON returned: it takes the newest valid record, or declares a pack change (R704, R705). DESIGN CHOICE: the days to
the next automatic learn cycle then run from this start. -/
def gaugeStart (d : Dev) : Dev :=
  let d := d.modGauge fun g => { g with gap := true, points := [], hist := [], steps := [], zeroing := false }
  match newestRecord d.gauge.eeprom with
  | none => packChange d
  | some r =>
    let d := d.modGauge fun g => { g with
      gseq := getLe r 8 4 + 1, thru := getLe r 32 4 * 36000000, learns := getLe r 36 2, dumps := getLe r 38 2,
      tMin := ofBits 16 (getLe r 40 2), tMax := ofBits 16 (getLe r 42 2), minOut := getLe r 44 4 * 60000,
      ageMs := getLe r 48 4 * 3600000, lastLearn := getLe r 48 4 * 3600000, lastFault := getLe r 52 1 }
    reserveUpdate ((d.wr HLD_CHARGE.Q_FULL (getLe r 12 4)).wr HLD_RESERVE.IR25 (getLe r 16 4))

/-! ### Windows of the converter -/

/-- A resistance sample in µΩ at 25 °C (R688). -/
def sampleOf (di dv k : Nat) : Nat := dv * 10000000 * 1000000 / (di * k)

/-- A resistance sample taken: it moves IR25 by an eighth where it lies in bounds (R688). -/
def resistanceSample (i0 i1 : Int) (v0 v1 : Nat) (d : Dev) : Dev :=
  let di := (i1 - i0).natAbs
  let ir := d.rd HLD_RESERVE.IR25
  let k := kOf d.packTemp
  if di = 0 ∨ k = 0 then d
  else
    let r := sampleOf di ((v1 : Int) - v0).natAbs k
    if ir ≤ 2 * r ∧ r ≤ 4 * ir then
      reserveUpdate (d.wr HLD_RESERVE.IR25 ((ir : Int) + ((r : Int) - ir) / 8).toNat)
    else d

/-- The charge of a window, or of several, leaves Q_REM (R686), and the throughput is counted (R712). -/
def countCharge (u : Int) (d : Dev) : Dev :=
  let full := (d.rd HLD_CHARGE.Q_FULL : Int) * 36000
  let q := ((d.rd HLD_CHARGE.Q_REM : Int) * 36000 + d.gauge.fine - u)
  let q := (if q < 0 then 0 else if full < q then full else q).toNat
  let thru := d.gauge.thru + u.toNat
  let d := d.bump HLD_CNT_THROUGHPUT.COUNT (thru / 36000000 - d.gauge.thru / 36000000)
  (d.wr HLD_CHARGE.Q_REM (q / 36000)).modGauge fun g =>
    { g with fine := q % 36000, counted := g.counted + u, thru := thru }

/-- The charge counted since the last rest point (R692, R693). -/
def Gauge.sinceA (g : Gauge) : Int := g.counted - (g.points.head?.elim 0 (·.mark))

/-- The bleed load has drawn 0.45 × Q_FULL since point A, and is turned off (R693). -/
def bleedCheck (d : Dev) : Dev :=
  if d.gauge.learn = 2 ∧ (45 * d.rd HLD_CHARGE.Q_FULL * 360 : Nat) ≤ d.gauge.sinceA.toNat then
    bleedSet false (d.modGauge fun g => { g with learn := 3 })
  else d

/-- A change of 2 A or more between two windows, with the means before it; its second mean is that of the window after next (R688). -/
def newStep (g : Gauge) (i : Int) : List (Nat × Int × Nat) :=
  (g.hist.filter fun b => decide (20000 ≤ (i - b.1).natAbs)).map fun b => (1, b)

/-- One window of 1 ms (R686, R688, R689, R693, R701, R704): `i` in 0.1 mA, `mv` in mV. -/
def converterWindow (i : Int) (mv : Nat) (d : Dev) : Dev :=
  let g := d.gauge
  let d := countCharge (i + if g.zeroing then 5 * (g.lastI + i) else 0) d
  let d := (d.wr HLD_MEAS.VPACK mv).wr HLD_MEAS.IPACK (toBits 24 i)
  let ms := if g.zeroing then 11 else 1
  let d := d.modGauge fun g => { g with
    hist := [(i, mv)], steps := (g.steps.filter fun s => s.1 != 0).map (fun s => (s.1 - 1, s.2)) ++ newStep g i, lastI := i, zeroing := false,
    ageMs := g.ageMs + ms, minOut := if g.outside then g.minOut + ms else g.minOut }
  let d := d.each (g.steps.filter fun s => s.1 == 0) fun d s => resistanceSample s.2.1 i s.2.2 mv d
  let d := if d.gauge.absent && decide (4000 ≤ mv) then
      packChange (packState (d.modGauge fun g => { g with absent := false }))
    else d
  let d := if d.gauge.full && decide (mv + 100 ≤ 4 * (2000 + 10 * d.rd HLD_CFG.VCHG)) then
      d.modGauge fun g => { g with full := false }
    else d
  chargeUpdate (bleedCheck d)

/-! ### Rest points and learning -/

/-- Q_NEW of a learn pair in µAh (R692). -/
def qNew (counted : Int) (dsoc : Nat) : Nat := counted.natAbs * 1000000 / (36000 * dsoc)

/-- A learn is accepted (R692, R706). -/
def learnAccept (q : Nat) (d : Dev) : Dev :=
  let qf := d.rd HLD_CHARGE.Q_FULL
  let d := d.wr HLD_CHARGE.Q_FULL ((qf : Int) + ((q : Int) - qf) / 4).toNat
  let d := (d.set HLD_STATUS.LEARN_DONE).bump HLD_CNT_LEARNS.COUNT 1
  reserveUpdate (d.modGauge fun g => { g with learns := g.learns + 1, lastLearn := g.ageMs })

/-- Two rest points 40 % or more apart within 72 h of the gauge's running time (R692). -/
def isPair (a : RestPoint) (soc now : Nat) : Bool :=
  decide (400000 ≤ ((soc : Int) - a.soc).natAbs) && decide (now ≤ a.time + 72 * 3600000)

/-- Q_NEW lies within ± 20 % of Q_FULL (R692). -/
def qNewOk (q qf : Nat) : Bool := decide (4 * qf ≤ 5 * q) && decide (5 * q ≤ 6 * qf)

/-- The rest point that a new one forms a learn pair with (R692): in a learn cycle only its point A may; else, where several would, the latest
(DESIGN CHOICE). -/
def pairPoint (soc : Nat) (g : Gauge) : Option RestPoint :=
  (if g.learn = 3 then g.points.take 1 else g.points).find? fun a => isPair a soc g.ageMs

/-- A rest point (R691 to R693, R702): `mv` is the voltage averaged over 1 s. -/
def restPoint (mv : Nat) (d : Dev) : Dev :=
  let r := socDraw mv d
  let soc := r.1
  let d := r.2
  let g := d.gauge
  let pair : Option Nat := (pairPoint soc g).map fun a => qNew (g.counted - a.mark) ((soc : Int) - a.soc).natAbs
  let qf := d.rd HLD_CHARGE.Q_FULL
  let ok : Bool := match pair with
    | some q => qNewOk q qf
    | none => false
  let d := if ok then learnAccept (pair.getD 0) d else d
  let d := (setCharge (soc * d.rd HLD_CHARGE.Q_FULL / 1000000) d).clr HLD_STATUS.PROVISIONAL
  let d := d.modGauge fun g => { g with points := ⟨soc, g.ageMs, g.counted⟩ :: g.points.filter fun a => decide (g.ageMs ≤ a.time + 72 * 3600000) }
  let d := d.when ok (writeRecord 2)
  let d :=
    if g.learn = 3 then
      if ok then chargeUpdate ((d.modGauge fun g => { g with learn := 0 }).clr HLD_STATUS.LEARNING)
      else learnFail (if pair.isSome then 3 else 1) d
    else if g.learn = 1 then bleedSet true (d.modGauge fun g => { g with learn := 2 })
    else if g.learn = 0 ∧ d.rd HLD_CFG.LEARN_DAYS ≠ 0 ∧
        g.lastLearn + d.rd HLD_CFG.LEARN_DAYS * 86400000 ≤ g.ageMs then
      bleedSet true ((d.modGauge fun g => { g with learn := 2 }).set HLD_STATUS.LEARNING)
    else d
  chargeUpdate d

/-! ### Energy and readiness -/

/-- E_AVAIL in 0.1 J (R687, R698); where R696 gives no value for it the value is free. -/
def energyAvail (d : Dev) : Nat × Dev :=
  let qf := d.rd HLD_CHARGE.Q_FULL
  let q200 := 200 * d.rd HLD_CHARGE.Q_REM - (if d.is HLD_STATUS.PROVISIONAL then 20 * qf else 0)
  match d.gauge.res with
  | none => (0, d)
  | some m =>
    if q200 ≤ m * qf then (0, d)
    else match deliver d.ocvTable qf (d.rd HLD_RESERVE.IR25) (kOf d.packTemp) q200 (m * qf) with
      | some e => (e / 100000000, d)
      | none => d.draw

/-- E_AVAIL recomputed, DUMP_READY and DUMPS after it (R698, R699), and the bleed load's early stop (R693). -/
def energyUpdate (d : Dev) : Dev :=
  let r := energyAvail d
  let e := r.1
  let need := eDump (d.rd FRN_CFG.REGION_GIB)
  let d := (r.2.wr HLD_ENERGY.E_AVAIL e).wr HLD_ENERGY.E_DUMP need
  let con := d.gauge.state == 2
  let was := d.is HLD_STATUS.DUMP_READY
  let ready := con && (if was then decide (need ≤ e) else decide (105 * need ≤ 100 * e))
  let d := (d.put HLD_STATUS.DUMP_READY ready).put FRN_STATUS.DUMP_READY ready
  let d := d.wr HLD_ENERGY.DUMPS (if ready then min (e / need) 255 else 0)
  let d := d.when (ready != was) holdupEvent
  if d.gauge.learn = 2 ∧ e < 2 * need then bleedSet false (d.modGauge fun g => { g with learn := 3 }) else d

/-! ### Commands -/

/-- The causes that R702 lists. -/
def isPackFault (cause : Nat) : Bool := decide (1 ≤ cause) && decide (cause ≤ 8)

/-- CONNECT may close the enable (R703): voltage and thermistor in range and no disconnecting fault's condition. -/
def Dev.mayConnect (d : Dev) : Bool :=
  decide (6000 ≤ d.rd HLD_MEAS.VPACK) && decide (d.rd HLD_MEAS.VPACK ≤ 11200) && !d.gauge.faults.contains 4 &&
    decide (-550 ≤ d.packTemp) && decide (d.packTemp ≤ 650) && decide (ofBits 24 (d.rd HLD_MEAS.IPACK) ≤ 550000)

/-- C0EEh (R703). -/
def packConnect (d : Dev) : Dev :=
  if d.dumpRuns then d
  else if d.mayConnect then packEnable true (d.modGauge fun g => { g with held := false, chgOff := false })
  else d.set HLD_STATUS.REFUSED

/-- The pack is disconnected by an order that needs no activity (R703): the mailbox or the media-half I3C port. -/
def packDisconnect (d : Dev) : Dev :=
  if d.dumpRuns then d
  else packEnable false ((learnFail 4 d).modGauge fun g => { g with held := true })

/-- The dump's end as the gauge sees it: a record, the counts, and the pack disconnected (R700). -/
def gaugeDumpEnd (d : Dev) : Dev :=
  let d := (d.bump HLD_CNT_DUMPS.COUNT 1).modGauge fun g => { g with dumps := g.dumps + 1, points := [] }
  packEnable false (writeRecord 3 d)

/-- Power-good of the media half's main rails closes the enable unless a fault or a command holds it open (R700). -/
def gaugePowerGood (d : Dev) : Dev := if d.gauge.held then d else packEnable true d

/-! ### The commands -/

/-- CONVERTER_WINDOW (R686). -/
def execConverterWindow (current : Int) (mv : Nat) (s : State) : Host.Outcome State Fault Refusal :=
  s.ok (converterWindow current mv s.dev)

/-- OFFSET_ZEROING (R686, R702): the offset in 0.1 mA; beyond ± 2 mA it is fault 7h. -/
def execOffsetZeroing (offset : Int) (s : State) : Host.Outcome State Fault Refusal :=
  s.ok ((s.dev.modGauge fun g => { g with zeroing := true }).when (decide (20 < offset.natAbs)) (packFault 7))

/-- TEMPERATURE_SAMPLE (R686, R689, R706): the pack temperature in 0.1 °C. -/
def execTemperatureSample (temp : Int) (s : State) : Host.Outcome State Fault Refusal :=
  s.ok (
    let d := s.dev.wr HLD_MEAS.TEMP (toBits 12 temp)
    let lo := 10 * ofBits 8 (d.rd HLD_CFG.TLO)
    let hi := 10 * ofBits 8 (d.rd HLD_CFG.THI)
    let d := d.modGauge fun g => { g with tMin := min g.tMin temp, tMax := max g.tMax temp }
    let d :=
      if !d.gauge.outside && (decide (temp < lo) || decide (hi < temp)) then
        writeRecord 5 ((d.modGauge fun g => { g with outside := true }).set HLD_STATUS.EXCURSION)
      else if d.gauge.outside && decide (lo + 20 ≤ temp) && decide (temp ≤ hi - 20) then
        writeRecord 6 (d.modGauge fun g => { g with outside := false })
      else d
    chargeUpdate d)

/-- GAP_RECOVERY (R687): the voltage averaged over 1 s. -/
def execGapRecovery (mv : Nat) (s : State) : Host.Outcome State Fault Refusal :=
  s.ok (
    let d := learnFail 4 s.dev
    let r := socDraw mv d
    let d := (setCharge (r.1 * d.rd HLD_CHARGE.Q_FULL / 1000000) r.2).set HLD_STATUS.PROVISIONAL
    chargeUpdate (d.modGauge fun g => { g with gap := false, points := [], counted := 0 }))

/-- REST_POINT (R691): a rest-point voltage below 6.0 V is fault 5h (R702). -/
def execRestPoint (mv : Nat) (s : State) : Host.Outcome State Fault Refusal :=
  s.ok ((restPoint mv s.dev).when (decide (mv < 6000)) (packFault 5))

/-- LEARN_REST_TIMEOUT (R693). -/
def execLearnRestTimeout (s : State) : Host.Outcome State Fault Refusal :=
  s.ok (s.dev.when (s.dev.gauge.learn == 1 || s.dev.gauge.learn == 3) (learnFail 2))

/-- CHARGE_TERMINATE (R689). -/
def execChargeTerminate (s : State) : Host.Outcome State Fault Refusal :=
  s.ok (s.dev.when s.dev.gauge.charge fun d => chargeUpdate (d.modGauge fun g => { g with full := true }))

/-- HOLDUP_FAULT (R702). -/
def execHoldupFault (cause : Nat) (s : State) : Host.Outcome State Fault Refusal :=
  s.ok (s.dev.when (isPackFault cause && !(cause == 3 && s.dev.dumpRuns)) (packFault cause))

/-- HOLDUP_FAULT_CLEAR (R702). -/
def execHoldupFaultClear (cause : Nat) (s : State) : Host.Outcome State Fault Refusal :=
  s.ok (if cause = 6 ∧ s.dev.gauge.res.isNone then s.dev
    else chargeUpdate (packState (s.dev.modGauge fun g => { g with faults := without g.faults cause })))

/-- PACK_ABSENT (R701). -/
def execPackAbsent (s : State) : Host.Outcome State Fault Refusal :=
  s.ok (
    let d := learnFail 4 s.dev
    chargeUpdate (packState (d.modGauge fun g => { g with absent := true, points := [] })))

/-- EEPROM_PERIODIC_RECORD (R706): `good` tells whether the read-back of the write passed; what a slot holds whose write failed is a free
value. -/
def execEepromPeriodicRecord (good : Bool) (s : State) : Host.Outcome State Fault Refusal :=
  s.ok (
    let d := writeRecord 1 s.dev
    if good then d
    else
      let (v, d) := d.draw
      writeRecord 1 ((d.modGauge fun g => { g with eeprom := tput g.eeprom ((g.gseq - 1) % 128) (leBytes 64 v) }).set HLD_STATUS.EEPROM_ERR))

/-- A learn cycle is ordered (R693, R694). -/
def learnStart (d : Dev) : Dev :=
  if d.gauge.learn ≠ 0 then d
  else
    let d := (d.modGauge fun g => { g with learn := 1 }).set HLD_STATUS.LEARNING
    if d.dumpRuns then learnFail 4 d else d

/-- LEARN_START (R693, R694). -/
def execLearnStart (path : Path) (s : State) : Host.Outcome State Fault Refusal :=
  s.ok (s.dev.when (mediaWriter path) learnStart)

/-- LEARN_STOP (R693). -/
def execLearnStop (path : Path) (s : State) : Host.Outcome State Fault Refusal :=
  s.ok (s.dev.when (mediaWriter path) (learnFail 4))

/-- HLD_CONNECT (R703). -/
def execHldConnect (path : Path) (s : State) : Host.Outcome State Fault Refusal :=
  s.ok (s.dev.when (mediaWriter path) packConnect)

/-- HLD_PACK_CHANGE (R704). -/
def execHldPackChange (path : Path) (s : State) : Host.Outcome State Fault Refusal :=
  s.ok (s.dev.when (mediaWriter path) packChange)

end Sys2Proof.Machine
end

