-- ==== Sys2Proof/Machine/Pair.lean ====
section
/-! DEFINITION. Records that cross the Snowbridge (R27, R299, R300, R508, R509), pairing and reconciliation (R519 to R522, R528 to R530, R536,
R537), and role swaps (R538 to R540). -/

namespace Sys2Proof.Machine

/-! ### RECORD, ACK and REFUSE -/

/-- Records may cross: the pair is in service, or copies its records. -/
def Dev.crossing (d : Dev) : Bool := (d.tstate == 4 || d.tstate == 5) && !d.twin.selfFailed

/-- Records of an activating module still reach its twin, and their answers reach it, while it completes the commands it has fetched
(R543 step 2). -/
def Dev.stillCrossing (d : Dev) : Bool :=
  d.crossing || ((d.tstate == 7 || (d.tstate == 2 && d.rd TWN_PEER.SB_STATE == 6)) && !d.twin.selfFailed)

/-- A record sent for assignment reaches the home twin (R27, R28, R509). DEDUCED: the sender's own copy counts as the second copy. -/
def recordToAssign (r : FRec) (d : Dev) : Dev := formRec { r with ack := some 0, receiver := 1 - d.twinSide, copy := true } d

/-- A mirror copy arrives (R299, R524); a copy held already is acknowledged again, and one that differs from it in any byte is divergent
(R291). -/
def mirrorCopy (r : FRec) (d : Dev) : Dev :=
  let d := checkChain r d
  match (d.slotOf r.pool r.seq).bind fun n => (d.recAt n).map fun x => (n, x) with
  | none => formRec { r with ack := some r.hcheck, copy := true } d
  | some (slot, x) => if x.bytes = r.bytes then sendAck { x with msgId := r.msgId } d else divergeRec slot d

/-- A record of which every segment arrived; bytes that are no record make the message invalid (R510). -/
def recordArrived (pool ref id : Nat) (b : Bytes) (d : Dev) : Dev :=
  match recordOf b with
  | none => declarePartner 5 d
  | some r =>
    let gen := ((d.nsAny r.nsid).map fun n => (d.fn n.tenant).gen).getD 0
    let r := { r with msgId := id, origin := .media, posted := true, gen := gen }
    if r.pool ≠ pool ∨ r.seq ≠ ref ∨ (tget d.pools pool).isNone then declarePartner 5 d
    else if ref = 0 then
      (if d.twin.declared.isSome then d else if d.isHome pool then recordToAssign { r with posted := false } d else declarePartner 5 d)
    else if d.tstate = 7 then d
    else mirrorCopy r d

/-- RECORD (R508): a segment; AUX carries its offset and the record's length in units of 256 bytes, the operand the MSG_ID of the first
segment. -/
def execRecord (msg : Msg) (s : State) : Host.Outcome State Fault Refusal :=
  snowTurn .record msg s fun s => s.ok <|
    let d := s.dev
    if !d.stillCrossing then d
    else
      let id := msg.args.getD 0 0
      let off := msg.tag % 2 ^ 32
      let len := msg.tag / 2 ^ 32 * 256
      let old := if off = 0 then [] else (tget d.firn.parts id).getD []
      if 8 ≤ msg.q ∨ old.length ≠ off ∨ len < off + msg.data.length then declarePartner 5 d
      else
        let b := old ++ msg.data
        if b.length < len then d.modFirn fun f => { f with parts := tput f.parts id b }
        else settle (recordArrived msg.q msg.ref id b (d.modFirn fun f => { f with parts := tdel f.parts id }))

/-- A record as the home twin stamped it (R27): its sequence, time and CHAIN, the ID of a snapshot it takes, and its own place among the
effects of a COMMIT record. -/
def stamped (r : FRec) (seq time home snap : Nat) (chain : Bytes) : FRec :=
  let ns := snapOf r.mapDelta
  { r with
    seq := seq, time := time, home := home, chain := chain
    mapDelta := if ns.isSome then r.mapDelta.map (fillSnap snap) else r.mapDelta
    aux := if r.rtype = rtMap ∧ ns.isSome then snap else r.aux
    effects := if r.rtype = rtCommit then r.effects ++ [(r.pool, seq)] else r.effects }

/-- The home twin's acknowledgement stamps this module's copy, and HCHECK is compared (R27, R300). The ID of a snapshot does not cross; it
is the one with which the check values agree. -/
def stampRec (slot : Nat) (r : FRec) (m : Msg) (d : Dev) : Dev :=
  let h := m.args.getD 0 0
  let ns := snapOf r.mapDelta
  let base := ((ns.bind fun n => d.nsAny n).map (·.nextSnap)).getD 0
  let with' (i : Nat) : FRec := stamped r m.ref (m.args.getD 1 0) (1 - d.twinSide) (base + i) m.data
  let i := ((List.range (if ns.isSome then 256 else 1)).find? fun i => (with' i).hcheck == h).getD 0
  let r' := with' i
  let d := match ns with
    | some n => d.modNs n fun x => { x with nextSnap := max x.nextSnap (base + i + 1) }
    | none => d
  let d := noteEntered r' (noteHeld r' (checkChain r' (modRec slot (fun _ => r') d)))
  if r'.hcheck = h then modRec slot (fun r => { r with ack := some h }) d else divergeRec slot d

/-! ### Role swap (R538 to R540) -/

/-- The old home hands the pools over once every record it assigned is acknowledged and no compare holds blocks of them (R85, R540 item 2). -/
def handOver (d : Dev) : Dev :=
  match d.twin.swap with
  | none => d
  | some x =>
    let ps := (d.pools.filter fun e => bit x.pools e.1).map (·.1)
    let comparing := d.firn.locks.any fun l => (d.nsAny l.2.2.1).any fun n => ps.contains n.pool
    if !x.hold || x.dest = d.twinSide || ps.any (fun p => d.isHome p && d.unacked p != 0) || comparing || !ps.any d.isHome then d
    else
      let chain (p : Nat) : Bytes := padTo 16 ((tget d.firn.chainOf p).getD [])
      let d := snowSend .swap 3 ⟨0xFF, 0, x.pools, 0, (ps.map fun p => [p, d.heldSeq p]).flatten, (ps.map chain).flatten⟩ d
      let d := syncHome (d.each ps fun d p => d.modPool p fun y => { y with home := x.dest })
      let d := { d with destages := d.destages.filter fun y => !ps.contains y.pool }
      let mine (r : FRec) : Bool := !(ps.contains r.pool && r.seq == 0 && r.receiver != d.twinSide)
      d.modFirn fun f => { f with waiting := f.waiting.filter mine }

/-- Step 2 of an activation (R543, R544): the module enters ACTIVATING and tells its twin. -/
def enterActivating (d : Dev) : Dev :=
  match d.twin.act with
  | none => d
  | some a =>
    let d := updateMode ((d.modTwin fun t => { t with act := some { a with step := 2, at2 := d.tbMedia } }).wr TWN_STATUS.STATE 7)
    let d := classAWindow (withdrawPair (syncLedger d))
    d.when (!a.solo) fun d => d.emit (.sideband (sbWord d.sbCode))

/-- The module owns a defined pool. -/
def Dev.ownsPools (d : Dev) : Bool := d.pools.any fun e => e.2.home == d.twinSide

/-- An activation that handed its pools over goes on to step 2 (R543). -/
def handedOver (d : Dev) : Dev :=
  if d.twin.act.any (fun a => a.step == 1 && !a.solo) && !d.ownsPools then enterActivating d else d

/-- A swap ended: its command completes, and it is counted (R540 item 4). -/
def swapDone (d : Dev) : Dev :=
  match d.twin.swap with
  | none => d
  | some x =>
    let d := ((d.modTwin fun t => { t with swap := none }).clr TWN_STATUS.SWAP_BUSY).bump TWN_CNT_SWAPS.COUNT 1
    let d := match x.asker with
      | some (q, tag) => finish q tag stSuccess x.moved d
      | none => d
    handedOver d

/-- A swap begins on this module. -/
def beginSwap (pools dest : Nat) (asker : Option (Nat × Nat)) (d : Dev) : Dev :=
  (d.modTwin fun t => { t with swap := some ⟨pools, dest, asker, false, d.tbMedia, pools⟩ }).set TWN_STATUS.SWAP_BUSY

/-- Twin A coordinates a swap (R538, R539). -/
def coordinateSwap (pools dest : Nat) (asker : Option (Nat × Nat)) (d : Dev) : Dev :=
  let answer' (st res : Nat) (d : Dev) : Dev := match asker with
    | some (q, tag) => finish q tag st res d
    | none => d
  let move := (d.pools.filter fun e => bit pools e.1 && e.2.home != dest).foldl (fun m e => setBit m e.1 true) 0
  if d.tstate ≠ 5 ∨ (d.twin.partner.mirrorOnly && dest != d.twinSide) then answer' stTwinUnavailable 0 d
  else if d.twin.swap.isSome then answer' stSwapCollided 0 d
  else if move = 0 then answer' stSuccess 0 d
  else snowSend .coord 3 ⟨0xFF, 0, 0, 0, [20, move, dest], []⟩ (beginSwap move dest asker d)

/-- ROLE_SWAP (R538, R539). -/
def execRoleSwap (q tag : Nat) (s : State) : Host.Outcome State Fault Refusal :=
  s.ok <| mediaAdmin [0xC4] q tag (fun _ c d =>
    let pools := pktField c.pkt 48 1
    let dest := pktField c.pkt 49 1
    if 1 < dest ∨ (List.range 8).any (fun p => bit pools p && (tget d.pools p).isNone) then failCmd q tag stInvalidField d
    else if d.tstate ≠ 5 ∨ (d.twin.mirrorOnly && dest == d.twinSide) then failCmd q tag stTwinUnavailable d
    else if d.twinSide = 0 then coordinateSwap pools dest (some (q, tag)) (crossCmd q tag d)
    else forward q tag [19, pools, dest, q, tag] [] d) s.dev

/-- Step 1 of an activation (R543, R544): a module of a pair hands every pool it owns to its twin; one whose twin is not there waits for
its destages. -/
def handAway (d : Dev) : Dev :=
  let mask := (d.pools.filter fun e => e.2.home == d.twinSide).foldl (fun m e => setBit m e.1 true) 0
  let dest := 1 - d.twinSide
  match d.twin.act with
  | none => d
  | some a =>
    if a.solo then (if d.destages.isEmpty then enterActivating d else d)
    else if mask = 0 then enterActivating d
    else if d.tstate ≠ 5 then d.modTwin fun t => { t with act := some { a with solo := true } }
    else if d.twin.swap.isSome then d
    else if d.twinSide = 0 then coordinateSwap mask dest none d
    else snowSend .coord 3 ⟨0xFF, 0, 0, 0, [19, mask, dest, noQueue, 0], []⟩ d

/-- SWAP_DRAIN_END (R540, R543, R544): the destages ended or 1 s passed. The old home begins the hold; an activation goes on. -/
def execSwapDrainEnd (s : State) : Host.Outcome State Fault Refusal :=
  s.ok <|
    let d := s.dev
    match d.twin.swap with
    | some x => if x.dest = d.twinSide then d
      else settle (handOver (d.modTwin fun t => { t with swap := some { x with hold := true } }))
    | none =>
      match d.twin.act with
      | some a => if a.step ≠ 1 then d else if a.solo then enterActivating d else handAway d
      | none => d

/-- SWAP (R540): the new home takes over with each pool's highest COMMIT_SEQ and CHAIN. -/
def execSwap (pools : Nat) (heads : List (Nat × Nat × Bytes)) (s : State) : Host.Outcome State Fault Refusal :=
  inTurn .snow .swap none s fun s => s.ok <|
    let d := s.dev
    match d.twin.swap with
    | none => d
    | some x =>
      if x.dest ≠ d.twinSide ∨ x.pools ≠ pools ∨ d.tstate ≠ 5 then d
      else
        let d := d.each heads fun d h => d.modFirn fun f => { f with
          held := tput f.held h.1 (max h.2.1 ((tget f.held h.1).getD 0)), chainOf := tput f.chainOf h.1 h.2.2 }
        let d := d.each (heads.filter fun h => bit pools h.1 && (tget d.pools h.1).isSome) fun d h => takePool h.1 d
        let d := snowSend .coord 3 ⟨0xFF, 0, 0, 0, [21, pools], []⟩ (replayIntents (syncHome d))
        settle (swapDone d)

/-- ACK (R300, R508): REF is the COMMIT_SEQ, AUX the MSG_ID of the record's first segment; the operands HCHECK and TIMEBASE, the bytes
CHAIN. -/
def execAck (msg : Msg) (s : State) : Host.Outcome State Fault Refusal :=
  snowTurn .ack msg s fun s => s.ok <|
    let d := s.dev
    if !d.stillCrossing then d
    else if (tget d.pools msg.q).isNone ∨ msg.ref = 0 then declarePartner 5 d
    else match d.firn.recs.find? fun e => e.2.pool == msg.q && e.2.seq == 0 && e.2.msgId == msg.tag && e.2.receiver == d.twinSide with
      | some (slot, r) => settle (stampRec slot r msg d)
      | none => match (d.slotOf msg.q msg.ref).bind fun n => (d.recAt n).map fun x => (n, x) with
        | none => d
        | some (slot, r) =>
          let h := msg.args.getD 0 0
          let d := d.modTwin fun t => { t with unacked := t.unacked.filter fun u => u != (msg.q, msg.ref) }
          let d := checkChain { r with chain := msg.data } d
          let d := if r.hcheck = h then modRec slot (fun r => { r with ack := some h }) d else divergeRec slot d
          settle (handOver (d.when (d.isHome msg.q) (assignMarked msg.q)))

/-- REFUSE (R509): the local copy is discarded and the chunks named come again as new. -/
def execRefuse (msg : Msg) (s : State) : Host.Outcome State Fault Refusal :=
  snowTurn .refuse msg s fun s => s.ok <|
    let d := s.dev
    if !d.stillCrossing then d
    else if (tget d.pools msg.q).isNone ∨ msg.ref ≠ 0 then declarePartner 5 d
    else match d.firn.recs.find? fun e => e.2.pool == msg.q && e.2.seq == 0 && e.2.msgId == msg.tag && e.2.receiver == d.twinSide with
      | some (slot, _) => settle (refuseRec slot msg.args d)
      | none => d

/-! ### Pairing (R519 to R522) -/

/-- The module is blank: no pool defined and an empty Firn region (R521). -/
def Dev.blank (d : Dev) : Bool := d.pools.isEmpty && d.firn.recs.isEmpty

/-- PAIR_ID of two serial numbers (R521). -/
def pairIdOf (a b : Nat) : Nat := getLe (sha256 (leBytes 8 a ++ leBytes 8 b)) 0 8

/-- The key identifier of the link key plus one; 0 for none. -/
def Dev.linkId (d : Dev) : Nat := (d.rime.linkKey.map fun k => k.1 + 1).getD 0

/-- The holder that the witness blocks name: 0 none, 1 Twin A, 2 Twin B (R522). -/
def Dev.holder' (d : Dev) : Nat :=
  (d.twin.witness.filter (·.good)).foldl (fun m w => if w.block.wstate = 0 then m else w.block.wstate) 0

/-- Pools of which this module holds records. -/
def Dev.heldPools (d : Dev) : Nat := d.firn.recs.foldl (fun m e => setBit m e.2.pool true) 0

/-- The COMMIT_SEQ behind the highest that this module assigned or holds of a pool. -/
def Dev.knownNext (d : Dev) (p : Nat) : Nat := max (d.nextSeq p) (d.heldSeq p + 1)

/-- The operands of PAIR: side, PAIR_ID, blank, REGION_GIB, PAIR_LEVEL, MIN_PEER_LEVEL, LINK_GCM, link key, serial number, PREF, whether
the media half comes from a cold reset, the holder that the witness blocks name, TWN_HOME.HOME, the pools with records, each pool's
geometry plus one (0 for none), and each pool's next COMMIT_SEQ as this module knows it. The layout is the firmware's own (R508). -/
def Dev.pairArgs (d : Dev) : List Nat :=
  [d.twinSide, d.rd TWN_PAIR_ID.PAIR_ID, b2n d.blank, d.rd FRN_CFG.REGION_GIB, d.image.level, d.image.minPeer, d.rd TWN_CFG.LINK_GCM,
    d.linkId, d.serial, d.rd TWN_HOME.PREF, b2n d.twin.cold, d.holder', d.rd TWN_HOME.HOME, d.heldPools] ++
    ((List.range 8).map fun p => ((tget d.pools p).map fun x => x.geometry + 1).getD 0) ++ (List.range 8).map d.knownNext

/-- The first check of R520 that fails, 0 for none: `a` what the partner sent. -/
def Dev.pairCheck (d : Dev) (a : Nat → Nat) : Nat :=
  let mine := d.rd TWN_PAIR_ID.PAIR_ID
  let id := if d.twinSide = 0 then pairIdOf d.serial (a 8) else pairIdOf (a 8) d.serial
  let wrong (blank : Bool) (x : Nat) : Bool := !blank && x != 0 && x != id
  if a 0 = d.twinSide then 1
  else if wrong d.blank mine || wrong (a 2 == 1) (a 1) || (!d.blank && a 2 == 0 && mine != 0 && a 1 != 0 && mine != a 1) then 2
  else if a 3 ≠ d.rd FRN_CFG.REGION_GIB then 3
  else if a 4 < d.image.minPeer ∨ d.image.level < a 5 then 4
  else if d.pools.any fun e => a (14 + e.1) != 0 && a (14 + e.1) != e.2.geometry + 1 then 5
  else if (a 6 = 1 ∨ d.is TWN_CFG.LINK_GCM) ∧ (d.linkId = 0 ∨ d.linkId ≠ a 7) then 6
  else 0

/-- The activation whose module has paired again ends, and its activity is released (R543). -/
def actEnds (d : Dev) : Dev :=
  match d.twin.act with
  | some a =>
    if a.step ≠ 5 then d
    else
      let d := d.modTwin fun t => { t with act := none }
      match d.activity a.activity with
      | some x => releaseActivity x false d
      | none => d
  | none => d

/-- The state PAIRED is reached (R434, R519, R532, R535): witness blocks are written by Twin A, the ledgers join, pools and gauges are told,
and records that waited for the home twin go to it. The marks of every pool are to be read again (R128). -/
def becomePaired (d : Dev) : Dev :=
  let d := d.modTwin fun t => { t with
    declared := none, selfFailed := false, bySplit := false, breaks := [], selfCheck := none, selfDone := false, cold := false,
    reconcile := 0, unacked := [], preempt := [], takeover := none, readsSaid := [],
    readsTold := (d.nss.map fun e => e.2.gone.map fun g => (e.1, g.1)).flatten }
  let d := (updateMode (d.wr TWN_STATUS.STATE 5)).modIng fun i => { i with marksRead := false }
  let d := d.when (d.twinSide == 0) (writeWitnesses 0)
  let d := d.each d.maint.acts fun d a => mirrorActivity a false d
  let d := snowSend .coord 3 ⟨0xFF, 0, 0, 0, [16, d.rd HLD_ENERGY.DUMPS], []⟩ d
  let d := d.each ((d.pools.filter fun e => d.isHome e.1).map (·.1)) fun d p => sendPool p d
  let own := (d.firn.recs.filter fun e => e.2.seq == 0 && !d.isHome e.2.pool).map (·.1)
  settle (actEnds (syncLedger (d.each own fun d n => sendRecord n d)))

/-- A resync begins (R528, R536 step 3): the home twin of a pool sends a mirror copy of every record it holds. -/
def beginResync (d : Dev) : Dev :=
  let d := updateMode (d.wr TWN_STATUS.STATE 4)
  let todo := d.firn.recs.filter fun e => e.2.seq != 0 && d.isHome e.2.pool
  d.each todo fun d e => sendRecord e.1 ((modRec e.1 (fun r => { r with ack := none }) d).modTwin fun t => { t with
    unacked := t.unacked ++ [(e.2.pool, e.2.seq)] })

/-- Records of commands that ended without a completion and never had a COMMIT_SEQ, and void ones, go before the pair forms: no host was told of
them, and the host settles those writes itself (R41, R328, R527). -/
def dropStale (d : Dev) : Dev :=
  let gone (r : FRec) : Bool := r.seq == 0 && r.receiver == d.twinSide && (r.void || (!r.cmds.isEmpty && r.cmds.all fun c => (d.ctx c.q c.tag).isNone))
  let d := d.modFirn fun f => { f with waiting := f.waiting.filter fun r => !gone r }
  d.each ((d.firn.recs.filter fun e => gone e.2).map (·.1)) fun d n => freeRec n d

/-- The sequences of the pools as the pair forms (R293, R294): the home twin goes on behind the highest value that either twin knows; one that
was not home twin before takes the first value of a new home twin. Both twins reckon the same, and nothing below it is awaited. -/
def joinSeqs (was other : Nat) (theirs : Nat → Nat) (d : Dev) : Dev :=
  d.each (d.pools.map fun e => (e.1, e.2.home)) fun d e =>
    let top := max (d.knownNext e.1) (theirs e.1)
    let same := if e.2 = d.twinSide then b2n (bit was e.1) = e.2 else b2n (bit other e.1) = e.2
    let next := if same then top else firstSeq (top - 1)
    d.modFirn fun f => { f with next := tput f.next e.1 next, base := tput f.base e.1 (next - 1) }

/-- The handshake ended well (R520 to R522): PAIR_ID and home twins are set; the next state depends on the records held. -/
def paired (a : Nat → Nat) (d : Dev) : Dev :=
  let id := if d.twinSide = 0 then pairIdOf d.serial (a 8) else pairIdOf (a 8) d.serial
  let holder := if d.holder' = 0 then a 11 else d.holder'
  let cold := d.twin.cold && a 10 == 1
  let pref := if d.twinSide = 0 then d.rd TWN_HOME.PREF else a 9
  let mask := if holder ≠ 0 then (if holder = 1 then 0 else 0xFF) else if cold then pref
    else if d.twin.cold then a 12 else if a 10 = 1 then d.rd TWN_HOME.HOME else if d.twinSide = 0 then d.rd TWN_HOME.HOME else a 12
  let was := d.rd TWN_HOME.HOME
  let d := setHomes mask (((dropStale d).wr TWN_PAIR_ID.PAIR_ID id).modTwin fun t => { t with reconcile := 1, peerReleased := false })
  let d := joinSeqs was (a 12) (fun p => a (22 + p)) d
  let d := if d.is TWN_CFG.LINK_GCM || a 6 == 1 then (d.set TWN_CFG.LINK_GCM).set TWN_STATUS.GCM_ON else d
  let d := d.each ((d.pools.filter fun e => d.isHome e.1).map (·.1)) fun d p => sendPool p (d.wr TWN_STATUS.STATE 3)
  if (List.range 8).any fun p => bit d.heldPools p && bit (a 13) p then
    let d := updateMode (d.wr TWN_STATUS.STATE 3)
    let hs := d.firn.recs.filter fun e => !e.2.void && e.2.seq != 0
    d.each hs fun d e => snowSend .recon 3 ⟨e.2.pool, 0, e.2.seq, 0, [1], e.2.header⟩ d
  else if d.heldPools = 0 ∧ a 13 = 0 then becomePaired d
  else beginResync d

/-- The checks of R520 run once both modules have told what they are. -/
def handshake (d : Dev) : Dev :=
  let args := (d.twin.partner.geoms.map fun e => e.2.1)
  let a (i : Nat) : Nat := args.getD i 0
  if d.tstate ≠ 2 || !d.twin.peerReleased || d.twin.released then d
  else
    let d := ((d.wr TWN_PEER.PEER_LEVEL (a 4)).wr TWN_PEER.PEER_MIN (a 5)).wr TWN_PEER.PEER_SIDE (a 0)
    match d.pairCheck a with
    | 0 => paired a d
    | c => ((d.set TWN_STATUS.PAIR_REFUSED).wr TWN_STATUS.REFUSE_CAUSE c).modTwin fun t => { t with released := true, peerReleased := false }

/-- PAIRING_START (R520, R535, R544): both halves are released, the rebuild ended and a cable is up. A module fenced for another reason than
a lost split, and one that was refused, do not pair. -/
def execPairingStart (s : State) : Host.Outcome State Fault Refusal :=
  s.ok <|
    let d := s.dev
    if !(d.tstate ≤ 2 || (d.tstate == 6 && d.twin.bySplit)) || !d.cableUp || d.is FRN_STATUS.RESTORING || d.firn.dumping.isSome ||
        !d.is (CRP_STATUS.RELEASED .host) || !d.is (CRP_STATUS.RELEASED .media) || d.twin.released || d.twin.mirrorOnly || d.twin.race.isSome ||
        (d.twin.selfFailed && !d.twin.bySplit) || d.twin.act.any (fun a => decide (a.step < 5)) then d
    else
      let d := d.wr TWN_STATUS.STATE 2
      handshake (snowSend .pair 3 ⟨0xFF, 0, 0, 0, d.pairArgs, []⟩ d)

/-- PAIR (R520): what the partner told is kept, and the checks run. -/
def execPair (msg : Msg) (s : State) : Host.Outcome State Fault Refusal :=
  snowTurn .pair msg s fun s => s.ok <|
    let keep (t : Twin) : Twin := { t with peerReleased := true, partner := { t.partner with
      serial := msg.args.getD 8 0, pairId := msg.args.getD 1 0, blank := msg.args.getD 2 0 == 1, region := msg.args.getD 3 0,
      gcm := msg.args.getD 6 0 == 1, linkKey := if msg.args.getD 7 0 = 0 then none else some (msg.args.getD 7 0 - 1)
      geoms := msg.args.zipIdx.map fun e => (e.2, (e.1, 0)) } }
    handshake (s.dev.modTwin keep)

/-- The handshake starts again after a refusal (R520, R548). -/
def rejoin (d : Dev) : Dev :=
  if !d.twin.released || d.tstate ≠ 2 then d
  else
    let d := d.modTwin fun t => { t with released := false }
    handshake (snowSend .pair 3 ⟨0xFF, 0, 0, 0, d.pairArgs, []⟩ d)

/-- REJOIN (R520, R548): the handshake starts again after a refusal. -/
def execRejoin (path : Path) (s : State) : Host.Outcome State Fault Refusal := s.ok (s.dev.when (mediaWriter path) rejoin)

/-! ### Reconciliation (R329, R330, R536) -/

/-- The divergence-list entry of a header (R301). -/
def divOfHeader (pool : Nat) (h : Bytes) : DivRec := ⟨pool, getLe h 8 8, getLe h 32 4, getLe h 48 4, getLe h 40 8, []⟩

/-- A record that only the other twin held joins this twin's (R330): it is applied in its turn, and where a record with a higher sequence
was applied before it, that one keeps the block. -/
def joinRecord (r : FRec) (d : Dev) : Dev :=
  formRec { r with
    ack := some r.hcheck, written := true, posted := true, origin := .media, committed := !r.member && r.rtype != rtLink,
    gen := ((d.nsAny r.nsid).map fun n => (d.fn n.tenant).gen).getD 0 } d

/-- RECON (R536): operand 1 a header, 2 the request for a record, 3 a record in full. -/
def execRecon (msg : Msg) (s : State) : Host.Outcome State Fault Refusal :=
  snowTurn .recon msg s fun s => s.ok <|
    let d := s.dev
    let p := msg.q
    if d.tstate ≠ 3 ∨ (tget d.pools p).isNone then d
    else match msg.args.getD 0 0 with
      | 1 =>
        if !d.isHome p then d
        else match (d.slotOf p msg.ref).bind fun n => (d.recAt n).map fun x => (n, x) with
          | none => snowSend .recon 3 ⟨p, 0, msg.ref, 0, [2], []⟩ d
          | some (slot, x) =>
            if x.header = msg.data then d
            else
              let d := divergeRec slot d
              snowSend .recon 3 ⟨p, 0, msg.ref, 0, [2], []⟩ (d.modFirn fun f => { f with divs := f.divs ++ [divOfHeader p msg.data] })
      | 2 => match (d.slotOf p msg.ref).bind d.recAt with
        | some r => snowSend .recon 3 ⟨p, 0, msg.ref, 0, [3], r.bytes⟩ d
        | none => d
      | 3 => match recordOf msg.data with
        | none => declarePartner 5 d
        | some r =>
          if !d.isHome p ∨ r.pool ≠ p then d
          else if (d.slotOf p r.seq).isSome then
            formRec { r with divergent := true, committed := true, applied := true, written := true, posted := true, origin := .media } d
          else joinRecord r d
      | _ => d

/-- The other twin's region is freed before the resync: records of pools that this module does not own (R536 step 3). -/
def freeOthers (d : Dev) : Dev :=
  let gone := (d.firn.recs.filter fun e => !d.isHome e.2.pool && e.2.seq != 0).map (·.1)
  d.each gone fun d n => freeRec n d

/-- RECONCILE_STEP_END (R536): a step ends and the next begins. -/
def execReconcileStepEnd (s : State) : Host.Outcome State Fault Refusal :=
  s.ok <|
    let d := s.dev
    if d.tstate = 3 then
      (if d.twin.reconcile ≤ 1 then d.modTwin fun t => { t with reconcile := 2 }
       else beginResync (replayIntents (freeOthers (d.modTwin fun t => { t with reconcile := 3 }))))
    else if d.tstate = 4 ∧ d.twin.unacked.isEmpty ∧ d.twin.declared.isNone ∧ !d.twin.mirrorOnly then becomePaired d
    else d

/-- RESYNC_END (R528): every record of the survivor has its copy at the mirror-only partner, whose gauge is dump-ready. -/
def execResyncEnd (s : State) : Host.Outcome State Fault Refusal :=
  s.ok <|
    let d := s.dev
    if d.tstate ≠ 4 ∨ !d.twin.unacked.isEmpty then d
    else if d.twin.mirrorOnly then updateMode (d.wr TWN_STATUS.STATE 5)
    else if d.twin.partner.mirrorOnly && bit d.twin.partner.health 2 then becomePaired d
    else d

/-! ### The link cipher (R511) -/

/-- LINK_GCM written (R511, R520): while paired, Twin A compares the link keys with its twin; a write on Twin B has no effect. -/
def linkGcmWrite (value : Nat) (d : Dev) : Dev :=
  let on := value % 2
  if d.twinSide ≠ 0 ∨ d.rd TWN_CFG.LINK_GCM = on then d
  else
    let d := d.wr TWN_CFG.LINK_GCM on
    if d.tstate ≠ 5 then d
    else if on = 0 then (snowSend .coord 3 ⟨0xFF, 0, 0, 0, [15, 3, 0, 0], []⟩ d).clr TWN_STATUS.GCM_ON
    else snowSend .coord 3 ⟨0xFF, 0, 0, 0, [15, 1, 1, d.linkId], []⟩ d

/-- A COORD message of the link-key check: 1 asks with Twin A's key, 2 answers with Twin B's, 3 tells the outcome (R511). -/
def linkCheck (step on key : Nat) (d : Dev) : Dev :=
  let refuse (d : Dev) : Dev := ((d.clr TWN_CFG.LINK_GCM).clr TWN_STATUS.GCM_ON).set TWN_STATUS.GCM_REFUSED
  match step with
  | 1 => snowSend .coord 3 ⟨0xFF, 0, 0, 0, [15, 2, 1, d.linkId], []⟩ d
  | 2 =>
    if !d.is TWN_CFG.LINK_GCM then d
    else if key ≠ 0 ∧ key = d.linkId then (snowSend .coord 3 ⟨0xFF, 0, 0, 0, [15, 3, 1, 0], []⟩ d).set TWN_STATUS.GCM_ON
    else refuse (snowSend .coord 3 ⟨0xFF, 0, 0, 0, [15, 4, 0, 0], []⟩ d)
  | 3 => if on = 1 then (d.set TWN_CFG.LINK_GCM).set TWN_STATUS.GCM_ON else (d.clr TWN_CFG.LINK_GCM).clr TWN_STATUS.GCM_ON
  | _ => refuse d

/-- LINK_GCM_WRITE. -/
def execLinkGcmWrite (path : Path) (value : Nat) (s : State) : Host.Outcome State Fault Refusal :=
  s.ok (if mediaWriter path then linkGcmWrite value s.dev else s.dev)

end Sys2Proof.Machine
end

