-- ==== Sys2Proof/Machine/Dump.lean ====
section
/-! DEFINITION. The Firn dump and its restore (R331 to R335), and FRN_CFG (R281, R337). -/

namespace Sys2Proof.Machine

/-! ### The dump header and the seal (R333) -/

/-- The dump header of a slot. -/
def Dump.header (x : Dump) (slot : Nat) : Bytes :=
  let b := leBytes 4 0x6E1FD35A ++ [1] ++ leBytes 1 slot ++ leBytes 1 x.reason ++ leBytes 1 x.region ++ leBytes 8 x.serial ++
    leBytes 8 x.time ++ leBytes 4 x.recs.length ++ leBytes 4 x.npages ++ (x.poolSeq.map (leBytes 8)).flatten ++ leBytes 1 x.twin ++
    leBytes 1 x.mode
  let b := padTo 4088 b
  b ++ leBytes 8 (crc64 b)

/-- The seal of a slot. -/
def Dump.seal (x : Dump) (slot : Nat) : Bytes :=
  let b := leBytes 4 0x6E1FD35A ++ leBytes 8 x.serial ++ leBytes 8 (crc64 (x.header slot ++ (x.recs.map (·.2.header)).flatten))
  padTo 4096 b

/-- The slot and the dump with the highest serial among those that a test picks. -/
def Dev.newestDump (d : Dev) (p : Dump → Bool) : Option (Nat × Dump) :=
  d.firn.dumps.foldl (fun (b : Option (Nat × Dump)) e => if !p e.2 then b else match b with
    | none => some e
    | some y => if y.2.serial < e.2.serial then some e else some y) none

/-! ### Starting and ending -/

/-- The media half's units that a dump holds in reset (R332): the Schrund, the Snowbridge, the root ports and the engines. -/
def haltForDump (d : Dev) : Dev :=
  let d := haltPorts (keepGlb d)
  let d := { d with
    reads := [], destages := [], ctxs := [], drives := { d.drives with cmds := [], retry := [], queued := [] },
    snow := { d.snow with tx := { d.snow.tx with stopped := true } } }
  (d.modSch .media fun l => { l with tx := { l.tx with stopped := true }, requests := [] }).clr (SCH_STATUS.UP .media)

/-- A dump starts (R331, R332): 1 power loss, 2 FRN_CTRL.DUMP, 3 mailbox or management port. A dump that is ordered fences the module; no
cause of R526 is stated for that fence. Records not acknowledged here are left out (R332). -/
def startDump (reason : Nat) (d : Dev) : Dev :=
  if d.firn.dumping.isSome then d
  else
    let mode := if d.fenced then 3 else d.mode
    let now := d.tbMedia
    let d := if reason = 1 then d else (fenceFree d).modTwin fun t => { t with bySplit := false }
    let slot := match d.newestDump (·.sealed) with
      | some e => (e.1 + 1) % 4
      | none => 0
    let serial := ((d.newestDump fun _ => true).map (·.2.serial)).getD 0 + 1
    let recs := d.firn.recs.filter fun e => e.2.written
    let x : Dump := ⟨reason, d.rd FRN_CFG.REGION_GIB, serial, now, (recs.map (·.2.npage)).sum, (List.range 8).map d.heldSeq, d.twinSide, mode,
      recs, d.firn.divs, false, false⟩
    let d := learnFail 4 (lastGasp .media ((haltForDump d).set FRN_STATUS.DUMPING))
    (d.modFirn fun f => { f with
      dumps := tput f.dumps slot x, dumping := some slot, dumpedAt := now, recs := recs, waiting := [] }).emit (.sideband (sbWord 5))

/-- The seal is written (R332 step 7, R333) and the pack disconnected (R700). -/
def endDump (d : Dev) : Dev :=
  match d.firn.dumping with
  | none => d
  | some slot =>
    let d := d.modFirn fun f => { f with dumping := none, dumps := tmod f.dumps slot fun x => { x with sealed := true } }
    gaugeDumpEnd (d.clr FRN_STATUS.DUMPING)

/-- Power fails under a dump: it stays without a seal, and how many of its records had been written, or whether its header had (R332), is not
stated (R334). -/
def cutDump (d : Dev) : Dev :=
  match d.firn.dumping with
  | none => d
  | some slot =>
    let (v, d) := d.draw
    let cut (l : Tab Dump) : Tab Dump := match tget l slot with
      | some x => let n := v % (x.recs.length + 2)
        if n ≤ x.recs.length then tput l slot { x with recs := x.recs.take n } else tdel l slot
      | none => l
    (d.modFirn fun f => { f with dumping := none, dumps := cut f.dumps }).clr FRN_STATUS.DUMPING

/-- FRN_DUMP (R331, R338). -/
def execFrnDump (path : Path) (value : Nat) (s : State) : Host.Outcome State Fault Refusal :=
  s.ok (if mediaWriter path && value % 65536 == 0x7C51 then startDump 2 s.dev else s.dev)

/-! ### Restore (R334, R335) -/

/-- The standing of a restored record: its copy here, and no more of what was known of the other twin or of stripes. -/
def FRec.restored (r : FRec) : FRec :=
  { r with written := true, ack := none, stripes := [], doneStripes := [], placed := 0, sect := false, posted := true, origin := .media }

/-- The extent map cache is rebuilt from the map log on the drives and the restored records (R16, R334, R374): the deltas are applied again in
their order, and the references that a restored record took before it is applied are taken again. A stripe that no INTENT record reserves any
more is free. -/
def rebuildMap (d : Dev) : Dev :=
  let held (e : MapEntry) : Bool := d.firn.recs.any fun x => x.2.pool == e.record.pool && x.2.seq == e.record.seq
  let log := d.mapLog.filter fun e => e.onDrives || held e
  let planned (s : Nat) : Bool := d.firn.recs.any fun x => x.2.rtype == rtIntent && x.2.aux == s
  let stripes := d.xmap.stripes.filter fun e => !e.2.reserved || planned e.1
  let y : Dev := { d with nss := [], xmap := { Dev.reset.xmap with stripes := stripes } }
  let y := y.each log fun y e => mapDeltas e.seq { e.record with took := false } y
  let y := y.each (d.firn.recs.filter fun e => e.2.took && !e.2.applied) fun y e =>
    y.each (e.2.refs.filter fun x => x.2 != 0) fun y x => refDelta x.2 1 y
  let keep (e : Nat × Ns) : Nat × Ns := (e.1, match tget d.nss e.1 with
    | some n => { e.2 with nextSnap := max e.2.nextSnap n.nextSnap, gone := n.gone }
    | none => e.2)
  let left (f : Nat × Nat × Nat) : Bool := (tget y.xmap.objs (objKey f.2.1 f.2.2)).isSome
  { d with mapLog := log, nss := y.nss.map keep, xmap := { y.xmap with freed := y.xmap.freed.filter left } }

/-- The media half restores from the newest dump that is not consumed, replays INTENT records, rebuilds the extent map cache and marks the slot
consumed (R334). DEDUCED: a replay leaves out what the map shows to be on drives, so it works on the rebuilt map. -/
def restore (d : Dev) : Dev :=
  match d.newestDump fun x => !x.consumed with
  | none => rebuildMap d
  | some (slot, x) =>
    let d := d.modFirn fun f => { f with
      recs := x.recs.map fun (e : Nat × FRec) => (e.1, e.2.restored), divs := x.divs, restoring := [slot] }
    let d := if x.sealed then d else fault .media 0x0A 8 2 false (d.set FRN_STATUS.DUMP_INCOMPLETE)
    let d := rebuildMap d
    let d := replayIntents (d.each (d.pools.map (·.1)) fun d p => adoptRecs p d)
    d.modFirn fun f => { f with dumps := tmod f.dumps slot fun x => { x with consumed := true } }

/-- RESTORE_END (R335): every pool comes online. -/
def execRestoreEnd (s : State) : Host.Outcome State Fault Refusal :=
  s.ok <|
    let d := s.dev
    if !d.is FRN_STATUS.RESTORING then d
    else
      let d := d.clr FRN_STATUS.RESTORING
      let d := if d.firn.restoring.isEmpty then d else d.set FRN_STATUS.RESTORED
      let d := (d.modFirn fun f => { f with restoring := [] }).modIng fun i => { i with marksRead := true }
      let d := d.each (d.pools.map (·.1)) fun d p => mediaEvent evPoolOnline p (d.modPool p fun x => { x with online := true })
      let d := if d.drives.windows.isEmpty then d.modDrv fun v => { v with started := true } else d
      settle (syncRebuild d)

/-! ### FRN_CFG -/

/-- A write to FRN_CFG (R281, R337). DEDUCED: a value that is refused leaves both fields as they are. -/
def frnCfgWrite (value : Nat) (d : Dev) : Dev :=
  let g := bits value 0 6
  let a := bits value 8 8
  let heap := (g * 2 ^ 30 - 2 ^ 28 - 2 ^ 26) / 4096
  if g < 4 ∨ 32 < g ∨ 64 < a ∨ heap < 4 * (a * 16384) ∨ (g ≠ d.rd FRN_CFG.REGION_GIB ∧ !d.firn.recs.isEmpty) then
    d.set FRN_STATUS.CONFIG_REFUSED
  else spaceCheck ((d.wr FRN_CFG.REGION_GIB g).wr FRN_CFG.A_RESERVE a)

/-- FRN_CFG_WRITE (R281, R336). -/
def execFrnCfgWrite (path : Path) (value : Nat) (s : State) : Host.Outcome State Fault Refusal :=
  s.ok (if mediaWriter path then frnCfgWrite value s.dev else s.dev)

end Sys2Proof.Machine
end

