-- ==== Sys2Proof/Machine/Floe.lean ====
section
/-! DEFINITION. Floe (chapter 13): who drives which channel, the descriptor ring, the program's instructions, the burst
arbiter, request lines and events, errors, pause, resume and abort. -/

namespace Sys2Proof.Machine

/-- The PF that owns a channel of the host half (R639). -/
def floOwner (h : Half) (ch : Nat) : Option Nat :=
  if h = .host ∧ 96 ≤ ch ∧ ch < 128 then some (256 * ((ch - 96) / 8)) else none

/-- The half whose Floe registers a path reaches (R640, R642, R778): a PF, the I3C port or the firmware of the half. -/
def floHalf : Path → Option Half
  | .pf _ => some .host
  | .i3c h | .firmware h => some h
  | _ => none

/-- A path may drive a channel: the PF that owns it, the firmware of the half where no PF does, or the I3C port of the half (R639, R640,
R778). -/
def floMayDrive (p : Path) (ch : Nat) : Bool :=
  match p with
  | .pf e => floOwner .host ch == some (256 * e)
  | .i3c _ => decide (ch < 128)
  | .firmware h => decide (ch < 128) && (floOwner h ch).isNone
  | _ => false

/-- A channel may use a request line or an event: a PF's channels only the PF's own eight (R639). -/
def floMayUse (h : Half) (ch n : Nat) : Bool :=
  match floOwner h ch with
  | some fn => decide (n < 32) && n / 8 == epOf fn
  | none => !(h == .host && decide (n < 32))

/-- The number of a channel among those of both halves. -/
def chanNum (h : Half) (ch : Nat) : Nat := halfNum h * 128 + ch

/-- A channel. -/
def Dev.chan (d : Dev) (h : Half) (ch : Nat) : Chan := (tget d.floe.chans (chanNum h ch)).getD Chan.fresh

/-- A channel changed. -/
def Dev.modChan (d : Dev) (h : Half) (ch : Nat) (f : Chan → Chan) : Dev :=
  { d with floe := { d.floe with chans := tput d.floe.chans (chanNum h ch) (f (d.chan h ch)) } }

/-- A channel's state code (R681). -/
def Dev.floState (d : Dev) (h : Half) (ch : Nat) : Nat := d.rd (FLO_CH_STATUS.STATE h ch)

/-- A channel's state set. -/
def Dev.setFlo (d : Dev) (h : Half) (ch st : Nat) : Dev := d.wr (FLO_CH_STATUS.STATE h ch) st

/-- The codes of R681. -/
def floIdle : Nat := 0
def floRun : Nat := 1
def floWait : Nat := 2
def floPausing : Nat := 3
def floPaused : Nat := 4
def floHalted : Nat := 5
def floAborting : Nat := 6

/-! ### Fields of an instruction -/

/-- The width a two-bit code of MFLAGS names (R652). -/
def floWidth (code : Nat) : Nat := 2 ^ code

/-- The source width of a MOVE. -/
def moveSw (i : Bytes) : Nat := floWidth (bits (getLe i 1 1) 0 2)
/-- The destination width of a MOVE. -/
def moveDw (i : Bytes) : Nat := floWidth (bits (getLe i 1 1) 2 2)
/-- SRC_FIX. -/
def moveSrcFix (i : Bytes) : Bool := bit (getLe i 1 1) 4
/-- DST_FIX. -/
def moveDstFix (i : Bytes) : Bool := bit (getLe i 1 1) 5
/-- PACE. -/
def movePace (i : Bytes) : Bool := bit (getLe i 1 1) 6
/-- CONT. -/
def moveCont (i : Bytes) : Bool := bit (getLe i 1 1) 7
/-- The source space of a MOVE (R653). -/
def moveSrcSpace (i : Bytes) : Nat := bits (getLe i 24 1) 0 4
/-- The destination space of a MOVE. -/
def moveDstSpace (i : Bytes) : Nat := bits (getLe i 24 1) 4 4
/-- The bytes of a full burst of a MOVE (R652). -/
def moveBurst (i : Bytes) : Nat := (getLe i 3 1 + 1) * max (moveSw i) (moveDw i)

/-- Bytes of an instruction from an offset on are zero. -/
def zeroFrom (i : Bytes) (off : Nat) : Bool := allZero (getBytes i off (32 - off))

/-- A space that a channel may name as a source (R653). -/
def floSpaceOk (h : Half) (ch space : Nat) (dest : Bool) : Bool :=
  match floOwner h ch with
  | some _ => space == 0 || (space == 7 && !dest)
  | none => (space == 0 && h == .host) || space == 1 || space == 2 || space == 3 || (space == 7 && !dest)

/-- A space code that R653 defines. -/
def floSpaceKnown (space : Nat) : Bool := decide (space ≤ 3) || space == 7

/-- The halt cause of a MOVE, or 0 for a MOVE the channel may run (R651 to R654). -/
def moveCause (h : Half) (ch : Nat) (i : Bytes) : Nat :=
  let w := max (moveSw i) (moveDw i)
  let len := getLe i 4 4
  if !floSpaceKnown (moveSrcSpace i) || !floSpaceKnown (moveDstSpace i) || !zeroFrom i 25 then 3
  else if (!movePace i && getLe i 2 1 != 0) || decide (63 < getLe i 2 1) || len == 0 || len % w != 0 then 3
  else if moveSrcSpace i == 7 && !moveSrcFix i then 3
  else if moveCont i && (getLe i 8 8 != 0 || getLe i 16 8 != 0) then 3
  else if (moveSrcSpace i != 7 && getLe i 8 8 % moveSw i != 0) || getLe i 16 8 % moveDw i != 0 then 3
  else if !floSpaceOk h ch (moveSrcSpace i) false || !floSpaceOk h ch (moveDstSpace i) true then 4
  else if movePace i && !floMayUse h ch (getLe i 2 1) then 4
  else 0

/-- The halt cause of a LOOP (R651, R658). -/
def loopCause (prog pc : Nat) (i : Bytes) : Nat :=
  if bits (getLe i 1 1) 1 7 != 0 || getLe i 2 2 == 0 || getLe i 4 2 == 0 || decide (4096 < getLe i 4 2)
      || !zeroFrom i 6 || decide (pc < prog + 32 * getLe i 4 2) then 3 else 0

/-- The halt cause of a WAIT (R651, R659). -/
def waitCause (h : Half) (ch : Nat) (i : Bytes) : Nat :=
  if bits (getLe i 1 1) 2 6 != 0 || decide (63 < getLe i 2 1) || getLe i 3 1 != 0 || !zeroFrom i 8
      || (bit (getLe i 1 1) 1 && getLe i 4 4 == 0) || (!bit (getLe i 1 1) 1 && getLe i 4 4 != 0) then 3
  else if !floMayUse h ch (getLe i 2 1) then 4 else 0

/-- The halt cause of a SIGNAL (R651, R660). -/
def signalCause (h : Half) (ch : Nat) (i : Bytes) : Nat :=
  if bits (getLe i 1 1) 2 6 != 0 || getLe i 3 1 != 0 || !zeroFrom i 6 || decide (63 < getLe i 2 1) then 3
  else if bit (getLe i 1 1) 0 && !floMayUse h ch (getLe i 2 1) then 4
  else if bit (getLe i 1 1) 1 && decide (2047 < getLe i 4 2) then 4 else 0

/-! ### Request lines and events -/

/-- The pending assertions of a request line (R662). -/
def Dev.lineCount (d : Dev) (h : Half) (l : Nat) : Nat :=
  if l < 32 then d.rd (FLO_REQ.COUNT h l) else (tget d.floe.lines (halfNum h * 64 + l)).getD 0

/-- A line's count set. -/
def Dev.setLine (d : Dev) (h : Half) (l n : Nat) : Dev :=
  if l < 32 then d.wr (FLO_REQ.COUNT h l) n
  else { d with floe := { d.floe with lines := tput d.floe.lines (halfNum h * 64 + l) n } }

/-- The channel waits on a request line, in a WAIT or in a paced MOVE (R659, R663). -/
def Dev.waitsLine (d : Dev) (h : Half) (ch l : Nat) : Bool :=
  let c := d.chan h ch
  d.floState h ch == floWait && c.begun && getLe c.instr 2 1 == l &&
    ((getLe c.instr 0 1 == 3 && !bit (getLe c.instr 1 1) 0) || (getLe c.instr 0 1 == 1 && movePace c.instr))

/-- The channel waits on an event in a WAIT (R659). -/
def Dev.waitsEvent (d : Dev) (h : Half) (ch k : Nat) : Bool :=
  let c := d.chan h ch
  d.floState h ch == floWait && c.begun && getLe c.instr 0 1 == 3 && bit (getLe c.instr 1 1) 0 && getLe c.instr 2 1 == k

/-! ### Requests of a channel -/

/-- Whether a channel's requests may go out: its owner masters the bus (R675). -/
def Dev.floMayIssue (d : Dev) (h : Half) (ch : Nat) : Bool :=
  match floOwner h ch with
  | some fn => !d.holding fn
  | none => true

/-- The address of the descriptor at HEAD (R643). -/
def Dev.descAddr (d : Dev) (h : Half) (ch : Nat) : Nat :=
  d.rd (FLO_CH_RING.BASE h ch) * 4096 + 32 * d.rd (FLO_CH_HEAD.HEAD h ch)

/-- The number under which a channel's host requests are known. -/
def floReq (h : Half) (ch : Nat) : Purpose := .floe (chanNum h ch)

/-- The function whose requests a channel's are; a firmware channel's requests on the host half are the PF's of endpoint
0 (R641, R653). -/
def floFn (h : Half) (ch : Nat) : Nat := (floOwner h ch).getD 0

/-- A span of memory cut at 4 KiB boundaries and at a largest size (R657). -/
def splitSpan (most : Nat) : Nat → Nat → Nat → List (Nat × Nat)
  | 0, _, _ => []
  | fuel + 1, a, n =>
    if n = 0 then [] else
      let k := min n (min most (4096 - a % 4096))
      if k = 0 then [] else (a, k) :: splitSpan most fuel (a + k) (n - k)

/-- The reads of one burst: cut as R657 sets out, or one read per beat where the source is fixed. -/
def burstReads (d : Dev) (fn : Nat) (i : Bytes) (src n : Nat) : List (Nat × Nat) :=
  if moveSrcFix i then List.replicate (n / moveSw i) (src, moveSw i)
  else splitSpan (128 * 2 ^ d.rd (CFG.MRRS fn)) n src n

/-- The reads of a burst sent (R653, R657). A source inside the module sends nothing to a host. -/
def issueBurst (h : Half) (ch : Nat) (b : Nat × Nat) (d : Dev) : Dev :=
  let i := (d.chan h ch).instr
  if moveSrcSpace i = 0 then
    d.asks ((burstReads d (floFn h ch) i b.1 b.2).map fun r => .hostRead (floFn h ch) r.1 r.2 (floReq h ch) false)
  else d

/-- Sends the request that a channel needs next (R646, R648, R650): a descriptor read, an instruction fetch, or the
zero-length read of R648. A firmware channel's descriptors and programs lie in its own half, and no host request goes
out for them. -/
def issueAwait (h : Half) (ch : Nat) (d : Dev) : Dev :=
  let c := d.chan h ch
  let fn := floFn h ch
  let own := (floOwner h ch).isSome
  let d := d.modChan h ch fun c => { c with issued := true }
  match c.await with
  | some .desc => d.when own fun d => d.ask (.hostRead fn (d.descAddr h ch) 32 (floReq h ch) false)
  | some .fetch => d.when own fun d => d.ask (.hostRead fn (d.rd (FLO_CH_PC.PC h ch)) 32 (floReq h ch) false)
  | some .response => d.when (own || c.toHost) fun d => d.ask (.hostRead fn (d.rd (FLO_CH_DST.DST h ch)) 0 (floReq h ch) false)
  | _ => d

/-- A channel needs a request: it is sent with a fresh set of retries while the channel runs and may issue (R668). -/
def needReq (h : Half) (ch : Nat) (r : FloeReq) (d : Dev) : Dev :=
  let d := d.modChan h ch fun c => { c with await := some r, issued := false, left := d.rd (FLO_CH_CFG.RETRY h ch) }
  d.when (d.floState h ch == floRun && d.floMayIssue h ch) (issueAwait h ch)

/-- A channel halts with a cause (R670). -/
def floHalt (h : Half) (ch cause : Nat) (d : Dev) : Dev :=
  let d := ((d.setFlo h ch floHalted).wr (FLO_CH_STATUS.CAUSE h ch) cause).set (FLO_CH_STATUS.HALT_EVT h ch)
  let d := fault h 6 ch cause false d
  match floOwner h ch with
  | some fn => d.when (d.is (FLO_CH_CFG.ERR_IRQ h ch)) (trigger fn (d.rd (FLO_CH_VEC.ERR_VEC h ch)))
  | none => d

/-- A channel halts on the instruction at PC, which has no effect and which RESUME meets again (R651, R671). -/
def floHaltInstr (h : Half) (ch cause : Nat) (d : Dev) : Dev :=
  floHalt h ch cause (d.modChan h ch fun c => { c with await := some .fetch, issued := false, begun := false })

/-- The program goes on at an address: the instruction there is fetched. -/
def floGoto (h : Half) (ch pc : Nat) (d : Dev) : Dev :=
  needReq h ch .fetch (((d.wr (FLO_CH_PC.PC h ch) pc).setFlo h ch floRun).modChan h ch fun c => { c with begun := false })

/-- The program goes on after the instruction at PC. -/
def floNext (h : Half) (ch : Nat) (d : Dev) : Dev := floGoto h ch (d.rd (FLO_CH_PC.PC h ch) + 32) d

/-- A channel goes IDLE (R646, R647, R673). -/
def floToIdle (h : Half) (ch : Nat) (d : Dev) : Dev :=
  ((d.setFlo h ch floIdle).wr (FLO_CH_STATUS.PAUSE_SRC h ch) 0).modChan h ch fun c =>
    { c with await := none, issued := false, begun := false, bursts := [], held := [], later := [], unread := 0, failed := none }

/-- A line's assertion is consumed by the lowest-numbered channel that waits on it in a WAIT; a paced MOVE that waits
runs again until its burst is granted (R659, R663, R664). -/
def wakeLine (h : Half) (l : Nat) (d : Dev) : Dev :=
  match (List.range 128).find? (fun ch => d.waitsLine h ch l) with
  | none => d
  | some ch =>
    if d.lineCount h l = 0 then d
    else if getLe (d.chan h ch).instr 0 1 = 3 then floNext h ch (d.setLine h l (d.lineCount h l - 1))
    else d.setFlo h ch floRun

/-- One assertion of a request line: the counter saturates at 255 and sets OVF (R662). -/
def assertLine (h : Half) (l : Nat) (d : Dev) : Dev :=
  if d.lineCount h l < 255 then wakeLine h l (d.setLine h l (d.lineCount h l + 1))
  else d.when (decide (l < 32)) fun d => d.set (FLO_REQ.OVF h l)

/-- An event flag is set; the lowest-numbered channel that waits on it clears it and goes on (R659, R664). -/
def setEvent (h : Half) (k : Nat) (d : Dev) : Dev :=
  match (List.range 128).find? (fun ch => d.waitsEvent h ch k) with
  | some ch => floNext h ch d
  | none => d.putBit (FLO_EVENT.FLAGS h) k true

/-! ### Descriptors -/

/-- A channel reads the descriptor at HEAD (R646). -/
def readDesc (h : Half) (ch : Nat) (d : Dev) : Dev :=
  needReq h ch .desc ((d.setFlo h ch floRun).modChan h ch fun c => { c with begun := false })

/-- KICK (R646, R674). -/
def floKick (h : Half) (ch : Nat) (d : Dev) : Dev :=
  if d.floState h ch = floIdle then
    if d.floMayIssue h ch then readDesc h ch d
    else (((d.setFlo h ch floPaused).wr (FLO_CH_STATUS.PAUSE_SRC h ch) 2).modChan h ch fun c =>
      { c with await := some .desc, issued := false })
  else d.set (FLO_CH_STATUS.KICK_PEND h ch)

/-- The descriptor at HEAD arrives (R646, R658, R683). While the channel is PAUSING it is read again on RESUME. -/
def descArrived (h : Half) (ch : Nat) (desc : Bytes) (d : Dev) : Dev :=
  let c := d.chan h ch
  if c.await ≠ some .desc ∨ !c.issued then d
  else if d.floState h ch ≠ floRun then d.modChan h ch fun c => { c with issued := false }
  else if bit (getLe desc 0 8) 0 then
    let d := ((d.wr (FLO_CH_LOOP.LC0 h ch) 0).wr (FLO_CH_LOOP.LC1 h ch) 0).wr (FLO_CH_MOVED.MOVED h ch) 0
    floGoto h ch (getLe desc 8 8) (d.modChan h ch fun c =>
      { c with prog := getLe desc 8 8, dstat := getLe desc 0 8, retries := 0, unresponded := false, toHost := false })
  else if d.is (FLO_CH_STATUS.KICK_PEND h ch) then readDesc h ch (d.clr (FLO_CH_STATUS.KICK_PEND h ch))
  else floToIdle h ch d

/-- The last steps of a descriptor, once its status is written (R647): DONE_VEC, HEAD, and what comes next. -/
def descDone (h : Half) (ch : Nat) (d : Dev) : Dev :=
  let c := d.chan h ch
  let d := d.when (bit c.dstat 1 && (floOwner h ch).isSome) (trigger (floFn h ch) (d.rd (FLO_CH_VEC.DONE_VEC h ch)))
  let d := d.wr (FLO_CH_HEAD.HEAD h ch)
    (if d.rd (FLO_CH_HEAD.HEAD h ch) = d.rd (FLO_CH_HEAD.DEPTH_M1 h ch) then 0 else d.rd (FLO_CH_HEAD.HEAD h ch) + 1)
  if bit c.dstat 2 then floToIdle h ch d else readDesc h ch d

/-- The descriptor's write-back (R647). A write to host memory is posted; a firmware channel's, into the module, has a write response and
may fail (R648, R668). -/
def writeBack (h : Half) (ch : Nat) (d : Dev) : Dev :=
  let c := d.chan h ch
  let a := d.descAddr h ch
  let stat := bits c.dstat 1 2 * 2 + min c.retries 7 * 2 ^ 16
  match floOwner h ch with
  | none => needReq h ch .moved d
  | some fn => descDone h ch (d.asks [.hostWrite fn (a + 16) (leBytes 8 (d.rd (FLO_CH_MOVED.MOVED h ch))) false,
      .hostWrite fn a (leBytes 8 stat) false])

/-- A SIGNAL's own effect (R660). -/
def signalNow (h : Half) (ch : Nat) (i : Bytes) (d : Dev) : Dev :=
  let d := d.when (bit (getLe i 1 1) 0) (setEvent h (getLe i 2 1))
  let d := d.when (bit (getLe i 1 1) 1) fun d =>
    match floOwner h ch with
    | some fn => trigger fn (getLe i 4 2) d
    | none => d
  floNext h ch d

/-- What a SIGNAL or an END does once every write of the program has its response (R647, R648, R660). -/
def afterResponse (h : Half) (ch : Nat) (d : Dev) : Dev :=
  let i := (d.chan h ch).instr
  if getLe i 0 1 = 4 then signalNow h ch i d else writeBack h ch d

/-- A SIGNAL or an END waits for the response of the program's writes where there are any (R648). -/
def waitResponse (h : Half) (ch : Nat) (d : Dev) : Dev :=
  if (d.chan h ch).unresponded then needReq h ch .response d else afterResponse h ch d

/-! ### Instructions -/

/-- The channel awaits the fetch of an instruction and it arrives: `false` where nothing is taken of it. While the channel
is PAUSING the instruction is fetched again on RESUME (R650, R672). -/
def takesInstr (d : Dev) (h : Half) (ch : Nat) : Bool :=
  (d.chan h ch).await == some .fetch && (d.chan h ch).issued

/-- An instruction with its own opcode arrives and its meaning runs; an opcode that R650 does not list halts the channel
with cause 03h (R651). -/
def runInstr (h : Half) (ch opc : Nat) (i : Bytes) (meaning : Dev → Dev) (d : Dev) : Dev :=
  if !takesInstr d h ch then d
  else if d.floState h ch ≠ floRun then d.modChan h ch fun c => { c with issued := false }
  else if getLe i 0 1 = 0 ∨ 5 < getLe i 0 1 then floHaltInstr h ch 3 d
  else if getLe i 0 1 ≠ opc then d
  else meaning (d.modChan h ch fun c => { c with issued := false, instr := padTo 32 i })

/-- A MOVE begins (R652, R654, R663). -/
def moveBegin (h : Half) (ch : Nat) (d : Dev) : Dev :=
  let i := (d.chan h ch).instr
  let cause := moveCause h ch i
  if cause ≠ 0 then floHaltInstr h ch cause d
  else
    let d := if moveCont i then d
      else (d.wr (FLO_CH_SRC.SRC h ch) (getLe i 8 8)).wr (FLO_CH_DST.DST h ch) (getLe i 16 8)
    let d := ((d.wr (FLO_CH_REMAIN.REMAIN h ch) (getLe i 4 4)).wr (FLO_CH_REMAIN.BUFFERED h ch) 0).wr
      (FLO_CH_STATUS.HOLD h ch) 0
    let d := d.modChan h ch fun c =>
      { c with begun := true, await := none, unread := getLe i 4 4, bursts := [], held := [], later := [], failed := none,
               left := d.rd (FLO_CH_CFG.RETRY h ch) }
    d.when (movePace i && d.lineCount h (getLe i 2 1) == 0) fun d => d.setFlo h ch floWait

/-- The writes of destination beats: one request per beat where the destination is fixed, else cut as R657 sets out. -/
def beatWrites (d : Dev) (fn : Nat) (i : Bytes) (dst : Nat) (out : Bytes) : List Out :=
  if moveDstFix i then (pieces (moveDw i) out).map fun b => .hostWrite fn dst b false
  else (splitSpan (128 * 2 ^ d.rd (CFG.MPS fn)) out.length dst out.length).map fun r =>
    .hostWrite fn r.1 (getBytes out (r.1 - dst) r.2) false

/-- The writes of destination beats into the register space of the channel's half, each of the destination's width (R653, R657). -/
def beatRegs (h : Half) (i : Bytes) (dst : Nat) (out : Bytes) : List (Half × Nat × Bytes) :=
  (pieces (moveDw i) out).zipIdx.map fun b => (h, if moveDstFix i then dst else dst + moveDw i * b.2, b.1)

/-- A paced MOVE with bytes yet to read whose line has no assertion is in the WAIT state (R663). -/
def paceState (h : Half) (ch : Nat) (d : Dev) : Dev :=
  let c := d.chan h ch
  d.when (d.floState h ch == floRun && c.begun && movePace c.instr && c.unread != 0 && d.lineCount h (getLe c.instr 2 1) == 0)
    fun d => d.setFlo h ch floWait

/-- The bytes held leave as whole destination beats (R655, R656), and a MOVE that has written all its bytes ends. -/
def moveWrite (h : Half) (ch : Nat) (d : Dev) : Dev :=
  let c := d.chan h ch
  let i := c.instr
  let n := c.held.length / moveDw i * moveDw i
  let out := c.held.take n
  let dst := d.rd (FLO_CH_DST.DST h ch)
  let d := d.when (moveDstSpace i == 0) fun d => d.asks (beatWrites d (floFn h ch) i dst out)
  let d := d.when (moveDstSpace i == 3) fun d =>
    { d with floe := { d.floe with regWrites := d.floe.regWrites ++ beatRegs h i dst out } }
  let rest := c.held.drop n
  let d := d.modChan h ch fun c =>
    { c with held := rest, unresponded := c.unresponded || n != 0, toHost := c.toHost || (n != 0 && moveDstSpace i == 0) }
  let d := d.wr (FLO_CH_DST.DST h ch) (if moveDstFix i then dst else dst + n)
  let d := d.wr (FLO_CH_REMAIN.REMAIN h ch) (d.rd (FLO_CH_REMAIN.REMAIN h ch) - n)
  let d := d.wr (FLO_CH_MOVED.MOVED h ch) (d.rd (FLO_CH_MOVED.MOVED h ch) + n)
  let d := (d.wr (FLO_CH_STATUS.HOLD h ch) rest.length).wr (FLO_CH_REMAIN.BUFFERED h ch) rest.length
  if d.rd (FLO_CH_REMAIN.REMAIN h ch) = 0 then
    if d.floState h ch = floRun ∨ d.floState h ch = floWait then floNext h ch d
    else (d.wr (FLO_CH_PC.PC h ch) (d.rd (FLO_CH_PC.PC h ch) + 32)).modChan h ch fun c =>
      { c with begun := false, await := some .fetch, issued := false }
  else
    paceState h ch d

/-- The data of the oldest outstanding burst arrives (R655, R656, R666). Data that the owner may not write is kept
(R675); data that reaches an aborting channel is dropped (R673). Where the oldest burst's read has failed, the data are those of the burst
after it, which are kept behind it (R670). -/
def moveData (h : Half) (ch : Nat) (data : Bytes) (d : Dev) : Dev :=
  let c := d.chan h ch
  match c.bursts with
  | [] => d
  | b :: rest =>
    let st := d.floState h ch
    if !c.begun ∨ st = floAborting ∨ st = floIdle then d
    else if c.failed = some .data then
      if c.later.isEmpty && rest.any (fun k => k.2 == data.length) then
        (d.modChan h ch fun c => { c with later := data }).wr (FLO_CH_REMAIN.BUFFERED h ch) (c.held.length + data.length)
      else d
    else if data.length ≠ b.2 then d
    else
      let d := d.modChan h ch fun c =>
        { c with bursts := if c.later.isEmpty then rest else [], held := c.held ++ data ++ c.later, later := [],
                 left := d.rd (FLO_CH_CFG.RETRY h ch) }
      let d := d.wr (FLO_CH_SRC.SRC h ch)
        (if moveSrcFix c.instr then d.rd (FLO_CH_SRC.SRC h ch) else d.rd (FLO_CH_SRC.SRC h ch) + b.2 + c.later.length)
      if d.floMayIssue h ch then moveWrite h ch d
      else d.wr (FLO_CH_REMAIN.BUFFERED h ch) (d.chan h ch).held.length

/-- A LOOP (R658). -/
def loopRun (h : Half) (ch : Nat) (d : Dev) : Dev :=
  let c := d.chan h ch
  let i := c.instr
  let pc := d.rd (FLO_CH_PC.PC h ch)
  let cause := loopCause c.prog pc i
  if cause ≠ 0 then floHaltInstr h ch cause d
  else
    let f := if bit (getLe i 1 1) 0 then FLO_CH_LOOP.LC1 h ch else FLO_CH_LOOP.LC0 h ch
    let lc := (if d.rd f = 0 then getLe i 2 2 else d.rd f) - 1
    let d := d.wr f lc
    if lc ≠ 0 then floGoto h ch (pc - 32 * getLe i 4 2) d else floNext h ch d

/-- A WAIT (R659): it ends at once where its line or event already stands, else the channel waits. -/
def waitRun (h : Half) (ch : Nat) (d : Dev) : Dev :=
  let i := (d.chan h ch).instr
  let n := getLe i 2 1
  let cause := waitCause h ch i
  if cause ≠ 0 then floHaltInstr h ch cause d
  else if bit (getLe i 1 1) 0 then
    if bit (d.rd (FLO_EVENT.FLAGS h)) n then floNext h ch (d.putBit (FLO_EVENT.FLAGS h) n false)
    else (d.setFlo h ch floWait).modChan h ch fun c => { c with begun := true, await := none, since := d.now h }
  else if d.lineCount h n ≠ 0 then floNext h ch (d.setLine h n (d.lineCount h n - 1))
  else (d.setFlo h ch floWait).modChan h ch fun c => { c with begun := true, await := none, since := d.now h }

/-- A SIGNAL (R660). -/
def signalRun (h : Half) (ch : Nat) (d : Dev) : Dev :=
  let cause := signalCause h ch (d.chan h ch).instr
  if cause ≠ 0 then floHaltInstr h ch cause d else waitResponse h ch d

/-- An END (R661). -/
def endRun (h : Half) (ch : Nat) (d : Dev) : Dev :=
  if !zeroFrom (d.chan h ch).instr 1 then floHaltInstr h ch 3 d else waitResponse h ch d

/-! ### Arbitration -/

/-- A channel has a burst ready (R663, R666): its MOVE has bytes to read, fewer than two bursts are outstanding, it may
issue, and where it is paced its line has an assertion that no lower-numbered waiting channel consumes first. -/
def Dev.burstReady (d : Dev) (h : Half) (ch : Nat) : Bool :=
  let c := d.chan h ch
  let st := d.floState h ch
  (st == floRun || st == floWait) && c.begun && getLe c.instr 0 1 == 1 && c.unread != 0 && decide (c.bursts.length < 2) &&
    d.floMayIssue h ch &&
    (!movePace c.instr || (d.lineCount h (getLe c.instr 2 1) != 0 &&
      (List.range ch).all (fun k => !d.waitsLine h k (getLe c.instr 2 1))))

/-- The channel that the arbiter grants: the highest priority, 0 first, and among equals round robin after the channel
granted last (R666). -/
def Dev.floGrant (d : Dev) (h : Half) : Option Nat :=
  let last := (tget d.floe.last (halfNum h)).getD 127
  let order := (List.range 128).map fun k => (last + 1 + k) % 128
  let ready := order.filter fun ch => d.burstReady h ch
  ready.find? fun ch => ready.all fun k => decide (d.rd (FLO_CH_CFG.PRIO h ch) ≤ d.rd (FLO_CH_CFG.PRIO h k))

/-- One grant of the Floe arbiter: the burst's assertion is consumed and its reads are sent; an immediate pattern is
written at once (R654, R663, R666). -/
def burstGrant (h : Half) (d : Dev) : Dev :=
  match d.floGrant h with
  | none => d
  | some ch =>
    let c := d.chan h ch
    let i := c.instr
    let n := min c.unread (moveBurst i)
    let d := { d with floe := { d.floe with last := tput d.floe.last (halfNum h) ch } }
    let d := d.when (movePace i) fun d => d.setLine h (getLe i 2 1) (d.lineCount h (getLe i 2 1) - 1)
    let d := d.setFlo h ch floRun
    let out := c.bursts.foldl (fun k b => k + b.2) 0
    let src := d.rd (FLO_CH_SRC.SRC h ch) + (if moveSrcFix i then 0 else out)
    let d := d.modChan h ch fun c => { c with unread := c.unread - n, bursts := c.bursts ++ [(src, n)] }
    paceState h ch (
      if moveSrcSpace i = 7 then
        moveData h ch ((List.replicate (n / moveSw i) (leBytes (moveSw i) src)).flatten) d
      else issueBurst h ch (src, n) d)

/-! ### Errors, pause and abort -/

/-- A bus error (R668): the request is issued again up to RETRY times, then the channel halts. Where the owner may not master the bus, the
failed request waits for that (R675). -/
def busError (h : Half) (ch : Nat) (d : Dev) : Dev :=
  let c := d.chan h ch
  let st := d.floState h ch
  let data := c.begun && !c.bursts.isEmpty
  if !(data || c.issued) ∨ c.failed = some .data ∨ st = floHalted ∨ st = floIdle ∨ st = floAborting then d
  else
    if c.left ≠ 0 ∧ !d.floMayIssue h ch then
      d.modChan h ch fun c => if data then { c with failed := some .data } else { c with issued := false }
    else if c.left ≠ 0 then
      let d := (d.modChan h ch fun c => { c with left := c.left - 1, retries := min (c.retries + 1) 7 }).bump
        (FLO_CH_RETRIES.RETRIES h ch) 1
      if data then
        match c.bursts with
        | [] => d
        | b :: _ => issueBurst h ch b d
      else issueAwait h ch d
    else
      let cause := if data then 1 else match c.await with
        | some .desc => 2
        | some .fetch => 2
        | some .moved => 6
        | some .dstat => 6
        | _ => 1
      floHalt h ch cause (d.modChan h ch fun c =>
        { c with failed := if data then some .data else c.await, issued := false })

/-- A channel goes on from where it stood (R671, R672): the request it needs is sent again with fresh retries, data that
could not be written is written, and outstanding bursts are read again after a halt. -/
def floContinue (h : Half) (ch : Nat) (d : Dev) : Dev :=
  let c := d.chan h ch
  let fresh := c.failed == some .data
  let waits := c.begun && getLe c.instr 0 1 == 3
  let d := paceState h ch (d.setFlo h ch (if waits then floWait else floRun))
  let d := d.modChan h ch fun c => { c with failed := none, left := d.rd (FLO_CH_CFG.RETRY h ch) }
  if c.begun then
    if getLe c.instr 0 1 = 1 then
      let d := d.when (fresh && d.floMayIssue h ch) fun d => d.each (c.bursts.take 1) fun d b => issueBurst h ch b d
      d.when (decide (moveDw c.instr ≤ c.held.length)) (moveWrite h ch)
    else if getLe c.instr 0 1 = 3 then
      waitRun h ch d
    else d
  else match c.await with
    | some .response => if c.unresponded then needReq h ch .response d else afterResponse h ch d
    | some r => needReq h ch r d
    | none => d

/-- No request of the channel is out: none was issued, or the one that failed waits to be issued again and any behind it has ended (R670,
R672). -/
def Chan.quiet (c : Chan) : Bool :=
  !c.issued && (c.bursts.isEmpty || (c.failed == some .data && (c.bursts.length == 1 || !c.later.isEmpty)))

/-- A channel that was PAUSING or PAUSED goes on. While requests that were issued before are still out, their answers are taken as they come
(R672, R674). -/
def floGoOn (h : Half) (ch : Nat) (d : Dev) : Dev :=
  let c := d.chan h ch
  if c.quiet || c.failed == some .data then floContinue h ch d
  else paceState h ch (d.setFlo h ch floRun)

/-- A channel stops new reads (R672, R675): it is PAUSED at once when nothing is outstanding, else PAUSING. -/
def floStop (h : Half) (ch src : Nat) (d : Dev) : Dev :=
  let c := d.chan h ch
  let st := d.floState h ch
  let d := d.wr (FLO_CH_STATUS.PAUSE_SRC h ch) (d.rd (FLO_CH_STATUS.PAUSE_SRC h ch) ||| src)
  if st = floRun ∨ st = floWait then
    d.setFlo h ch (if c.quiet then floPaused else floPausing)
  else d

/-- PAUSE (R672, R674). -/
def floPause (h : Half) (ch : Nat) (d : Dev) : Dev :=
  let st := d.floState h ch
  if st = floRun ∨ st = floWait then floStop h ch 1 d else d

/-- RESUME (R671, R672, R674). -/
def floResume (h : Half) (ch : Nat) (d : Dev) : Dev :=
  let st := d.floState h ch
  if st = floPausing ∨ st = floPaused then
    let d := d.putBit (FLO_CH_STATUS.PAUSE_SRC h ch) 0 false
    if d.rd (FLO_CH_STATUS.PAUSE_SRC h ch) ≠ 0 then d
    else if st = floPaused then floContinue h ch d
    else floGoOn h ch d
  else if st = floHalted then
    if d.floMayIssue h ch then floContinue h ch (d.wr (FLO_CH_STATUS.PAUSE_SRC h ch) 0)
    else (d.setFlo h ch floPaused).wr (FLO_CH_STATUS.PAUSE_SRC h ch) 2
  else d

/-- The values of the position registers after an ABORT are undefined: free values (R673). -/
def floUndefined (h : Half) (ch : Nat) (d : Dev) : Dev :=
  d.each [FLO_CH_PC.PC h ch, FLO_CH_SRC.SRC h ch, FLO_CH_DST.DST h ch, FLO_CH_REMAIN.REMAIN h ch,
    FLO_CH_REMAIN.BUFFERED h ch, FLO_CH_LOOP.LC0 h ch, FLO_CH_LOOP.LC1 h ch, FLO_CH_MOVED.MOVED h ch]
    fun d f => (d.draw.2).wr f d.draw.1

/-- ABORT (R673, R674). -/
def floAbort (h : Half) (ch : Nat) (d : Dev) : Dev :=
  let st := d.floState h ch
  if st = floIdle ∨ st = floAborting then d
  else floUndefined h ch (((d.setFlo h ch floAborting).wr (FLO_CH_STATUS.HOLD h ch) 0).modChan h ch fun c =>
    { c with held := [], later := [], unread := 0, begun := false, failed := none })

/-- The reads already issued have completed: PAUSING ends (R672). -/
def floPausedNow (h : Half) (ch : Nat) (d : Dev) : Dev :=
  let c := d.chan h ch
  d.when (d.floState h ch == floPausing && c.quiet) fun d => d.setFlo h ch floPaused

/-- Every request of an aborting channel has ended (R673). -/
def floDrained (h : Half) (ch : Nat) (d : Dev) : Dev :=
  d.when (d.floState h ch == floAborting) (floToIdle h ch)

/-- The channels that a PF owns (R639). -/
def floChansOf (fn : Nat) : List Nat := if isPf fn then (List.range 8).map fun k => 96 + 8 * epOf fn + k else []

/-- The owner's Bus Master Enable went to 0, or it left D0 (R675). -/
def floBusStop (fn : Nat) (d : Dev) : Dev :=
  d.each (floChansOf fn) fun d ch => d.when ([floRun, floWait, floPausing, floPaused].contains (d.floState .host ch)) (floStop .host ch 2)

/-- The owner masters the bus again in D0 (R675). -/
def floBusStart (fn : Nat) (d : Dev) : Dev :=
  d.each (floChansOf fn) fun d ch =>
    let st := d.floState .host ch
    let d := d.putBit (FLO_CH_STATUS.PAUSE_SRC .host ch) 1 false
    if d.rd (FLO_CH_STATUS.PAUSE_SRC .host ch) ≠ 0 then d
    else if st = floPaused then floContinue .host ch d
    else if st = floPausing then floGoOn .host ch d
    else d

/-- The registers of a channel (R677). -/
def floChanFields (h : Half) (ch : Nat) : List Field :=
  [regFLO_CH_CFG h ch, regFLO_CH_CTRL h ch, regFLO_CH_STATUS h ch, regFLO_CH_VEC h ch, regFLO_CH_RING h ch,
    regFLO_CH_HEAD h ch, regFLO_CH_PC h ch, regFLO_CH_SRC h ch, regFLO_CH_DST h ch, regFLO_CH_REMAIN h ch,
    regFLO_CH_LOOP h ch, regFLO_CH_MOVED h ch, regFLO_CH_RETRIES h ch].flatMap (·.fields)

/-- A function-level reset of the owning PF (R676): its channels abort, its lines and events clear, its channel registers
return to their reset values. A channel that still has requests out stays ABORTING. -/
def floReset (fn : Nat) (d : Dev) : Dev :=
  let d := d.each (floChansOf fn) fun d ch =>
    let busy := !(d.chan .host ch).bursts.isEmpty || (d.chan .host ch).issued
    let d := floAbort .host ch d
    let d := d.each (floChanFields .host ch) fun d f => d.wr f f.reset
    if busy then d.setFlo .host ch floAborting else floToIdle .host ch d
  d.when (isPf fn) fun d => d.each ((List.range 8).map fun k => 8 * epOf fn + k) fun d l =>
    ((d.wr (FLO_REQ.COUNT .host l) 0).clr (FLO_REQ.OVF .host l)).putBit (FLO_EVENT.FLAGS .host) l false

/-! ### Register writes -/

/-- The events a path may set or clear, of a mask (R640, R665). -/
def floEventMask (p : Path) (v : Nat) : List Nat :=
  (List.range 64).filter fun k => bit v k && match p with
    | .pf e => decide (k < 32) && k / 8 == e
    | .i3c _ => true
    | .firmware h => !(h == .host && decide (k < 32))
    | _ => false

/-- A write of `size` bytes at byte `at0` of a register whose value is `old`. -/
def mergeBytes (old at0 size value : Nat) : Nat :=
  bits old 0 (8 * at0) + value % 2 ^ (8 * size) * 2 ^ (8 * at0) + (old >>> (8 * (at0 + size))) * 2 ^ (8 * (at0 + size))

/-- A value is allowed in a channel's configuration register: PRIO and CLASS as R667 bounds a PF's channels, DEPTH_M1 at
least 1 (R677, R680, R682). -/
def floCfgOk (h : Half) (ch off v : Nat) : Bool :=
  if off = 0 then (floOwner h ch).isNone || (decide (4 ≤ bits v 0 3) && (bits v 3 2 == 1 || bits v 3 2 == 2))
  else if off = 0x18 then bits v 16 12 != 0
  else true

/-- A write to FLO_CH_CFG, VEC, RING or HEAD (R677). -/
def floConfigWrite (h : Half) (ch off size value : Nat) (d : Dev) : Dev :=
  let base := if off = 0x14 then 0x10 else off
  if !((size = 4 ∧ (off = 0 ∨ off = 0xC ∨ off = 0x10 ∨ off = 0x14 ∨ off = 0x18)) ∨ (size = 8 ∧ off = 0x10)) then d
  else
    let v := if base = 0x10 then
        mergeBytes (d.rd (FLO_CH_RING.BASE h ch) * 4096) (off - base) size value
      else value % 2 ^ 32
    if d.floState h ch ≠ floIdle ∨ !floCfgOk h ch base v then d.set (FLO_CH_STATUS.CFG_REFUSED h ch)
    else if base = 0 then
      (((d.wr (FLO_CH_CFG.PRIO h ch) (bits v 0 3)).wr (FLO_CH_CFG.CLASS h ch) (bits v 3 2)).wr
        (FLO_CH_CFG.RETRY h ch) (bits v 5 3)).wr (FLO_CH_CFG.ERR_IRQ h ch) (bits v 8 1)
    else if base = 0xC then (d.wr (FLO_CH_VEC.DONE_VEC h ch) (bits v 0 11)).wr (FLO_CH_VEC.ERR_VEC h ch) (bits v 16 11)
    else if base = 0x10 then d.wr (FLO_CH_RING.BASE h ch) (v / 4096)
    else (d.wr (FLO_CH_HEAD.DEPTH_M1 h ch) (bits v 16 12)).wr (FLO_CH_HEAD.HEAD h ch) 0

/-- A channel command of FLO_CH_CTRL from a path: the half and channel it acts on. -/
def floCmd (p : Path) (ch : Nat) (f : Half → Nat → Dev → Dev) (d : Dev) : Dev :=
  match floHalf p with
  | some h => if floMayDrive p ch then f h ch d else d
  | none => d

/-! ### The commands -/

/-- KICK (R646). -/
def execKick (path : Path) (ch : Nat) (s : State) : Host.Outcome State Fault Refusal := s.ok (floCmd path ch floKick s.dev)

/-- PAUSE (R672). -/
def execPause (path : Path) (ch : Nat) (s : State) : Host.Outcome State Fault Refusal :=
  s.ok (floCmd path ch floPause s.dev)

/-- RESUME (R671, R672). -/
def execResume (path : Path) (ch : Nat) (s : State) : Host.Outcome State Fault Refusal :=
  s.ok (floCmd path ch floResume s.dev)

/-- ABORT (R673). -/
def execAbort (path : Path) (ch : Nat) (s : State) : Host.Outcome State Fault Refusal :=
  s.ok (floCmd path ch floAbort s.dev)

/-- CHANNEL_PAUSED (R672). -/
def execChannelPaused (half : Half) (ch : Nat) (s : State) : Host.Outcome State Fault Refusal :=
  s.ok (floPausedNow half ch s.dev)

/-- ABORT_DRAINED (R673). -/
def execAbortDrained (half : Half) (ch : Nat) (s : State) : Host.Outcome State Fault Refusal :=
  s.ok (floDrained half ch s.dev)

/-- DESCRIPTOR_READ (R646). -/
def execDescriptorRead (half : Half) (ch : Nat) (desc : Bytes) (s : State) : Host.Outcome State Fault Refusal :=
  s.ok (descArrived half ch desc s.dev)

/-- MOVE (R652): the instruction, or the data of a granted burst. -/
def execMove (half : Half) (ch : Nat) (arrived : MoveIn) (s : State) : Host.Outcome State Fault Refusal :=
  s.ok (match arrived with
    | .instr i => runInstr half ch 1 i (moveBegin half ch) s.dev
    | .data b => moveData half ch b s.dev)

/-- LOOP (R658). -/
def execLoop (half : Half) (ch : Nat) (instr : Bytes) (s : State) : Host.Outcome State Fault Refusal :=
  s.ok (runInstr half ch 2 instr (loopRun half ch) s.dev)

/-- WAIT (R659). -/
def execWait (half : Half) (ch : Nat) (instr : Bytes) (s : State) : Host.Outcome State Fault Refusal :=
  s.ok (runInstr half ch 3 instr (waitRun half ch) s.dev)

/-- SIGNAL (R660). -/
def execSignal (half : Half) (ch : Nat) (instr : Bytes) (s : State) : Host.Outcome State Fault Refusal :=
  s.ok (runInstr half ch 4 instr (signalRun half ch) s.dev)

/-- END (R661). -/
def execEndInstr (half : Half) (ch : Nat) (instr : Bytes) (s : State) : Host.Outcome State Fault Refusal :=
  s.ok (runInstr half ch 5 instr (endRun half ch) s.dev)

/-- FLOE_BURST_GRANT (R666). -/
def execFloeBurstGrant (half : Half) (s : State) : Host.Outcome State Fault Refusal := s.ok (burstGrant half s.dev)

/-- WRITE_RESPONSE (R647, R648). -/
def execWriteResponse (half : Half) (ch : Nat) (s : State) : Host.Outcome State Fault Refusal :=
  s.ok (
    let d := s.dev
    let on := d.floState half ch == floRun
    if !(d.chan half ch).issued ∨ d.floe.regWrites.any (fun w => w.1 == half) then d
    else match (d.chan half ch).await with
      | some .response => (d.modChan half ch fun c => { c with issued := false, unresponded := false }).when on (afterResponse half ch)
      | some .moved => (d.modChan half ch fun c => { c with issued := false }).when on (needReq half ch .dstat)
      | some .dstat => (d.modChan half ch fun c => { c with issued := false }).when on (descDone half ch)
      | _ => d)

/-- BUS_ERROR (R668). -/
def execBusError (half : Half) (ch : Nat) (s : State) : Host.Outcome State Fault Refusal := s.ok (busError half ch s.dev)

/-- WAIT_TIMEOUT (R659). -/
def execWaitTimeout (half : Half) (ch : Nat) (s : State) : Host.Outcome State Fault Refusal :=
  s.ok (
    let d := s.dev
    let c := d.chan half ch
    d.when (d.floState half ch == floWait && c.begun && getLe c.instr 0 1 == 3 && bit (getLe c.instr 1 1) 1)
      (floHaltInstr half ch 5))

/-- FLO_SWREQ written (R662, R678): a PF asserts only its own lines. -/
def floSwreq (p : Path) (value : Nat) (d : Dev) : Dev :=
  match p with
  | .pf e => d.when (bits value 0 5 / 8 == e) (assertLine .host (bits value 0 5))
  | .i3c h => assertLine h (bits value 0 5) d
  | .firmware .media => assertLine .media (bits value 0 5) d
  | _ => d

/-- FLO_EVENT_SET or FLO_EVENT_CLR written (R665). -/
def floEventWrite (p : Path) (on : Bool) (value : Nat) (d : Dev) : Dev :=
  match floHalf p with
  | some h => d.each (floEventMask p value) fun d k => if on then setEvent h k d else d.putBit (FLO_EVENT.FLAGS h) k false
  | none => d

/-- FLO_SWREQ. -/
def execFloSwreq (path : Path) (value : Nat) (s : State) : Host.Outcome State Fault Refusal := s.ok (floSwreq path value s.dev)

/-- FLO_EVENT_SET (R665). -/
def execFloEventSet (path : Path) (value : Nat) (s : State) : Host.Outcome State Fault Refusal :=
  s.ok (floEventWrite path true value s.dev)

/-- FLO_EVENT_CLR (R665). -/
def execFloEventClr (path : Path) (value : Nat) (s : State) : Host.Outcome State Fault Refusal :=
  s.ok (floEventWrite path false value s.dev)

/-- FLO_CH_CONFIG_WRITE (R677): `off` is the register's offset in the block of 0x0A1_0000. -/
def execFloChConfigWrite (path : Path) (off size value : Nat) (s : State) : Host.Outcome State Fault Refusal :=
  s.ok (floCmd path (off / 128) (fun h ch d => floConfigWrite h ch (off % 128) size value d) s.dev)

end Sys2Proof.Machine
end

