-- ==== Sys2Proof/Machine/Coord.lean ====
section
/-! DEFINITION. COORD messages (R508): what the twins tell each other beside records, in the layout this model gives their bodies. Operand 0 of
the body names what it is about. A command of the other twin is known by its queue number plus 2^32. -/

namespace Sys2Proof.Machine

/-- The drive with an NGUID becomes the drive of a member on this twin too (R610, R622): it is bound here by its own table entry. -/
def bindByNguid (p m nguid : Nat) (d : Dev) : Dev :=
  match d.drives.table.find? fun e => e.2.nguid == nguid && (e.2.state == 3 || (e.2.state == 4 && e.2.pool == p && e.2.member == m)) with
  | none => d
  | some (i, v) =>
    let d := modMember p m (fun y => { y with drive := some i }) d
    if v.state = 4 then d else syncRows p (reserve i v.keys (modDrive i (fun v => { v with state := 4, pool := p, member := m }) d))

/-- A pool's members and relocation entries as its home twin tells them (R365, R397, R434); a declaration there may withdraw activities here
(R435). -/
def poolTold (a : List Nat) (d : Dev) : Dev :=
  let p := a.getD 1 0
  let n := a.getD 6 0
  if d.isHome p then d
  else
    let relocs := (List.range n).map fun i =>
      let k := a.getD (8 + 2 * i) 0
      (⟨a.getD (7 + 2 * i) 0, if k = 0 then none else some (k - 1)⟩ : Reloc)
    let ms := (a.drop (7 + 2 * n)).zipIdx
    let upd (x : Pool) : Tab PoolMember := ms.filterMap fun e =>
      let st := e.1 % 256
      let cause := e.1 / 256 % 256
      match tget x.members e.2 with
      | some y => some (e.2, { y with
          state := st, cause := cause, drive := if st = 4 then none else y.drive, former := if y.state = st then y.former else y.state })
      | none => if e.1 = 0 then none else some (e.2, PoolMember.make st cause)
    let declared := ms.any fun e => e.1 % 256 == 4 && ((tget d.pools p).map fun x => x.mstate e.2) != some 4
    let d := if (tget d.pools p).any (fun x => x.geometry == a.getD 2 0) then d else definePool p (a.getD 2 0) d
    let d := remap p (fun _ _ => false) (fun x => { x with
      rows := a.getD 3 0, mark := (a.getD 4 7, a.getD 5 0), relocs := relocs, members := upd x }) d
    let d := d.when declared (withdraw 1 p)
    d.each (ms.filter fun e => decide (2 ^ 16 ≤ e.1) && e.1 % 256 != 4) fun d e => bindByNguid p e.2 (e.1 / 2 ^ 16) d

/-- A resolve that the other twin received reaches the home twin of the stripe's pool (R385, R386). -/
def resolveAsked (stripe word q tag : Nat) (d : Dev) : Dev :=
  let busy := d.stripeBusy stripe
  let op : ServiceOp := ⟨0xC2, stripePool stripe, stripe, b2n busy, q, tag, word, 0⟩
  let d := { d with maint := { d.maint with ops := d.maint.ops ++ [op] } }
  if busy then d
  else if !d.inDivLog stripe then answer q tag stNotDivergent 0 d
  else resolveStripe (word % 4) stripe (word / 4) q tag d

/-- A DRIVE_SERVICE operation that the other twin received reaches the home twin of the member's pool (R440). -/
def serviceAsked (a : List Nat) (data : Bytes) (d : Dev) : Dev :=
  let g (i : Nat) : Nat := a.getD i 0
  let q := g 7 + 2 ^ 32
  match d.activity (g 3), d.drives.table.find? fun e => e.2.nguid == g 4 with
  | some x, some (i, _) => serviceNow ⟨g 2, x, i, g 5, none, g 6 == 1, data⟩ q (g 8) d
  | none, _ => finish q (g 8) stMaintUnknown 0 d
  | some _, none => finish q (g 8) stInvalidField 0 d

/-- The blocks of a COMPARE_AND_WRITE of the other twin are held, or cannot be held yet (R85). -/
def lockAsked (q tag nsid slba nlb : Nat) (d : Dev) : Dev :=
  let good := d.mayCompare (((d.nsAny nsid).map (·.pool)).getD 0) nsid slba nlb
  let d := d.when good fun d => d.modFirn fun f => { f with locks := f.locks ++ [(q + 2 ^ 32, tag, nsid, slba, nlb)] }
  snowSend .coord 1 ⟨0xFF, 0, 0, 0, [5, q, tag, b2n good], []⟩ d

/-- The home twin's answer: the compare starts, or is asked for again. -/
def lockAnswered (q tag : Nat) (good : Bool) (d : Dev) : Dev :=
  if (d.ctx q tag).any fun c => c.kind == .compareWrite && c.status == 4 then
    if good then readBlocks q tag (d.modCtx q tag fun c => { c with status := 3 })
    else d.modCtx q tag fun c => { c with status := 0 }
  else if good then snowSend .coord 1 ⟨0xFF, 0, 0, 0, [6, q, tag], []⟩ d
  else d

/-- An activity of the ledger as the other twin changed it (R434). -/
def activityTold (a : Activity) (d : Dev) : Dev :=
  let new := !(d.maint.acts.any fun x => x.id == a.id)
  let d := modActs (fun l => if l.any (·.id == a.id) then l.map fun x => if x.id = a.id then a else x else l ++ [a]) d
  if new && a.active then onAdmit a d else d

/-- The other twin's part of a command ended: a forwarded command is answered, and a list that both twins write is over here (R618, R624). -/
def otherDone (q tag st result : Nat) (d : Dev) : Dev :=
  let mine (o : ServiceOp) : Bool := o.op == 0x22 && o.q == q && o.tag == tag && o.step == 1
  if d.maint.ops.any mine then
    listOver { d with maint := { d.maint with ops := d.maint.ops.map fun o => if mine o then { o with step := 0 } else o } }
  else answered q tag st result d

/-- What a COORD message does. Its operands: 1 a request for the ledger, 2 and 3 an activity that stands or ended, 4 to 6 the blocks of a compare,
7 a pool's members, 8 a strip written, 9 a divergent record, 10 a forwarded command, 11 an answer, 12 a release, 13 a register written on
both twins, 14 a pool defined, 15 the link-key check, 16 the dumps a gauge reports, 17 the enumeration window, 18 a witness, 19 to 21 a swap,
23 the snapshots a stream holds, 24 a witness block written, 25 the reads of a former snapshot served. -/
def coordNow (m : Msg) (mirror : Nat → Nat → Dev → Dev) (d : Dev) : Dev :=
  let a (i : Nat) : Nat := m.args.getD i 0
  let act : Activity := ⟨m.ref, a 1, a 2, a 3, a 4, a 5, a 6, a 7 == 1, a 8⟩
  let other := 2 ^ 32
  match a 0 with
  | 1 => if d.holdsLedger then ledgerRequest ⟨a 1, a 2, a 3, a 4, a 5, a 6⟩ (a 7 + other) (a 8) d else d
  | 2 => activityTold act d
  | 3 =>
    let d := modActs (fun l => l.filter fun x => x.id != act.id) d
    if a 9 = 1 then releaseEffect act (a 10 == 1) d else d
  | 4 => lockAsked (a 1) (a 2) (a 3) (a 4) (a 5) d
  | 5 => lockAnswered (a 1) (a 2) (a 3 == 1) d
  | 6 => unlock (a 1 + other) (a 2) d
  | 7 => poolTold m.args d
  | 8 =>
    let d := stripPresent (a 1) (a 2) d
    d.when (d.lostOrds (a 1)).isEmpty (unloseStripe (a 1))
  | 9 => ((d.slotOf (a 1) (a 2)).map fun s => divergeRec s d).getD d
  | 10 => if a 1 = 0xC2 then resolveAsked (a 2) (a 3) (a 4 + other) (a 5) d else serviceAsked m.args m.data d
  | 11 => otherDone (a 1) (a 2) (a 3) (a 4) d
  | 12 => ledgerRelease (a 1) (a 2 == 1) (a 3 + other) (a 4) d
  | 13 => mirror (a 1) (a 2) d
  | 14 => definePool (a 1) (a 2) d
  | 15 => linkCheck (a 1) (a 2) (a 3) d
  | 16 => withdrawPair (d.modTwin fun t => { t with partner := { t.partner with dumps := a 1 } })
  | 17 => windowNow (a 1) (a 2 + other) (a 3) 0 d
  | 18 => if a 3 = 0 then setWitness (a 1) (a 2) d else designate (a 1) (a 2) (a 3 - 1 + other) (a 4) d
  | 19 => coordinateSwap (a 1) (a 2) (some (a 3 + other, a 4)) d
  | 20 => beginSwap (a 1) (a 2) none d
  | 21 => swapDone d
  | 24 => rereadWitness (a 1) d
  | 25 => d.modTwin fun t => { t with readsTold := if t.readsTold.contains (a 1, a 2) then t.readsTold else t.readsTold ++ [(a 1, a 2)] }
  | 23 => d.modTwin fun t => { t with pins := if a 1 = 1 then tput t.pins (a 2) (a 3, a 4, a 5, a 6) else tdel t.pins (a 2) }
  | _ => d

end Sys2Proof.Machine
end

