-- ==== Sys2Proof/Machine/Reset.lean ====
section
/-! DEFINITION. The reset and deletion of queue pairs (R97 to R100), and the admin queues of functions (R58, R785). -/

namespace Sys2Proof.Machine

/-! ### Commands that a queue reset meets (R97) -/

/-- The command reached the Firn cache: a record carries it, its record has committed, or it is the GROUP_SEAL of a group whose COMMIT
record has its COMMIT_SEQ. DEDUCED: an admin command whose work goes on, such as a drive service, is counted among these and ends without
its completion, since what it has done cannot be undone. -/
def Dev.reached (d : Dev) (q : Nat) (c : Cmd) : Bool :=
  let op := pktOp c.pkt
  let fn := ((d.queue q).map (·.fn)).getD 0
  (d.recOf q c.tag).isSome || (c.took && (writeOps ++ [0x48, 0x49, 0x4A, 0x52, 0x8B]).contains op) ||
    (op == 0x41 && (d.liveGroup fn (pktGos c.pkt)).any d.commitAssigned) ||
    (decide (0x80 ≤ op) && (c.stage == .crossed || c.stage == .hostWork) && (d.ctx q c.tag).isNone)

/-- What the media half holds of a dropped command goes: its range lock, its waiting record and its stripe reads. -/
def dropOnMedia (q tag : Nat) (d : Dev) : Dev :=
  let mine (r : FRec) : Bool := r.origin == .host && r.cmds.any fun c => c.q == q && c.tag == tag
  let d := (unlock q tag d).modFirn fun x => { x with waiting := x.waiting.filter fun r => !mine r }
  dropFreed { d with reads := d.reads.filter fun r => match r.purpose with
    | .cmd q' t _ => !(q' == q && t == tag)
    | _ => true }

/-- A fetched command is dropped (R97 item 2): it has no effect, and its group and its stream see it as failed. Where the media half still
holds it, it leaves with the completion that the media half sends. -/
def dropCmd (q : Nat) (d : Dev) (c : Cmd) : Dev :=
  let fn := ((d.queue q).map (·.fn)).getD 0
  let d := noteApply q c.tag stInternal c (noteMember fn q c.tag stGroupDiscarded c d)
  if (c.stage == .crossed || c.sent) && d.is (SCH_STATUS.UP .media) then
    endCrossed q c.tag stSuccess (dropOnMedia q c.tag (d.modCmd q c.tag fun x => { x with stage := .orphan }))
  else (d.modQ q fun x => { x with cmds := x.cmds.filter fun y => y.order != c.order }).dropCtx q c.tag

/-! ### The reset -/

/-- The function's held results of a queue go (R97 item 5). -/
def dropHeld (q : Nat) (f : Fn) : Fn :=
  { f with hold := f.hold.filter fun i => match i with
    | .cqe x _ => x != q
    | .data x _ _ _ _ => x != q
    | .event _ => true }

/-- A queue reset begins (R97): nothing more is fetched, commands are dropped or left to take effect, the queue's groups are discarded,
held completions go, and both rings return to the start. A member of a group that another queue opened goes on and posts nothing
(R323). `ask` is the command that asked, with its queue and tag. -/
def beginReset (q : Nat) (ask : Option (Nat × Nat)) (delete : Bool) (d : Dev) : Dev :=
  match d.queue q with
  | none => d
  | some qu =>
    let mine (c : Cmd) : Bool := ask == some (q, c.tag)
    let cmds := qu.cmds.filter fun c => !mine c && c.stage != .orphan && !c.silent
    let other (c : Cmd) : Bool := pktMember c.pkt && (d.liveGroup qu.fn (pktGos c.pkt)).any fun g => g.q != q
    let took := cmds.filter fun c => d.reached q c || other c
    let gone := cmds.filter fun c => !(d.reached q c || other c)
    let mark (c : Cmd) : Cmd :=
      if !took.any (·.order == c.order) then c else if d.reached q c then { c with stage := .orphan } else { c with silent := true }
    let d := d.modQ q fun x => { x with
      cmds := x.cmds.map mark
      held := [], block := none, fetches := 0, sqTail := 0, sqHead := 0, cqTail := 0, cqHead := 0, phase := true, unsig := 0
      reset := some ⟨(ask.map (·.1)).getD 0, (ask.map (·.2)).getD 0, delete, took.length, gone.length, ask.isNone, false⟩ }
    let lost := qu.held.filterMap (·.frees) ++ (d.fn qu.fn).hold.filterMap fun i => match i with
      | .cqe x e => if x = q then e.frees else none
      | _ => none
    let d := ((d.modRings fun r => { r with fetches := r.fetches.filter fun f => fetchQueue f.2 != q }).modFn qu.fn (dropHeld q)).each lost
      fun d x => d.endReset (some x)
    closeStreams (fun s => s.q == q) (discardQueueGroups q (d.each gone fun d c => dropCmd q d c))

/-- QUEUE_RESET and QUEUE_DELETE (R97, R100). While a reset of the same queue pair runs, the command waits. DEDUCED: a queue pair that the
function does not hold or that is not created is refused with the status that R88 names for it. -/
def runReset (ops : List Nat) (delete : Bool) (q tag : Nat) (d : Dev) : Dev :=
  runCmd ops q tag (fun qu c d =>
    let t := pktField c.pkt 56 4
    if !d.holdsQueue qu.fn t then failCmd q tag stQueueNotHeld d
    else if delete && d.adminQueue qu.fn == some t then failCmd q tag stNotPermitted d
    else match d.queue t with
      | none => failCmd q tag stQueueAbsent d
      | some x =>
        if x.reset.isSome then d
        else beginReset t (some (q, tag)) delete (d.modCmd q tag fun c => { c with stage := .hostWork })) d

/-- QUEUE_RESET begins (R97). -/
def execQueueReset (q tag : Nat) (s : State) : Host.Outcome State Fault Refusal := s.ok (runReset [0x88] false q tag s.dev)

/-- QUEUE_DELETE begins (R100). -/
def execQueueDelete (q tag : Nat) (s : State) : Host.Outcome State Fault Refusal := s.ok (runReset [0x87] true q tag s.dev)

/-! ### Admin queues (R785) -/

/-- The admin queue of a function from its registers. -/
def adminMake (fn : Nat) (d : Dev) : Queue :=
  Queue.make fn (d.rd (RNG_AQ_CFG.DEPTH_M1 fn) + 1) 1 false true (d.rd (RNG_AQ_CFG.VECTOR fn)) 0 0
    (d.rd (RNG_AQ_SQBASE.BASE fn) * 4096) (d.rd (RNG_AQ_CQBASE.BASE fn) * 4096) true

/-- The admin queue pair that a function has created. -/
def Dev.adminOf (d : Dev) (fn : Nat) : Option Nat := (d.rings.queues.find? fun e => e.2.fn == fn && e.2.admin).map (·.1)

/-- A write of RNG_AQ_CFG (R785). ENABLE written 1 while the reset of the former admin queue still runs takes effect when that reset
ends. -/
def aqCfgWrite (fn value : Nat) (d : Dev) : Dev :=
  let on := bit value 28
  if !d.is (RNG_AQ_CFG.ENABLE fn) then
    let d := (d.wr (RNG_AQ_CFG.DEPTH_M1 fn) (bits value 0 12)).wr (RNG_AQ_CFG.VECTOR fn) (bits value 16 11)
    if !on then d
    else match d.adminQueue fn with
      | none => d.set (RNG_AQ_CFG.ERROR fn)
      | some q =>
        if bits value 0 12 = 0 ∨ !vectorOk fn (bits value 16 11) then d.set (RNG_AQ_CFG.ERROR fn)
        else
          let d := (d.clr (RNG_AQ_CFG.ERROR fn)).set (RNG_AQ_CFG.ENABLE fn)
          if (d.adminOf fn).isSome then d else d.addQueue q (adminMake fn d)
  else if on then d
  else
    let d := d.clr (RNG_AQ_CFG.ENABLE fn)
    match d.adminOf fn with
    | none => (d.clr (RNG_AQ_CFG.READY fn)).clr (RNG_AQ_CFG.ERROR fn)
    | some q => if (d.queue q).any (·.reset.isSome) then d else beginReset q none true d

/-- RNG_AQ_CFG_WRITE (R784, R785). -/
def execRngAqCfgWrite (fn value : Nat) (s : State) : Host.Outcome State Fault Refusal :=
  s.ok (if s.dev.decodes fn then aqCfgWrite fn value s.dev else s.dev)

/-- ADMIN_QUEUE_READY (R785): the admin queue accepts doorbells. -/
def execAdminQueueReady (fn : Nat) (s : State) : Host.Outcome State Fault Refusal :=
  s.ok <|
    let d := s.dev
    if d.is (RNG_AQ_CFG.ENABLE fn) && (d.adminOf fn).any (fun q => (d.queue q).any (·.reset.isNone)) then
      (d.set (RNG_AQ_CFG.READY fn)).clr (RNG_AQ_CFG.ERROR fn)
    else d

/-- A queue reset ends (R99, R100): every command that took effect is on the medium. RESULT counts them and those dropped. The queue pair
works again once the completion is posted; a held one leaves it in reset until then. -/
def resetDone (q : Nat) (d : Dev) : Dev :=
  match d.queue q with
  | none => d
  | some qu =>
    match qu.reset with
    | none => d
    | some r =>
      if r.done || qu.cmds.any fun c => r.byFlr || !(r.adminQ == q && r.tag == c.tag) then d
      else
        let d := if r.delete then d.modRings fun x => { x with queues := tdel x.queues q }
          else d.modQ q fun x => { x with reset := some { r with done := true } }
        if !r.byFlr then completeFreeing (some q) r.adminQ r.tag stSuccess (r.took + 2 ^ 32 * r.dropped) d
        else if !qu.admin then d
        else
          let d := (d.clr (RNG_AQ_CFG.READY qu.fn)).clr (RNG_AQ_CFG.ERROR qu.fn)
          match d.is (RNG_AQ_CFG.ENABLE qu.fn), d.adminQueue qu.fn with
          | true, some n => d.addQueue n (adminMake qu.fn d)
          | _, _ => d

/-- QUEUE_RESET_DONE (R99). -/
def execQueueResetDone (q : Nat) (s : State) : Host.Outcome State Fault Refusal := s.ok (settle (resetDone q s.dev))

end Sys2Proof.Machine
end

