-- ==== Sys2Proof/Machine/Packet.lean ====
section
/-! DEFINITION. A fetched packet (R69 to R93): checks 1 to 7 of R89, in order, and what its fetch brings about at once. -/

namespace Sys2Proof.Machine

/-! ### Check 1: opcode, queue kind and function (R83, R84) -/

/-- The I/O opcodes of R83. -/
def ioOpcodes : List Nat := [0, 1, 2, 3, 4, 5, 6, 7, 8, 0x40, 0x41, 0x42, 0x43, 0x48, 0x49, 0x4A, 0x50, 0x51, 0x52, 0x53, 0x54]

/-- The admin opcodes of R83. -/
def adminOpcodes : List Nat :=
  [0x80, 0x81, 0x82, 0x83, 0x84, 0x85, 0x86, 0x87, 0x88, 0x89, 0x8A, 0x8B, 0x8C, 0x8D, 0xC0, 0xC1, 0xC2, 0xC3, 0xC4, 0xC5, 0xE0, 0xE1]

/-- The opcodes that only a PF may issue. -/
def pfOpcodes : List Nat := [0x84, 0x85, 0x8B, 0x8D, 0xC0, 0xC1, 0xC2, 0xC3, 0xC4, 0xC5, 0xE0, 0xE1]

/-- The function may set the feature (R87, R348, R618, R624, R752). -/
def maySet (fn fid : Nat) : Bool :=
  if fid = 2 then isPf fn else if fid = 1 ∨ fid = 0x20 ∨ fid = 0x21 ∨ fid = 0x22 ∨ fid = 0x30 then fn == 0 else true

/-- The function may read the feature. DEDUCED: the features of the media half are read by a PF, as its registers are (R750). -/
def mayGet (fn fid : Nat) : Bool := decide (fid < 0x20) || isPf fn

/-- The function may read the log page (R750). -/
def mayLog (fn lid nsid : Nat) (d : Dev) : Bool :=
  if lid = 3 then true
  else if lid = 8 then (d.ns nsid).any fun n => n.attached.contains fn
  else decide (1 ≤ lid) && decide (lid ≤ 10) && isPf fn

/-- Check 1 of R89. -/
def check1 (qu : Queue) (p : BitVec 512) (d : Dev) : Nat :=
  let op := pktOp p
  let sel := pktField p 48 1
  if !ioOpcodes.contains op && !adminOpcodes.contains op then stInvalidOpcode
  else if qu.admin != adminOpcodes.contains op || (pfOpcodes.contains op && !isPf qu.fn) then stNotPermitted
  else if (op == 0x83 && !maySet qu.fn sel) || (op == 0x82 && !mayGet qu.fn sel) || (op == 0x81 && !mayLog qu.fn sel (pktNsid p) d) then
    stNotPermitted
  else stSuccess

/-! ### Check 2: fields (R6, R70 to R78) -/

/-- Bits of a packet: `n` bytes from byte `off` on, as a mask. -/
def byteMask (off n : Nat) : Nat := (2 ^ (8 * n) - 1) * 2 ^ (8 * off)

/-- `w` bits from bit `lsb` of byte `off` on, as a mask. -/
def bitMask (off lsb w : Nat) : Nat := (2 ^ w - 1) * 2 ^ (8 * off + lsb)

/-- The masks of NSID, GROUP_OR_SNAP, SLBA, NLB and the data pointer (R70). -/
def mNsid : Nat := byteMask 4 4
def mGos : Nat := byteMask 8 8
def mSlba : Nat := byteMask 16 8
def mNlb : Nat := byteMask 24 4
def mDptr : Nat := byteMask 32 13

/-- The opcodes that may carry MEMBER (R314). -/
def memberOpcodes : List Nat := [1, 3, 4, 8, 0x48, 0x49, 0x4A]

/-- The value field of a feature in a FEATURE_SET (R87, R348, R618, R624, R752); none for a feature ID that has none. -/
def featureMask (fid : Nat) : Option Nat :=
  match fid with
  | 1 => some (byteMask 56 3)
  | 2 => some (byteMask 52 2 + byteMask 56 1)
  | 3 => some (bitMask 56 0 1)
  | 0x20 => some (byteMask 49 1 + byteMask 56 8)
  | 0x21 => some (byteMask 49 1 + byteMask 56 4)
  | 0x22 => some (byteMask 56 4)
  | 0x30 => some (byteMask 49 1 + byteMask 52 12)
  | _ => none

/-- The selector fields of a feature in a FEATURE_GET. -/
def featureGetMask (fid : Nat) : Option Nat :=
  match fid with
  | 1 | 3 | 0x22 => some 0
  | 2 => some (byteMask 52 2)
  | 0x20 | 0x21 => some (byteMask 49 1)
  | 0x30 => some (byteMask 49 1 + byteMask 52 4)
  | _ => none

/-- The fields of an NS_MANAGE operation (R455). -/
def nsMask (op : Nat) : Option Nat :=
  match op with
  | 1 => some (byteMask 49 2 + bitMask 51 0 2 + byteMask 52 12)
  | 2 => some mNsid
  | 3 | 4 => some (mNsid + bitMask 52 0 10)
  | 5 => some (mNsid + byteMask 52 4)
  | 6 => some (mNsid + byteMask 56 8)
  | 7 => some (mNsid + bitMask 51 0 2)
  | _ => none

/-- The fields an opcode uses beside OPCODE, FLAGS and TAG; none where a selector of the opcode has a value that is not allowed. Every other
bit of the packet is reserved for it. -/
def fieldMask (p : BitVec 512) : Option Nat :=
  let op := pktOp p
  let sel := pktField p 48 1
  let opts := bitMask 28 0 4
  let memGos := if pktMember p then mGos else 0
  let io := mNsid + mSlba + mNlb + opts
  match op with
  | 0x00 => some opts
  | 0x01 => some (io + memGos + mDptr)
  | 0x02 | 0x05 | 0x07 => some (io + mGos + mDptr)
  | 0x03 | 0x04 => some (io + memGos)
  | 0x06 => some (io + mDptr)
  | 0x08 => some (io + memGos + byteMask 48 16)
  | 0x40 => some (mNsid + mGos)
  | 0x41 | 0x42 | 0x43 => some mGos
  | 0x48 => some (mNsid + byteMask 48 8 + memGos)
  | 0x49 | 0x4A => some (mNsid + mGos + (if pktMember p then byteMask 56 8 else 0))
  | 0x50 =>
    if bit (pktOpts p) 0 then some (mNsid + mNlb + bitMask 28 0 1 + byteMask 48 6)
    else some (mNsid + mGos + mSlba + mNlb + bitMask 28 0 2 + bitMask 28 16 11 + byteMask 32 12 + byteMask 48 6 + byteMask 56 4 +
      bitMask 60 0 20)
  | 0x51 => some (byteMask 48 4)
  | 0x52 => some (mNsid + byteMask 48 4 + mDptr)
  | 0x53 | 0x54 => some (byteMask 32 12 + byteMask 48 4 + bitMask 52 0 1)
  | 0x80 => if 2 < sel then none else some ((if sel = 1 then mNsid else 0) + mDptr + byteMask 48 1)
  | 0x81 => some ((if sel = 8 then mNsid else 0) + mDptr + byteMask 48 1 + (if 4 ≤ sel ∧ sel ≤ 7 then byteMask 49 1 else 0) +
      byteMask 56 8)
  | 0x82 => (featureGetMask sel).map (· + byteMask 48 1)
  | 0x83 => (featureMask sel).map (· + byteMask 48 1)
  | 0x84 => some (mDptr + byteMask 48 4 + bitMask 52 0 1)
  | 0x85 => if 2 < sel then none else some (byteMask 48 1)
  | 0x86 => some (bitMask 28 0 11 + bitMask 28 16 16 + byteMask 32 12 + byteMask 48 14 + bitMask 62 0 4)
  | 0x87 | 0x88 => some (byteMask 56 4)
  | 0x89 => some (byteMask 32 12 + byteMask 48 3)
  | 0x8A => some (byteMask 48 2)
  | 0x8B => (nsMask sel).map (· + byteMask 48 1)
  | 0x8C => some (bitMask 28 0 11 + byteMask 32 8 + byteMask 60 2)
  | 0x8D => some (byteMask 48 8)
  | 0xC0 => some (byteMask 48 5 + byteMask 56 4)
  | 0xC1 => some (byteMask 48 2)
  | 0xC2 => some (bitMask 28 0 2 + byteMask 48 16)
  | 0xC3 =>
    let arg := match pktField p 50 1 with
      | 1 | 2 => 0
      | 3 => bitMask 56 0 1
      | 4 => byteMask 56 4 + mDptr
      | 5 => bitMask 56 0 3
      | _ => byteMask 56 8
    some (byteMask 48 3 + byteMask 52 4 + arg)
  | 0xC4 => some (byteMask 48 2)
  | 0xC5 => some (bitMask 28 0 1)
  | 0xE0 => some (byteMask 48 2)
  | 0xE1 => some (byteMask 52 10)
  | _ => none

/-- The opcodes whose data pointer may name a gather list. -/
def dptrOpcodes : List Nat := [1, 2, 5, 6, 7, 0x52, 0x80, 0x81, 0x84]

/-- The opcode and its operation move data over the data pointer. -/
def usesDptr (p : BitVec 512) : Bool := dptrOpcodes.contains (pktOp p) || (pktOp p == 0xC3 && pktField p 50 1 == 4)

/-- The wrapped blob of a key type (R199, R201); none for a type that does not exist. -/
def blobLen (type : Nat) : Option Nat :=
  if type = 1 then some 80 else if type = 2 ∨ type = 3 ∨ type = 4 ∨ type = 15 then some 48 else none

/-- Values that a field may not hold, beside reserved bits (R72, R74, R94, R95, R123, R214, R313, R314, R201, R455, R541). -/
def badValue (qu : Queue) (p : BitVec 512) : Bool :=
  let op := pktOp p
  pktCls p != qu.cls ||
    (pktMember p && !memberOpcodes.contains op) ||
    (decide (1 ≤ op) && decide (op ≤ 8) && pktNlb p == 0) ||
    (usesDptr p && decide (1 < pktType p)) ||
    ([0x40, 0x41, 0x42, 0x43].contains op && pktGos p == 0) ||
    ((op == 0x53 || op == 0x54) && pktLen p != (if pktField p 52 1 = 0 then 64 else 72)) ||
    (op == 0x86 && (bits (pktField p 62 1) 0 2 == 3 || (bit (pktField p 62 1) 2 && bits (pktField p 62 1) 0 2 != 0))) ||
    (op == 0x89 && blobLen (pktField p 50 1) != some (pktLen p)) ||
    (op == 0x84 && pktField p 48 4 % 4096 != 0) ||
    (op == 0x81 && decide (4 ≤ pktField p 48 1) && decide (pktField p 48 1 ≤ 7) && decide (7 < pktField p 49 1))

/-- Check 2 of R89. -/
def check2 (qu : Queue) (p : BitVec 512) : Nat :=
  let flags := bitMask 1 0 5
  match fieldMask p with
  | none => stInvalidField
  | some m =>
    if p.toNat &&& (byteMask 0 1 + flags + byteMask 2 2 + m) ≠ p.toNat then stInvalidField
    else if badValue qu p then stInvalidField
    else stSuccess

/-! ### Checks 4 and 5: namespace, range and size (R74, R75, R85, R123, R468) -/

/-- The namespaces as a command sees them that is fetched now: changes that have committed and are still to be applied were completed to the
host, so they hold for it. -/
def Dev.ahead (d : Dev) (nsid : Nat) : Dev :=
  if !d.nsAwaits nsid then d
  else d.each ((d.firn.recs.filter fun e => d.awaitsApply e.2).map fun e => e.2.mapDelta.filter fun x => x.varveNs == some nsid)
    fun d l => d.each l fun d x => applyDelta 0 0 d x

/-- The opcodes that name a namespace that must be attached (R84); NS_MANAGE names any (R455). -/
def usesNs (p : BitVec 512) : Bool :=
  [1, 2, 3, 4, 5, 6, 7, 8, 0x40, 0x48, 0x49, 0x4A, 0x50, 0x52].contains (pktOp p) || (pktOp p == 0x80 && pktField p 48 1 == 1)

/-- Check 4 of R89, for every namespace that the command names: the source of a COPY is one of them (R84, R123, R474). -/
def check4 (qu : Queue) (p : BitVec 512) (d : Dev) : Nat :=
  let named := (nsNamed p).map d.ns
  if !usesNs p then stSuccess
  else if named.any fun n => !n.any (·.attached.contains qu.fn) then stInvalidNamespace
  else if qu.cls = 0 ∧ named.any (·.any fun n => packMode n.pack == 2) then stNotPermitted
  else stSuccess

/-- Check 5 of R89. The blocks of a snapshot are those it had when it was taken. -/
def check5 (p : BitVec 512) (d : Dev) : Nat :=
  let op := pktOp p
  if op = 0 ∨ 8 < op then stSuccess
  else match d.ns (pktNsid p) with
    | none => stInvalidNamespace
    | some n =>
      let snap := if [2, 5, 7].contains op then n.visibleSnap (pktGos p) else none
      let size := (snap.map (·.size)).getD n.size
      let bytes := pktNlb p * n.blockSize
      if size < pktSlba p + pktNlb p then stLbaOutOfRange
      else if [1, 2, 5, 7].contains op ∧ 16777216 < bytes then stTransferTooLarge
      else if op = 6 ∧ 65536 < bytes then stTransferTooLarge
      else if op = 8 ∧ 65536 < pktNlb p then stTransferTooLarge
      else stSuccess

/-! ### Check 6: data pointer and gather list (R75 to R77) -/

/-- The entries of one list: data segments, and the next list where its last entry names one. -/
def parseList : List Bytes → Option (List (Nat × Nat) × Option (Nat × Nat))
  | [] => some ([], none)
  | e :: t =>
    let addr := getLe e 0 8
    let len := getLe e 8 4
    if getLe e 12 3 ≠ 0 then none
    else if getLe e 15 1 = 0 then
      if addr % 4 ≠ 0 ∨ len = 0 ∨ len % 4 ≠ 0 then none
      else (parseList t).map fun r => ((addr, len) :: r.1, r.2)
    else if getLe e 15 1 = 1 ∧ t = [] then some ([], some (addr, len))
    else none

/-- The segments of a gather list of at most `n` lists, the first at `addr` with `len` bytes; `lists` brings each list as it was read (none:
the read failed). The answer is the segments or a status. -/
def gather : Nat → Nat → Nat → List (Option Bytes) → List (Nat × Nat) ⊕ Nat
  | 0, _, _, _ => .inr stDataPointer
  | n + 1, addr, len, lists =>
    if addr % 16 ≠ 0 ∨ len = 0 ∨ len % 16 ≠ 0 ∨ 4096 < len then .inr stDataPointer
    else match lists with
      | some b :: rest =>
        match parseList ((List.range (len / 16)).map fun i => getBytes (padTo len b) (16 * i) 16) with
        | none => .inr stDataPointer
        | some (segs, none) => .inl segs
        | some (segs, some (a, l)) =>
          match gather n a l rest with
          | .inl more => .inl (segs ++ more)
          | .inr st => .inr st
      | _ => .inr stHostMemory

/-- The reads of gather lists that `gather` needs: address and length of each. -/
def gatherReads : Nat → Nat → Nat → List (Option Bytes) → List (Nat × Nat)
  | 0, _, _, _ => []
  | n + 1, addr, len, lists =>
    if addr % 16 ≠ 0 ∨ len = 0 ∨ len % 16 ≠ 0 ∨ 4096 < len then []
    else (addr, len) :: match lists with
      | some b :: rest =>
        match parseList ((List.range (len / 16)).map fun i => getBytes (padTo len b) (16 * i) 16) with
        | some (_, some (a, l)) => gatherReads n a l rest
        | _ => []
      | _ => []

/-- The data length that a command must have (R75); none where its opcode sets only limits. -/
def exactLen (p : BitVec 512) (d : Dev) : Option Nat :=
  let bytes := pktNlb p * (((d.ns (pktNsid p)).map Ns.blockSize).getD 4096)
  match pktOp p with
  | 1 | 2 | 5 | 7 => some bytes
  | 6 => some (2 * bytes)
  | 0x80 => some 4096
  | _ => none

/-- The data length is within the limits of its opcode (R442, R487, R541, R749). -/
def lenOk (p : BitVec 512) (len : Nat) : Bool :=
  match pktOp p with
  | 0x52 => decide (80 ≤ len) && decide (len ≤ 16777216 + 80)
  | 0x81 => len % 16 == 0 && decide (len ≤ 1048576)
  | 0x84 => len % 4096 == 0 && decide (len ≤ 4194304)
  | 0xC3 => decide (len ≤ 4194304)
  | _ => true

/-- Check 6 of R89: the segments of the data buffer, or a status. DEDUCED: a buffer of an admin command or of CALVE_APPLY whose length breaks
its own rule completes with 01h/02h (R208 for an apply), or with 01h/06h where an admin command's gather list gives the length. -/
def check6 (p : BitVec 512) (lists : List (Option Bytes)) (d : Dev) : List (Nat × Nat) ⊕ Nat :=
  let addrOk := pktAddr p % 4 == 0
  if !usesDptr p then
    if [0x53, 0x54, 0x89].contains (pktOp p) then (if addrOk then .inl [(pktAddr p, pktLen p)] else .inr stDataPointer) else .inl []
  else if pktType p = 0 then
    if !addrOk then .inr stDataPointer
    else match exactLen p d with
      | some n => if pktLen p = n then .inl [(pktAddr p, n)] else .inr (if pktOp p < 0x40 then stDataPointer else stInvalidField)
      | none => if lenOk p (pktLen p) then .inl [(pktAddr p, pktLen p)] else .inr stInvalidField
  else match gather 32 (pktAddr p) (pktLen p) lists with
    | .inr st => .inr st
    | .inl segs =>
      let n := segs.foldl (fun n s => n + s.2) 0
      if (exactLen p d).all (· == n) && lenOk p n then .inl segs else .inr (if pktOp p = 0x52 then stInvalidField else stDataPointer)

/-! ### Check 7: group and key slot state (R130, R197, R229, R233, R313 to R317) -/

/-- The key slots that a command's cipher work uses: the data key of its namespace's key owner (R197), the dedup key where a write is
fingerprinted (R129), and the slot of its stream. -/
def keysOf (p : BitVec 512) (d : Dev) : List Nat :=
  let op := pktOp p
  if 0x80 ≤ op then (if op = 0x89 ∨ op = 0x8A then [pktField p 48 2] else [])
  else
    let ns := match d.ns (pktNsid p) with
      | none => []
      | some n =>
        [2 * n.tenant] ++ (if packDedup n.pack && [1, 6, 0x52].contains op then [2 * n.tenant + 1] else [])
    let stream := if op = 0x50 then [pktField p 52 2]
      else if [0x52, 0x53, 0x54].contains op then ((tget d.streams (pktField p 48 4)).map fun s => [s.slot]).getD [] else []
    (if usesNs p then ns else []) ++ stream

/-- The key state of an I/O command's namespace (R130, R197). -/
def dataKeyCheck (p : BitVec 512) (d : Dev) : Nat :=
  match d.ns (pktNsid p) with
  | none => stSuccess
  | some n =>
    let k := d.slot (2 * n.tenant)
    if k.type ≠ 1 ∨ k.keyId ≠ n.ownerKey ∨ k.erase.isSome then stKeyEmpty
    else if packDedup n.pack && [1, 6, 0x52].contains (pktOp p) &&
        ((d.slot (2 * n.tenant + 1)).type != 2 || (d.slot (2 * n.tenant + 1)).erase.isSome) then stKeyEmpty
    else stSuccess

/-- The key state that a command meets (R229, R232, R233). -/
def keyState (fn : Nat) (p : BitVec 512) (d : Dev) : Nat :=
  let op := pktOp p
  let z := d.is RIM_STATUS.ZEROIZED
  let slot := pktField p 48 2
  if op = 0x89 ∨ op = 0x8A then
    if op = 0x89 ∧ z then stZeroized
    else if op = 0x89 ∧ pktField p 50 1 = 15 then (if fn = 0 then stSuccess else stKeyNotOwned)
    else if !d.mayAddress fn slot then stKeyNotOwned
    else if (d.slot slot).erase.isSome then stKeyEmpty
    else stSuccess
  else if 0x80 ≤ op then stSuccess
  else
    let needs := usesNs p || [0x53, 0x54].contains op
    if needs && z then stZeroized
    else
      let data := if usesNs p then dataKeyCheck p d else stSuccess
      let stream := if op = 0x50 then some (pktField p 52 2)
        else if [0x52, 0x53, 0x54].contains op then (d.streamFor fn (pktField p 48 4)).map (·.slot) else none
      match stream with
      | none => data
      | some n =>
        if !d.mayAddress fn n then stKeyNotOwned
        else if data ≠ 0 then data
        else if (d.slot n).erase.isSome then stKeyEmpty
        else keyCheck fn n (op == 0x50 && !bit (pktOpts p) 0) d

/-- Check 7 of R89: the group, then the key state. -/
def check7 (fn : Nat) (p : BitVec 512) (d : Dev) : Nat :=
  let bs := ((d.ns (pktNsid p)).map Ns.blockSize).getD 4096
  let g := if pktMember p then memberCheck fn p bs d
    else if [0x40, 0x41, 0x42, 0x43].contains (pktOp p) then groupCheck fn p d else stSuccess
  if g ≠ 0 then g else keyState fn p d

/-! ### The packet -/

/-- A tag equals that of a command outstanding on its queue: fetched, or with its completion held. -/
def Dev.tagTaken (d : Dev) (qi : Nat) (qu : Queue) (tag : Nat) : Bool :=
  (qu.cmd tag).isSome || qu.held.any (·.tag == tag) || (d.fn qu.fn).hold.any fun i => match i with
    | .cqe q e => q == qi && e.tag == tag
    | _ => false

/-- A snapshot that a read names is not visible (R468). -/
def badSnap (p : BitVec 512) (d : Dev) : Bool :=
  [2, 5, 7].contains (pktOp p) && pktGos p != 0 && (d.ns (pktNsid p)).any fun n => (n.visibleSnap (pktGos p)).isNone

/-- Checks 1 to 5 of R89; `v` is the state in which the command sees its namespaces. -/
def earlyChecks (qi : Nat) (qu : Queue) (p : BitVec 512) (d v : Dev) : Nat :=
  ([check1 qu p d, check2 qu p, if d.tagTaken qi qu (pktTag p) then stDuplicateTag else stSuccess, check4 qu p v, check5 p v].find?
    (· != 0)).getD 0

/-- Checks 1 to 7 of R89: the segments of the data buffer, or the status of the first check that fails. -/
def packetChecks (qi : Nat) (qu : Queue) (p : BitVec 512) (lists : List (Option Bytes)) (d : Dev) : List (Nat × Nat) ⊕ Nat :=
  let v := d.ahead (pktNsid p)
  let early := earlyChecks qi qu p d v
  if early ≠ 0 then .inr early
  else match check6 p lists v with
    | .inr st => .inr st
    | .inl segs =>
      let st := check7 qu.fn p v
      if st ≠ 0 then .inr st else if badSnap p v then .inr stInvalidField else .inl segs

/-- A member that fails a check marks its group as failed only where it was accepted; what fails here was not counted (R316). A packet that
fails completes at once. -/
def refusePacket (qi order st : Nat) (p : BitVec 512) (d : Dev) : Dev :=
  postCqe qi ⟨order, 0, pktTag p, st, none⟩ (d.when (st == stNonceExhausted) fun d => d.bump RIM_CNT_NONCE_EXH.COUNT 1)

/-- The class A commands outstanding on the module: fetched, with the completion not yet posted (R113). -/
def Dev.classACount (d : Dev) : Nat :=
  (d.rings.queues.filter fun e => e.2.cls == 0 && !e.2.admin).foldl (fun n e => n + e.2.cmds.length + e.2.held.length + (d.fn e.2.fn).heldOf e.1) 0

/-- A condition of R113 that a class A command meets at its fetch does not hold: too many are outstanding, or a firmware activation is in
progress on either twin. -/
def Dev.classABroke (d : Dev) : Bool :=
  decide (131072 < d.classACount) || d.twin.act.isSome || d.rd TWN_PEER.SB_STATE == 6

/-- An accepted packet becomes a command of its queue, with what its fetch brings about at once: a member is counted (R316), a group opens,
seals or is discarded (R321); the reset of a queue pair begins (R97); class A work outside the bound's conditions is told (R114). -/
def acceptPacket (qi order : Nat) (qu : Queue) (p : BitVec 512) (segs : List (Nat × Nat)) (joins : Bool) (d : Dev) : Dev :=
  let v := d.ahead (pktNsid p)
  let c : Cmd := {
    order := order, pkt := p, segs := segs, dataLen := segs.foldl (fun n s => n + s.2) 0, stage := .ready, started := false, sent := false,
    took := false, keySlots := keysOf p v, chunks := [], refs := 0, news := 0, recon := 0, warn := 0, buf := [], got := [], slice := 0,
    host := [], failed := none, joins := joins, phase := 0, silent := false }
  let d := d.modQ qi fun x => { x with cmds := x.cmds ++ [c] }
  let d := d.when d.classABroke (classABroken qi)
  let bs := ((v.ns (pktNsid p)).map Ns.blockSize).getD 4096
  if pktMember p then addMember qu.fn qi order p bs d
  else match pktOp p with
    | 0x40 => openGroup qu.fn qi p d
    | 0x41 => sealGroup qu.fn qi order p d
    | 0x42 => discardAtFetch qu.fn qi (pktTag p) p d
    | 0x87 => runReset [0x87] true qi (pktTag p) d
    | 0x88 => runReset [0x88] false qi (pktTag p) d
    | _ => d

/-- The packet meets R162, so that its chunks may join its queue's open stream block. DESIGN CHOICE: only a WRITE does; a COMPARE_AND_WRITE
and the writes of an apply form blocks of their own as in R164 (see the log). -/
def mayJoin (qu : Queue) (p : BitVec 512) : Bool :=
  pktOp p == 1 && !pktMember p && !pktFence p && pktSlba p == qu.nextLba &&
    qu.block.all fun b => b.nsid == pktNsid p

/-- A packet's data arrived (R89, R814); the open stream block of its queue closes first where the packet does not meet R162 (R163). -/
def takePacket (qi order : Nat) (qu : Queue) (p : BitVec 512) (lists : List (Option Bytes)) (run : SliceRun) (d : Dev) : Dev :=
  let joins := mayJoin qu p
  let d := if !joins && qu.block.isSome then (closeBlock qi run d).2 else d
  let d := d.modQ qi fun x => { x with nextLba := pktSlba p + pktNlb p }
  let early := earlyChecks qi qu p d (d.ahead (pktNsid p))
  let reads := if early = 0 ∧ usesDptr p ∧ pktType p = 1 ∧ !d.holding qu.fn then gatherReads 32 (pktAddr p) (pktLen p) lists else []
  let d := d.asks (reads.map fun r => .hostRead qu.fn r.1 r.2 (.dataRead qi (pktTag p)) false)
  match packetChecks qi qu p (if d.holding qu.fn then [] else lists) d with
  | .inr st => refusePacket qi order st p d
  | .inl segs =>
    if needsRead p && d.holding qu.fn then refusePacket qi order stHostMemory p d
    else if decide (0x80 ≤ pktOp p) && d.twin.act.any (fun a => decide (2 ≤ a.step ∧ a.step < 5)) then refusePacket qi order stActivation p d
    else acceptPacket qi order qu p segs joins d

/-- The queue enters the error state: its packet fetch failed (R93). -/
def fetchFailed (qi : Nat) (qu : Queue) (d : Dev) : Dev :=
  fault .host 2 qi 1 false (queueEvent qu.fn qi evRingFetch 0 (d.modQ qi fun x => { x with error := true }))

/-- PACKET_FETCHED (R89, R93, R814): the packet of a fetch arrives (none: the fetch failed), with the gather lists as they are read, and how
the slice of the queue's open stream block fares when it closes. A fetch that a reset took away is unknown. DESIGN CHOICE: packets whose fetches
were under way when another one failed are taken as they arrive (R93; see the log). -/
def execPacketFetched (order : Nat) (pkt : Option (BitVec 512)) (lists : List (Option Bytes)) (run : SliceRun) (s : State) :
    Host.Outcome State Fault Refusal :=
  s.ok <|
    let d := s.dev
    match (tget d.rings.fetches order).map fetchQueue with
    | none => d
    | some qi =>
      let d := (d.modRings fun r => { r with fetches := tdel r.fetches order }).modQ qi fun x => { x with fetches := x.fetches - 1 }
      match d.queue qi with
      | none => d
      | some qu =>
        match pkt with
        | none => settle (fetchFailed qi qu d)
        | some p => settle (takePacket qi order qu p lists run d)

end Sys2Proof.Machine
end

