-- ==== Sys2Proof/Machine/Endpoint.lean ====
section
/-! DEFINITION. The endpoints (chapter 11): links, Bus Master Enable and power states, virtual functions, function-level and endpoint resets,
request errors and IDE. -/

namespace Sys2Proof.Machine

/-! ### Traffic held and delivered (R580 to R584, R594) -/

/-- The traffic of a function stops (R580): commands that still need host memory complete with 01h/07h, and a PF's Floe channels stop. -/
def stopTraffic (fn : Nat) (d : Dev) : Dev :=
  let d := d.each (d.rings.queues.filter fun e => e.2.fn == fn) fun d e =>
    d.each (e.2.cmds.filter Cmd.unread) fun d c => failCmd e.1 c.tag stHostMemory d
  d.when (isPf fn) (floBusStop fn)

/-- Every held result is delivered: the pending interrupts go out (R582). -/
def endDelivery (fn : Nat) (d : Dev) : Dev :=
  if d.holding fn || d.delivers fn then d else settle (sendAllPending fn (drainEvents 256 fn d))

/-- The function may issue requests again (R582): its held results wait at the endpoint write arbiter; where it holds none, the pending
interrupts go out at once. A PF's Floe channels go on. -/
def startTraffic (fn : Nat) (d : Dev) : Dev :=
  if d.holding fn then d
  else settle (((endDelivery fn d).when (isPf fn) (floBusStart fn)).when (fn == d.lendFn) askTable)

/-- The functions of an endpoint whose held results wait at its write arbiter, each with the class of the next. -/
def Dev.deliveries (d : Dev) (e : Nat) : List (Nat × Nat) :=
  ((d.fns.map (·.1)).filter fun fn => epOf fn == e && d.delivers fn).map fun fn => (d.deliverClass fn, fn)

/-- A grant of an endpoint's write arbiter lets one request of a delivery pass (R582, R583). -/
def deliverGrant (r : Nat × Nat) (d : Dev) : Dev :=
  if (d.deliveries (epOf r.2)).contains r then endDelivery r.2 (deliverWrite r.2 d) else d

/-- ARBITER_GRANT (R43): one grant of an arbiter over the requests that wait at it. The held
results that an endpoint delivers wait at its write arbiter beside these. -/
def execArbiterGrant (arb : ArbId) (waiting : Requests) (s : State) : Host.Outcome State Fault Refusal :=
  s.ok <|
    let held := match arb with
      | .epWrite e => s.dev.deliveries e
      | _ => []
    match grant arb (waiting.list.filter (fun w => decide (w.1 < 4)) ++ held) waiting.work s.dev with
    | (some r, d) => d.when (!held.isEmpty) (deliverGrant r)
    | (none, d) => d

/-- Bus Master Enable of a function as a configuration write leaves it. -/
def bmeWrite (fn : Nat) (on : Bool) (d : Dev) : Dev :=
  if d.is (CFG.BME fn) = on then d
  else if on then startTraffic fn (d.set (CFG.BME fn))
  else
    let held := d.holding fn
    let d := d.clr (CFG.BME fn)
    if held then d else settle (stopTraffic fn d)

/-- BUS_MASTER_ENABLE_CLEAR (R580). -/
def execBusMasterEnableClear (fn : Nat) (s : State) : Host.Outcome State Fault Refusal :=
  s.ok (if s.dev.fnExists fn then bmeWrite fn false s.dev else s.dev)

/-- BUS_MASTER_ENABLE_SET (R582). -/
def execBusMasterEnableSet (fn : Nat) (s : State) : Host.Outcome State Fault Refusal :=
  s.ok (if s.dev.fnExists fn then bmeWrite fn true s.dev else s.dev)

/-- An endpoint's link state (R597); only a link that is up has one besides 0. -/
def setLinkState (e st : Nat) (d : Dev) : Dev := if d.rd (EPX_LINK.STATE e) = 0 then d else d.wr (EPX_LINK.STATE e) st

/-- A PF enters D3hot (R594); the standard takes its link to L1. A VF has no power states (R563). -/
def enterD3 (fn : Nat) (d : Dev) : Dev :=
  if !isPf fn || (d.fn fn).d3 || (d.ep (epOf fn)).perst then d
  else
    let held := d.holding fn
    let d := (d.modFn fn fun f => { f with d3 := true }).wr (CFG.POWER fn) 3
    let up := d.rd (EPX_LINK.STATE (epOf fn)) != 0
    let d := d.when up fun d => (d.wr (EPX_LINK.STATE (epOf fn)) 3).bump (EPX_CNT_L1_ENTRIES.COUNT (epOf fn)) 1
    if held then d else settle (stopTraffic fn d)

/-- D3HOT_ENTRY (R594). -/
def execD3hotEntry (fn : Nat) (s : State) : Host.Outcome State Fault Refusal := s.ok (enterD3 fn s.dev)

/-- A PF returns to D0 with its state kept (R594). -/
def returnD0 (fn : Nat) (d : Dev) : Dev :=
  if !(d.fn fn).d3 then d
  else startTraffic fn (setLinkState (epOf fn) 1 ((d.modFn fn fun f => { f with d3 := false }).wr (CFG.POWER fn) 0))

/-- D0_RETURN (R594). -/
def execD0Return (fn : Nat) (s : State) : Host.Outcome State Fault Refusal := s.ok (returnD0 fn s.dev)

/-! ### Function-level reset (R585 to R587) -/

/-- The virtual functions of an endpoint that exist. -/
def Dev.vfs (d : Dev) (e : Nat) : List Nat :=
  if d.is (CFG.VF_EN (256 * e)) then (List.range (min 255 (d.rd (CFG.NUMVFS (256 * e))))).map fun i => 256 * e + 1 + i else []

/-- The registers of a function return to their reset values (R585 item 5). PME_En survives (DEDUCED: R595 uses it in D3cold, which begins
with a reset). -/
def resetRegs (fn : Nat) (d : Dev) : Dev :=
  let pme := d.rd (CFG.PME_EN fn)
  let of (space : Nat) (k : Nat) : Bool := k / 64 / 2 ^ 28 == space
  let d := { d with regs := d.regs.filter fun e => !(of (fnSpace fn) e.1 || of (cfgSpace fn) e.1) }
  d.wr (CFG.PME_EN fn) pme

/-- A function-level reset of one function (R585). -/
def resetFn (fn : Nat) (d : Dev) : Dev :=
  let d := d.modFn fn fun f => { f with hold := [] }
  let d := d.each ((d.rings.queues.filter fun e => e.2.fn == fn).map (·.1)) fun d q => beginReset q none true d
  let d := closeStreams (fun st => st.fn == fn) (discardFnGroups fn d)
  let d := resetRegs fn (stepGen fn d)
  let d := d.modFn fn fun f => { f with
    ev := EvRing.fresh, hold := [], flr := true, d3 := false, msix := [], pend := [] }
  d.when (isPf fn) (floReset fn)

/-- VF Enable goes from 1 to 0, or its PF is reset (R559): each VF is reset and its blocks return to the PF. -/
def resetVfs (e : Nat) (d : Dev) : Dev :=
  let vs := d.vfs e
  let d := d.each vs fun d v => resetFn v d
  let d := d.modRings fun r => { r with owners := r.owners.filter fun o => !vs.contains o.2 }
  d.clr (CFG.VF_EN (256 * e))

/-- A function-level reset of a function (R585, R586): a PF takes its VFs and the lend window with it. -/
def flrOf (fn : Nat) (d : Dev) : Dev :=
  if !isPf fn then resetFn fn d
  else
    let d := resetVfs (epOf fn) d
    let d := d.when (d.is ING_CFG.LEND_EN && d.lendFn == fn) lendOff
    resetFn fn d

/-- FUNCTION_LEVEL_RESET (R585): while one runs, another is discarded (R733). -/
def execFunctionLevelReset (fn : Nat) (s : State) : Host.Outcome State Fault Refusal :=
  s.ok <|
    let d := s.dev
    if !d.fnExists fn || (d.fn fn).flr then d else settle (flrOf fn (d.bump (EPX_CNT_FLR.COUNT (epOf fn)) 1))

/-- FLR_COMPLETE (R587, R676): the queue pairs of the function, and for a PF of its VFs, are gone, and a PF's Floe channels are IDLE. -/
def execFlrComplete (fn : Nat) (s : State) : Host.Outcome State Fault Refusal :=
  s.ok <|
    let d := s.dev
    let fns := fn :: (d.fns.filter fun f => isPf fn && epOf f.1 == epOf fn && f.2.flr).map (·.1)
    let qs := (d.rings.queues.filter fun e => fns.contains e.2.fn && e.2.reset.any (·.byFlr)).map (·.1)
    let d := settle (d.each qs fun d q => resetDone q d)
    let busy (f : Nat) : Bool := (d.rings.queues.any fun e => e.2.fn == f && e.2.reset.any (·.byFlr)) ||
      (floChansOf f).any fun ch => d.floState .host ch != floIdle
    d.each (fns.filter fun f => !busy f) fun d f => d.modFn f fun x => { x with flr := false }

/-! ### SR-IOV (R558, R559) -/

/-- VF Enable goes from 0 to 1 (R559): VFs 1 to NumVFs exist, each with the weight of R45. -/
def vfEnable (e : Nat) (d : Dev) : Dev :=
  let pf := 256 * e
  if d.is (CFG.VF_EN pf) then d
  else
    let d := d.set (CFG.VF_EN pf)
    let vs := d.vfs e
    d.modRings fun r => { r with tenants := r.tenants.filter fun t => !vs.contains t.1 }

/-- VF_ENABLE_SET (R559). -/
def execVfEnableSet (ep : Nat) (s : State) : Host.Outcome State Fault Refusal := s.ok (vfEnable ep s.dev)

/-- VF_ENABLE_CLEAR (R559). -/
def execVfEnableClear (ep : Nat) (s : State) : Host.Outcome State Fault Refusal :=
  s.ok (if s.dev.is (CFG.VF_EN (256 * ep)) then settle (resetVfs ep s.dev) else s.dev)

/-! ### Links (R556, R588, R592, R593, R595, R728) -/

/-- A link trains (R556, R597, R728): its rate, width and mode are reported. Training of a link that was in L0 or L0p counts as an entry into
recovery. -/
def linkUp (e width speed : Nat) (flit : Bool) (d : Dev) : Dev :=
  if ! [1, 2, 4, 8, 16].contains width || speed == 0 || decide (6 < speed) || (d.ep e).perst || (d.pw .host).held || d.rd (CRP_STATUS.STAGE .host) = 0 then d
  else
    let old := d.rd (EPX_LINK.STATE e)
    let d := d.when (old == 1 || old == 2) fun d => d.bump (EPX_CNT_RETRAIN.COUNT e) 1
    let d := ((d.wr (EPX_LINK.SPEED e) speed).wr (EPX_LINK.WIDTH e) width).put (EPX_LINK.FLIT e) (flit || speed == 6)
    ((d.wr (EPX_LINK.L0P_TX e) width).wr (EPX_LINK.L0P_RX e) width).wr (EPX_LINK.STATE e) 1

/-- ENDPOINT_LINK_UP (R556). -/
def execEndpointLinkUp (ep width speed : Nat) (flit : Bool) (s : State) : Host.Outcome State Fault Refusal :=
  s.ok (if ep < 4 then linkUp ep width speed flit s.dev else s.dev)

/-- The link of an endpoint is down. -/
def linkDown (e : Nat) (d : Dev) : Dev :=
  let d := ((d.clr (EPX_LINK.SPEED e)).clr (EPX_LINK.WIDTH e)).clr (EPX_LINK.FLIT e)
  ((d.clr (EPX_LINK.L0P_TX e)).clr (EPX_LINK.L0P_RX e)).clr (EPX_LINK.STATE e)

/-- An endpoint reset (R588): every function of it as by a function-level reset of its PF. -/
def endpointReset (e : Nat) (d : Dev) : Dev := settle (flrOf (256 * e) (linkDown e d))

/-- ENDPOINT_RESET (R588, R595): PERST# asserted, which is D3cold, or a hot reset or a link that went down. -/
def execEndpointReset (ep : Nat) (perst : Bool) (s : State) : Host.Outcome State Fault Refusal :=
  s.ok <|
    if 4 ≤ ep then s.dev
    else (endpointReset ep s.dev).when perst fun d => d.modEp ep fun x => { x with perst := true }

/-- PERST_RELEASE (R595): WAKE# is released, and the link may train. -/
def execPerstRelease (ep : Nat) (s : State) : Host.Outcome State Fault Refusal :=
  s.ok <|
    let d := s.dev
    if 4 ≤ ep ∨ !(d.ep ep).perst then d
    else
      let woke := (d.ep ep).wake
      let d := d.modEp ep fun x => { x with perst := false, wake := false }
      d.when woke fun d => d.emit (.pin "WAKE#" true)

/-- R593 keeps the link out of L1 and L0p: CLASS_A_HOLD is 1 and a class A queue pair of the endpoint exists. -/
def Dev.classAHold (d : Dev) (e : Nat) : Bool :=
  d.is (EPX_PM_CFG.CLASS_A_HOLD e) && d.rings.queues.any fun q => epOf q.2.fn == e && q.2.cls == 0

/-- L1_REQUEST (R592, R593): the link was idle for L1_IDLE µs and enters L1.0, or the L1 substate that the host enabled (`sub` 1 or 2). -/
def execL1Request (ep sub : Nat) (s : State) : Host.Outcome State Fault Refusal :=
  s.ok <|
    let d := s.dev
    let st := d.rd (EPX_LINK.STATE ep)
    let en := d.rd (CFG.L1SS (256 * ep))
    let deep := if sub = 2 ∧ bit en 2 then 5 else if 1 ≤ sub ∧ bit en 3 then 4 else 3
    if !(st == 1 || st == 2) || d.rd (EPX_PM_CFG.L1_IDLE ep) == 0 || !bit (d.rd (CFG.ASPM (256 * ep))) 1 || d.classAHold ep then d
    else (d.wr (EPX_LINK.STATE ep) deep).bump (EPX_CNT_L1_ENTRIES.COUNT ep) 1

/-- The field of the width in use of one direction of a link. -/
def l0pField (e : Nat) (tx : Bool) : Field := if tx then EPX_LINK.L0P_TX e else EPX_LINK.L0P_RX e

/-- L0P_NARROW (R592, R593): a direction goes to half its width, no narrower than L0P_MIN. -/
def execL0pNarrow (ep : Nat) (tx : Bool) (s : State) : Host.Outcome State Fault Refusal :=
  s.ok <|
    let d := s.dev
    let st := d.rd (EPX_LINK.STATE ep)
    let w := d.rd (l0pField ep tx) / 2
    if !(st == 1 || st == 2) || !d.is (EPX_LINK.FLIT ep) || d.rd (EPX_PM_CFG.L0P_IDLE ep) == 0 || d.classAHold ep ||
        decide (w < 2 ^ (d.rd (EPX_PM_CFG.L0P_MIN ep) + 1)) then d
    else (d.wr (l0pField ep tx) w).wr (EPX_LINK.STATE ep) 2

/-- L0P_WIDEN (R592): a direction returns to the trained width. -/
def execL0pWiden (ep : Nat) (tx : Bool) (s : State) : Host.Outcome State Fault Refusal :=
  s.ok <|
    let d := s.dev
    if d.rd (EPX_LINK.STATE ep) ≠ 2 then d
    else
      let w := d.rd (EPX_LINK.WIDTH ep)
      let d := d.wr (l0pField ep tx) w
      if d.rd (EPX_LINK.L0P_TX ep) = w ∧ d.rd (EPX_LINK.L0P_RX ep) = w then d.wr (EPX_LINK.STATE ep) 1 else d

/-! ### MSI-X (R571 to R573) -/

/-- The entries of a function's MSI-X table. -/
def vectorCount (fn : Nat) : Nat := if isPf fn then 2048 else 64

/-- The four words of a table entry: address, upper address, data, and vector control. -/
def MsixEntry.word (e : MsixEntry) (i : Nat) : Nat :=
  match i with
  | 0 => e.addr % 2 ^ 32
  | 1 => e.addr / 2 ^ 32
  | 2 => e.data
  | _ => b2n e.masked

/-- An entry with one of its words written. -/
def MsixEntry.put (e : MsixEntry) (i v : Nat) : MsixEntry :=
  match i with
  | 0 => { e with addr := e.addr / 2 ^ 32 * 2 ^ 32 + v / 4 * 4 }
  | 1 => { e with addr := v * 2 ^ 32 + e.addr % 2 ^ 32 }
  | 2 => { e with data := v }
  | _ => { e with masked := bit v 0 }

/-- A write into a function's MSI-X table (R567, R571 to R573): naturally aligned, of 4 or 8 bytes. -/
def msixWrite (fn off size value : Nat) (d : Dev) : Dev :=
  let v := off / 16
  let i := off % 16 / 4
  if !d.decodes fn || vectorCount fn ≤ v || !(size == 4 || size == 8) || off % size != 0 then d
  else
    let e := ((d.fn fn).vec v).put i (value % 2 ^ 32)
    let e := if size = 8 then e.put (i + 1) (value / 2 ^ 32 % 2 ^ 32) else e
    sendPending fn v (d.modFn fn fun f => { f with msix := tput f.msix v e })

/-- MSIX_ENTRY_WRITE (R573). -/
def execMsixEntryWrite (fn off size value : Nat) (s : State) : Host.Outcome State Fault Refusal :=
  s.ok (msixWrite fn off size value s.dev)

/-- VECTOR_UNMASK (R572): the vector's mask is cleared, and a pending message goes out. -/
def execVectorUnmask (fn vector : Nat) (s : State) : Host.Outcome State Fault Refusal :=
  s.ok (msixWrite fn (16 * vector + 12) 4 0 s.dev)

/-! ### Errors (R557, R578, R579, R591) -/

/-- AER's bits for the errors that this chapter names. -/
def aerPoisoned : Nat := 12
def aerTimeout : Nat := 14
def aerIde : Nat := 28

/-- A non-posted request ended in an error: what follows by its purpose (R578). A fetch or a read that is no longer outstanding is unknown. -/
def requestFailed (fn : Nat) (why : Purpose) (d : Dev) : Dev :=
  match why with
  | .packetFetch order =>
    match (tget d.rings.fetches order).map fetchQueue with
    | none => d
    | some qi =>
      let d := (d.modRings fun r => { r with fetches := tdel r.fetches order }).modQ qi fun x => { x with fetches := x.fetches - 1 }
      match d.queue qi with
      | some qu => fetchFailed qi qu d
      | none => d
  | .dataRead q tag =>
    match (d.queue q).bind fun x => x.cmd tag with
    | some c => if c.unread then failCmd q tag stHostMemory d else d
    | none => d
  | .lendRead _ => if d.lendOn || (d.is ING_CFG.LEND_EN && !d.ingest.lendCopied) then lendFault d else d
  | .calvingDesc sid =>
    match tget d.streams sid with
    | some st =>
      if st.send && st.fn == fn && st.ended.isNone && st.head != st.tail then
        let (a, d) := d.draw
        stopStream sid 3 stHostMemory (a % 2 ^ 64) st d
      else d
    | none => d
  | .floe ch => busError .host (ch % 128) d

/-- A fault of an endpoint's function (R757). -/
def epFault (fn cause : Nat) (d : Dev) : Dev := fault .host 9 (epOf fn * 256 + fn % 256) cause false d

/-- COMPLETION_TIMEOUT (R557, R578, R591): a request timed out, or its IDE stream is Insecure. -/
def execCompletionTimeout (fn : Nat) (why : Purpose) (s : State) : Host.Outcome State Fault Refusal :=
  s.ok (settle (requestFailed fn why (epFault fn 1 (aerUnc fn aerTimeout (s.dev.bump (EPX_CNT_CPL_TIMEOUT.COUNT (epOf fn)) 1)))))

/-- REQUEST_ERROR (R578): an Unsupported Request, a Completer Abort, or a poisoned completion. -/
def execRequestError (fn : Nat) (why : Purpose) (poisoned : Bool) (s : State) : Host.Outcome State Fault Refusal :=
  s.ok <|
    let d := s.dev.when poisoned fun d => epFault fn 2 (aerUnc fn aerPoisoned (d.bump (EPX_CNT_POISONED.COUNT (epOf fn)) 1))
    settle (requestFailed fn why d)

/-- POISONED_WRITE (R579): a poisoned write to a BAR is discarded and reported. -/
def execPoisonedWrite (fn : Nat) (s : State) : Host.Outcome State Fault Refusal :=
  s.ok (if s.dev.fnExists fn then epFault fn 2 (aerUnc fn aerPoisoned (s.dev.bump (EPX_CNT_POISONED.COUNT (epOf fn)) 1)) else s.dev)

/-- IDE_CHECK_FAILED (R591): the TLP is discarded and its stream enters Insecure. -/
def execIdeCheckFailed (ep stream : Nat) (s : State) : Host.Outcome State Fault Refusal :=
  s.ok <|
    let d := s.dev
    if 4 ≤ ep ∨ 8 ≤ stream then d
    else
      let x := (tget (d.ep ep).ide stream).getD ⟨false, []⟩
      aerUnc (256 * ep) aerIde (d.modEp ep fun e => { e with ide := tput e.ide stream { x with secure := false } })

end Sys2Proof.Machine
end

