-- ==== Sys2Proof/Machine/Flash.lean ====
section
/-! DEFINITION. The boot flash (R719): 128 MiB, held as the bytes that are not erased, in one canonical form, and the two banks. -/

namespace Sys2Proof.Machine

/-- What an erased byte reads as, and so what an unlisted address reads as. -/
def flashErased : Byte := 0xFF#8

/-- Bytes of the boot flash (R719). -/
def flashSize : Nat := 2 ^ 27

/-- The cells are in strictly rising order from an address on, lie in the flash, and none is erased. -/
def Memory.wfFrom : Nat → List Host.Cell → Bool
  | _, [] => true
  | lo, (a, b) :: t => decide (lo ≤ a) && decide (a < flashSize) && b != flashErased && Memory.wfFrom (a + 1) t

/-- The canonical form of the boot flash: addresses strictly rising, no erased byte listed. -/
def Memory.wf (m : List Host.Cell) : Bool := Memory.wfFrom 0 m

/-- One byte of the boot flash. -/
def flashByte (m : List Host.Cell) (a : Nat) : Byte :=
  match m with
  | [] => flashErased
  | (k, v) :: t => if a = k then v else flashByte t a

/-- `n` bytes from an address on, the cells below it apart. -/
def flashBytes : Nat → Nat → List Host.Cell → Bytes
  | 0, _, _ => []
  | n + 1, a, [] => flashErased :: flashBytes n (a + 1) []
  | n + 1, a, (k, v) :: t => if k = a then v :: flashBytes n (a + 1) t else flashErased :: flashBytes n (a + 1) ((k, v) :: t)

/-- `len` bytes of the boot flash from `off` on. -/
def flashRead (m : List Host.Cell) (off len : Nat) : Bytes := flashBytes len off (m.filter fun c => decide (off ≤ c.1))

/-- The cells of bytes laid out from an address on. -/
def cellsAt : Nat → Bytes → List Host.Cell
  | _, [] => []
  | a, b :: t => if a < flashSize ∧ b ≠ flashErased then (a, b) :: cellsAt (a + 1) t else cellsAt (a + 1) t

/-- The boot flash with bytes written from an address on, over whatever stood there; bytes past its end are not written. -/
def flashWrite (m : List Host.Cell) (off : Nat) (b : Bytes) : List Host.Cell :=
  m.filter (fun c => decide (c.1 < off)) ++ cellsAt off b ++ m.filter (fun c => decide (off + b.length ≤ c.1))

/-- The boot flash with a range erased. -/
def flashErase (m : List Host.Cell) (off len : Nat) : List Host.Cell :=
  m.filter fun c => decide (c.1 < off) || decide (off + len ≤ c.1)

/-- Bytes of a bank. -/
def bankSize : Nat := 2 ^ 26

/-- Where a bank starts: bank A (0) at 0, bank B (1) at 0x400_0000. -/
def bankBase (bank : Nat) : Nat := bank * bankSize

end Sys2Proof.Machine
end

