-- ==== Sys2Proof/Machine/Image.lean ====
section
/-! DEFINITION. The Koros image (R720 to R723): its header, its sections, what makes it valid, and the bank to boot. -/

namespace Sys2Proof.Machine

/-- IMAGE_LEN. -/
def koLen (b : Bytes) : Nat := getLe b 8 4

/-- KSTATE bit ACCEPT_N or REJECT_N of a header. -/
def koState (b : Bytes) (n : Nat) : Bool := bit (getLe b 5 1) n

/-- KEY_INDEX. -/
def koKey (b : Bytes) : Nat := getLe b 6 1

/-- SVN. -/
def koSvn (b : Bytes) : Nat := getLe b 7 1

/-- FW_VERSION. -/
def koVersion (b : Bytes) : Nat := getLe b 12 4

/-- PAIR_LEVEL. -/
def koLevel (b : Bytes) : Nat := getLe b 16 2

/-- MIN_PEER_LEVEL. -/
def koMinPeer (b : Bytes) : Nat := getLe b 18 2

/-- BOOT_SEQ. -/
def koSeq (b : Bytes) : Nat := getLe b 20 4

/-- NSECT. -/
def koSections (b : Bytes) : Nat := getLe b 24 2

/-- The first check of R721: KMAGIC, KVERSION and IMAGE_LEN are correct. -/
def headerOk (b : Bytes) : Bool :=
  getLe b 0 4 == 0x6B0FA5C3 && getLe b 4 1 == 1 && decide (0 < koLen b) && koLen b % 4096 == 0 && decide (koLen b ≤ 2 ^ 25)

/-- The section of a type: its offset and length (R722). -/
def koSection (b : Bytes) (t : Nat) : Option (Nat × Nat) :=
  ((List.range (koSections b)).find? fun i => getLe b (128 + 16 * i) 1 == t).map fun i =>
    (getLe b (132 + 16 * i) 4, getLe b (136 + 16 * i) 4)

/-- The bytes of a section. -/
def koBytes (b : Bytes) (t : Nat) : Option Bytes := (koSection b t).map fun e => getBytes b e.1 e.2

/-- A board profile has its reserved fields zero. -/
def profileOk (p : Bytes) : Bool := allZero (getBytes p 10 2) && allZero (getBytes p 20 44)

/-- The sections stand as R722 says: 1 to 24, one of each type, reserved fields and unused entries zero, each inside the image, profiles
present and whole, the option ROM at most 1 MiB. -/
def sectionsOk (b : Bytes) : Bool :=
  let n := koSections b
  let ent (i : Nat) : Bytes := getBytes b (128 + 16 * i) 16
  let types := (List.range n).map fun i => getLe (ent i) 0 1
  decide (1 ≤ n) && decide (n ≤ 24) && decide types.Nodup && allZero (getBytes b 26 6) && allZero (getBytes b (128 + 16 * n) (384 - 16 * n)) &&
    (List.range n).all (fun i => allZero (getBytes (ent i) 1 3) && allZero (getBytes (ent i) 12 4) &&
      decide (512 ≤ getLe (ent i) 4 4) && decide (getLe (ent i) 4 4 + getLe (ent i) 8 4 + 96 ≤ koLen b)) &&
    (match koBytes b 3 with
      | none => false
      | some s => s.length % 64 == 0 && decide (64 ≤ s.length) && decide (s.length ≤ 1024) && (pieces 64 s).all profileOk) &&
    (koSection b 4).all (fun e => decide (e.2 ≤ 2 ^ 20)) && (koSection b 5).all fun e => e.2 == 22

/-- KEY_INDEX names a programmed key hash that is not revoked, and SHA-384 of PUBKEY equals it. -/
def keyOk (f : Fuses) (b : Bytes) : Bool :=
  match f.hashes[koKey b]? with
  | none => false
  | some h => !h.isEmpty && !bit f.revoked (koKey b) && sha384 (getBytes b 32 96) == h

/-- The signature verifies over bytes 0 to IMAGE_LEN − 97 with KSTATE taken as FFh (R721). -/
def signatureOk (b : Bytes) : Bool :=
  let n := koLen b - 96
  let m := b.take n
  ecdsa384Verify (getBytes b 32 96) (getBytes b n 96) (m.take 5 ++ [0xFF#8] ++ m.drop 6)

/-- The format, key and signature of an image, its SVN apart. -/
def koFormatOk (f : Fuses) (b : Bytes) : Bool :=
  headerOk b && b.length == koLen b && sectionsOk b && decide (koSvn b < 64) && keyOk f b && signatureOk b

/-- An image is valid (R721, R722). -/
def imageValid (f : Fuses) (b : Bytes) : Bool := koFormatOk f b && decide (f.svn ≤ koSvn b)

/-- Section 02h verifies under the same key, over the section less its last 96 bytes (R722); it must be there for the media half to start. -/
def mediaFirmwareOk (b : Bytes) : Bool :=
  match koBytes b 2 with
  | none => false
  | some s => ecdsa384Verify (getBytes b 32 96) (s.drop (s.length - 96)) (s.take (s.length - 96))

/-- The header of a bank. -/
def bankHeader (m : List Host.Cell) (bank : Nat) : Bytes := flashRead m (bankBase bank) 512

/-- The image of a bank, as long as its header says; the header alone where that is not correct. -/
def bankImage (m : List Host.Cell) (bank : Nat) : Bytes :=
  let h := bankHeader m bank
  if headerOk h then flashRead m (bankBase bank) (koLen h) else h

/-- A bank that holds nothing. -/
def bankEmpty (m : List Host.Cell) (bank : Nat) : Bool := (bankHeader m bank).all (· == flashErased)

/-- The bank that is preferred (R723 items 2 to 4), where a header passes. -/
def preferredBank (m : List Host.Cell) : Option Nat :=
  let can (k : Nat) : Bool := headerOk (bankHeader m k) && koState (bankHeader m k) 1
  let good (k : Nat) : Bool := can k && !koState (bankHeader m k) 0
  if good 0 ∧ good 1 then some (if koSeq (bankHeader m 0) < koSeq (bankHeader m 1) then 1 else 0)
  else if good 0 then some 0 else if good 1 then some 1 else if can 0 then some 0 else if can 1 then some 1 else none

/-- A bit of a bank's KSTATE programmed to 0 (R724). -/
def programState (m : List Host.Cell) (bank n : Nat) : List Host.Cell :=
  let a := bankBase bank + 5
  flashWrite m a [BitVec.ofNat 8 (setBit (flashByte m a).toNat n false)]

/-- Profile `n` of an image; profile 0 where it holds fewer (R722). -/
def profileOf (b : Bytes) (n : Nat) : Nat × Bytes :=
  let ps := pieces 64 ((koBytes b 3).getD [])
  match ps[n]? with
  | some p => (n, p)
  | none => (0, ps.headD [])

/-- What a running image brings, with the board profile in use. -/
def imageOf (b : Bytes) (bank : Nat) (p : Bytes) : Image :=
  { version := koVersion b, level := koLevel b, minPeer := koMinPeer b, bank := bank, svid := getLe p 0 2, ssid := getLe p 2 2,
    bar2 := (List.range 4).map fun e => if getLe p (4 + e) 1 < 21 ∨ 42 < getLe p (4 + e) 1 then 0 else 2 ^ getLe p (4 + e) 1, rom := (koBytes b 4).getD [],
    ocv := ((koBytes b 5).map fun s => (pieces 2 s).map leNat).getD [] }

end Sys2Proof.Machine
end

