-- ==== Sys2Proof/Machine/Firmware.lean ====
section
/-! DEFINITION. Firmware (R541 to R545, R724): staging, storing and activating an image, and the warm reset (R812). -/

namespace Sys2Proof.Machine

/-! ### Staging (R541, R542) -/

/-- FW_DOWNLOAD (R541): a segment of an image with its bytes as they were read (none: the read failed). -/
def execFwDownload (q tag : Nat) (data : Option Bytes) (s : State) : Host.Outcome State Fault Refusal :=
  s.ok <| runCmd [0x84] q tag (fun qu c d =>
    let d := readHost q qu c d
    match data with
    | none => failCmd q tag stHostMemory d
    | some b =>
      let off := pktField c.pkt 48 4
      let old := if bit (pktField c.pkt 52 1) 0 then [] else d.staging.segs
      let had := if bit (pktField c.pkt 52 1) 0 then 0 else d.staging.bytes
      let b := padTo c.dataLen b
      if 2 ^ 27 < off + b.length then failCmd q tag stTransferTooLarge d
      else
        let pages := (pieces 4096 b).zipIdx
        let segs := pages.foldl (fun t e => tput t (off / 4096 + e.2) e.1) old
        complete q tag stSuccess (had + b.length) { d with staging := ⟨segs, had + b.length, false⟩ }) s.dev

/-- The staged image, where every page of it is there. -/
def Staging.image (x : Staging) : Option Bytes :=
  match tget x.segs 0 with
  | none => none
  | some h =>
    if !headerOk h then some h
    else
      let n := koLen h / 4096
      if (List.range n).all fun i => (tget x.segs i).isSome then
        some ((List.range n).map fun i => (tget x.segs i).getD []).flatten
      else none

/-- The boot flash with the staged image in a bank (R542, R724): the bank is erased and the image written with KSTATE FFh. -/
def storeImage (m : List Host.Cell) (bank : Nat) (b : Bytes) : List Host.Cell :=
  flashWrite (flashErase m (bankBase bank) bankSize) (bankBase bank) (b.take 5 ++ [flashErased] ++ b.drop 6)

/-- A staged image that is to be stored goes into the inactive bank. -/
def State.stored (s : State) : State :=
  if !s.dev.staging.store then s
  else
    let d := { s.dev with staging := { s.dev.staging with store := false } }
    match s.dev.staging.image with
    | none => { s with dev := d }
    | some b => { s with flash := storeImage s.flash (1 - d.image.bank) b, dev := d }

/-! ### FW_COMMIT (R542 to R544) -/

/-- RESULT of a FW_COMMIT that succeeds. -/
def Dev.runningResult (d : Dev) : Nat := d.image.version + 2 ^ 32 * d.image.bank

/-- The cause of R542 for which an image cannot be taken, 0 for none. The twin's levels are those of its last handshake; without a twin
there is nothing to compare with. -/
def commitCause (f : Fuses) (img : Option Bytes) (d : Dev) : Nat :=
  match img with
  | none => 1
  | some b =>
    if !koFormatOk f b then 2
    else if 3 ≤ d.tstate ∧ d.tstate ≤ 5 ∧ (d.rd TWN_PEER.PEER_LEVEL < koMinPeer b ∨ koLevel b < d.rd TWN_PEER.PEER_MIN) then 3
    else if koSvn b < f.svn then 4
    else 0

/-- The activation begins (R543, R544): its activity becomes ACTIVE, the image is stored where ACTION says so, and step 1 runs. -/
def startActivation (d : Dev) : Dev :=
  match d.twin.act with
  | none => d
  | some a =>
    if a.step ≠ 0 then d
    else
      let store := ((d.queue a.q).bind fun x => x.cmd a.tag).any fun c => pktOp c.pkt == 0x85 && pktField c.pkt 48 1 == 1
      let d := d.modTwin fun t => { t with act := some { a with step := 1, solo := d.tstate != 5, oldBank := d.image.bank } }
      let d := d.when store fun d => { d with staging := { d.staging with store := true } }
      handAway (activate a.activity d)

/-- The activation that a FW_COMMIT asks for is put to the ledger (R428, R429, R543). -/
def askActivation (q tag fn : Nat) (d : Dev) : Dev :=
  let r : MaintReq := ⟨5, 0, 0, d.twinSide, 0, fn⟩
  if !d.holdsLedger then forward q tag [1, 5, 0, 0, d.twinSide, 0, fn, q, tag] [] d
  else match d.maintCheck r with
    | (0, _) =>
      let a := r.act d.nextActId d.tbMedia
      let d := putActivity a { d with maint := { d.maint with serial := a.id % 2 ^ 15 } }
      let d := crossCmd q tag (d.bump MNT_CNT_ADMITTED.COUNT 1)
      startActivation (d.modTwin fun t => { t with act := some ⟨q, tag, 0, 0, false, d.image.bank, a.id⟩ })
    | (st, res) =>
      complete q tag st res (d.when (st == stMaintConflict || st == stMaintMargin) fun d => d.bump MNT_CNT_REFUSED.COUNT 1)

/-- FW_COMMIT (R542, R543). -/
def execFwCommit (q tag : Nat) (s : State) : Host.Outcome State Fault Refusal :=
  .next (State.stored { s with dev := runCmd [0x85] q tag (fun qu c d =>
    let action := pktField c.pkt 48 1
    let other := 1 - d.image.bank
    let img := if action = 2 then (if bankEmpty s.flash other then none else some (bankImage s.flash other)) else d.staging.image
    let cause := commitCause s.fuses img d
    if 2 < action then failCmd q tag stInvalidField d
    else if action ≠ 0 ∧ (d.fenced || d.peerDown .host || !d.schUp) then failCmd q tag stPathFenced d
    else if cause ≠ 0 then complete q tag stInvalidField cause d
    else if action = 0 then complete q tag stSuccess d.runningResult { d with staging := { d.staging with store := true } }
    else askActivation q tag qu.fn d) s.dev })

/-! ### The restart (R543 to R545, R812) -/

/-- A warm reset of both halves (R729, R812): every W1C field returns to its reset value, and the watchdog of each half is disarmed until it
is kicked again (R774). -/
def warmReset (d : Dev) : Dev :=
  let keep (e : Nat × Nat) : Bool := !((fieldOfKey e.1).any fun f => f.acc == .w1c)
  let d := { d with
    regs := d.regs.filter keep
    fns := d.fns.map fun (e : Nat × Fn) => (e.1, { e.2 with holdOver := false })
    pools := d.pools.map fun (e : Nat × Pool) => (e.1, { e.2 with scrub := { e.2.scrub with late := false } }) }
  d.each [Half.host, Half.media] fun d h => (d.clr (FLT_WDOG.ARMED h)).bump (CRP_CNT_WARM.COUNT h) 1

/-- The running image is that of a bank; the board profile, the option ROM and the OCV table in use stay as start-up loaded them (R725). -/
def runImage (m : List Host.Cell) (bank : Nat) (d : Dev) : Dev :=
  let b := bankHeader m bank
  let d := { d with image := { d.image with version := koVersion b, level := koLevel b, minPeer := koMinPeer b, bank := bank } }
  let d := ((d.wr GLB_FW.FW_VERSION (koVersion b)).wr GLB_FW.BANK bank).wr GLB_FW.PAIR_LEVEL (koLevel b)
  (d.wr (CRP_STATUS.BANK .host) bank).wr (CRP_STATUS.BANK .media) bank

/-- The module serves again (R543 step 5, R544): fetching goes on; without a twin the activity ends now, and otherwise the handshake with it
has begun. -/
def resume (a : Activation) (d : Dev) : Dev :=
  if a.solo then
    let d := d.modTwin fun t => { t with act := none }
    let d := updateMode (d.wr TWN_STATUS.STATE (if d.twin.selfFailed then 6 else if d.cableUp then 1 else 0))
    let d := match d.activity a.activity with
      | some x => releaseActivity x false d
      | none => d
    settle (syncLedger d)
  else
    let d := updateMode ((d.modTwin fun t => { t with act := some { a with step := 5 }, released := false }).wr TWN_STATUS.STATE 2)
    handshake (snowSend .pair 3 ⟨0xFF, 0, 0, 0, d.pairArgs, []⟩ (syncLedger d))

/-- A warm reset that no FW_COMMIT asked for keeps the running image (R732). -/
def Activation.plain (a : Activation) : Bool := a.q == noQueue

/-- ACTIVATION_RESUME (R543 steps 3 to 5, R544, R724): both halves run the new image, ACCEPT_N is programmed in it, the SVN floor rises to
its SVN, and the module serves again. -/
def execActivationResume (s : State) : Host.Outcome State Fault Refusal :=
  let d := s.dev
  match d.twin.act with
  | none => .next s
  | some a =>
    if a.step ≠ 2 ∨ (!a.solo && !d.cableUp) then .next s
    else
      let bank := if a.plain then d.image.bank else 1 - a.oldBank
      let d := runImage s.flash bank (warmReset d)
      let d := d.when a.solo replayIntents
      let d := resume a (d.when (!a.plain) (complete a.q a.tag stSuccess d.runningResult))
      let svn := koSvn (bankHeader s.flash bank)
      if a.plain then .next { s with dev := d }
      else .next { s with
        dev := d, flash := programState s.flash bank 0, fuses := { s.fuses with svn := max s.fuses.svn svn } }

/-- ACTIVATION_FALLBACK (R545, R724): the new image did not reach step 4 in time; the previous one runs again, and REJECT_N is programmed in
the image that failed. -/
def execActivationFallback (s : State) : Host.Outcome State Fault Refusal :=
  let d := s.dev
  match d.twin.act with
  | none => .next s
  | some a =>
    if a.step ≠ 2 then .next s
    else
      let d := runImage s.flash a.oldBank (warmReset d)
      let d := d.when (!a.plain) (complete a.q a.tag stInvalidField 5)
      let d := match d.activity a.activity with
        | some x => releaseActivity x false d
        | none => d
      let d := resume { a with solo := a.solo || !d.cableUp } d
      let d := d.modTwin fun t => { t with act := none }
      .next { s with dev := d, flash := if a.plain then s.flash else programState s.flash (1 - a.oldBank) 1 }

/-! ### A warm reset by CRP_CTRL (R732) -/

/-- The write may be taken: the module is not paired, or a TWIN_SERVICE activity that names it is ADMITTED. -/
def Dev.crpAllowed (d : Dev) : Bool :=
  d.tstate != 5 || d.maint.acts.any fun a => a.kind == 5 && a.twin == d.twinSide && !a.active

/-- The activity under which a reset by CRP_CTRL runs; 65,535 for none. -/
def Dev.crpActivity (d : Dev) : Nat :=
  ((d.maint.acts.find? fun a => a.kind == 5 && a.twin == d.twinSide && !a.active).map (·.id)).getD 0xFFFF

/-- WARM written with its value (R732): R543 steps 1 to 5 run with the running image. While an activation runs, or the half is held in
reset, the trigger is discarded (R733). -/
def warmWrite (h : Half) (d : Dev) : Dev :=
  if !d.crpAllowed then d.set (CRP_STATUS.REFUSED h)
  else if d.twin.act.any (fun a => decide (a.step < 5)) || (d.pw .host).held || (d.pw .media).held then d
  else
    let id := d.crpActivity
    let d := actEnds d
    startActivation (d.modTwin fun t => { t with act := some ⟨noQueue, 0, 0, 0, false, d.image.bank, id⟩ })

end Sys2Proof.Machine
end

