-- ==== Sys2Proof/Machine/Views.lean ====
section
/-! DEFINITION. Register fields that show other state (R237, R339 to R343, R392, R393, R451 to R453, R496 to R499, R599, R600, R637, R743,
R782 to R788), and the value that a read of a register returns (R748). -/

namespace Sys2Proof.Machine

/-! ### The host half -/

/-- The stored part of GLB_STATUS is used while the Schrund does not carry the media half's state. -/
def Dev.glb (d : Dev) (f : Field) (live : Nat) : Nat := if d.schUp then live else d.rd f

/-- The slot that RIM_SLOT_SEL selects. -/
def Dev.selSlot (d : Dev) : KeySlot := d.slot (d.rd RIM_SLOT_SEL.SLOT)

/-- Fields of the host half that show other state; `e` is the endpoint of the BAR0. -/
def hostViews (e : Nat) : List (Field × (Dev → Nat)) :=
  [(GLB_ID.SIDE, fun d => d.twinSide),
   (GLB_ID.ENDPOINT, fun _ => e),
   (GLB_STATUS.MODE, fun d => d.glb GLB_STATUS.MODE d.mode),
   (GLB_STATUS.RELEASED, fun d => d.rd (CRP_STATUS.RELEASED .host)),
   (GLB_STATUS.PEER_DOWN, fun d => d.rd (SCH_STATUS.PEER_DOWN .host)),
   (GLB_STATUS.TWIN_STATE, fun d => d.glb GLB_STATUS.TWIN_STATE d.tstate),
   (GLB_STATUS.POOL_ONLINE, fun d =>
     d.glb GLB_STATUS.POOL_ONLINE (d.pools.foldl (fun v p => if p.2.online then setBit v p.1 true else v) 0)),
   (GLB_STATUS.FAULT, fun d =>
     b2n (d.fltSummary .host != 0 || d.glb GLB_STATUS.FAULT (b2n (d.fltSummary .media != 0)) != 0)),
   (GLB_STATUS.STORM, fun d =>
     b2n (d.is (FLT_STATUS.STORM .host) || d.glb GLB_STATUS.STORM (d.rd (FLT_STATUS.STORM .media)) != 0)),
   (GLB_TIMEBASE.TB, fun d => d.tbHost),
   (RIM_STATUS.ZEROIZE_BUSY, fun d => b2n ((d.schEnd .host).requests.any fun r => r.2 == .mailbox 0x12)),
   (RIM_SLOT_INFO.TYPE, fun d => d.selSlot.type),
   (RIM_SLOT_INFO.EXHAUSTED, fun d => b2n d.selSlot.exhausted),
   (RIM_SLOT_INFO.LEASED, fun d => b2n (d.selSlot.left != 0)),
   (RIM_SLOT_INFO.OWNER, fun d => (d.slotOwner (d.rd RIM_SLOT_SEL.SLOT)).getD 0),
   (RIM_SLOT_INFO.KEY_ID, fun d => d.selSlot.keyId)]

/-- The function that EPX_FUNC_SEL selects. -/
def Dev.selFn (d : Dev) (e : Nat) : Nat := 256 * e + d.rd (EPX_FUNC_SEL.FUNC e)

/-- Completion entries held for a function. -/
def Fn.heldCqes (f : Fn) : Nat :=
  (f.hold.filter fun i => match i with
    | .cqe _ _ => true
    | _ => false).length

/-- Fields of the EPX block of an endpoint. -/
def epViews (e : Nat) : List (Field × (Dev → Nat)) :=
  [(EPX_FUNC_STATE.HELD_BYTES e, fun d => (d.fn (d.selFn e)).heldBytes),
   (EPX_FUNC_STATE.HOLDING e, fun d => b2n (!d.is (CFG.BME (d.selFn e)) || (d.fn (d.selFn e)).d3)),
   (EPX_FUNC_STATE.FLR_BUSY e, fun d => b2n (d.fn (d.selFn e)).flr),
   (EPX_FUNC_STATE.D3HOT e, fun d => b2n (d.fn (d.selFn e)).d3),
   (EPX_FUNC_STATE.HOLD_OVER e, fun d => b2n (d.fn (d.selFn e)).holdOver),
   (EPX_FUNC_STATE.HELD_CPL e, fun d => (d.fn (d.selFn e)).heldCqes),
   (EPX_HOLD_POOL.POOL_BYTES e, fun d => d.poolBytes)]

/-- Fields of the ring registers of a function. -/
def fnViews (fn : Nat) : List (Field × (Dev → Nat)) :=
  [(RNG_AQ_CFG.ERROR fn, fun d =>
     b2n (d.is (RNG_AQ_CFG.ERROR fn) || ((d.adminOf fn).bind d.queue).any (·.error))),
   (RNG_EV_STATUS.SET fn, fun d => b2n (d.fn fn).ev.set),
   (RNG_EV_STATUS.TAIL fn, fun d => (d.fn fn).ev.tail),
   (RNG_EV_STATUS.HELD fn, fun d => (d.fn fn).ev.held.length)]

/-! ### Both halves -/

/-- Fields that both halves hold and that show other state. A count of an interval that is over shows 0 (R763, R788). -/
def halfViews (h : Half) (z : Fuses) : List (Field × (Dev → Nat)) :=
  [(CRP_FUSE.LIFECYCLE h, fun _ => z.lifecycle),
   (CRP_FUSE.SVN_FLOOR h, fun _ => z.svn),
   (CRP_FUSE.KEY_REVOKED h, fun _ => z.revoked),
   (CRP_FUSE.KEY_PRESENT h, fun _ =>
     (List.range 4).foldl (fun v n => if (z.hashes.getD n []).isEmpty then v else setBit v n true) 0),
   (FLT_LEDGER.RECORDS h, fun d => d.ledgerRecords h),
   (FLT_LEDGER.INTERVAL_NEW h, fun d => if (d.led h).interval = d.now h / ms then min (d.led h).fresh 65535 else 0)]

/-! ### The media half -/

/-- The newest dump that the slots hold. -/
def Dev.dumpField (d : Dev) (f : Nat × Dump → Nat) : Nat := ((d.newestDump fun _ => true).map f).getD 0

/-- What a pool shows; 0 for one that is not defined. -/
def Dev.poolField (d : Dev) (p : Nat) (f : Pool → Nat) : Nat := ((tget d.pools p).map f).getD 0

/-- The member that MNT_MEMBER_SEL selects. -/
def Dev.selMember (d : Dev) (f : Pool → Nat → PoolMember → Nat) : Nat :=
  let m := d.rd MNT_MEMBER_SEL.MEMBER
  d.poolField (d.rd MNT_MEMBER_SEL.POOL) fun x => ((tget x.members m).map (f x m)).getD 0

/-- The place of a member among the relocation entries. -/
def Pool.relocOf (x : Pool) (m : Nat) : Option Nat := x.relocs.findIdx? fun r => r.member == m

/-- What a namespace shows. -/
def Dev.nsField (d : Dev) (nsid : Nat) (f : Ns → Nat) : Nat :=
  ((tget d.nss nsid).map fun n => if n.deleted then 0 else f n).getD 0

/-- Clones between a namespace and the one that is no clone (R474). -/
def Dev.cloneDepth (d : Dev) (nsid : Nat) : Nat := (nsChain 9 nsid d).length - 1

/-- VRV_NS_INFO of a namespace (R497). -/
def nsInfoViews (nsid : Nat) : List (Field × (Dev → Nat)) :=
  [(VRV_NS_INFO.DEFINED, fun d => d.nsField nsid fun _ => 1),
   (VRV_NS_INFO.REPLICA, fun d => d.nsField nsid fun n => bits n.flags 0 1),
   (VRV_NS_INFO.READ_ONLY, fun d => d.nsField nsid fun n => bits n.flags 1 1),
   (VRV_NS_INFO.BSIZE16, fun d => d.nsField nsid fun n => b2n n.big),
   (VRV_NS_INFO.POOL, fun d => d.nsField nsid fun n => n.pool),
   (VRV_NS_INFO.DEPTH, fun d => d.nsField nsid fun _ => d.cloneDepth nsid),
   (VRV_NS_INFO.SNAPSHOTS, fun d => d.nsField nsid fun n => n.snaps.length),
   (VRV_NS_INFO.PARENT, fun d => d.nsField nsid fun n => (n.parent.map (·.1)).getD 0),
   (VRV_NS_INFO.KEY_OWNER, fun d => d.nsField nsid fun n => n.owner.getD 0)]

/-- Stripe slots of a pool in units of 4 KiB of data. -/
def Dev.slotUnits (d : Dev) (p : Nat) : Nat := d.poolField p fun x => x.k * x.stripLen / 4096

/-- Dead bytes of a pool's occupied stripes: DEDUCED, data capacity that holds no live object. -/
def Dev.deadBytes (d : Dev) (p : Nat) : Nat :=
  d.poolField p fun x => ((d.poolStripes p).map fun s => x.k * x.stripLen - d.liveBytes s.1).sum

/-- What the selected entry of the drive table shows (R637). -/
def Dev.selDrive (d : Dev) (f : Drive → Nat) : Nat := ((tget d.drives.table (d.rd DRV_SEL.INDEX)).map f).getD 0

/-- A drive's witness index + 1, or 0. -/
def Dev.witnessNo (d : Dev) (v : Drive) : Nat :=
  if v.nguid = 0 then 0 else ((d.twin.witness.findIdx? fun w => w.nguid == v.nguid).map (· + 1)).getD 0

/-- Fields of the Firn and Moraine blocks. -/
def firnViews : List (Field × (Dev → Nat)) :=
  [(FRN_SPACE.FREE_PAGES, fun d => d.freePages),
   (FRN_SPACE.FREE_SLOTS, fun d => d.freeSlots),
   (FRN_STATUS.SPACE_WAIT, fun d => b2n d.spaceWaits),
   (FRN_GROUPS.OPEN, fun d => (d.firn.groups.filter Group.live).length),
   (FRN_POOL_SEQ.SEQ, fun d => d.heldSeq (d.rd FRN_POOL_SEL.POOL)),
   (FRN_DUMP_INFO.SLOT, fun d => d.dumpField (·.1)),
   (FRN_DUMP_INFO.SEALED, fun d => d.dumpField fun e => b2n e.2.sealed),
   (FRN_DUMP_INFO.CONSUMED, fun d => d.dumpField fun e => b2n e.2.consumed),
   (FRN_DUMP_INFO.REASON, fun d => d.dumpField (·.2.reason)),
   (FRN_DUMP_INFO.SERIAL, fun d => d.dumpField fun e => e.2.serial % 2 ^ 48),
   (MOR_POOL_GEOM.GEOM, fun d => d.poolField (d.rd MOR_POOL_SEL.POOL) fun x => x.geometry % 2 ^ 24),
   (MOR_POOL_GEOM.DEFINED, fun d => d.poolField (d.rd MOR_POOL_SEL.POOL) fun _ => 1),
   (MOR_POOL_GEOM.SEED, fun d => d.poolField (d.rd MOR_POOL_SEL.POOL) (·.seed)),
   (MOR_POOL_STATE.SLOTS, fun d => d.poolField (d.rd MOR_POOL_SEL.POOL) (·.slots)),
   (MOR_POOL_STATE.SPARE_POS, fun d => d.poolField (d.rd MOR_POOL_SEL.POOL) (·.sparePos)),
   (MOR_POOL_STATE.RELOCS, fun d => d.poolField (d.rd MOR_POOL_SEL.POOL) (·.relocs.length)),
   (MOR_POOL_STATE.DIV_STRIPES, fun d =>
     (d.xmap.divLog.filter fun x => stripePool x.stripe == d.rd MOR_POOL_SEL.POOL).length)]

/-- Fields of the maintenance, Varve and drive blocks. -/
def maintViews : List (Field × (Dev → Nat)) :=
  [(MNT_POOL_PROG.LEVEL, fun d =>
     let p := d.rd MNT_POOL_SEL.POOL
     if (d.rebuildWork p).isEmpty then 7 else d.poolField p (·.level)),
   (MNT_POOL_PROG.MARGIN, fun d =>
     let p := d.rd MNT_POOL_SEL.POOL
     d.poolField p fun _ => marginField (d.synMargin p d.maint.acts) 3),
   (MNT_POOL_PROG.LOSTCNT, fun d => min 15 (d.lostMembers (d.rd MNT_POOL_SEL.POOL)).length),
   (MNT_POOL_PROG.ROW, fun d => d.poolField (d.rd MNT_POOL_SEL.POOL) (·.row)),
   (MNT_SCRUB_PROG.ROW, fun d => d.poolField (d.rd MNT_POOL_SEL.POOL) (·.scrub.row)),
   (MNT_SCRUB_PROG.ONDEMAND, fun d => d.poolField (d.rd MNT_POOL_SEL.POOL) fun x => b2n x.scrub.onDemand),
   (MNT_SCRUB_PROG.LATE, fun d => d.poolField (d.rd MNT_POOL_SEL.POOL) fun x => b2n x.scrub.late),
   (MNT_SCRUB_PROG.PASSES, fun d => d.poolField (d.rd MNT_POOL_SEL.POOL) fun x => x.scrub.passes % 65536),
   (MNT_MEMBER.STATE, fun d => d.selMember fun _ _ m => m.state),
   (MNT_MEMBER.RELOC, fun d => d.selMember fun x n _ => b2n (x.relocOf n).isSome),
   (MNT_MEMBER.RELOC_N, fun d => d.selMember fun x n _ => (x.relocOf n).getD 0),
   (MNT_MEMBER.CAUSE, fun d => d.selMember fun _ _ m => m.cause),
   (MNT_MEMBER.ACTIVITY, fun d => d.selMember fun _ n _ =>
     ((d.memberActivity (d.rd MNT_MEMBER_SEL.POOL) n).map (·.id)).getD 0),
   (VRV_STATUS.PRUNING, fun d => b2n (d.nss.any fun n => d.prunePending n.1)),
   (VRV_STATUS.COMPACTING, fun d => b2n (d.destages.any fun s => s.purpose == 2)),
   (VRV_STATUS.STREAMS, fun d => d.streams.length),
   (VRV_NS_LIVE.LIVE_BLOCKS, fun d => d.nsField (d.rd VRV_NS_SEL.NSID) fun _ => d.liveBlocks (d.rd VRV_NS_SEL.NSID)),
   (VRV_NS_RETAINED.RETAINED_BLOCKS, fun d =>
     d.nsField (d.rd VRV_NS_SEL.NSID) fun _ => d.retainedBlocks (d.rd VRV_NS_SEL.NSID)),
   (VRV_POOL_FREE.FREE, fun d => (d.slotCount (d.rd VRV_POOL_SEL.POOL)).2 * d.slotUnits (d.rd VRV_POOL_SEL.POOL)),
   (VRV_POOL_DEAD.DEAD, fun d => d.deadBytes (d.rd VRV_POOL_SEL.POOL) / 4096)]

/-- Fields of DRV_INFO. -/
def driveViews : List (Field × (Dev → Nat)) :=
  [(DRV_INFO.STATE, fun d => d.selDrive (·.state)),
   (DRV_INFO.REASON, fun d => d.selDrive (·.reason)),
   (DRV_INFO.PORT, fun d => d.selDrive (·.port)),
   (DRV_INFO.SUBLINK, fun d => d.selDrive (·.sub)),
   (DRV_INFO.SPEED, fun d => d.selDrive (·.speed)),
   (DRV_INFO.WIDTH, fun d => d.selDrive (·.width)),
   (DRV_INFO.POOL, fun d => d.selDrive (·.pool)),
   (DRV_INFO.MEMBER, fun d => d.selDrive (·.member)),
   (DRV_INFO.WITNESS, fun d => d.selDrive d.witnessNo),
   (DRV_INFO.GEN, fun d => d.selDrive (·.gen))]

/-! ### Reading (R748) -/

/-- The value of a field among views; a field that triggers reads 0 (R8). -/
def Dev.viewed (d : Dev) (v : List (Field × (Dev → Nat))) (f : Field) : Nat :=
  match v.find? fun x => x.1 == f with
  | some x => x.2 d % 2 ^ f.width
  | none => if f.acc = .wo then 0 else d.rd f

/-- A register's value: each field at its place. Reserved bits read 0 (R6). -/
def Reg.value (r : Reg) (of : Field → Nat) : Nat := r.fields.foldl (fun v f => v + of f * 2 ^ f.lsb) 0

/-- The views of a register of the host half in the BAR0 of a PF or in a window of a VF. -/
def hostRegViews (e fn : Nat) (z : Fuses) (r : Reg) : List (Field × (Dev → Nat)) :=
  if r.off < 0x100000 then hostViews e
  else if r.off < 0x200000 then fnViews fn
  else if r.off < 0xc00000 then hostViews e
  else if r.off < 0xf00000 then halfViews .host z
  else epViews e

/-- The views of a register of the media half. -/
def mediaRegViews (z : Fuses) (d : Dev) (r : Reg) : List (Field × (Dev → Nat)) :=
  if r.off < 0x700000 then firnViews
  else if r.off = regVRV_NS_INFO.off then nsInfoViews (d.rd VRV_NS_SEL.NSID)
  else if r.off < 0x900000 then maintViews
  else if 0xb00000 ≤ r.off ∧ r.off < 0xc00000 then driveViews
  else halfViews .media z

/-- The value of a register in the BAR0 of the PF of endpoint `e`. -/
def readPf (z : Fuses) (e : Nat) (d : Dev) (r : Reg) : Nat := r.value (d.viewed (hostRegViews e (256 * e) z r))

/-- The value of a register of the media management space. -/
def readMedia (z : Fuses) (d : Dev) (r : Reg) : Nat := r.value (d.viewed (mediaRegViews z d r))

end Sys2Proof.Machine
end

