-- ==== Sys2Proof/Machine/Nunatak.lean ====
section
/-! DEFINITION. The Nunatak (R773 to R777): the watchdog, the mailbox, last-gasp records and new epochs by command, and the events of the
fault ledger that wait for their time (R763, R770). -/

namespace Sys2Proof.Machine

/-! ### Who writes FLT and HLD registers -/

/-- A path writes the FLT registers of a half (R752, R774, R778, R781): those of the host half any PF. -/
def fltWriter (h : Half) (p : Path) : Bool :=
  match h, p with
  | .host, .pf e => decide (e < 4)
  | .host, .i3c .host => true
  | .media, .feature fn => fn == 0
  | .media, .i3c .media => true
  | _, .firmware x => x == h
  | _, _ => false

/-! ### The holdup pack's disconnect (R703) -/

/-- A HOLDUP_SERVICE activity that names this module is ADMITTED (R428, R703). -/
def Dev.holdupActivity (d : Dev) : Option Activity :=
  d.maint.acts.find? fun a => a.kind == 6 && a.twin == d.twinSide && !a.active

/-- D15Ch (R703): it needs an ADMITTED activity, which becomes ACTIVE, except through the I3C port. -/
def packDisconnectCmd (p : Path) (d : Dev) : Dev :=
  if d.dumpRuns then d
  else match p with
    | .i3c _ => packDisconnect d
    | _ =>
      if d.holdupActivity.isNone then d.set HLD_STATUS.REFUSED else packDisconnect (activateTwin 6 d.twinSide d)

/-- HLD_DISCONNECT (R703). -/
def execHldDisconnect (path : Path) (s : State) : Host.Outcome State Fault Refusal :=
  s.ok (s.dev.when (mediaWriter path) (packDisconnectCmd path))

/-! ### The watchdog (R774) -/

/-- 6D0Bh written to KICK: the watchdog is armed from the first kick on. -/
def wdogKick (h : Half) (d : Dev) : Dev := if (d.pw h).halted || (d.pw h).held then d else d.set (FLT_WDOG.ARMED h)

/-- WDOG_KICK (R774, R787). -/
def execWdogKick (path : Path) (half : Half) (s : State) : Host.Outcome State Fault Refusal :=
  s.ok (s.dev.when (fltWriter half path) (wdogKick half))

/-- WATCHDOG_EXPIRY (R774): the host half's ends of the Schrund fall silent; the media half fences, and dumps where it was not PAIRED. -/
def execWatchdogExpiry (half : Half) (s : State) : Host.Outcome State Fault Refusal :=
  s.ok <|
    let d := s.dev
    if !d.is (FLT_WDOG.ARMED half) || (d.pw half).halted || (d.pw half).held then d
    else
      let d := (d.clr (FLT_WDOG.ARMED half)).set (FLT_STATUS.WEDGED half)
      let ev (d : Dev) : Dev := match half with
        | .host => devEvent evWedged 0 d
        | .media => mediaEvent evWedged 1 d
      let d := fault half 8 0 1 false (ev d)
      let d := d.modPw half fun p => { p with halted := true }
      match half with
      | .host => d.modSch .host fun l => { l with tx := { l.tx with stopped := true } }
      | .media => let paired := d.tstate == 5; (fenceFree d).when (!paired) (startDump 3)

/-! ### FLT_CTRL (R761, R766, R787) and the ledger's times -/

/-- NEW_EPOCH (R761). -/
def execNewEpoch (path : Path) (half : Half) (s : State) : Host.Outcome State Fault Refusal :=
  s.ok (s.dev.when (fltWriter half path) (newEpoch half))

/-- FLT_LAST_GASP (R766, R787). -/
def execFltLastGasp (path : Path) (half : Half) (s : State) : Host.Outcome State Fault Refusal :=
  s.ok (s.dev.when (fltWriter half path) (lastGasp half))

/-- STORM_INTERVAL_END (R763): the interval of 1 ms that was counted in ends. -/
def execStormIntervalEnd (half : Half) (s : State) : Host.Outcome State Fault Refusal :=
  s.ok (rollInterval half (max ((s.dev.led half).interval + 1) (s.dev.now half / ms) * ms) s.dev)

/-- FAULT_EVENT_DEFERRED (R770): 100 µs after a source's previous event, the reports gathered since post one event. -/
def execFaultEventDeferred (half : Half) (source : Nat) (s : State) : Host.Outcome State Fault Refusal :=
  s.ok <|
    let d := s.dev
    match tget (d.led half).ev source with
    | none => d
    | some e =>
      if e.gathered = 0 then d
      else
        let e' := { e with gathered := 0, sev := bits e.code 12 4, last := max (d.now half) (e.last + 100 * us) }
        sendFaultEvent half source e.code e.gathered e.summary e.twin (d.modLed half fun l => { l with ev := tput l.ev source e' })

/-! ### The mailbox (R776, R777) -/

/-- The KEY that OPs from 10h on need. -/
def mbxKey : Nat := 0x4E5A

/-- The OPs of the mailbox. -/
def mbxOps : List Nat := [1, 2, 0x10, 0x11, 0x12, 0x13, 0x14]

/-- FRN_STATUS as one value (R339). -/
def Dev.frnStatus (d : Dev) : Nat := regFRN_STATUS.value (d.viewed [])

/-- GLB_STATUS as one value (R782). -/
def Dev.glbStatus (d : Dev) : Nat := regGLB_STATUS.value (d.viewed (hostViews 0))

/-- What the media-half Nunatak does for an OP, and RESP; `incl` is ARG bit 0. -/
def mbxMedia (op : Nat) (incl : Bool) (d : Dev) : Nat × Dev :=
  match op with
  | 2 => (d.fltStatus .media + 2 ^ 32 * d.frnStatus, d)
  | 0x10 => (0, startDump 3 d)
  | 0x11 => (0, fenceFree d)
  | 0x12 => (0, zeroize incl false true d)
  | 0x13 => (0, packDisconnect d)
  | 0x14 => (0, lastGasp .media d)
  | _ => (0, d)

/-- A command that the host-half Nunatak took: OPs of the media half go over the Schrund as management requests. -/
def mbxRun (op arg : Nat) (d : Dev) : Dev :=
  let ask (d : Dev) : Dev :=
    if d.peerDown .host || !d.is (SCH_STATUS.UP .host) then mbxEnd 2 0 d
    else schAsk .host (.mailbox op) ⟨noQueue, 0, 0, 0, [op, arg % 2], []⟩ d
  match op with
  | 1 => mbxEnd 0 (d.glbStatus + 2 ^ 32 * d.fltStatus .host) d
  | 0x12 => ask (zeroize (bit arg 0) true false d)
  | 0x14 => mbxEnd 0 0 (lastGasp .host d)
  | _ => ask d

/-- The endpoint number that stands for the host half's I3C port. -/
def mbxPort : Nat := 4

/-- A mailbox command of the PF of an endpoint, or of the I3C port: while one runs, a CMD write is discarded; a wrong KEY, an OP that is not
one of R776 and an OP that the PF may not issue are refused (R777). -/
def mbxCmd (e op key arg : Nat) (d : Dev) : Dev :=
  if d.mbx.isSome || !(d.pw .host).vaon then d
  else
    let d := { d with mbx := some (op, e) }
    let d := d.when (e != mbxPort) fun d => (d.wr FLT_MBX_STATUS.LAST_OP op).set FLT_MBX_STATUS.BUSY
    if !mbxOps.contains op || (decide (0x10 ≤ op) && (key != mbxKey || (e != 0 && e != mbxPort))) then mbxEnd 1 0 d
    else mbxRun op arg d

/-- A CMD write of a PF with the operand in FLT_MBX_ARG. -/
def mbxWrite (e op key : Nat) (d : Dev) : Dev := if 4 ≤ e then d else mbxCmd e op key (d.rd FLT_MBX_ARG.ARG) d

/-- MBX_STATUS (R776). -/
def execMbxStatus (ep key : Nat) (s : State) : Host.Outcome State Fault Refusal := s.ok (mbxWrite ep 1 key s.dev)

/-- MBX_MEDIA_STATUS (R776). -/
def execMbxMediaStatus (ep key : Nat) (s : State) : Host.Outcome State Fault Refusal := s.ok (mbxWrite ep 2 key s.dev)

/-- MBX_DUMP (R331, R776). -/
def execMbxDump (ep key : Nat) (s : State) : Host.Outcome State Fault Refusal := s.ok (mbxWrite ep 0x10 key s.dev)

/-- MBX_FENCE (R527, R776). -/
def execMbxFence (ep key : Nat) (s : State) : Host.Outcome State Fault Refusal := s.ok (mbxWrite ep 0x11 key s.dev)

/-- MBX_ZEROIZE (R230, R231, R776). -/
def execMbxZeroize (ep key : Nat) (s : State) : Host.Outcome State Fault Refusal := s.ok (mbxWrite ep 0x12 key s.dev)

/-- MBX_PACK_DISCONNECT (R703, R776). -/
def execMbxPackDisconnect (ep key : Nat) (s : State) : Host.Outcome State Fault Refusal := s.ok (mbxWrite ep 0x13 key s.dev)

/-- MBX_LAST_GASP (R766, R776). -/
def execMbxLastGasp (ep key : Nat) (s : State) : Host.Outcome State Fault Refusal := s.ok (mbxWrite ep 0x14 key s.dev)

/-! ### Management requests and replies (R20, R204, R266) -/

/-- A link key reaches the media half still wrapped (R204): it is unwrapped under the copy of the device key there, by the link cipher (R818). -/
def linkKeyAsked (id : Nat) (m : Msg) (d : Dev) : Dev :=
  let (v, d) := linkCompare (m.data.length - 8) d
  if v = 2 then schReply .media id [2] [] d
  else match d.rime.devMedia.bind fun kek => (kwUnwrap kek m.data).filter fun b => blobOk b 4 linkSlot with
  | none => schReply .media id [1] [] d
  | some b =>
    let f := blobFields b
    schReply .media id [0] [] (d.modRime fun r => { r with linkKey := some (f.2.2.1, f.2.2.2) })

/-- MANAGEMENT_REQUEST (R20, R204, R266, R776): `id` is its MSG_ID. The layout of its body is the module's own (R251): the first operand is
the opcode of the packet or the OP of the mailbox. A half that is asked for anything else finds the message invalid. An answer goes before
what stops the Schrund. -/
def execManagementRequest (half : Half) (id : Nat) (req : Msg) (s : State) : Host.Outcome State Fault Refusal :=
  schTurn half .mgmtRequest req s fun s => s.ok <|
    let d := s.dev
    let op := req.args.headD 0
    if !d.is (SCH_STATUS.UP half) then d
    else if half = .host then rejectSch half d
    else if req.q ≠ noQueue then
      (if op = 0x89 ∧ (d.waiting req [0x89]).isSome then linkKeyAsked id req d else rejectSch half d)
    else if ! [2, 0x10, 0x11, 0x12, 0x13].contains op then rejectSch half d
    else
      let incl := req.args.getD 1 0 == 1
      (mbxMedia op incl (schReply .media id [0] (leBytes 8 (mbxMedia op incl d).1) d)).2

/-- MANAGEMENT_REPLY (R204, R266, R776): `id` is the MSG_ID of the request it answers. A link key whose two unwraps succeeded is placed. -/
def execManagementReply (half : Half) (id status : Nat) (data : Bytes) (s : State) : Host.Outcome State Fault Refusal :=
  schTurn half .mgmtReply ⟨noQueue, 0, id, 0, [status], data⟩ s fun s => s.ok <|
    let d := s.dev
    if !d.is (SCH_STATUS.UP half) then d
    else match (d.schEnd half).requests.find? fun r => r.1 == id with
      | none => rejectSch half d
      | some (_, what) =>
        let d := d.modSch half fun l => { l with requests := l.requests.filter fun r => r.1 != id }
        match what with
        | .mailbox _ => mbxEnd (if status = 0 then 0 else 4) (getLe data 0 8) d
        | .cmd q tag =>
          match (d.queue q).bind fun x => (x.cmd tag).map fun c => (x, c) with
          | none => d
          | some (x, c) =>
            if d.is RIM_STATUS.ZEROIZED then failCmd q tag stZeroized (d.modRime fun r => { r with linkKey := none })
            else if status = 2 then failCmd q tag stCipherCompare d
            else if status ≠ 0 then failCmd q tag stUnwrapFailed (d.bump RIM_CNT_UNWRAP_FAIL.COUNT 1)
            else
              let f := blobFields c.host
              settle (loadSlot x.fn linkSlot 4 f.2.2.1 f.2.2.2 q tag d)

end Sys2Proof.Machine
end

