-- ==== Sys2Proof/Machine/Power.lean ====
section
/-! DEFINITION. Power, reset and start-up (R713 to R736): what a cold reset clears, what triggers it, and the steps from power-good to
release. -/

namespace Sys2Proof.Machine

/-! ### What a cold reset clears (R10, R729 to R731) -/

/-- The register space of an entry of the register table. -/
def regSpace (k : Nat) : Nat := k / 64 / 2 ^ 28

/-- The offset of an entry of the register table. -/
def regOff (k : Nat) : Nat := k / 64 % 2 ^ 28

/-- A register entry that a cold reset of a half keeps (R729, R745): those of the other half, CRP_CNT_COLD, and the gauge's. -/
def coldKeeps (h : Half) (k : Nat) : Bool :=
  k == (CRP_CNT_COLD.COUNT h).key ||
    (match h with
    | .host => regSpace k == 1
    | .media => regSpace k != 1 || (decide (0xE00000 ≤ regOff k) && decide (regOff k < 0xF00000)))

/-- A half's ledger after its cold reset: only what the Nunatak retains stays (R761, R766). -/
def Ledger.cold (l : Ledger) : Ledger := { Ledger.empty with gaspSeq := l.gaspSeq, gasps := l.gasps }

/-- What a cold reset of a half clears on either half: registers, its end of the Schrund, its ledger, its thermal state. -/
def clearCommon (h : Half) (d : Dev) : Dev :=
  let keep (e : Nat × Nat) : Bool := coldKeeps h e.1
  let lossOnly (l : Link) : Link := { Link.fresh with rx := { Link.fresh.rx with losses := l.rx.losses } }
  let d := { d with regs := d.regs.filter keep, sch := tput d.sch (halfNum h) (lossOnly (d.schEnd h)) }
  let d := d.modLed h Ledger.cold
  { d with thermal := tput d.thermal (halfNum h) { Thermal.fresh with tj := ((tget d.thermal (halfNum h)).getD Thermal.fresh).tj } }

/-- What a cold reset of the host half clears (R55, R139, R196, R218, R493, R730). -/
def clearHost (d : Dev) : Dev :=
  let d := clearCommon .host (closeStreams (fun _ => true) d)
  let mediaArb (e : Nat × Arb) : Bool := decide (e.1 = 2 ∨ e.1 = 3 ∨ e.1 = 49 ∨ 64 ≤ e.1 ∧ e.1 < 128 ∨ 144 ≤ e.1)
  let freshEp (e : Nat × Endpoint) : Nat × Endpoint := (e.1, { e.2 with ide := [] })
  { d with
    tbHost := 0
    clocks := { d.clocks with markSeq := 0 }
    rings := Dev.reset.rings
    arbs := d.arbs.filter mediaArb
    fns := []
    eps := d.eps.map freshEp
    ingest := Dev.reset.ingest
    rime := { d.rime with slots := [], pending := [], requests := 0, reseedDue := false, drbg := d.rime.drbg + 1 }
    floe := ⟨d.floe.chans.filter fun (e : Nat × Chan) => decide (128 ≤ e.1), tdel d.floe.last 0,
      d.floe.lines.filter (fun (e : Nat × Nat) => decide (64 ≤ e.1)), d.floe.regWrites.filter fun (w : Half × Nat × Bytes) => w.1 == Half.media⟩
    staging := Dev.reset.staging
    twin := { d.twin with asked := [] }
    firn := { d.firn with asks := [] }
    mbx := none }

/-- A pool after a cold reset of the media half: its geometry and its record on the drives stay; no drive is bound. -/
def Pool.cold (x : Pool) : Pool :=
  let one (e : Nat × PoolMember) : Nat × PoolMember := (e.1, { e.2 with
    drive := none, timeouts := [], readErrs := [], identErrs := [], abandons := [], pathLost := false, absentSince := none, checked := [],
    tried := [] })
  { x with members := x.members.map one, online := false, jobs := [], scrub := { x.scrub with passes := 0, late := false, onDemand := false, activity := 0, redo := [] } }

/-- What a cold reset of the media half clears. The extent map cache goes (R16); the map log, the headers of the stripes, the pools, the
namespaces and the configuration blocks stand on the drives, the dumps and the last-gasp ring in the dump flash, and the gauge is outside the
reset (R729). -/
def clearMedia (d : Dev) : Dev :=
  let noLosses (l : Link) : Link := { l with rx := { l.rx with losses := [] } }
  let d := ((clearCommon .media d).modSch .media noLosses).modSch .host noLosses
  let hostArb (e : Nat × Arb) : Bool := !decide (e.1 = 2 ∨ e.1 = 3 ∨ e.1 = 49 ∨ 64 ≤ e.1 ∧ e.1 < 128 ∨ 144 ≤ e.1)
  let cold (e : Nat × Pool) : Nat × Pool := (e.1, e.2.cold)
  let held (e : MapEntry) : Bool := d.firn.recs.any fun x => x.2.pool == e.record.pool && x.2.seq == e.record.seq
  let written (e : MapEntry) : MapEntry := { e with onDrives := e.onDrives || !held e }
  let lost (w : Witness) : Witness := { w with good := false }
  let ws := d.twin.witness.map lost
  let d := { d with
    tbMedia := 0
    clocks := { Dev.reset.clocks with markSeq := d.clocks.markSeq }
    arbs := d.arbs.filter hostArb
    snow := Link.fresh
    firn := { Dev.reset.firn with
      next := d.firn.next, chainOf := d.firn.chainOf, appliedTo := d.firn.appliedTo, held := d.firn.held, dumps := d.firn.dumps,
      serials := d.firn.serials, nonces := d.firn.nonces, nextLocal := d.firn.nextLocal }
    ctxs := []
    xmap := { Dev.reset.xmap with stripes := d.xmap.stripes }
    mapLog := d.mapLog.map written
    destages := []
    reads := []
    pools := d.pools.map cold
    maint := ⟨[], d.maint.serial, []⟩
    streams := []
    twin := { Twin.fresh with cold := true, witness := ws, window := d.twin.window }
    ingest := { d.ingest with marksRead := false }
    drives := { Dev.reset.drives with windows := tkeys d.pools }
    floe := ⟨d.floe.chans.filter fun (e : Nat × Chan) => decide (e.1 < 128), tdel d.floe.last 1,
      d.floe.lines.filter (fun (e : Nat × Nat) => decide (e.1 < 64)), d.floe.regWrites.filter fun (w : Half × Nat × Bytes) => w.1 == Half.host⟩
    rime := { d.rime with linkKey := none }
    schLock := false }
  let d := syncHome (d.put FRN_STATUS.DUMP_READY (d.is HLD_STATUS.DUMP_READY))
  d.emits ((List.range 8).map fun p => .pin (perstName p) false)

/-- A cold reset ends a warm reset or an activation under way (R733). -/
def endAct (d : Dev) : Dev :=
  match d.twin.act with
  | none => d
  | some a =>
    let d := d.modTwin fun t => { t with act := none }
    let d := d.when (d.tstate == 7) fun d => d.wr TWN_STATUS.STATE (b2n d.cableUp)
    match d.activity a.activity with
    | some x => releaseActivity x false d
    | none => d

/-- The cold reset of a half takes effect (R729, R730, R745): the half is held until its start-up. -/
def coldReset (h : Half) (d : Dev) : Dev :=
  let d := endAct (keepGlb d)
  let d := match h with
    | .host => clearHost d
    | .media => clearMedia d
  (d.bump (CRP_CNT_COLD.COUNT h) 1).modPw h fun p => { p with held := true, coldPending := false, stopped := false, halted := false }

/-! ### What triggers it (R714, R729, R731, R733) -/

/-- A cold reset of a half is triggered: with records in Firn the media half first runs a dump, and during a dump it waits for the dump's
end (R731). A half that is held already is not reset again (R733). -/
def triggerCold (h : Half) (d : Dev) : Dev :=
  if (d.pw h).held then d
  else match h with
    | .host => coldReset .host d
    | .media =>
      let wait (d : Dev) : Dev := d.modPw .media fun p => { p with coldPending := true }
      if d.firn.dumping.isSome then wait d
      else if d.firn.recs.isEmpty then coldReset .media d
      else wait (startDump 3 d)

/-- COLD_RST_PIN (R729, R739, R803): the pin of a half was low for 10 µs or more. -/
def execColdRstPin (half : Half) (s : State) : Host.Outcome State Fault Refusal :=
  s.ok <| triggerCold half (s.dev.modPw half fun p => { p with tripPulsed := p.tripped })

/-- PWRGD_H_DEASSERT (R714): the host half is held in cold reset while PWRGD_H is low. -/
def execPwrgdHDeassert (s : State) : Host.Outcome State Fault Refusal :=
  s.ok <| triggerCold .host (s.dev.modPw .host fun p => { p with pwrgd := false, tripPulsed := p.tripped })

/-- PWRGD_M_DEASSERT (R331, R714): a media half that runs starts the dump, and the cold reset follows it. -/
def execPwrgdMDeassert (s : State) : Host.Outcome State Fault Refusal :=
  s.ok <|
    let d := s.dev.modPw .media fun p => { p with pwrgd := false, tripPulsed := p.tripped }
    if (d.pw .media).held then d
    else if d.is (CRP_STATUS.RELEASED .media) || d.firn.dumping.isSome then
      (startDump 1 d).modPw .media fun p => { p with coldPending := true }
    else coldReset .media d

/-- DUMP_END (R332, R700, R731): the seal is written and the pack disconnected; a cold reset that waited takes effect. -/
def execDumpEnd (s : State) : Host.Outcome State Fault Refusal :=
  s.ok <|
    let d := s.dev
    if d.firn.dumping.isNone then d
    else
      let d := endDump d
      if (d.pw .media).coldPending then coldReset .media d else d

/-- The Nunatak of a half loses its supply too: its retained memory is lost, and on the media half the gauge stands still (R714, R729). -/
def railLoss (h : Half) (d : Dev) : Dev :=
  let d := match h with
    | .host => coldReset .host d
    | .media => (coldReset .media (cutDump d)).modGauge fun g => { g with gap := true }
  let d := d.clr (CRP_CNT_COLD.COUNT h)
  let d := d.when (h == .host) fun d => d.modLed .host fun _ => Ledger.empty
  d.modPw h fun p => { p with vaon := false, tripped := false, tripPulsed := false }

/-- ALWAYS_ON_RAIL_LOSS (R714): VAON of a half leaves its range; a dump that runs ends without its seal. -/
def execAlwaysOnRailLoss (half : Half) (s : State) : Host.Outcome State Fault Refusal := s.ok (railLoss half s.dev)

/-- POWER_ON (R704, R729): VAON of a half rises into its range. Only boot flash, dump flash, the gauge EEPROM and the fuses are kept. -/
def execPowerOn (half : Half) (s : State) : Host.Outcome State Fault Refusal :=
  s.ok <|
    let d := s.dev
    if (d.pw half).vaon && !(d.pw half).held then d
    else
      let d := (railLoss half d).modPw half fun p => { p with vaon := true, ports := ⟨false, .idcode⟩ }
      match half with
      | .host => d
      | .media =>
        let hld (e : Nat × Nat) : Bool := regSpace e.1 == 1
        gaugeStart { d with
          regs := d.regs.filter fun e => !hld e,
          gauge := { Gauge.fresh with eeprom := d.gauge.eeprom, absent := d.gauge.absent } }

/-! ### Reset by CRP_CTRL (R732) -/

/-- COLD written with its value. -/
def coldWrite (h : Half) (d : Dev) : Dev :=
  if !d.crpAllowed then d.set (CRP_STATUS.REFUSED h)
  else triggerCold h (activate d.crpActivity d)

/-- A path writes the CRP registers of a half (R741). -/
def crpWriter (p : Path) : Half → Bool
  | .host => p == .pf 0 || p == .i3c .host
  | .media => mediaWriter p

/-- CRP_CTRL written (R732): a write that carries both values acts on COLD only. -/
def crpCtrlWrite (h : Half) (value : Nat) (d : Dev) : Dev :=
  if bits value 0 16 = 0x0C1D then coldWrite h d
  else if bits value 16 16 = 0x3A7E then warmWrite h d
  else d

/-- CRP_COLD (R732). -/
def execCrpCold (path : Path) (half : Half) (s : State) : Host.Outcome State Fault Refusal :=
  s.ok (if crpWriter path half then crpCtrlWrite half 0x0C1D s.dev else s.dev)

/-- CRP_WARM (R732). -/
def execCrpWarm (path : Path) (half : Half) (s : State) : Host.Outcome State Fault Refusal :=
  s.ok (if crpWriter path half then crpCtrlWrite half 0x3A7E0000 s.dev else s.dev)

/-! ### Start-up (R716, R717, R725 to R728) -/

/-- The value of a pair for a half. -/
def ofHalf {α : Type} (p : α × α) : Half → α
  | .host => p.1
  | .media => p.2

/-- Start-up of a half stops with a cause (R727). -/
def startFail (h : Half) (cause : Nat) (d : Dev) : Dev :=
  (fault h 7 0 cause false (d.wr (CRP_STATUS.START_FAIL h) cause)).modPw h fun p => { p with stopped := true }

/-- A half is starting: out of its cold reset, not stopped, not yet released. -/
def Dev.starting (d : Dev) (h : Half) : Bool := !(d.pw h).held && !(d.pw h).stopped && !d.is (CRP_STATUS.RELEASED h)

/-- A half runs or starts: it can take part in the Schrund handshake. -/
def Dev.upHalf (d : Dev) (h : Half) : Bool :=
  !(d.pw h).held && !(d.pw h).stopped && (h == .host || d.firn.dumping.isNone)

/-- Every starting half stops with a cause. -/
def failStarting (cause : Nat) (d : Dev) : Dev :=
  d.each [Half.host, Half.media] fun d h => d.when (d.starting h) (startFail h cause)

/-- STAGE of the starting halves. -/
def stageStarting (n : Nat) (d : Dev) : Dev :=
  d.each [Half.host, Half.media] fun d h => d.when (d.starting h) fun d => d.wr (CRP_STATUS.STAGE h) n

/-- Step 1 of a half whose cold reset ends: its straps are sampled and its fuses loaded (R716, R717, R734). -/
def startFuses (f : Fuses) (x : StartFacts) (h : Half) (d : Dev) : Dev :=
  let d := d.modPw h fun p => { p with held := false, pwrgd := true, tripped := false, tripPulsed := false }
  let side := ofHalf x.side h % 2
  let slot := ofHalf x.slot h % 16
  let d := { d with straps := tput (tput d.straps (2 * halfNum h) side) (2 * halfNum h + 1) slot, serial := f.serial }
  let d := ((d.wr (CRP_STATUS.SIDE h) side).wr (CRP_STATUS.POOL_SLOT h) slot).when (h == .host) fun d =>
    (d.set (CRP_STATUS.REF_OK .host)).set (CRP_STATUS.PLL_LOCK .host)
  let d := d.when (h == .media) gaugePowerGood
  if ofHalf x.parity h then d.wr (CRP_STATUS.STAGE h) 1 else startFail h 2 d

/-- Steps 2 and 3 of the host half: an image is chosen and checked (R721, R723). -/
def startImage (m : List Host.Cell) (f : Fuses) (d : Dev) : Dev :=
  let bad (k : Nat) (d : Dev) : Dev := d.set (if k = 0 then CRP_STATUS.BANK_A_BAD .host else CRP_STATUS.BANK_B_BAD .host)
  let run (k stage : Nat) (d : Dev) : Dev := (d.wr (CRP_STATUS.BANK .host) k).wr (CRP_STATUS.STAGE .host) stage
  match preferredBank m with
  | none => startFail .host 3 (bad 1 (bad 0 d))
  | some k =>
    if imageValid f (bankImage m k) then run k 2 d
    else if imageValid f (bankImage m (1 - k)) then run (1 - k) 3 (bad k d)
    else startFail .host 3 (bad (1 - k) (bad k d))

/-- Step 4 of a half: its HBM trains. -/
def startHbm (x : StartFacts) (h : Half) (d : Dev) : Dev :=
  if (d.pw h).stopped then d
  else if ofHalf x.hbm h then d.wr (CRP_STATUS.STAGE h) 4
  else startFail h 4 d

/-- A direction of the Schrund after training (R242): 18 lanes in service and two spares of those that locked. -/
def trainedLanes (l : List Nat) : List Nat × List Nat := (l.take 18, (l.drop 18).take 2)

/-- The lanes that locked, in rising order without repeats. -/
def lockedLanes (l : List Nat) : List Nat := (List.range 20).filter fun n => l.contains n

/-- The lanes that a direction is trained with: those that its receiver, half `h`, has retired are never trained again (R262). -/
def Dev.trainable (d : Dev) (h : Half) (locked : List Nat) : List Nat := locked.filter fun n => !(d.schEnd h).retired.contains n

/-- One end of the Schrund after training with the lanes it sends on and those it receives on (R242, R271): lanes in service bear the logical
numbers 0 on, frames and messages count from 0; how often its lanes were lost stays known (R262). -/
def trainedEnd (old : Link) (tx rx : List Nat) (now : Nat) : Link :=
  let t := trainedLanes tx
  { Link.fresh with
    tx := { Link.fresh.tx with lanes := t.1, nums := t.1.zipIdx, spares := t.2 },
    rx := { Link.fresh.rx with
      losses := old.rx.losses, locked := rx, lanes := rx.take 18, width := (rx.take 18).length, lastGood := now } }

/-- The Schrund comes up with the lanes that locked (R242, R271). -/
def schUpWith (h2m m2h : List Nat) (d : Dev) : Dev :=
  let host := trainedEnd (d.schEnd .host) h2m m2h d.tbHost
  let media := trainedEnd (d.schEnd .media) m2h h2m d.tbMedia
  let d := { d with sch := tput (tput d.sch 0 host) 1 media }
  let d := d.each [Half.host, Half.media] fun d h => (d.set (SCH_STATUS.UP h)).clr (SCH_STATUS.PEER_DOWN h)
  let d := (markRetired .host (d.schEnd .host).retired d)
  syncSch (markRetired .media (d.schEnd .media).retired d)

/-- Step 6 of the host half: the noise source, the configuration header, the BAR sizes and the option ROM (R139, R227, R561, R725). -/
def startHost (m : List Host.Cell) (f : Fuses) (x : StartFacts) (d : Dev) : Dev :=
  if !d.starting .host then d
  else
    let bank := d.rd (CRP_STATUS.BANK .host)
    let b := bankImage m bank
    let p := profileOf b ((tget d.straps 1).getD 0)
    let d := { d with image := imageOf b bank p.2 }
    let d := d.wr (CRP_STATUS.PROFILE .host) p.1
    let d := if x.noise then d.set RIM_STATUS.ENTROPY_OK else noiseFail d
    let d := (d.put RIM_STATUS.DEVKEY_PRESENT d.rime.devHost.isSome).wr RIM_STATUS.DEVKEY_POS (d.rime.used - b2n d.rime.devHost.isSome)
    d.when (f.lifecycle == 3) (zeroize true true true)

/-- The pack parameters are known (R685). DEDUCED: a pack change declared before that takes them now, and Q_REM is then found as after a gap. -/
def packRated (d : Dev) : Dev :=
  if d.rd HLD_CHARGE.Q_FULL = 0 then packChange (d.modGauge fun g => { g with gap := true }) else reserveUpdate d

/-- Step 7 of the media half: the root ports train, the dump slots are read and the pack parameters loaded (R334, R623, R685, R792). -/
def startMedia (m : List Host.Cell) (d : Dev) : Dev :=
  if !d.starting .media then d
  else
    let p := profileOf (bankImage m d.image.bank) ((tget d.straps 3).getD 0)
    let d := ((d.wr (CRP_STATUS.BANK .media) d.image.bank).wr (CRP_STATUS.PROFILE .media) p.1).wr TWN_STATUS.SIDE d.twinSide
    let d := d.each (List.range 8) fun d i => d.wr (DRV_PORT_CFG.BIF i) (bits (getLe p.2 8 2) (2 * i) 2)
    let d := d.emits ((List.range 8).map fun i => .pin (perstName i) true)
    let d := ((d.wr HLD_PACK.Q_RATED (getLe p.2 12 2)).wr HLD_PACK.Q_EOL (getLe p.2 14 2)).wr HLD_PACK.IR25_NEW (getLe p.2 16 2)
    let d := packRated (d.wr HLD_PACK.IR_EOL (getLe p.2 18 2))
    let d := (d.set (CRP_STATUS.REF_OK .media)).set (CRP_STATUS.PLL_LOCK .media)
    updateMode (syncRebuild (syncLedger (restore (d.set FRN_STATUS.RESTORING))))

/-- Step 8 (R725, R726): the starting halves release together. -/
def release (d : Dev) : Dev :=
  let was := d.is (CRP_STATUS.RELEASED .media)
  let d := d.each [Half.host, Half.media] fun d h => d.when (d.starting h) fun d =>
    (d.wr (CRP_STATUS.STAGE h) 7).set (CRP_STATUS.RELEASED h)
  let d := d.when was fun d => d.modIng fun i => { i with marksRead := !d.is FRN_STATUS.RESTORING }
  let d := ((d.wr GLB_FW.FW_VERSION d.image.version).wr GLB_FW.BANK d.image.bank).wr GLB_FW.PAIR_LEVEL d.image.level
  settle d

/-- The handshake compares straps and fuses (R716, R717): the START_FAIL cause, 0 for none. -/
def handshakeCause (x : StartFacts) (d : Dev) : Nat :=
  if (tget d.straps 0).getD 0 ≠ (tget d.straps 2).getD 0 ∨ (tget d.straps 1).getD 0 ≠ (tget d.straps 3).getD 0 then 1
  else if !x.agree then 7 else 0

/-- The Schrund of a media half that was just reset takes the host half's count; the forwarded clock gives it its reference (R22, R272). -/
def mediaClock (d : Dev) : Dev :=
  d.when (d.starting .media) fun d => { d with tbMedia := d.tbHost }

/-- Step 5 onwards, once both halves can shake hands (R242, R271, R715, R725, R726). -/
def startTogether (m : List Host.Cell) (f : Fuses) (x : StartFacts) (d : Dev) : Dev :=
  if !d.upHalf .host || !d.upHalf .media || !(d.starting .host || d.starting .media) || d.schLock then d
  else
    let h2m := d.trainable .media (lockedLanes x.h2m)
    let m2h := d.trainable .host (lockedLanes x.m2h)
    if h2m.length < 12 ∨ m2h.length < 12 then
      d.each [Half.host, Half.media] fun d h => d.when (d.starting h) fun d => d.wr (CRP_STATUS.START_FAIL h) 5
    else
      let d := d.each [Half.host, Half.media] fun d h => d.clr (CRP_STATUS.START_FAIL h)
      let c := handshakeCause x d
      let bank := if d.starting .host then d.rd (CRP_STATUS.BANK .host) else d.image.bank
      if c ≠ 0 then failStarting c d
      else if d.starting .media && !mediaFirmwareOk (bankImage m bank) then failStarting 6 d
      else
        let d := stageStarting 5 (schUpWith h2m m2h (mediaClock d))
        let d := stageStarting 6 (startHost m f x d)
        release (stageStarting 7 (startMedia m d))

/-- The cold reset of a half ends: its rails are in range, and a thermal trip holds it no longer (R714, R739, R803). -/
def Dev.mayStart (d : Dev) (h : Half) : Bool :=
  let p := d.pw h
  let t := ((tget d.thermal (halfNum h)).bind (·.tj)).any fun t => decide (t < 1000)
  p.held && p.vaon && (!p.tripped || (p.tripPulsed && t))

/-- STARTUP (R725): the cold resets of the halves that `facts` names end, and start-up runs as far as it can. -/
def execStartup (facts : StartFacts) (s : State) : Host.Outcome State Fault Refusal :=
  s.ok <|
    let one (d : Dev) (h : Half) : Dev :=
      if !ofHalf facts.ends h || !d.mayStart h then d
      else
        let d := startFuses s.fuses facts h d
        let d := d.when (h == .host && !(d.pw h).stopped) (startImage s.flash s.fuses)
        startHbm facts h d
    startTogether s.flash s.fuses facts (s.dev.each [Half.host, Half.media] one)

/-- SCHRUND_TRAINING_RETRY (R726): training of the Schrund is tried again. -/
def execSchrundTrainingRetry (facts : StartFacts) (s : State) : Host.Outcome State Fault Refusal :=
  s.ok <|
    let d := s.dev
    if d.rd (CRP_STATUS.START_FAIL .host) = 5 ∨ d.rd (CRP_STATUS.START_FAIL .media) = 5 then startTogether s.flash s.fuses facts d else d

/-! ### The reference and the temperatures (R736 to R739) -/

/-- REFERENCE_LOST (R736): the host half's datapath and cores stop. -/
def execReferenceLost (s : State) : Host.Outcome State Fault Refusal :=
  s.ok <|
    let d := s.dev
    if (d.pw .host).held then d
    else
      let d := fault .host 7 0 0x11 false ((d.clr (CRP_STATUS.REF_OK .host)).clr (CRP_STATUS.PLL_LOCK .host))
      (d.modSch .host fun l => { l with tx := { l.tx with stopped := true } }).modPw .host fun p =>
        { p with stopped := true, halted := true }

/-- The throttle level after a sample (R738): each threshold raises it, and 3 °C below the threshold of the level lowers it by one. -/
def levelAfter (l : Nat) (tj : Int) : Nat :=
  let up : Nat := if 1200 ≤ tj then 3 else if 1150 ≤ tj then 2 else if 1100 ≤ tj then 1 else 0
  let fall (l : Nat) : Nat := if 0 < l ∧ tj ≤ 1100 + 50 * ((l : Int) - 1) - 30 then l - 1 else l
  max up (fall (fall (fall l)))

/-- The stacks at the doubled refresh rate after their temperatures are read (R737). -/
def doubledAfter (l : List Nat) (hbm : List Int) : List Nat :=
  (List.range hbm.length).filter fun i =>
    let t := hbm.getD i 0
    decide (850 < t) || (l.contains i && decide (820 ≤ t))

/-- HBM stacks of a half. -/
def hbmStacks : Half → Nat
  | .host => 2
  | .media => 4

/-- THERMAL_SAMPLE (R737, R738, R744, R745): TJ of a half and the temperatures of its HBM stacks, in 0.1 °C. -/
def execThermalSample (half : Half) (tj : Int) (hbm : List Int) (s : State) : Host.Outcome State Fault Refusal :=
  s.ok <|
    let d := s.dev
    let t := (tget d.thermal (halfNum half)).getD Thermal.fresh
    let hbm := hbm.take (hbmStacks half)
    let l := levelAfter t.level tj
    let dbl := doubledAfter t.doubled hbm
    let n := t.samples + b2n (decide (1 ≤ l))
    let peak := match t.peak with
      | none => tj
      | some p => if p < tj then tj else p
    let d := { d with thermal := tput d.thermal (halfNum half) ⟨l, dbl, n % 10, some tj, some peak⟩ }
    let d := ((d.wr (CRP_THERM.TJ half) (toBits 12 tj)).wr (CRP_THERM.TJ_MAX half) (toBits 12 peak)).wr (CRP_THERM.LEVEL half) l
    let d := (d.wr (CRP_THERM.HBM_HOT half) (laneMask dbl)).bump (CRP_CNT_THROTTLE.COUNT half) (n / 10)
    let d := d.when (t.level == 0 && l != 0) fun d => d.set (CRP_THERM.THROTTLED half)
    d.when (dbl.any fun i => !t.doubled.contains i) fun d => d.set (CRP_THERM.HBM_DOUBLED half)

/-- THERMAL_TRIP (R739): TJ above 130 °C for 1 ms. -/
def execThermalTrip (half : Half) (s : State) : Host.Outcome State Fault Refusal :=
  s.ok <|
    let d := s.dev
    if (d.pw half).held then d
    else
      let d := fault half 7 0 0x10 false d
      let old := (tget d.thermal (halfNum half)).getD Thermal.fresh
      let d := { d with thermal := tput d.thermal (halfNum half) { old with tj := none } }
      triggerCold half (d.modPw half fun p => { p with tripped := true, tripPulsed := false })

/-! ### The gauge's recomputation (R698, R699) -/

/-- ENERGY_RECOMPUTE (R698): E_AVAIL, DUMP_READY and DUMPS; the mode and the activities follow. The twin is told the full dumps that this
gauge reports where the number changes (R426). -/
def execEnergyRecompute (s : State) : Host.Outcome State Fault Refusal :=
  s.ok <|
    let d := s.dev
    let was := d.rd HLD_ENERGY.DUMPS
    let d := energyUpdate d
    let n := d.rd HLD_ENERGY.DUMPS
    let d := d.when (n != was && d.tstate == 5) (snowSend .coord 3 ⟨0xFF, 0, 0, 0, [16, n], []⟩)
    settle (withdrawPair (updateMode d))

end Sys2Proof.Machine
end

