-- ==== Sys2Proof/Machine/RegWrite.lean ====
section
/-! DEFINITION. Register writes (R566 to R568, R746, R747, R752, R778): each field takes a write by its access code, and the registers whose
writes do more do it here by the same operations as the commands that have rows of their own. -/

namespace Sys2Proof.Machine

/-! ### Fields (R746) -/

/-- A field after a write that reaches it with value `v`, whose set bits `ones` were really written. -/
def storeField (f : Field) (v ones : Nat) (d : Dev) : Dev :=
  match f.acc with
  | .rw | .cnt | .cntWrap => d.wr f v
  | .w1c | .rws => d.wr f (d.rd f - (d.rd f &&& ones))
  | .ro | .wo => d

/-- A register after a write of `size` bytes from byte `at0` of it on. -/
def Reg.write (r : Reg) (at0 size value : Nat) (d : Dev) : Dev :=
  let new := mergeBytes (r.value d.rd) at0 size value
  let raw := mergeBytes 0 at0 size value
  r.fields.foldl (fun d f => storeField f (bits new f.lsb f.width) (bits raw f.lsb f.width) d) d

/-- The bits that a write brings to a field that triggers. -/
def wrote (f : Field) (raw : Nat) : Nat := bits raw f.lsb f.width

/-! ### The Floe registers (R640, R677) -/

/-- FLO_CH_CTRL written (R646, R671 to R674): one command at most, the first of ABORT, PAUSE, RESUME and KICK that is set. -/
def floCtrlWrite (p : Path) (ch raw : Nat) (d : Dev) : Dev :=
  if bit raw 3 then floCmd p ch floAbort d
  else if bit raw 1 then floCmd p ch floPause d
  else if bit raw 2 then floCmd p ch floResume d
  else if bit raw 0 then floCmd p ch floKick d
  else d

/-- A path may write FLO_REQ of a line. -/
def floMayLine (p : Path) (line : Nat) : Bool :=
  match p with
  | .pf e => line / 8 == e
  | .i3c _ | .firmware .media => true
  | _ => false

/-- A write to a Floe register. -/
def floRegWrite (p : Path) (r : Reg) (at0 size value : Nat) (d : Dev) : Dev :=
  let raw := mergeBytes 0 at0 size value
  if r.off = 0xa00008 then floEventWrite p true raw d
  else if r.off = 0xa00010 then floEventWrite p false raw d
  else if r.off = 0xa00018 then floSwreq p raw d
  else if r.off < 0xa10000 then d.when (floMayLine p ((r.off - 0xa00100) / 4)) (r.write at0 size value)
  else
    let ch := (r.off - 0xa10000) / 128
    let o := (r.off - 0xa10000) % 128
    if o = 4 then floCtrlWrite p ch raw d
    else if [0, 0xC, 0x10, 0x18].contains o then floCmd p ch (fun h ch d => floConfigWrite h ch (o + at0) size value d) d
    else d.when (floMayDrive p ch) (r.write at0 size value)

/-! ### CRP, FLT and SCH of either half -/

/-- FLT_CTRL and FLT_WDOG written. -/
def fltRegWrite (h : Half) (r : Reg) (at0 size value : Nat) (d : Dev) : Dev :=
  let raw := mergeBytes 0 at0 size value
  if r.off = 0xd00004 then (d.when (bit raw 0) (newEpoch h)).when (bit raw 1) (lastGasp h)
  else if r.off = 0xd00018 then d.when (wrote (FLT_WDOG.KICK h) raw == 0x6D0B) (wdogKick h)
  else r.write at0 size value d

/-- A register that both halves hold. -/
def bothRegWrite (h : Half) (p : Path) (r : Reg) (at0 size value : Nat) (d : Dev) : Dev :=
  let raw := mergeBytes 0 at0 size value
  if r.off < 0xa00000 then
    d.when (schWriter h p) (if r.off = 0x400004 then fun d => d.when (bit raw 0) schRetry else r.write at0 size value)
  else if r.off < 0xc00000 then floRegWrite p r at0 size value d
  else if r.off < 0xd00000 then
    d.when (crpWriter p h) (if r.off = 0xc00004 then crpCtrlWrite h raw else r.write at0 size value)
  else d.when (fltWriter h p) (fltRegWrite h r at0 size value)

/-! ### The host half -/

/-- A write to a ring register of a function (R784 to R786). -/
def rngRegWrite (fn : Nat) (r : Reg) (at0 size value : Nat) (d : Dev) : Dev :=
  if r.off = 0x100010 then aqCfgWrite fn (mergeBytes (r.value d.rd) at0 size value) d
  else if r.off = 0x100020 then evHeadWrite fn (mergeBytes 0 at0 size value) d
  else if r.off ≤ 0x100008 ∧ d.is (RNG_AQ_CFG.ENABLE fn) then d
  else r.write at0 size value d

/-- A write to an ING or RIM register (R180, R185, R234, R236). -/
def hostOwnWrite (p : Path) (r : Reg) (at0 size value : Nat) (d : Dev) : Dev :=
  let raw := mergeBytes 0 at0 size value
  let new := mergeBytes (r.value d.rd) at0 size value
  if !ingWriter p then d
  else if r.off = 0x200000 then ingCfgWrite new d
  else if r.off = 0x200004 then
    quarRelease (wrote ING_CTRL.QUAR_RELEASE raw) (d.when (bit raw 0) invalidate)
  else if [0x200010, 0x200018, 0x200020].contains r.off then ingIndexWrite r.off new d
  else if r.off = 0x300004 then d.when (wrote RIM_CTRL.ZEROIZE raw == 0x5A3C) (zeroizeAt .host (bit raw 16))
  else r.write at0 size value d

/-- A write to a mailbox register (R776): a command takes OP and KEY from one write, with the operand in FLT_MBX_ARG. -/
def mbxRegWrite (e : Nat) (r : Reg) (at0 size value : Nat) (d : Dev) : Dev :=
  let raw := mergeBytes 0 at0 size value
  if r.off = 0xe00000 then mbxWrite e (wrote FLT_MBX_CMD.OP raw) (wrote FLT_MBX_CMD.KEY raw) d else r.write at0 size value d

/-- A write to an EPX register of an endpoint (R596, R599). -/
def epRegWrite (e : Nat) (r : Reg) (at0 size value : Nat) (d : Dev) : Dev :=
  if r.off = 0xf00010 then
    d.when (bit (mergeBytes 0 at0 size value) 30) fun d => d.modFn (d.selFn e) fun f => { f with holdOver := false }
  else r.write at0 size value d

/-- A write to a register of the host half as the BAR0 of endpoint `e` shows it, by the PF of that endpoint or by the host half's I3C port
(`e` = 0). -/
def hostOneWrite (p : Path) (e : Nat) (r : Reg) (at0 size value : Nat) (d : Dev) : Dev :=
  if r.off < 0x100000 then r.write at0 size value d
  else if r.off < 0x200000 then d.when (p == .pf e) (rngRegWrite (256 * e) r at0 size value)
  else if r.off < 0x400000 then hostOwnWrite p r at0 size value d
  else if r.off < 0xe00000 then bothRegWrite .host p r at0 size value d
  else if r.off < 0xf00000 then d.when (p == .pf e) (mbxRegWrite e r at0 size value)
  else d.when (p == .pf e) (epRegWrite e r at0 size value)

/-- The register that holds an offset which is a multiple of 4. -/
def regOver (regs : Nat → Option Reg) (off : Nat) : Option Reg :=
  (regs off).orElse fun _ => if off % 8 = 4 then (regs (off - 4)).filter (·.size == 8) else none

/-- A write of 4 or 8 bytes (R567): 8 bytes over two registers write both, the lower first. -/
def spanWrite (regs : Nat → Option Reg) (one : Reg → Nat → Nat → Nat → Dev → Dev) (off size value : Nat) (d : Dev) : Dev :=
  let put (off size value : Nat) (d : Dev) : Dev := match regOver regs off with
    | some r => one r (off - r.off) size value d
    | none => d
  if !(size == 4 || size == 8) || off % size != 0 then d
  else if size = 4 ∨ (regs off).any (·.size == 8) then put off size value d
  else put (off + 4) 4 (value / 2 ^ 32) (put off 4 (value % 2 ^ 32) d)

/-- A write to the BAR0 of the PF of endpoint `e`, doorbells and the MSI-X table apart. -/
def pfWrite (p : Path) (e off size value : Nat) (d : Dev) : Dev := spanWrite (pfRegAt e) (hostOneWrite p e) off size value d

/-- A write to the window of a VF (R568). -/
def vfWrite (fn off size value : Nat) (d : Dev) : Dev :=
  spanWrite (vfRegAt fn) (fun r at0 size value d => rngRegWrite fn r at0 size value d) off size value d

/-! ### Configuration space (R558 to R564, R580, R585, R594) -/

/-- Fields whose writes do more than store. -/
def cfgActs (fn : Nat) : List Field :=
  [CFG.BME fn, CFG.VF_EN fn, CFG.VF_MSE fn, CFG.NUMVFS fn, CFG.POWER fn, CFG.FLR fn, CFG.BAR2 fn]

/-- VF Memory Space Enable written: the VFs' traffic stops or goes on with it (R560, R580). -/
def vfMseWrite (e : Nat) (on : Bool) (d : Dev) : Dev :=
  if d.is (CFG.VF_MSE (256 * e)) = on then d
  else
    let ran := (d.vfs e).filter fun v => !d.holding v
    let d := d.put (CFG.VF_MSE (256 * e)) on
    if on then d.each (d.vfs e) fun d v => startTraffic v d else settle (d.each ran fun d v => stopTraffic v d)

/-- VF Enable written (R559). -/
def vfEnWrite (e : Nat) (on : Bool) (d : Dev) : Dev :=
  if d.is (CFG.VF_EN (256 * e)) = on then d else if on then vfEnable e d else settle (resetVfs e d)

/-- What a configuration write of a PF does to its SR-IOV fields. NumVFs keeps its value while VF Enable is 1 (PRESUMED, the standard's). -/
def sriovWrite (e : Nat) (en mse num : Nat) (d : Dev) : Dev :=
  let d := d.when (!d.is (CFG.VF_EN (256 * e))) fun d => d.wr (CFG.NUMVFS (256 * e)) num
  let d := d.when (mse == 0) (vfMseWrite e false)
  let d := vfEnWrite e (en == 1) d
  d.when (mse == 1) (vfMseWrite e true)

/-- A configuration write of 1, 2 or 4 bytes to a function (R561 to R564). -/
def cfgWrite (fn off size value : Nat) (d : Dev) : Dev :=
  let r : Reg := ⟨off / 4 * 4, 4, (cfgFields fn).filter fun f => f.off == off / 4 * 4 || (f.off + 4 == off / 4 * 4 && f.width + f.lsb > 32)⟩
  if !([1, 2, 4].contains size) || off % size != 0 || !d.fnExists fn || (d.pw .host).held || (d.ep (epOf fn)).perst then d
  else
    let word (f : Field) : Nat := 8 * off - 8 * f.off
    let has (f : Field) : Bool := r.fields.contains f
    let new (f : Field) : Nat :=
      if has f then bits (mergeBytes (d.rd f * 2 ^ f.lsb) (word f / 8) size value) f.lsb f.width else d.rd f
    let raw (f : Field) : Nat := bits (mergeBytes 0 (word f / 8) size value) f.lsb f.width
    let d := (r.fields.filter fun f => !(cfgActs fn).contains f).foldl (fun d f => storeField f (new f) (raw f) d) d
    let unit := d.bar2Size (epOf fn) / 2 ^ 21
    let d := d.when (has (CFG.BAR2 fn)) fun d => d.wr (CFG.BAR2 fn) (if unit = 0 then 0 else new (CFG.BAR2 fn) / unit * unit)
    let d := d.when (has (CFG.BME fn)) (bmeWrite fn (new (CFG.BME fn) == 1))
    let d := d.when (has (CFG.VF_EN fn) || has (CFG.NUMVFS fn))
      (sriovWrite (epOf fn) (new (CFG.VF_EN fn)) (new (CFG.VF_MSE fn)) (new (CFG.NUMVFS fn)))
    let d := d.when (has (CFG.POWER fn)) fun d =>
      if new (CFG.POWER fn) = 3 then enterD3 fn d else if new (CFG.POWER fn) = 0 then returnD0 fn d else d
    let d := sendAllPending fn d
    if has (CFG.FLR fn) && raw (CFG.FLR fn) == 1 && !(d.fn fn).flr then
      settle (flrOf fn (d.bump (EPX_CNT_FLR.COUNT (epOf fn)) 1))
    else d

/-! ### The media half (R752) -/

/-- A register whose accepted writes both twins take while paired (R447, R494, R546). -/
def mirrored : List Nat := [0x700000, 0x700004, 0x800000, 0x900000, 0x90000c]

/-- A mirrored register takes a value that was accepted. -/
def mirrorWrite (off value : Nat) (d : Dev) : Dev :=
  if off = 0x700000 then regMNT_CFG.write 0 4 value d
  else if off = 0x700004 then regMNT_RATE.write 0 4 value d
  else if off = 0x800000 then
    (regVRV_CFG.write 0 4 value d).each (d.pools.map (·.1)) fun d p => capacityCheck p d
  else if off = 0x900000 then d.wr TWN_CFG.AUTO_RETRAIN (bits value 1 1)
  else if off = 0x90000c then regTWN_HOME.write 0 4 value d
  else d

/-- An accepted write of a mirrored register goes to the other twin (R508). -/
def mirrorSend (off value : Nat) (d : Dev) : Dev :=
  d.when (d.tstate == 5) (snowSend .coord 3 ⟨0xFF, 0, 0, 0, [13, off, value], []⟩)

/-- The value is in range for its register (R447 to R449, R495, R634, R708). DEDUCED: a timeout of 0 in DRV_CFG is out of range. -/
def mediaValueOk (off v : Nat) : Bool :=
  if off = 0x700004 then bits v 0 8 != 0 && bits v 8 8 != 0 && bits v 16 8 != 0
  else if off = 0x800000 then
    decide (1 ≤ bits v 0 8 ∧ bits v 0 8 ≤ 99 ∧ 1 ≤ bits v 8 8 ∧ bits v 8 8 ≤ 20 ∧ 50 ≤ bits v 16 8 ∧ bits v 16 8 ≤ 99)
  else if off = 0xb00000 then bits v 0 8 != 0 && bits v 16 8 != 0
  else if off = 0xe00000 then
    decide (0x3C ≤ bits v 0 8 ∧ bits v 0 8 ≤ 0x50) && decide (ofBits 8 (bits v 8 8) < ofBits 8 (bits v 16 8))
  else true

/-- HLD_CTRL.CMD (R693, R703, R704, R708); other values are ignored. -/
def hldCtrlWrite (p : Path) (cmd : Nat) (d : Dev) : Dev :=
  if cmd = 0x1EA5 then learnStart d
  else if cmd = 0x1EA0 then learnFail 4 d
  else if cmd = 0xD15C then packDisconnectCmd p d
  else if cmd = 0xC0EE then packConnect d
  else if cmd = 0x9E3A then packChange d
  else d

/-- MNT_SCRUB_PROG written: LATE is cleared by 1 and PASSES takes the value, for the selected pool (R452). -/
def scrubProgWrite (value : Nat) (d : Dev) : Dev :=
  d.modPool (d.rd MNT_POOL_SEL.POOL) fun x => { x with scrub := { x.scrub with
    late := x.scrub.late && !bit value 42, passes := bits value 48 16 } }

/-- A write to a register of the media management space that names it with its own size. -/
def mediaOneWrite (p : Path) (r : Reg) (value : Nat) (d : Dev) : Dev :=
  if mirrored.contains r.off then
    mirrorSend r.off value (mirrorWrite r.off value (d.when (r.off == 0x900000) (linkGcmWrite value)))
  else if r.off = 0x500000 then frnCfgWrite value d
  else if r.off = 0x500004 then d.when (bits value 0 16 == 0x7C51) (startDump 2)
  else if r.off = 0x600018 then engRelease (bits value 0 16) d
  else if r.off = 0x700018 then scrubProgWrite value d
  else if r.off = 0x900004 then (d.when (bit value 0) twnLaneRetry).when (bit value 1) rejoin
  else if r.off = 0xb00004 then drvPortCfgWrite value d
  else if r.off = 0xe00000 then chargeUpdate (r.write 0 4 value d)
  else if r.off = 0xe00004 then hldCtrlWrite p (bits value 0 16) d
  else if (mediaOnlyRegs.any fun x => x.off == r.off) || (mediaArrayReg r.off).isSome then r.write 0 r.size value d
  else bothRegWrite .media p r 0 r.size value d

/-- A write to the media management space (R642, R752), with the status that FEATURE_SET answers. -/
def mediaWrite (p : Path) (off size value : Nat) (d : Dev) : Nat × Dev :=
  if !mediaWriter p then (stNotPermitted, d)
  else match mediaRegAt off with
  | none => (stInvalidField, d)
  | some r =>
    if size ≠ r.size then (stInvalidField, d)
    else if 0xa00000 ≤ off ∧ off < 0xb00000 ∧ (floHalf p).isNone then (stNotPermitted, d)
    else if !mediaValueOk off value then (stInvalidField, d)
    else (stSuccess, mediaOneWrite p r value d)

/-! ### The command -/

/-- A register write by a path: `off` is the offset in the BAR0, the window, the configuration space or the media management space that the
path reaches. A PF's BAR0 and a VF's window must decode; writes that nothing decodes are discarded (R566 to R568). -/
def regWrite (p : Path) (off size value : Nat) (d : Dev) : Dev :=
  match p with
  | .pf e =>
    if 4 ≤ e ∨ !d.decodes (256 * e) then d
    else if 0x2000000 ≤ off then (if off < 0x2008000 then msixWrite (256 * e) (off - 0x2000000) size value d else d)
    else pfWrite p e off size value d
  | .vf fn =>
    if 1024 ≤ fn ∨ isPf fn ∨ !d.decodes fn then d
    else if 0x80000 ≤ off then (if off < 0x80400 then msixWrite fn (off - 0x80000) size value d else d)
    else vfWrite fn off size value d
  | .config fn => if 1024 ≤ fn then d else cfgWrite fn off size value d
  | .i3c .host => if (d.pw .host).held then d else pfWrite p 0 off size value d
  | .i3c .media | .feature _ => if (d.pw .media).held then d else (mediaWrite p off size value d).2
  | .firmware h =>
    if (d.pw h).held then d
    else match h with
      | .host => (pfRegAt 0 off).elim d fun r => bothRegWrite .host p r 0 size value d
      | .media => (mediaRegAt off).elim d fun r => bothRegWrite .media p r 0 size value d

/-- REGISTER_WRITE (R746): a field that has no row of its own. -/
def execRegisterWrite (path : Path) (off size value : Nat) (s : State) : Host.Outcome State Fault Refusal :=
  s.ok (regWrite path off size value s.dev)

end Sys2Proof.Machine
end

