-- ==== Sys2Proof/Machine/Manage.lean ====
section
/-! DEFINITION. State reached through packets (R749 to R755): IDENTIFY, LOG_READ, FEATURE_GET and MEDIA_REG; the diagnostics (R779, R780);
and COORD messages (R508). -/

namespace Sys2Proof.Machine

/-! ### Data of an admin command -/

/-- An admin command answers with data in its buffer, ahead of its completion (R80, R581). -/
def answerData (q tag : Nat) (qu : Queue) (c : Cmd) (b : Bytes) (result : Nat) (d : Dev) : Dev :=
  let (d, sent) := sendData qu.fn q tag c.segs b false d
  if sent then complete q tag stSuccess result d
  else failCmd q tag stHostMemory (fault .host 9 (epOf qu.fn * 256 + qu.fn % 256) 3 false d)

/-- A command whose answer needs the media half ends with 05h/01h while the halves do not talk or the module is fenced (R268, R527). -/
def needMedia (q tag : Nat) (need : Bool) (f : Dev → Dev) (d : Dev) : Dev :=
  if need && (d.fenced || d.peerDown .host || !d.schUp) then failCmd q tag stPathFenced d else f d

/-! ### IDENTIFY (R753 to R755) -/

/-- The device structure for a function (R754). -/
def Dev.identifyDevice (d : Dev) (fn : Nat) : Bytes :=
  let pools := (tkeys d.pools).foldl (fun v p => setBit v p true) 0
  leBytes 2 0x0960 ++ [0xB0] ++ leBytes 1 (d.twinSide + 2 * epOf fn) ++ leBytes 4 d.image.version ++ leBytes 8 d.serial ++
    leBytes 8 (d.rd TWN_PAIR_ID.PAIR_ID) ++ leBytes 2 d.image.level ++ leBytes 2 d.image.minPeer ++ leBytes 4 16777216 ++
    leBytes 4 (d.nss.filter fun n => !n.2.deleted).length ++ leBytes 1 pools ++ List.replicate 3 0 ++ leBytes 8 d.tbHost

/-- VRV_NS_INFO of a namespace as one value (R497). -/
def Dev.nsInfo (d : Dev) (nsid : Nat) : Nat := regVRV_NS_INFO.value (d.viewed (nsInfoViews nsid))

/-- The namespace structure (R755). -/
def Dev.identifyNs (d : Dev) (nsid : Nat) (n : Ns) : Bytes :=
  leBytes 4 nsid ++ leBytes 4 n.pack ++ leBytes 8 n.size ++ leBytes 8 (d.nsInfo nsid) ++ leBytes 8 (d.liveBlocks nsid) ++
    leBytes 8 (d.retainedBlocks nsid)

/-- The function structure (R755). -/
def Dev.identifyFn (d : Dev) (fn : Nat) : Bytes :=
  let qs := d.rings.queues.filter fun e => e.2.fn == fn
  leBytes 2 fn ++ leBytes 2 (d.blockCount fn) ++ leBytes 4 qs.length ++
    leBytes 4 (qs.filter fun e => e.2.cls == 0).length ++ leBytes 1 (d.fn fn).gen ++ leBytes 1 (b2n (d.fn fn).ev.set)

/-- IDENTIFY (R753): a namespace that the function does not have attached completes with 01h/03h. -/
def execIdentify (q tag : Nat) (s : State) : Host.Outcome State Fault Refusal :=
  s.ok <| runCmd [0x80] q tag (fun qu c d =>
    let cns := pktField c.pkt 48 1
    needMedia q tag (cns != 2) (fun d =>
      let give (b : Bytes) : Dev := answerData q tag qu c (padTo 4096 b) 0 d
      if cns = 0 then give (d.identifyDevice qu.fn)
      else if cns = 2 then give (d.identifyFn qu.fn)
      else match (d.ns (pktNsid c.pkt)).filter fun n => n.attached.contains qu.fn with
        | none => failCmd q tag stInvalidNamespace d
        | some n => give (d.identifyNs (pktNsid c.pkt) n)) d) s.dev

/-! ### LOG_READ (R749 to R751) -/

/-- A last-gasp record's 64 KiB (R766): its header's layout is not stated. -/
def Gasp.bytes (g : Gasp) : Bytes :=
  padTo 4096 (Config.gaspHeader (halfNum g.half) g.seq g.time g.status g.summary g.ledger g.crp) ++
    padTo 61440 (g.recs.map LedgerRec.bytes).flatten

/-- The fault summary (R750 page 03h). -/
def Dev.faultSummary (d : Dev) : Bytes :=
  let one (h : Half) : Bytes := leBytes 4 (d.fltStatus h) ++ leBytes 8 (d.fltSummary h) ++ leBytes 8 (d.fltLedger h)
  one .host ++ one .media ++ List.replicate 24 0

/-- A divergence-list entry (R301, R750 page 04h). -/
def DivRec.bytes (x : DivRec) : Bytes :=
  leBytes 1 x.pool ++ List.replicate 7 0 ++ leBytes 8 x.seq ++ leBytes 4 x.nsid ++ leBytes 4 x.nlb ++ leBytes 8 x.slba

/-- A stripe divergence log entry (R387). -/
def DivStripe.bytes (x : DivStripe) : Bytes :=
  leBytes 8 x.stripe ++ leBytes 8 x.seq ++ leBytes 8 x.time ++ leBytes 1 x.cause ++ leBytes 1 x.synd ++ leBytes 1 (b2n x.agree) ++
    List.replicate 5 0

/-- A lost-stripe log entry (R412). -/
def LostStripe.bytes (x : LostStripe) : Bytes :=
  leBytes 8 x.stripe ++ leBytes 8 x.seq ++ leBytes 8 x.time ++ leBytes 1 x.state ++ leBytes 1 x.cause ++ leBytes 1 x.nerased ++ [0] ++
    leBytes 4 x.nobj

/-- An object of a lost stripe (R417); the numbers of objects hold the ordinal in their low 16 bits. -/
def Dev.objItem (d : Dev) (o : Nat × ObjEnt) : Bytes :=
  let mate := d.xmap.chunks.find? fun e => e.2.inBlock && e.2.block == o.1 / 65536
  leBytes 8 (o.1 / 65536) ++ leBytes 2 (o.1 % 65536) ++ [0, 0] ++
    leBytes 4 (((tget d.xmap.chunks (o.1 / 65536)).map (·.nsid)).getD ((mate.map (·.2.nsid)).getD 0))

/-- A snapshot list entry (R479). -/
def Dev.snapItem (d : Dev) (nsid : Nat) (x : Snap) : Bytes :=
  leBytes 4 x.id ++ leBytes 4 (b2n x.hidden + 2 * b2n (d.dependents nsid x.id) + 4 * b2n (d.pinned nsid x.id)) ++ leBytes 8 x.label ++
    leBytes 8 x.time ++ leBytes 8 (d.uniqueBlocks nsid x.id % 2 ^ 40)

/-- The size of a page's entries (R750); page 09h has the size of its register. -/
def logEntry (lid : Nat) : Nat := if lid = 3 then 64 else if lid = 7 then 16 else if lid = 10 then 65536 else 32

/-- The entries of a page (R750). DEDUCED: a ledger page gives the source records, then the summary records. -/
def Dev.logPage (d : Dev) (lid pool nsid off : Nat) : List Bytes :=
  let led (h : Half) : List Bytes := ((d.led h).recs ++ (d.led h).sums).map LedgerRec.bytes
  match lid with
  | 1 => led .host
  | 2 => led .media
  | 3 => [d.faultSummary]
  | 4 => (d.firn.divs.filter fun x => x.pool == pool).map DivRec.bytes
  | 5 => (d.xmap.divLog.filter fun x => stripePool x.stripe == pool).map DivStripe.bytes
  | 6 => ((((tget d.pools pool).map (·.lost)).getD []).map LostStripe.bytes)
  | 7 =>
    if ((tget d.pools pool).map (·.lost)).any fun l => l.any fun x => x.stripe == off then (d.stripeObjs off).map d.objItem else []
  | 8 => (((d.ns nsid).map (·.snaps)).getD []).map (d.snapItem nsid)
  | 10 => (d.led .media).gasps.map Gasp.bytes
  | _ => []

/-- Whole entries of a page from an entry on, as many as a buffer holds (R751). -/
def logSlice (entries : List Bytes) (entry first len : Nat) : Bytes := ((entries.drop first).take (len / entry)).flatten

/-- LOG_READ (R749 to R751): RESULT has the bytes written and the entries of the page. -/
def execLogRead (q tag : Nat) (s : State) : Host.Outcome State Fault Refusal :=
  s.ok <| runCmd [0x81] q tag (fun qu c d =>
    let lid := pktField c.pkt 48 1
    let off := pktField c.pkt 56 8
    let entry := logEntry lid
    needMedia q tag (lid != 1) (fun d =>
      let give (b : Bytes) (n : Nat) : Dev := answerData q tag qu c b (b.length + 2 ^ 32 * n) d
      if lid = 9 then
        match mediaRegAt off with
        | none => failCmd q tag stInvalidField d
        | some r => give (if c.dataLen < r.size then [] else leBytes r.size (readMedia s.fuses d r)) 1
      else if lid ≠ 7 ∧ off % entry ≠ 0 then failCmd q tag stInvalidField d
      else
        let es := d.logPage lid (pktField c.pkt 49 1) (pktNsid c.pkt) off
        give (logSlice es entry (if lid = 7 then 0 else off / entry) c.dataLen) es.length) d) s.dev

/-! ### FEATURE_GET and MEDIA_REG (R87, R348, R618, R624, R752) -/

/-- The value of a feature that the host half keeps. -/
def Dev.hostFeature (d : Dev) (fn fid target : Nat) : Nat :=
  match fid with
  | 1 => let w := d.rings.weights; w.1 + 2 ^ 8 * w.2.1 + 2 ^ 16 * w.2.2
  | 2 => d.tenantWeight target
  | _ => b2n (d.rings.classAEv.contains fn)

/-- The drive handle of a witness, FFFF_FFFFh for none (R618). -/
def Dev.witnessHandle (d : Dev) (w : Nat) : Nat :=
  match ((d.twin.witness[w]?).filter fun x => x.nguid != 0).bind fun x => d.drives.table.find? fun e => e.2.nguid == x.nguid with
  | some (i, v) => v.handle i
  | none => 0xFFFFFFFF

/-- FEATURE_GET (R87, R752). DEDUCED: a pool that is not defined has geometry 0, and a selector out of range completes with 01h/02h. -/
def execFeatureGet (q tag : Nat) (s : State) : Host.Outcome State Fault Refusal :=
  s.ok <| runCmd [0x82] q tag (fun qu c d =>
    let fid := pktField c.pkt 48 1
    let sel := pktField c.pkt 49 1
    let off := pktField c.pkt 52 4
    let tenant := pktField c.pkt 52 2
    needMedia q tag (decide (0x20 ≤ fid)) (fun d =>
      let bad := failCmd q tag stInvalidField d
      let give (v : Nat) : Dev := complete q tag stSuccess v d
      if fid = 2 then (if 1024 ≤ tenant ∨ (isPf qu.fn && epOf tenant != epOf qu.fn) then bad else give (d.tenantWeight tenant))
      else if fid < 0x20 then give (d.hostFeature qu.fn fid tenant)
      else if fid = 0x20 then (if 8 ≤ sel then bad else give (d.poolField sel Pool.geometry))
      else if fid = 0x21 then (if 5 ≤ sel then bad else give (d.witnessHandle sel))
      else if fid = 0x22 then give d.windowInForce
      else match mediaRegAt off with
        | none => bad
        | some r => if 1 < sel ∨ r.size ≠ 4 * (sel + 1) then bad else give (readMedia s.fuses d r)) d) s.dev

/-- MEDIA_REG (R752): the register's own refusals follow. -/
def execMediaReg (q tag : Nat) (s : State) : Host.Outcome State Fault Refusal :=
  s.ok <| mediaFeature 0x30 q tag (fun qu c d =>
    let size := if pktField c.pkt 49 1 = 0 then 4 else if pktField c.pkt 49 1 = 1 then 8 else 0
    let (st, d) := mediaWrite (.feature qu.fn) (pktField c.pkt 52 4) size (pktField c.pkt 56 8) d
    settle (complete q tag st 0 d)) s.dev

/-! ### Diagnostics (R779, R780) -/

/-- The stages of a unit's self-test (R779). -/
def testStages (unit : Nat) : List Nat :=
  match unit with
  | 1 => [1, 2, 3, 4, 5, 6, 7]
  | 2 => [8, 9, 10]
  | 3 => [5, 6, 7]
  | 4 => [11]
  | _ => []

/-- Units of a kind. -/
def testUnits (unit : Nat) : Nat := if unit = 1 ∨ unit = 2 then 16 else if unit = 3 ∨ unit = 4 then 1 else 0

/-- What a failed self-test does to its unit (R176, R227, R388, R779). -/
def testFailed (unit n : Nat) (d : Dev) : Dev :=
  match unit with
  | 1 => quarantine n d
  | 2 => engineOut n d
  | 4 => noiseFail d
  | _ => d

/-- DIAG_SELFTEST (R779): `stage` is the first stage that fails, 0 for a pass. DEDUCED: a unit or an index that does not exist completes
with 01h/02h, and a noise source that fails its start-up test is taken as failing a test of R227. -/
def execDiagSelftest (q tag stage : Nat) (s : State) : Host.Outcome State Fault Refusal :=
  s.ok <| runCmd [0xE0] q tag (fun _ c d =>
    let unit := pktField c.pkt 48 1
    let n := pktField c.pkt 49 1
    if testUnits unit ≤ n then failCmd q tag stInvalidField d
    else needMedia q tag (unit == 2 || unit == 3) (fun d =>
      if (testStages unit).contains stage then complete q tag stDiagFailed stage (settle (testFailed unit n d))
      else complete q tag stSuccess 0 d) d) s.dev

/-- Reports of one source, 5 ticks apart from a time on (R780). -/
def injectSource (h : Half) (src code n t : Nat) (d : Dev) : Dev :=
  d.each (List.range n) fun d i => report h src code (srcId h 8 0) (t + 5 * i) false true d

/-- DIAG_INJECT (R780). The reports carry the times at which they enter, 20 per µs; the command is one step. -/
def execDiagInject (q tag : Nat) (s : State) : Host.Outcome State Fault Refusal :=
  s.ok <| runCmd [0xE1] q tag (fun _ c d =>
    let src := pktField c.pkt 52 4
    let code := pktField c.pkt 56 2
    let span := pktField c.pkt 58 2
    let rep := pktField c.pkt 60 2
    let h := srcHalf src
    if srcBlock src = 0 ∨ 16 < srcBlock src ∨ span = 0 ∨ rep = 0 ∨ 0xFFFFFE < src % 2 ^ 24 + span - 1 then
      failCmd q tag stInvalidField d
    else needMedia q tag (h == .media) (fun d =>
      let t := d.now h
      let d := d.each (List.range span) fun d i => injectSource h (src + i) code rep (t + 5 * rep * i) d
      complete q tag stSuccess (span * rep) d) d) s.dev

/-! ### COORD (R508) -/

/-- Kinds of COORD messages that this model's bodies have. -/
def coordKinds : List Nat := [1, 2, 3, 4, 5, 6, 7, 8, 9, 10, 11, 12, 13, 14, 15, 16, 17, 18, 19, 20, 21, 23, 24, 25]

/-- COORD (R508, R510): a message of no kind is invalid. The admission of an activation lets it begin (R543). -/
def execCoord (msg : Msg) (s : State) : Host.Outcome State Fault Refusal := snowTurn .coord msg s fun s =>
  let d := s.dev
  if !((decide (3 ≤ d.tstate) && decide (d.tstate ≤ 5)) || d.stillCrossing) then .next s
  else if !coordKinds.contains (msg.args.headD 0) then s.ok (declarePartner 5 d)
  else .next (State.stored { s with dev := startActivation (settle (coordNow msg mirrorWrite d)) })

end Sys2Proof.Machine
end

