-- ==== Sys2Proof/Machine/Port.lean ====
section
/-! DEFINITION. The I3C ports (R590, R718, R778): a message whose PEC passed, the answer, and its effect. The Nunatak serves its OPs on its own
rail, whatever the rest of its half does (R24, R773). -/

namespace Sys2Proof.Machine

/-- The status codes of a reply (R778). -/
def portOk : Nat := 0
def portInvalid : Nat := 1
def portForbidden : Nat := 2
def portUnavailable : Nat := 3

/-- The port of a half answers. -/
def portReply (h : Half) (status : Nat) (data : Bytes) (d : Dev) : Dev := d.emit (.reply (.i3c h) status data)

/-- Every land of a half is under functional control: the boundary-scan port drives none (R796). -/
def Dev.functional (d : Dev) (h : Half) : Bool := (d.pw h).ports.tap != .extest

/-- The port of a half hears its bus: its Nunatak has its supply (R24, R729), and its lands are under functional control. -/
def Dev.nunatak (d : Dev) (h : Half) : Bool := (d.pw h).vaon && d.functional h

/-! ### The bus and the boundary-scan port

The opcode table has no row for what only these buses carry, so no command comes here (see the log). -/

/-- A START on the bus of a half's port (R805): its clock is below 1 MHz, its timing open-drain, and an I3C broadcast address came before. -/
def busStart (h : Half) (slow openDrain broadcast : Bool) (d : Dev) : Dev :=
  if slow && openDrain && !broadcast then d.modPw h fun p => { p with ports := { p.ports with smbus := true } } else d

/-- An I3C dynamic address assignment ends SMBus mode (R805). -/
def busAssign (h : Half) (d : Dev) : Dev := d.modPw h fun p => { p with ports := { p.ports with smbus := false } }

/-- The reply of a half's port is ready: a read that comes before it is refused the address (R805). Only the host half's mailbox answers later
than its request. -/
def Dev.replyReady (d : Dev) (h : Half) : Bool := h == .media || !d.mbx.any fun x => x.2 == mbxPort

/-- An instruction shifted into a half's boundary-scan register; while TRST# is low it is IDCODE's, as after the TAP controller's reset (R796).
PRESUMED: that instruction is IEEE 1149.1's. -/
def tapLoad (h : Half) (trstLow : Bool) (i : TapInstr) (d : Dev) : Dev :=
  d.modPw h fun p => { p with ports := { p.ports with tap := if trstLow then .idcode else i } }

/-- The Tarn cores of a half run. DEDUCED: those of the host half from step 2 of start-up on, those of the media half from the step after
the Schrund's training on. -/
def Dev.coresRun (d : Dev) (h : Half) : Bool :=
  !(d.pw h).held && !(d.pw h).halted && !(d.pw h).stopped &&
    decide ((match h with
      | .host => 2
      | .media => 5) ≤ d.rd (CRP_STATUS.STAGE h))

/-! ### Status, registers and the mailbox -/

/-- HLD_STATUS as one value (R709). -/
def Dev.hldStatus (d : Dev) : Nat := regHLD_STATUS.value d.rd

/-- SCH_STATUS of a half as one value. -/
def Dev.schStatus (d : Dev) (h : Half) : Nat := (regSCH_STATUS h).value d.rd

/-- The 32 bytes of STATUS_READ (R778). -/
def Dev.portStatus (d : Dev) (h : Half) : Bytes :=
  leBytes 4 (d.crpStatus h) ++ leBytes 4 (d.fltStatus h) ++ leBytes 8 (d.fltSummary h) ++ leBytes 8 (d.now h) ++
    (match h with
      | .host => leBytes 4 (d.schStatus .host) ++ leBytes 4 d.glbStatus
      | .media => leBytes 4 d.frnStatus ++ leBytes 4 d.hldStatus)

/-- STATUS_READ (R778). -/
def execStatusRead (half : Half) (s : State) : Host.Outcome State Fault Refusal :=
  s.ok (s.dev.when (s.dev.nunatak half) fun d => portReply half portOk (d.portStatus half) d)

/-- Registers that the Nunatak serves while the cores do not (R778): GLB, CRP, FLT, SCH and HLD. -/
def nunatakReg (h : Half) (off : Nat) : Bool :=
  (h == .host && decide (off < 0x100000)) || (decide (0x400000 ≤ off) && decide (off < 0xa00000) && (h == .host || decide (off < 0x500000))) ||
    (decide (0xc00000 ≤ off) && decide (off < 0xe00000)) || (h == .media && decide (0xe00000 ≤ off) && decide (off < 0xf00000))

/-- The register of a half's own space at an offset. -/
def portReg (h : Half) (off : Nat) : Option Reg :=
  match h with
  | .host => pfRegAt 0 off
  | .media => mediaRegAt off

/-- REG_READ (R778): the register that the offset names, at its own size. DEDUCED: an offset that names no register, or another size, is
invalid, and the host half's port sees the BAR0 of endpoint 0. -/
def execRegRead (half : Half) (off size : Nat) (s : State) : Host.Outcome State Fault Refusal :=
  s.ok <| s.dev.when (s.dev.nunatak half) fun d =>
    match (portReg half off).filter (·.size == size) with
    | none => portReply half portInvalid [] d
    | some r =>
      if !d.coresRun half && !nunatakReg half off then portReply half portUnavailable [] d
      else portReply half portOk (leBytes size (match half with
        | .host => readPf s.fuses 0 d r
        | .media => readMedia s.fuses d r)) d

/-- REG_WRITE (R778): by the Tarn cores, without a KEY. -/
def execRegWrite (half : Half) (off size value : Nat) (s : State) : Host.Outcome State Fault Refusal :=
  s.ok <| s.dev.when (s.dev.nunatak half) fun d =>
    if !d.coresRun half then portReply half portUnavailable [] d
    else match half with
      | .host =>
        if (portReg .host off).any (·.size == size) then regWrite (.i3c .host) off size value (portReply .host portOk [] d)
        else portReply .host portInvalid [] d
      | .media =>
        let (st, d) := mediaWrite (.i3c .media) off size value d
        settle (portReply .media (if st = stSuccess then portOk else portInvalid) [] d)

/-- The mailbox of the media half's own port (R776, R778). DEDUCED: OP 01h, whose answer names the host half, is refused there, and a held
media half fails OPs 10h and 11h. -/
def mediaMailbox (op key arg : Nat) (d : Dev) : Dev :=
  let answer (r resp : Nat) (d : Dev) : Dev := portReply .media portOk (leBytes 1 r ++ leBytes 8 resp) d
  if !mbxOps.contains op || op == 1 || (decide (0x10 ≤ op) && key != mbxKey) then answer 1 0 d
  else if (d.pw .media).held ∧ (op = 0x10 ∨ op = 0x11) then answer 4 0 d
  else if op = 0x12 then answer 0 0 (zeroizeAt .media (bit arg 0) d)
  else (fun x : Nat × Dev => answer 0 x.1 x.2) (mbxMedia op (bit arg 0) d)

/-- I3C_MAILBOX (R776 to R778): every OP is permitted. DEDUCED: while a command runs the host half's mailbox is unavailable. -/
def execI3cMailbox (half : Half) (op key arg : Nat) (s : State) : Host.Outcome State Fault Refusal :=
  s.ok <| s.dev.when (s.dev.nunatak half) fun d =>
    match half with
    | .host => if d.mbx.isSome then portReply .host portUnavailable [] d else mbxCmd mbxPort op key arg d
    | .media => mediaMailbox op key arg d

/-- LEDGER_READ (R778): a record by its index, source records first. -/
def execLedgerRead (half : Half) (index : Nat) (s : State) : Host.Outcome State Fault Refusal :=
  s.ok <| s.dev.when (s.dev.nunatak half) fun d =>
    match ((d.led half).recs ++ (d.led half).sums)[index]? with
    | some r => portReply half portOk r.bytes d
    | none => portReply half portInvalid [] d

/-! ### The boot flash, the lifecycle and the device key -/

/-- FLASH_ACCESS (R778): up to 256 bytes of a bank, read, or written where `data` is given. -/
def execFlashAccess (half : Half) (bank off len : Nat) (data : Option Bytes) (s : State) : Host.Outcome State Fault Refusal :=
  let d := s.dev
  let n := match data with
    | some b => b.length
    | none => len
  if !d.nunatak half then .next s
  else if half = .media ∨ 1 < bank ∨ 256 < n ∨ bankSize < off + n then s.ok (portReply half portInvalid [] d)
  else match data with
    | none => s.ok (portReply half portOk (flashRead s.flash (bankBase bank + off) n) d)
    | some b => .next { s with flash := flashWrite s.flash (bankBase bank + off) b, dev := portReply half portOk [] d }

/-- Four key-hash positions. -/
def Fuses.four (f : Fuses) : List Bytes := (List.range 4).map fun i => f.hashes.getD i []

/-- Key-hash positions programmed, each of 48 bytes and only where none stands (R718). -/
def Fuses.program (f : Fuses) (hs : List (Nat × Bytes)) : Fuses :=
  { f with hashes := hs.foldl (fun l h => if l.getD h.1 [0] = [] then setAt l h.1 (h.2.take 48) else l) f.four }

/-- The key-hash part of a LIFECYCLE message is permitted (R718): positions are programmed only in PROVISIONING. -/
def Fuses.mayProgram (f : Fuses) (hs : List (Nat × Bytes)) : Bool :=
  f.lifecycle == 1 && hs.all fun h => decide (h.1 < 4) && decide (h.2.length = 48) && (f.four.getD h.1 [0]).isEmpty

/-- A transition is permitted (R718). -/
def Dev.mayMove (d : Dev) (f : Fuses) (target : Nat) : Bool :=
  (target == 2 && f.lifecycle == 1 && d.rime.devHost.isSome) || (target == 3 && (f.lifecycle == 1 || f.lifecycle == 2))

/-- LIFECYCLE (R718): a transition, on both halves' fuses; into DECOMMISSIONED with the zeroize of R230. The rule names the programming and
the revocation of key hashes through the same port and gives them no OP: here they are operands of this message (DESIGN CHOICE), with target 0
for a message without a transition. -/
def execLifecycle (half : Half) (target : Nat) (hashes : List (Nat × Bytes)) (revoke : Nat) (s : State) :
    Host.Outcome State Fault Refusal :=
  let d := s.dev
  let f := s.fuses
  let keys := !hashes.isEmpty || revoke != 0
  if !d.nunatak half then .next s
  else if 3 < target ∨ 16 ≤ revoke ∨ (keys && half == .media) ∨ (target = 0 ∧ !keys) then s.ok (portReply half portInvalid [] d)
  else if (target ≠ 0 ∧ !d.mayMove f target) ∨ (!hashes.isEmpty && !f.mayProgram hashes) ∨ (revoke ≠ 0 ∧ f.lifecycle = 3) then
    s.ok (portReply half portForbidden [] d)
  else
    let f := { f.program hashes with revoked := f.revoked ||| revoke }
    let f := if target = 0 then f else { f with lifecycle := target }
    let d := portReply half portOk [] d
    .next { s with fuses := f, dev := if target = 3 then settle (zeroize true true true d) else d }

/-- DEVKEY (R198): a device key in the clear, through the host half's port, in PROVISIONING or DEPLOYED while none is held. -/
def execDevkey (half : Half) (key : Bytes) (s : State) : Host.Outcome State Fault Refusal :=
  s.ok <| s.dev.when (s.dev.nunatak half) fun d =>
    if half = .media ∨ key.length ≠ 32 then portReply half portInvalid [] d
    else if (s.fuses.lifecycle ≠ 1 ∧ s.fuses.lifecycle ≠ 2) ∨ d.rime.devHost.isSome ∨ 16 ≤ d.rime.used then
      portReply half portForbidden [] d
    else portReply half portOk [] (placeDevKey key d)

/-! ### IDE key management (R589 to R591) -/

/-- An IDE stream changed. -/
def modIde (e n : Nat) (f : IdeStream → IdeStream) (d : Dev) : Dev :=
  d.modEp e fun x => { x with ide := tput x.ide n (f ((tget x.ide n).getD ⟨false, []⟩)) }

/-- MCTP (R590): an IDE_KM message; its operands are the object, the endpoint and the stream, its bytes the key. PRESUMED: the objects and
their effects are those of the PCI Express standard (0 QUERY, 2 KEY_PROG, 4 K_SET_GO, 5 K_SET_STOP). The reply's bytes are the standard's,
and free here. -/
def execMctp (half : Half) (msg : Msg) (s : State) : Host.Outcome State Fault Refusal :=
  s.ok <| s.dev.when (s.dev.nunatak half) fun d =>
    let a (i : Nat) : Nat := msg.args.getD i 0
    if half = .media then portReply .media portInvalid [] d
    else if (d.pw .host).held then portReply .host portUnavailable [] d
    else if 4 ≤ a 1 ∨ 8 ≤ a 2 ∨ ! [0, 2, 4, 5].contains (a 0) then portReply .host portInvalid [] d
    else
      let d := match a 0 with
        | 2 => modIde (a 1) (a 2) (fun x => { x with key := msg.data.take 32 }) d
        | 4 => modIde (a 1) (a 2) (fun x => { x with secure := !x.key.isEmpty }) d
        | 5 => modIde (a 1) (a 2) (fun x => { x with secure := false }) d
        | _ => d
      let (n, d) := d.draw
      let (b, d) := d.drawBytes (n % 256)
      portReply .host portOk b d

end Sys2Proof.Machine
end

