-- ==== Sys2Proof/Machine/Dispatch.lean ====
section
/-! DEFINITION. The effect of each command: one direct call of its meaning, which stands in the file of its family. -/

namespace Sys2Proof.Machine

/-- The effect of a command on everything but the queue of waiting commands. -/
def exec (i : Instr) (s : State) : Host.Outcome State Fault Refusal :=
  match i with
  | .registerWrite path off size value => Sys2Proof.Machine.execRegisterWrite path off size value s
  | .doorbellWrite fn off size value => Sys2Proof.Machine.execDoorbellWrite fn off size value s
  | .ringFetchGrant pick => Sys2Proof.Machine.execRingFetchGrant pick s
  | .packetFetched order pkt lists run => Sys2Proof.Machine.execPacketFetched order pkt lists run s
  | .arbiterGrant arb waiting => Sys2Proof.Machine.execArbiterGrant arb waiting s
  | .coalescingTimeout q => Sys2Proof.Machine.execCoalescingTimeout q s
  | .nop q tag => Sys2Proof.Machine.execNop q tag s
  | .write q tag run => Sys2Proof.Machine.execWrite q tag run s
  | .read q tag => Sys2Proof.Machine.execRead q tag s
  | .writeZeroes q tag => Sys2Proof.Machine.execWriteZeroes q tag s
  | .deallocate q tag => Sys2Proof.Machine.execDeallocate q tag s
  | .compare q tag data => Sys2Proof.Machine.execCompare q tag data s
  | .compareAndWrite q tag run => Sys2Proof.Machine.execCompareAndWrite q tag run s
  | .verify q tag => Sys2Proof.Machine.execVerify q tag s
  | .copy q tag => Sys2Proof.Machine.execCopy q tag s
  | .groupOpen q tag => Sys2Proof.Machine.execGroupOpen q tag s
  | .groupSeal q tag => Sys2Proof.Machine.execGroupSeal q tag s
  | .groupDiscard q tag => Sys2Proof.Machine.execGroupDiscard q tag s
  | .groupQuery q tag => Sys2Proof.Machine.execGroupQuery q tag s
  | .snapCreate q tag => Sys2Proof.Machine.execSnapCreate q tag s
  | .snapDelete q tag => Sys2Proof.Machine.execSnapDelete q tag s
  | .cloneCreate q tag => Sys2Proof.Machine.execCloneCreate q tag s
  | .calveOpen q tag => Sys2Proof.Machine.execCalveOpen q tag s
  | .calveClose q tag => Sys2Proof.Machine.execCalveClose q tag s
  | .calveApply q tag run => Sys2Proof.Machine.execCalveApply q tag run s
  | .calveSave q tag => Sys2Proof.Machine.execCalveSave q tag s
  | .calveRestore q tag data slice cmp => Sys2Proof.Machine.execCalveRestore q tag data slice cmp s
  | .identify q tag => Sys2Proof.Machine.execIdentify q tag s
  | .logRead q tag => Sys2Proof.Machine.execLogRead q tag s
  | .featureGet q tag => Sys2Proof.Machine.execFeatureGet q tag s
  | .classWeights q tag => Sys2Proof.Machine.execClassWeights q tag s
  | .tenantWeight q tag => Sys2Proof.Machine.execTenantWeight q tag s
  | .classAEvents q tag => Sys2Proof.Machine.execClassAEvents q tag s
  | .poolGeometry q tag => Sys2Proof.Machine.execPoolGeometry q tag s
  | .witnessSet q tag peerPorts => Sys2Proof.Machine.execWitnessSet q tag peerPorts s
  | .enumWindow q tag => Sys2Proof.Machine.execEnumWindow q tag s
  | .mediaReg q tag => Sys2Proof.Machine.execMediaReg q tag s
  | .fwDownload q tag data => Sys2Proof.Machine.execFwDownload q tag data s
  | .fwCommit q tag => Sys2Proof.Machine.execFwCommit q tag s
  | .queueCreate q tag => Sys2Proof.Machine.execQueueCreate q tag s
  | .queueDelete q tag => Sys2Proof.Machine.execQueueDelete q tag s
  | .queueReset q tag => Sys2Proof.Machine.execQueueReset q tag s
  | .queueResetDone q => Sys2Proof.Machine.execQueueResetDone q s
  | .keyLoad q tag data slice cmp => Sys2Proof.Machine.execKeyLoad q tag data slice cmp s
  | .keyErase q tag => Sys2Proof.Machine.execKeyErase q tag s
  | .keyEraseDrained slot => Sys2Proof.Machine.execKeyEraseDrained slot s
  | .nsCreate q tag => Sys2Proof.Machine.execNsCreate q tag s
  | .nsDelete q tag => Sys2Proof.Machine.execNsDelete q tag s
  | .nsAttach q tag => Sys2Proof.Machine.execNsAttach q tag s
  | .nsDetach q tag => Sys2Proof.Machine.execNsDetach q tag s
  | .nsSetPack q tag run => Sys2Proof.Machine.execNsSetPack q tag run s
  | .nsResize q tag => Sys2Proof.Machine.execNsResize q tag s
  | .nsSetFlags q tag => Sys2Proof.Machine.execNsSetFlags q tag s
  | .eventRingSet q tag => Sys2Proof.Machine.execEventRingSet q tag s
  | .qpoolAssign q tag => Sys2Proof.Machine.execQpoolAssign q tag s
  | .maintRequest q tag => Sys2Proof.Machine.execMaintRequest q tag s
  | .maintRelease q tag good => Sys2Proof.Machine.execMaintRelease q tag good s
  | .divergenceResolve q tag => Sys2Proof.Machine.execDivergenceResolve q tag s
  | .releaseMember q tag => Sys2Proof.Machine.execReleaseMember q tag s
  | .returnMember q tag facts good => Sys2Proof.Machine.execReturnMember q tag facts good s
  | .bind q tag facts => Sys2Proof.Machine.execBind q tag facts s
  | .fwStage q tag data => Sys2Proof.Machine.execFwStage q tag data s
  | .fwActivate q tag => Sys2Proof.Machine.execFwActivate q tag s
  | .fwActivateReady pool member ready good => Sys2Proof.Machine.execFwActivateReady pool member ready good s
  | .roleSwap q tag => Sys2Proof.Machine.execRoleSwap q tag s
  | .deviceZeroize q tag => Sys2Proof.Machine.execDeviceZeroize q tag s
  | .diagSelftest q tag stage => Sys2Proof.Machine.execDiagSelftest q tag stage s
  | .diagInject q tag => Sys2Proof.Machine.execDiagInject q tag s
  | .streamBlockTimeout q run => Sys2Proof.Machine.execStreamBlockTimeout q run s
  | .serialLeaseGrant slice run => Sys2Proof.Machine.execSerialLeaseGrant slice run s
  | .invalidate path => Sys2Proof.Machine.execInvalidate path s
  | .invalidateDone => Sys2Proof.Machine.execInvalidateDone s
  | .quarRelease path mask => Sys2Proof.Machine.execQuarRelease path mask s
  | .ingCfgWrite path value => Sys2Proof.Machine.execIngCfgWrite path value s
  | .ingIndexConfigWrite path off value => Sys2Proof.Machine.execIngIndexConfigWrite path off value s
  | .lendTableCopied table => Sys2Proof.Machine.execLendTableCopied table s
  | .gcmResume slice => Sys2Proof.Machine.execGcmResume slice s
  | .nonceLeaseGrant slot => Sys2Proof.Machine.execNonceLeaseGrant slot s
  | .noiseHealthFail => Sys2Proof.Machine.execNoiseHealthFail s
  | .entropyRestored => Sys2Proof.Machine.execEntropyRestored s
  | .drbgReseed => Sys2Proof.Machine.execDrbgReseed s
  | .rimZeroize path value => Sys2Proof.Machine.execRimZeroize path value s
  | .frameReceived link lane frame => Sys2Proof.Machine.execFrameReceived link lane frame s
  | .nak link lane seqs => Sys2Proof.Machine.execNak link lane seqs s
  | .laneDown link lane => Sys2Proof.Machine.execLaneDown link lane s
  | .laneUp link logical lane => Sys2Proof.Machine.execLaneUp link logical lane s
  | .width link width first => Sys2Proof.Machine.execWidth link width first s
  | .peerFatal half cause => Sys2Proof.Machine.execPeerFatal half cause s
  | .laneLost half lane => Sys2Proof.Machine.execLaneLost half lane s
  | .schrundSilenceTimeout half => Sys2Proof.Machine.execSchrundSilenceTimeout half s
  | .schLaneRetry path half => Sys2Proof.Machine.execSchLaneRetry path half s
  | .laneRetrained half lane => Sys2Proof.Machine.execLaneRetrained half lane s
  | .forwardedClockLost both => Sys2Proof.Machine.execForwardedClockLost both s
  | .forwardedClockReturn => Sys2Proof.Machine.execForwardedClockReturn s
  | .writePayload msg => Sys2Proof.Machine.execWritePayload msg s
  | .readPayload msg run => Sys2Proof.Machine.execReadPayload msg run s
  | .writeEnvelope msg => Sys2Proof.Machine.execWriteEnvelope msg s
  | .newChunk msg => Sys2Proof.Machine.execNewChunk msg s
  | .referenceChunk msg => Sys2Proof.Machine.execReferenceChunk msg s
  | .readDescriptor msg => Sys2Proof.Machine.execReadDescriptor msg s
  | .otherIo msg => Sys2Proof.Machine.execOtherIo msg s
  | .freezeGroupOperation msg => Sys2Proof.Machine.execFreezeGroupOperation msg s
  | .varveOperation msg => Sys2Proof.Machine.execVarveOperation msg s
  | .completionMessage msg lend => Sys2Proof.Machine.execCompletionMessage msg lend s
  | .referenceRefused msg run => Sys2Proof.Machine.execReferenceRefused msg run s
  | .managementRequest half id req => Sys2Proof.Machine.execManagementRequest half id req s
  | .managementReply half id status data => Sys2Proof.Machine.execManagementReply half id status data s
  | .timeMark tb seq => Sys2Proof.Machine.execTimeMark tb seq s
  | .faultNotice half source code count time => Sys2Proof.Machine.execFaultNotice half source code count time s
  | .recordAdmitted => Sys2Proof.Machine.execRecordAdmitted s
  | .localCopyWritten pool seq => Sys2Proof.Machine.execLocalCopyWritten pool seq s
  | .writeCommit pool seq => Sys2Proof.Machine.execWriteCommit pool seq s
  | .recordApply pool => Sys2Proof.Machine.execRecordApply pool s
  | .destageStart pool slot => Sys2Proof.Machine.execDestageStart pool slot s
  | .stripeCloseTimeout pool slot => Sys2Proof.Machine.execStripeCloseTimeout pool slot s
  | .intentMet pool stripe => Sys2Proof.Machine.execIntentMet pool stripe s
  | .releaseMet pool stripe => Sys2Proof.Machine.execReleaseMet pool stripe s
  | .groupSealProceed fn tag => Sys2Proof.Machine.execGroupSealProceed fn tag s
  | .groupCommit fn tag => Sys2Proof.Machine.execGroupCommit fn tag s
  | .groupTimeout fn tag => Sys2Proof.Machine.execGroupTimeout fn tag s
  | .tombstoneExpiry fn tag => Sys2Proof.Machine.execTombstoneExpiry fn tag s
  | .abortRecordOnMedium fn tag => Sys2Proof.Machine.execAbortRecordOnMedium fn tag s
  | .frnDump path value => Sys2Proof.Machine.execFrnDump path value s
  | .dumpEnd => Sys2Proof.Machine.execDumpEnd s
  | .restoreEnd => Sys2Proof.Machine.execRestoreEnd s
  | .frnCfgWrite path value => Sys2Proof.Machine.execFrnCfgWrite path value s
  | .moraineJobComplete pool stripe engine agree => Sys2Proof.Machine.execMoraineJobComplete pool stripe engine agree s
  | .engRelease path mask => Sys2Proof.Machine.execEngRelease path mask s
  | .driveAbsenceTimeout pool member => Sys2Proof.Machine.execDriveAbsenceTimeout pool member s
  | .rebuildJobStart pool => Sys2Proof.Machine.execRebuildJobStart pool s
  | .rebuildMarkTimer pool => Sys2Proof.Machine.execRebuildMarkTimer pool s
  | .poolPlacementRetry pool => Sys2Proof.Machine.execPoolPlacementRetry pool s
  | .scrubStripe pool => Sys2Proof.Machine.execScrubStripe pool s
  | .scrubLate pool => Sys2Proof.Machine.execScrubLate pool s
  | .activityLimitExpiry activity good => Sys2Proof.Machine.execActivityLimitExpiry activity good s
  | .memberHeld pool member => Sys2Proof.Machine.execMemberHeld pool member s
  | .evacuationRowCopy pool member => Sys2Proof.Machine.execEvacuationRowCopy pool member s
  | .prune pool => Sys2Proof.Machine.execPrune pool s
  | .compaction pool slot => Sys2Proof.Machine.execCompaction pool slot s
  | .calveMessageWrite stream run => Sys2Proof.Machine.execCalveMessageWrite stream run s
  | .record msg => Sys2Proof.Machine.execRecord msg s
  | .ack msg => Sys2Proof.Machine.execAck msg s
  | .refuse msg => Sys2Proof.Machine.execRefuse msg s
  | .echo msg => Sys2Proof.Machine.execEcho msg s
  | .reportFaultNotice source time => Sys2Proof.Machine.execReportFaultNotice source time s
  | .reportPathLoss pool member => Sys2Proof.Machine.execReportPathLoss pool member s
  | .reportDivergentStripe pool stripe cause synd agree => Sys2Proof.Machine.execReportDivergentStripe pool stripe cause synd agree s
  | .reportLocatedStrip pool stripe => Sys2Proof.Machine.execReportLocatedStrip pool stripe s
  | .coord msg => Sys2Proof.Machine.execCoord msg s
  | .pair msg => Sys2Proof.Machine.execPair msg s
  | .recon msg => Sys2Proof.Machine.execRecon msg s
  | .swap pools heads => Sys2Proof.Machine.execSwap pools heads s
  | .sidebandWord cable word => Sys2Proof.Machine.execSidebandWord cable word s
  | .echoSend => Sys2Proof.Machine.execEchoSend s
  | .sidebandSend => Sys2Proof.Machine.execSidebandSend s
  | .sidebandSilent cable => Sys2Proof.Machine.execSidebandSilent cable s
  | .echoTimeout => Sys2Proof.Machine.execEchoTimeout s
  | .recordAckTimeout pool seq => Sys2Proof.Machine.execRecordAckTimeout pool seq s
  | .linkLossTimeout => Sys2Proof.Machine.execLinkLossTimeout s
  | .selfCheckEnd ok => Sys2Proof.Machine.execSelfCheckEnd ok s
  | .witnessRetry => Sys2Proof.Machine.execWitnessRetry s
  | .splitTimeout => Sys2Proof.Machine.execSplitTimeout s
  | .witnessTakeoverWrite => Sys2Proof.Machine.execWitnessTakeoverWrite s
  | .reservationPreempt drive => Sys2Proof.Machine.execReservationPreempt drive s
  | .resyncEnd => Sys2Proof.Machine.execResyncEnd s
  | .pairingStart => Sys2Proof.Machine.execPairingStart s
  | .reconcileStepEnd => Sys2Proof.Machine.execReconcileStepEnd s
  | .snowbridgeLaneLost lane uncorrectable => Sys2Proof.Machine.execSnowbridgeLaneLost lane uncorrectable s
  | .laneAutoRetrain lane => Sys2Proof.Machine.execLaneAutoRetrain lane s
  | .linkGcmWrite path value => Sys2Proof.Machine.execLinkGcmWrite path value s
  | .twnLaneRetry path => Sys2Proof.Machine.execTwnLaneRetry path s
  | .rejoin path => Sys2Proof.Machine.execRejoin path s
  | .tbOffsetUpdate => Sys2Proof.Machine.execTbOffsetUpdate s
  | .swapDrainEnd => Sys2Proof.Machine.execSwapDrainEnd s
  | .activationResume => Sys2Proof.Machine.execActivationResume s
  | .activationFallback => Sys2Proof.Machine.execActivationFallback s
  | .endpointLinkUp ep width speed flit => Sys2Proof.Machine.execEndpointLinkUp ep width speed flit s
  | .endpointReset ep perst => Sys2Proof.Machine.execEndpointReset ep perst s
  | .busMasterEnableClear fn => Sys2Proof.Machine.execBusMasterEnableClear fn s
  | .busMasterEnableSet fn => Sys2Proof.Machine.execBusMasterEnableSet fn s
  | .vfEnableSet ep => Sys2Proof.Machine.execVfEnableSet ep s
  | .vfEnableClear ep => Sys2Proof.Machine.execVfEnableClear ep s
  | .functionLevelReset fn => Sys2Proof.Machine.execFunctionLevelReset fn s
  | .flrComplete fn => Sys2Proof.Machine.execFlrComplete fn s
  | .d3hotEntry fn => Sys2Proof.Machine.execD3hotEntry fn s
  | .d0Return fn => Sys2Proof.Machine.execD0Return fn s
  | .msixEntryWrite fn off size value => Sys2Proof.Machine.execMsixEntryWrite fn off size value s
  | .vectorUnmask fn vector => Sys2Proof.Machine.execVectorUnmask fn vector s
  | .completionTimeout fn why => Sys2Proof.Machine.execCompletionTimeout fn why s
  | .requestError fn why poisoned => Sys2Proof.Machine.execRequestError fn why poisoned s
  | .poisonedWrite fn => Sys2Proof.Machine.execPoisonedWrite fn s
  | .ideCheckFailed ep stream => Sys2Proof.Machine.execIdeCheckFailed ep stream s
  | .l1Request ep sub => Sys2Proof.Machine.execL1Request ep sub s
  | .l0pNarrow ep tx => Sys2Proof.Machine.execL0pNarrow ep tx s
  | .l0pWiden ep tx => Sys2Proof.Machine.execL0pWiden ep tx s
  | .driveInserted port place speed width => Sys2Proof.Machine.execDriveInserted port place speed width s
  | .driveReady index facts => Sys2Proof.Machine.execDriveReady index facts s
  | .driveReadyTimeout index => Sys2Proof.Machine.execDriveReadyTimeout index s
  | .driveRemoved index => Sys2Proof.Machine.execDriveRemoved index s
  | .nvmeCompletion cid sct sc data => Sys2Proof.Machine.execNvmeCompletion cid sct sc data s
  | .nvmeCommandTimeout cid => Sys2Proof.Machine.execNvmeCommandTimeout cid s
  | .abortTimeout cid => Sys2Proof.Machine.execAbortTimeout cid s
  | .readHedgeTimeout cid => Sys2Proof.Machine.execReadHedgeTimeout cid s
  | .namespaceNotReadyRetry cid => Sys2Proof.Machine.execNamespaceNotReadyRetry cid s
  | .enumWindowExpiry pool => Sys2Proof.Machine.execEnumWindowExpiry pool s
  | .drvPortCfgWrite path value => Sys2Proof.Machine.execDrvPortCfgWrite path value s
  | .kick path ch => Sys2Proof.Machine.execKick path ch s
  | .pause path ch => Sys2Proof.Machine.execPause path ch s
  | .resume path ch => Sys2Proof.Machine.execResume path ch s
  | .abort path ch => Sys2Proof.Machine.execAbort path ch s
  | .channelPaused half ch => Sys2Proof.Machine.execChannelPaused half ch s
  | .abortDrained half ch => Sys2Proof.Machine.execAbortDrained half ch s
  | .descriptorRead half ch desc => Sys2Proof.Machine.execDescriptorRead half ch desc s
  | .move half ch arrived => Sys2Proof.Machine.execMove half ch arrived s
  | .loop half ch instr => Sys2Proof.Machine.execLoop half ch instr s
  | .wait half ch instr => Sys2Proof.Machine.execWait half ch instr s
  | .signal half ch instr => Sys2Proof.Machine.execSignal half ch instr s
  | .endInstr half ch instr => Sys2Proof.Machine.execEndInstr half ch instr s
  | .floeBurstGrant half => Sys2Proof.Machine.execFloeBurstGrant half s
  | .writeResponse half ch => Sys2Proof.Machine.execWriteResponse half ch s
  | .busError half ch => Sys2Proof.Machine.execBusError half ch s
  | .waitTimeout half ch => Sys2Proof.Machine.execWaitTimeout half ch s
  | .floSwreq path value => Sys2Proof.Machine.execFloSwreq path value s
  | .floEventSet path value => Sys2Proof.Machine.execFloEventSet path value s
  | .floEventClr path value => Sys2Proof.Machine.execFloEventClr path value s
  | .floChConfigWrite path off size value => Sys2Proof.Machine.execFloChConfigWrite path off size value s
  | .converterWindow current mv => Sys2Proof.Machine.execConverterWindow current mv s
  | .offsetZeroing offset => Sys2Proof.Machine.execOffsetZeroing offset s
  | .temperatureSample temp => Sys2Proof.Machine.execTemperatureSample temp s
  | .gapRecovery mv => Sys2Proof.Machine.execGapRecovery mv s
  | .restPoint mv => Sys2Proof.Machine.execRestPoint mv s
  | .learnRestTimeout => Sys2Proof.Machine.execLearnRestTimeout s
  | .energyRecompute => Sys2Proof.Machine.execEnergyRecompute s
  | .chargeTerminate => Sys2Proof.Machine.execChargeTerminate s
  | .holdupFault cause => Sys2Proof.Machine.execHoldupFault cause s
  | .holdupFaultClear cause => Sys2Proof.Machine.execHoldupFaultClear cause s
  | .packAbsent => Sys2Proof.Machine.execPackAbsent s
  | .eepromPeriodicRecord good => Sys2Proof.Machine.execEepromPeriodicRecord good s
  | .learnStart path => Sys2Proof.Machine.execLearnStart path s
  | .learnStop path => Sys2Proof.Machine.execLearnStop path s
  | .hldDisconnect path => Sys2Proof.Machine.execHldDisconnect path s
  | .hldConnect path => Sys2Proof.Machine.execHldConnect path s
  | .hldPackChange path => Sys2Proof.Machine.execHldPackChange path s
  | .powerOn half => Sys2Proof.Machine.execPowerOn half s
  | .pwrgdHDeassert => Sys2Proof.Machine.execPwrgdHDeassert s
  | .pwrgdMDeassert => Sys2Proof.Machine.execPwrgdMDeassert s
  | .coldRstPin half => Sys2Proof.Machine.execColdRstPin half s
  | .startup facts => Sys2Proof.Machine.execStartup facts s
  | .schrundTrainingRetry facts => Sys2Proof.Machine.execSchrundTrainingRetry facts s
  | .crpCold path half => Sys2Proof.Machine.execCrpCold path half s
  | .crpWarm path half => Sys2Proof.Machine.execCrpWarm path half s
  | .thermalSample half tj hbm => Sys2Proof.Machine.execThermalSample half tj hbm s
  | .thermalTrip half => Sys2Proof.Machine.execThermalTrip half s
  | .referenceLost => Sys2Proof.Machine.execReferenceLost s
  | .stormIntervalEnd half => Sys2Proof.Machine.execStormIntervalEnd half s
  | .faultEventDeferred half source => Sys2Proof.Machine.execFaultEventDeferred half source s
  | .watchdogExpiry half => Sys2Proof.Machine.execWatchdogExpiry half s
  | .wdogKick path half => Sys2Proof.Machine.execWdogKick path half s
  | .newEpoch path half => Sys2Proof.Machine.execNewEpoch path half s
  | .fltLastGasp path half => Sys2Proof.Machine.execFltLastGasp path half s
  | .rngEvHeadWrite fn value => Sys2Proof.Machine.execRngEvHeadWrite fn value s
  | .rngAqCfgWrite fn value => Sys2Proof.Machine.execRngAqCfgWrite fn value s
  | .adminQueueReady fn => Sys2Proof.Machine.execAdminQueueReady fn s
  | .mbxStatus ep key => Sys2Proof.Machine.execMbxStatus ep key s
  | .mbxMediaStatus ep key => Sys2Proof.Machine.execMbxMediaStatus ep key s
  | .mbxDump ep key => Sys2Proof.Machine.execMbxDump ep key s
  | .mbxFence ep key => Sys2Proof.Machine.execMbxFence ep key s
  | .mbxZeroize ep key => Sys2Proof.Machine.execMbxZeroize ep key s
  | .mbxPackDisconnect ep key => Sys2Proof.Machine.execMbxPackDisconnect ep key s
  | .mbxLastGasp ep key => Sys2Proof.Machine.execMbxLastGasp ep key s
  | .statusRead half => Sys2Proof.Machine.execStatusRead half s
  | .regRead half off size => Sys2Proof.Machine.execRegRead half off size s
  | .regWrite half off size value => Sys2Proof.Machine.execRegWrite half off size value s
  | .i3cMailbox half op key arg => Sys2Proof.Machine.execI3cMailbox half op key arg s
  | .ledgerRead half index => Sys2Proof.Machine.execLedgerRead half index s
  | .flashAccess half bank off len data => Sys2Proof.Machine.execFlashAccess half bank off len data s
  | .lifecycle half target hashes revoke => Sys2Proof.Machine.execLifecycle half target hashes revoke s
  | .devkey half key => Sys2Proof.Machine.execDevkey half key s
  | .mctp half msg => Sys2Proof.Machine.execMctp half msg s
  | .spareAligned half lane => Sys2Proof.Machine.execSpareAligned half lane s
  | .clockMarker => Sys2Proof.Machine.execClockMarker s
  | .alwaysOnRailLoss half => Sys2Proof.Machine.execAlwaysOnRailLoss half s
  | .perstRelease ep => Sys2Proof.Machine.execPerstRelease ep s
  | .snowbridgeLaneTrained lane => Sys2Proof.Machine.execSnowbridgeLaneTrained lane s
  | .controllerFatalStatus index => Sys2Proof.Machine.execControllerFatalStatus index s

end Sys2Proof.Machine
end

