-- ==== Sys2Proof/Machine/Tick.lean ====
section
/-! DEFINITION. The passing of time (R22, R246). -/

namespace Sys2Proof.Machine

/-- The timebases after one tick of 10 ns: that of a half counts while the half is not held in reset; the media half may withhold a tick
(R22, R274). -/
def tickClocks (d : Dev) : Dev :=
  let c := d.clocks
  { d with
    tbHost := (d.tbHost + b2n !(d.pw .host).held) % 2 ^ 64
    tbMedia := (d.tbMedia + b2n (!(d.pw .media).held && !c.withhold)) % 2 ^ 64
    clocks := { c with withhold := false } }

/-- What the links send as time passes: the frames that may go now, or idle frames (R48, R246, R253). -/
def tickLinks (d : Dev) : Dev :=
  let sch (d : Dev) (h : Half) : Dev := d.when (d.is (SCH_STATUS.UP h) && !d.is (SCH_STATUS.PEER_DOWN h)) (linkTick (.sch h))
  linkTick .snow (d.each [Half.host, Half.media] sch)

/-- The write arbiter of each endpoint grants one request of the held results that wait there (R582, R583). -/
def tickDeliveries (d : Dev) : Dev :=
  d.each (List.range 4) fun d e =>
    match grantSome 8 (.epWrite e) (d.deliveries e) [] d with
    | (some r, d) => deliverGrant r d
    | (none, d) => d

/-- After a pairing the media half reads the marks of every pool again (R128). DESIGN CHOICE: it has read them by the next tick. -/
def tickMarks (d : Dev) : Dev :=
  if d.ingest.marksRead || d.is FRN_STATUS.RESTORING || d.tstate ≠ 5 then d else d.modIng fun i => { i with marksRead := true }

/-- What the link cipher has to report (R818), and its lease where messages wait for one (R210); those that meet no mark left, or no lane, are
not sent (R211). -/
def tickSealed (d : Dev) : Dev :=
  let d := (d.modRime fun r => { r with linkFaults := [] }).each d.rime.linkFaults fun d c => fault .media 4 0x10 c false d
  if d.twin.sealed.isEmpty then d
  else if d.snow.tx.lanes.isEmpty || d.snow.tx.stopped then d.modTwin fun t => { t with sealed := [] }
  else if !d.sealWaits then sendSealed d
  else match askNonce linkSlot d with
    | (0, d) => d
    | (_, d) => d.modTwin fun t => { t with sealed := [] }

/-- The other twin is told of reads of former snapshots that are over (R475). -/
def tickReads (d : Dev) : Dev := d.each (d.nss.filter fun e => !e.2.gone.isEmpty) fun d e => tellReads e.1 e.2 d

/-- The writes of Floe channels into the registers of their halves land (R653). PRESUMED: the address is the register's offset. -/
def tickFloe (d : Dev) : Dev :=
  ({ d with floe := { d.floe with regWrites := [] } } : Dev).each d.floe.regWrites fun d w =>
    regWrite (.firmware w.1) w.2.1 w.2.2.length (getLe w.2.2 0 w.2.2.length) d

/-- One tick of 10 ns. DESIGN CHOICE: a step on an empty queue is this tick; a link end then sends what a frame time lets it, and a delivery
of held results goes on (see the log). -/
def tick (s : State) : State :=
  { s with dev := tickFloe (tickReads (tickSealed (tickMarks (tickDeliveries (tickLinks (tickClocks s.dev)))))) }

end Sys2Proof.Machine
end

