-- ==== Sys2Proof/Laws/State.lean ====
section
/-! SUPPORT. What each update of the device leaves of each field: one lemma per update and field, true by unfolding, so that
no later proof opens a record. -/

namespace Sys2Proof.Machine


/-! ### wr -/

@[simp] theorem Dev.wr_tbHost (d : Dev) (f : Field) (v : Nat) : (d.wr f v).tbHost = d.tbHost := rfl
@[simp] theorem Dev.wr_tbMedia (d : Dev) (f : Field) (v : Nat) : (d.wr f v).tbMedia = d.tbMedia := rfl
@[simp] theorem Dev.wr_clocks (d : Dev) (f : Field) (v : Nat) : (d.wr f v).clocks = d.clocks := rfl
@[simp] theorem Dev.wr_out (d : Dev) (f : Field) (v : Nat) : (d.wr f v).out = d.out := rfl
@[simp] theorem Dev.wr_free (d : Dev) (f : Field) (v : Nat) : (d.wr f v).free = d.free := rfl
@[simp] theorem Dev.wr_rings (d : Dev) (f : Field) (v : Nat) : (d.wr f v).rings = d.rings := rfl
@[simp] theorem Dev.wr_arbs (d : Dev) (f : Field) (v : Nat) : (d.wr f v).arbs = d.arbs := rfl
@[simp] theorem Dev.wr_fns (d : Dev) (f : Field) (v : Nat) : (d.wr f v).fns = d.fns := rfl
@[simp] theorem Dev.wr_eps (d : Dev) (f : Field) (v : Nat) : (d.wr f v).eps = d.eps := rfl
@[simp] theorem Dev.wr_ingest (d : Dev) (f : Field) (v : Nat) : (d.wr f v).ingest = d.ingest := rfl
@[simp] theorem Dev.wr_rime (d : Dev) (f : Field) (v : Nat) : (d.wr f v).rime = d.rime := rfl
@[simp] theorem Dev.wr_sch (d : Dev) (f : Field) (v : Nat) : (d.wr f v).sch = d.sch := rfl
@[simp] theorem Dev.wr_snow (d : Dev) (f : Field) (v : Nat) : (d.wr f v).snow = d.snow := rfl
@[simp] theorem Dev.wr_firn (d : Dev) (f : Field) (v : Nat) : (d.wr f v).firn = d.firn := rfl
@[simp] theorem Dev.wr_ctxs (d : Dev) (f : Field) (v : Nat) : (d.wr f v).ctxs = d.ctxs := rfl
@[simp] theorem Dev.wr_xmap (d : Dev) (f : Field) (v : Nat) : (d.wr f v).xmap = d.xmap := rfl
@[simp] theorem Dev.wr_destages (d : Dev) (f : Field) (v : Nat) : (d.wr f v).destages = d.destages := rfl
@[simp] theorem Dev.wr_reads (d : Dev) (f : Field) (v : Nat) : (d.wr f v).reads = d.reads := rfl
@[simp] theorem Dev.wr_pools (d : Dev) (f : Field) (v : Nat) : (d.wr f v).pools = d.pools := rfl
@[simp] theorem Dev.wr_maint (d : Dev) (f : Field) (v : Nat) : (d.wr f v).maint = d.maint := rfl
@[simp] theorem Dev.wr_nss (d : Dev) (f : Field) (v : Nat) : (d.wr f v).nss = d.nss := rfl
@[simp] theorem Dev.wr_streams (d : Dev) (f : Field) (v : Nat) : (d.wr f v).streams = d.streams := rfl
@[simp] theorem Dev.wr_twin (d : Dev) (f : Field) (v : Nat) : (d.wr f v).twin = d.twin := rfl
@[simp] theorem Dev.wr_drives (d : Dev) (f : Field) (v : Nat) : (d.wr f v).drives = d.drives := rfl
@[simp] theorem Dev.wr_floe (d : Dev) (f : Field) (v : Nat) : (d.wr f v).floe = d.floe := rfl
@[simp] theorem Dev.wr_gauge (d : Dev) (f : Field) (v : Nat) : (d.wr f v).gauge = d.gauge := rfl
@[simp] theorem Dev.wr_staging (d : Dev) (f : Field) (v : Nat) : (d.wr f v).staging = d.staging := rfl
@[simp] theorem Dev.wr_ledger (d : Dev) (f : Field) (v : Nat) : (d.wr f v).ledger = d.ledger := rfl
@[simp] theorem Dev.wr_power (d : Dev) (f : Field) (v : Nat) : (d.wr f v).power = d.power := rfl
@[simp] theorem Dev.wr_thermal (d : Dev) (f : Field) (v : Nat) : (d.wr f v).thermal = d.thermal := rfl
@[simp] theorem Dev.wr_image (d : Dev) (f : Field) (v : Nat) : (d.wr f v).image = d.image := rfl
@[simp] theorem Dev.wr_straps (d : Dev) (f : Field) (v : Nat) : (d.wr f v).straps = d.straps := rfl
@[simp] theorem Dev.wr_serial (d : Dev) (f : Field) (v : Nat) : (d.wr f v).serial = d.serial := rfl
@[simp] theorem Dev.wr_mbx (d : Dev) (f : Field) (v : Nat) : (d.wr f v).mbx = d.mbx := rfl
@[simp] theorem Dev.wr_schLock (d : Dev) (f : Field) (v : Nat) : (d.wr f v).schLock = d.schLock := rfl
@[simp] theorem Dev.wr_moraine (d : Dev) (f : Field) (v : Nat) : (d.wr f v).moraine = d.moraine := rfl
@[simp] theorem Dev.wr_mapLog (d : Dev) (f : Field) (v : Nat) : (d.wr f v).mapLog = d.mapLog := rfl

/-! ### emit -/

@[simp] theorem Dev.emit_tbHost (d : Dev) (o : Out) : (d.emit o).tbHost = d.tbHost := rfl
@[simp] theorem Dev.emit_tbMedia (d : Dev) (o : Out) : (d.emit o).tbMedia = d.tbMedia := rfl
@[simp] theorem Dev.emit_clocks (d : Dev) (o : Out) : (d.emit o).clocks = d.clocks := rfl
@[simp] theorem Dev.emit_regs (d : Dev) (o : Out) : (d.emit o).regs = d.regs := rfl
@[simp] theorem Dev.emit_free (d : Dev) (o : Out) : (d.emit o).free = d.free := rfl
@[simp] theorem Dev.emit_rings (d : Dev) (o : Out) : (d.emit o).rings = d.rings := rfl
@[simp] theorem Dev.emit_arbs (d : Dev) (o : Out) : (d.emit o).arbs = d.arbs := rfl
@[simp] theorem Dev.emit_fns (d : Dev) (o : Out) : (d.emit o).fns = d.fns := rfl
@[simp] theorem Dev.emit_eps (d : Dev) (o : Out) : (d.emit o).eps = d.eps := rfl
@[simp] theorem Dev.emit_ingest (d : Dev) (o : Out) : (d.emit o).ingest = d.ingest := rfl
@[simp] theorem Dev.emit_rime (d : Dev) (o : Out) : (d.emit o).rime = d.rime := rfl
@[simp] theorem Dev.emit_sch (d : Dev) (o : Out) : (d.emit o).sch = d.sch := rfl
@[simp] theorem Dev.emit_snow (d : Dev) (o : Out) : (d.emit o).snow = d.snow := rfl
@[simp] theorem Dev.emit_firn (d : Dev) (o : Out) : (d.emit o).firn = d.firn := rfl
@[simp] theorem Dev.emit_ctxs (d : Dev) (o : Out) : (d.emit o).ctxs = d.ctxs := rfl
@[simp] theorem Dev.emit_xmap (d : Dev) (o : Out) : (d.emit o).xmap = d.xmap := rfl
@[simp] theorem Dev.emit_destages (d : Dev) (o : Out) : (d.emit o).destages = d.destages := rfl
@[simp] theorem Dev.emit_reads (d : Dev) (o : Out) : (d.emit o).reads = d.reads := rfl
@[simp] theorem Dev.emit_pools (d : Dev) (o : Out) : (d.emit o).pools = d.pools := rfl
@[simp] theorem Dev.emit_maint (d : Dev) (o : Out) : (d.emit o).maint = d.maint := rfl
@[simp] theorem Dev.emit_nss (d : Dev) (o : Out) : (d.emit o).nss = d.nss := rfl
@[simp] theorem Dev.emit_streams (d : Dev) (o : Out) : (d.emit o).streams = d.streams := rfl
@[simp] theorem Dev.emit_twin (d : Dev) (o : Out) : (d.emit o).twin = d.twin := rfl
@[simp] theorem Dev.emit_drives (d : Dev) (o : Out) : (d.emit o).drives = d.drives := rfl
@[simp] theorem Dev.emit_floe (d : Dev) (o : Out) : (d.emit o).floe = d.floe := rfl
@[simp] theorem Dev.emit_gauge (d : Dev) (o : Out) : (d.emit o).gauge = d.gauge := rfl
@[simp] theorem Dev.emit_staging (d : Dev) (o : Out) : (d.emit o).staging = d.staging := rfl
@[simp] theorem Dev.emit_ledger (d : Dev) (o : Out) : (d.emit o).ledger = d.ledger := rfl
@[simp] theorem Dev.emit_power (d : Dev) (o : Out) : (d.emit o).power = d.power := rfl
@[simp] theorem Dev.emit_thermal (d : Dev) (o : Out) : (d.emit o).thermal = d.thermal := rfl
@[simp] theorem Dev.emit_image (d : Dev) (o : Out) : (d.emit o).image = d.image := rfl
@[simp] theorem Dev.emit_straps (d : Dev) (o : Out) : (d.emit o).straps = d.straps := rfl
@[simp] theorem Dev.emit_serial (d : Dev) (o : Out) : (d.emit o).serial = d.serial := rfl
@[simp] theorem Dev.emit_mbx (d : Dev) (o : Out) : (d.emit o).mbx = d.mbx := rfl
@[simp] theorem Dev.emit_schLock (d : Dev) (o : Out) : (d.emit o).schLock = d.schLock := rfl
@[simp] theorem Dev.emit_moraine (d : Dev) (o : Out) : (d.emit o).moraine = d.moraine := rfl
@[simp] theorem Dev.emit_mapLog (d : Dev) (o : Out) : (d.emit o).mapLog = d.mapLog := rfl

/-! ### emits -/

@[simp] theorem Dev.emits_tbHost (d : Dev) (os : List Out) : (d.emits os).tbHost = d.tbHost := rfl
@[simp] theorem Dev.emits_tbMedia (d : Dev) (os : List Out) : (d.emits os).tbMedia = d.tbMedia := rfl
@[simp] theorem Dev.emits_clocks (d : Dev) (os : List Out) : (d.emits os).clocks = d.clocks := rfl
@[simp] theorem Dev.emits_regs (d : Dev) (os : List Out) : (d.emits os).regs = d.regs := rfl
@[simp] theorem Dev.emits_free (d : Dev) (os : List Out) : (d.emits os).free = d.free := rfl
@[simp] theorem Dev.emits_rings (d : Dev) (os : List Out) : (d.emits os).rings = d.rings := rfl
@[simp] theorem Dev.emits_arbs (d : Dev) (os : List Out) : (d.emits os).arbs = d.arbs := rfl
@[simp] theorem Dev.emits_fns (d : Dev) (os : List Out) : (d.emits os).fns = d.fns := rfl
@[simp] theorem Dev.emits_eps (d : Dev) (os : List Out) : (d.emits os).eps = d.eps := rfl
@[simp] theorem Dev.emits_ingest (d : Dev) (os : List Out) : (d.emits os).ingest = d.ingest := rfl
@[simp] theorem Dev.emits_rime (d : Dev) (os : List Out) : (d.emits os).rime = d.rime := rfl
@[simp] theorem Dev.emits_sch (d : Dev) (os : List Out) : (d.emits os).sch = d.sch := rfl
@[simp] theorem Dev.emits_snow (d : Dev) (os : List Out) : (d.emits os).snow = d.snow := rfl
@[simp] theorem Dev.emits_firn (d : Dev) (os : List Out) : (d.emits os).firn = d.firn := rfl
@[simp] theorem Dev.emits_ctxs (d : Dev) (os : List Out) : (d.emits os).ctxs = d.ctxs := rfl
@[simp] theorem Dev.emits_xmap (d : Dev) (os : List Out) : (d.emits os).xmap = d.xmap := rfl
@[simp] theorem Dev.emits_destages (d : Dev) (os : List Out) : (d.emits os).destages = d.destages := rfl
@[simp] theorem Dev.emits_reads (d : Dev) (os : List Out) : (d.emits os).reads = d.reads := rfl
@[simp] theorem Dev.emits_pools (d : Dev) (os : List Out) : (d.emits os).pools = d.pools := rfl
@[simp] theorem Dev.emits_maint (d : Dev) (os : List Out) : (d.emits os).maint = d.maint := rfl
@[simp] theorem Dev.emits_nss (d : Dev) (os : List Out) : (d.emits os).nss = d.nss := rfl
@[simp] theorem Dev.emits_streams (d : Dev) (os : List Out) : (d.emits os).streams = d.streams := rfl
@[simp] theorem Dev.emits_twin (d : Dev) (os : List Out) : (d.emits os).twin = d.twin := rfl
@[simp] theorem Dev.emits_drives (d : Dev) (os : List Out) : (d.emits os).drives = d.drives := rfl
@[simp] theorem Dev.emits_floe (d : Dev) (os : List Out) : (d.emits os).floe = d.floe := rfl
@[simp] theorem Dev.emits_gauge (d : Dev) (os : List Out) : (d.emits os).gauge = d.gauge := rfl
@[simp] theorem Dev.emits_staging (d : Dev) (os : List Out) : (d.emits os).staging = d.staging := rfl
@[simp] theorem Dev.emits_ledger (d : Dev) (os : List Out) : (d.emits os).ledger = d.ledger := rfl
@[simp] theorem Dev.emits_power (d : Dev) (os : List Out) : (d.emits os).power = d.power := rfl
@[simp] theorem Dev.emits_thermal (d : Dev) (os : List Out) : (d.emits os).thermal = d.thermal := rfl
@[simp] theorem Dev.emits_image (d : Dev) (os : List Out) : (d.emits os).image = d.image := rfl
@[simp] theorem Dev.emits_straps (d : Dev) (os : List Out) : (d.emits os).straps = d.straps := rfl
@[simp] theorem Dev.emits_serial (d : Dev) (os : List Out) : (d.emits os).serial = d.serial := rfl
@[simp] theorem Dev.emits_mbx (d : Dev) (os : List Out) : (d.emits os).mbx = d.mbx := rfl
@[simp] theorem Dev.emits_schLock (d : Dev) (os : List Out) : (d.emits os).schLock = d.schLock := rfl
@[simp] theorem Dev.emits_moraine (d : Dev) (os : List Out) : (d.emits os).moraine = d.moraine := rfl
@[simp] theorem Dev.emits_mapLog (d : Dev) (os : List Out) : (d.emits os).mapLog = d.mapLog := rfl

/-! ### modFn -/

@[simp] theorem Dev.modFn_tbHost (d : Dev) (n : Nat) (f : Fn → Fn) : (d.modFn n f).tbHost = d.tbHost := rfl
@[simp] theorem Dev.modFn_tbMedia (d : Dev) (n : Nat) (f : Fn → Fn) : (d.modFn n f).tbMedia = d.tbMedia := rfl
@[simp] theorem Dev.modFn_clocks (d : Dev) (n : Nat) (f : Fn → Fn) : (d.modFn n f).clocks = d.clocks := rfl
@[simp] theorem Dev.modFn_regs (d : Dev) (n : Nat) (f : Fn → Fn) : (d.modFn n f).regs = d.regs := rfl
@[simp] theorem Dev.modFn_out (d : Dev) (n : Nat) (f : Fn → Fn) : (d.modFn n f).out = d.out := rfl
@[simp] theorem Dev.modFn_free (d : Dev) (n : Nat) (f : Fn → Fn) : (d.modFn n f).free = d.free := rfl
@[simp] theorem Dev.modFn_rings (d : Dev) (n : Nat) (f : Fn → Fn) : (d.modFn n f).rings = d.rings := rfl
@[simp] theorem Dev.modFn_arbs (d : Dev) (n : Nat) (f : Fn → Fn) : (d.modFn n f).arbs = d.arbs := rfl
@[simp] theorem Dev.modFn_eps (d : Dev) (n : Nat) (f : Fn → Fn) : (d.modFn n f).eps = d.eps := rfl
@[simp] theorem Dev.modFn_ingest (d : Dev) (n : Nat) (f : Fn → Fn) : (d.modFn n f).ingest = d.ingest := rfl
@[simp] theorem Dev.modFn_rime (d : Dev) (n : Nat) (f : Fn → Fn) : (d.modFn n f).rime = d.rime := rfl
@[simp] theorem Dev.modFn_sch (d : Dev) (n : Nat) (f : Fn → Fn) : (d.modFn n f).sch = d.sch := rfl
@[simp] theorem Dev.modFn_snow (d : Dev) (n : Nat) (f : Fn → Fn) : (d.modFn n f).snow = d.snow := rfl
@[simp] theorem Dev.modFn_firn (d : Dev) (n : Nat) (f : Fn → Fn) : (d.modFn n f).firn = d.firn := rfl
@[simp] theorem Dev.modFn_ctxs (d : Dev) (n : Nat) (f : Fn → Fn) : (d.modFn n f).ctxs = d.ctxs := rfl
@[simp] theorem Dev.modFn_xmap (d : Dev) (n : Nat) (f : Fn → Fn) : (d.modFn n f).xmap = d.xmap := rfl
@[simp] theorem Dev.modFn_destages (d : Dev) (n : Nat) (f : Fn → Fn) : (d.modFn n f).destages = d.destages := rfl
@[simp] theorem Dev.modFn_reads (d : Dev) (n : Nat) (f : Fn → Fn) : (d.modFn n f).reads = d.reads := rfl
@[simp] theorem Dev.modFn_pools (d : Dev) (n : Nat) (f : Fn → Fn) : (d.modFn n f).pools = d.pools := rfl
@[simp] theorem Dev.modFn_maint (d : Dev) (n : Nat) (f : Fn → Fn) : (d.modFn n f).maint = d.maint := rfl
@[simp] theorem Dev.modFn_nss (d : Dev) (n : Nat) (f : Fn → Fn) : (d.modFn n f).nss = d.nss := rfl
@[simp] theorem Dev.modFn_streams (d : Dev) (n : Nat) (f : Fn → Fn) : (d.modFn n f).streams = d.streams := rfl
@[simp] theorem Dev.modFn_twin (d : Dev) (n : Nat) (f : Fn → Fn) : (d.modFn n f).twin = d.twin := rfl
@[simp] theorem Dev.modFn_drives (d : Dev) (n : Nat) (f : Fn → Fn) : (d.modFn n f).drives = d.drives := rfl
@[simp] theorem Dev.modFn_floe (d : Dev) (n : Nat) (f : Fn → Fn) : (d.modFn n f).floe = d.floe := rfl
@[simp] theorem Dev.modFn_gauge (d : Dev) (n : Nat) (f : Fn → Fn) : (d.modFn n f).gauge = d.gauge := rfl
@[simp] theorem Dev.modFn_staging (d : Dev) (n : Nat) (f : Fn → Fn) : (d.modFn n f).staging = d.staging := rfl
@[simp] theorem Dev.modFn_ledger (d : Dev) (n : Nat) (f : Fn → Fn) : (d.modFn n f).ledger = d.ledger := rfl
@[simp] theorem Dev.modFn_power (d : Dev) (n : Nat) (f : Fn → Fn) : (d.modFn n f).power = d.power := rfl
@[simp] theorem Dev.modFn_thermal (d : Dev) (n : Nat) (f : Fn → Fn) : (d.modFn n f).thermal = d.thermal := rfl
@[simp] theorem Dev.modFn_image (d : Dev) (n : Nat) (f : Fn → Fn) : (d.modFn n f).image = d.image := rfl
@[simp] theorem Dev.modFn_straps (d : Dev) (n : Nat) (f : Fn → Fn) : (d.modFn n f).straps = d.straps := rfl
@[simp] theorem Dev.modFn_serial (d : Dev) (n : Nat) (f : Fn → Fn) : (d.modFn n f).serial = d.serial := rfl
@[simp] theorem Dev.modFn_mbx (d : Dev) (n : Nat) (f : Fn → Fn) : (d.modFn n f).mbx = d.mbx := rfl
@[simp] theorem Dev.modFn_schLock (d : Dev) (n : Nat) (f : Fn → Fn) : (d.modFn n f).schLock = d.schLock := rfl
@[simp] theorem Dev.modFn_moraine (d : Dev) (n : Nat) (f : Fn → Fn) : (d.modFn n f).moraine = d.moraine := rfl
@[simp] theorem Dev.modFn_mapLog (d : Dev) (n : Nat) (f : Fn → Fn) : (d.modFn n f).mapLog = d.mapLog := rfl

/-! ### modEp -/

@[simp] theorem Dev.modEp_tbHost (d : Dev) (e : Nat) (f : Endpoint → Endpoint) : (d.modEp e f).tbHost = d.tbHost := rfl
@[simp] theorem Dev.modEp_tbMedia (d : Dev) (e : Nat) (f : Endpoint → Endpoint) : (d.modEp e f).tbMedia = d.tbMedia := rfl
@[simp] theorem Dev.modEp_clocks (d : Dev) (e : Nat) (f : Endpoint → Endpoint) : (d.modEp e f).clocks = d.clocks := rfl
@[simp] theorem Dev.modEp_regs (d : Dev) (e : Nat) (f : Endpoint → Endpoint) : (d.modEp e f).regs = d.regs := rfl
@[simp] theorem Dev.modEp_out (d : Dev) (e : Nat) (f : Endpoint → Endpoint) : (d.modEp e f).out = d.out := rfl
@[simp] theorem Dev.modEp_free (d : Dev) (e : Nat) (f : Endpoint → Endpoint) : (d.modEp e f).free = d.free := rfl
@[simp] theorem Dev.modEp_rings (d : Dev) (e : Nat) (f : Endpoint → Endpoint) : (d.modEp e f).rings = d.rings := rfl
@[simp] theorem Dev.modEp_arbs (d : Dev) (e : Nat) (f : Endpoint → Endpoint) : (d.modEp e f).arbs = d.arbs := rfl
@[simp] theorem Dev.modEp_fns (d : Dev) (e : Nat) (f : Endpoint → Endpoint) : (d.modEp e f).fns = d.fns := rfl
@[simp] theorem Dev.modEp_ingest (d : Dev) (e : Nat) (f : Endpoint → Endpoint) : (d.modEp e f).ingest = d.ingest := rfl
@[simp] theorem Dev.modEp_rime (d : Dev) (e : Nat) (f : Endpoint → Endpoint) : (d.modEp e f).rime = d.rime := rfl
@[simp] theorem Dev.modEp_sch (d : Dev) (e : Nat) (f : Endpoint → Endpoint) : (d.modEp e f).sch = d.sch := rfl
@[simp] theorem Dev.modEp_snow (d : Dev) (e : Nat) (f : Endpoint → Endpoint) : (d.modEp e f).snow = d.snow := rfl
@[simp] theorem Dev.modEp_firn (d : Dev) (e : Nat) (f : Endpoint → Endpoint) : (d.modEp e f).firn = d.firn := rfl
@[simp] theorem Dev.modEp_ctxs (d : Dev) (e : Nat) (f : Endpoint → Endpoint) : (d.modEp e f).ctxs = d.ctxs := rfl
@[simp] theorem Dev.modEp_xmap (d : Dev) (e : Nat) (f : Endpoint → Endpoint) : (d.modEp e f).xmap = d.xmap := rfl
@[simp] theorem Dev.modEp_destages (d : Dev) (e : Nat) (f : Endpoint → Endpoint) : (d.modEp e f).destages = d.destages := rfl
@[simp] theorem Dev.modEp_reads (d : Dev) (e : Nat) (f : Endpoint → Endpoint) : (d.modEp e f).reads = d.reads := rfl
@[simp] theorem Dev.modEp_pools (d : Dev) (e : Nat) (f : Endpoint → Endpoint) : (d.modEp e f).pools = d.pools := rfl
@[simp] theorem Dev.modEp_maint (d : Dev) (e : Nat) (f : Endpoint → Endpoint) : (d.modEp e f).maint = d.maint := rfl
@[simp] theorem Dev.modEp_nss (d : Dev) (e : Nat) (f : Endpoint → Endpoint) : (d.modEp e f).nss = d.nss := rfl
@[simp] theorem Dev.modEp_streams (d : Dev) (e : Nat) (f : Endpoint → Endpoint) : (d.modEp e f).streams = d.streams := rfl
@[simp] theorem Dev.modEp_twin (d : Dev) (e : Nat) (f : Endpoint → Endpoint) : (d.modEp e f).twin = d.twin := rfl
@[simp] theorem Dev.modEp_drives (d : Dev) (e : Nat) (f : Endpoint → Endpoint) : (d.modEp e f).drives = d.drives := rfl
@[simp] theorem Dev.modEp_floe (d : Dev) (e : Nat) (f : Endpoint → Endpoint) : (d.modEp e f).floe = d.floe := rfl
@[simp] theorem Dev.modEp_gauge (d : Dev) (e : Nat) (f : Endpoint → Endpoint) : (d.modEp e f).gauge = d.gauge := rfl
@[simp] theorem Dev.modEp_staging (d : Dev) (e : Nat) (f : Endpoint → Endpoint) : (d.modEp e f).staging = d.staging := rfl
@[simp] theorem Dev.modEp_ledger (d : Dev) (e : Nat) (f : Endpoint → Endpoint) : (d.modEp e f).ledger = d.ledger := rfl
@[simp] theorem Dev.modEp_power (d : Dev) (e : Nat) (f : Endpoint → Endpoint) : (d.modEp e f).power = d.power := rfl
@[simp] theorem Dev.modEp_thermal (d : Dev) (e : Nat) (f : Endpoint → Endpoint) : (d.modEp e f).thermal = d.thermal := rfl
@[simp] theorem Dev.modEp_image (d : Dev) (e : Nat) (f : Endpoint → Endpoint) : (d.modEp e f).image = d.image := rfl
@[simp] theorem Dev.modEp_straps (d : Dev) (e : Nat) (f : Endpoint → Endpoint) : (d.modEp e f).straps = d.straps := rfl
@[simp] theorem Dev.modEp_serial (d : Dev) (e : Nat) (f : Endpoint → Endpoint) : (d.modEp e f).serial = d.serial := rfl
@[simp] theorem Dev.modEp_mbx (d : Dev) (e : Nat) (f : Endpoint → Endpoint) : (d.modEp e f).mbx = d.mbx := rfl
@[simp] theorem Dev.modEp_schLock (d : Dev) (e : Nat) (f : Endpoint → Endpoint) : (d.modEp e f).schLock = d.schLock := rfl
@[simp] theorem Dev.modEp_moraine (d : Dev) (e : Nat) (f : Endpoint → Endpoint) : (d.modEp e f).moraine = d.moraine := rfl
@[simp] theorem Dev.modEp_mapLog (d : Dev) (e : Nat) (f : Endpoint → Endpoint) : (d.modEp e f).mapLog = d.mapLog := rfl

/-! ### modLed -/

@[simp] theorem Dev.modLed_tbHost (d : Dev) (h : Half) (f : Ledger → Ledger) : (d.modLed h f).tbHost = d.tbHost := rfl
@[simp] theorem Dev.modLed_tbMedia (d : Dev) (h : Half) (f : Ledger → Ledger) : (d.modLed h f).tbMedia = d.tbMedia := rfl
@[simp] theorem Dev.modLed_clocks (d : Dev) (h : Half) (f : Ledger → Ledger) : (d.modLed h f).clocks = d.clocks := rfl
@[simp] theorem Dev.modLed_regs (d : Dev) (h : Half) (f : Ledger → Ledger) : (d.modLed h f).regs = d.regs := rfl
@[simp] theorem Dev.modLed_out (d : Dev) (h : Half) (f : Ledger → Ledger) : (d.modLed h f).out = d.out := rfl
@[simp] theorem Dev.modLed_free (d : Dev) (h : Half) (f : Ledger → Ledger) : (d.modLed h f).free = d.free := rfl
@[simp] theorem Dev.modLed_rings (d : Dev) (h : Half) (f : Ledger → Ledger) : (d.modLed h f).rings = d.rings := rfl
@[simp] theorem Dev.modLed_arbs (d : Dev) (h : Half) (f : Ledger → Ledger) : (d.modLed h f).arbs = d.arbs := rfl
@[simp] theorem Dev.modLed_fns (d : Dev) (h : Half) (f : Ledger → Ledger) : (d.modLed h f).fns = d.fns := rfl
@[simp] theorem Dev.modLed_eps (d : Dev) (h : Half) (f : Ledger → Ledger) : (d.modLed h f).eps = d.eps := rfl
@[simp] theorem Dev.modLed_ingest (d : Dev) (h : Half) (f : Ledger → Ledger) : (d.modLed h f).ingest = d.ingest := rfl
@[simp] theorem Dev.modLed_rime (d : Dev) (h : Half) (f : Ledger → Ledger) : (d.modLed h f).rime = d.rime := rfl
@[simp] theorem Dev.modLed_sch (d : Dev) (h : Half) (f : Ledger → Ledger) : (d.modLed h f).sch = d.sch := rfl
@[simp] theorem Dev.modLed_snow (d : Dev) (h : Half) (f : Ledger → Ledger) : (d.modLed h f).snow = d.snow := rfl
@[simp] theorem Dev.modLed_firn (d : Dev) (h : Half) (f : Ledger → Ledger) : (d.modLed h f).firn = d.firn := rfl
@[simp] theorem Dev.modLed_ctxs (d : Dev) (h : Half) (f : Ledger → Ledger) : (d.modLed h f).ctxs = d.ctxs := rfl
@[simp] theorem Dev.modLed_xmap (d : Dev) (h : Half) (f : Ledger → Ledger) : (d.modLed h f).xmap = d.xmap := rfl
@[simp] theorem Dev.modLed_destages (d : Dev) (h : Half) (f : Ledger → Ledger) : (d.modLed h f).destages = d.destages := rfl
@[simp] theorem Dev.modLed_reads (d : Dev) (h : Half) (f : Ledger → Ledger) : (d.modLed h f).reads = d.reads := rfl
@[simp] theorem Dev.modLed_pools (d : Dev) (h : Half) (f : Ledger → Ledger) : (d.modLed h f).pools = d.pools := rfl
@[simp] theorem Dev.modLed_maint (d : Dev) (h : Half) (f : Ledger → Ledger) : (d.modLed h f).maint = d.maint := rfl
@[simp] theorem Dev.modLed_nss (d : Dev) (h : Half) (f : Ledger → Ledger) : (d.modLed h f).nss = d.nss := rfl
@[simp] theorem Dev.modLed_streams (d : Dev) (h : Half) (f : Ledger → Ledger) : (d.modLed h f).streams = d.streams := rfl
@[simp] theorem Dev.modLed_twin (d : Dev) (h : Half) (f : Ledger → Ledger) : (d.modLed h f).twin = d.twin := rfl
@[simp] theorem Dev.modLed_drives (d : Dev) (h : Half) (f : Ledger → Ledger) : (d.modLed h f).drives = d.drives := rfl
@[simp] theorem Dev.modLed_floe (d : Dev) (h : Half) (f : Ledger → Ledger) : (d.modLed h f).floe = d.floe := rfl
@[simp] theorem Dev.modLed_gauge (d : Dev) (h : Half) (f : Ledger → Ledger) : (d.modLed h f).gauge = d.gauge := rfl
@[simp] theorem Dev.modLed_staging (d : Dev) (h : Half) (f : Ledger → Ledger) : (d.modLed h f).staging = d.staging := rfl
@[simp] theorem Dev.modLed_power (d : Dev) (h : Half) (f : Ledger → Ledger) : (d.modLed h f).power = d.power := rfl
@[simp] theorem Dev.modLed_thermal (d : Dev) (h : Half) (f : Ledger → Ledger) : (d.modLed h f).thermal = d.thermal := rfl
@[simp] theorem Dev.modLed_image (d : Dev) (h : Half) (f : Ledger → Ledger) : (d.modLed h f).image = d.image := rfl
@[simp] theorem Dev.modLed_straps (d : Dev) (h : Half) (f : Ledger → Ledger) : (d.modLed h f).straps = d.straps := rfl
@[simp] theorem Dev.modLed_serial (d : Dev) (h : Half) (f : Ledger → Ledger) : (d.modLed h f).serial = d.serial := rfl
@[simp] theorem Dev.modLed_mbx (d : Dev) (h : Half) (f : Ledger → Ledger) : (d.modLed h f).mbx = d.mbx := rfl
@[simp] theorem Dev.modLed_schLock (d : Dev) (h : Half) (f : Ledger → Ledger) : (d.modLed h f).schLock = d.schLock := rfl
@[simp] theorem Dev.modLed_moraine (d : Dev) (h : Half) (f : Ledger → Ledger) : (d.modLed h f).moraine = d.moraine := rfl
@[simp] theorem Dev.modLed_mapLog (d : Dev) (h : Half) (f : Ledger → Ledger) : (d.modLed h f).mapLog = d.mapLog := rfl

/-! ### modPw -/

@[simp] theorem Dev.modPw_tbHost (d : Dev) (h : Half) (f : HalfPower → HalfPower) : (d.modPw h f).tbHost = d.tbHost := rfl
@[simp] theorem Dev.modPw_tbMedia (d : Dev) (h : Half) (f : HalfPower → HalfPower) : (d.modPw h f).tbMedia = d.tbMedia := rfl
@[simp] theorem Dev.modPw_clocks (d : Dev) (h : Half) (f : HalfPower → HalfPower) : (d.modPw h f).clocks = d.clocks := rfl
@[simp] theorem Dev.modPw_regs (d : Dev) (h : Half) (f : HalfPower → HalfPower) : (d.modPw h f).regs = d.regs := rfl
@[simp] theorem Dev.modPw_out (d : Dev) (h : Half) (f : HalfPower → HalfPower) : (d.modPw h f).out = d.out := rfl
@[simp] theorem Dev.modPw_free (d : Dev) (h : Half) (f : HalfPower → HalfPower) : (d.modPw h f).free = d.free := rfl
@[simp] theorem Dev.modPw_rings (d : Dev) (h : Half) (f : HalfPower → HalfPower) : (d.modPw h f).rings = d.rings := rfl
@[simp] theorem Dev.modPw_arbs (d : Dev) (h : Half) (f : HalfPower → HalfPower) : (d.modPw h f).arbs = d.arbs := rfl
@[simp] theorem Dev.modPw_fns (d : Dev) (h : Half) (f : HalfPower → HalfPower) : (d.modPw h f).fns = d.fns := rfl
@[simp] theorem Dev.modPw_eps (d : Dev) (h : Half) (f : HalfPower → HalfPower) : (d.modPw h f).eps = d.eps := rfl
@[simp] theorem Dev.modPw_ingest (d : Dev) (h : Half) (f : HalfPower → HalfPower) : (d.modPw h f).ingest = d.ingest := rfl
@[simp] theorem Dev.modPw_rime (d : Dev) (h : Half) (f : HalfPower → HalfPower) : (d.modPw h f).rime = d.rime := rfl
@[simp] theorem Dev.modPw_sch (d : Dev) (h : Half) (f : HalfPower → HalfPower) : (d.modPw h f).sch = d.sch := rfl
@[simp] theorem Dev.modPw_snow (d : Dev) (h : Half) (f : HalfPower → HalfPower) : (d.modPw h f).snow = d.snow := rfl
@[simp] theorem Dev.modPw_firn (d : Dev) (h : Half) (f : HalfPower → HalfPower) : (d.modPw h f).firn = d.firn := rfl
@[simp] theorem Dev.modPw_ctxs (d : Dev) (h : Half) (f : HalfPower → HalfPower) : (d.modPw h f).ctxs = d.ctxs := rfl
@[simp] theorem Dev.modPw_xmap (d : Dev) (h : Half) (f : HalfPower → HalfPower) : (d.modPw h f).xmap = d.xmap := rfl
@[simp] theorem Dev.modPw_destages (d : Dev) (h : Half) (f : HalfPower → HalfPower) : (d.modPw h f).destages = d.destages := rfl
@[simp] theorem Dev.modPw_reads (d : Dev) (h : Half) (f : HalfPower → HalfPower) : (d.modPw h f).reads = d.reads := rfl
@[simp] theorem Dev.modPw_pools (d : Dev) (h : Half) (f : HalfPower → HalfPower) : (d.modPw h f).pools = d.pools := rfl
@[simp] theorem Dev.modPw_maint (d : Dev) (h : Half) (f : HalfPower → HalfPower) : (d.modPw h f).maint = d.maint := rfl
@[simp] theorem Dev.modPw_nss (d : Dev) (h : Half) (f : HalfPower → HalfPower) : (d.modPw h f).nss = d.nss := rfl
@[simp] theorem Dev.modPw_streams (d : Dev) (h : Half) (f : HalfPower → HalfPower) : (d.modPw h f).streams = d.streams := rfl
@[simp] theorem Dev.modPw_twin (d : Dev) (h : Half) (f : HalfPower → HalfPower) : (d.modPw h f).twin = d.twin := rfl
@[simp] theorem Dev.modPw_drives (d : Dev) (h : Half) (f : HalfPower → HalfPower) : (d.modPw h f).drives = d.drives := rfl
@[simp] theorem Dev.modPw_floe (d : Dev) (h : Half) (f : HalfPower → HalfPower) : (d.modPw h f).floe = d.floe := rfl
@[simp] theorem Dev.modPw_gauge (d : Dev) (h : Half) (f : HalfPower → HalfPower) : (d.modPw h f).gauge = d.gauge := rfl
@[simp] theorem Dev.modPw_staging (d : Dev) (h : Half) (f : HalfPower → HalfPower) : (d.modPw h f).staging = d.staging := rfl
@[simp] theorem Dev.modPw_ledger (d : Dev) (h : Half) (f : HalfPower → HalfPower) : (d.modPw h f).ledger = d.ledger := rfl
@[simp] theorem Dev.modPw_thermal (d : Dev) (h : Half) (f : HalfPower → HalfPower) : (d.modPw h f).thermal = d.thermal := rfl
@[simp] theorem Dev.modPw_image (d : Dev) (h : Half) (f : HalfPower → HalfPower) : (d.modPw h f).image = d.image := rfl
@[simp] theorem Dev.modPw_straps (d : Dev) (h : Half) (f : HalfPower → HalfPower) : (d.modPw h f).straps = d.straps := rfl
@[simp] theorem Dev.modPw_serial (d : Dev) (h : Half) (f : HalfPower → HalfPower) : (d.modPw h f).serial = d.serial := rfl
@[simp] theorem Dev.modPw_mbx (d : Dev) (h : Half) (f : HalfPower → HalfPower) : (d.modPw h f).mbx = d.mbx := rfl
@[simp] theorem Dev.modPw_schLock (d : Dev) (h : Half) (f : HalfPower → HalfPower) : (d.modPw h f).schLock = d.schLock := rfl
@[simp] theorem Dev.modPw_moraine (d : Dev) (h : Half) (f : HalfPower → HalfPower) : (d.modPw h f).moraine = d.moraine := rfl
@[simp] theorem Dev.modPw_mapLog (d : Dev) (h : Half) (f : HalfPower → HalfPower) : (d.modPw h f).mapLog = d.mapLog := rfl

/-! ### modSch -/

@[simp] theorem Dev.modSch_tbHost (d : Dev) (h : Half) (f : Link → Link) : (d.modSch h f).tbHost = d.tbHost := rfl
@[simp] theorem Dev.modSch_tbMedia (d : Dev) (h : Half) (f : Link → Link) : (d.modSch h f).tbMedia = d.tbMedia := rfl
@[simp] theorem Dev.modSch_clocks (d : Dev) (h : Half) (f : Link → Link) : (d.modSch h f).clocks = d.clocks := rfl
@[simp] theorem Dev.modSch_regs (d : Dev) (h : Half) (f : Link → Link) : (d.modSch h f).regs = d.regs := rfl
@[simp] theorem Dev.modSch_out (d : Dev) (h : Half) (f : Link → Link) : (d.modSch h f).out = d.out := rfl
@[simp] theorem Dev.modSch_free (d : Dev) (h : Half) (f : Link → Link) : (d.modSch h f).free = d.free := rfl
@[simp] theorem Dev.modSch_rings (d : Dev) (h : Half) (f : Link → Link) : (d.modSch h f).rings = d.rings := rfl
@[simp] theorem Dev.modSch_arbs (d : Dev) (h : Half) (f : Link → Link) : (d.modSch h f).arbs = d.arbs := rfl
@[simp] theorem Dev.modSch_fns (d : Dev) (h : Half) (f : Link → Link) : (d.modSch h f).fns = d.fns := rfl
@[simp] theorem Dev.modSch_eps (d : Dev) (h : Half) (f : Link → Link) : (d.modSch h f).eps = d.eps := rfl
@[simp] theorem Dev.modSch_ingest (d : Dev) (h : Half) (f : Link → Link) : (d.modSch h f).ingest = d.ingest := rfl
@[simp] theorem Dev.modSch_rime (d : Dev) (h : Half) (f : Link → Link) : (d.modSch h f).rime = d.rime := rfl
@[simp] theorem Dev.modSch_snow (d : Dev) (h : Half) (f : Link → Link) : (d.modSch h f).snow = d.snow := rfl
@[simp] theorem Dev.modSch_firn (d : Dev) (h : Half) (f : Link → Link) : (d.modSch h f).firn = d.firn := rfl
@[simp] theorem Dev.modSch_ctxs (d : Dev) (h : Half) (f : Link → Link) : (d.modSch h f).ctxs = d.ctxs := rfl
@[simp] theorem Dev.modSch_xmap (d : Dev) (h : Half) (f : Link → Link) : (d.modSch h f).xmap = d.xmap := rfl
@[simp] theorem Dev.modSch_destages (d : Dev) (h : Half) (f : Link → Link) : (d.modSch h f).destages = d.destages := rfl
@[simp] theorem Dev.modSch_reads (d : Dev) (h : Half) (f : Link → Link) : (d.modSch h f).reads = d.reads := rfl
@[simp] theorem Dev.modSch_pools (d : Dev) (h : Half) (f : Link → Link) : (d.modSch h f).pools = d.pools := rfl
@[simp] theorem Dev.modSch_maint (d : Dev) (h : Half) (f : Link → Link) : (d.modSch h f).maint = d.maint := rfl
@[simp] theorem Dev.modSch_nss (d : Dev) (h : Half) (f : Link → Link) : (d.modSch h f).nss = d.nss := rfl
@[simp] theorem Dev.modSch_streams (d : Dev) (h : Half) (f : Link → Link) : (d.modSch h f).streams = d.streams := rfl
@[simp] theorem Dev.modSch_twin (d : Dev) (h : Half) (f : Link → Link) : (d.modSch h f).twin = d.twin := rfl
@[simp] theorem Dev.modSch_drives (d : Dev) (h : Half) (f : Link → Link) : (d.modSch h f).drives = d.drives := rfl
@[simp] theorem Dev.modSch_floe (d : Dev) (h : Half) (f : Link → Link) : (d.modSch h f).floe = d.floe := rfl
@[simp] theorem Dev.modSch_gauge (d : Dev) (h : Half) (f : Link → Link) : (d.modSch h f).gauge = d.gauge := rfl
@[simp] theorem Dev.modSch_staging (d : Dev) (h : Half) (f : Link → Link) : (d.modSch h f).staging = d.staging := rfl
@[simp] theorem Dev.modSch_ledger (d : Dev) (h : Half) (f : Link → Link) : (d.modSch h f).ledger = d.ledger := rfl
@[simp] theorem Dev.modSch_power (d : Dev) (h : Half) (f : Link → Link) : (d.modSch h f).power = d.power := rfl
@[simp] theorem Dev.modSch_thermal (d : Dev) (h : Half) (f : Link → Link) : (d.modSch h f).thermal = d.thermal := rfl
@[simp] theorem Dev.modSch_image (d : Dev) (h : Half) (f : Link → Link) : (d.modSch h f).image = d.image := rfl
@[simp] theorem Dev.modSch_straps (d : Dev) (h : Half) (f : Link → Link) : (d.modSch h f).straps = d.straps := rfl
@[simp] theorem Dev.modSch_serial (d : Dev) (h : Half) (f : Link → Link) : (d.modSch h f).serial = d.serial := rfl
@[simp] theorem Dev.modSch_mbx (d : Dev) (h : Half) (f : Link → Link) : (d.modSch h f).mbx = d.mbx := rfl
@[simp] theorem Dev.modSch_schLock (d : Dev) (h : Half) (f : Link → Link) : (d.modSch h f).schLock = d.schLock := rfl
@[simp] theorem Dev.modSch_moraine (d : Dev) (h : Half) (f : Link → Link) : (d.modSch h f).moraine = d.moraine := rfl
@[simp] theorem Dev.modSch_mapLog (d : Dev) (h : Half) (f : Link → Link) : (d.modSch h f).mapLog = d.mapLog := rfl

/-! ### modTwin -/

@[simp] theorem Dev.modTwin_tbHost (d : Dev) (f : Twin → Twin) : (d.modTwin f).tbHost = d.tbHost := rfl
@[simp] theorem Dev.modTwin_tbMedia (d : Dev) (f : Twin → Twin) : (d.modTwin f).tbMedia = d.tbMedia := rfl
@[simp] theorem Dev.modTwin_clocks (d : Dev) (f : Twin → Twin) : (d.modTwin f).clocks = d.clocks := rfl
@[simp] theorem Dev.modTwin_regs (d : Dev) (f : Twin → Twin) : (d.modTwin f).regs = d.regs := rfl
@[simp] theorem Dev.modTwin_out (d : Dev) (f : Twin → Twin) : (d.modTwin f).out = d.out := rfl
@[simp] theorem Dev.modTwin_free (d : Dev) (f : Twin → Twin) : (d.modTwin f).free = d.free := rfl
@[simp] theorem Dev.modTwin_rings (d : Dev) (f : Twin → Twin) : (d.modTwin f).rings = d.rings := rfl
@[simp] theorem Dev.modTwin_arbs (d : Dev) (f : Twin → Twin) : (d.modTwin f).arbs = d.arbs := rfl
@[simp] theorem Dev.modTwin_fns (d : Dev) (f : Twin → Twin) : (d.modTwin f).fns = d.fns := rfl
@[simp] theorem Dev.modTwin_eps (d : Dev) (f : Twin → Twin) : (d.modTwin f).eps = d.eps := rfl
@[simp] theorem Dev.modTwin_ingest (d : Dev) (f : Twin → Twin) : (d.modTwin f).ingest = d.ingest := rfl
@[simp] theorem Dev.modTwin_rime (d : Dev) (f : Twin → Twin) : (d.modTwin f).rime = d.rime := rfl
@[simp] theorem Dev.modTwin_sch (d : Dev) (f : Twin → Twin) : (d.modTwin f).sch = d.sch := rfl
@[simp] theorem Dev.modTwin_snow (d : Dev) (f : Twin → Twin) : (d.modTwin f).snow = d.snow := rfl
@[simp] theorem Dev.modTwin_firn (d : Dev) (f : Twin → Twin) : (d.modTwin f).firn = d.firn := rfl
@[simp] theorem Dev.modTwin_ctxs (d : Dev) (f : Twin → Twin) : (d.modTwin f).ctxs = d.ctxs := rfl
@[simp] theorem Dev.modTwin_xmap (d : Dev) (f : Twin → Twin) : (d.modTwin f).xmap = d.xmap := rfl
@[simp] theorem Dev.modTwin_destages (d : Dev) (f : Twin → Twin) : (d.modTwin f).destages = d.destages := rfl
@[simp] theorem Dev.modTwin_reads (d : Dev) (f : Twin → Twin) : (d.modTwin f).reads = d.reads := rfl
@[simp] theorem Dev.modTwin_pools (d : Dev) (f : Twin → Twin) : (d.modTwin f).pools = d.pools := rfl
@[simp] theorem Dev.modTwin_maint (d : Dev) (f : Twin → Twin) : (d.modTwin f).maint = d.maint := rfl
@[simp] theorem Dev.modTwin_nss (d : Dev) (f : Twin → Twin) : (d.modTwin f).nss = d.nss := rfl
@[simp] theorem Dev.modTwin_streams (d : Dev) (f : Twin → Twin) : (d.modTwin f).streams = d.streams := rfl
@[simp] theorem Dev.modTwin_drives (d : Dev) (f : Twin → Twin) : (d.modTwin f).drives = d.drives := rfl
@[simp] theorem Dev.modTwin_floe (d : Dev) (f : Twin → Twin) : (d.modTwin f).floe = d.floe := rfl
@[simp] theorem Dev.modTwin_gauge (d : Dev) (f : Twin → Twin) : (d.modTwin f).gauge = d.gauge := rfl
@[simp] theorem Dev.modTwin_staging (d : Dev) (f : Twin → Twin) : (d.modTwin f).staging = d.staging := rfl
@[simp] theorem Dev.modTwin_ledger (d : Dev) (f : Twin → Twin) : (d.modTwin f).ledger = d.ledger := rfl
@[simp] theorem Dev.modTwin_power (d : Dev) (f : Twin → Twin) : (d.modTwin f).power = d.power := rfl
@[simp] theorem Dev.modTwin_thermal (d : Dev) (f : Twin → Twin) : (d.modTwin f).thermal = d.thermal := rfl
@[simp] theorem Dev.modTwin_image (d : Dev) (f : Twin → Twin) : (d.modTwin f).image = d.image := rfl
@[simp] theorem Dev.modTwin_straps (d : Dev) (f : Twin → Twin) : (d.modTwin f).straps = d.straps := rfl
@[simp] theorem Dev.modTwin_serial (d : Dev) (f : Twin → Twin) : (d.modTwin f).serial = d.serial := rfl
@[simp] theorem Dev.modTwin_mbx (d : Dev) (f : Twin → Twin) : (d.modTwin f).mbx = d.mbx := rfl
@[simp] theorem Dev.modTwin_schLock (d : Dev) (f : Twin → Twin) : (d.modTwin f).schLock = d.schLock := rfl
@[simp] theorem Dev.modTwin_moraine (d : Dev) (f : Twin → Twin) : (d.modTwin f).moraine = d.moraine := rfl
@[simp] theorem Dev.modTwin_mapLog (d : Dev) (f : Twin → Twin) : (d.modTwin f).mapLog = d.mapLog := rfl

/-! ### modGauge -/

@[simp] theorem Dev.modGauge_tbHost (d : Dev) (f : Gauge → Gauge) : (d.modGauge f).tbHost = d.tbHost := rfl
@[simp] theorem Dev.modGauge_tbMedia (d : Dev) (f : Gauge → Gauge) : (d.modGauge f).tbMedia = d.tbMedia := rfl
@[simp] theorem Dev.modGauge_clocks (d : Dev) (f : Gauge → Gauge) : (d.modGauge f).clocks = d.clocks := rfl
@[simp] theorem Dev.modGauge_regs (d : Dev) (f : Gauge → Gauge) : (d.modGauge f).regs = d.regs := rfl
@[simp] theorem Dev.modGauge_out (d : Dev) (f : Gauge → Gauge) : (d.modGauge f).out = d.out := rfl
@[simp] theorem Dev.modGauge_free (d : Dev) (f : Gauge → Gauge) : (d.modGauge f).free = d.free := rfl
@[simp] theorem Dev.modGauge_rings (d : Dev) (f : Gauge → Gauge) : (d.modGauge f).rings = d.rings := rfl
@[simp] theorem Dev.modGauge_arbs (d : Dev) (f : Gauge → Gauge) : (d.modGauge f).arbs = d.arbs := rfl
@[simp] theorem Dev.modGauge_fns (d : Dev) (f : Gauge → Gauge) : (d.modGauge f).fns = d.fns := rfl
@[simp] theorem Dev.modGauge_eps (d : Dev) (f : Gauge → Gauge) : (d.modGauge f).eps = d.eps := rfl
@[simp] theorem Dev.modGauge_ingest (d : Dev) (f : Gauge → Gauge) : (d.modGauge f).ingest = d.ingest := rfl
@[simp] theorem Dev.modGauge_rime (d : Dev) (f : Gauge → Gauge) : (d.modGauge f).rime = d.rime := rfl
@[simp] theorem Dev.modGauge_sch (d : Dev) (f : Gauge → Gauge) : (d.modGauge f).sch = d.sch := rfl
@[simp] theorem Dev.modGauge_snow (d : Dev) (f : Gauge → Gauge) : (d.modGauge f).snow = d.snow := rfl
@[simp] theorem Dev.modGauge_firn (d : Dev) (f : Gauge → Gauge) : (d.modGauge f).firn = d.firn := rfl
@[simp] theorem Dev.modGauge_ctxs (d : Dev) (f : Gauge → Gauge) : (d.modGauge f).ctxs = d.ctxs := rfl
@[simp] theorem Dev.modGauge_xmap (d : Dev) (f : Gauge → Gauge) : (d.modGauge f).xmap = d.xmap := rfl
@[simp] theorem Dev.modGauge_destages (d : Dev) (f : Gauge → Gauge) : (d.modGauge f).destages = d.destages := rfl
@[simp] theorem Dev.modGauge_reads (d : Dev) (f : Gauge → Gauge) : (d.modGauge f).reads = d.reads := rfl
@[simp] theorem Dev.modGauge_pools (d : Dev) (f : Gauge → Gauge) : (d.modGauge f).pools = d.pools := rfl
@[simp] theorem Dev.modGauge_maint (d : Dev) (f : Gauge → Gauge) : (d.modGauge f).maint = d.maint := rfl
@[simp] theorem Dev.modGauge_nss (d : Dev) (f : Gauge → Gauge) : (d.modGauge f).nss = d.nss := rfl
@[simp] theorem Dev.modGauge_streams (d : Dev) (f : Gauge → Gauge) : (d.modGauge f).streams = d.streams := rfl
@[simp] theorem Dev.modGauge_twin (d : Dev) (f : Gauge → Gauge) : (d.modGauge f).twin = d.twin := rfl
@[simp] theorem Dev.modGauge_drives (d : Dev) (f : Gauge → Gauge) : (d.modGauge f).drives = d.drives := rfl
@[simp] theorem Dev.modGauge_floe (d : Dev) (f : Gauge → Gauge) : (d.modGauge f).floe = d.floe := rfl
@[simp] theorem Dev.modGauge_staging (d : Dev) (f : Gauge → Gauge) : (d.modGauge f).staging = d.staging := rfl
@[simp] theorem Dev.modGauge_ledger (d : Dev) (f : Gauge → Gauge) : (d.modGauge f).ledger = d.ledger := rfl
@[simp] theorem Dev.modGauge_power (d : Dev) (f : Gauge → Gauge) : (d.modGauge f).power = d.power := rfl
@[simp] theorem Dev.modGauge_thermal (d : Dev) (f : Gauge → Gauge) : (d.modGauge f).thermal = d.thermal := rfl
@[simp] theorem Dev.modGauge_image (d : Dev) (f : Gauge → Gauge) : (d.modGauge f).image = d.image := rfl
@[simp] theorem Dev.modGauge_straps (d : Dev) (f : Gauge → Gauge) : (d.modGauge f).straps = d.straps := rfl
@[simp] theorem Dev.modGauge_serial (d : Dev) (f : Gauge → Gauge) : (d.modGauge f).serial = d.serial := rfl
@[simp] theorem Dev.modGauge_mbx (d : Dev) (f : Gauge → Gauge) : (d.modGauge f).mbx = d.mbx := rfl
@[simp] theorem Dev.modGauge_schLock (d : Dev) (f : Gauge → Gauge) : (d.modGauge f).schLock = d.schLock := rfl
@[simp] theorem Dev.modGauge_moraine (d : Dev) (f : Gauge → Gauge) : (d.modGauge f).moraine = d.moraine := rfl
@[simp] theorem Dev.modGauge_mapLog (d : Dev) (f : Gauge → Gauge) : (d.modGauge f).mapLog = d.mapLog := rfl

/-! ### modRings -/

@[simp] theorem Dev.modRings_tbHost (d : Dev) (f : Rings → Rings) : (d.modRings f).tbHost = d.tbHost := rfl
@[simp] theorem Dev.modRings_tbMedia (d : Dev) (f : Rings → Rings) : (d.modRings f).tbMedia = d.tbMedia := rfl
@[simp] theorem Dev.modRings_clocks (d : Dev) (f : Rings → Rings) : (d.modRings f).clocks = d.clocks := rfl
@[simp] theorem Dev.modRings_regs (d : Dev) (f : Rings → Rings) : (d.modRings f).regs = d.regs := rfl
@[simp] theorem Dev.modRings_out (d : Dev) (f : Rings → Rings) : (d.modRings f).out = d.out := rfl
@[simp] theorem Dev.modRings_free (d : Dev) (f : Rings → Rings) : (d.modRings f).free = d.free := rfl
@[simp] theorem Dev.modRings_arbs (d : Dev) (f : Rings → Rings) : (d.modRings f).arbs = d.arbs := rfl
@[simp] theorem Dev.modRings_fns (d : Dev) (f : Rings → Rings) : (d.modRings f).fns = d.fns := rfl
@[simp] theorem Dev.modRings_eps (d : Dev) (f : Rings → Rings) : (d.modRings f).eps = d.eps := rfl
@[simp] theorem Dev.modRings_ingest (d : Dev) (f : Rings → Rings) : (d.modRings f).ingest = d.ingest := rfl
@[simp] theorem Dev.modRings_rime (d : Dev) (f : Rings → Rings) : (d.modRings f).rime = d.rime := rfl
@[simp] theorem Dev.modRings_sch (d : Dev) (f : Rings → Rings) : (d.modRings f).sch = d.sch := rfl
@[simp] theorem Dev.modRings_snow (d : Dev) (f : Rings → Rings) : (d.modRings f).snow = d.snow := rfl
@[simp] theorem Dev.modRings_firn (d : Dev) (f : Rings → Rings) : (d.modRings f).firn = d.firn := rfl
@[simp] theorem Dev.modRings_ctxs (d : Dev) (f : Rings → Rings) : (d.modRings f).ctxs = d.ctxs := rfl
@[simp] theorem Dev.modRings_xmap (d : Dev) (f : Rings → Rings) : (d.modRings f).xmap = d.xmap := rfl
@[simp] theorem Dev.modRings_destages (d : Dev) (f : Rings → Rings) : (d.modRings f).destages = d.destages := rfl
@[simp] theorem Dev.modRings_reads (d : Dev) (f : Rings → Rings) : (d.modRings f).reads = d.reads := rfl
@[simp] theorem Dev.modRings_pools (d : Dev) (f : Rings → Rings) : (d.modRings f).pools = d.pools := rfl
@[simp] theorem Dev.modRings_maint (d : Dev) (f : Rings → Rings) : (d.modRings f).maint = d.maint := rfl
@[simp] theorem Dev.modRings_nss (d : Dev) (f : Rings → Rings) : (d.modRings f).nss = d.nss := rfl
@[simp] theorem Dev.modRings_streams (d : Dev) (f : Rings → Rings) : (d.modRings f).streams = d.streams := rfl
@[simp] theorem Dev.modRings_twin (d : Dev) (f : Rings → Rings) : (d.modRings f).twin = d.twin := rfl
@[simp] theorem Dev.modRings_drives (d : Dev) (f : Rings → Rings) : (d.modRings f).drives = d.drives := rfl
@[simp] theorem Dev.modRings_floe (d : Dev) (f : Rings → Rings) : (d.modRings f).floe = d.floe := rfl
@[simp] theorem Dev.modRings_gauge (d : Dev) (f : Rings → Rings) : (d.modRings f).gauge = d.gauge := rfl
@[simp] theorem Dev.modRings_staging (d : Dev) (f : Rings → Rings) : (d.modRings f).staging = d.staging := rfl
@[simp] theorem Dev.modRings_ledger (d : Dev) (f : Rings → Rings) : (d.modRings f).ledger = d.ledger := rfl
@[simp] theorem Dev.modRings_power (d : Dev) (f : Rings → Rings) : (d.modRings f).power = d.power := rfl
@[simp] theorem Dev.modRings_thermal (d : Dev) (f : Rings → Rings) : (d.modRings f).thermal = d.thermal := rfl
@[simp] theorem Dev.modRings_image (d : Dev) (f : Rings → Rings) : (d.modRings f).image = d.image := rfl
@[simp] theorem Dev.modRings_straps (d : Dev) (f : Rings → Rings) : (d.modRings f).straps = d.straps := rfl
@[simp] theorem Dev.modRings_serial (d : Dev) (f : Rings → Rings) : (d.modRings f).serial = d.serial := rfl
@[simp] theorem Dev.modRings_mbx (d : Dev) (f : Rings → Rings) : (d.modRings f).mbx = d.mbx := rfl
@[simp] theorem Dev.modRings_schLock (d : Dev) (f : Rings → Rings) : (d.modRings f).schLock = d.schLock := rfl
@[simp] theorem Dev.modRings_moraine (d : Dev) (f : Rings → Rings) : (d.modRings f).moraine = d.moraine := rfl
@[simp] theorem Dev.modRings_mapLog (d : Dev) (f : Rings → Rings) : (d.modRings f).mapLog = d.mapLog := rfl

/-! ### modFirn -/

@[simp] theorem Dev.modFirn_tbHost (d : Dev) (f : Firn → Firn) : (d.modFirn f).tbHost = d.tbHost := rfl
@[simp] theorem Dev.modFirn_tbMedia (d : Dev) (f : Firn → Firn) : (d.modFirn f).tbMedia = d.tbMedia := rfl
@[simp] theorem Dev.modFirn_clocks (d : Dev) (f : Firn → Firn) : (d.modFirn f).clocks = d.clocks := rfl
@[simp] theorem Dev.modFirn_regs (d : Dev) (f : Firn → Firn) : (d.modFirn f).regs = d.regs := rfl
@[simp] theorem Dev.modFirn_out (d : Dev) (f : Firn → Firn) : (d.modFirn f).out = d.out := rfl
@[simp] theorem Dev.modFirn_free (d : Dev) (f : Firn → Firn) : (d.modFirn f).free = d.free := rfl
@[simp] theorem Dev.modFirn_rings (d : Dev) (f : Firn → Firn) : (d.modFirn f).rings = d.rings := rfl
@[simp] theorem Dev.modFirn_arbs (d : Dev) (f : Firn → Firn) : (d.modFirn f).arbs = d.arbs := rfl
@[simp] theorem Dev.modFirn_fns (d : Dev) (f : Firn → Firn) : (d.modFirn f).fns = d.fns := rfl
@[simp] theorem Dev.modFirn_eps (d : Dev) (f : Firn → Firn) : (d.modFirn f).eps = d.eps := rfl
@[simp] theorem Dev.modFirn_ingest (d : Dev) (f : Firn → Firn) : (d.modFirn f).ingest = d.ingest := rfl
@[simp] theorem Dev.modFirn_rime (d : Dev) (f : Firn → Firn) : (d.modFirn f).rime = d.rime := rfl
@[simp] theorem Dev.modFirn_sch (d : Dev) (f : Firn → Firn) : (d.modFirn f).sch = d.sch := rfl
@[simp] theorem Dev.modFirn_snow (d : Dev) (f : Firn → Firn) : (d.modFirn f).snow = d.snow := rfl
@[simp] theorem Dev.modFirn_ctxs (d : Dev) (f : Firn → Firn) : (d.modFirn f).ctxs = d.ctxs := rfl
@[simp] theorem Dev.modFirn_xmap (d : Dev) (f : Firn → Firn) : (d.modFirn f).xmap = d.xmap := rfl
@[simp] theorem Dev.modFirn_destages (d : Dev) (f : Firn → Firn) : (d.modFirn f).destages = d.destages := rfl
@[simp] theorem Dev.modFirn_reads (d : Dev) (f : Firn → Firn) : (d.modFirn f).reads = d.reads := rfl
@[simp] theorem Dev.modFirn_pools (d : Dev) (f : Firn → Firn) : (d.modFirn f).pools = d.pools := rfl
@[simp] theorem Dev.modFirn_maint (d : Dev) (f : Firn → Firn) : (d.modFirn f).maint = d.maint := rfl
@[simp] theorem Dev.modFirn_nss (d : Dev) (f : Firn → Firn) : (d.modFirn f).nss = d.nss := rfl
@[simp] theorem Dev.modFirn_streams (d : Dev) (f : Firn → Firn) : (d.modFirn f).streams = d.streams := rfl
@[simp] theorem Dev.modFirn_twin (d : Dev) (f : Firn → Firn) : (d.modFirn f).twin = d.twin := rfl
@[simp] theorem Dev.modFirn_drives (d : Dev) (f : Firn → Firn) : (d.modFirn f).drives = d.drives := rfl
@[simp] theorem Dev.modFirn_floe (d : Dev) (f : Firn → Firn) : (d.modFirn f).floe = d.floe := rfl
@[simp] theorem Dev.modFirn_gauge (d : Dev) (f : Firn → Firn) : (d.modFirn f).gauge = d.gauge := rfl
@[simp] theorem Dev.modFirn_staging (d : Dev) (f : Firn → Firn) : (d.modFirn f).staging = d.staging := rfl
@[simp] theorem Dev.modFirn_ledger (d : Dev) (f : Firn → Firn) : (d.modFirn f).ledger = d.ledger := rfl
@[simp] theorem Dev.modFirn_power (d : Dev) (f : Firn → Firn) : (d.modFirn f).power = d.power := rfl
@[simp] theorem Dev.modFirn_thermal (d : Dev) (f : Firn → Firn) : (d.modFirn f).thermal = d.thermal := rfl
@[simp] theorem Dev.modFirn_image (d : Dev) (f : Firn → Firn) : (d.modFirn f).image = d.image := rfl
@[simp] theorem Dev.modFirn_straps (d : Dev) (f : Firn → Firn) : (d.modFirn f).straps = d.straps := rfl
@[simp] theorem Dev.modFirn_serial (d : Dev) (f : Firn → Firn) : (d.modFirn f).serial = d.serial := rfl
@[simp] theorem Dev.modFirn_mbx (d : Dev) (f : Firn → Firn) : (d.modFirn f).mbx = d.mbx := rfl
@[simp] theorem Dev.modFirn_schLock (d : Dev) (f : Firn → Firn) : (d.modFirn f).schLock = d.schLock := rfl
@[simp] theorem Dev.modFirn_moraine (d : Dev) (f : Firn → Firn) : (d.modFirn f).moraine = d.moraine := rfl
@[simp] theorem Dev.modFirn_mapLog (d : Dev) (f : Firn → Firn) : (d.modFirn f).mapLog = d.mapLog := rfl

/-! ### modMap -/

@[simp] theorem Dev.modMap_tbHost (d : Dev) (f : XMap → XMap) : (d.modMap f).tbHost = d.tbHost := rfl
@[simp] theorem Dev.modMap_tbMedia (d : Dev) (f : XMap → XMap) : (d.modMap f).tbMedia = d.tbMedia := rfl
@[simp] theorem Dev.modMap_clocks (d : Dev) (f : XMap → XMap) : (d.modMap f).clocks = d.clocks := rfl
@[simp] theorem Dev.modMap_regs (d : Dev) (f : XMap → XMap) : (d.modMap f).regs = d.regs := rfl
@[simp] theorem Dev.modMap_out (d : Dev) (f : XMap → XMap) : (d.modMap f).out = d.out := rfl
@[simp] theorem Dev.modMap_free (d : Dev) (f : XMap → XMap) : (d.modMap f).free = d.free := rfl
@[simp] theorem Dev.modMap_rings (d : Dev) (f : XMap → XMap) : (d.modMap f).rings = d.rings := rfl
@[simp] theorem Dev.modMap_arbs (d : Dev) (f : XMap → XMap) : (d.modMap f).arbs = d.arbs := rfl
@[simp] theorem Dev.modMap_fns (d : Dev) (f : XMap → XMap) : (d.modMap f).fns = d.fns := rfl
@[simp] theorem Dev.modMap_eps (d : Dev) (f : XMap → XMap) : (d.modMap f).eps = d.eps := rfl
@[simp] theorem Dev.modMap_ingest (d : Dev) (f : XMap → XMap) : (d.modMap f).ingest = d.ingest := rfl
@[simp] theorem Dev.modMap_rime (d : Dev) (f : XMap → XMap) : (d.modMap f).rime = d.rime := rfl
@[simp] theorem Dev.modMap_sch (d : Dev) (f : XMap → XMap) : (d.modMap f).sch = d.sch := rfl
@[simp] theorem Dev.modMap_snow (d : Dev) (f : XMap → XMap) : (d.modMap f).snow = d.snow := rfl
@[simp] theorem Dev.modMap_firn (d : Dev) (f : XMap → XMap) : (d.modMap f).firn = d.firn := rfl
@[simp] theorem Dev.modMap_ctxs (d : Dev) (f : XMap → XMap) : (d.modMap f).ctxs = d.ctxs := rfl
@[simp] theorem Dev.modMap_destages (d : Dev) (f : XMap → XMap) : (d.modMap f).destages = d.destages := rfl
@[simp] theorem Dev.modMap_reads (d : Dev) (f : XMap → XMap) : (d.modMap f).reads = d.reads := rfl
@[simp] theorem Dev.modMap_pools (d : Dev) (f : XMap → XMap) : (d.modMap f).pools = d.pools := rfl
@[simp] theorem Dev.modMap_maint (d : Dev) (f : XMap → XMap) : (d.modMap f).maint = d.maint := rfl
@[simp] theorem Dev.modMap_nss (d : Dev) (f : XMap → XMap) : (d.modMap f).nss = d.nss := rfl
@[simp] theorem Dev.modMap_streams (d : Dev) (f : XMap → XMap) : (d.modMap f).streams = d.streams := rfl
@[simp] theorem Dev.modMap_twin (d : Dev) (f : XMap → XMap) : (d.modMap f).twin = d.twin := rfl
@[simp] theorem Dev.modMap_drives (d : Dev) (f : XMap → XMap) : (d.modMap f).drives = d.drives := rfl
@[simp] theorem Dev.modMap_floe (d : Dev) (f : XMap → XMap) : (d.modMap f).floe = d.floe := rfl
@[simp] theorem Dev.modMap_gauge (d : Dev) (f : XMap → XMap) : (d.modMap f).gauge = d.gauge := rfl
@[simp] theorem Dev.modMap_staging (d : Dev) (f : XMap → XMap) : (d.modMap f).staging = d.staging := rfl
@[simp] theorem Dev.modMap_ledger (d : Dev) (f : XMap → XMap) : (d.modMap f).ledger = d.ledger := rfl
@[simp] theorem Dev.modMap_power (d : Dev) (f : XMap → XMap) : (d.modMap f).power = d.power := rfl
@[simp] theorem Dev.modMap_thermal (d : Dev) (f : XMap → XMap) : (d.modMap f).thermal = d.thermal := rfl
@[simp] theorem Dev.modMap_image (d : Dev) (f : XMap → XMap) : (d.modMap f).image = d.image := rfl
@[simp] theorem Dev.modMap_straps (d : Dev) (f : XMap → XMap) : (d.modMap f).straps = d.straps := rfl
@[simp] theorem Dev.modMap_serial (d : Dev) (f : XMap → XMap) : (d.modMap f).serial = d.serial := rfl
@[simp] theorem Dev.modMap_mbx (d : Dev) (f : XMap → XMap) : (d.modMap f).mbx = d.mbx := rfl
@[simp] theorem Dev.modMap_schLock (d : Dev) (f : XMap → XMap) : (d.modMap f).schLock = d.schLock := rfl
@[simp] theorem Dev.modMap_moraine (d : Dev) (f : XMap → XMap) : (d.modMap f).moraine = d.moraine := rfl
@[simp] theorem Dev.modMap_mapLog (d : Dev) (f : XMap → XMap) : (d.modMap f).mapLog = d.mapLog := rfl

/-! ### modDrv -/

@[simp] theorem Dev.modDrv_tbHost (d : Dev) (f : Drives → Drives) : (d.modDrv f).tbHost = d.tbHost := rfl
@[simp] theorem Dev.modDrv_tbMedia (d : Dev) (f : Drives → Drives) : (d.modDrv f).tbMedia = d.tbMedia := rfl
@[simp] theorem Dev.modDrv_clocks (d : Dev) (f : Drives → Drives) : (d.modDrv f).clocks = d.clocks := rfl
@[simp] theorem Dev.modDrv_regs (d : Dev) (f : Drives → Drives) : (d.modDrv f).regs = d.regs := rfl
@[simp] theorem Dev.modDrv_out (d : Dev) (f : Drives → Drives) : (d.modDrv f).out = d.out := rfl
@[simp] theorem Dev.modDrv_free (d : Dev) (f : Drives → Drives) : (d.modDrv f).free = d.free := rfl
@[simp] theorem Dev.modDrv_rings (d : Dev) (f : Drives → Drives) : (d.modDrv f).rings = d.rings := rfl
@[simp] theorem Dev.modDrv_arbs (d : Dev) (f : Drives → Drives) : (d.modDrv f).arbs = d.arbs := rfl
@[simp] theorem Dev.modDrv_fns (d : Dev) (f : Drives → Drives) : (d.modDrv f).fns = d.fns := rfl
@[simp] theorem Dev.modDrv_eps (d : Dev) (f : Drives → Drives) : (d.modDrv f).eps = d.eps := rfl
@[simp] theorem Dev.modDrv_ingest (d : Dev) (f : Drives → Drives) : (d.modDrv f).ingest = d.ingest := rfl
@[simp] theorem Dev.modDrv_rime (d : Dev) (f : Drives → Drives) : (d.modDrv f).rime = d.rime := rfl
@[simp] theorem Dev.modDrv_sch (d : Dev) (f : Drives → Drives) : (d.modDrv f).sch = d.sch := rfl
@[simp] theorem Dev.modDrv_snow (d : Dev) (f : Drives → Drives) : (d.modDrv f).snow = d.snow := rfl
@[simp] theorem Dev.modDrv_firn (d : Dev) (f : Drives → Drives) : (d.modDrv f).firn = d.firn := rfl
@[simp] theorem Dev.modDrv_ctxs (d : Dev) (f : Drives → Drives) : (d.modDrv f).ctxs = d.ctxs := rfl
@[simp] theorem Dev.modDrv_xmap (d : Dev) (f : Drives → Drives) : (d.modDrv f).xmap = d.xmap := rfl
@[simp] theorem Dev.modDrv_destages (d : Dev) (f : Drives → Drives) : (d.modDrv f).destages = d.destages := rfl
@[simp] theorem Dev.modDrv_reads (d : Dev) (f : Drives → Drives) : (d.modDrv f).reads = d.reads := rfl
@[simp] theorem Dev.modDrv_pools (d : Dev) (f : Drives → Drives) : (d.modDrv f).pools = d.pools := rfl
@[simp] theorem Dev.modDrv_maint (d : Dev) (f : Drives → Drives) : (d.modDrv f).maint = d.maint := rfl
@[simp] theorem Dev.modDrv_nss (d : Dev) (f : Drives → Drives) : (d.modDrv f).nss = d.nss := rfl
@[simp] theorem Dev.modDrv_streams (d : Dev) (f : Drives → Drives) : (d.modDrv f).streams = d.streams := rfl
@[simp] theorem Dev.modDrv_twin (d : Dev) (f : Drives → Drives) : (d.modDrv f).twin = d.twin := rfl
@[simp] theorem Dev.modDrv_floe (d : Dev) (f : Drives → Drives) : (d.modDrv f).floe = d.floe := rfl
@[simp] theorem Dev.modDrv_gauge (d : Dev) (f : Drives → Drives) : (d.modDrv f).gauge = d.gauge := rfl
@[simp] theorem Dev.modDrv_staging (d : Dev) (f : Drives → Drives) : (d.modDrv f).staging = d.staging := rfl
@[simp] theorem Dev.modDrv_ledger (d : Dev) (f : Drives → Drives) : (d.modDrv f).ledger = d.ledger := rfl
@[simp] theorem Dev.modDrv_power (d : Dev) (f : Drives → Drives) : (d.modDrv f).power = d.power := rfl
@[simp] theorem Dev.modDrv_thermal (d : Dev) (f : Drives → Drives) : (d.modDrv f).thermal = d.thermal := rfl
@[simp] theorem Dev.modDrv_image (d : Dev) (f : Drives → Drives) : (d.modDrv f).image = d.image := rfl
@[simp] theorem Dev.modDrv_straps (d : Dev) (f : Drives → Drives) : (d.modDrv f).straps = d.straps := rfl
@[simp] theorem Dev.modDrv_serial (d : Dev) (f : Drives → Drives) : (d.modDrv f).serial = d.serial := rfl
@[simp] theorem Dev.modDrv_mbx (d : Dev) (f : Drives → Drives) : (d.modDrv f).mbx = d.mbx := rfl
@[simp] theorem Dev.modDrv_schLock (d : Dev) (f : Drives → Drives) : (d.modDrv f).schLock = d.schLock := rfl
@[simp] theorem Dev.modDrv_moraine (d : Dev) (f : Drives → Drives) : (d.modDrv f).moraine = d.moraine := rfl
@[simp] theorem Dev.modDrv_mapLog (d : Dev) (f : Drives → Drives) : (d.modDrv f).mapLog = d.mapLog := rfl

/-! ### modRime -/

@[simp] theorem Dev.modRime_tbHost (d : Dev) (f : Rime → Rime) : (d.modRime f).tbHost = d.tbHost := rfl
@[simp] theorem Dev.modRime_tbMedia (d : Dev) (f : Rime → Rime) : (d.modRime f).tbMedia = d.tbMedia := rfl
@[simp] theorem Dev.modRime_clocks (d : Dev) (f : Rime → Rime) : (d.modRime f).clocks = d.clocks := rfl
@[simp] theorem Dev.modRime_regs (d : Dev) (f : Rime → Rime) : (d.modRime f).regs = d.regs := rfl
@[simp] theorem Dev.modRime_out (d : Dev) (f : Rime → Rime) : (d.modRime f).out = d.out := rfl
@[simp] theorem Dev.modRime_free (d : Dev) (f : Rime → Rime) : (d.modRime f).free = d.free := rfl
@[simp] theorem Dev.modRime_rings (d : Dev) (f : Rime → Rime) : (d.modRime f).rings = d.rings := rfl
@[simp] theorem Dev.modRime_arbs (d : Dev) (f : Rime → Rime) : (d.modRime f).arbs = d.arbs := rfl
@[simp] theorem Dev.modRime_fns (d : Dev) (f : Rime → Rime) : (d.modRime f).fns = d.fns := rfl
@[simp] theorem Dev.modRime_eps (d : Dev) (f : Rime → Rime) : (d.modRime f).eps = d.eps := rfl
@[simp] theorem Dev.modRime_ingest (d : Dev) (f : Rime → Rime) : (d.modRime f).ingest = d.ingest := rfl
@[simp] theorem Dev.modRime_sch (d : Dev) (f : Rime → Rime) : (d.modRime f).sch = d.sch := rfl
@[simp] theorem Dev.modRime_snow (d : Dev) (f : Rime → Rime) : (d.modRime f).snow = d.snow := rfl
@[simp] theorem Dev.modRime_firn (d : Dev) (f : Rime → Rime) : (d.modRime f).firn = d.firn := rfl
@[simp] theorem Dev.modRime_ctxs (d : Dev) (f : Rime → Rime) : (d.modRime f).ctxs = d.ctxs := rfl
@[simp] theorem Dev.modRime_xmap (d : Dev) (f : Rime → Rime) : (d.modRime f).xmap = d.xmap := rfl
@[simp] theorem Dev.modRime_destages (d : Dev) (f : Rime → Rime) : (d.modRime f).destages = d.destages := rfl
@[simp] theorem Dev.modRime_reads (d : Dev) (f : Rime → Rime) : (d.modRime f).reads = d.reads := rfl
@[simp] theorem Dev.modRime_pools (d : Dev) (f : Rime → Rime) : (d.modRime f).pools = d.pools := rfl
@[simp] theorem Dev.modRime_maint (d : Dev) (f : Rime → Rime) : (d.modRime f).maint = d.maint := rfl
@[simp] theorem Dev.modRime_nss (d : Dev) (f : Rime → Rime) : (d.modRime f).nss = d.nss := rfl
@[simp] theorem Dev.modRime_streams (d : Dev) (f : Rime → Rime) : (d.modRime f).streams = d.streams := rfl
@[simp] theorem Dev.modRime_twin (d : Dev) (f : Rime → Rime) : (d.modRime f).twin = d.twin := rfl
@[simp] theorem Dev.modRime_drives (d : Dev) (f : Rime → Rime) : (d.modRime f).drives = d.drives := rfl
@[simp] theorem Dev.modRime_floe (d : Dev) (f : Rime → Rime) : (d.modRime f).floe = d.floe := rfl
@[simp] theorem Dev.modRime_gauge (d : Dev) (f : Rime → Rime) : (d.modRime f).gauge = d.gauge := rfl
@[simp] theorem Dev.modRime_staging (d : Dev) (f : Rime → Rime) : (d.modRime f).staging = d.staging := rfl
@[simp] theorem Dev.modRime_ledger (d : Dev) (f : Rime → Rime) : (d.modRime f).ledger = d.ledger := rfl
@[simp] theorem Dev.modRime_power (d : Dev) (f : Rime → Rime) : (d.modRime f).power = d.power := rfl
@[simp] theorem Dev.modRime_thermal (d : Dev) (f : Rime → Rime) : (d.modRime f).thermal = d.thermal := rfl
@[simp] theorem Dev.modRime_image (d : Dev) (f : Rime → Rime) : (d.modRime f).image = d.image := rfl
@[simp] theorem Dev.modRime_straps (d : Dev) (f : Rime → Rime) : (d.modRime f).straps = d.straps := rfl
@[simp] theorem Dev.modRime_serial (d : Dev) (f : Rime → Rime) : (d.modRime f).serial = d.serial := rfl
@[simp] theorem Dev.modRime_mbx (d : Dev) (f : Rime → Rime) : (d.modRime f).mbx = d.mbx := rfl
@[simp] theorem Dev.modRime_schLock (d : Dev) (f : Rime → Rime) : (d.modRime f).schLock = d.schLock := rfl
@[simp] theorem Dev.modRime_moraine (d : Dev) (f : Rime → Rime) : (d.modRime f).moraine = d.moraine := rfl
@[simp] theorem Dev.modRime_mapLog (d : Dev) (f : Rime → Rime) : (d.modRime f).mapLog = d.mapLog := rfl

/-! ### modIng -/

@[simp] theorem Dev.modIng_tbHost (d : Dev) (f : Ingest → Ingest) : (d.modIng f).tbHost = d.tbHost := rfl
@[simp] theorem Dev.modIng_tbMedia (d : Dev) (f : Ingest → Ingest) : (d.modIng f).tbMedia = d.tbMedia := rfl
@[simp] theorem Dev.modIng_clocks (d : Dev) (f : Ingest → Ingest) : (d.modIng f).clocks = d.clocks := rfl
@[simp] theorem Dev.modIng_regs (d : Dev) (f : Ingest → Ingest) : (d.modIng f).regs = d.regs := rfl
@[simp] theorem Dev.modIng_out (d : Dev) (f : Ingest → Ingest) : (d.modIng f).out = d.out := rfl
@[simp] theorem Dev.modIng_free (d : Dev) (f : Ingest → Ingest) : (d.modIng f).free = d.free := rfl
@[simp] theorem Dev.modIng_rings (d : Dev) (f : Ingest → Ingest) : (d.modIng f).rings = d.rings := rfl
@[simp] theorem Dev.modIng_arbs (d : Dev) (f : Ingest → Ingest) : (d.modIng f).arbs = d.arbs := rfl
@[simp] theorem Dev.modIng_fns (d : Dev) (f : Ingest → Ingest) : (d.modIng f).fns = d.fns := rfl
@[simp] theorem Dev.modIng_eps (d : Dev) (f : Ingest → Ingest) : (d.modIng f).eps = d.eps := rfl
@[simp] theorem Dev.modIng_rime (d : Dev) (f : Ingest → Ingest) : (d.modIng f).rime = d.rime := rfl
@[simp] theorem Dev.modIng_sch (d : Dev) (f : Ingest → Ingest) : (d.modIng f).sch = d.sch := rfl
@[simp] theorem Dev.modIng_snow (d : Dev) (f : Ingest → Ingest) : (d.modIng f).snow = d.snow := rfl
@[simp] theorem Dev.modIng_firn (d : Dev) (f : Ingest → Ingest) : (d.modIng f).firn = d.firn := rfl
@[simp] theorem Dev.modIng_ctxs (d : Dev) (f : Ingest → Ingest) : (d.modIng f).ctxs = d.ctxs := rfl
@[simp] theorem Dev.modIng_xmap (d : Dev) (f : Ingest → Ingest) : (d.modIng f).xmap = d.xmap := rfl
@[simp] theorem Dev.modIng_destages (d : Dev) (f : Ingest → Ingest) : (d.modIng f).destages = d.destages := rfl
@[simp] theorem Dev.modIng_reads (d : Dev) (f : Ingest → Ingest) : (d.modIng f).reads = d.reads := rfl
@[simp] theorem Dev.modIng_pools (d : Dev) (f : Ingest → Ingest) : (d.modIng f).pools = d.pools := rfl
@[simp] theorem Dev.modIng_maint (d : Dev) (f : Ingest → Ingest) : (d.modIng f).maint = d.maint := rfl
@[simp] theorem Dev.modIng_nss (d : Dev) (f : Ingest → Ingest) : (d.modIng f).nss = d.nss := rfl
@[simp] theorem Dev.modIng_streams (d : Dev) (f : Ingest → Ingest) : (d.modIng f).streams = d.streams := rfl
@[simp] theorem Dev.modIng_twin (d : Dev) (f : Ingest → Ingest) : (d.modIng f).twin = d.twin := rfl
@[simp] theorem Dev.modIng_drives (d : Dev) (f : Ingest → Ingest) : (d.modIng f).drives = d.drives := rfl
@[simp] theorem Dev.modIng_floe (d : Dev) (f : Ingest → Ingest) : (d.modIng f).floe = d.floe := rfl
@[simp] theorem Dev.modIng_gauge (d : Dev) (f : Ingest → Ingest) : (d.modIng f).gauge = d.gauge := rfl
@[simp] theorem Dev.modIng_staging (d : Dev) (f : Ingest → Ingest) : (d.modIng f).staging = d.staging := rfl
@[simp] theorem Dev.modIng_ledger (d : Dev) (f : Ingest → Ingest) : (d.modIng f).ledger = d.ledger := rfl
@[simp] theorem Dev.modIng_power (d : Dev) (f : Ingest → Ingest) : (d.modIng f).power = d.power := rfl
@[simp] theorem Dev.modIng_thermal (d : Dev) (f : Ingest → Ingest) : (d.modIng f).thermal = d.thermal := rfl
@[simp] theorem Dev.modIng_image (d : Dev) (f : Ingest → Ingest) : (d.modIng f).image = d.image := rfl
@[simp] theorem Dev.modIng_straps (d : Dev) (f : Ingest → Ingest) : (d.modIng f).straps = d.straps := rfl
@[simp] theorem Dev.modIng_serial (d : Dev) (f : Ingest → Ingest) : (d.modIng f).serial = d.serial := rfl
@[simp] theorem Dev.modIng_mbx (d : Dev) (f : Ingest → Ingest) : (d.modIng f).mbx = d.mbx := rfl
@[simp] theorem Dev.modIng_schLock (d : Dev) (f : Ingest → Ingest) : (d.modIng f).schLock = d.schLock := rfl
@[simp] theorem Dev.modIng_moraine (d : Dev) (f : Ingest → Ingest) : (d.modIng f).moraine = d.moraine := rfl
@[simp] theorem Dev.modIng_mapLog (d : Dev) (f : Ingest → Ingest) : (d.modIng f).mapLog = d.mapLog := rfl

/-! ### modPool -/

@[simp] theorem Dev.modPool_tbHost (d : Dev) (p : Nat) (f : Pool → Pool) : (d.modPool p f).tbHost = d.tbHost := rfl
@[simp] theorem Dev.modPool_tbMedia (d : Dev) (p : Nat) (f : Pool → Pool) : (d.modPool p f).tbMedia = d.tbMedia := rfl
@[simp] theorem Dev.modPool_clocks (d : Dev) (p : Nat) (f : Pool → Pool) : (d.modPool p f).clocks = d.clocks := rfl
@[simp] theorem Dev.modPool_regs (d : Dev) (p : Nat) (f : Pool → Pool) : (d.modPool p f).regs = d.regs := rfl
@[simp] theorem Dev.modPool_out (d : Dev) (p : Nat) (f : Pool → Pool) : (d.modPool p f).out = d.out := rfl
@[simp] theorem Dev.modPool_free (d : Dev) (p : Nat) (f : Pool → Pool) : (d.modPool p f).free = d.free := rfl
@[simp] theorem Dev.modPool_rings (d : Dev) (p : Nat) (f : Pool → Pool) : (d.modPool p f).rings = d.rings := rfl
@[simp] theorem Dev.modPool_arbs (d : Dev) (p : Nat) (f : Pool → Pool) : (d.modPool p f).arbs = d.arbs := rfl
@[simp] theorem Dev.modPool_fns (d : Dev) (p : Nat) (f : Pool → Pool) : (d.modPool p f).fns = d.fns := rfl
@[simp] theorem Dev.modPool_eps (d : Dev) (p : Nat) (f : Pool → Pool) : (d.modPool p f).eps = d.eps := rfl
@[simp] theorem Dev.modPool_ingest (d : Dev) (p : Nat) (f : Pool → Pool) : (d.modPool p f).ingest = d.ingest := rfl
@[simp] theorem Dev.modPool_rime (d : Dev) (p : Nat) (f : Pool → Pool) : (d.modPool p f).rime = d.rime := rfl
@[simp] theorem Dev.modPool_sch (d : Dev) (p : Nat) (f : Pool → Pool) : (d.modPool p f).sch = d.sch := rfl
@[simp] theorem Dev.modPool_snow (d : Dev) (p : Nat) (f : Pool → Pool) : (d.modPool p f).snow = d.snow := rfl
@[simp] theorem Dev.modPool_firn (d : Dev) (p : Nat) (f : Pool → Pool) : (d.modPool p f).firn = d.firn := rfl
@[simp] theorem Dev.modPool_ctxs (d : Dev) (p : Nat) (f : Pool → Pool) : (d.modPool p f).ctxs = d.ctxs := rfl
@[simp] theorem Dev.modPool_xmap (d : Dev) (p : Nat) (f : Pool → Pool) : (d.modPool p f).xmap = d.xmap := rfl
@[simp] theorem Dev.modPool_destages (d : Dev) (p : Nat) (f : Pool → Pool) : (d.modPool p f).destages = d.destages := rfl
@[simp] theorem Dev.modPool_reads (d : Dev) (p : Nat) (f : Pool → Pool) : (d.modPool p f).reads = d.reads := rfl
@[simp] theorem Dev.modPool_maint (d : Dev) (p : Nat) (f : Pool → Pool) : (d.modPool p f).maint = d.maint := rfl
@[simp] theorem Dev.modPool_nss (d : Dev) (p : Nat) (f : Pool → Pool) : (d.modPool p f).nss = d.nss := rfl
@[simp] theorem Dev.modPool_streams (d : Dev) (p : Nat) (f : Pool → Pool) : (d.modPool p f).streams = d.streams := rfl
@[simp] theorem Dev.modPool_twin (d : Dev) (p : Nat) (f : Pool → Pool) : (d.modPool p f).twin = d.twin := rfl
@[simp] theorem Dev.modPool_drives (d : Dev) (p : Nat) (f : Pool → Pool) : (d.modPool p f).drives = d.drives := rfl
@[simp] theorem Dev.modPool_floe (d : Dev) (p : Nat) (f : Pool → Pool) : (d.modPool p f).floe = d.floe := rfl
@[simp] theorem Dev.modPool_gauge (d : Dev) (p : Nat) (f : Pool → Pool) : (d.modPool p f).gauge = d.gauge := rfl
@[simp] theorem Dev.modPool_staging (d : Dev) (p : Nat) (f : Pool → Pool) : (d.modPool p f).staging = d.staging := rfl
@[simp] theorem Dev.modPool_ledger (d : Dev) (p : Nat) (f : Pool → Pool) : (d.modPool p f).ledger = d.ledger := rfl
@[simp] theorem Dev.modPool_power (d : Dev) (p : Nat) (f : Pool → Pool) : (d.modPool p f).power = d.power := rfl
@[simp] theorem Dev.modPool_thermal (d : Dev) (p : Nat) (f : Pool → Pool) : (d.modPool p f).thermal = d.thermal := rfl
@[simp] theorem Dev.modPool_image (d : Dev) (p : Nat) (f : Pool → Pool) : (d.modPool p f).image = d.image := rfl
@[simp] theorem Dev.modPool_straps (d : Dev) (p : Nat) (f : Pool → Pool) : (d.modPool p f).straps = d.straps := rfl
@[simp] theorem Dev.modPool_serial (d : Dev) (p : Nat) (f : Pool → Pool) : (d.modPool p f).serial = d.serial := rfl
@[simp] theorem Dev.modPool_mbx (d : Dev) (p : Nat) (f : Pool → Pool) : (d.modPool p f).mbx = d.mbx := rfl
@[simp] theorem Dev.modPool_schLock (d : Dev) (p : Nat) (f : Pool → Pool) : (d.modPool p f).schLock = d.schLock := rfl
@[simp] theorem Dev.modPool_moraine (d : Dev) (p : Nat) (f : Pool → Pool) : (d.modPool p f).moraine = d.moraine := rfl
@[simp] theorem Dev.modPool_mapLog (d : Dev) (p : Nat) (f : Pool → Pool) : (d.modPool p f).mapLog = d.mapLog := rfl

/-! ### modNs -/

@[simp] theorem Dev.modNs_tbHost (d : Dev) (n : Nat) (f : Ns → Ns) : (d.modNs n f).tbHost = d.tbHost := rfl
@[simp] theorem Dev.modNs_tbMedia (d : Dev) (n : Nat) (f : Ns → Ns) : (d.modNs n f).tbMedia = d.tbMedia := rfl
@[simp] theorem Dev.modNs_clocks (d : Dev) (n : Nat) (f : Ns → Ns) : (d.modNs n f).clocks = d.clocks := rfl
@[simp] theorem Dev.modNs_regs (d : Dev) (n : Nat) (f : Ns → Ns) : (d.modNs n f).regs = d.regs := rfl
@[simp] theorem Dev.modNs_out (d : Dev) (n : Nat) (f : Ns → Ns) : (d.modNs n f).out = d.out := rfl
@[simp] theorem Dev.modNs_free (d : Dev) (n : Nat) (f : Ns → Ns) : (d.modNs n f).free = d.free := rfl
@[simp] theorem Dev.modNs_rings (d : Dev) (n : Nat) (f : Ns → Ns) : (d.modNs n f).rings = d.rings := rfl
@[simp] theorem Dev.modNs_arbs (d : Dev) (n : Nat) (f : Ns → Ns) : (d.modNs n f).arbs = d.arbs := rfl
@[simp] theorem Dev.modNs_fns (d : Dev) (n : Nat) (f : Ns → Ns) : (d.modNs n f).fns = d.fns := rfl
@[simp] theorem Dev.modNs_eps (d : Dev) (n : Nat) (f : Ns → Ns) : (d.modNs n f).eps = d.eps := rfl
@[simp] theorem Dev.modNs_ingest (d : Dev) (n : Nat) (f : Ns → Ns) : (d.modNs n f).ingest = d.ingest := rfl
@[simp] theorem Dev.modNs_rime (d : Dev) (n : Nat) (f : Ns → Ns) : (d.modNs n f).rime = d.rime := rfl
@[simp] theorem Dev.modNs_sch (d : Dev) (n : Nat) (f : Ns → Ns) : (d.modNs n f).sch = d.sch := rfl
@[simp] theorem Dev.modNs_snow (d : Dev) (n : Nat) (f : Ns → Ns) : (d.modNs n f).snow = d.snow := rfl
@[simp] theorem Dev.modNs_firn (d : Dev) (n : Nat) (f : Ns → Ns) : (d.modNs n f).firn = d.firn := rfl
@[simp] theorem Dev.modNs_ctxs (d : Dev) (n : Nat) (f : Ns → Ns) : (d.modNs n f).ctxs = d.ctxs := rfl
@[simp] theorem Dev.modNs_xmap (d : Dev) (n : Nat) (f : Ns → Ns) : (d.modNs n f).xmap = d.xmap := rfl
@[simp] theorem Dev.modNs_destages (d : Dev) (n : Nat) (f : Ns → Ns) : (d.modNs n f).destages = d.destages := rfl
@[simp] theorem Dev.modNs_reads (d : Dev) (n : Nat) (f : Ns → Ns) : (d.modNs n f).reads = d.reads := rfl
@[simp] theorem Dev.modNs_pools (d : Dev) (n : Nat) (f : Ns → Ns) : (d.modNs n f).pools = d.pools := rfl
@[simp] theorem Dev.modNs_maint (d : Dev) (n : Nat) (f : Ns → Ns) : (d.modNs n f).maint = d.maint := rfl
@[simp] theorem Dev.modNs_streams (d : Dev) (n : Nat) (f : Ns → Ns) : (d.modNs n f).streams = d.streams := rfl
@[simp] theorem Dev.modNs_twin (d : Dev) (n : Nat) (f : Ns → Ns) : (d.modNs n f).twin = d.twin := rfl
@[simp] theorem Dev.modNs_drives (d : Dev) (n : Nat) (f : Ns → Ns) : (d.modNs n f).drives = d.drives := rfl
@[simp] theorem Dev.modNs_floe (d : Dev) (n : Nat) (f : Ns → Ns) : (d.modNs n f).floe = d.floe := rfl
@[simp] theorem Dev.modNs_gauge (d : Dev) (n : Nat) (f : Ns → Ns) : (d.modNs n f).gauge = d.gauge := rfl
@[simp] theorem Dev.modNs_staging (d : Dev) (n : Nat) (f : Ns → Ns) : (d.modNs n f).staging = d.staging := rfl
@[simp] theorem Dev.modNs_ledger (d : Dev) (n : Nat) (f : Ns → Ns) : (d.modNs n f).ledger = d.ledger := rfl
@[simp] theorem Dev.modNs_power (d : Dev) (n : Nat) (f : Ns → Ns) : (d.modNs n f).power = d.power := rfl
@[simp] theorem Dev.modNs_thermal (d : Dev) (n : Nat) (f : Ns → Ns) : (d.modNs n f).thermal = d.thermal := rfl
@[simp] theorem Dev.modNs_image (d : Dev) (n : Nat) (f : Ns → Ns) : (d.modNs n f).image = d.image := rfl
@[simp] theorem Dev.modNs_straps (d : Dev) (n : Nat) (f : Ns → Ns) : (d.modNs n f).straps = d.straps := rfl
@[simp] theorem Dev.modNs_serial (d : Dev) (n : Nat) (f : Ns → Ns) : (d.modNs n f).serial = d.serial := rfl
@[simp] theorem Dev.modNs_mbx (d : Dev) (n : Nat) (f : Ns → Ns) : (d.modNs n f).mbx = d.mbx := rfl
@[simp] theorem Dev.modNs_schLock (d : Dev) (n : Nat) (f : Ns → Ns) : (d.modNs n f).schLock = d.schLock := rfl
@[simp] theorem Dev.modNs_moraine (d : Dev) (n : Nat) (f : Ns → Ns) : (d.modNs n f).moraine = d.moraine := rfl
@[simp] theorem Dev.modNs_mapLog (d : Dev) (n : Nat) (f : Ns → Ns) : (d.modNs n f).mapLog = d.mapLog := rfl

/-! ### modStream -/

@[simp] theorem Dev.modStream_tbHost (d : Dev) (n : Nat) (f : Stream → Stream) : (d.modStream n f).tbHost = d.tbHost := rfl
@[simp] theorem Dev.modStream_tbMedia (d : Dev) (n : Nat) (f : Stream → Stream) : (d.modStream n f).tbMedia = d.tbMedia := rfl
@[simp] theorem Dev.modStream_clocks (d : Dev) (n : Nat) (f : Stream → Stream) : (d.modStream n f).clocks = d.clocks := rfl
@[simp] theorem Dev.modStream_regs (d : Dev) (n : Nat) (f : Stream → Stream) : (d.modStream n f).regs = d.regs := rfl
@[simp] theorem Dev.modStream_out (d : Dev) (n : Nat) (f : Stream → Stream) : (d.modStream n f).out = d.out := rfl
@[simp] theorem Dev.modStream_free (d : Dev) (n : Nat) (f : Stream → Stream) : (d.modStream n f).free = d.free := rfl
@[simp] theorem Dev.modStream_rings (d : Dev) (n : Nat) (f : Stream → Stream) : (d.modStream n f).rings = d.rings := rfl
@[simp] theorem Dev.modStream_arbs (d : Dev) (n : Nat) (f : Stream → Stream) : (d.modStream n f).arbs = d.arbs := rfl
@[simp] theorem Dev.modStream_fns (d : Dev) (n : Nat) (f : Stream → Stream) : (d.modStream n f).fns = d.fns := rfl
@[simp] theorem Dev.modStream_eps (d : Dev) (n : Nat) (f : Stream → Stream) : (d.modStream n f).eps = d.eps := rfl
@[simp] theorem Dev.modStream_ingest (d : Dev) (n : Nat) (f : Stream → Stream) : (d.modStream n f).ingest = d.ingest := rfl
@[simp] theorem Dev.modStream_rime (d : Dev) (n : Nat) (f : Stream → Stream) : (d.modStream n f).rime = d.rime := rfl
@[simp] theorem Dev.modStream_sch (d : Dev) (n : Nat) (f : Stream → Stream) : (d.modStream n f).sch = d.sch := rfl
@[simp] theorem Dev.modStream_snow (d : Dev) (n : Nat) (f : Stream → Stream) : (d.modStream n f).snow = d.snow := rfl
@[simp] theorem Dev.modStream_firn (d : Dev) (n : Nat) (f : Stream → Stream) : (d.modStream n f).firn = d.firn := rfl
@[simp] theorem Dev.modStream_ctxs (d : Dev) (n : Nat) (f : Stream → Stream) : (d.modStream n f).ctxs = d.ctxs := rfl
@[simp] theorem Dev.modStream_xmap (d : Dev) (n : Nat) (f : Stream → Stream) : (d.modStream n f).xmap = d.xmap := rfl
@[simp] theorem Dev.modStream_destages (d : Dev) (n : Nat) (f : Stream → Stream) : (d.modStream n f).destages = d.destages := rfl
@[simp] theorem Dev.modStream_reads (d : Dev) (n : Nat) (f : Stream → Stream) : (d.modStream n f).reads = d.reads := rfl
@[simp] theorem Dev.modStream_pools (d : Dev) (n : Nat) (f : Stream → Stream) : (d.modStream n f).pools = d.pools := rfl
@[simp] theorem Dev.modStream_maint (d : Dev) (n : Nat) (f : Stream → Stream) : (d.modStream n f).maint = d.maint := rfl
@[simp] theorem Dev.modStream_nss (d : Dev) (n : Nat) (f : Stream → Stream) : (d.modStream n f).nss = d.nss := rfl
@[simp] theorem Dev.modStream_twin (d : Dev) (n : Nat) (f : Stream → Stream) : (d.modStream n f).twin = d.twin := rfl
@[simp] theorem Dev.modStream_drives (d : Dev) (n : Nat) (f : Stream → Stream) : (d.modStream n f).drives = d.drives := rfl
@[simp] theorem Dev.modStream_floe (d : Dev) (n : Nat) (f : Stream → Stream) : (d.modStream n f).floe = d.floe := rfl
@[simp] theorem Dev.modStream_gauge (d : Dev) (n : Nat) (f : Stream → Stream) : (d.modStream n f).gauge = d.gauge := rfl
@[simp] theorem Dev.modStream_staging (d : Dev) (n : Nat) (f : Stream → Stream) : (d.modStream n f).staging = d.staging := rfl
@[simp] theorem Dev.modStream_ledger (d : Dev) (n : Nat) (f : Stream → Stream) : (d.modStream n f).ledger = d.ledger := rfl
@[simp] theorem Dev.modStream_power (d : Dev) (n : Nat) (f : Stream → Stream) : (d.modStream n f).power = d.power := rfl
@[simp] theorem Dev.modStream_thermal (d : Dev) (n : Nat) (f : Stream → Stream) : (d.modStream n f).thermal = d.thermal := rfl
@[simp] theorem Dev.modStream_image (d : Dev) (n : Nat) (f : Stream → Stream) : (d.modStream n f).image = d.image := rfl
@[simp] theorem Dev.modStream_straps (d : Dev) (n : Nat) (f : Stream → Stream) : (d.modStream n f).straps = d.straps := rfl
@[simp] theorem Dev.modStream_serial (d : Dev) (n : Nat) (f : Stream → Stream) : (d.modStream n f).serial = d.serial := rfl
@[simp] theorem Dev.modStream_mbx (d : Dev) (n : Nat) (f : Stream → Stream) : (d.modStream n f).mbx = d.mbx := rfl
@[simp] theorem Dev.modStream_schLock (d : Dev) (n : Nat) (f : Stream → Stream) : (d.modStream n f).schLock = d.schLock := rfl
@[simp] theorem Dev.modStream_moraine (d : Dev) (n : Nat) (f : Stream → Stream) : (d.modStream n f).moraine = d.moraine := rfl
@[simp] theorem Dev.modStream_mapLog (d : Dev) (n : Nat) (f : Stream → Stream) : (d.modStream n f).mapLog = d.mapLog := rfl

/-! ### modQ -/

@[simp] theorem Dev.modQ_tbHost (d : Dev) (q : Nat) (f : Queue → Queue) : (d.modQ q f).tbHost = d.tbHost := rfl
@[simp] theorem Dev.modQ_tbMedia (d : Dev) (q : Nat) (f : Queue → Queue) : (d.modQ q f).tbMedia = d.tbMedia := rfl
@[simp] theorem Dev.modQ_clocks (d : Dev) (q : Nat) (f : Queue → Queue) : (d.modQ q f).clocks = d.clocks := rfl
@[simp] theorem Dev.modQ_regs (d : Dev) (q : Nat) (f : Queue → Queue) : (d.modQ q f).regs = d.regs := rfl
@[simp] theorem Dev.modQ_out (d : Dev) (q : Nat) (f : Queue → Queue) : (d.modQ q f).out = d.out := rfl
@[simp] theorem Dev.modQ_free (d : Dev) (q : Nat) (f : Queue → Queue) : (d.modQ q f).free = d.free := rfl
@[simp] theorem Dev.modQ_arbs (d : Dev) (q : Nat) (f : Queue → Queue) : (d.modQ q f).arbs = d.arbs := rfl
@[simp] theorem Dev.modQ_fns (d : Dev) (q : Nat) (f : Queue → Queue) : (d.modQ q f).fns = d.fns := rfl
@[simp] theorem Dev.modQ_eps (d : Dev) (q : Nat) (f : Queue → Queue) : (d.modQ q f).eps = d.eps := rfl
@[simp] theorem Dev.modQ_ingest (d : Dev) (q : Nat) (f : Queue → Queue) : (d.modQ q f).ingest = d.ingest := rfl
@[simp] theorem Dev.modQ_rime (d : Dev) (q : Nat) (f : Queue → Queue) : (d.modQ q f).rime = d.rime := rfl
@[simp] theorem Dev.modQ_sch (d : Dev) (q : Nat) (f : Queue → Queue) : (d.modQ q f).sch = d.sch := rfl
@[simp] theorem Dev.modQ_snow (d : Dev) (q : Nat) (f : Queue → Queue) : (d.modQ q f).snow = d.snow := rfl
@[simp] theorem Dev.modQ_firn (d : Dev) (q : Nat) (f : Queue → Queue) : (d.modQ q f).firn = d.firn := rfl
@[simp] theorem Dev.modQ_ctxs (d : Dev) (q : Nat) (f : Queue → Queue) : (d.modQ q f).ctxs = d.ctxs := rfl
@[simp] theorem Dev.modQ_xmap (d : Dev) (q : Nat) (f : Queue → Queue) : (d.modQ q f).xmap = d.xmap := rfl
@[simp] theorem Dev.modQ_destages (d : Dev) (q : Nat) (f : Queue → Queue) : (d.modQ q f).destages = d.destages := rfl
@[simp] theorem Dev.modQ_reads (d : Dev) (q : Nat) (f : Queue → Queue) : (d.modQ q f).reads = d.reads := rfl
@[simp] theorem Dev.modQ_pools (d : Dev) (q : Nat) (f : Queue → Queue) : (d.modQ q f).pools = d.pools := rfl
@[simp] theorem Dev.modQ_maint (d : Dev) (q : Nat) (f : Queue → Queue) : (d.modQ q f).maint = d.maint := rfl
@[simp] theorem Dev.modQ_nss (d : Dev) (q : Nat) (f : Queue → Queue) : (d.modQ q f).nss = d.nss := rfl
@[simp] theorem Dev.modQ_streams (d : Dev) (q : Nat) (f : Queue → Queue) : (d.modQ q f).streams = d.streams := rfl
@[simp] theorem Dev.modQ_twin (d : Dev) (q : Nat) (f : Queue → Queue) : (d.modQ q f).twin = d.twin := rfl
@[simp] theorem Dev.modQ_drives (d : Dev) (q : Nat) (f : Queue → Queue) : (d.modQ q f).drives = d.drives := rfl
@[simp] theorem Dev.modQ_floe (d : Dev) (q : Nat) (f : Queue → Queue) : (d.modQ q f).floe = d.floe := rfl
@[simp] theorem Dev.modQ_gauge (d : Dev) (q : Nat) (f : Queue → Queue) : (d.modQ q f).gauge = d.gauge := rfl
@[simp] theorem Dev.modQ_staging (d : Dev) (q : Nat) (f : Queue → Queue) : (d.modQ q f).staging = d.staging := rfl
@[simp] theorem Dev.modQ_ledger (d : Dev) (q : Nat) (f : Queue → Queue) : (d.modQ q f).ledger = d.ledger := rfl
@[simp] theorem Dev.modQ_power (d : Dev) (q : Nat) (f : Queue → Queue) : (d.modQ q f).power = d.power := rfl
@[simp] theorem Dev.modQ_thermal (d : Dev) (q : Nat) (f : Queue → Queue) : (d.modQ q f).thermal = d.thermal := rfl
@[simp] theorem Dev.modQ_image (d : Dev) (q : Nat) (f : Queue → Queue) : (d.modQ q f).image = d.image := rfl
@[simp] theorem Dev.modQ_straps (d : Dev) (q : Nat) (f : Queue → Queue) : (d.modQ q f).straps = d.straps := rfl
@[simp] theorem Dev.modQ_serial (d : Dev) (q : Nat) (f : Queue → Queue) : (d.modQ q f).serial = d.serial := rfl
@[simp] theorem Dev.modQ_mbx (d : Dev) (q : Nat) (f : Queue → Queue) : (d.modQ q f).mbx = d.mbx := rfl
@[simp] theorem Dev.modQ_schLock (d : Dev) (q : Nat) (f : Queue → Queue) : (d.modQ q f).schLock = d.schLock := rfl
@[simp] theorem Dev.modQ_moraine (d : Dev) (q : Nat) (f : Queue → Queue) : (d.modQ q f).moraine = d.moraine := rfl
@[simp] theorem Dev.modQ_mapLog (d : Dev) (q : Nat) (f : Queue → Queue) : (d.modQ q f).mapLog = d.mapLog := rfl

/-! ### modCmd -/

@[simp] theorem Dev.modCmd_tbHost (d : Dev) (q tag : Nat) (f : Cmd → Cmd) : (d.modCmd q tag f).tbHost = d.tbHost := rfl
@[simp] theorem Dev.modCmd_tbMedia (d : Dev) (q tag : Nat) (f : Cmd → Cmd) : (d.modCmd q tag f).tbMedia = d.tbMedia := rfl
@[simp] theorem Dev.modCmd_clocks (d : Dev) (q tag : Nat) (f : Cmd → Cmd) : (d.modCmd q tag f).clocks = d.clocks := rfl
@[simp] theorem Dev.modCmd_regs (d : Dev) (q tag : Nat) (f : Cmd → Cmd) : (d.modCmd q tag f).regs = d.regs := rfl
@[simp] theorem Dev.modCmd_out (d : Dev) (q tag : Nat) (f : Cmd → Cmd) : (d.modCmd q tag f).out = d.out := rfl
@[simp] theorem Dev.modCmd_free (d : Dev) (q tag : Nat) (f : Cmd → Cmd) : (d.modCmd q tag f).free = d.free := rfl
@[simp] theorem Dev.modCmd_arbs (d : Dev) (q tag : Nat) (f : Cmd → Cmd) : (d.modCmd q tag f).arbs = d.arbs := rfl
@[simp] theorem Dev.modCmd_fns (d : Dev) (q tag : Nat) (f : Cmd → Cmd) : (d.modCmd q tag f).fns = d.fns := rfl
@[simp] theorem Dev.modCmd_eps (d : Dev) (q tag : Nat) (f : Cmd → Cmd) : (d.modCmd q tag f).eps = d.eps := rfl
@[simp] theorem Dev.modCmd_ingest (d : Dev) (q tag : Nat) (f : Cmd → Cmd) : (d.modCmd q tag f).ingest = d.ingest := rfl
@[simp] theorem Dev.modCmd_rime (d : Dev) (q tag : Nat) (f : Cmd → Cmd) : (d.modCmd q tag f).rime = d.rime := rfl
@[simp] theorem Dev.modCmd_sch (d : Dev) (q tag : Nat) (f : Cmd → Cmd) : (d.modCmd q tag f).sch = d.sch := rfl
@[simp] theorem Dev.modCmd_snow (d : Dev) (q tag : Nat) (f : Cmd → Cmd) : (d.modCmd q tag f).snow = d.snow := rfl
@[simp] theorem Dev.modCmd_firn (d : Dev) (q tag : Nat) (f : Cmd → Cmd) : (d.modCmd q tag f).firn = d.firn := rfl
@[simp] theorem Dev.modCmd_ctxs (d : Dev) (q tag : Nat) (f : Cmd → Cmd) : (d.modCmd q tag f).ctxs = d.ctxs := rfl
@[simp] theorem Dev.modCmd_xmap (d : Dev) (q tag : Nat) (f : Cmd → Cmd) : (d.modCmd q tag f).xmap = d.xmap := rfl
@[simp] theorem Dev.modCmd_destages (d : Dev) (q tag : Nat) (f : Cmd → Cmd) : (d.modCmd q tag f).destages = d.destages := rfl
@[simp] theorem Dev.modCmd_reads (d : Dev) (q tag : Nat) (f : Cmd → Cmd) : (d.modCmd q tag f).reads = d.reads := rfl
@[simp] theorem Dev.modCmd_pools (d : Dev) (q tag : Nat) (f : Cmd → Cmd) : (d.modCmd q tag f).pools = d.pools := rfl
@[simp] theorem Dev.modCmd_maint (d : Dev) (q tag : Nat) (f : Cmd → Cmd) : (d.modCmd q tag f).maint = d.maint := rfl
@[simp] theorem Dev.modCmd_nss (d : Dev) (q tag : Nat) (f : Cmd → Cmd) : (d.modCmd q tag f).nss = d.nss := rfl
@[simp] theorem Dev.modCmd_streams (d : Dev) (q tag : Nat) (f : Cmd → Cmd) : (d.modCmd q tag f).streams = d.streams := rfl
@[simp] theorem Dev.modCmd_twin (d : Dev) (q tag : Nat) (f : Cmd → Cmd) : (d.modCmd q tag f).twin = d.twin := rfl
@[simp] theorem Dev.modCmd_drives (d : Dev) (q tag : Nat) (f : Cmd → Cmd) : (d.modCmd q tag f).drives = d.drives := rfl
@[simp] theorem Dev.modCmd_floe (d : Dev) (q tag : Nat) (f : Cmd → Cmd) : (d.modCmd q tag f).floe = d.floe := rfl
@[simp] theorem Dev.modCmd_gauge (d : Dev) (q tag : Nat) (f : Cmd → Cmd) : (d.modCmd q tag f).gauge = d.gauge := rfl
@[simp] theorem Dev.modCmd_staging (d : Dev) (q tag : Nat) (f : Cmd → Cmd) : (d.modCmd q tag f).staging = d.staging := rfl
@[simp] theorem Dev.modCmd_ledger (d : Dev) (q tag : Nat) (f : Cmd → Cmd) : (d.modCmd q tag f).ledger = d.ledger := rfl
@[simp] theorem Dev.modCmd_power (d : Dev) (q tag : Nat) (f : Cmd → Cmd) : (d.modCmd q tag f).power = d.power := rfl
@[simp] theorem Dev.modCmd_thermal (d : Dev) (q tag : Nat) (f : Cmd → Cmd) : (d.modCmd q tag f).thermal = d.thermal := rfl
@[simp] theorem Dev.modCmd_image (d : Dev) (q tag : Nat) (f : Cmd → Cmd) : (d.modCmd q tag f).image = d.image := rfl
@[simp] theorem Dev.modCmd_straps (d : Dev) (q tag : Nat) (f : Cmd → Cmd) : (d.modCmd q tag f).straps = d.straps := rfl
@[simp] theorem Dev.modCmd_serial (d : Dev) (q tag : Nat) (f : Cmd → Cmd) : (d.modCmd q tag f).serial = d.serial := rfl
@[simp] theorem Dev.modCmd_mbx (d : Dev) (q tag : Nat) (f : Cmd → Cmd) : (d.modCmd q tag f).mbx = d.mbx := rfl
@[simp] theorem Dev.modCmd_schLock (d : Dev) (q tag : Nat) (f : Cmd → Cmd) : (d.modCmd q tag f).schLock = d.schLock := rfl
@[simp] theorem Dev.modCmd_moraine (d : Dev) (q tag : Nat) (f : Cmd → Cmd) : (d.modCmd q tag f).moraine = d.moraine := rfl
@[simp] theorem Dev.modCmd_mapLog (d : Dev) (q tag : Nat) (f : Cmd → Cmd) : (d.modCmd q tag f).mapLog = d.mapLog := rfl

/-! ### modCtx -/

@[simp] theorem Dev.modCtx_tbHost (d : Dev) (q tag : Nat) (f : MCtx → MCtx) : (d.modCtx q tag f).tbHost = d.tbHost := rfl
@[simp] theorem Dev.modCtx_tbMedia (d : Dev) (q tag : Nat) (f : MCtx → MCtx) : (d.modCtx q tag f).tbMedia = d.tbMedia := rfl
@[simp] theorem Dev.modCtx_clocks (d : Dev) (q tag : Nat) (f : MCtx → MCtx) : (d.modCtx q tag f).clocks = d.clocks := rfl
@[simp] theorem Dev.modCtx_regs (d : Dev) (q tag : Nat) (f : MCtx → MCtx) : (d.modCtx q tag f).regs = d.regs := rfl
@[simp] theorem Dev.modCtx_out (d : Dev) (q tag : Nat) (f : MCtx → MCtx) : (d.modCtx q tag f).out = d.out := rfl
@[simp] theorem Dev.modCtx_free (d : Dev) (q tag : Nat) (f : MCtx → MCtx) : (d.modCtx q tag f).free = d.free := rfl
@[simp] theorem Dev.modCtx_rings (d : Dev) (q tag : Nat) (f : MCtx → MCtx) : (d.modCtx q tag f).rings = d.rings := rfl
@[simp] theorem Dev.modCtx_arbs (d : Dev) (q tag : Nat) (f : MCtx → MCtx) : (d.modCtx q tag f).arbs = d.arbs := rfl
@[simp] theorem Dev.modCtx_fns (d : Dev) (q tag : Nat) (f : MCtx → MCtx) : (d.modCtx q tag f).fns = d.fns := rfl
@[simp] theorem Dev.modCtx_eps (d : Dev) (q tag : Nat) (f : MCtx → MCtx) : (d.modCtx q tag f).eps = d.eps := rfl
@[simp] theorem Dev.modCtx_ingest (d : Dev) (q tag : Nat) (f : MCtx → MCtx) : (d.modCtx q tag f).ingest = d.ingest := rfl
@[simp] theorem Dev.modCtx_rime (d : Dev) (q tag : Nat) (f : MCtx → MCtx) : (d.modCtx q tag f).rime = d.rime := rfl
@[simp] theorem Dev.modCtx_sch (d : Dev) (q tag : Nat) (f : MCtx → MCtx) : (d.modCtx q tag f).sch = d.sch := rfl
@[simp] theorem Dev.modCtx_snow (d : Dev) (q tag : Nat) (f : MCtx → MCtx) : (d.modCtx q tag f).snow = d.snow := rfl
@[simp] theorem Dev.modCtx_firn (d : Dev) (q tag : Nat) (f : MCtx → MCtx) : (d.modCtx q tag f).firn = d.firn := rfl
@[simp] theorem Dev.modCtx_xmap (d : Dev) (q tag : Nat) (f : MCtx → MCtx) : (d.modCtx q tag f).xmap = d.xmap := rfl
@[simp] theorem Dev.modCtx_destages (d : Dev) (q tag : Nat) (f : MCtx → MCtx) : (d.modCtx q tag f).destages = d.destages := rfl
@[simp] theorem Dev.modCtx_reads (d : Dev) (q tag : Nat) (f : MCtx → MCtx) : (d.modCtx q tag f).reads = d.reads := rfl
@[simp] theorem Dev.modCtx_pools (d : Dev) (q tag : Nat) (f : MCtx → MCtx) : (d.modCtx q tag f).pools = d.pools := rfl
@[simp] theorem Dev.modCtx_maint (d : Dev) (q tag : Nat) (f : MCtx → MCtx) : (d.modCtx q tag f).maint = d.maint := rfl
@[simp] theorem Dev.modCtx_nss (d : Dev) (q tag : Nat) (f : MCtx → MCtx) : (d.modCtx q tag f).nss = d.nss := rfl
@[simp] theorem Dev.modCtx_streams (d : Dev) (q tag : Nat) (f : MCtx → MCtx) : (d.modCtx q tag f).streams = d.streams := rfl
@[simp] theorem Dev.modCtx_twin (d : Dev) (q tag : Nat) (f : MCtx → MCtx) : (d.modCtx q tag f).twin = d.twin := rfl
@[simp] theorem Dev.modCtx_drives (d : Dev) (q tag : Nat) (f : MCtx → MCtx) : (d.modCtx q tag f).drives = d.drives := rfl
@[simp] theorem Dev.modCtx_floe (d : Dev) (q tag : Nat) (f : MCtx → MCtx) : (d.modCtx q tag f).floe = d.floe := rfl
@[simp] theorem Dev.modCtx_gauge (d : Dev) (q tag : Nat) (f : MCtx → MCtx) : (d.modCtx q tag f).gauge = d.gauge := rfl
@[simp] theorem Dev.modCtx_staging (d : Dev) (q tag : Nat) (f : MCtx → MCtx) : (d.modCtx q tag f).staging = d.staging := rfl
@[simp] theorem Dev.modCtx_ledger (d : Dev) (q tag : Nat) (f : MCtx → MCtx) : (d.modCtx q tag f).ledger = d.ledger := rfl
@[simp] theorem Dev.modCtx_power (d : Dev) (q tag : Nat) (f : MCtx → MCtx) : (d.modCtx q tag f).power = d.power := rfl
@[simp] theorem Dev.modCtx_thermal (d : Dev) (q tag : Nat) (f : MCtx → MCtx) : (d.modCtx q tag f).thermal = d.thermal := rfl
@[simp] theorem Dev.modCtx_image (d : Dev) (q tag : Nat) (f : MCtx → MCtx) : (d.modCtx q tag f).image = d.image := rfl
@[simp] theorem Dev.modCtx_straps (d : Dev) (q tag : Nat) (f : MCtx → MCtx) : (d.modCtx q tag f).straps = d.straps := rfl
@[simp] theorem Dev.modCtx_serial (d : Dev) (q tag : Nat) (f : MCtx → MCtx) : (d.modCtx q tag f).serial = d.serial := rfl
@[simp] theorem Dev.modCtx_mbx (d : Dev) (q tag : Nat) (f : MCtx → MCtx) : (d.modCtx q tag f).mbx = d.mbx := rfl
@[simp] theorem Dev.modCtx_schLock (d : Dev) (q tag : Nat) (f : MCtx → MCtx) : (d.modCtx q tag f).schLock = d.schLock := rfl
@[simp] theorem Dev.modCtx_moraine (d : Dev) (q tag : Nat) (f : MCtx → MCtx) : (d.modCtx q tag f).moraine = d.moraine := rfl
@[simp] theorem Dev.modCtx_mapLog (d : Dev) (q tag : Nat) (f : MCtx → MCtx) : (d.modCtx q tag f).mapLog = d.mapLog := rfl

/-! ### dropCtx -/

@[simp] theorem Dev.dropCtx_tbHost (d : Dev) (q tag : Nat) : (d.dropCtx q tag).tbHost = d.tbHost := rfl
@[simp] theorem Dev.dropCtx_tbMedia (d : Dev) (q tag : Nat) : (d.dropCtx q tag).tbMedia = d.tbMedia := rfl
@[simp] theorem Dev.dropCtx_clocks (d : Dev) (q tag : Nat) : (d.dropCtx q tag).clocks = d.clocks := rfl
@[simp] theorem Dev.dropCtx_regs (d : Dev) (q tag : Nat) : (d.dropCtx q tag).regs = d.regs := rfl
@[simp] theorem Dev.dropCtx_out (d : Dev) (q tag : Nat) : (d.dropCtx q tag).out = d.out := rfl
@[simp] theorem Dev.dropCtx_free (d : Dev) (q tag : Nat) : (d.dropCtx q tag).free = d.free := rfl
@[simp] theorem Dev.dropCtx_rings (d : Dev) (q tag : Nat) : (d.dropCtx q tag).rings = d.rings := rfl
@[simp] theorem Dev.dropCtx_arbs (d : Dev) (q tag : Nat) : (d.dropCtx q tag).arbs = d.arbs := rfl
@[simp] theorem Dev.dropCtx_fns (d : Dev) (q tag : Nat) : (d.dropCtx q tag).fns = d.fns := rfl
@[simp] theorem Dev.dropCtx_eps (d : Dev) (q tag : Nat) : (d.dropCtx q tag).eps = d.eps := rfl
@[simp] theorem Dev.dropCtx_ingest (d : Dev) (q tag : Nat) : (d.dropCtx q tag).ingest = d.ingest := rfl
@[simp] theorem Dev.dropCtx_rime (d : Dev) (q tag : Nat) : (d.dropCtx q tag).rime = d.rime := rfl
@[simp] theorem Dev.dropCtx_sch (d : Dev) (q tag : Nat) : (d.dropCtx q tag).sch = d.sch := rfl
@[simp] theorem Dev.dropCtx_snow (d : Dev) (q tag : Nat) : (d.dropCtx q tag).snow = d.snow := rfl
@[simp] theorem Dev.dropCtx_firn (d : Dev) (q tag : Nat) : (d.dropCtx q tag).firn = d.firn := rfl
@[simp] theorem Dev.dropCtx_xmap (d : Dev) (q tag : Nat) : (d.dropCtx q tag).xmap = d.xmap := rfl
@[simp] theorem Dev.dropCtx_destages (d : Dev) (q tag : Nat) : (d.dropCtx q tag).destages = d.destages := rfl
@[simp] theorem Dev.dropCtx_reads (d : Dev) (q tag : Nat) : (d.dropCtx q tag).reads = d.reads := rfl
@[simp] theorem Dev.dropCtx_pools (d : Dev) (q tag : Nat) : (d.dropCtx q tag).pools = d.pools := rfl
@[simp] theorem Dev.dropCtx_maint (d : Dev) (q tag : Nat) : (d.dropCtx q tag).maint = d.maint := rfl
@[simp] theorem Dev.dropCtx_nss (d : Dev) (q tag : Nat) : (d.dropCtx q tag).nss = d.nss := rfl
@[simp] theorem Dev.dropCtx_streams (d : Dev) (q tag : Nat) : (d.dropCtx q tag).streams = d.streams := rfl
@[simp] theorem Dev.dropCtx_twin (d : Dev) (q tag : Nat) : (d.dropCtx q tag).twin = d.twin := rfl
@[simp] theorem Dev.dropCtx_drives (d : Dev) (q tag : Nat) : (d.dropCtx q tag).drives = d.drives := rfl
@[simp] theorem Dev.dropCtx_floe (d : Dev) (q tag : Nat) : (d.dropCtx q tag).floe = d.floe := rfl
@[simp] theorem Dev.dropCtx_gauge (d : Dev) (q tag : Nat) : (d.dropCtx q tag).gauge = d.gauge := rfl
@[simp] theorem Dev.dropCtx_staging (d : Dev) (q tag : Nat) : (d.dropCtx q tag).staging = d.staging := rfl
@[simp] theorem Dev.dropCtx_ledger (d : Dev) (q tag : Nat) : (d.dropCtx q tag).ledger = d.ledger := rfl
@[simp] theorem Dev.dropCtx_power (d : Dev) (q tag : Nat) : (d.dropCtx q tag).power = d.power := rfl
@[simp] theorem Dev.dropCtx_thermal (d : Dev) (q tag : Nat) : (d.dropCtx q tag).thermal = d.thermal := rfl
@[simp] theorem Dev.dropCtx_image (d : Dev) (q tag : Nat) : (d.dropCtx q tag).image = d.image := rfl
@[simp] theorem Dev.dropCtx_straps (d : Dev) (q tag : Nat) : (d.dropCtx q tag).straps = d.straps := rfl
@[simp] theorem Dev.dropCtx_serial (d : Dev) (q tag : Nat) : (d.dropCtx q tag).serial = d.serial := rfl
@[simp] theorem Dev.dropCtx_mbx (d : Dev) (q tag : Nat) : (d.dropCtx q tag).mbx = d.mbx := rfl
@[simp] theorem Dev.dropCtx_schLock (d : Dev) (q tag : Nat) : (d.dropCtx q tag).schLock = d.schLock := rfl
@[simp] theorem Dev.dropCtx_moraine (d : Dev) (q tag : Nat) : (d.dropCtx q tag).moraine = d.moraine := rfl
@[simp] theorem Dev.dropCtx_mapLog (d : Dev) (q tag : Nat) : (d.dropCtx q tag).mapLog = d.mapLog := rfl

/-! ### What an update writes -/

@[simp] theorem Dev.emit_out (d : Dev) (o : Out) : (d.emit o).out = d.out ++ [o] := rfl
@[simp] theorem Dev.emits_out (d : Dev) (os : List Out) : (d.emits os).out = d.out ++ os := rfl
@[simp] theorem Dev.modTwin_twin (d : Dev) (f : Twin → Twin) : (d.modTwin f).twin = f d.twin := rfl
@[simp] theorem Dev.modGauge_gauge (d : Dev) (f : Gauge → Gauge) : (d.modGauge f).gauge = f d.gauge := rfl
@[simp] theorem Dev.modRings_rings (d : Dev) (f : Rings → Rings) : (d.modRings f).rings = f d.rings := rfl
@[simp] theorem Dev.modFirn_firn (d : Dev) (f : Firn → Firn) : (d.modFirn f).firn = f d.firn := rfl
@[simp] theorem Dev.modMap_xmap (d : Dev) (f : XMap → XMap) : (d.modMap f).xmap = f d.xmap := rfl
@[simp] theorem Dev.modDrv_drives (d : Dev) (f : Drives → Drives) : (d.modDrv f).drives = f d.drives := rfl
@[simp] theorem Dev.modRime_rime (d : Dev) (f : Rime → Rime) : (d.modRime f).rime = f d.rime := rfl
@[simp] theorem Dev.modIng_ingest (d : Dev) (f : Ingest → Ingest) : (d.modIng f).ingest = f d.ingest := rfl

@[simp] theorem State.ok_eq (s : State) (d : Dev) : s.ok d = .next { s with dev := d } := rfl

end Sys2Proof.Machine
end

