-- ==== Sys2Proof/Laws/Tables.lean ====
section
/-! SUPPORT. The laws of finite tables, and of register fields, functions and endpoints, which are kept in such tables. -/

namespace Sys2Proof.Machine

/-! ### Tables -/

@[simp] theorem tget_tput_same {α : Type} (t : Tab α) (n : Nat) (v : α) : tget (tput t n v) n = some v := by
  induction t with
  | nil => simp [tput, tget]
  | cons e t ih =>
    obtain ⟨k, w⟩ := e
    by_cases h1 : n < k
    · simp [tput, h1, tget]
    · by_cases h2 : n = k
      · subst h2; simp [tput, tget]
      · simp [tput, h1, h2, tget, ih]

theorem tget_tput_ne {α : Type} (t : Tab α) {n m : Nat} (v : α) (h : m ≠ n) : tget (tput t n v) m = tget t m := by
  induction t with
  | nil => simp [tput, tget, h]
  | cons e t ih =>
    obtain ⟨k, w⟩ := e
    by_cases h1 : n < k
    · simp [tput, h1, tget, h]
    · by_cases h2 : n = k
      · subst h2; simp [tput, tget, h]
      · by_cases h3 : m = k
        · simp [tput, h1, h2, tget, h3]
        · simp [tput, h1, h2, tget, h3, ih]

@[simp] theorem tget_tdel_same {α : Type} (t : Tab α) (n : Nat) : tget (tdel t n) n = none := by
  induction t with
  | nil => rfl
  | cons e t ih =>
    obtain ⟨k, w⟩ := e
    unfold tdel at ih ⊢
    by_cases h : k = n
    · simp [h, ih]
    · simp [h, tget, Ne.symm h, ih]

theorem tget_tdel_ne {α : Type} (t : Tab α) {n m : Nat} (h : m ≠ n) : tget (tdel t n) m = tget t m := by
  induction t with
  | nil => rfl
  | cons e t ih =>
    obtain ⟨k, w⟩ := e
    unfold tdel at ih ⊢
    by_cases hk : k = n
    · subst hk; simp [tget, h, ih]
    · simp [hk, tget, ih]

@[simp] theorem tget_tmod_same {α : Type} (t : Tab α) (n : Nat) (f : α → α) : tget (tmod t n f) n = (tget t n).map f := by
  induction t with
  | nil => rfl
  | cons e t ih =>
    obtain ⟨k, w⟩ := e
    unfold tmod at ih ⊢
    by_cases h : k = n
    · simp [h, tget]
    · simp [h, tget, Ne.symm h, ih]

theorem tget_tmod_ne {α : Type} (t : Tab α) {n m : Nat} (f : α → α) (h : m ≠ n) : tget (tmod t n f) m = tget t m := by
  induction t with
  | nil => rfl
  | cons e t ih =>
    obtain ⟨k, w⟩ := e
    unfold tmod at ih ⊢
    by_cases hk : k = n
    · subst hk; simp [tget, h, ih]
    · by_cases hm : m = k
      · simp [hk, tget, hm]
      · simp [hk, tget, hm, ih]

/-! ### Register fields -/

/-- A field reads as it was written, cut to its width. -/
@[simp] theorem Dev.rd_wr (d : Dev) (f : Field) (v : Nat) : (d.wr f v).rd f = v % 2 ^ f.width := by
  unfold Dev.rd Dev.wr
  split <;> simp [*]

/-- A field of another key keeps its value. -/
theorem Dev.rd_wr_ne (d : Dev) {f g : Field} (v : Nat) (h : g.key ≠ f.key) : (d.wr f v).rd g = d.rd g := by
  unfold Dev.rd Dev.wr
  split <;> simp [tget_tdel_ne, tget_tput_ne, h]

/-- What an operation that leaves the register table alone does to a field's value: nothing. -/
theorem Dev.rd_congr {d e : Dev} (h : d.regs = e.regs) (f : Field) : d.rd f = e.rd f := by simp [Dev.rd, h]

@[simp] theorem Dev.rd_emit (d : Dev) (o : Out) (f : Field) : (d.emit o).rd f = d.rd f := rfl
@[simp] theorem Dev.rd_emits (d : Dev) (o : List Out) (f : Field) : (d.emits o).rd f = d.rd f := rfl
@[simp] theorem Dev.rd_modFn (d : Dev) (n : Nat) (g : Fn → Fn) (f : Field) : (d.modFn n g).rd f = d.rd f := rfl
@[simp] theorem Dev.rd_modEp (d : Dev) (n : Nat) (g : Endpoint → Endpoint) (f : Field) : (d.modEp n g).rd f = d.rd f := rfl
@[simp] theorem Dev.rd_modLed (d : Dev) (h : Half) (g : Ledger → Ledger) (f : Field) : (d.modLed h g).rd f = d.rd f := rfl
@[simp] theorem Dev.rd_modPw (d : Dev) (h : Half) (g : HalfPower → HalfPower) (f : Field) : (d.modPw h g).rd f = d.rd f := rfl
@[simp] theorem Dev.rd_modSch (d : Dev) (h : Half) (g : Link → Link) (f : Field) : (d.modSch h g).rd f = d.rd f := rfl
@[simp] theorem Dev.rd_modTwin (d : Dev) (g : Twin → Twin) (f : Field) : (d.modTwin g).rd f = d.rd f := rfl
@[simp] theorem Dev.rd_modGauge (d : Dev) (g : Gauge → Gauge) (f : Field) : (d.modGauge g).rd f = d.rd f := rfl
@[simp] theorem Dev.rd_modRings (d : Dev) (g : Rings → Rings) (f : Field) : (d.modRings g).rd f = d.rd f := rfl
@[simp] theorem Dev.rd_modFirn (d : Dev) (g : Firn → Firn) (f : Field) : (d.modFirn g).rd f = d.rd f := rfl
@[simp] theorem Dev.rd_modMap (d : Dev) (g : XMap → XMap) (f : Field) : (d.modMap g).rd f = d.rd f := rfl
@[simp] theorem Dev.rd_modDrv (d : Dev) (g : Drives → Drives) (f : Field) : (d.modDrv g).rd f = d.rd f := rfl
@[simp] theorem Dev.rd_modRime (d : Dev) (g : Rime → Rime) (f : Field) : (d.modRime g).rd f = d.rd f := rfl
@[simp] theorem Dev.rd_modIng (d : Dev) (g : Ingest → Ingest) (f : Field) : (d.modIng g).rd f = d.rd f := rfl
@[simp] theorem Dev.rd_modPool (d : Dev) (n : Nat) (g : Pool → Pool) (f : Field) : (d.modPool n g).rd f = d.rd f := rfl
@[simp] theorem Dev.rd_modNs (d : Dev) (n : Nat) (g : Ns → Ns) (f : Field) : (d.modNs n g).rd f = d.rd f := rfl
@[simp] theorem Dev.rd_modStream (d : Dev) (n : Nat) (g : Stream → Stream) (f : Field) : (d.modStream n g).rd f = d.rd f := rfl
@[simp] theorem Dev.rd_modQ (d : Dev) (q : Nat) (g : Queue → Queue) (f : Field) : (d.modQ q g).rd f = d.rd f := rfl
@[simp] theorem Dev.rd_modCmd (d : Dev) (q tag : Nat) (g : Cmd → Cmd) (f : Field) : (d.modCmd q tag g).rd f = d.rd f := rfl
@[simp] theorem Dev.rd_modCtx (d : Dev) (q tag : Nat) (g : MCtx → MCtx) (f : Field) : (d.modCtx q tag g).rd f = d.rd f := rfl
@[simp] theorem Dev.rd_dropCtx (d : Dev) (q tag : Nat) (f : Field) : (d.dropCtx q tag).rd f = d.rd f := rfl

/-! ### Functions, endpoints and halves -/

@[simp] theorem Dev.fn_modFn (d : Dev) (n : Nat) (f : Fn → Fn) : (d.modFn n f).fn n = f (d.fn n) := by
  simp [Dev.fn, Dev.modFn]

theorem Dev.fn_modFn_ne (d : Dev) {n m : Nat} (f : Fn → Fn) (h : m ≠ n) : (d.modFn n f).fn m = d.fn m := by
  simp [Dev.fn, Dev.modFn, tget_tput_ne, h]

@[simp] theorem Dev.ep_modEp (d : Dev) (n : Nat) (f : Endpoint → Endpoint) : (d.modEp n f).ep n = f (d.ep n) := by
  simp [Dev.ep, Dev.modEp]

theorem Dev.ep_modEp_ne (d : Dev) {n m : Nat} (f : Endpoint → Endpoint) (h : m ≠ n) : (d.modEp n f).ep m = d.ep m := by
  simp [Dev.ep, Dev.modEp, tget_tput_ne, h]

@[simp] theorem Dev.led_modLed (d : Dev) (h : Half) (f : Ledger → Ledger) : (d.modLed h f).led h = f (d.led h) := by
  simp [Dev.led, Dev.modLed]

@[simp] theorem Dev.pw_modPw (d : Dev) (h : Half) (f : HalfPower → HalfPower) : (d.modPw h f).pw h = f (d.pw h) := by
  simp [Dev.pw, Dev.modPw]

@[simp] theorem Dev.schEnd_modSch (d : Dev) (h : Half) (f : Link → Link) : (d.modSch h f).schEnd h = f (d.schEnd h) := by
  simp [Dev.schEnd, Dev.modSch]

theorem halfNum_other (h : Half) : halfNum (otherHalf h) ≠ halfNum h := by cases h <;> decide

theorem Dev.pw_modPw_other (d : Dev) (h : Half) (f : HalfPower → HalfPower) : (d.modPw h f).pw (otherHalf h) = d.pw (otherHalf h) := by
  simp [Dev.pw, Dev.modPw, tget_tput_ne, halfNum_other]

@[simp] theorem Dev.queue_modQ (d : Dev) (q : Nat) (f : Queue → Queue) : (d.modQ q f).queue q = (d.queue q).map f := by
  simp [Dev.queue, Dev.modQ]

theorem Dev.queue_modQ_ne (d : Dev) {q p : Nat} (f : Queue → Queue) (h : p ≠ q) : (d.modQ q f).queue p = d.queue p := by
  simp [Dev.queue, Dev.modQ, tget_tmod_ne, h]

end Sys2Proof.Machine
end

