-- ==== Sys2Proof/WellFormed.lean ====
section
/-! DEFINITION. Which commands are well formed: every operand within the range the specification gives it. The sender of a
command answers for these ranges; `exec` has a meaning for a command outside them too. -/

namespace Sys2Proof

/-- A queue pair: 0 to 1,048,575 (R53). -/
abbrev qOk (q : Nat) : Prop := q < 2 ^ 20

/-- A tag is 16 bits wide. -/
abbrev tagOk (tag : Nat) : Prop := tag < 2 ^ 16

/-- A function number (R54). -/
abbrev fnOk (fn : Nat) : Prop := fn < 1024

/-- An endpoint (R54). -/
abbrev epOk (ep : Nat) : Prop := ep < 4

/-- A Floe channel of a half. -/
abbrev chOk (ch : Nat) : Prop := ch < 128

/-- A pool. -/
abbrev poolOk (pool : Nat) : Prop := pool < 8

/-- A member of a pool. -/
abbrev memberOk (member : Nat) : Prop := member < 512

/-- A Calving stream of the module. -/
abbrev streamOk (stream : Nat) : Prop := stream < 512

/-- A root port (R602). -/
abbrev portOk (port : Nat) : Prop := port < 8

/-- A Glacier slice. -/
abbrev sliceOk (slice : Nat) : Prop := slice < 16

/-- A key slot of the host half. -/
abbrev keySlotOk (slot : Nat) : Prop := slot < 4096

/-- An entry of the drive table (R605). -/
abbrev driveOk (index : Nat) : Prop := index < 1024

/-- The sizes of a register access in bytes. -/
abbrev sizeOk (size : Nat) : Prop := size = 1 ∨ size = 2 ∨ size = 4 ∨ size = 8

/-- A memory write of any size that one request carries: up to the largest payload (R66, R555, R567). -/
abbrev writeSizeOk (size : Nat) : Prop := 1 ≤ size ∧ size ≤ 512

/-- A lane of a link: 0 to 19 on the Schrund, 0 to 15 on the Snowbridge. -/
def laneOk : LinkEnd → Nat → Bool
  | .sch _, lane => decide (lane < 20)
  | .snow, lane => decide (lane < 16)

/-- A path whose endpoint or function exists. -/
def Path.ok : Path → Bool
  | .pf e => decide (epOk e)
  | .vf fn => decide (fnOk fn ∧ fn % 256 ≠ 0)
  | .i3c _ => true
  | .feature fn => decide (fnOk fn)
  | .config fn => decide (fnOk fn)
  | .firmware _ => true

/-- An arbiter that exists (R43). -/
def ArbId.ok : ArbId → Bool
  | .ringFetch => true
  | .sliceDispatch => true
  | .epRead e => decide (epOk e)
  | .epWrite e => decide (epOk e)
  | .schTx _ => true
  | .snowbridge => true
  | .moraine => true
  | .drive port => decide (portOk port)
  | .hbm .host stack => decide (stack < 2)
  | .hbm .media stack => decide (stack < 4)

/-- A run of a slice that exists. -/
def SliceRun.ok (run : SliceRun) : Bool := decide (sliceOk run.slice)

/-- A read by slices that exist. -/
def ReadRun.ok (run : ReadRun) : Bool := decide (sliceOk run.slice ∧ sliceOk run.slice2)

/-- A message whose header fields fit their widths. -/
def Msg.ok (msg : Msg) : Bool := decide (msg.q < 2 ^ 32 ∧ msg.tag < 2 ^ 16 ∧ msg.nsid < 2 ^ 32)

/-- Start-up facts whose strap values fit SIDE_SEL and POOL_SLOT and whose lanes exist. -/
def StartFacts.ok (facts : StartFacts) : Bool :=
  decide (facts.side.1 < 2 ∧ facts.side.2 < 2 ∧ facts.slot.1 < 16 ∧ facts.slot.2 < 16) && facts.h2m.all (laneOk (.sch .host)) && facts.m2h.all (laneOk (.sch .media))

/-- Whether every operand of a command lies within its range. -/
def Instr.wf : Instr → Bool
  | .registerWrite path _ size value => decide (path.ok ∧ writeSizeOk size ∧ value < 2 ^ (8 * size))
  | .doorbellWrite fn _ size value => decide (fnOk fn ∧ writeSizeOk size ∧ value < 2 ^ (8 * size))
  | .ringFetchGrant _ => true
  | .packetFetched _ _ _ run => decide (run.ok)
  | .arbiterGrant arb waiting => decide (arb.ok ∧ waiting.list.all (fun (w : Nat × Nat) => decide (w.1 < 4 ∧ w.2 ≤ 1024)))
  | .coalescingTimeout q => decide (qOk q)
  | .nop q tag => decide (qOk q ∧ tagOk tag)
  | .write q tag run => decide (qOk q ∧ tagOk tag ∧ run.ok)
  | .read q tag => decide (qOk q ∧ tagOk tag)
  | .writeZeroes q tag => decide (qOk q ∧ tagOk tag)
  | .deallocate q tag => decide (qOk q ∧ tagOk tag)
  | .compare q tag _ => decide (qOk q ∧ tagOk tag)
  | .compareAndWrite q tag run => decide (qOk q ∧ tagOk tag ∧ run.ok)
  | .verify q tag => decide (qOk q ∧ tagOk tag)
  | .copy q tag => decide (qOk q ∧ tagOk tag)
  | .groupOpen q tag => decide (qOk q ∧ tagOk tag)
  | .groupSeal q tag => decide (qOk q ∧ tagOk tag)
  | .groupDiscard q tag => decide (qOk q ∧ tagOk tag)
  | .groupQuery q tag => decide (qOk q ∧ tagOk tag)
  | .snapCreate q tag => decide (qOk q ∧ tagOk tag)
  | .snapDelete q tag => decide (qOk q ∧ tagOk tag)
  | .cloneCreate q tag => decide (qOk q ∧ tagOk tag)
  | .calveOpen q tag => decide (qOk q ∧ tagOk tag)
  | .calveClose q tag => decide (qOk q ∧ tagOk tag)
  | .calveApply q tag run => decide (qOk q ∧ tagOk tag ∧ run.ok)
  | .calveSave q tag => decide (qOk q ∧ tagOk tag)
  | .calveRestore q tag _ slice _ => decide (qOk q ∧ tagOk tag ∧ sliceOk slice)
  | .identify q tag => decide (qOk q ∧ tagOk tag)
  | .logRead q tag => decide (qOk q ∧ tagOk tag)
  | .featureGet q tag => decide (qOk q ∧ tagOk tag)
  | .classWeights q tag => decide (qOk q ∧ tagOk tag)
  | .tenantWeight q tag => decide (qOk q ∧ tagOk tag)
  | .classAEvents q tag => decide (qOk q ∧ tagOk tag)
  | .poolGeometry q tag => decide (qOk q ∧ tagOk tag)
  | .witnessSet q tag _ => decide (qOk q ∧ tagOk tag)
  | .enumWindow q tag => decide (qOk q ∧ tagOk tag)
  | .mediaReg q tag => decide (qOk q ∧ tagOk tag)
  | .fwDownload q tag _ => decide (qOk q ∧ tagOk tag)
  | .fwCommit q tag => decide (qOk q ∧ tagOk tag)
  | .queueCreate q tag => decide (qOk q ∧ tagOk tag)
  | .queueDelete q tag => decide (qOk q ∧ tagOk tag)
  | .queueReset q tag => decide (qOk q ∧ tagOk tag)
  | .queueResetDone q => decide (qOk q)
  | .keyLoad q tag _ slice _ => decide (qOk q ∧ tagOk tag ∧ sliceOk slice)
  | .keyErase q tag => decide (qOk q ∧ tagOk tag)
  | .keyEraseDrained slot => decide (keySlotOk slot)
  | .nsCreate q tag => decide (qOk q ∧ tagOk tag)
  | .nsDelete q tag => decide (qOk q ∧ tagOk tag)
  | .nsAttach q tag => decide (qOk q ∧ tagOk tag)
  | .nsDetach q tag => decide (qOk q ∧ tagOk tag)
  | .nsSetPack q tag run => decide (qOk q ∧ tagOk tag ∧ run.ok)
  | .nsResize q tag => decide (qOk q ∧ tagOk tag)
  | .nsSetFlags q tag => decide (qOk q ∧ tagOk tag)
  | .eventRingSet q tag => decide (qOk q ∧ tagOk tag)
  | .qpoolAssign q tag => decide (qOk q ∧ tagOk tag)
  | .maintRequest q tag => decide (qOk q ∧ tagOk tag)
  | .maintRelease q tag _ => decide (qOk q ∧ tagOk tag)
  | .divergenceResolve q tag => decide (qOk q ∧ tagOk tag)
  | .releaseMember q tag => decide (qOk q ∧ tagOk tag)
  | .returnMember q tag _ _ => decide (qOk q ∧ tagOk tag)
  | .bind q tag _ => decide (qOk q ∧ tagOk tag)
  | .fwStage q tag _ => decide (qOk q ∧ tagOk tag)
  | .fwActivate q tag => decide (qOk q ∧ tagOk tag)
  | .fwActivateReady pool member _ _ => decide (poolOk pool ∧ memberOk member)
  | .roleSwap q tag => decide (qOk q ∧ tagOk tag)
  | .deviceZeroize q tag => decide (qOk q ∧ tagOk tag)
  | .diagSelftest q tag _ => decide (qOk q ∧ tagOk tag)
  | .diagInject q tag => decide (qOk q ∧ tagOk tag)
  | .streamBlockTimeout q run => decide (qOk q ∧ run.ok)
  | .serialLeaseGrant slice run => decide (sliceOk slice ∧ run.ok)
  | .invalidate path => decide (path.ok)
  | .invalidateDone => true
  | .quarRelease path mask => decide (path.ok ∧ mask < 2 ^ 64)
  | .ingCfgWrite path value => decide (path.ok ∧ value < 2 ^ 64)
  | .ingIndexConfigWrite path _ value => decide (path.ok ∧ value < 2 ^ 64)
  | .lendTableCopied _ => true
  | .gcmResume slice => decide (sliceOk slice)
  | .nonceLeaseGrant slot => decide (keySlotOk slot)
  | .noiseHealthFail => true
  | .entropyRestored => true
  | .drbgReseed => true
  | .rimZeroize path value => decide (path.ok ∧ value < 2 ^ 64)
  | .frameReceived link lane _ => decide (laneOk link lane)
  | .nak link lane _ => decide (laneOk link lane)
  | .laneDown link lane => decide (laneOk link lane)
  | .laneUp link _ lane => decide (laneOk link lane)
  | .width _ _ _ => true
  | .peerFatal _ _ => true
  | .laneLost half lane => decide (laneOk (.sch half) lane)
  | .schrundSilenceTimeout _ => true
  | .schLaneRetry path _ => decide (path.ok)
  | .laneRetrained half lane => decide (laneOk (.sch half) lane)
  | .forwardedClockLost _ => true
  | .forwardedClockReturn => true
  | .writePayload msg => decide (msg.ok)
  | .readPayload msg run => decide (msg.ok ∧ run.ok)
  | .writeEnvelope msg => decide (msg.ok)
  | .newChunk msg => decide (msg.ok)
  | .referenceChunk msg => decide (msg.ok)
  | .readDescriptor msg => decide (msg.ok)
  | .otherIo msg => decide (msg.ok)
  | .freezeGroupOperation msg => decide (msg.ok)
  | .varveOperation msg => decide (msg.ok)
  | .completionMessage msg _ => decide (msg.ok)
  | .referenceRefused msg run => decide (msg.ok ∧ run.ok)
  | .managementRequest _ _ req => decide (req.ok)
  | .managementReply _ _ _ _ => true
  | .timeMark _ _ => true
  | .faultNotice _ _ _ _ _ => true
  | .recordAdmitted => true
  | .localCopyWritten pool _ => decide (poolOk pool)
  | .writeCommit pool _ => decide (poolOk pool)
  | .recordApply pool => decide (poolOk pool)
  | .destageStart pool _ => decide (poolOk pool)
  | .stripeCloseTimeout pool _ => decide (poolOk pool)
  | .intentMet pool _ => decide (poolOk pool)
  | .releaseMet pool _ => decide (poolOk pool)
  | .groupSealProceed fn tag => decide (fnOk fn ∧ tagOk tag)
  | .groupCommit fn tag => decide (fnOk fn ∧ tagOk tag)
  | .groupTimeout fn tag => decide (fnOk fn ∧ tagOk tag)
  | .tombstoneExpiry fn tag => decide (fnOk fn ∧ tagOk tag)
  | .abortRecordOnMedium fn tag => decide (fnOk fn ∧ tagOk tag)
  | .frnDump path value => decide (path.ok ∧ value < 2 ^ 64)
  | .dumpEnd => true
  | .restoreEnd => true
  | .frnCfgWrite path value => decide (path.ok ∧ value < 2 ^ 64)
  | .moraineJobComplete pool _ _ _ => decide (poolOk pool)
  | .engRelease path mask => decide (path.ok ∧ mask < 2 ^ 64)
  | .driveAbsenceTimeout pool member => decide (poolOk pool ∧ memberOk member)
  | .rebuildJobStart pool => decide (poolOk pool)
  | .rebuildMarkTimer pool => decide (poolOk pool)
  | .poolPlacementRetry pool => decide (poolOk pool)
  | .scrubStripe pool => decide (poolOk pool)
  | .scrubLate pool => decide (poolOk pool)
  | .activityLimitExpiry activity _ => decide (activity < 64)
  | .memberHeld pool member => decide (poolOk pool ∧ memberOk member)
  | .evacuationRowCopy pool member => decide (poolOk pool ∧ memberOk member)
  | .prune pool => decide (poolOk pool)
  | .compaction pool _ => decide (poolOk pool)
  | .calveMessageWrite stream run => decide (streamOk stream ∧ run.ok)
  | .record msg => decide (msg.ok)
  | .ack msg => decide (msg.ok)
  | .refuse msg => decide (msg.ok)
  | .echo msg => decide (msg.ok)
  | .reportFaultNotice _ _ => true
  | .reportPathLoss pool member => decide (poolOk pool ∧ memberOk member)
  | .reportDivergentStripe pool _ _ _ _ => decide (poolOk pool)
  | .reportLocatedStrip pool _ => decide (poolOk pool)
  | .coord msg => decide (msg.ok)
  | .pair msg => decide (msg.ok)
  | .recon msg => decide (msg.ok)
  | .swap _ _ => true
  | .sidebandWord cable word => decide (cable < 2 ∧ word < 2 ^ 64)
  | .echoSend => true
  | .sidebandSend => true
  | .sidebandSilent cable => decide (cable < 2)
  | .echoTimeout => true
  | .recordAckTimeout pool _ => decide (poolOk pool)
  | .linkLossTimeout => true
  | .selfCheckEnd _ => true
  | .witnessRetry => true
  | .splitTimeout => true
  | .witnessTakeoverWrite => true
  | .reservationPreempt _ => true
  | .resyncEnd => true
  | .pairingStart => true
  | .reconcileStepEnd => true
  | .snowbridgeLaneLost lane _ => decide (laneOk .snow lane)
  | .laneAutoRetrain lane => decide (laneOk .snow lane)
  | .linkGcmWrite path value => decide (path.ok ∧ value < 2 ^ 64)
  | .twnLaneRetry path => decide (path.ok)
  | .rejoin path => decide (path.ok)
  | .tbOffsetUpdate => true
  | .swapDrainEnd => true
  | .activationResume => true
  | .activationFallback => true
  | .endpointLinkUp ep _ _ _ => decide (epOk ep)
  | .endpointReset ep _ => decide (epOk ep)
  | .busMasterEnableClear fn => decide (fnOk fn)
  | .busMasterEnableSet fn => decide (fnOk fn)
  | .vfEnableSet ep => decide (epOk ep)
  | .vfEnableClear ep => decide (epOk ep)
  | .functionLevelReset fn => decide (fnOk fn)
  | .flrComplete fn => decide (fnOk fn)
  | .d3hotEntry fn => decide (fnOk fn)
  | .d0Return fn => decide (fnOk fn)
  | .msixEntryWrite fn _ size value => decide (fnOk fn ∧ writeSizeOk size ∧ value < 2 ^ (8 * size))
  | .vectorUnmask fn vector => decide (fnOk fn ∧ vector < 2048)
  | .completionTimeout fn _ => decide (fnOk fn)
  | .requestError fn _ _ => decide (fnOk fn)
  | .poisonedWrite fn => decide (fnOk fn)
  | .ideCheckFailed ep stream => decide (epOk ep ∧ streamOk stream)
  | .l1Request ep sub => decide (epOk ep ∧ sub < 8)
  | .l0pNarrow ep _ => decide (epOk ep)
  | .l0pWiden ep _ => decide (epOk ep)
  | .driveInserted port place _ _ => decide (portOk port ∧ place.sub < 8) && place.path.all fun p => decide (p < 256)
  | .driveReady index _ => decide (driveOk index)
  | .driveReadyTimeout index => decide (driveOk index)
  | .driveRemoved index => decide (driveOk index)
  | .nvmeCompletion _ sct sc _ => decide (sct < 8 ∧ sc < 256)
  | .nvmeCommandTimeout _ => true
  | .abortTimeout _ => true
  | .readHedgeTimeout _ => true
  | .namespaceNotReadyRetry _ => true
  | .enumWindowExpiry pool => decide (poolOk pool)
  | .drvPortCfgWrite path value => decide (path.ok ∧ value < 2 ^ 64)
  | .kick path ch => decide (path.ok ∧ chOk ch)
  | .pause path ch => decide (path.ok ∧ chOk ch)
  | .resume path ch => decide (path.ok ∧ chOk ch)
  | .abort path ch => decide (path.ok ∧ chOk ch)
  | .channelPaused _ ch => decide (chOk ch)
  | .abortDrained _ ch => decide (chOk ch)
  | .descriptorRead _ ch _ => decide (chOk ch)
  | .move _ ch _ => decide (chOk ch)
  | .loop _ ch _ => decide (chOk ch)
  | .wait _ ch _ => decide (chOk ch)
  | .signal _ ch _ => decide (chOk ch)
  | .endInstr _ ch _ => decide (chOk ch)
  | .floeBurstGrant _ => true
  | .writeResponse _ ch => decide (chOk ch)
  | .busError _ ch => decide (chOk ch)
  | .waitTimeout _ ch => decide (chOk ch)
  | .floSwreq path value => decide (path.ok ∧ value < 2 ^ 64)
  | .floEventSet path value => decide (path.ok ∧ value < 2 ^ 64)
  | .floEventClr path value => decide (path.ok ∧ value < 2 ^ 64)
  | .floChConfigWrite path _ size value => decide (path.ok ∧ sizeOk size ∧ value < 2 ^ (8 * size))
  | .converterWindow _ _ => true
  | .offsetZeroing _ => true
  | .temperatureSample _ => true
  | .gapRecovery _ => true
  | .restPoint _ => true
  | .learnRestTimeout => true
  | .energyRecompute => true
  | .chargeTerminate => true
  | .holdupFault _ => true
  | .holdupFaultClear _ => true
  | .packAbsent => true
  | .eepromPeriodicRecord _ => true
  | .learnStart path => decide (path.ok)
  | .learnStop path => decide (path.ok)
  | .hldDisconnect path => decide (path.ok)
  | .hldConnect path => decide (path.ok)
  | .hldPackChange path => decide (path.ok)
  | .powerOn _ => true
  | .pwrgdHDeassert => true
  | .pwrgdMDeassert => true
  | .coldRstPin _ => true
  | .startup facts => decide (facts.ok)
  | .schrundTrainingRetry facts => decide (facts.ok)
  | .crpCold path _ => decide (path.ok)
  | .crpWarm path _ => decide (path.ok)
  | .thermalSample _ _ _ => true
  | .thermalTrip _ => true
  | .referenceLost => true
  | .stormIntervalEnd _ => true
  | .faultEventDeferred _ _ => true
  | .watchdogExpiry _ => true
  | .wdogKick path _ => decide (path.ok)
  | .newEpoch path _ => decide (path.ok)
  | .fltLastGasp path _ => decide (path.ok)
  | .rngEvHeadWrite fn value => decide (fnOk fn ∧ value < 2 ^ 64)
  | .rngAqCfgWrite fn value => decide (fnOk fn ∧ value < 2 ^ 64)
  | .adminQueueReady fn => decide (fnOk fn)
  | .mbxStatus ep key => decide (epOk ep ∧ key < 2 ^ 32)
  | .mbxMediaStatus ep key => decide (epOk ep ∧ key < 2 ^ 32)
  | .mbxDump ep key => decide (epOk ep ∧ key < 2 ^ 32)
  | .mbxFence ep key => decide (epOk ep ∧ key < 2 ^ 32)
  | .mbxZeroize ep key => decide (epOk ep ∧ key < 2 ^ 32)
  | .mbxPackDisconnect ep key => decide (epOk ep ∧ key < 2 ^ 32)
  | .mbxLastGasp ep key => decide (epOk ep ∧ key < 2 ^ 32)
  | .statusRead _ => true
  | .regRead _ _ size => decide (sizeOk size)
  | .regWrite _ _ size value => decide (sizeOk size ∧ value < 2 ^ (8 * size))
  | .i3cMailbox _ op key arg => decide (op < 2 ^ 8 ∧ key < 2 ^ 32 ∧ arg < 2 ^ 32)
  | .ledgerRead _ _ => true
  | .flashAccess _ bank _ _ _ => decide (bank < 2)
  | .lifecycle _ _ _ _ => true
  | .devkey _ _ => true
  | .mctp _ msg => decide (msg.ok)
  | .spareAligned half lane => decide (laneOk (.sch half) lane)
  | .clockMarker => true
  | .alwaysOnRailLoss _ => true
  | .perstRelease ep => decide (epOk ep)
  | .snowbridgeLaneTrained lane => decide (laneOk .snow lane)
  | .controllerFatalStatus index => decide (driveOk index)

end Sys2Proof
end

