-- ==== Sys2Proof/Safety.lean ====
section
/-! DEFINITION. The terms in which statements speak of a run: what a step sent, that a command of a queue may run and that it
was answered, and the invariants of the state. -/

namespace Sys2Proof.Machine

/-- What `d'` has sent beyond `d` includes `o`, and everything `d` had sent stands before it. -/
def Sent (d d' : Dev) (o : Out) : Prop := ∃ l, d'.out = d.out ++ l ∧ o ∈ l

/-- The command answers a next state, of which `P` holds. -/
def Does (c : Instr) (s : State) (P : State → Prop) : Prop := ∃ t, exec c s = .next t ∧ P t

/-- The state with another device, everything outside the device as it was. -/
def State.withDev (s : State) (d : Dev) : State := { s with dev := d }

/-- A completion of a queue is written at once: its function may write, none of its results is held, the completion ring
has room (R80, R116, R580), and no IDE stream in its way is Insecure (R591). -/
abbrev Room (d : Dev) (qu : Queue) : Prop :=
  d.holding qu.fn = false ∧ (d.fn qu.fn).hold = [] ∧ qu.held = [] ∧ qu.cqFull = false ∧ d.ideClear qu.fn = true

/-- A fetched command with one of the opcodes `ops` stands on its queue, is neither crossed nor reset away, no FENCE holds it
(R108), the host half runs, its completion has room, and the queue has a number a message can carry. -/
abbrev Waits (ops : List Nat) (q tag : Nat) (d : Dev) (qu : Queue) (c : Cmd) : Prop :=
  d.queue q = some qu ∧ qu.cmd tag = some c ∧ ops.contains (pktOp c.pkt) = true ∧ c.stage = .ready ∧ c.silent = false ∧
    d.fenceHolds qu.fn c = false ∧ (d.pw .host).stopped = false ∧ Room d qu ∧ q < 2 ^ 20

/-- Nothing of R815 refuses the command, and no change of its namespaces is still to be applied. -/
abbrev Free (d : Dev) (c : Cmd) : Prop :=
  (nsNamed c.pkt).any d.nsAwaits = false ∧ ioRefusal (pktOp c.pkt) (nsNamed c.pkt) d = none

/-- The completion entry of a command (R79), as it is written into its queue's ring. -/
def cqeOut (q tag status result : Nat) (d : Dev) (qu : Queue) (c : Cmd) : Out :=
  .hostWrite qu.fn (qu.cqBase + 16 * qu.cqTail)
    (Cqe.bytes ⟨c.order, result, tag, status, none⟩ (d.sqHeadOf q qu) qu.phase) false

/-- The command left its queue and its completion entry was written with this status and RESULT. -/
def Answered (q tag status result : Nat) (qu : Queue) (c : Cmd) (d d' : Dev) : Prop :=
  Sent d d' (cqeOut q tag status result d qu c) ∧ (d'.queue q).bind (·.cmd tag) = none

/-- The command that the host half sent on to the media half waits there (R251). -/
def Crossed (q tag : Nat) (d' : Dev) : Prop := ∃ qu c, d'.queue q = some qu ∧ qu.cmd tag = some c ∧ c.stage = .crossed

/-- Fuses from which fuses may follow: the SVN floor and the lifecycle state do not fall, no revocation is undone, a key-hash position
that was programmed keeps its hash, and the serial number stays (R717, R718, R724). -/
structure Fuses.before (f g : Fuses) : Prop where
  svn : f.svn ≤ g.svn
  lifecycle : f.lifecycle ≤ g.lifecycle
  revoked : ∀ i, f.revoked.testBit i = true → g.revoked.testBit i = true
  hashes : ∀ i < 4, f.hashes.getD i [] ≠ [] → g.hashes.getD i [] = f.hashes.getD i []
  serial : g.serial = f.serial

/-- What the media half stores, and what it shares with its twin, is unchanged; streams apart. -/
structure MediaKept (d t : Dev) : Prop where
  firn : t.firn = d.firn
  ctxs : t.ctxs = d.ctxs
  xmap : t.xmap = d.xmap
  destages : t.destages = d.destages
  reads : t.reads = d.reads
  pools : t.pools = d.pools
  maint : t.maint = d.maint
  nss : t.nss = d.nss
  twin : t.twin = d.twin
  drives : t.drives = d.drives
  snow : t.snow = d.snow

/-- The queues, the streams, the chunk index, the key slots, the staged firmware image and the mailbox are unchanged. -/
structure HostKept (d t : Dev) : Prop where
  rings : t.rings = d.rings
  streams : t.streams = d.streams
  ingest : t.ingest = d.ingest
  rime : t.rime = d.rime
  staging : t.staging = d.staging
  mbx : t.mbx = d.mbx

/-- The timebases, the power states, the running image and the straps are unchanged. -/
structure PlatformKept (d t : Dev) : Prop where
  tbHost : t.tbHost = d.tbHost
  tbMedia : t.tbMedia = d.tbMedia
  power : t.power = d.power
  image : t.image = d.image
  straps : t.straps = d.straps
  serial : t.serial = d.serial

/-- A command that answers a next state leaves the flash, the fuses and the waiting commands as they were, and of the device what `P` says. -/
def Keeps (c : Instr) (s : State) (P : Dev → Dev → Prop) : Prop :=
  ∀ t, exec c s = .next t → t.flash = s.flash ∧ t.fuses = s.fuses ∧ t.pending = s.pending ∧ P s.dev t.dev

/-- What every step keeps: the boot flash is in its canonical form (R719), the lifecycle state is one of R718, four revocation bits exist,
and a key-hash position is empty or holds the 48 bytes of SHA-384 (R717). -/
structure State.Legal (s : State) : Prop where
  flash : Memory.wf s.flash = true
  lifecycle : 1 ≤ s.fuses.lifecycle ∧ s.fuses.lifecycle ≤ 3
  revoked : s.fuses.revoked < 16
  hashes : ∀ i < 4, s.fuses.hashes.getD i [] = [] ∨ (s.fuses.hashes.getD i []).length = 48

/-- The commands that write the boot flash or the fuses: a firmware commit, an activation's end, a coordination message that starts an
activation, and two messages of the management ports. -/
def writesFlash : Instr → Bool
  | .fwCommit _ _ => true
  | .activationResume => true
  | .activationFallback => true
  | .coord _ => true
  | .flashAccess _ _ _ _ data => data.isSome
  | .lifecycle _ _ _ _ => true
  | _ => false

/-- What the media half stores is unchanged: records, contexts, the extent map, destages, stripe reads, pools, activities, namespaces, what it
knows of its twin, and the drives. -/
structure StoresKept (d t : Dev) : Prop where
  firn : t.firn = d.firn
  ctxs : t.ctxs = d.ctxs
  xmap : t.xmap = d.xmap
  destages : t.destages = d.destages
  reads : t.reads = d.reads
  pools : t.pools = d.pools
  maint : t.maint = d.maint
  nss : t.nss = d.nss
  twin : t.twin = d.twin
  drives : t.drives = d.drives

/-- The commands that may change the timebases, the supplies and resets, the running image, the straps or the throttle: resets and start-up,
the end of a dump or of an activation, time marks, temperature samples, and the register writes that can order a reset. -/
def movesPlatform : Instr → Bool
  | .activationFallback .. | .activationResume .. | .alwaysOnRailLoss .. | .coldRstPin .. | .crpCold .. | .crpWarm .. | .dumpEnd .. |
    .mediaReg .. | .powerOn .. | .pwrgdHDeassert .. | .pwrgdMDeassert .. | .referenceLost .. | .regWrite .. | .registerWrite .. |
    .schrundTrainingRetry .. | .startup .. | .thermalSample .. | .thermalTrip .. | .timeMark .. | .watchdogExpiry .. => true
  | _ => false

/-- The commands that may change the gauge or a Floe channel: their own, the events of the functions that own channels, and resets. -/
def movesUnits : Instr → Bool
  | .abort .. | .abortDrained .. | .alwaysOnRailLoss .. | .busError .. | .busMasterEnableClear .. | .busMasterEnableSet .. |
    .chargeTerminate .. | .coldRstPin .. | .completionTimeout .. | .converterWindow .. | .crpCold .. | .crpWarm .. | .d0Return .. |
    .descriptorRead .. | .dumpEnd .. | .eepromPeriodicRecord .. | .endInstr .. | .endpointReset .. | .energyRecompute .. |
    .floEventClr .. | .floEventSet .. | .floSwreq .. | .floeBurstGrant .. | .frnDump .. | .functionLevelReset .. | .gapRecovery .. |
    .hldConnect .. | .hldDisconnect .. | .hldPackChange .. | .holdupFault .. | .holdupFaultClear .. | .i3cMailbox .. | .kick .. |
    .learnRestTimeout .. | .learnStart .. | .learnStop .. | .loop .. | .managementRequest .. | .mediaReg .. | .move .. |
    .offsetZeroing .. | .packAbsent .. | .powerOn .. | .pwrgdHDeassert .. | .pwrgdMDeassert .. | .regWrite .. | .registerWrite .. |
    .requestError .. | .restPoint .. | .resume .. | .schrundTrainingRetry .. | .signal .. | .startup .. | .temperatureSample .. |
    .thermalTrip .. | .vfEnableClear .. | .wait .. | .waitTimeout .. | .watchdogExpiry .. | .writeResponse .. => true
  | _ => false

/-- The commands that leave everything the media half stores as it was. -/
def keepsStores : Instr → Bool
  | .abort .. | .abortDrained .. | .adminQueueReady .. | .busError .. | .channelPaused .. | .chargeTerminate .. | .clockMarker .. |
    .coalescingTimeout .. | .converterWindow .. | .descriptorRead .. | .devkey .. | .doorbellWrite .. | .drbgReseed .. |
    .drvPortCfgWrite .. | .eepromPeriodicRecord .. | .endInstr .. | .endpointLinkUp .. | .engRelease .. | .entropyRestored .. |
    .faultEventDeferred .. | .flashAccess .. | .floChConfigWrite .. | .floEventClr .. | .floEventSet .. | .floSwreq .. |
    .floeBurstGrant .. | .fltLastGasp .. | .forwardedClockLost .. | .forwardedClockReturn .. | .gapRecovery .. | .gcmResume .. |
    .hldConnect .. | .hldPackChange .. | .holdupFault .. | .holdupFaultClear .. | .ideCheckFailed .. | .ingCfgWrite .. |
    .ingIndexConfigWrite .. | .invalidate .. | .invalidateDone .. | .kick .. | .l0pNarrow .. | .l0pWiden .. | .l1Request .. |
    .laneRetrained .. | .learnRestTimeout .. | .learnStart .. | .learnStop .. | .ledgerRead .. | .lendTableCopied .. | .loop .. |
    .mctp .. | .move .. | .msixEntryWrite .. | .newEpoch .. | .noiseHealthFail .. | .offsetZeroing .. | .packAbsent .. | .pause .. |
    .perstRelease .. | .poisonedWrite .. | .quarRelease .. | .referenceLost .. | .regRead .. | .restPoint .. | .resume .. |
    .ringFetchGrant .. | .rngEvHeadWrite .. | .schLaneRetry .. | .sidebandSend .. | .signal .. | .spareAligned .. | .statusRead .. |
    .stormIntervalEnd .. | .temperatureSample .. | .thermalSample .. | .timeMark .. | .vectorUnmask .. | .vfEnableSet .. | .wait .. |
    .waitTimeout .. | .wdogKick .. | .width .. | .writeResponse .. => true
  | _ => false

/-- The commands that leave the queues, the streams, the chunk index, the keys, the staged image and the mailbox as they were. -/
def keepsQueues : Instr → Bool
  | .abort .. | .abortDrained .. | .adminQueueReady .. | .busError .. | .channelPaused .. | .chargeTerminate .. | .clockMarker .. |
    .converterWindow .. | .descriptorRead .. | .driveInserted .. | .driveReadyTimeout .. | .drvPortCfgWrite .. |
    .eepromPeriodicRecord .. | .endInstr .. | .endpointLinkUp .. | .engRelease .. | .enumWindowExpiry .. | .faultEventDeferred .. |
    .flashAccess .. | .floChConfigWrite .. | .floEventClr .. | .floEventSet .. | .floSwreq .. | .floeBurstGrant .. | .fltLastGasp .. |
    .forwardedClockLost .. | .forwardedClockReturn .. | .frnCfgWrite .. | .gapRecovery .. | .hldConnect .. | .hldPackChange .. |
    .holdupFault .. | .holdupFaultClear .. | .ideCheckFailed .. | .ingIndexConfigWrite .. | .invalidateDone .. | .kick .. |
    .l0pNarrow .. | .l0pWiden .. | .l1Request .. | .laneAutoRetrain .. | .laneRetrained .. | .laneUp .. | .learnRestTimeout .. |
    .learnStart .. | .learnStop .. | .ledgerRead .. | .loop .. | .mctp .. | .move .. | .msixEntryWrite .. | .namespaceNotReadyRetry .. |
    .newEpoch .. | .noiseHealthFail .. | .offsetZeroing .. | .packAbsent .. | .pause .. | .perstRelease .. | .poisonedWrite .. |
    .quarRelease .. | .referenceLost .. | .regRead .. | .reservationPreempt .. | .restPoint .. | .resume .. | .rngEvHeadWrite .. |
    .schLaneRetry .. | .scrubLate .. | .sidebandSend .. | .sidebandSilent .. | .signal .. | .snowbridgeLaneTrained .. |
    .spareAligned .. | .statusRead .. | .stormIntervalEnd .. | .tbOffsetUpdate .. | .temperatureSample .. | .thermalSample .. |
    .timeMark .. | .tombstoneExpiry .. | .twnLaneRetry .. | .vectorUnmask .. | .wait .. | .waitTimeout .. | .wdogKick .. | .width .. |
    .witnessRetry .. | .witnessTakeoverWrite .. | .writeResponse .. => true
  | _ => false

end Sys2Proof.Machine
end

