-- ==== Sys2Proof/Laws/Complete.lean ====
section
/-! SUPPORT. The laws of the completion of a command: what it sends, what becomes of the command, and the fields it leaves alone. -/

namespace Sys2Proof.Machine

/-! ### What is sent only grows -/

/-- What was sent stays, and more may follow. -/
def Grows (d d' : Dev) : Prop := ∃ l, d'.out = d.out ++ l

theorem Grows.refl (d : Dev) : Grows d d := ⟨[], by simp⟩
theorem Grows.of_eq {d d' : Dev} (h : d'.out = d.out) : Grows d d' := ⟨[], by simp [h]⟩
theorem Grows.trans {a b c : Dev} (h1 : Grows a b) (h2 : Grows b c) : Grows a c := by
  obtain ⟨l, h1⟩ := h1; obtain ⟨m, h2⟩ := h2; exact ⟨l ++ m, by simp [h1, h2]⟩

theorem Sent.trans_grows {a b c : Dev} {o : Out} (h1 : Sent a b o) (h2 : Grows b c) : Sent a c o := by
  obtain ⟨l, h1, h⟩ := h1; obtain ⟨m, h2⟩ := h2; exact ⟨l ++ m, by simp [h1, h2], by simp [h]⟩

theorem Sent.of_grows {a b c : Dev} {o : Out} (h1 : Grows a b) (h2 : Sent b c o) : Sent a c o := by
  obtain ⟨l, h1⟩ := h1; obtain ⟨m, h2, h⟩ := h2; exact ⟨l ++ m, by simp [h1, h2], by simp [h]⟩

theorem Sent.emit (d : Dev) (o : Out) : Sent d (d.emit o) o := ⟨[o], rfl, by simp⟩

/-! ### Requests to a host (R591) -/

/-- A request leaves unless its stream is Insecure; a list of them leaves in order. -/
@[simp] theorem Dev.asks_emits (d : Dev) (os : List Out) : d.asks os = d.emits (os.filter d.leaves) := rfl
@[simp] theorem Dev.ask_emits (d : Dev) (o : Out) : d.ask o = d.emits ([o].filter d.leaves) := rfl

theorem Dev.asks_grows (d : Dev) (os : List Out) : Grows d (d.asks os) := ⟨_, rfl⟩
theorem Dev.ask_grows (d : Dev) (o : Out) : Grows d (d.ask o) := ⟨_, rfl⟩

/-- With no Insecure stream in use, nothing is kept back. -/
theorem Dev.ideBlocks_clear {d : Dev} {fn : Nat} (h : d.ideClear fn = true) (addr : Nat) : d.ideBlocks fn addr = false := by
  simp only [Dev.ideClear, List.all_eq_true] at h
  simp only [Dev.ideBlocks, List.any_eq_false]
  intro i hi
  have := h i hi
  simp only [Bool.not_eq_true'] at this
  simp [this]

theorem Sent.ask {d : Dev} {o : Out} (h : d.leaves o = true) : Sent d (d.ask o) o := ⟨[o], by simp [h], by simp⟩

theorem Sent.asks {d : Dev} {os : List Out} {o : Out} (ho : o ∈ os) (h : d.leaves o = true) : Sent d (d.asks os) o :=
  ⟨os.filter d.leaves, rfl, by simp [ho, h]⟩

theorem trigger_grows (fn v : Nat) (d : Dev) : Grows d (trigger fn v d) := by
  unfold trigger
  dsimp only
  split
  · split
    · exact .of_eq rfl
    · exact ⟨_, rfl⟩
  · split
    · split
      · exact .of_eq rfl
      · exact ⟨_, rfl⟩
    · exact .refl d

theorem signalQueue_grows (q : Nat) (d : Dev) : Grows d (signalQueue q d) := by
  unfold signalQueue
  split
  · exact .refl d
  · split
    · exact .refl d
    · exact Grows.trans (.of_eq rfl) (trigger_grows _ _ _)

theorem Dev.when_grows {d : Dev} {c : Bool} {f : Dev → Dev} (h : Grows d (f d)) : Grows d (d.when c f) := by
  unfold Dev.when
  split
  · exact h
  · exact .refl d

/-! ### The queues that an interrupt leaves alone -/

@[simp] theorem trigger_rings (fn v : Nat) (d : Dev) : (trigger fn v d).rings = d.rings := by
  unfold trigger
  dsimp only
  split
  · split <;> rfl
  · split
    · split <;> rfl
    · rfl

theorem signalQueue_cmds (q p : Nat) (d : Dev) :
    ((signalQueue q d).queue p).map (·.cmds) = (d.queue p).map (·.cmds) := by
  unfold signalQueue
  split
  · rfl
  · split
    · rfl
    · by_cases h : p = q
      · subst h; simp [Dev.queue, Dev.modQ, Function.comp_def]
      · simp [Dev.queue, Dev.modQ, tget_tmod_ne, h]

/-! ### A class A event (R114) -/

theorem pmeFor_grows (fn : Nat) (d : Dev) : Grows d (pmeFor fn d) := by
  unfold pmeFor; repeat' split
  all_goals first | exact .refl d | exact ⟨_, rfl⟩ | exact .of_eq rfl

theorem postEvent_grows (fn : Nat) (e : Event) (d : Dev) : Grows d (postEvent fn e d) := by
  unfold postEvent ringEvent writeEvent
  split
  · exact Grows.trans (.of_eq rfl) (pmeFor_grows _ _)
  · dsimp only
    repeat' split
    all_goals first
      | exact .refl d
      | exact .of_eq rfl
      | exact Grows.trans (Grows.trans (Dev.ask_grows _ _) (.of_eq rfl)) (trigger_grows _ _ _)

@[simp] theorem pmeFor_rings (fn : Nat) (d : Dev) : (pmeFor fn d).rings = d.rings := by
  unfold pmeFor; repeat' split
  all_goals rfl

@[simp] theorem postEvent_rings (fn : Nat) (e : Event) (d : Dev) : (postEvent fn e d).rings = d.rings := by
  unfold postEvent ringEvent writeEvent
  split
  · rw [pmeFor_rings]; rfl
  · dsimp only
    repeat' split
    all_goals first | rfl | (rw [trigger_rings]; rfl)

theorem classAExceeded_spec (fn q : Nat) (d : Dev) :
    Grows d (classAExceeded fn q d) ∧ (classAExceeded fn q d).rings.queues = d.rings.queues := by
  unfold classAExceeded queueEvent
  cases tget d.rings.exceeded fn <;> dsimp only <;> split
  · refine ⟨Grows.trans ?_ (postEvent_grows _ _ _), ?_⟩
    · exact .of_eq rfl
    · rw [postEvent_rings]; rfl
  · exact ⟨.refl d, rfl⟩
  · refine ⟨Grows.trans ?_ (postEvent_grows _ _ _), ?_⟩
    · exact .of_eq rfl
    · rw [postEvent_rings]; rfl
  · exact ⟨.refl d, rfl⟩

/-- An event that tells of broken class A conditions leaves the queues as they are and takes back nothing that was sent. -/
theorem classABroken_spec (q : Nat) (d : Dev) :
    Grows d (classABroken q d) ∧ (classABroken q d).rings.queues = d.rings.queues := by
  unfold classABroken
  split
  · exact ⟨.refl d, rfl⟩
  · split
    · exact classAExceeded_spec _ _ _
    · exact ⟨.refl d, rfl⟩

theorem when_classABroken (q : Nat) (c : Bool) (d : Dev) :
    Grows d (d.when c (classABroken q)) ∧ ∀ p, (d.when c (classABroken q)).queue p = d.queue p := by
  obtain ⟨h1, h2⟩ := classABroken_spec q d
  unfold Dev.when
  split
  · exact ⟨h1, fun p => by simp [Dev.queue, h2]⟩
  · exact ⟨.refl d, fun _ => rfl⟩

/-! ### The completion of a command -/

/-- The completion entry is written where there is room. -/
theorem writeCqe_sent {qi : Nat} {e : Cqe} {d : Dev} {q : Queue} (hf : e.frees = none) (h : d.queue qi = some q) (hi : d.ideClear q.fn = true) :
    Sent d (writeCqe qi e d) (.hostWrite q.fn (q.cqBase + 16 * q.cqTail) (e.bytes (d.sqHeadOf qi q) q.phase) false) := by
  unfold writeCqe
  rw [h, hf]
  dsimp only [Dev.endReset]
  exact Sent.trans_grows (Sent.ask (by simp [Dev.leaves, Dev.ideBlocks_clear hi]))
    (Grows.trans (.of_eq rfl) (Dev.when_grows (signalQueue_grows _ _)))

theorem writeCqe_cmds (qi p : Nat) {e : Cqe} (hf : e.frees = none) (d : Dev) :
    ((writeCqe qi e d).queue p).map (·.cmds) = (d.queue p).map (·.cmds) := by
  unfold writeCqe
  split
  · rfl
  · rw [hf]
    dsimp only [Dev.when, Dev.endReset]
    split
    · rw [signalQueue_cmds]
      by_cases h : p = qi
      · subst h; simp [Dev.queue, Dev.modQ, Dev.emits, Function.comp_def]
      · simp [Dev.queue, Dev.modQ, Dev.emits, tget_tmod_ne, h]
    · by_cases h : p = qi
      · subst h; simp [Dev.queue, Dev.modQ, Dev.emits, Function.comp_def]
      · simp [Dev.queue, Dev.modQ, Dev.emits, tget_tmod_ne, h]

@[simp] theorem noteMember_rings (fn qi tag st : Nat) (c : Cmd) (d : Dev) : (noteMember fn qi tag st c d).rings = d.rings := by
  unfold noteMember; split <;> rfl
@[simp] theorem noteMember_fns (fn qi tag st : Nat) (c : Cmd) (d : Dev) : (noteMember fn qi tag st c d).fns = d.fns := by
  unfold noteMember; split <;> rfl
@[simp] theorem noteMember_eps (fn qi tag st : Nat) (c : Cmd) (d : Dev) : (noteMember fn qi tag st c d).eps = d.eps := by
  unfold noteMember; split <;> rfl
@[simp] theorem noteMember_out (fn qi tag st : Nat) (c : Cmd) (d : Dev) : (noteMember fn qi tag st c d).out = d.out := by
  unfold noteMember; split <;> rfl
@[simp] theorem noteMember_regs (fn qi tag st : Nat) (c : Cmd) (d : Dev) : (noteMember fn qi tag st c d).regs = d.regs := by
  unfold noteMember; split <;> rfl

@[simp] theorem noteApply_rings (qi tag st : Nat) (c : Cmd) (d : Dev) : (noteApply qi tag st c d).rings = d.rings := by
  unfold noteApply; split <;> (try rfl); dsimp only; split <;> (try rfl); split <;> (try rfl); split <;> rfl
@[simp] theorem noteApply_fns (qi tag st : Nat) (c : Cmd) (d : Dev) : (noteApply qi tag st c d).fns = d.fns := by
  unfold noteApply; split <;> (try rfl); dsimp only; split <;> (try rfl); split <;> (try rfl); split <;> rfl
@[simp] theorem noteApply_eps (qi tag st : Nat) (c : Cmd) (d : Dev) : (noteApply qi tag st c d).eps = d.eps := by
  unfold noteApply; split <;> (try rfl); dsimp only; split <;> (try rfl); split <;> (try rfl); split <;> rfl
@[simp] theorem noteApply_out (qi tag st : Nat) (c : Cmd) (d : Dev) : (noteApply qi tag st c d).out = d.out := by
  unfold noteApply; split <;> (try rfl); dsimp only; split <;> (try rfl); split <;> (try rfl); split <;> rfl

/-- A completion leaves the registers but those that count applied messages. -/
theorem noteApply_rd (qi tag st : Nat) (c : Cmd) (d : Dev) (f : Field)
    (h1 : f.key ≠ VRV_CNT_MSG_APPLIED.COUNT.key) (h2 : f.key ≠ VRV_CNT_AUTH_FAIL.COUNT.key) :
    (noteApply qi tag st c d).rd f = d.rd f := by
  unfold noteApply
  split
  · rfl
  · dsimp only
    split
    · rfl
    · split
      · simp [Dev.bump, Dev.rd_wr_ne, h1]
      · split
        · simp [Dev.bump, Dev.rd_wr_ne, h2]
        · rfl

/-- Holding depends on register fields of configuration space, the function and its endpoint alone. -/
theorem Dev.holding_congr {d e : Dev} (fn : Nat) (hr : ∀ f : Field, 2048 ≤ f.space → d.rd f = e.rd f) (hf : d.fns = e.fns)
    (he : d.eps = e.eps) : d.holding fn = e.holding fn := by
  have a : ∀ f : Field, 2048 ≤ f.space → d.is f = e.is f := fun f h => by simp [Dev.is, hr f h]
  unfold Dev.holding Dev.vfAllowed Dev.fn Dev.ep
  rw [hf, he, a (CFG.BME fn) (by simp [CFG.BME, cfgSpace]), a (CFG.VF_EN _) (by simp [CFG.VF_EN, cfgSpace]),
    a (CFG.VF_MSE _) (by simp [CFG.VF_MSE, cfgSpace])]

/-- Whether IDE stands in the way depends on register fields of configuration space and the endpoint alone. -/
theorem Dev.ideClear_congr {d e : Dev} (fn : Nat) (hr : ∀ f : Field, 2048 ≤ f.space → d.rd f = e.rd f) (he : d.eps = e.eps) :
    d.ideClear fn = e.ideClear fn := by
  have a : ∀ i, d.is (CFG.IDE_EN (256 * epOf fn) i) = e.is (CFG.IDE_EN (256 * epOf fn) i) := fun i => by
    simp [Dev.is, hr (CFG.IDE_EN (256 * epOf fn) i) (by simp [CFG.IDE_EN, cfgSpace])]
  simp only [Dev.ideClear, Dev.ideInsecure, Dev.ep, he, a]

/-- A field of a configuration space lies apart from the fields of the halves. -/
theorem key_cfg_ne {f : Field} (h : 2048 ≤ f.space) {g : Field} (h2 : g.space < 2048) (h3 : g.off < 2 ^ 28) (h4 : g.lsb < 64) :
    f.key ≠ g.key := by
  have h' : @LE.le Nat instLENat 2048 f.space := h
  have h2' : @LT.lt Nat instLTNat g.space 2048 := h2
  simp only [Field.key]; omega

/-- A completion is written, and its command leaves its queue, where there is room. -/
theorem complete_answered {q tag st res : Nat} {d : Dev} {qu : Queue} {c : Cmd} (hq : d.queue q = some qu)
    (hc : qu.cmd tag = some c) (hs : c.stage ≠ .orphan) (hl : c.silent = false) (hr : Room d qu) :
    Answered q tag st res qu c d (complete q tag st res d) := by
  obtain ⟨r1, r2, r3, r4, r5⟩ := hr
  let qu' : Queue := { qu with cmds := qu.cmds.filter fun x => bits x.pkt.toNat 16 16 != tag }
  let e := (noteApply q tag st c (noteMember qu.fn q tag st c
    (d.modQ q fun x => { x with cmds := x.cmds.filter fun x => bits x.pkt.toNat 16 16 != tag }))).dropCtx q tag
  have he : complete q tag st res d = postCqe q ⟨c.order, res, tag, st, none⟩ e := by
    simp [complete, completeFreeing, hq, hc, hs, hl, e]
  have hq' : e.queue q = some qu' := by simp [e, Dev.queue, Dev.modQ, qu']; rw [← Dev.queue, hq]; simp
  have hr : ∀ f : Field, 2048 ≤ f.space → e.rd f = d.rd f := fun f hf => by
    simp only [e, Dev.rd_dropCtx]
    rw [noteApply_rd _ _ _ _ _ _ (key_cfg_ne hf (by decide) (by decide) (by decide)) (key_cfg_ne hf (by decide) (by decide) (by decide)),
      Dev.rd_congr (noteMember_regs _ _ _ _ _ _)]
    rfl
  have hh : e.holding qu.fn = false := by
    rw [← r1]
    exact Dev.holding_congr _ hr (by simp [e]) (by simp [e])
  have hi : e.ideClear qu'.fn = true := by
    rw [← r5]
    exact Dev.ideClear_congr _ hr (by simp [e])
  have hf : e.fn qu.fn = d.fn qu.fn := by simp [Dev.fn, e]
  have hp : postCqe q ⟨c.order, res, tag, st, none⟩ e =
      (writeCqe q ⟨c.order, res, tag, st, none⟩ e).when (qu'.noEntry (e.fn qu'.fn) q) (classABroken q) := by
    have h4 : qu'.cqFull = false := r4
    have h3 : qu'.held = [] := r3
    have hfn : qu'.fn = qu.fn := rfl
    simp [postCqe, Dev.sendsWait, hq', hfn, hh, hf, r2, h4, h3]
  obtain ⟨b1, b2⟩ := when_classABroken q (qu'.noEntry (e.fn qu'.fn) q) (writeCqe q ⟨c.order, res, tag, st, none⟩ e)
  have ho : e.out = d.out := by simp [e]
  have hsq : e.sqHeadOf q qu' = d.sqHeadOf q qu := by
    have : e.rings.fetches = d.rings.fetches := by simp [e, Dev.modQ]
    simp [Dev.sqHeadOf, this, qu']
  constructor
  · rw [he, hp]
    have := writeCqe_sent (e := ⟨c.order, res, tag, st, none⟩) rfl hq' hi
    rw [hsq] at this
    exact Sent.trans_grows (Sent.of_grows (Grows.of_eq ho) this) b1
  · rw [he, hp, b2]
    have h := writeCqe_cmds q q (e := ⟨c.order, res, tag, st, none⟩) rfl e
    rw [hq'] at h
    cases hw : (writeCqe q ⟨c.order, res, tag, st, none⟩ e).queue q with
    | none => rfl
    | some w =>
      rw [hw] at h
      simp only [Option.map_some, Option.some.injEq, qu'] at h
      simp [Queue.cmd, h, List.find?_eq_none]

/-! ### A command that may run -/

/-- A command that waits is run: an admin command at once, an I/O command that has not started when nothing of R815 refuses it. -/
theorem runCmd_waits {ops : List Nat} {q tag : Nat} {d : Dev} {qu : Queue} {c : Cmd} (f : Queue → Cmd → Dev → Dev)
    (w : Waits ops q tag d qu c) (h : 0x80 ≤ pktOp c.pkt ∨ c.started = true ∨ Free d c) :
    runCmd ops q tag f d = f qu c (d.modCmd q tag fun c => { c with started := true }) := by
  obtain ⟨w1, w2, w3, w4, w5, w6, w7, w8, _⟩ := w
  unfold runCmd
  rw [w1]; dsimp only; rw [w2]; dsimp only
  simp only [w3, w4, w6, w7, Bool.not_true]
  rcases h with h | h | ⟨h1, h2⟩
  · simp [h]
  · simp [h]
  · simp [h1, h2]

/-- The queue of a command that waits, once the command has started. -/
theorem Waits.started_queue {ops : List Nat} {q tag : Nat} {d : Dev} {qu : Queue} {c : Cmd} (w : Waits ops q tag d qu c) (g : Cmd → Cmd) :
    (d.modCmd q tag g).queue q = some { qu with cmds := qu.cmds.map fun c => if bits c.pkt.toNat 16 16 = tag then g c else c } := by
  simp [Dev.modCmd, w.1]

theorem Queue.cmd_map {qu : Queue} {tag : Nat} {c : Cmd} (h : qu.cmd tag = some c) (g : Cmd → Cmd) (hg : ∀ c, (g c).pkt = c.pkt) :
    ({ qu with cmds := qu.cmds.map fun c => if bits c.pkt.toNat 16 16 = tag then g c else c } : Queue).cmd tag = some (g c) := by
  unfold Queue.cmd at h ⊢
  dsimp only
  rw [List.find?_map]
  have hk : (fun c : Cmd => bits c.pkt.toNat 16 16 == tag) ∘ (fun c => if bits c.pkt.toNat 16 16 = tag then g c else c) =
      fun c => bits c.pkt.toNat 16 16 == tag := by
    funext x
    by_cases hx : bits x.pkt.toNat 16 16 = tag <;> simp [hx, hg]
  rw [hk, h]
  have := List.find?_some h
  simp only [beq_iff_eq] at this
  simp [this]

/-- A command that waits is answered by its completion, whatever else changed beside the queue's own standing. -/
theorem Waits.answered {ops : List Nat} {q tag st res : Nat} {d e : Dev} {qu qu' : Queue} {c c' : Cmd} (w : Waits ops q tag d qu c)
    (hq : e.queue q = some qu') (hc : qu'.cmd tag = some c') (h1 : c'.order = c.order) (h2 : c'.stage ≠ .orphan) (h3 : c'.silent = false)
    (hqu : { qu' with cmds := qu.cmds } = qu) (hf : e.rings.fetches = d.rings.fetches) (hn : e.fns = d.fns) (he : e.eps = d.eps)
    (hr : ∀ f : Field, 2048 ≤ f.space → e.rd f = d.rd f) (ho : Grows d e) :
    Answered q tag st res qu c d (complete q tag st res e) := by
  obtain ⟨_, _, _, _, _, _, _, ⟨r1, r2, r3, r4, r5⟩, _⟩ := w
  have e1 : qu'.fn = qu.fn := by rw [← hqu]
  have e2 : qu'.held = qu.held := by rw [← hqu]
  have e3 : qu'.cqFull = qu.cqFull := by rw [← hqu]; rfl
  have e4 : qu'.cqBase = qu.cqBase := by rw [← hqu]
  have e5 : qu'.cqTail = qu.cqTail := by rw [← hqu]
  have e6 : qu'.phase = qu.phase := by rw [← hqu]
  have e7 : qu'.sqHead = qu.sqHead := by rw [← hqu]
  have room : Room e qu' := by
    refine ⟨?_, ?_, by rw [e2, r3], by rw [e3, r4], ?_⟩
    · rw [e1, Dev.holding_congr qu.fn hr hn he, r1]
    · rw [e1, Dev.fn, hn]; exact r2
    · rw [e1, Dev.ideClear_congr qu.fn hr he, r5]
  obtain ⟨a1, a2⟩ := complete_answered (st := st) (res := res) hq hc h2 h3 room
  refine ⟨?_, a2⟩
  have : cqeOut q tag st res e qu' c' = cqeOut q tag st res d qu c := by
    simp [cqeOut, h1, e1, e4, e5, e6, Dev.sqHeadOf, hf, e7]
  rw [this] at a1
  exact Sent.of_grows ho a1

/-- A command that waits is answered at once by a completion. -/
theorem Waits.answered_now {ops : List Nat} {q tag st res : Nat} {d e : Dev} {qu : Queue} {c : Cmd} (w : Waits ops q tag d qu c)
    (hq : e.rings.queues = (d.modCmd q tag fun c => { c with started := true }).rings.queues)
    (hf : e.rings.fetches = d.rings.fetches) (hn : e.fns = d.fns) (he : e.eps = d.eps)
    (hr : ∀ f : Field, 2048 ≤ f.space → e.rd f = d.rd f) (ho : Grows d e) :
    Answered q tag st res qu c d (complete q tag st res e) := by
  have h : e.queue q = (d.modCmd q tag fun c => { c with started := true }).queue q := by simp [Dev.queue, hq]
  rw [w.started_queue] at h
  have hc := Queue.cmd_map w.2.1 (fun c => { c with started := true }) (fun _ => rfl)
  exact w.answered h hc rfl (by have := w.2.2.2.1; simp [this]) (by have := w.2.2.2.2.1; simp [this]) rfl hf hn he hr ho

end Sys2Proof.Machine
end

