-- ==== Sys2Proof/Laws/Link.lean ====
section
/-! SUPPORT. What sending on a link does: the message goes out, and nothing changes but the link ends and the arbiters. -/

namespace Sys2Proof.Machine

@[simp] theorem Dev.modLink_out (d : Dev) (l : LinkEnd) (f : Link → Link) : (d.modLink l f).out = d.out := by
  cases l <;> rfl

/-- Two states that differ in the link ends, in the arbiters and in what was sent alone. -/
def OnlyLinks (d e : Dev) : Prop := e = { d with sch := e.sch, snow := e.snow, arbs := e.arbs, out := e.out }

theorem OnlyLinks.refl (d : Dev) : OnlyLinks d d := rfl

theorem OnlyLinks.trans {a b c : Dev} (h1 : OnlyLinks a b) (h2 : OnlyLinks b c) : OnlyLinks a c := by
  unfold OnlyLinks at *
  rw [h2, h1]

theorem modLink_only (d : Dev) (l : LinkEnd) (f : Link → Link) : OnlyLinks d (d.modLink l f) := by cases l <;> rfl

theorem emit_only (d : Dev) (o : Out) : OnlyLinks d (d.emit o) := rfl

theorem grant_only (a : ArbId) (w : List (Nat × Nat)) (k : List WorkD) (d : Dev) : OnlyLinks d (grant a w k d).2 := by
  unfold grant
  dsimp only
  repeat' split
  all_goals rfl

theorem grant_out (a : ArbId) (w : List (Nat × Nat)) (k : List WorkD) (d : Dev) : (grant a w k d).2.out = d.out := by
  unfold grant
  dsimp only
  repeat' split
  all_goals rfl

theorem grantSome_only (n : Nat) (a : ArbId) (w : List (Nat × Nat)) (k : List WorkD) (d : Dev) :
    OnlyLinks d (grantSome n a w k d).2 ∧ (grantSome n a w k d).2.out = d.out := by
  induction n generalizing d with
  | zero => exact ⟨rfl, rfl⟩
  | succ n ih =>
    have h := grant_only a w k d
    have o := grant_out a w k d
    unfold grantSome
    split <;> rename_i e <;> rw [e] at h o
    · exact ⟨h, o⟩
    · exact ⟨h.trans (ih _).1, (ih _).2.trans o⟩

theorem serveNext_only {α : Type} (a : ArbId) (l : List α) (key : α → Nat × Nat) (k : List WorkD) (d : Dev) :
    OnlyLinks d (serveNext a l key k d).2 ∧ (serveNext a l key k d).2.out = d.out := by
  have h := grantSome_only 8 a (l.map key) k d
  unfold serveNext
  split <;> rename_i e <;> rw [e] at h <;> exact h

/-- Choosing the frame to place next changes the arbiters alone. -/
theorem nextFrame_only (l : LinkEnd) (d : Dev) : OnlyLinks d (nextFrame l d).2 ∧ (nextFrame l d).2.out = d.out := by
  unfold nextFrame
  split
  · exact ⟨rfl, rfl⟩
  · exact serveNext_only _ _ _ _ _

theorem placeFrame_only (l : LinkEnd) (f : WaitFrame) (lane : Nat) (d : Dev) : OnlyLinks d (placeFrame l f lane d) := by
  unfold placeFrame
  exact (modLink_only _ _ _).trans (emit_only _ _)

/-- Placing frames changes the link end and the arbiters alone, and what was sent stays sent. -/
theorem pump_only (n : Nat) (l : LinkEnd) (d : Dev) : OnlyLinks d (pump n l d) ∧ Grows d (pump n l d) := by
  induction n generalizing d with
  | zero => exact ⟨rfl, .refl d⟩
  | succ n ih =>
    have h := nextFrame_only l d
    unfold pump
    split
    · exact ⟨rfl, .refl d⟩
    · rename_i lane _
      split <;> rename_i e <;> rw [e] at h
      · exact ⟨h.1, .of_eq h.2⟩
      · rename_i f d'
        refine ⟨h.1.trans ((placeFrame_only _ _ _ _).trans (ih _).1), Grows.trans (.of_eq h.2) (Grows.trans ?_ (ih _).2)⟩
        exact Grows.trans (.of_eq (Dev.modLink_out _ _ _)) ⟨_, Dev.emit_out _ _⟩

theorem queueFrames_only (l : LinkEnd) (k : Kind) (cls fn : Nat) (b : Bytes) (d : Dev) :
    OnlyLinks d (queueFrames l k cls fn b d) ∧ Grows d (queueFrames l k cls fn b d) :=
  ⟨(modLink_only _ _ _).trans (pump_only _ _ _).1, Grows.trans (.of_eq (Dev.modLink_out _ _ _)) (pump_only _ _ _).2⟩

theorem queueFrames_grows (l : LinkEnd) (k : Kind) (cls fn : Nat) (b : Bytes) (d : Dev) : Grows d (queueFrames l k cls fn b d) :=
  (queueFrames_only l k cls fn b d).2

/-- Sending a message changes the link ends and the arbiters alone. -/
theorem schSend_only (h : Half) (k : Kind) (cls : Nat) (m : Msg) (d : Dev) : OnlyLinks d (schSend h k cls m d) := by
  unfold schSend
  split
  · rfl
  · exact (emit_only _ _).trans (queueFrames_only _ _ _ _ _ _).1

/-! ### The fields that sending leaves alone -/

theorem OnlyLinks.tbHost {d e : Dev} (h : OnlyLinks d e) : e.tbHost = d.tbHost :=
  (congrArg Dev.tbHost (show e = { d with sch := e.sch, snow := e.snow, arbs := e.arbs, out := e.out } from h) :)
@[simp] theorem schSend_tbHost (h : Half) (k : Kind) (cls : Nat) (m : Msg) (d : Dev) : (schSend h k cls m d).tbHost = d.tbHost :=
  (schSend_only h k cls m d).tbHost
theorem OnlyLinks.tbMedia {d e : Dev} (h : OnlyLinks d e) : e.tbMedia = d.tbMedia :=
  (congrArg Dev.tbMedia (show e = { d with sch := e.sch, snow := e.snow, arbs := e.arbs, out := e.out } from h) :)
@[simp] theorem schSend_tbMedia (h : Half) (k : Kind) (cls : Nat) (m : Msg) (d : Dev) : (schSend h k cls m d).tbMedia = d.tbMedia :=
  (schSend_only h k cls m d).tbMedia
theorem OnlyLinks.clocks {d e : Dev} (h : OnlyLinks d e) : e.clocks = d.clocks :=
  (congrArg Dev.clocks (show e = { d with sch := e.sch, snow := e.snow, arbs := e.arbs, out := e.out } from h) :)
@[simp] theorem schSend_clocks (h : Half) (k : Kind) (cls : Nat) (m : Msg) (d : Dev) : (schSend h k cls m d).clocks = d.clocks :=
  (schSend_only h k cls m d).clocks
theorem OnlyLinks.regs {d e : Dev} (h : OnlyLinks d e) : e.regs = d.regs :=
  (congrArg Dev.regs (show e = { d with sch := e.sch, snow := e.snow, arbs := e.arbs, out := e.out } from h) :)
@[simp] theorem schSend_regs (h : Half) (k : Kind) (cls : Nat) (m : Msg) (d : Dev) : (schSend h k cls m d).regs = d.regs :=
  (schSend_only h k cls m d).regs
theorem OnlyLinks.free {d e : Dev} (h : OnlyLinks d e) : e.free = d.free :=
  (congrArg Dev.free (show e = { d with sch := e.sch, snow := e.snow, arbs := e.arbs, out := e.out } from h) :)
@[simp] theorem schSend_free (h : Half) (k : Kind) (cls : Nat) (m : Msg) (d : Dev) : (schSend h k cls m d).free = d.free :=
  (schSend_only h k cls m d).free
theorem OnlyLinks.rings {d e : Dev} (h : OnlyLinks d e) : e.rings = d.rings :=
  (congrArg Dev.rings (show e = { d with sch := e.sch, snow := e.snow, arbs := e.arbs, out := e.out } from h) :)
@[simp] theorem schSend_rings (h : Half) (k : Kind) (cls : Nat) (m : Msg) (d : Dev) : (schSend h k cls m d).rings = d.rings :=
  (schSend_only h k cls m d).rings
theorem OnlyLinks.fns {d e : Dev} (h : OnlyLinks d e) : e.fns = d.fns :=
  (congrArg Dev.fns (show e = { d with sch := e.sch, snow := e.snow, arbs := e.arbs, out := e.out } from h) :)
@[simp] theorem schSend_fns (h : Half) (k : Kind) (cls : Nat) (m : Msg) (d : Dev) : (schSend h k cls m d).fns = d.fns :=
  (schSend_only h k cls m d).fns
theorem OnlyLinks.eps {d e : Dev} (h : OnlyLinks d e) : e.eps = d.eps :=
  (congrArg Dev.eps (show e = { d with sch := e.sch, snow := e.snow, arbs := e.arbs, out := e.out } from h) :)
@[simp] theorem schSend_eps (h : Half) (k : Kind) (cls : Nat) (m : Msg) (d : Dev) : (schSend h k cls m d).eps = d.eps :=
  (schSend_only h k cls m d).eps
theorem OnlyLinks.ingest {d e : Dev} (h : OnlyLinks d e) : e.ingest = d.ingest :=
  (congrArg Dev.ingest (show e = { d with sch := e.sch, snow := e.snow, arbs := e.arbs, out := e.out } from h) :)
@[simp] theorem schSend_ingest (h : Half) (k : Kind) (cls : Nat) (m : Msg) (d : Dev) : (schSend h k cls m d).ingest = d.ingest :=
  (schSend_only h k cls m d).ingest
theorem OnlyLinks.rime {d e : Dev} (h : OnlyLinks d e) : e.rime = d.rime :=
  (congrArg Dev.rime (show e = { d with sch := e.sch, snow := e.snow, arbs := e.arbs, out := e.out } from h) :)
@[simp] theorem schSend_rime (h : Half) (k : Kind) (cls : Nat) (m : Msg) (d : Dev) : (schSend h k cls m d).rime = d.rime :=
  (schSend_only h k cls m d).rime
theorem OnlyLinks.firn {d e : Dev} (h : OnlyLinks d e) : e.firn = d.firn :=
  (congrArg Dev.firn (show e = { d with sch := e.sch, snow := e.snow, arbs := e.arbs, out := e.out } from h) :)
@[simp] theorem schSend_firn (h : Half) (k : Kind) (cls : Nat) (m : Msg) (d : Dev) : (schSend h k cls m d).firn = d.firn :=
  (schSend_only h k cls m d).firn
theorem OnlyLinks.ctxs {d e : Dev} (h : OnlyLinks d e) : e.ctxs = d.ctxs :=
  (congrArg Dev.ctxs (show e = { d with sch := e.sch, snow := e.snow, arbs := e.arbs, out := e.out } from h) :)
@[simp] theorem schSend_ctxs (h : Half) (k : Kind) (cls : Nat) (m : Msg) (d : Dev) : (schSend h k cls m d).ctxs = d.ctxs :=
  (schSend_only h k cls m d).ctxs
theorem OnlyLinks.xmap {d e : Dev} (h : OnlyLinks d e) : e.xmap = d.xmap :=
  (congrArg Dev.xmap (show e = { d with sch := e.sch, snow := e.snow, arbs := e.arbs, out := e.out } from h) :)
@[simp] theorem schSend_xmap (h : Half) (k : Kind) (cls : Nat) (m : Msg) (d : Dev) : (schSend h k cls m d).xmap = d.xmap :=
  (schSend_only h k cls m d).xmap
theorem OnlyLinks.destages {d e : Dev} (h : OnlyLinks d e) : e.destages = d.destages :=
  (congrArg Dev.destages (show e = { d with sch := e.sch, snow := e.snow, arbs := e.arbs, out := e.out } from h) :)
@[simp] theorem schSend_destages (h : Half) (k : Kind) (cls : Nat) (m : Msg) (d : Dev) : (schSend h k cls m d).destages = d.destages :=
  (schSend_only h k cls m d).destages
theorem OnlyLinks.reads {d e : Dev} (h : OnlyLinks d e) : e.reads = d.reads :=
  (congrArg Dev.reads (show e = { d with sch := e.sch, snow := e.snow, arbs := e.arbs, out := e.out } from h) :)
@[simp] theorem schSend_reads (h : Half) (k : Kind) (cls : Nat) (m : Msg) (d : Dev) : (schSend h k cls m d).reads = d.reads :=
  (schSend_only h k cls m d).reads
theorem OnlyLinks.pools {d e : Dev} (h : OnlyLinks d e) : e.pools = d.pools :=
  (congrArg Dev.pools (show e = { d with sch := e.sch, snow := e.snow, arbs := e.arbs, out := e.out } from h) :)
@[simp] theorem schSend_pools (h : Half) (k : Kind) (cls : Nat) (m : Msg) (d : Dev) : (schSend h k cls m d).pools = d.pools :=
  (schSend_only h k cls m d).pools
theorem OnlyLinks.maint {d e : Dev} (h : OnlyLinks d e) : e.maint = d.maint :=
  (congrArg Dev.maint (show e = { d with sch := e.sch, snow := e.snow, arbs := e.arbs, out := e.out } from h) :)
@[simp] theorem schSend_maint (h : Half) (k : Kind) (cls : Nat) (m : Msg) (d : Dev) : (schSend h k cls m d).maint = d.maint :=
  (schSend_only h k cls m d).maint
theorem OnlyLinks.nss {d e : Dev} (h : OnlyLinks d e) : e.nss = d.nss :=
  (congrArg Dev.nss (show e = { d with sch := e.sch, snow := e.snow, arbs := e.arbs, out := e.out } from h) :)
@[simp] theorem schSend_nss (h : Half) (k : Kind) (cls : Nat) (m : Msg) (d : Dev) : (schSend h k cls m d).nss = d.nss :=
  (schSend_only h k cls m d).nss
theorem OnlyLinks.streams {d e : Dev} (h : OnlyLinks d e) : e.streams = d.streams :=
  (congrArg Dev.streams (show e = { d with sch := e.sch, snow := e.snow, arbs := e.arbs, out := e.out } from h) :)
@[simp] theorem schSend_streams (h : Half) (k : Kind) (cls : Nat) (m : Msg) (d : Dev) : (schSend h k cls m d).streams = d.streams :=
  (schSend_only h k cls m d).streams
theorem OnlyLinks.twin {d e : Dev} (h : OnlyLinks d e) : e.twin = d.twin :=
  (congrArg Dev.twin (show e = { d with sch := e.sch, snow := e.snow, arbs := e.arbs, out := e.out } from h) :)
@[simp] theorem schSend_twin (h : Half) (k : Kind) (cls : Nat) (m : Msg) (d : Dev) : (schSend h k cls m d).twin = d.twin :=
  (schSend_only h k cls m d).twin
theorem OnlyLinks.drives {d e : Dev} (h : OnlyLinks d e) : e.drives = d.drives :=
  (congrArg Dev.drives (show e = { d with sch := e.sch, snow := e.snow, arbs := e.arbs, out := e.out } from h) :)
@[simp] theorem schSend_drives (h : Half) (k : Kind) (cls : Nat) (m : Msg) (d : Dev) : (schSend h k cls m d).drives = d.drives :=
  (schSend_only h k cls m d).drives
theorem OnlyLinks.floe {d e : Dev} (h : OnlyLinks d e) : e.floe = d.floe :=
  (congrArg Dev.floe (show e = { d with sch := e.sch, snow := e.snow, arbs := e.arbs, out := e.out } from h) :)
@[simp] theorem schSend_floe (h : Half) (k : Kind) (cls : Nat) (m : Msg) (d : Dev) : (schSend h k cls m d).floe = d.floe :=
  (schSend_only h k cls m d).floe
theorem OnlyLinks.gauge {d e : Dev} (h : OnlyLinks d e) : e.gauge = d.gauge :=
  (congrArg Dev.gauge (show e = { d with sch := e.sch, snow := e.snow, arbs := e.arbs, out := e.out } from h) :)
@[simp] theorem schSend_gauge (h : Half) (k : Kind) (cls : Nat) (m : Msg) (d : Dev) : (schSend h k cls m d).gauge = d.gauge :=
  (schSend_only h k cls m d).gauge
theorem OnlyLinks.staging {d e : Dev} (h : OnlyLinks d e) : e.staging = d.staging :=
  (congrArg Dev.staging (show e = { d with sch := e.sch, snow := e.snow, arbs := e.arbs, out := e.out } from h) :)
@[simp] theorem schSend_staging (h : Half) (k : Kind) (cls : Nat) (m : Msg) (d : Dev) : (schSend h k cls m d).staging = d.staging :=
  (schSend_only h k cls m d).staging
theorem OnlyLinks.ledger {d e : Dev} (h : OnlyLinks d e) : e.ledger = d.ledger :=
  (congrArg Dev.ledger (show e = { d with sch := e.sch, snow := e.snow, arbs := e.arbs, out := e.out } from h) :)
@[simp] theorem schSend_ledger (h : Half) (k : Kind) (cls : Nat) (m : Msg) (d : Dev) : (schSend h k cls m d).ledger = d.ledger :=
  (schSend_only h k cls m d).ledger
theorem OnlyLinks.power {d e : Dev} (h : OnlyLinks d e) : e.power = d.power :=
  (congrArg Dev.power (show e = { d with sch := e.sch, snow := e.snow, arbs := e.arbs, out := e.out } from h) :)
@[simp] theorem schSend_power (h : Half) (k : Kind) (cls : Nat) (m : Msg) (d : Dev) : (schSend h k cls m d).power = d.power :=
  (schSend_only h k cls m d).power
theorem OnlyLinks.thermal {d e : Dev} (h : OnlyLinks d e) : e.thermal = d.thermal :=
  (congrArg Dev.thermal (show e = { d with sch := e.sch, snow := e.snow, arbs := e.arbs, out := e.out } from h) :)
@[simp] theorem schSend_thermal (h : Half) (k : Kind) (cls : Nat) (m : Msg) (d : Dev) : (schSend h k cls m d).thermal = d.thermal :=
  (schSend_only h k cls m d).thermal
theorem OnlyLinks.image {d e : Dev} (h : OnlyLinks d e) : e.image = d.image :=
  (congrArg Dev.image (show e = { d with sch := e.sch, snow := e.snow, arbs := e.arbs, out := e.out } from h) :)
@[simp] theorem schSend_image (h : Half) (k : Kind) (cls : Nat) (m : Msg) (d : Dev) : (schSend h k cls m d).image = d.image :=
  (schSend_only h k cls m d).image
theorem OnlyLinks.straps {d e : Dev} (h : OnlyLinks d e) : e.straps = d.straps :=
  (congrArg Dev.straps (show e = { d with sch := e.sch, snow := e.snow, arbs := e.arbs, out := e.out } from h) :)
@[simp] theorem schSend_straps (h : Half) (k : Kind) (cls : Nat) (m : Msg) (d : Dev) : (schSend h k cls m d).straps = d.straps :=
  (schSend_only h k cls m d).straps
theorem OnlyLinks.serial {d e : Dev} (h : OnlyLinks d e) : e.serial = d.serial :=
  (congrArg Dev.serial (show e = { d with sch := e.sch, snow := e.snow, arbs := e.arbs, out := e.out } from h) :)
@[simp] theorem schSend_serial (h : Half) (k : Kind) (cls : Nat) (m : Msg) (d : Dev) : (schSend h k cls m d).serial = d.serial :=
  (schSend_only h k cls m d).serial
theorem OnlyLinks.mbx {d e : Dev} (h : OnlyLinks d e) : e.mbx = d.mbx :=
  (congrArg Dev.mbx (show e = { d with sch := e.sch, snow := e.snow, arbs := e.arbs, out := e.out } from h) :)
@[simp] theorem schSend_mbx (h : Half) (k : Kind) (cls : Nat) (m : Msg) (d : Dev) : (schSend h k cls m d).mbx = d.mbx :=
  (schSend_only h k cls m d).mbx
theorem OnlyLinks.schLock {d e : Dev} (h : OnlyLinks d e) : e.schLock = d.schLock :=
  (congrArg Dev.schLock (show e = { d with sch := e.sch, snow := e.snow, arbs := e.arbs, out := e.out } from h) :)
@[simp] theorem schSend_schLock (h : Half) (k : Kind) (cls : Nat) (m : Msg) (d : Dev) : (schSend h k cls m d).schLock = d.schLock :=
  (schSend_only h k cls m d).schLock
theorem OnlyLinks.moraine {d e : Dev} (h : OnlyLinks d e) : e.moraine = d.moraine :=
  (congrArg Dev.moraine (show e = { d with sch := e.sch, snow := e.snow, arbs := e.arbs, out := e.out } from h) :)
@[simp] theorem schSend_moraine (h : Half) (k : Kind) (cls : Nat) (m : Msg) (d : Dev) : (schSend h k cls m d).moraine = d.moraine :=
  (schSend_only h k cls m d).moraine
theorem OnlyLinks.mapLog {d e : Dev} (h : OnlyLinks d e) : e.mapLog = d.mapLog :=
  (congrArg Dev.mapLog (show e = { d with sch := e.sch, snow := e.snow, arbs := e.arbs, out := e.out } from h) :)
@[simp] theorem schSend_mapLog (h : Half) (k : Kind) (cls : Nat) (m : Msg) (d : Dev) : (schSend h k cls m d).mapLog = d.mapLog :=
  (schSend_only h k cls m d).mapLog

/-- A half whose link is up and which is not in peer down. -/
abbrev Dev.linkOpen (d : Dev) (h : Half) : Prop := d.is (SCH_STATUS.UP h) = true ∧ d.is (SCH_STATUS.PEER_DOWN h) = false

theorem schSend_grows (h : Half) (k : Kind) (cls : Nat) (m : Msg) (d : Dev) : Grows d (schSend h k cls m d) := by
  unfold schSend
  split
  · exact .refl d
  · exact Grows.trans ⟨_, Dev.emit_out _ _⟩ (queueFrames_grows _ _ _ _ _ _)

/-- A message that a half may send is sent. -/
theorem schSend_sent {h : Half} {k : Kind} {cls : Nat} {m : Msg} {d : Dev} (o : d.linkOpen h) :
    Sent d (schSend h k cls m d) (.sch h k m) := by
  unfold schSend
  rw [if_neg (by simp [o.1, o.2])]
  exact Sent.trans_grows (Sent.emit d _) (queueFrames_grows _ _ _ _ _ _)

/-- A message whose receiver holds no complete message takes effect at once (R252). -/
theorem inTurn_nil {l : LinkEnd} {s : State} (h : (s.dev.link l).rx.inbox = []) (k : Kind) (b : Option Bytes)
    (f : State → Host.Outcome State Fault Refusal) : inTurn l k b s f = f s := by
  unfold inTurn
  rw [h]

/-- A message that is not the oldest of those complete has no effect (R252). -/
theorem inTurn_waits {l : LinkEnd} {s : State} {x : Option Bytes} {t : List (Option Bytes)} (h : (s.dev.link l).rx.inbox = x :: t)
    {k : Kind} {b : Option Bytes} (n : fitsTurn x k b = false) (f : State → Host.Outcome State Fault Refusal) :
    inTurn l k b s f = .next s := by
  unfold inTurn
  rw [h]
  simp [n]

end Sys2Proof.Machine
end

