-- ==== Sys2Proof/Machine/Bar.lean ====
section
/-! DEFINITION. What a read by software returns from a BAR and from a configuration space (R64 to R66, R561 to R571). A read changes nothing, so it
is no command; these functions say what it answers. -/

namespace Sys2Proof.Machine

/-! ### BAR0 -/

/-- The four words of a doorbell slot: the tail and the head last accepted (R66), and zero where the function holds no queue pair behind it
(R64, R65). A Calving stream's tail stands in the slot of its queue pair. -/
def Dev.slotWord (d : Dev) (fn off : Nat) : Nat :=
  match (d.slotQueue fn off).1 with
  | none => 0
  | some qi =>
    if off % 16 < 4 then
      match (d.streamOf qi).bind fun i => tget d.streams i with
      | some st => st.tail
      | none => ((d.queue qi).map (·.sqTail)).getD 0
    else if off % 16 < 8 ∨ 12 ≤ off % 16 then 0
    else ((d.queue qi).map (·.cqHead)).getD 0

/-- The byte of a word of 4 bytes at an offset. -/
def wordByte (w off : Nat) : Nat := w / 256 ^ (off % 4) % 256

/-- One byte of a function's MSI-X table, `off` into it. -/
def Fn.tableByte (f : Fn) (off : Nat) : Nat := wordByte ((f.vec (off / 16)).word (off % 16 / 4)) off

/-- One byte of a function's pending bits, `off` into them. -/
def Fn.pbaByte (f : Fn) (off : Nat) : Nat :=
  (List.range 8).foldl (fun v n => if f.pend.contains (8 * off + n) then v + 2 ^ n else v) 0

/-- One byte of the registers that a function's BAR0 decodes; zero where none does (R566, R568). -/
def Dev.regByte (z : Fuses) (fn : Nat) (d : Dev) (off : Nat) : Nat :=
  match regOver (if isPf fn then pfRegAt (epOf fn) else vfRegAt fn) off with
  | none => 0
  | some r => r.value (d.viewed (hostRegViews (epOf fn) fn z r)) / 256 ^ (off - r.off) % 256

/-- One byte of a function's BAR0 (R566, R568). -/
def Dev.barByte (z : Fuses) (fn : Nat) (d : Dev) (off : Nat) : Nat :=
  let table := if isPf fn then 0x2000000 else 0x80000
  let pba := if isPf fn then 0x2010000 else 0x81000
  if isDoorbell fn off then wordByte (d.slotWord fn off) off
  else if table ≤ off ∧ off < table + 16 * vectorCount fn then (d.fn fn).tableByte (off - table)
  else if pba ≤ off ∧ off < pba + vectorCount fn / 8 then (d.fn fn).pbaByte (off - pba)
  else d.regByte z fn off

/-- The memory read returns what the block holds, not zeros: 4 or 8 bytes naturally aligned, or more than 8 (R567); a doorbell slot as R66. -/
def readShape (off size : Nat) : Bool := (size == 4 || size == 8 || decide (8 < size)) && (decide (8 < size) || off % size == 0)

/-- What a memory read of `size` bytes at an offset of a function's BAR0 returns; none where the function does not decode it (R566 to R568).
DEDUCED: a read of a doorbell slot follows R567's sizes. -/
def Dev.readBar0 (z : Fuses) (fn off size : Nat) (d : Dev) : Option Bytes :=
  if d.decodes fn then some ((List.range size).map fun i => if readShape off size then d.barByte z fn (off + i) % 256 else 0) else none

/-- A memory read of BAR2: a PF whose image gives it a size, and no storage behind it (R569). -/
def Dev.readBar2 (fn size : Nat) (d : Dev) : Option Bytes :=
  if d.decodes fn && isPf fn && d.bar2Size (epOf fn) != 0 then some (List.replicate size 0) else none

/-- A memory read of the Expansion ROM: the running image's option ROM (R570). DEDUCED: zeros stand behind its last byte. -/
def Dev.readRom (fn off size : Nat) (d : Dev) : Option Bytes :=
  if d.decodes fn && isPf fn && d.is (CFG.ROM_EN fn) then some ((List.range size).map fun i => d.image.rom.getD (off + i) 0) else none

/-! ### Configuration space -/

/-- The Daxiekar DVSEC's 64 bytes by dword (R565): the header of the capability, the vendor header, then PART, STEPPING, PLACE, FUNC, FW_VERSION,
PAIR_LEVEL and MAILBOX, which names the mailbox at 0x0E0_0000 of the BAR0 (R781) and is zero in a VF. -/
def Dev.dvsec (fn : Nat) (d : Dev) : List (Nat × Nat) :=
  [(0x600, 0x00010023), (0x604, 64 * 2 ^ 20 + 2 ^ 16 + 0xD5A9), (0x608, 0x0960 * 2 ^ 16 + 1),
   (0x60c, fn * 2 ^ 16 + (4 * (d.twinSide % 2) + epOf fn) * 2 ^ 8 + 0xB0), (0x610, d.image.version), (0x614, d.image.level),
   (0x618, if isPf fn then 0xE00000 else 0)]

/-- A capability's first dword in the standard's extended space: its ID, its version and the next offset. -/
def extCap (id ver next : Nat) : Nat := next * 2 ^ 20 + ver * 2 ^ 16 + id

/-- The fixed dwords of the PCI Express capability at `at0` after its header (R555, R564): 512-byte payloads, role-based error reporting, function-level
reset; 64.0 GT/s, x16, ASPM L1 with exit latency 011b; completion timeout ranges A, B and C with their disable. -/
def pcieFixed (at0 : Nat) : List (Nat × Nat) :=
  [(at0 + 0x4, 2 ^ 28 + 2 ^ 15 + 2), (at0 + 0xc, 3 * 2 ^ 15 + 2 * 2 ^ 10 + 16 * 2 ^ 4 + 6), (at0 + 0x24, 2 ^ 4 + 0x7)]

/-- The fixed dwords of a PF (R555, R558, R561, R562, R564, R589). -/
def Dev.pfFixed (d : Dev) (fn : Nat) : List (Nat × Nat) :=
  [(0x0, 0x0960D5A9), (0x4, 2 ^ 20), (0x8, 0x018000B0), (0x10, 4), (0x18, if d.bar2Size (epOf fn) = 0 then 0 else 0xC),
   (0x2c, d.image.ssid * 2 ^ 16 + d.image.svid), (0x34, 0x40),
   (0x40, 25 * 2 ^ 27 + 3 * 2 ^ 16 + 0x5001), (0x44, 8),
   (0x50, 2 ^ 24 + 2 ^ 23 + 5 * 2 ^ 17 + 0x7005),
   (0x70, 2047 * 2 ^ 16 + 0x8011), (0x74, 0x2000000), (0x78, 0x2010000),
   (0x80, 2 * 2 ^ 16 + 0x0010),
   (0x100, extCap 0x1 2 0x180), (0x180, extCap 0xE 1 0x190), (0x190, extCap 0x10 1 0x1D0),
   (0x19c, 255 * 2 ^ 16 + 255), (0x1a4, 2 ^ 16 + 1), (0x1a8, 0x0961 * 2 ^ 16), (0x1ac, 0x1FF), (0x1b4, 4),
   (0x1d0, extCap 0x3 1 0x1E0), (0x1d4, d.serial % 2 ^ 32), (0x1d8, d.serial / 2 ^ 32),
   (0x1e0, extCap 0x1E 2 0x1F0), (0x1e4, 4 * 2 ^ 19 + 2 ^ 16 + 10 * 2 ^ 8 + 0x1F),
   (0x1f0, extCap 0x25 1 0x200), (0x200, extCap 0x26 1 0x240), (0x240, extCap 0x2A 1 0x280), (0x280, extCap 0x31 1 0x2A0),
   (0x2a0, extCap 0x27 1 0x300), (0x300, extCap 0x30 1 0x600), (0x304, 7 * 2 ^ 16 + 2)] ++
  pcieFixed 0x80 ++ (List.range 8).map (fun i => (ideBlock i, 2)) ++ d.dvsec fn

/-- The fixed dwords of a VF (R561, R563). -/
def Dev.vfFixed (d : Dev) (fn : Nat) : List (Nat × Nat) :=
  [(0x0, 0xFFFFFFFF), (0x4, 2 ^ 20), (0x8, 0x018000B0), (0x2c, d.image.ssid * 2 ^ 16 + d.image.svid), (0x34, 0x40),
   (0x40, 2 * 2 ^ 16 + 0x8010), (0x80, 63 * 2 ^ 16 + 0x0011), (0x84, 0x80000), (0x88, 0x81000), (0x100, extCap 0x1 2 0x600)] ++
  pcieFixed 0x40 ++ d.dvsec fn

/-- The dword of a configuration space at an offset: its fixed bits and the fields that software writes. -/
def Dev.cfgDword (d : Dev) (fn off : Nat) : Nat :=
  let fixed := ((if isPf fn then d.pfFixed fn else d.vfFixed fn).filter fun e => e.1 == off).map (·.2)
  let part (f : Field) : Nat :=
    if f.off = off then (if f.acc = .wo then 0 else d.rd f) * 2 ^ f.lsb % 2 ^ 32
    else if f.off + 4 = off then d.rd f * 2 ^ f.lsb / 2 ^ 32
    else 0
  fixed.sum + ((cfgFields fn).map part).sum

/-- What a configuration read of 1, 2 or 4 bytes returns; none (Unsupported Request) where the function does not exist or its half holds it
(R559). -/
def Dev.readCfg (fn off size : Nat) (d : Dev) : Option Bytes :=
  if d.fnExists fn && !(d.pw .host).held && !(d.ep (epOf fn)).perst then
    some ((List.range size).map fun i => wordByte (d.cfgDword fn ((off + i) / 4 * 4)) (off + i))
  else none

end Sys2Proof.Machine
end

