-- ==== Sys2Proof/Certificates/Slice0/Obligations.lean ====
section
/-! DEFINITION. The statements for the provers. Each clause names the state and operands on which a command has its own effect,
and what it then does. -/

open Sys2Proof Sys2Proof.Machine

namespace Sys2Proof.Machine

/-- R67, R68: a doorbell write of 4 bytes at a slot's SQ_TAIL takes effect. -/
abbrev Ready.tail (fn off qi : Nat) (q : Queue) (s : State) : Prop :=
  s.dev.decodes fn = true ∧ isDoorbell fn off = true ∧ off % 16 = 0 ∧ s.dev.slotQueue fn off = (some qi, false) ∧
    s.dev.streamOf qi = none ∧ s.dev.queue qi = some q ∧ q.error = false ∧ q.reset = none ∧
    (q.admin = true → s.dev.is (RNG_AQ_CFG.READY fn) = true)

/-- A queue takes part in the ring fetch arbiter's grants (R44, R69, R814). -/
abbrev Ready.fetch (qi : Nat) (q : Queue) (s : State) : Prop :=
  (qi, q) ∈ s.dev.rings.queues ∧ s.dev.mayFetch qi q = true ∧ q.cls < 4

/-- The fetch of a queue is outstanding, its queue has no open stream block, and no command is at work on the media half. -/
abbrev Ready.packet (order qi : Nat) (q : Queue) (s : State) : Prop :=
  (tget s.dev.rings.fetches order).map fetchQueue = some qi ∧ s.dev.queue qi = some q ∧ q.block = none ∧ s.dev.ctxs = []

/-- The queue as it stands when its packet arrives: one fetch fewer, and where the packet ends noted (R162). -/
def Dev.atPacket (d : Dev) (order qi : Nat) (p : BitVec 512) : Dev :=
  ((d.modRings fun r => { r with fetches := tdel r.fetches order }).modQ qi fun x => { x with fetches := x.fetches - 1 }).modQ qi
    fun x => { x with nextLba := pktSlba p + pktNlb p }

/-- A completion not yet signalled waits for the coalescing time of its queue, and its vector may send (R96, R572). -/
abbrev Ready.coalesced (qi : Nat) (q : Queue) (s : State) : Prop :=
  s.dev.queue qi = some q ∧ q.irq = true ∧ q.coalT ≠ 0 ∧ q.unsig ≠ 0 ∧ s.dev.is (CFG.MSIX_EN q.fn) = true ∧
    s.dev.is (CFG.MSIX_MASK q.fn) = false ∧ ((s.dev.fn q.fn).vec q.vector).masked = false ∧ s.dev.holding q.fn = false

end Sys2Proof.Machine

/-- REGISTER_WRITE, DOORBELL_WRITE, RING_FETCH_GRANT, PACKET_FETCHED, ARBITER_GRANT and COALESCING_TIMEOUT take their effect. -/
def Obligations.RingEngineCommandsTakeEffect : Prop :=
  (∀ e value s, e < 4 → s.dev.decodes (256 * e) = true → s.dev.is (RNG_AQ_CFG.ENABLE (256 * e)) = false →
    Does (.registerWrite (.pf e) 0x100000 8 value) s fun t =>
      t = s.withDev (s.dev.wr (RNG_AQ_SQBASE.BASE (256 * e)) (bits value 12 52))) ∧
  (∀ fn off value qi q s, Ready.tail fn off qi q s → value % 65536 < q.depth →
    Does (.doorbellWrite fn off 4 value) s fun t =>
      t = s.withDev (s.dev.modQ qi fun q => { q with sqTail := value % 65536 })) ∧
  (∀ fn off value qi q s, Ready.tail fn off qi q s → q.depth ≤ value % 65536 →
    Does (.doorbellWrite fn off 4 value) s fun t =>
      t = s.withDev (queueEvent fn qi 0x0810 (value % 65536) s.dev)) ∧
  (∀ pick qi q s, Ready.fetch qi q s → Does (.ringFetchGrant pick) s fun t => ∃ qi q, Ready.fetch qi q s ∧
    (s.dev.ideClear q.fn = true → Sent s.dev t.dev (.hostRead q.fn (q.sqBase + 64 * q.sqHead) 64 (.packetFetch s.dev.rings.order) false)) ∧
    t.dev.rings.order = s.dev.rings.order + 1 ∧
    t.dev.queue qi = (s.dev.queue qi).map fun q => { q with sqHead := (q.sqHead + 1) % q.depth, fetches := q.fetches + 1 }) ∧
  (∀ order lists run qi q p segs s, Ready.packet order qi q s →
    packetChecks qi { q with fetches := q.fetches - 1 } p lists
      (s.dev.atPacket order qi p) = .inl segs →
    s.dev.holding q.fn = false → s.dev.twin.act = none → pktMember p = false → [0x40, 0x41, 0x42, 0x87, 0x88].contains (pktOp p) = false →
    Does (.packetFetched order (some p) lists run) s fun t =>
      ∃ c, c.pkt = p ∧ c.order = order ∧ c.segs = segs ∧ c.stage = .ready ∧
        t.dev.queue qi = some { q with
          fetches := q.fetches - 1, nextLba := pktSlba p + pktNlb p, cmds := q.cmds ++ [c] }) ∧
  (∀ order lists run qi q p st s, Ready.packet order qi q s → Room s.dev q →
    packetChecks qi { q with fetches := q.fetches - 1 } p lists
      (s.dev.atPacket order qi p) = .inr st →
    Does (.packetFetched order (some p) lists run) s fun t =>
      Sent s.dev t.dev (.hostWrite q.fn (q.cqBase + 16 * q.cqTail)
        (Cqe.bytes ⟨order, 0, pktTag p, st, none⟩ ((s.dev.atPacket order qi p).sqHeadOf qi q) q.phase) false) ∧
      (t.dev.queue qi).map (·.cmds) = some q.cmds) ∧
  (∀ arb cls fn work s, cls < 4 → (∀ e, arb = .epWrite e → s.dev.deliveries e = []) →
    ¬ (1 ≤ (s.dev.arb arb).pos ∧ (s.dev.arb arb).pos ≤ s.dev.idleGrants arb) →
    Does (.arbiterGrant arb ⟨[(cls, fn)], work⟩) s fun t =>
      (t.dev.arb arb).last = some (cls, fn) ∧ (t.dev.arb arb).pos = ((s.dev.arb arb).pos + 1) % 8) ∧
  (∀ qi q s, Ready.coalesced qi q s → Does (.coalescingTimeout qi) s fun t =>
    t = s.withDev ((s.dev.modQ qi fun q => { q with unsig := 0 }).emit
      (.msi q.fn q.vector ((s.dev.fn q.fn).vec q.vector).addr ((s.dev.fn q.fn).vec q.vector).data)))
namespace Sys2Proof.Machine

/-- A command of a queue may run now: it waits, nothing of R815 refuses it, and the host half's link is up. -/
abbrev Ready.io (op q tag : Nat) (qu : Queue) (c : Cmd) (s : State) : Prop :=
  Waits [op] q tag s.dev qu c ∧ Free s.dev c ∧ s.dev.linkOpen .host

/-- The command's data may pass a slice, and no earlier command of its queue holds it back (R104, R178, R227). -/
abbrev Ready.sliced (q : Nat) (c : Cmd) (s : State) : Prop :=
  s.dev.rimeBlocked = false ∧ s.dev.serving ≠ [] ∧ s.dev.hazard q c = false

/-- A write of one block that is stored as it is: no member, no packing and no fingerprint, a slice with a serial left, and data of which
`w` is the block that is written. -/
abbrev Ready.rawWrite (run : SliceRun) (c : Cmd) (n : Ns) (sl : Nat) (w : Bytes) (s : State) : Prop :=
  s.dev.ns (pktNsid c.pkt) = some n ∧ packMode n.pack = 0 ∧ packDedup n.pack = false ∧ c.chunks = [] ∧ c.sent = false ∧
    pktMember c.pkt = false ∧ pktNlb c.pkt = 1 ∧ s.dev.cipherStop = none ∧ s.dev.sliceFor run.slice = some sl ∧
    1 ≤ s.dev.leaseLeft sl ∧ run.cmps.headD .agree = .agree ∧ allZero w = false

/-- The chunk ID that the next new chunk of a slice takes (R126): the twin in bit 63, the slice in bits 61 to 58, the serial below. -/
def Dev.nextId (d : Dev) (sl : Nat) : Nat := 2 ^ 63 * d.twinSide + 2 ^ 58 * sl + ((tget d.ingest.lease sl).getD (1, 0)).1

/-- The stored object of a raw block: encrypted under the tenant's data key with the chunk ID as tweak (R206, R207). -/
def Dev.rawObject (d : Dev) (n : Ns) (id : Nat) (w : Bytes) : Bytes :=
  let key := (d.slot (2 * n.tenant)).key
  xtsEnc (key.take 32) (key.drop 32) (leBytes 8 id ++ leBytes 8 0) w

/-- What a raw write of one block sends: its envelope, the descriptor of its one chunk, and its stored object. -/
def SentRaw (q tag op : Nat) (c : Cmd) (n : Ns) (sl : Nat) (w : Bytes) (d d' : Dev) : Prop :=
  Sent d d' (.sch .host .writeEnvelope ⟨q, tag, 0, pktNsid c.pkt, [pktSlba c.pkt, 1, pktFlags c.pkt, pktOpts c.pkt, 1, op], []⟩) ∧
  Sent d d' (.sch .host .newChunk ⟨q, tag, d.nextId sl, pktNsid c.pkt, [0, if n.big then 9 else 8, 0, 0,
    (d.rawObject n (d.nextId sl) w).length], []⟩) ∧
  Sent d d' (.sch .host .writePayload ⟨q, tag, d.nextId sl, pktNsid c.pkt, [], d.rawObject n (d.nextId sl) w⟩)

/-- The body of an other-I/O descriptor of a command. -/
def otherArgs (op : Nat) (p : BitVec 512) : List Nat := [op, pktSlba p, pktNlb p, pktFlags p, pktOpts p]

end Sys2Proof.Machine

/-- The commands on blocks cross the Schrund once their checks have passed: reads by a descriptor, the others with their operands, and a write of one block with what its slice made of it. -/
def Obligations.IoCommandsCross : Prop :=
  (∀ q tag qu c s, Waits [0] q tag s.dev qu c → Free s.dev c →
    Does (.nop q tag) s fun t => Answered q tag 0 0 qu c s.dev t.dev) ∧
  (∀ q tag qu c s, Ready.io 2 q tag qu c s → Ready.sliced q c s → Does (.read q tag) s fun t => Crossed q tag t.dev ∧
    Sent s.dev t.dev (.sch .host .readDesc ⟨q, tag, pktGos c.pkt, pktNsid c.pkt,
      [pktSlba c.pkt, pktNlb c.pkt, pktOpts c.pkt, 0], []⟩)) ∧
  (∀ q tag qu c s, Ready.io 7 q tag qu c s → Ready.sliced q c s → Does (.verify q tag) s fun t => Crossed q tag t.dev ∧
    Sent s.dev t.dev (.sch .host .readDesc ⟨q, tag, pktGos c.pkt, pktNsid c.pkt,
      [pktSlba c.pkt, pktNlb c.pkt, pktOpts c.pkt, 0], []⟩)) ∧
  (∀ q tag qu c s, Ready.io 3 q tag qu c s → Does (.writeZeroes q tag) s fun t => Crossed q tag t.dev ∧
    Sent s.dev t.dev (.sch .host .otherIo ⟨q, tag, 0, pktNsid c.pkt, otherArgs 0 c.pkt, []⟩)) ∧
  (∀ q tag qu c s, Ready.io 4 q tag qu c s → Does (.deallocate q tag) s fun t => Crossed q tag t.dev ∧
    Sent s.dev t.dev (.sch .host .otherIo ⟨q, tag, 0, pktNsid c.pkt, otherArgs 1 c.pkt, []⟩)) ∧
  (∀ q tag b qu c s, Ready.io 5 q tag qu c s → Ready.sliced q c s → Does (.compare q tag (some b)) s fun t => Crossed q tag t.dev ∧
    Sent s.dev t.dev (.sch .host .otherIo ⟨q, tag, pktGos c.pkt, pktNsid c.pkt, otherArgs 2 c.pkt, []⟩) ∧
    ((t.dev.queue q).bind (·.cmd tag)).map (·.host) = some (padTo c.dataLen b)) ∧
  (∀ q tag qu c s, Ready.io 8 q tag qu c s → copyCheck qu.fn c.pkt s.dev = 0 → Does (.copy q tag) s fun t => Crossed q tag t.dev ∧
    Sent s.dev t.dev (.sch .host .otherIo ⟨q, tag, pktField c.pkt 52 4, pktNsid c.pkt,
      otherArgs 3 c.pkt ++ [pktField c.pkt 48 4, pktField c.pkt 56 8], []⟩)) ∧
  (∀ q tag run b qu c n sl s, Ready.io 1 q tag qu c s → run.data = some b →
    Ready.rawWrite run c n sl (padTo n.blockSize b) s → Does (.write q tag run) s fun t =>
      Crossed q tag t.dev ∧ SentRaw q tag 1 c n sl (padTo n.blockSize b) s.dev t.dev) ∧
  (∀ q tag run b qu c n sl s, Ready.io 6 q tag qu c s → run.data = some b →
    Ready.rawWrite run c n sl (padTo n.blockSize (getBytes b n.blockSize n.blockSize)) s → Does (.compareAndWrite q tag run) s fun t =>
      Crossed q tag t.dev ∧ SentRaw q tag 6 c n sl (padTo n.blockSize (getBytes b n.blockSize n.blockSize)) s.dev t.dev ∧
      ((t.dev.queue q).bind (·.cmd tag)).map (·.host) = some (b.take n.blockSize)) ∧
  (∀ q tag run b qu c n sl s, Ready.io 1 q tag qu c s → run.data = some b → s.dev.ns (pktNsid c.pkt) = some n →
    c.chunks = [] → c.sent = false → pktNlb c.pkt = 1 → s.dev.rimeBlocked = false → s.dev.sliceFor run.slice = some sl →
    allZero (padTo n.blockSize b) = true → Does (.write q tag run) s fun t => Crossed q tag t.dev ∧
      Sent s.dev t.dev (.sch .host .referenceChunk ⟨q, tag, 0, pktNsid c.pkt, [0], List.replicate 32 0⟩))
namespace Sys2Proof.Machine

/-- A freeze group is live for the function of a queue (R321). -/
abbrev Ready.group (fn : Nat) (c : Cmd) (g : Group) (s : State) : Prop := s.dev.liveGroup fn (pktGos c.pkt) = some g

/-- The body of a Varve descriptor of a command (R251). -/
def varveArgs (p : BitVec 512) (rest : List Nat) : List Nat := [pktOp p, pktFlags p] ++ rest

end Sys2Proof.Machine

/-- The commands of freeze groups and of snapshots cross the Schrund with their operands. -/
def Obligations.GroupAndSnapshotCommandsCross : Prop :=
  (∀ q tag qu c g s, Ready.io 0x40 q tag qu c s → Ready.group qu.fn c g s → Does (.groupOpen q tag) s fun t => Crossed q tag t.dev ∧
    Sent s.dev t.dev (.sch .host .groupOp ⟨q, tag, pktGos c.pkt, pktNsid c.pkt, [0, 0], []⟩)) ∧
  (∀ q tag qu c g s, Ready.io 0x41 q tag qu c s → Ready.group qu.fn c g s → Does (.groupSeal q tag) s fun t => Crossed q tag t.dev ∧
    Sent s.dev t.dev (.sch .host .groupOp ⟨q, tag, pktGos c.pkt, pktNsid c.pkt, [1, g.count], []⟩)) ∧
  (∀ q tag qu c s, Ready.io 0x42 q tag qu c s → c.phase = 7 → Does (.groupDiscard q tag) s fun t => Crossed q tag t.dev ∧
    Sent s.dev t.dev (.sch .host .groupOp ⟨q, tag, pktGos c.pkt, pktNsid c.pkt, [2, c.refs], []⟩)) ∧
  (∀ q tag qu c s, Ready.io 0x43 q tag qu c s → Does (.groupQuery q tag) s fun t => Crossed q tag t.dev ∧
    Sent s.dev t.dev (.sch .host .groupOp ⟨q, tag, pktGos c.pkt, pktNsid c.pkt, [3, 0], []⟩)) ∧
  (∀ q tag qu c s, Ready.io 0x48 q tag qu c s → s.dev.snapWaits q c = false → Does (.snapCreate q tag) s fun t =>
    Crossed q tag t.dev ∧
    Sent s.dev t.dev (.sch .host .varveOp ⟨q, tag, 0, pktNsid c.pkt, varveArgs c.pkt [pktField c.pkt 48 8], []⟩)) ∧
  (∀ q tag qu c s, Ready.io 0x49 q tag qu c s → Does (.snapDelete q tag) s fun t => Crossed q tag t.dev ∧
    Sent s.dev t.dev (.sch .host .varveOp ⟨q, tag, snapOperand c.pkt, pktNsid c.pkt, varveArgs c.pkt [0], []⟩)) ∧
  (∀ q tag qu c s, Ready.io 0x4A q tag qu c s → snapOperand c.pkt ≠ 0 → Does (.cloneCreate q tag) s fun t => Crossed q tag t.dev ∧
    Sent s.dev t.dev (.sch .host .varveOp ⟨q, tag, snapOperand c.pkt, pktNsid c.pkt, varveArgs c.pkt [0], []⟩)) ∧
  (∀ q tag qu c s, Ready.io 0x4A q tag qu c s → snapOperand c.pkt = 0 → s.dev.snapWaits q c = false →
    Does (.cloneCreate q tag) s fun t => Crossed q tag t.dev ∧
      Sent s.dev t.dev (.sch .host .varveOp ⟨q, tag, 0, pktNsid c.pkt, varveArgs c.pkt [0], []⟩))
namespace Sys2Proof.Machine

/-- A command of a stream may run, and the stream is open and belongs to the command's function (R481). -/
abbrev Ready.stream (op q tag sid : Nat) (qu : Queue) (c : Cmd) (st : Stream) (s : State) : Prop :=
  Waits [op] q tag s.dev qu c ∧ Free s.dev c ∧ pktField c.pkt 48 4 = sid ∧ s.dev.streamFor qu.fn sid = some st ∧ st.isOpen = true

/-- An apply whose message is a ZERO in sequence, with a header and a tag that hold (R485 to R488). -/
abbrev Ready.applyZero (run : SliceRun) (b : Bytes) (c : Cmd) (n : Ns) (st : Stream) (s : State) : Prop :=
  s.dev.linkOpen .host ∧ s.dev.ns (pktNsid c.pkt) = some n ∧ c.chunks = [] ∧ st.send = false ∧ st.nsid = pktNsid c.pkt ∧
    bit n.flags 0 = true ∧ st.detached = false ∧ s.dev.applyBefore (pktField c.pkt 48 4) c.order = false ∧
    run.data.map (padTo c.dataLen) = some b ∧ st.failFrom = none ∧ getLe b 8 4 = st.seq ∧ getLe b 3 1 = 3 ∧
    headerCheck b (pktField c.pkt 48 4) st n s.dev = 0 ∧ (s.dev.slot st.slot).type = 3 ∧ s.dev.rimeBlocked = false ∧
    (s.dev.sliceFor run.slice).isSome = true ∧ run.cmps.headD .agree = .agree ∧ tagOk (s.dev.slot st.slot).key b st.ctx = true

/-- A saved context in the clear that belongs to a stream and its key, and where the stream sends has its pending record (R215 to R217). -/
abbrev Ready.restore (slice sid : Nat) (b : Bytes) (c : Cmd) (st : Stream) (s : State) : Prop :=
  pktField c.pkt 52 1 = 0 ∧ s.dev.rimeBlocked = false ∧
    (s.dev.sliceFor slice).isSome = true ∧ getLe (padTo 64 b) 0 1 = 1 ∧ getLe (padTo 64 b) 1 1 = b2n (!st.send) ∧
    getLe (padTo 64 b) 8 4 = sid ∧ (st.send = true → s.dev.rime.pending.contains ⟨getLe (padTo 64 b) 2 2, getLe (padTo 64 b) 16 8,
      getLe (padTo 64 b) 32 8, getLe (padTo 64 b) 40 8⟩ = true) ∧ (s.dev.slot st.slot).type ≠ 0 ∧ (s.dev.slot st.slot).keyId = getLe (padTo 64 b) 4 4

end Sys2Proof.Machine

/-- CALVE_OPEN opens its stream, CALVE_CLOSE ends it with its next SEQ, CALVE_SAVE writes the cipher state out and detaches the stream,
CALVE_RESTORE takes it back, and CALVE_APPLY of a ZERO message in sequence advances the expected SEQ and crosses. -/
def Obligations.CalvingCommandsTakeEffect : Prop :=
  (∀ q tag qu c n s, Waits [0x50] q tag s.dev qu c → Free s.dev c → s.dev.ns (pktNsid c.pkt) = some n →
    calveOpenCheck qu c n s.dev = 0 → Does (.calveOpen q tag) s fun t =>
      ∃ st, tget t.dev.streams (pktField c.pkt 48 4) = some st ∧ st.fn = qu.fn ∧ st.send = !bit (pktOpts c.pkt) 0 ∧
        st.nsid = pktNsid c.pkt ∧ st.slot = pktField c.pkt 52 2 ∧ st.seq = pktNlb c.pkt ∧ st.pos = pktSlba c.pkt ∧
        st.ended = none ∧ st.detached = false ∧ (t.dev.queue q).bind (·.cmd tag) = none) ∧
  (∀ q tag sid qu c st s, Ready.stream 0x51 q tag sid qu c st s → st.send = true → st.ended = some 0 →
    Does (.calveClose q tag) s fun t => tget t.dev.streams sid = none ∧ (t.dev.queue q).bind (·.cmd tag) = none ∧
      Sent s.dev t.dev (cqeOut q tag 0 (st.seq % 2 ^ 32) s.dev qu c)) ∧
  (∀ q tag sid addr x qu c st s, Ready.stream 0x53 q tag sid qu c st s → st.ctx = some x → pktField c.pkt 52 1 = 0 →
    c.segs = [(addr, 64)] → (st.send = true → s.dev.rime.pending.length < 256 ∧ s.dev.rimeBlocked = false) → Does (.calveSave q tag) s fun t =>
      Answered q tag 0 0 qu c s.dev t.dev ∧ (tget t.dev.streams sid).map (·.detached) = some true ∧
      ∃ serial, Sent s.dev t.dev (.hostWrite qu.fn addr
        ((ctxBytes sid serial (s.dev.slot st.slot).keyId s.dev.twinSide st x).take 64) false)) ∧
  (∀ q tag sid slice b qu c st s, Ready.stream 0x54 q tag sid qu c st s → Ready.restore slice sid b c st s →
    Does (.calveRestore q tag (some b) slice .agree) s fun t =>
      Answered q tag 0 0 qu c s.dev t.dev ∧ (tget t.dev.streams sid).map (·.detached) = some false ∧
      (tget t.dev.streams sid).map (·.ctx) = some (some ⟨getLe (padTo 64 b) 16 8, getLe (padTo 64 b) 24 8,
        getLe (padTo 64 b) 32 8, beNat (getBytes (padTo 64 b) 48 16)⟩)) ∧
  (∀ q tag sid run b qu c n st s, Ready.stream 0x52 q tag sid qu c st s → Ready.applyZero run b c n st s →
    Does (.calveApply q tag run) s fun t => Crossed q tag t.dev ∧ (tget t.dev.streams sid).map (·.seq) = some (st.seq + 1) ∧
      ∃ l, Sent s.dev t.dev (.sch .host .varveOp ⟨q, tag, 0, pktNsid c.pkt,
        [pktOp c.pkt, pktFlags c.pkt, 3, getLe b 32 8, getLe b 40 4, st.seq, sid] ++ l, []⟩))
namespace Sys2Proof.Machine

/-- The media half answers admin commands: the module is not fenced and its halves talk (R268, R527). -/
abbrev Ready.media (s : State) : Prop :=
  s.dev.fenced = false ∧ s.dev.peerDown .host = false ∧ s.dev.schUp = true

/-- A FEATURE_SET of a feature waits on its queue (R87). -/
abbrev Ready.feature (fid q tag : Nat) (qu : Queue) (c : Cmd) (s : State) : Prop :=
  Waits [0x83] q tag s.dev qu c ∧ pktField c.pkt 48 1 = fid

/-- A WITNESS_SET that clears a designation, at Twin A while the pair is paired (R618). -/
abbrev Ready.clearWitness (w : Nat) (c : Cmd) (s : State) : Prop :=
  s.dev.tstate = 5 ∧ s.dev.twinSide = 0 ∧ pktField c.pkt 49 1 = w ∧ w < 5 ∧ pktField c.pkt 56 4 = 0xFFFFFFFF

/-- Every byte of `b` goes to its place from `addr` on, in requests of at most Max Payload Size (R555, R581). -/
def Written (fn addr : Nat) (b : Bytes) (d t : Dev) : Prop :=
  ∀ i < b.length, ∃ a w, Sent d t (.hostWrite fn a w false) ∧ w.length ≤ d.maxPayload fn ∧ a ≤ addr + i ∧ w[addr + i - a]? = b[i]?

end Sys2Proof.Machine

/-- IDENTIFY, LOG_READ and FEATURE_GET answer with their data, and the features of the host half are taken. -/
def Obligations.AdminReadsAndSettingsAnswer : Prop :=
  (∀ q tag addr qu c s, Waits [0x80] q tag s.dev qu c → pktField c.pkt 48 1 = 2 → c.segs = [(addr, 4096)] →
    Does (.identify q tag) s fun t => Answered q tag 0 0 qu c s.dev t.dev ∧
      Written qu.fn addr ((padTo 4096 (s.dev.identifyFn qu.fn)).take 4096) s.dev t.dev) ∧
  (∀ q tag addr n b qu c s, Waits [0x81] q tag s.dev qu c → pktField c.pkt 48 1 = 1 → pktField c.pkt 56 8 % logEntry 1 = 0 →
    c.segs = [(addr, n)] → b = logSlice (s.dev.logPage 1 0 0 0) (logEntry 1) (pktField c.pkt 56 8 / logEntry 1) c.dataLen → b ≠ [] →
    Does (.logRead q tag) s fun t =>
      Answered q tag 0 (b.length + 2 ^ 32 * (s.dev.ledgerRecords .host)) qu c s.dev t.dev ∧
      Written qu.fn addr (b.take n) s.dev t.dev) ∧
  (∀ q tag qu c s, Waits [0x82] q tag s.dev qu c → pktField c.pkt 48 1 = 1 → Does (.featureGet q tag) s fun t =>
    Answered q tag 0 (s.dev.rings.weights.1 + 2 ^ 8 * s.dev.rings.weights.2.1 + 2 ^ 16 * s.dev.rings.weights.2.2) qu c s.dev t.dev) ∧
  (∀ q tag p qu c s, Waits [0x82] q tag s.dev qu c → Ready.media s → pktField c.pkt 48 1 = 0x20 → pktField c.pkt 49 1 = p → p < 8 →
    Does (.featureGet q tag) s fun t => Answered q tag 0 (s.dev.poolField p Pool.geometry) qu c s.dev t.dev) ∧
  (∀ q tag qu c s, Ready.feature 1 q tag qu c s → pktField c.pkt 56 1 ≠ 0 → pktField c.pkt 57 1 ≠ 0 → pktField c.pkt 58 1 ≠ 0 →
    Does (.classWeights q tag) s fun t => Answered q tag 0 0 qu c s.dev t.dev ∧
      t.dev.rings.weights = (pktField c.pkt 56 1, pktField c.pkt 57 1, pktField c.pkt 58 1)) ∧
  (∀ q tag qu c s, Ready.feature 1 q tag qu c s → (pktField c.pkt 56 1 = 0 ∨ pktField c.pkt 57 1 = 0 ∨ pktField c.pkt 58 1 = 0) →
    Does (.classWeights q tag) s fun t => Answered q tag 0x0102 0 qu c s.dev t.dev ∧ t.dev.rings.weights = s.dev.rings.weights) ∧
  (∀ q tag qu c s, Ready.feature 2 q tag qu c s → pktField c.pkt 56 1 ≠ 0 → epOf (pktField c.pkt 52 2) = epOf qu.fn →
    Does (.tenantWeight q tag) s fun t => Answered q tag 0 0 qu c s.dev t.dev ∧
      (∀ fn, t.dev.tenantWeight fn = if fn = pktField c.pkt 52 2 then pktField c.pkt 56 1 else s.dev.tenantWeight fn)) ∧
  (∀ q tag qu c s, Ready.feature 3 q tag qu c s → Does (.classAEvents q tag) s fun t => Answered q tag 0 0 qu c s.dev t.dev ∧
      t.dev.rings.classAEv.contains qu.fn = bit (pktField c.pkt 56 1) 0)

/-- FEATURE_SET of the media half's features: a pool is defined, a witness designation is cleared, the start-up window and a register of the
media half are set. -/
def Obligations.MediaFeaturesAreTaken : Prop :=
  (∀ q tag p v qu c s, Ready.feature 0x20 q tag qu c s → Ready.media s → s.dev.tstate = 5 → pktField c.pkt 49 1 = p → p < 8 →
    pktField c.pkt 56 8 = v → geometryOk v = true → s.dev.poolStripes p = [] → Does (.poolGeometry q tag) s fun t =>
      (t.dev.queue q).bind (·.cmd tag) = none ∧
      ∃ x, tget t.dev.pools p = some x ∧ x.k = bits v 0 6 ∧ x.m = bits v 6 3 ∧ x.d = bits v 9 10 ∧ x.spare = bits v 19 4 ∧
        x.big = bit v 23 ∧ x.seed = bits v 32 32 ∧ x.members = []) ∧
  (∀ q tag w ports qu c s, Ready.feature 0x21 q tag qu c s → Ready.media s → Ready.clearWitness w c s →
    Does (.witnessSet q tag ports) s fun t => (t.dev.twin.witness[w]?).map (·.nguid) = some 0) ∧
  (∀ q tag n qu c s, Ready.feature 0x22 q tag qu c s → Ready.media s → s.dev.tstate ≠ 5 → pktField c.pkt 56 4 = n →
    (n = 0 ∨ 1000 ≤ n ∧ n ≤ 600000) → Does (.enumWindow q tag) s fun t => t.dev.twin.window = n) ∧
  (∀ q tag v qu c s, Ready.feature 0x30 q tag qu c s → Ready.media s → s.dev.tstate ≠ 5 → s.dev.ctxs = [] → qu.fn = 0 →
    pktField c.pkt 49 1 = 0 → pktField c.pkt 52 4 = 0x700004 → pktField c.pkt 56 8 = v →
    bits v 0 8 ≠ 0 → bits v 8 8 ≠ 0 → bits v 16 8 ≠ 0 → Does (.mediaReg q tag) s fun t =>
      Answered q tag 0 0 qu c s.dev t.dev ∧ t.dev.rd MNT_RATE.CRIT_WD = bits v 0 8 ∧ t.dev.rd MNT_RATE.DEG_WD = bits v 8 8 ∧
        t.dev.rd MNT_RATE.SCRUB_DAYS = bits v 16 8)
namespace Sys2Proof.Machine

/-- A queue pair of the function other than the one that asks, at rest, which a QUEUE_RESET or QUEUE_DELETE names (R97, R100). -/
abbrev Ready.reset (q tq : Nat) (qu x : Queue) (c : Cmd) (s : State) : Prop :=
  pktField c.pkt 56 4 = tq ∧ tq ≠ q ∧ s.dev.holdsQueue qu.fn tq = true ∧ s.dev.adminQueue qu.fn ≠ some tq ∧ s.dev.queue tq = some x ∧
    x.reset = none ∧ x.cmds = [] ∧ s.dev.firn.groups = [] ∧ s.dev.streams = []

/-- The queue pair's rings stand at their start and its reset runs (R97). -/
def Resetting (q : Nat) (delete : Bool) (d : Dev) : Prop :=
  ∃ x r, d.queue q = some x ∧ x.reset = some r ∧ r.delete = delete ∧ r.took = 0 ∧ r.dropped = 0 ∧ x.sqTail = 0 ∧ x.sqHead = 0 ∧
    x.cqTail = 0 ∧ x.cqHead = 0 ∧ x.phase = true ∧ x.held = []

/-- A reset of a queue pair that another queue asked for, none of whose commands is left (R99); the command that asked waits. -/
abbrev Ready.resetOver (q : Nat) (x aq : Queue) (r : QReset) (c : Cmd) (s : State) : Prop :=
  s.dev.queue q = some x ∧ x.reset = some r ∧ x.cmds = [] ∧ r.byFlr = false ∧ r.done = false ∧ r.adminQ ≠ q ∧ s.dev.ctxs = [] ∧
    s.dev.queue r.adminQ = some aq ∧ aq.cmd r.tag = some c ∧ c.stage = .hostWork ∧ c.silent = false ∧ Room s.dev aq

end Sys2Proof.Machine

/-- FW_DOWNLOAD stages a segment, and FW_COMMIT with ACTION 0 stores the staged image in the inactive bank. -/
def Obligations.FirmwareIsStagedAndStored : Prop :=
  (∀ q tag b qu c s, Waits [0x84] q tag s.dev qu c → bit (pktField c.pkt 52 1) 0 = true → c.dataLen = 4096 →
    pktField c.pkt 48 4 + 4096 ≤ 2 ^ 27 → b.length = 4096 → Does (.fwDownload q tag (some b)) s fun t =>
      Answered q tag 0 4096 qu c s.dev t.dev ∧ t.dev.staging = ⟨[(pktField c.pkt 48 4 / 4096, b)], 4096, false⟩) ∧
  (∀ q tag b qu c s, Waits [0x85] q tag s.dev qu c → pktField c.pkt 48 1 = 0 → s.dev.staging.image = some b →
    commitCause s.fuses (some b) s.dev = 0 → Does (.fwCommit q tag) s fun t =>
      Answered q tag 0 (s.dev.image.version + 2 ^ 32 * s.dev.image.bank) qu c s.dev t.dev ∧
      t.flash = storeImage s.flash (1 - s.dev.image.bank) b ∧ t.fuses = s.fuses ∧ t.dev.image = s.dev.image)

/-- QUEUE_CREATE creates the queue pair its packet describes, QUEUE_RESET and QUEUE_DELETE begin, and QUEUE_RESET_DONE ends them. -/
def Obligations.QueuePairsAreCreatedResetAndFreed : Prop :=
  (∀ q tag qu c s, Waits [0x86] q tag s.dev qu c → queueCreateCheck qu.fn c.pkt s.dev = 0 → Does (.queueCreate q tag) s fun t =>
    Answered q tag 0 0 qu c s.dev t.dev ∧ t.dev.queue (pktField c.pkt 56 4) = some (Queue.make qu.fn (pktField c.pkt 60 2 + 1)
      (bits (pktField c.pkt 62 1) 0 2) (bit (pktField c.pkt 62 1) 2) (bit (pktField c.pkt 62 1) 3) (bits (pktOpts c.pkt) 0 11)
      (bits (pktOpts c.pkt) 16 8) (bits (pktOpts c.pkt) 24 8) (pktAddr c.pkt) (pktField c.pkt 48 8) false)) ∧
  (∀ q tag tq qu x c s, Waits [0x87] q tag s.dev qu c → Ready.reset q tq qu x c s → Does (.queueDelete q tag) s fun t =>
    Resetting tq true t.dev) ∧
  (∀ q tag tq qu x c s, Waits [0x88] q tag s.dev qu c → Ready.reset q tq qu x c s → Does (.queueReset q tag) s fun t =>
    Resetting tq false t.dev) ∧
  (∀ q x aq r c s, Ready.resetOver q x aq r c s → r.delete = false → Does (.queueResetDone q) s fun t =>
    Answered r.adminQ r.tag 0 (r.took + 2 ^ 32 * r.dropped) aq c s.dev t.dev ∧
      (t.dev.queue q).map (·.reset) = some none ∧ (t.dev.queue q).map (·.error) = some false) ∧
  (∀ q x aq r c s, Ready.resetOver q x aq r c s → r.delete = true → Does (.queueResetDone q) s fun t =>
    Answered r.adminQ r.tag 0 (r.took + 2 ^ 32 * r.dropped) aq c s.dev t.dev ∧ t.dev.queue q = none)
namespace Sys2Proof.Machine

/-- A data key in its blob, wrapped under the device key, for an empty slot that the function may address (R199 to R202). -/
abbrev Ready.dataKey (slice n : Nat) (b p : Bytes) (qu : Queue) (c : Cmd) (s : State) : Prop :=
  pktField c.pkt 48 2 = n ∧ pktField c.pkt 50 1 = 1 ∧ n < 2048 ∧ s.dev.mayAddress qu.fn n = true ∧ s.dev.rimeBlocked = false ∧
    (s.dev.sliceFor slice).isSome = true ∧ (s.dev.rime.devHost.bind fun kek => kwUnwrap kek b) = some p ∧ blobOk p 1 n = true ∧
    (s.dev.slot n).type = 0 ∧ (s.dev.slot n).erase = none ∧ s.dev.earlierLoad n c.order = false

/-- An erase whose commands have no cipher work left (R228); the command that asked waits on its queue. -/
abbrev Ready.drained (slot : Nat) (e : KeyErase) (qu : Queue) (c : Cmd) (s : State) : Prop :=
  (s.dev.slot slot).erase = some e ∧ e.load = none ∧ (∀ o ∈ e.waits, o ∉ s.dev.slotUsers slot) ∧ s.dev.queue e.q = some qu ∧
    qu.cmd e.tag = some c ∧ c.stage = .ready ∧ c.silent = false ∧ Room s.dev qu

end Sys2Proof.Machine

/-- Key slots are loaded and erased, event rings are set, and blocks of queue pairs are assigned. -/
def Obligations.KeySlotsEventRingsAndBlocksAreSet : Prop :=
  (∀ q tag slice n b p qu c s, Waits [0x89] q tag s.dev qu c → Ready.dataKey slice n b p qu c s →
    Does (.keyLoad q tag (some b) slice .agree) s fun t =>
      Answered q tag 0 (getLe p 4 4 + 2 ^ 32 * n) qu c s.dev t.dev ∧
      t.dev.slot n = ⟨1, getLe p 4 4, p.drop 8, n / 2, 0, 0,
        decide (2 ^ 63 - 1 ≤ (tget s.dev.firn.nonces (nonceKey (n / 2) (getLe p 4 4))).getD 0), false, none⟩) ∧
  (∀ q tag n qu c s, Waits [0x8A] q tag s.dev qu c → pktField c.pkt 48 2 = n → (s.dev.slot n).erase = none →
    Does (.keyErase q tag) s fun t => t.dev.slot n =
      { s.dev.slot n with erase := some ⟨q, tag, s.dev.slotUsers n, (s.dev.slotUsers n).length, none⟩ }) ∧
  (∀ slot e qu c s, Ready.drained slot e qu c s → Does (.keyEraseDrained slot) s fun t =>
    t.dev.slot slot = KeySlot.empty ∧ (slot = 4095 → t.dev.rime.linkKey = none) ∧
      Answered e.q e.tag 0 e.count qu c s.dev t.dev) ∧
  (∀ q tag qu c s, Waits [0x8C] q tag s.dev qu c → pktAddr c.pkt % 4096 = 0 → pktField c.pkt 60 2 ≠ 0 → pktField c.pkt 60 2 ≤ 4095 →
    vectorOk qu.fn (bits (pktOpts c.pkt) 0 11) = true → (s.dev.fn qu.fn).ev.held = [] → (s.dev.fn qu.fn).ev.lostSince = 0 →
    Does (.eventRingSet q tag) s fun t => (t.dev.queue q).bind (·.cmd tag) = none ∧ t.dev.rd (RNG_EV_HEAD.HEAD qu.fn) = 0 ∧
      (t.dev.fn qu.fn).ev = ⟨true, pktAddr c.pkt, pktField c.pkt 60 2 + 1, bits (pktOpts c.pkt) 0 11, 0, true, [], 0⟩) ∧
  (∀ q tag n first target qu c s, Waits [0x8D] q tag s.dev qu c → pktField c.pkt 52 2 = n → n ≠ 0 → pktField c.pkt 54 1 = 0 →
    pktField c.pkt 55 1 = target → pktField c.pkt 48 4 = first →
    qpoolCheck qu.fn 0 target ((List.range n).map (first + ·)) s.dev = 0 → Does (.qpoolAssign q tag) s fun t =>
      Answered q tag 0 0 qu c s.dev t.dev ∧ ∀ i < n, t.dev.holder (first + i) = 256 * epOf qu.fn + target)
namespace Sys2Proof.Machine

/-- The region takes a record of up to `n` pages at once, whatever its class, and none waits for space (R284 to R286). -/
abbrev Roomed (n : Nat) (d : Dev) : Prop :=
  d.firn.dumping = none ∧ d.firn.waiting = [] ∧ n + d.rd FRN_CFG.A_RESERVE * 16384 ≤ d.freeOutside.1 ∧ 65537 ≤ d.freeOutside.2

/-- This module is the pool's home twin and assigns a record of up to `n` pages at once: no compare, no swap, no missing acknowledgement and no
record before it holds it back (R85, R293, R295, R540). -/
abbrev Roomy (pool n : Nat) (d : Dev) : Prop :=
  Roomed n d ∧ d.isHome pool = true ∧ d.firn.locks = [] ∧ d.assignHeld pool = false ∧ d.ackFull pool = false ∧
    ∀ e ∈ d.firn.recs, e.2.pool = pool → e.2.seq ≠ 0

/-- An NS_MANAGE operation that the media half carries out now: its namespace exists, its pool can be reached, and no other change of it
is under way (R455, R456). -/
abbrev Ready.ns (op q tag : Nat) (qu : Queue) (c : Cmd) (n : Ns) (s : State) : Prop :=
  Waits [0x8B] q tag s.dev qu c ∧ Ready.media s ∧ pktField c.pkt 48 1 = op ∧ s.dev.ctx q tag = none ∧
    s.dev.ns (pktNsid c.pkt) = some n ∧ s.dev.nsChanging (pktNsid c.pkt) = false ∧ s.dev.poolUnavailable n.pool = false ∧
    Roomy n.pool 1 s.dev

/-- A record of which `P` holds took a free header slot (R283). -/
def Held (P : FRec → Prop) (d t : Dev) : Prop := ∃ slot r, d.recAt slot = none ∧ t.recAt slot = some r ∧ P r

/-- A record of the pool, of which `P` holds, is held with the pool's next COMMIT_SEQ and the timebase of its assignment (R292, R293). -/
def Assigned (rtype pool : Nat) (P : FRec → Prop) (d t : Dev) : Prop :=
  Held (fun r => r.rtype = rtype ∧ r.pool = pool ∧ r.seq = d.nextSeq pool ∧ r.time = d.tbMedia ∧ P r) d t

/-- A MAP record of the pool stands in a header slot and is not void. -/
abbrev Ready.mapRecord (pool seq slot : Nat) (r : FRec) (s : State) : Prop :=
  s.dev.slotOf pool seq = some slot ∧ s.dev.recAt slot = some r ∧ r.rtype = rtMap ∧ r.pool = pool ∧ r.seq = seq ∧ r.void = false ∧
    r.member = false

/-- A committed MAP record is the pool's next to apply (R296). -/
abbrev Ready.applies (pool seq slot : Nat) (r : FRec) (s : State) : Prop :=
  Ready.mapRecord pool seq slot r s ∧ s.dev.nextToApply pool = some (slot, r) ∧ s.dev.inOrder pool seq = true ∧ r.committed = true ∧
    r.divergent = false ∧ s.dev.ctxs = []

/-- A MAP_DELTA entry of NS_MANAGE. -/
def nsEntry : MapDelta → Prop
  | .nsSet .. | .nsRemove .. | .nsAttach .. => True
  | _ => False

/-- The command's MAP record is assigned in its pool and carries these MAP_DELTA entries (R460); the command waits at the media half. -/
def Carried (pool q tag : Nat) (deltas : List MapDelta) (d t : Dev) : Prop :=
  Assigned rtMap pool (fun r => r.mapDelta = deltas ∧ r.cmds = [⟨q, tag, 0, 0, 0⟩]) d t ∧ Crossed q tag t

end Sys2Proof.Machine

/-- The commands on namespaces: the record that carries the change takes its COMMIT_SEQ; it completes the command with its commit, and its
application gives the namespace its new place (R455 to R460). -/
def Obligations.NamespaceCommandsFormTheirRecord : Prop :=
  (∀ q tag pool x qu c s, Waits [0x8B] q tag s.dev qu c → Ready.media s → pktField c.pkt 48 1 = 1 → s.dev.ctx q tag = none →
    pktField c.pkt 49 1 = pool → tget s.dev.pools pool = some x → pktNsid c.pkt = 0 → pktField c.pkt 50 1 ≤ 1 → (pktField c.pkt 50 1 = 1 → x.big = true) →
    pktField c.pkt 51 1 ≤ 3 → packAttrOk (pktField c.pkt 52 4) (pktField c.pkt 50 1 == 1) = true → Sys2Proof.Machine.sizeOk (pktField c.pkt 56 8) = true →
    s.dev.nsidsUsed.length < 65536 → Roomy pool 1 s.dev → Does (.nsCreate q tag) s fun t => Carried pool q tag
      [.nsSet s.dev.newNsid (pktField c.pkt 56 8) (pktField c.pkt 52 4) (pool + 8 * pktField c.pkt 50 1 + 16 * pktField c.pkt 51 1)] s.dev t.dev) ∧
  (∀ q tag qu c n s, Ready.ns 2 q tag qu c n s → n.attached = [] → s.dev.nss.all (fun e => e.2.parent.isNone) = true →
    s.dev.dueDeltas = [] → s.dev.streams = [] → s.dev.twin.pins = [] → Does (.nsDelete q tag) s fun t =>
      Carried n.pool q tag [.nsRemove (pktNsid c.pkt)] s.dev t.dev) ∧
  (∀ q tag fn qu c n s, Ready.ns 3 q tag qu c n s → pktField c.pkt 52 4 = fn → fn ≤ 1023 → epOf fn = epOf qu.fn →
    (n.attached.length < 16 ∨ fn ∈ n.attached) →
    (n.owner = none → (s.dev.slot (2 * fn)).type ≠ 0 ∧ s.dev.is RIM_STATUS.ZEROIZED = false) → Does (.nsAttach q tag) s fun t =>
      Carried n.pool q tag [.nsAttach (pktNsid c.pkt) fn true n.owner.isNone
        (if n.owner = none then (s.dev.slot (2 * fn)).keyId else 0)] s.dev t.dev) ∧
  (∀ q tag fn qu c n s, Ready.ns 4 q tag qu c n s → pktField c.pkt 52 4 = fn → fn ≤ 1023 → epOf fn = epOf qu.fn →
    Does (.nsDetach q tag) s fun t => Carried n.pool q tag [.nsAttach (pktNsid c.pkt) fn false false 0] s.dev t.dev) ∧
  (∀ q tag run qu c n s, Ready.ns 5 q tag qu c n s → packAttrOk (pktField c.pkt 52 4) n.big = true →
    s.dev.rings.queues.all (fun e => e.2.block.isNone) = true → Does (.nsSetPack q tag run) s fun t =>
      Carried n.pool q tag [.nsSet (pktNsid c.pkt) n.size (pktField c.pkt 52 4) n.attrs] s.dev t.dev) ∧
  (∀ q tag size l pages qu c n s, Ready.ns 6 q tag qu c n s → pktField c.pkt 56 8 = size → Sys2Proof.Machine.sizeOk size = true →
    l = (if size < n.size then shrinkDeltas (pktNsid c.pkt) size s.dev else []) → 32 * l.length + 64 ≤ 4096 * pages → Roomed pages s.dev →
    (size < n.size → s.dev.streams = [] ∧ s.dev.twin.pins = []) → Does (.nsResize q tag) s fun t =>
      Carried n.pool q tag (.nsSet (pktNsid c.pkt) size n.pack n.attrs :: l) s.dev t.dev) ∧
  (∀ q tag qu c n s, Ready.ns 7 q tag qu c n s → pktField c.pkt 51 1 ≤ 3 → Does (.nsSetFlags q tag) s fun t =>
      Carried n.pool q tag [.nsSet (pktNsid c.pkt) n.size n.pack
        (n.pool + 8 * b2n n.big + 16 * (pktField c.pkt 51 1 % 4))] s.dev t.dev) ∧
  (∀ pool seq slot q tag r qu c x s, Ready.mapRecord pool seq slot r s → r.committed = false → r.applied = false → s.dev.meets r = true → r.posted = false →
    r.origin = .host → r.cmds = [⟨q, tag, 0, 0, 0⟩] → s.dev.ctxs = [x] → x.q = q → x.tag = tag → x.kind = .varve 0x8B →
    s.dev.queue q = some qu → qu.cmd tag = some c → s.dev.linkOpen .media → (∃ e, r.mapDelta = [e] ∧ nsEntry e) →
    Does (.writeCommit pool seq) s fun t => (t.dev.recAt slot).map (·.committed) = some true ∧
      Sent s.dev t.dev (.sch .media .completion ⟨q, tag, 0, c.nsid, [0, x.result, seq], []⟩)) ∧
  (∀ pool seq slot r nsid size pack attrs s, Ready.applies pool seq slot r s → r.mapDelta = [.nsSet nsid size pack attrs] →
    Does (.recordApply pool) s fun t => ∃ n, t.dev.nsAny nsid = some n ∧ n.size = size ∧ n.pack = pack ∧ n.pool = bits attrs 0 3 ∧
      n.big = bit attrs 3 ∧ n.flags = bits attrs 4 2) ∧
  (∀ pool seq slot r nsid fn on owner key n s, Ready.applies pool seq slot r s → r.mapDelta = [.nsAttach nsid fn on owner key] →
    s.dev.nsAny nsid = some n → Does (.recordApply pool) s fun t => ∃ m, t.dev.nsAny nsid = some m ∧
      (∀ f, f ∈ m.attached ↔ (f = fn ∧ on = true ∨ f ≠ fn ∧ f ∈ n.attached)) ∧ m.owner = if owner then some fn else n.owner) ∧
  (∀ pool seq slot r nsid s, Ready.applies pool seq slot r s → r.mapDelta = [.nsRemove nsid] → Does (.recordApply pool) s fun t =>
    t.dev.ns nsid = none)
namespace Sys2Proof.Machine

/-- The command left its queue: it completed (R79). -/
def Gone (q tag : Nat) (d : Dev) : Prop := (d.queue q).bind (·.cmd tag) = none

/-- An admin command that this module, which is not paired and so holds the ledger (R434), answers with the media half. -/
abbrev Ready.maint (op q tag : Nat) (qu : Queue) (c : Cmd) (s : State) : Prop :=
  Waits [op] q tag s.dev qu c ∧ Ready.media s ∧ s.dev.tstate ≠ 5

/-- A DRIVE_SERVICE operation at the home twin of its member's pool: the activity is of a kind that takes it, its arguments are well formed,
its handle names the member's drive (or, for BIND, some drive), and the member is in a state the operation accepts (R440). -/
abbrev Ready.service (op q tag : Nat) (a : Activity) (i : Nat) (v : Drive) (qu : Queue) (c : Cmd) (s : State) : Prop :=
  Waits [0xC3] q tag s.dev qu c ∧ Ready.media s ∧ pktField c.pkt 50 1 = op ∧ s.dev.activity (pktField c.pkt 48 2) = some a ∧
    (serviceKinds op).contains a.kind = true ∧ serviceArgOk op (pktField c.pkt 56 8) = true ∧
    s.dev.byHandle (pktField c.pkt 52 4) = some (i, v) ∧ (op = 3 ∨ v.state = 4 ∧ v.pool = a.pool ∧ v.member = a.member) ∧
    s.dev.isHome a.pool = true ∧ (op = 4 ∨ s.dev.serviceOp a.pool a.member = none) ∧
    (serviceStates op).contains (((tget s.dev.pools a.pool).map fun x => x.mstate a.member).getD 0) = true

/-- A command for a drive goes out at once: the root ports carry traffic, none waits, and the controller has room (R605, R625). -/
abbrev Ready.submits (i : Nat) (admin : Bool) (cls : Nat) (s : State) : Prop :=
  s.dev.portsHalted = false ∧ s.dev.drives.queued = [] ∧ s.dev.portOf i < 8 ∧ cls < 4 ∧
    s.dev.nvmeRoom ⟨i, admin, 0, 0, cls, 1024, .preempt, [], 0, false, none, 0⟩ = true

/-- The request that a MAINT_REQUEST packet carries (R438). -/
def requestOf (qu : Queue) (c : Cmd) : MaintReq :=
  ⟨pktField c.pkt 48 1, pktField c.pkt 49 1, pktField c.pkt 50 2, pktField c.pkt 52 1, pktField c.pkt 56 4, qu.fn⟩

/-- A drive that holds no configuration block passes every check of BIND (R444, R610). -/
abbrev Ready.bind (x : Pool) (v : Drive) (f : DriveFacts) (s : State) : Prop :=
  (v.state = 3 ∨ v.state = 6) ∧ f.failed = 0 ∧ f.lbads = (if x.big then 14 else 12) ∧
    x.rows + (if x.big then 16384 else 65536) ≤ f.blocks ∧ f.block = none ∧ s.dev.foreignKeys f.keys = false

end Sys2Proof.Machine

/-- A request that passes the checks of R429 is admitted, and a release or the end of its limit ends an activity. -/
def Obligations.ActivitiesAreAdmittedAndReleased : Prop :=
  (∀ q tag qu c r s, Ready.maint 0xC0 q tag qu c s → requestOf qu c = r → r.ok s.dev = true → s.dev.maintCheck r = (0, 0) →
    Does (.maintRequest q tag) s fun t => Gone q tag t.dev ∧ r.act s.dev.nextActId s.dev.tbMedia ∈ t.dev.maint.acts) ∧
  (∀ q tag qu c r st n s, Ready.maint 0xC0 q tag qu c s → requestOf qu c = r → r.ok s.dev = true → s.dev.maintCheck r = (st, n) →
    st ≠ 0 → Does (.maintRequest q tag) s fun t => Answered q tag st n qu c s.dev t.dev ∧ t.dev.maint = s.dev.maint) ∧
  (∀ q tag good qu c a s, Ready.maint 0xC1 q tag qu c s → s.dev.activity (pktField c.pkt 48 2) = some a →
    (s.dev.isHome a.pool = false ∨ 4 ≤ a.kind) → Does (.maintRelease q tag good) s fun t =>
      Gone q tag t.dev ∧ t.dev.maint.acts = s.dev.maint.acts.filter (fun x => x.id != a.id)) ∧
  (∀ id good a s, s.dev.activity id = some a → s.dev.tstate ≠ 5 → a.limit ≠ 0 → (s.dev.isHome a.pool = false ∨ 4 ≤ a.kind) →
    Does (.activityLimitExpiry id good) s fun t => t.dev.maint.acts = s.dev.maint.acts.filter (fun x => x.id != a.id))

/-- DRIVE_SERVICE: a member is released, returned, bound and given firmware by the operation its packet names. -/
def Obligations.DriveServiceActsOnTheMember : Prop :=
  (∀ q tag a i v qu c s, Ready.service 1 q tag a i v qu c s → Does (.releaseMember q tag) s fun t => Crossed q tag t.dev ∧
    ∃ o ∈ t.dev.maint.ops, o.op = 1 ∧ o.pool = a.pool ∧ o.member = a.member ∧ o.q = q ∧ o.tag = tag) ∧
  (∀ q tag f a i v qu c y s, Ready.service 2 q tag a i v qu c s → s.dev.member a.pool a.member = some y → f.failed = 0 →
    s.dev.blockIs f.block a.pool a.member = true → Does (.returnMember q tag f true) s fun t =>
      Gone q tag t.dev ∧ (t.dev.member a.pool a.member).map (·.state) = some (if y.former = 2 then 2 else 1)) ∧
  (∀ q tag f a i v qu c x s, Ready.service 3 q tag a i v qu c s → tget s.dev.pools a.pool = some x → Ready.bind x v f s →
    Does (.bind q tag f) s fun t => Gone q tag t.dev ∧
      (t.dev.member a.pool a.member).map (fun y => (y.state, y.drive)) = some (5, some i)) ∧
  (∀ q tag b a i v qu c s, Ready.service 4 q tag a i v qu c s → Ready.submits i true 3 s →
    Does (.fwStage q tag (some b)) s fun t => Crossed q tag t.dev ∧
      Sent s.dev t.dev (.nvme s.dev.drives.next i true nvFwDownload (pktField c.pkt 56 8 % 2 ^ 32 / 4) b)) ∧
  (∀ q tag a i v qu c s, Ready.service 5 q tag a i v qu c s → Does (.fwActivate q tag) s fun t => Crossed q tag t.dev ∧
    ∃ o ∈ t.dev.maint.ops, o.op = 5 ∧ o.pool = a.pool ∧ o.member = a.member ∧ o.fwSlot = pktField c.pkt 56 8 % 8 ∧ o.q = q ∧ o.tag = tag) ∧
  (∀ p m o y s, s.dev.serviceOp p m = some o → o.op = 1 → s.dev.member p m = some y → (y.state = 1 ∨ y.state = 2) →
    (∀ i e, y.drive = some i → e ∈ s.dev.drives.cmds → e.2.drive = i → o.step ≤ e.1) →
    Does (.memberHeld p m) s fun t => (t.dev.member p m).map (·.state) = some 3) ∧
  (∀ p m o y s, s.dev.serviceOp p m = some o → o.op = 5 → s.dev.member p m = some y → y.state = 3 →
    (∀ e ∈ s.dev.drives.cmds, e.2.what ≠ .fwCommit o.q o.tag) →
    Does (.fwActivateReady p m true true) s fun t => (t.dev.member p m).map (·.state) = some 1)

/-- DIVERGENCE_RESOLVE that abandons a stripe puts it into the lost-stripe log and forms its CLEAR; ROLE_SWAP at Twin A begins the swap;
DEVICE_ZEROIZE erases the keys; DIAG_SELFTEST and DIAG_INJECT answer. -/
def Obligations.ResolveSwapZeroizeAndDiagnosticsAct : Prop :=
  (∀ q tag st qu c x y s, Waits [0xC2] q tag s.dev qu c → Ready.media s → q < noQueue → pktOpts c.pkt % 4 = 2 → pktField c.pkt 56 8 = 0 →
    pktField c.pkt 48 8 = st → s.dev.isHome (stripePool st) = true → s.dev.stripeBusy st = false → s.dev.inDivLog st = true →
    tget s.dev.pools (stripePool st) = some x → s.dev.stripe st = some y → s.dev.lostEntry st = none → x.lost.length < 65536 → Roomy (stripePool st) 1 s.dev →
    Does (.divergenceResolve q tag) s fun t =>
      (t.dev.lostEntry st).isSome ∧ Carried (stripePool st) q tag [.clear st y.seq] s.dev t.dev) ∧
  (∀ q tag pools dest move qu c s, Waits [0xC4] q tag s.dev qu c → Ready.media s → pktField c.pkt 48 1 = pools → pktField c.pkt 49 1 = dest →
    dest ≤ 1 → (∀ p < 8, bit pools p = true → (tget s.dev.pools p).isSome) → s.dev.tstate = 5 → s.dev.twinSide = 0 →
    s.dev.twin.mirrorOnly = false → s.dev.twin.partner.mirrorOnly = false → s.dev.twin.swap = none →
    move = (s.dev.pools.filter fun e => bit pools e.1 && e.2.home != dest).foldl (fun m e => setBit m e.1 true) 0 → move ≠ 0 →
    Does (.roleSwap q tag) s fun t => Crossed q tag t.dev ∧ t.dev.is TWN_STATUS.SWAP_BUSY = true ∧
      t.dev.twin.swap = some ⟨move, dest, some (q, tag), false, s.dev.tbMedia, move⟩) ∧
  (∀ q tag qu c s, Waits [0xC5] q tag s.dev qu c → Does (.deviceZeroize q tag) s fun t => t.dev.rime.slots = [] ∧
    t.dev.is RIM_STATUS.ZEROIZED = true ∧ (bit (pktOpts c.pkt) 0 = true → t.dev.rime.devHost = none)) ∧
  (∀ q tag unit qu c s, Waits [0xE0] q tag s.dev qu c → pktField c.pkt 48 1 = unit → pktField c.pkt 49 1 < testUnits unit →
    (unit = 2 ∨ unit = 3 → Ready.media s) → Does (.diagSelftest q tag 0) s fun t => Answered q tag 0 0 qu c s.dev t.dev) ∧
  (∀ q tag src h qu c s, Waits [0xE1] q tag s.dev qu c → pktField c.pkt 52 4 = src → srcHalf src = h → 0 < srcBlock src → srcBlock src ≤ 16 →
    src % 2 ^ 24 ≤ 0xFFFFFE → pktField c.pkt 58 2 = 1 → pktField c.pkt 60 2 = 1 → (h = .media → Ready.media s) →
    s.dev.summaryMode h = false → (s.dev.led h).fresh < 4096 → (s.dev.led h).recs.length < 16384 →
    (∀ r ∈ (s.dev.led h).recs, r.source ≠ src) → Does (.diagInject q tag) s fun t => Gone q tag t.dev ∧
      ∃ r ∈ (t.dev.led h).recs, r.source = src ∧ r.code = pktField c.pkt 56 2 ∧ r.count = 1 ∧ r.injected = true)
namespace Sys2Proof.Machine

/-- A lease ask of a kind stands for a target, and every record of its mark has committed (R127, R210). -/
abbrev Ready.lease (kind target : Nat) (a : LeaseAsk) (s : State) : Prop :=
  s.dev.firn.asks.find? (fun a => a.kind == kind && a.target == target) = some a ∧ s.dev.markDurable a = true

end Sys2Proof.Machine

/-- The slices' events: a stream block closes, a lease is granted, the index is cleared and configured, a slice goes back into service, the
lend table is taken, and a suspended message goes on. -/
def Obligations.SliceEventsTakeEffect : Prop :=
  (∀ q b n run s, (s.dev.queue q).bind (·.block) = some b → s.dev.ns b.nsid = some n →
    b.chunks.length ≤ s.dev.leaseLeft b.slice → Does (.streamBlockTimeout q run) s fun t =>
      (t.dev.queue q).bind (·.block) = none ∧
      (s.dev.cipherStop = none → (∀ x ∈ b.chunks, ((s.dev.queue q).bind (·.cmd x.1)).any (·.stage == .hostWork) = true) →
        t.dev.leaseLeft b.slice = s.dev.leaseLeft b.slice - b.chunks.length)) ∧
  (∀ slice run a s, Ready.lease 1 slice a s → s.dev.ingest.marksRead = true →
    (∀ e ∈ s.dev.rings.queues, ∀ b, e.2.block = some b → b.closing = true → b.slice ≠ slice) →
    Does (.serialLeaseGrant slice run) s fun t => tget t.dev.ingest.lease slice = some (a.mark - 16777216 + 1, 16777216) ∧
      tget t.dev.firn.serials (s.dev.sliceKey slice) = some (max a.mark ((tget s.dev.firn.serials (s.dev.sliceKey slice)).getD 0))) ∧
  (∀ path s, ingWriter path = true → s.dev.is ING_STATUS.INV_BUSY = false → Does (.invalidate path) s fun t =>
    t.dev.ingest.drift = [] ∧ t.dev.ingest.lfsr ≠ 0 ∧ t.dev.is ING_STATUS.INV_BUSY = true) ∧
  (∀ s, s.dev.is ING_STATUS.INV_BUSY = true → Does .invalidateDone s fun t =>
    t.dev.is ING_STATUS.INV_BUSY = false ∧ t.dev.is ING_STATUS.INV_CLEAN = true) ∧
  (∀ path mask s, path = .pf 0 ∨ path = .i3c .host → Does (.quarRelease path mask) s fun t => ∀ n < 16,
    bit (t.dev.rd ING_STATUS.QUARANTINED) n = (!bit mask n && bit (s.dev.rd ING_STATUS.QUARANTINED) n) ∧
    t.dev.rd (ING_SLICE.VMISMATCH n) = (if bit mask n then 0 else s.dev.rd (ING_SLICE.VMISMATCH n)) ∧
    t.dev.rd (RIM_SLICE.CMISMATCH n) = (if bit mask n then 0 else s.dev.rd (RIM_SLICE.CMISMATCH n))) ∧
  (∀ path value s, ingWriter path = true → Does (.ingCfgWrite path value) s fun t =>
    t.dev.is ING_CFG.DEDUP_EN = bit value 0 ∧
    t.dev.is ING_CFG.DRIFT_EN = (bit value 1 && (s.dev.is ING_CFG.DRIFT_EN || s.dev.is ING_STATUS.INV_CLEAN))) ∧
  (∀ path value v s, ingWriter path = true → bits value 0 27 = v → s.dev.is ING_CFG.DEDUP_EN = false →
    Does (.ingIndexConfigWrite path 0x200010 value) s fun t =>
      if v ≤ 83886080 then t.dev.rd ING_NEVE_LINES.LINES = v ∧ t.dev.is ING_STATUS.INV_CLEAN = false
      else t.dev.rd ING_NEVE_LINES.LINES = s.dev.rd ING_NEVE_LINES.LINES ∧ t.dev.is ING_STATUS.CONFIG_REFUSED = true) ∧
  (∀ table s, s.dev.is ING_CFG.LEND_EN = true → s.dev.ingest.lendCopied = false → s.dev.holding s.dev.lendFn = false →
    Does (.lendTableCopied (some table)) s fun t => t.dev.is ING_STATUS.LEND_ON = true ∧
      t.dev.ingest.lendTable = table.take (s.dev.rd ING_LEND_PAGES.PAGES)) ∧
  (∀ slice g s, tget s.dev.ingest.gcm slice = some g → Does (.gcmResume slice) s fun t =>
    tget t.dev.ingest.gcm slice = some { g with suspended := false })

/-- The key engine's events: a nonce lease, the noise source's failure and return, a reseed, and a zeroize with its key value only. -/
def Obligations.KeyEngineEventsTakeEffect : Prop :=
  (∀ slot a old s, Ready.lease 2 slot a s → s.dev.noncePair slot = (a.fn, a.keyId) →
    (tget s.dev.firn.nonces (nonceKey a.fn a.keyId)).getD 0 = old → Does (.nonceLeaseGrant slot) s fun t =>
      tget t.dev.firn.nonces (nonceKey a.fn a.keyId) = some (max a.mark old) ∧
      (slot ≠ linkSlot → (t.dev.slot slot).ctr = a.base + 1 ∧ (t.dev.slot slot).left = a.mark - a.base)) ∧
  (∀ s, Does .noiseHealthFail s fun t => t.dev.is RIM_STATUS.ENTROPY_OK = false ∧ t.dev.is RIM_STATUS.ENTROPY_FAULT = true) ∧
  (∀ s, Does .entropyRestored s fun t => t.dev.is RIM_STATUS.ENTROPY_OK = true ∧
    t.dev.rime.drbg = s.dev.rime.drbg + b2n s.dev.rime.reseedDue) ∧
  (∀ s, Does .drbgReseed s fun t => if s.dev.is RIM_STATUS.ENTROPY_OK then t.dev.rime.drbg = s.dev.rime.drbg + 1 ∧ t.dev.rime.requests = 0
    else t.dev.rime.drbg = s.dev.rime.drbg ∧ t.dev.rime.reseedDue = true) ∧
  (∀ value s, bits value 0 16 = 0x5A3C → Does (.rimZeroize (.pf 0) value) s fun t => t.dev.rime.slots = [] ∧
    t.dev.is RIM_STATUS.ZEROIZED = true ∧ (bit value 16 = true → t.dev.rime.devHost = none)) ∧
  (∀ path value s, bits value 0 16 ≠ 0x5A3C → Does (.rimZeroize path value) s fun t => t = s)
namespace Sys2Proof.Machine

/-- No complete message waits at a receiver for its turn (R252). -/
abbrev NoMail (l : LinkEnd) (s : State) : Prop := (s.dev.link l).rx.inbox = []

/-- The command stands for the arrival of a message at a link's receiver: its kind, and its bytes where the command gives them. -/
def messageOf : Instr → Option (LinkEnd × Kind × Option Bytes)
  | .writePayload m => some (.sch .media, .writePayload, some (schBytes .writePayload m))
  | .readPayload m _ => some (.sch .host, .readPayload, some (schBytes .readPayload m))
  | .writeEnvelope m => some (.sch .media, .writeEnvelope, some (schBytes .writeEnvelope m))
  | .newChunk m => some (.sch .media, .newChunk, some (schBytes .newChunk m))
  | .referenceChunk m => some (.sch .media, .referenceChunk, some (schBytes .referenceChunk m))
  | .readDescriptor m => some (.sch .media, .readDesc, some (schBytes .readDesc m))
  | .otherIo m => some (.sch .media, .otherIo, some (schBytes .otherIo m))
  | .freezeGroupOperation m => some (.sch .media, .groupOp, some (schBytes .groupOp m))
  | .varveOperation m => some (.sch .media, .varveOp, some (schBytes .varveOp m))
  | .completionMessage m _ => some (.sch .host, .completion, some (schBytes .completion m))
  | .referenceRefused m _ => some (.sch .host, .referenceRefused, some (schBytes .referenceRefused m))
  | .record m => some (.snow, .record, some (snowBytes .record m))
  | .ack m => some (.snow, .ack, some (snowBytes .ack m))
  | .refuse m => some (.snow, .refuse, some (snowBytes .refuse m))
  | .echo m => some (.snow, .echo, some (snowBytes .echo m))
  | .coord m => some (.snow, .coord, some (snowBytes .coord m))
  | .pair m => some (.snow, .pair, some (snowBytes .pair m))
  | .recon m => some (.snow, .recon, some (snowBytes .recon m))
  | .swap .. => some (.snow, .swap, none)
  | .reportFaultNotice .. | .reportPathLoss .. | .reportDivergentStripe .. | .reportLocatedStrip .. => some (.snow, .report, none)
  | _ => none

/-- A frame with a good check carries a whole message of the Schrund, which is the receiver's next and passes its checks (R249, R252, R254). -/
abbrev Ready.whole (h : Half) (frame b : Bytes) (s : State) : Prop :=
  frameGood (.sch h) frame = true ∧ getLe frame 0 1 ≠ 0 ∧ getLe frame 0 1 ≠ 15 ∧ getLe frame 1 1 % 4 = 3 ∧
    getLe frame 4 4 = (s.dev.schEnd h).rx.next ∧ b = getBytes frame 16 (getLe frame 2 2) ∧ schShapeOk h (getLe frame 0 1) b = true ∧
    (s.dev.schEnd h).rx.next ∉ (s.dev.schEnd h).rx.again ∧ (s.dev.schEnd h).rx.reorder = []

/-- No frame that a test picks waits at a link end for its eighth replay (R255). -/
abbrev FewReplays (l : LinkEnd) (p : SentFrame → Bool) (d : Dev) : Prop := ∀ f ∈ (d.link l).tx.retry, p f = true → f.replays < 7

end Sys2Proof.Machine

/-- The frames of the links: good and bad frames, NAK, LANE_DOWN, LANE_UP and WIDTH; a whole message waits at its receiver, and a message has
no effect while another one waits before it. -/
def Obligations.LinkFramesTakeEffect : Prop :=
  (∀ link lane frame s, s.dev.deaf link lane = false → frameGood link frame = true → (getLe frame 0 1 = 0 ∨ getLe frame 0 1 = 15) →
    Does (.frameReceived link lane frame) s fun t => (t.dev.link link).rx.lastGood = s.dev.linkTb link ∧
      (t.dev.link link).rx.next = (s.dev.link link).rx.next ∧ (t.dev.link link).rx.reorder = (s.dev.link link).rx.reorder) ∧
  (∀ h lane frame b s, s.dev.deaf (.sch h) lane = false → Ready.whole h frame b s → Does (.frameReceived (.sch h) lane frame) s fun t =>
    (t.dev.schEnd h).rx.next = ((s.dev.schEnd h).rx.next + 1) % 2 ^ 32 ∧ (t.dev.schEnd h).rx.inbox = (s.dev.schEnd h).rx.inbox ++ [some b]) ∧
  (∀ c l k b x rest s, messageOf c = some (l, k, b) → (s.dev.link l).rx.inbox = x :: rest → fitsTurn x k b = false →
    Does c s fun t => t = s) ∧
  (∀ lane frame l s, s.dev.deaf .snow lane = false → frameGood .snow frame = false → s.dev.snow.tx.stopped = false → l ∈ s.dev.snow.tx.lanes →
    Does (.frameReceived .snow lane frame) s fun t => Sent s.dev t.dev (.frame .snow l (linkFrame .snow 15 0 s.dev.snow.tx.seq
      s.dev.snow.ackSeq 0 s.dev.tbMedia (leBytes 1 (kindCode .nak).2 ++ leBytes 4 (getLe frame 4 4)))) ∧
      t.dev.snow.rx.next = s.dev.snow.rx.next) ∧
  (∀ link lane seqs f s, s.dev.deaf link lane = false → (s.dev.link link).tx.stopped = false → (s.dev.link link).tx.lanes ≠ [] →
    FewReplays link (fun f => seqs.contains f.seq) s.dev → f ∈ (s.dev.link link).tx.retry → f.seq ∈ seqs →
    Does (.nak link lane seqs) s fun t => ∃ l ∈ (s.dev.link link).tx.lanes, Sent s.dev t.dev (.frame link l f.bytes)) ∧
  (∀ link lane s, (∀ h, link = .sch h → s.dev.is (SCH_STATUS.PEER_DOWN h) = false) → lane ∈ (s.dev.link link).tx.lanes →
    2 ≤ ((s.dev.link link).tx.lanes.filter (· != lane)).length → FewReplays link (fun f => f.lane == lane) s.dev →
    Does (.laneDown link lane) s fun t => lane ∉ (t.dev.link link).tx.lanes) ∧
  (∀ h logical lane s, s.dev.is (SCH_STATUS.PEER_DOWN h) = false → (logical, lane) ∈ (s.dev.schEnd h).tx.mapped →
    Does (.laneUp (.sch h) logical lane) s fun t => lane ∈ (t.dev.schEnd h).tx.lanes) ∧
  (∀ lane s, lane < 16 → lane ∉ s.dev.snow.tx.lanes → Does (.laneUp .snow lane lane) s fun t => lane ∈ t.dev.snow.tx.lanes) ∧
  (∀ h width first s, 12 ≤ width → width ≤ 18 → first < 2 ^ 32 → s.dev.is (SCH_STATUS.PEER_DOWN h) = false →
    Does (.width (.sch h) width first) s fun t => (t.dev.schEnd h).rx.width = width) ∧
  (∀ width first s, 1 ≤ width → width ≤ 16 → first < 2 ^ 32 → Does (.width .snow width first) s fun t => t.dev.snow.rx.width = width)

/-- The events of the Schrund's physical link: peer down, lane loss and retraining, and the forwarded clock. -/
def Obligations.SchrundLinkEventsTakeEffect : Prop :=
  (∀ half cause s, s.dev.is (SCH_STATUS.UP half) = true → s.dev.is (SCH_STATUS.PEER_DOWN half) = false →
    Does (.peerFatal half cause) s fun t => t.dev.is (SCH_STATUS.UP half) = false ∧ t.dev.is (SCH_STATUS.PEER_DOWN half) = true) ∧
  (∀ half s, s.dev.is (SCH_STATUS.UP half) = true → s.dev.is (SCH_STATUS.PEER_DOWN half) = false →
    Does (.schrundSilenceTimeout half) s fun t =>
      t.dev.is (SCH_STATUS.UP half) = false ∧ t.dev.is (SCH_STATUS.PEER_DOWN half) = true) ∧
  (∀ half lane s, s.dev.is (SCH_STATUS.UP half) = true → lane < 20 → lane ∉ (s.dev.schEnd half).rx.lost →
    Does (.laneLost half lane) s fun t => lane ∈ (t.dev.schEnd half).rx.lost ∧ lane ∉ (t.dev.schEnd half).rx.lanes ∧
      lane ∉ (t.dev.schEnd half).rx.locked) ∧
  (∀ path half s, schWriter half path = true → Does (.schLaneRetry path half) s fun t => ∀ h,
    (t.dev.schEnd h).rx.retraining = (s.dev.schEnd h).rx.lost.filter fun x => !(s.dev.schEnd h).retired.contains x) ∧
  (∀ half lane s, lane ∈ (s.dev.schEnd half).rx.retraining → Does (.laneRetrained half lane) s fun t =>
    lane ∉ (t.dev.schEnd half).rx.lost ∧ lane ∈ (t.dev.schEnd half).rx.locked ∧ lane ∈ (t.dev.schEnd (otherHalf half)).tx.spares) ∧
  (∀ s, s.dev.clocks.lost = false → Does (.forwardedClockLost true) s fun t =>
    t.dev.clocks.lost = true ∧ ∀ h, t.dev.is (SCH_STATUS.HOLDOVER h) = true) ∧
  (∀ s, s.dev.is (SCH_STATUS.CLK_ALT .media) = false → Does (.forwardedClockLost false) s fun t =>
    ∀ h, t.dev.is (SCH_STATUS.CLK_ALT h) = true) ∧
  (∀ s, Does .forwardedClockReturn s fun t => t.dev.clocks.lost = false ∧
    ∀ h, t.dev.is (SCH_STATUS.HOLDOVER h) = false ∧ t.dev.is (SCH_STATUS.CLK_ALT h) = false)
namespace Sys2Proof.Machine

/-- A message of the host half names a command that waits for it, and the media half's end of the link is up (R266). -/
abbrev Ready.msg (m : Msg) (ops : List Nat) (c : Cmd) (s : State) : Prop :=
  s.dev.linkOpen .media ∧ NoMail (.sch .media) s ∧ s.dev.waiting m ops = some c ∧ c.phase < 8

/-- The one context of the media half is a write's, some chunk of which is still to come after `n` more. -/
abbrev Ready.writeCtx (m : Msg) (n : Nat) (x : MCtx) (s : State) : Prop :=
  s.dev.ctxs = [x] ∧ x.q = m.q ∧ x.tag = m.tag ∧ x.kind = .write ∧ x.formed = false ∧ x.chunks.length + n < x.nchunk

/-- A message completes a command of the host half that crossed, whose completion has room (R80, R266). -/
abbrev Ready.completion (m : Msg) (qu : Queue) (c : Cmd) (s : State) : Prop :=
  s.dev.is (SCH_STATUS.UP .host) = true ∧ NoMail (.sch .host) s ∧ s.dev.queue m.q = some qu ∧ qu.cmd m.tag = some c ∧
    c.stage = .crossed ∧ c.silent = false ∧ Room s.dev qu ∧ m.nsid = pktNsid c.pkt ∧ s.dev.ctxs = []

end Sys2Proof.Machine

/-- The messages of a write at the media half: the envelope opens its context, and new chunks, references and payloads join it. -/
def Obligations.WriteMessagesFillTheirContext : Prop :=
  (∀ m c s, Ready.msg m [1, 6, 0x52] c s → s.dev.ctxs = [] → m.ref = 0 → m.nsid = pktNsid c.pkt → pktOp c.pkt = 1 → 1 ≤ pktNlb c.pkt →
    m.args = [pktSlba c.pkt, pktNlb c.pkt, pktFlags c.pkt, pktOpts c.pkt, pktNlb c.pkt, 1] → Does (.writeEnvelope m) s fun t =>
      ∃ x, t.dev.ctxs = [x] ∧ x.q = m.q ∧ x.tag = m.tag ∧ x.kind = .write ∧ x.nsid = m.nsid ∧ x.slba = pktSlba c.pkt ∧
        x.nlb = pktNlb c.pkt ∧ x.nchunk = pktNlb c.pkt ∧ x.items = []) ∧
  (∀ m ord form len c x s, Ready.msg m [1, 6, 0x52] c s → Ready.writeCtx m 1 x s → m.ref ≠ 0 → m.args = [ord, form, 0, 0, len] →
    ord < x.nchunk → (∀ i ∈ x.chunks, i.ord ≠ ord) → 1 ≤ form → form ≤ 9 → 512 ≤ len → len ≤ 16384 → Does (.newChunk m) s fun t =>
      t.dev.ctxs = [{ x with items := x.items ++ [⟨ord, m.ref, false, form, m.ref, 0, len, m.data, none, false⟩] }]) ∧
  (∀ m ord c x s, Ready.msg m [1, 6, 0x52] c s → Ready.writeCtx m 1 x s → m.args = [ord] → ord < x.nchunk →
    (∀ i ∈ x.chunks, i.ord ≠ ord) → (m.ref = 0 ∨ m.data.length = 32) → Does (.referenceChunk m) s fun t =>
      t.dev.ctxs = [{ x with items := x.items ++ [⟨ord, m.ref, true, 0, m.ref, 0, 0, m.data, none, true⟩] }]) ∧
  (∀ m i c x s, Ready.msg m [1, 6, 0x52] c s → Ready.writeCtx m 0 x s → 512 ≤ m.data.length → m.data.length ≤ 16384 →
    x.chunks.find? (fun i => !i.isRef && i.id == m.ref && i.form != 0x10 && !i.settled) = some i → i.len = m.data.length →
    Does (.writePayload m) s fun t => ∃ y, t.dev.ctxs = [y] ∧
      ∃ j ∈ y.items, j.ord = i.ord ∧ j.id = m.ref ∧ j.bytes = some m.data ∧ j.settled = true)

/-- The other descriptors at the media half: a read of unmapped blocks is answered, zeroes and a snapshot form their record, and opening a
freeze group is answered. -/
def Obligations.DescriptorsActAtTheMediaHalf : Prop :=
  (∀ m c n s, Ready.msg m [2, 5, 6, 7] c s → s.dev.ctxs = [] → m.nsid = pktNsid c.pkt → m.ref = 0 → pktGos c.pkt = 0 → pktOp c.pkt = 2 →
    m.args = [pktSlba c.pkt, pktNlb c.pkt, pktOpts c.pkt, 0] → tget s.dev.nss m.nsid = some n →
    (∀ i < pktNlb c.pkt, s.dev.shows n m.nsid 0 (pktSlba c.pkt + i) = 0 ∧ s.dev.divergentAt m.nsid (pktSlba c.pkt + i) = false) →
    Does (.readDescriptor m) s fun t => t.dev.ctxs = [] ∧
      Sent s.dev t.dev (.sch .media .completion ⟨m.q, m.tag, 0, m.nsid, [0, 0, 0], []⟩)) ∧
  (∀ m c n s, Ready.msg m [3, 4, 5, 6, 8] c s → s.dev.ctxs = [] → m.nsid = pktNsid c.pkt → pktOp c.pkt = 3 →
    m.args = [ioZeroes, pktSlba c.pkt, pktNlb c.pkt, 0, 0] → s.dev.ns m.nsid = some n → s.dev.hazard m.q c = false →
    Roomy n.pool 1 s.dev → Does (.otherIo m) s fun t => Assigned rtWrite n.pool (fun r => r.nsid = m.nsid ∧ r.slba = pktSlba c.pkt ∧
      r.nlb = pktNlb c.pkt ∧ r.mapDelta = [.bind m.nsid (pktSlba c.pkt) (pktNlb c.pkt) 0] ∧
      r.cmds = [⟨m.q, m.tag, pktSlba c.pkt, pktNlb c.pkt, 0⟩]) s.dev t.dev) ∧
  (∀ m c s, Ready.msg m [0x40, 0x41, 0x42, 0x43] c s → s.dev.ctxs = [] → m.ref = pktGos c.pkt → m.args = [0] →
    Does (.freezeGroupOperation m) s fun t => t.dev.ctxs = [] ∧
      Sent s.dev t.dev (.sch .media .completion ⟨m.q, m.tag, 0, m.nsid, [0, 0, 0], []⟩)) ∧
  (∀ m label c n s, Ready.msg m [0x48, 0x49, 0x4A, 0x52] c s → s.dev.ctxs = [] → m.nsid = pktNsid c.pkt → pktOp c.pkt = 0x48 →
    m.args = [0x48, 0, label] → s.dev.ns m.nsid = some n → s.dev.snapLimit m.nsid n = false → Roomy n.pool 1 s.dev →
    Does (.varveOperation m) s fun t => Assigned rtMap n.pool (fun r => r.mapDelta = [.snapMark m.nsid n.nextSnap label] ∧
      r.aux = n.nextSnap ∧ r.cmds = [⟨m.q, m.tag, 0, 0, 0⟩]) s.dev t.dev)

/-- The messages of the media half: a completion completes its command, a refused reference is sent anew, and the halves answer each
other's requests, steer their clocks and tell each other of faults. -/
def Obligations.MessagesOfTheMediaHalfTakeEffect : Prop :=
  (∀ m lend st res seq qu c s, Ready.completion m qu c s → m.args = [st, res, seq] → [3, 4, 7, 8].contains (pktOp c.pkt) = true →
    c.news = 0 → c.failed = none → c.warn = 0 → c.recon = 0 → (st = 0 ∨ st = 1 ∨ st = 2) → Does (.completionMessage m lend) s fun t =>
      Answered m.q m.tag st res qu c s.dev t.dev) ∧
  (∀ m run x c n s, s.dev.is (SCH_STATUS.UP .host) = true → NoMail (.sch .host) s → s.dev.waiting m [1, 6, 0x52] = some c → c.phase < 8 →
    m.args = [n] → c.chunks.find? (fun x => x.ord == n && x.isRef && x.id == m.ref && x.id != 0) = some x →
    Does (.referenceRefused m run) s fun t => t.dev.rd ING_CNT_REFS_REFUSED.COUNT = min (s.dev.rd ING_CNT_REFS_REFUSED.COUNT + 1) (2 ^ 64 - 1)) ∧
  (∀ m run plain c n sl s, s.dev.is (SCH_STATUS.UP .host) = true → NoMail (.sch .host) s → s.dev.cipherStop = none → s.dev.waiting m [2, 5, 6, 7] = some c → c.phase < 8 → m.ref ≠ 0 →
    m.args = [0x10, 0, 2] → m.data.length % 16 = 0 → tget s.dev.nss m.nsid = some n → (s.dev.slot (2 * n.tenant)).type ≠ 0 →
    s.dev.sliceFor run.slice = some sl → c.got = [] → run.cmp = .agree →
    plain = xtsDec ((s.dev.slot (2 * n.tenant)).key.take 32) ((s.dev.slot (2 * n.tenant)).key.drop 32) (leBytes 8 m.ref ++ leBytes 8 0) m.data → Does (.readPayload m run) s fun t =>
      ((t.dev.queue m.q).bind (·.cmd m.tag)).map (·.got) = some [(objKey m.ref 0, plain)]) ∧
  (∀ id req s, s.dev.linkOpen .media → NoMail (.sch .media) s → req.q = noQueue → req.args = [2] → Does (.managementRequest .media id req) s fun t =>
    Sent s.dev t.dev (.sch .media .mgmtReply ⟨noQueue, 0, id, 0, [0], leBytes 8 (s.dev.fltStatus .media + 2 ^ 32 * s.dev.frnStatus)⟩)) ∧
  (∀ half id op e data s, s.dev.is (SCH_STATUS.UP half) = true → NoMail (.sch half) s → (s.dev.schEnd half).requests.find? (fun r => r.1 == id) = some (id, .mailbox op) →
    s.dev.mbx = some (op, e) → e < 4 → Does (.managementReply half id 0 data) s fun t => t.dev.mbx = none ∧
      t.dev.is FLT_MBX_STATUS.BUSY = false ∧ t.dev.rd FLT_MBX_STATUS.RESULT = 0 ∧ t.dev.rd FLT_MBX_RESP.RESP = getLe data 0 8 ∧
      (t.dev.schEnd half).requests.find? (fun r => r.1 == id) = none) ∧
  (∀ tb seq own s, own = s.dev.ownMark seq → NoMail (.sch .media) s → s.dev.is (SCH_STATUS.UP .media) = true →
    own ≠ tb → s.dev.clocks.steered + 10000 ≤ s.dev.tbMedia → seq < 2 ^ 32 → Does (.timeMark tb seq) s fun t =>
      if own < tb then t.dev.tbMedia = s.dev.tbMedia + 1 else t.dev.tbMedia = s.dev.tbMedia ∧ t.dev.clocks.withhold = true) ∧
  (∀ half src code count time s, s.dev.is (SCH_STATUS.UP half) = true → NoMail (.sch half) s → noticeOk half src code = true → count ≠ 0 → s.dev.summaryMode half = false →
    (s.dev.led half).fresh < 4096 → (s.dev.led half).recs.length < 16384 → (∀ r ∈ (s.dev.led half).recs, r.source ≠ src) →
    Does (.faultNotice half src code count time) s fun t => ∃ r ∈ (t.dev.led half).recs, r.source = src ∧ r.code = code ∧
      r.count = min count 65535 ∧ r.first = time ∧ r.last = time)
namespace Sys2Proof.Machine

/-- A record of the pool that is not committed, void or applied meets the completion condition, and no command waits for others (R298). -/
abbrev Ready.commit (pool seq slot : Nat) (r : FRec) (s : State) : Prop :=
  s.dev.slotOf pool seq = some slot ∧ s.dev.recAt slot = some r ∧ r.pool = pool ∧ r.seq = seq ∧ r.committed = false ∧ r.applied = false ∧
    s.dev.ctxs = []

/-- The records that wait for a stripe of the pool, laid out (R305, R366), and that the pool may destage into a free slot now: its INTENT
record takes `pages` pages at most. -/
abbrev Ready.destage (pool row slot pages : Nat) (x : Pool) (y : Lay) (s : State) : Prop :=
  Roomy pool pages s.dev ∧ 8 * y.recs.length + 16 * (y.strips.length + x.k + y.maps x.stripLen) + 512 ≤ 4096 * pages ∧
  s.dev.mayDestage pool = true ∧ tget s.dev.pools pool = some x ∧ s.dev.slotFree pool row slot [] = true ∧
    y = layAll x.k x.stripLen s.dev (s.dev.destageOrder pool) { Lay.empty with unloc := (s.dev.unlocates pool).length } ∧ y.recs ≠ []

/-- A group whose GROUP_SEAL waits at the media half, all of whose members are staged; its COMMIT record takes `pages` pages at most (R324). -/
abbrev Ready.sealing (pages fn tag : Nat) (g : Group) (s : State) : Prop :=
  s.dev.liveGroup fn tag = some g ∧ g.state = .sealing ∧ (∃ b, g.sealBy = some b ∧ (s.dev.ctx b.1 b.2.1).isSome) ∧
    (∀ m ∈ g.members, m.staged = true) ∧ g.failed = false ∧ Roomed pages s.dev ∧ 16 * g.members.length + 512 ≤ 4096 * pages

end Sys2Proof.Machine

/-- Records reach their two copies and their INTENT, and destages begin, write their strips and commit. -/
def Obligations.FirnRecordsAndDestagesAdvance : Prop :=
  (∀ r s, s.dev.firn.waiting = [r] → s.dev.fitsNow r = true → r.seq ≠ 0 → r.rtype = rtWrite → Does .recordAdmitted s fun t =>
    t.dev.firn.waiting = [] ∧ t.dev.spaceWaits = false ∧ Held (fun x => x.pool = r.pool ∧ x.seq = r.seq) s.dev t.dev) ∧
  (∀ r s, s.dev.firn.waiting = [r] → s.dev.fitsNow r = true → r.seq = 0 → r.rtype = rtWrite → r.divergent = false → r.refs = [] →
    s.dev.isHome r.pool = true → Does .recordAdmitted s fun t => t.dev.firn.waiting = [] ∧
      Assigned rtWrite r.pool (fun x => x.mapDelta.length = r.mapDelta.length ∧ x.cmds = r.cmds) s.dev t.dev) ∧
  (∀ pool seq slot r s, s.dev.copyOf pool seq = some (slot, r) → s.dev.recAt slot = some r → Does (.localCopyWritten pool seq) s fun t =>
    (t.dev.recAt slot).map (·.written) = some true) ∧
  (∀ pool seq slot r s, Ready.commit pool seq slot r s → (r.rtype = rtWrite ∨ r.rtype = rtMap ∨ r.rtype = rtMark) → r.member = false →
    s.dev.meets r = true → Does (.writeCommit pool seq) s fun t => (t.dev.recAt slot).map (·.committed) = some true) ∧
  (∀ pool slot r s, s.dev.nextToApply pool = some (slot, r) → s.dev.recAt slot = some r → r.pool = pool → r.void = false → r.member = false →
    r.committed = true → s.dev.inOrder pool r.seq = true → (r.rtype = rtWrite ∨ r.rtype = rtMap ∨ r.rtype = rtMark) → s.dev.ctxs = [] →
    Does (.recordApply pool) s fun t => t.dev.appliedSeq pool = max r.seq (s.dev.appliedSeq pool)) ∧
  (∀ pool n pages x y s, Ready.destage pool (n / 128) (n % 128) pages x y s → (y.full = true ∨ s.dev.closeNow pool = true) →
    s.dev.rewriteToReplay pool = none → (∀ z ∈ s.dev.destages, z.pool = pool → z.abandoned = false) →
    Does (.destageStart pool n) s fun t => (t.dev.destage (stripeId pool (n / 128) (n % 128))).isSome ∧
      Assigned rtIntent pool (fun r => r.aux = stripeId pool (n / 128) (n % 128)) s.dev t.dev) ∧
  (∀ pool n pages x y s, Ready.destage pool (n / 128) (n % 128) pages x y s → Does (.stripeCloseTimeout pool n) s fun t =>
      (t.dev.destage (stripeId pool (n / 128) (n % 128))).isSome ∧
      Assigned rtIntent pool (fun r => r.aux = stripeId pool (n / 128) (n % 128)) s.dev t.dev) ∧
  (∀ pool stripe slot r x s, s.dev.stripeRec rtIntent stripe = some (slot, r) → s.dev.destage stripe = some x → r.pool = pool → r.seq ≠ 0 →
    x.intent = 0 → s.dev.meets r = true → Does (.intentMet pool stripe) s fun t => (t.dev.destage stripe).map (·.intent) = some r.seq) ∧
  (∀ pool stripe slot r x s, s.dev.stripeRec rtRelease stripe = some (slot, r) → s.dev.destage stripe = some x → r.pool = pool → r.seq ≠ 0 →
    r.committed = false → s.dev.meets r = true → Does (.releaseMet pool stripe) s fun t => t.dev.destage stripe = none)

/-- Freeze groups: the COMMIT record of a sealed group is formed and ends the group, a group times out, a tombstone goes, and an ABORT
record on the medium ends a discarded group. -/
def Obligations.FreezeGroupsEnd : Prop :=
  (∀ fn tag pages g s, Ready.sealing pages fn tag g s → g.linkPools = [] → Roomy g.pool pages s.dev →
    Does (.groupSealProceed fn tag) s fun t => Assigned rtCommit g.pool (fun r => r.group = tag ∧ r.gfn = fn ∧
      r.members = g.members.map fun m => (m.pool, m.seq)) s.dev t.dev) ∧
  (∀ fn tag p pages g s, Ready.sealing pages fn tag g s → g.linkPools = [p] → s.dev.linkOf g p = none → Roomy p pages s.dev →
    Does (.groupSealProceed fn tag) s fun t => Assigned rtLink p (fun r => r.group = tag ∧ r.gfn = fn) s.dev t.dev) ∧
  (∀ fn tag g slot r s, s.dev.liveGroup fn tag = some g →
    s.dev.firn.recs.find? (fun e => e.2.rtype == rtCommit && e.2.group == tag && e.2.gfn == fn && !e.2.committed) = some (slot, r) → r.seq ≠ 0 →
    s.dev.meets r = true → Does (.groupCommit fn tag) s fun t => t.dev.liveGroup fn tag = none) ∧
  (∀ fn tag g s, s.dev.liveGroup fn tag = some g → s.dev.commitAssigned g = false → Does (.groupTimeout fn tag) s fun t =>
    t.dev.liveGroup fn tag = none ∧ ∃ x ∈ t.dev.firn.tombs, x.fn = fn ∧ x.tag = tag ∧ x.status = stGroupTimeout) ∧
  (∀ fn tag s, Does (.tombstoneExpiry fn tag) s fun t =>
    t.dev.firn.tombs = s.dev.firn.tombs.filter (fun x => !(x.fn == fn && x.tag == tag))) ∧
  (∀ fn tag slot r s, s.dev.firn.recs.find? (fun e => e.2.rtype == rtAbort && e.2.group == tag && e.2.gfn == fn && !e.2.committed &&
      s.dev.meets e.2) =
    some (slot, r) → Does (.abortRecordOnMedium fn tag) s fun t =>
      ∀ g ∈ t.dev.firn.groups, g.fn = fn → g.tag = tag → g.state ≠ .discarded)

/-- A dump is ordered with its key value only, ends, and is restored; FRN_CFG takes sizes the region has room for. -/
def Obligations.DumpsAndTheRegionTakeEffect : Prop :=
  (∀ path value s, mediaWriter path = true → value % 65536 = 0x7C51 → s.dev.firn.dumping = none → Does (.frnDump path value) s fun t =>
    t.dev.firn.dumping.isSome ∧ t.dev.is FRN_STATUS.DUMPING = true ∧ t.dev.firn.waiting = []) ∧
  (∀ path value s, mediaWriter path = true → value % 65536 ≠ 0x7C51 → Does (.frnDump path value) s fun t => t = s) ∧
  (∀ slot x s, s.dev.firn.dumping = some slot → tget s.dev.firn.dumps slot = some x → (s.dev.pw .media).coldPending = false →
    Does .dumpEnd s fun t => t.dev.firn.dumping = none ∧ t.dev.is FRN_STATUS.DUMPING = false ∧
      tget t.dev.firn.dumps slot = some { x with sealed := true }) ∧
  (∀ s, s.dev.is FRN_STATUS.RESTORING = true → s.dev.ctxs = [] → Does .restoreEnd s fun t =>
    t.dev.is FRN_STATUS.RESTORING = false ∧ t.dev.firn.restoring = [] ∧ ∀ p x, tget t.dev.pools p = some x → x.online = true) ∧
  (∀ path value g a s, mediaWriter path = true → bits value 0 6 = g → bits value 8 8 = a → 4 ≤ g → g ≤ 32 → a ≤ 64 →
    4 * (a * 16384) ≤ (g * 2 ^ 30 - 2 ^ 28 - 2 ^ 26) / 4096 → s.dev.firn.recs = [] → Does (.frnCfgWrite path value) s fun t =>
      t.dev.rd FRN_CFG.REGION_GIB = g ∧ t.dev.rd FRN_CFG.A_RESERVE = a) ∧
  (∀ path value s, mediaWriter path = true → (bits value 0 6 < 4 ∨ 32 < bits value 0 6 ∨ 64 < bits value 8 8) →
    Does (.frnCfgWrite path value) s fun t => t = s.withDev (s.dev.set FRN_STATUS.CONFIG_REFUSED))
namespace Sys2Proof.Machine

/-- The home twin may work on the drives of a pool that is defined, and no context of a command waits (R408, R419). -/
abbrev Ready.pool (pool : Nat) (x : Pool) (s : State) : Prop :=
  tget s.dev.pools pool = some x ∧ s.dev.mayRegelate pool = true ∧ s.dev.ctxs = []

/-- A sending stream writes its first message, BEGIN, into the buffer that the descriptor of its ring names (R483, R484). -/
abbrev Ready.message (sid addr len sl : Nat) (st : Stream) (n : Ns) (run : SliceRun) (s : State) : Prop :=
  tget s.dev.streams sid = some st ∧ st.send = true ∧ st.detached = false ∧ st.ended = none ∧ st.began = false ∧ st.ctx = none ∧
    st.head ≠ st.tail ∧ st.seq < 2 ^ 32 ∧ s.dev.holding st.fn = false ∧ s.dev.is RIM_STATUS.ZEROIZED = false ∧ s.dev.ns st.nsid = some n ∧
    run.data = some (leBytes 8 addr ++ leBytes 4 len ++ leBytes 4 0) ∧ addr < 2 ^ 64 ∧ addr % 64 = 0 ∧ len % 4096 = 0 ∧
    2 * n.blockSize ≤ len ∧ len ≤ 2 ^ 24 + 4096 ∧ (s.dev.slot st.slot).type = 3 ∧ (s.dev.slot st.slot).exhausted = false ∧
    (s.dev.slot st.slot).left ≠ 0 ∧ s.dev.rimeBlocked = false ∧ s.dev.sliceFor run.slice = some sl ∧ run.cmps = [] ∧
  s.dev.ideClear st.fn = true

end Sys2Proof.Machine

/-- Moraine and the sequencers of Regelation: engines, absent drives, rebuild, placement, scrub and evacuation. -/
def Obligations.EnginesAndSequencersTakeEffect : Prop :=
  (∀ pool stripe engine s, engine < 16 → bit (s.dev.rd MOR_STATUS.ENG_QUAR) engine = false → stripePool stripe = pool →
    stripe ∈ s.dev.moraine → (∃ r ∈ s.dev.reads, r.stripe = stripe ∧ r.job = true) → s.dev.rd (MOR_ENG.PMISMATCH engine) < 2 → s.dev.ctxs = [] → s.dev.maint.ops = [] →
    Does (.moraineJobComplete pool stripe engine false) s fun t =>
      t.dev.rd (MOR_ENG.PMISMATCH engine) = s.dev.rd (MOR_ENG.PMISMATCH engine) + 1 ∧ t.dev.reads = s.dev.reads) ∧
  (∀ pool stripe engine x p s, engine < 16 → bit (s.dev.rd MOR_STATUS.ENG_QUAR) engine = false → stripePool stripe = pool →
    stripe ∈ s.dev.moraine → s.dev.destage stripe = some x → x.intent ≠ 0 → x.synd = false → s.dev.twin.race = none → tget s.dev.pools x.pool = some p →
    (∀ o < x.plan.k + x.plan.m, ((p.place stripe o).bind (s.dev.driveFor x.pool)).isSome) → s.dev.ctxs = [] →
    s.dev.maint.ops = [] → Does (.moraineJobComplete pool stripe engine true) s fun t =>
      (t.dev.destage stripe).map (·.synd) = some true) ∧
  (∀ path mask s, mediaWriter path = true → Does (.engRelease path mask) s fun t => ∀ n < 16,
    bit (t.dev.rd MOR_STATUS.ENG_QUAR) n = (!bit mask n && bit (s.dev.rd MOR_STATUS.ENG_QUAR) n) ∧
    (bit mask n = true → bit (s.dev.rd MOR_STATUS.ENG_QUAR) n = true → t.dev.rd (MOR_ENG.PMISMATCH n) = 0)) ∧
  (∀ pool m y s, s.dev.member pool m = some y → y.absentSince.isSome → s.dev.isHome pool = true → pool ∉ s.dev.drives.windows →
    (y.state = 1 ∨ y.state = 2) → Does (.driveAbsenceTimeout pool m) s fun t =>
      (t.dev.member pool m).map (fun y => (y.state, y.cause)) = some (4, 1)) ∧
  (∀ pool x st s, Ready.pool pool x s → s.dev.jobsOf pool < 256 → s.dev.nextRebuild pool = some st → s.dev.beyondRepair st = false →
    Does (.rebuildJobStart pool) s fun t => (tget t.dev.pools pool).map (fun x => (x.level, x.row, x.slot)) =
      some (s.dev.stripeLevel st, stripeRow st, stripeSlot st)) ∧
  (∀ pool x s, Ready.pool pool x s → x.mark ≠ (x.level, x.row) → Does (.rebuildMarkTimer pool) s fun t =>
    (tget t.dev.pools pool).map (·.mark) = some (x.level, x.row)) ∧
  (∀ pool x s, Ready.pool pool x s → x.offline = true → x.offlineRec = false → Does (.poolPlacementRetry pool) s fun t =>
    (∀ y ∈ t.dev.destages, y.pool = pool → y.abandoned = true → y.attempts < 3) ∧
    ∀ y ∈ s.dev.destages, y.pool = pool → y.abandoned = true → 3 ≤ y.attempts → { y with attempts := 2 } ∈ t.dev.destages) ∧
  (∀ pool x s, Ready.pool pool x s → s.dev.rebuildWork pool = [] → x.scrub.begun = true → x.scrub.redo = [] → x.repair = [] →
    x.scrub.onDemand = false → s.dev.nextSweep pool (x.scrub.row * 128 + x.scrub.slot) = none → Does (.scrubStripe pool) s fun t =>
      (tget t.dev.pools pool).map (fun x => (x.scrub.passes, x.scrub.begun)) = some ((x.scrub.passes + 1) % 65536, false)) ∧
  (∀ pool x st s, Ready.pool pool x s → s.dev.rebuildWork pool = [] → x.scrub.begun = true → x.scrub.redo = [] → x.repair = [] →
    s.dev.nextSweep pool (x.scrub.row * 128 + x.scrub.slot) = some st → Does (.scrubStripe pool) s fun t =>
      (tget t.dev.pools pool).map (fun x => x.scrub.row * 128 + x.scrub.slot) = some (sweepKey st + 1)) ∧
  (∀ pool x s, Ready.pool pool x s → x.scrub.begun = true → Does (.scrubLate pool) s fun t =>
    (tget t.dev.pools pool).map (·.scrub.late) = some true) ∧
  (∀ pool m k x r s, Ready.pool pool x s → x.relocs.find? (fun r => r.member == m) = some r → r.mark = some k → x.mstate m = 6 →
    s.dev.nextEvacRow pool m k = none → Does (.evacuationRowCopy pool m) s fun t => (t.dev.member pool m).map (·.state) = some 7) ∧
  (∀ pool m k row st o x r s, Ready.pool pool x s → x.relocs.find? (fun r => r.member == m) = some r → r.mark = some k → x.mstate m = 6 →
    s.dev.nextEvacRow pool m k = some row → s.dev.rowStrip pool m row = some (st, o) → s.dev.moving pool m st = false →
    (s.dev.stripe st).any (·.reserved) = false → s.dev.reads = [] → Does (.evacuationRowCopy pool m) s fun t =>
      ((tget t.dev.pools pool).bind fun y => y.relocs.find? (fun r => r.member == m)).map (·.mark) = some (some row))

/-- Varve's background work and Calving: a namespace is pruned by a MAP record, a stripe without live objects is replaced, and a stream
writes its first message. -/
def Obligations.PruningCompactionAndStreamsAdvance : Prop :=
  (∀ pool pages nsid n es s, Roomy pool pages s.dev → 64 * es.length + 512 ≤ 4096 * pages → s.dev.nss = [(nsid, n)] → n.pool = pool →
    s.dev.prunePending nsid = true → s.dev.dueDeltas = [] → s.dev.readsGone nsid n = false → es = (s.dev.prunable nsid).take pruneBatch →
    es ≠ [] → Does (.prune pool) s fun t =>
      Assigned rtMap pool (fun r => r.mapDelta = es.map fun e => .prune nsid e.1 e.2.birth) s.dev t.dev) ∧
  (∀ pool n pages st x y s, Ready.destage pool (n / 128) (n % 128) pages x y s → (y.full = true ∨ s.dev.closeNow pool = true) → s.dev.destages = [] →
    (s.dev.rebuildWork pool = [] ∨ x.full = true) → s.dev.compactNext pool = some st → s.dev.liveObjs st = [] → Does (.compaction pool n) s fun t =>
      (t.dev.destage (stripeId pool (n / 128) (n % 128))).map (·.plan.replaces) = some st) ∧
  (∀ sid addr len sl st n run s, Ready.message sid addr len sl st n run s → Does (.calveMessageWrite sid run) s fun t =>
    (∃ b, Sent s.dev t.dev (.hostWrite st.fn addr b false)) ∧
    tget t.dev.streams sid = some { st with seq := st.seq + 1, head := (st.head + 1) % st.depth, began := true })
namespace Sys2Proof.Machine

/-- The partner is watched and not declared failed: the twins pair, and this module is in service (R523, R526). -/
abbrev Ready.pair (s : State) : Prop :=
  3 ≤ s.dev.tstate ∧ s.dev.tstate ≤ 5 ∧ s.dev.twin.selfFailed = false ∧ s.dev.twin.declared = none ∧ s.dev.twin.mirrorOnly = false

/-- The partner is declared failed for a cause (R526). -/
def Declared (cause : Nat) (d d' : Dev) : Prop := d'.twin.declared = some (cause, d.tbMedia)

/-- The Snowbridge carries messages in the clear (R508, R511). -/
abbrev SnowOpen (d : Dev) : Prop := d.snow.tx.lanes ≠ [] ∧ d.snow.tx.stopped = false ∧ d.is TWN_STATUS.GCM_ON = false

/-- A record of this module that its twin refuses: the write's one context waits, with a reference the message names (R509). -/
abbrev Ready.refused (m : Msg) (slot : Nat) (r : FRec) (x : MCtx) (i : MItem) (s : State) : Prop :=
  s.dev.stillCrossing = true ∧ NoMail .snow s ∧ (tget s.dev.pools m.q).isSome ∧ m.ref = 0 ∧
    s.dev.firn.recs.find? (fun e => e.2.pool == m.q && e.2.seq == 0 && e.2.msgId == m.tag && e.2.receiver == s.dev.twinSide) = some (slot, r) ∧
    s.dev.recAt slot = some r ∧ s.dev.ctxs = [x] ∧ x.kind = .write ∧ r.cmds = [⟨x.q, x.tag, x.slba, x.nlb, 0⟩] ∧ i ∈ x.items ∧
    i.isRef = true ∧ i.ord ∈ m.args

end Sys2Proof.Machine

/-- The records of the twins: a segment is kept, a whole record becomes a mirror copy, an acknowledgement is noted, and a refused reference goes
back to its slice. -/
def Obligations.TwinRecordMessagesTakeEffect : Prop :=
  (∀ m id len s, s.dev.stillCrossing = true → NoMail .snow s → m.q < 8 → m.args = [id] → m.tag = 2 ^ 32 * len → m.data.length < 256 * len →
    Does (.record m) s fun t => tget t.dev.firn.parts id = some m.data) ∧
  (∀ m id pages r s, s.dev.stillCrossing = true → NoMail .snow s → Roomed pages s.dev → r.npage ≤ pages → s.dev.firn.locks = [] → s.dev.tstate ≠ 7 → m.q < 8 → m.args = [id] → m.data ≠ [] → m.tag = 2 ^ 32 * (m.data.length / 256) →
    m.data.length % 256 = 0 → recordOf m.data = some r → r.pool = m.q → r.seq = m.ref → m.ref ≠ 0 → (tget s.dev.pools m.q).isSome →
    s.dev.slotOf m.q m.ref = none → s.dev.ctxs = [] → Does (.record m) s fun t =>
      Held (fun x => x.pool = m.q ∧ x.seq = m.ref ∧ x.msgId = id ∧ x.mapDelta = r.mapDelta) s.dev t.dev) ∧
  (∀ m h time slot r s, s.dev.stillCrossing = true → NoMail .snow s → (tget s.dev.pools m.q).isSome → m.ref ≠ 0 → (∀ e ∈ s.dev.firn.recs, e.2.seq ≠ 0) → m.args = [h, time] →
    s.dev.slotOf m.q m.ref = some slot → s.dev.recAt slot = some r → r.hcheck = h → s.dev.ctxs = [] → Does (.ack m) s fun t =>
      (t.dev.recAt slot).map (·.ack) = some (some h)) ∧
  (∀ m slot r x i s, Ready.refused m slot r x i s → s.dev.linkOpen .media → Does (.refuse m) s fun t =>
    Sent s.dev t.dev (.sch .media .referenceRefused ⟨x.q, x.tag, i.id, x.nsid, [i.ord], []⟩))

/-- What the partner tells: ECHO, the reports, COORD, PAIR and RECON. -/
def Obligations.TwinMessagesTakeEffect : Prop :=
  (∀ m health echo s, NoMail .snow s → s.dev.twin.breaks = [] → s.dev.twin.chains = [] → m.args.getD 0 0 = health → m.args.getD 1 0 = echo →
    Does (.echo m) s fun t => t.dev.twin.partner.health = health ∧ t.dev.twin.partner.echoAt = some s.dev.tbMedia ∧
      t.dev.twin.offs.length = s.dev.twin.offs.length + b2n (echo != 0)) ∧
  (∀ source time s, Ready.pair s → NoMail .snow s → Does (.reportFaultNotice source time) s fun t => Declared 1 s.dev t.dev) ∧
  (∀ pool m y s, NoMail .snow s → s.dev.isHome pool = true → s.dev.member pool m = some y → Does (.reportPathLoss pool m) s fun t =>
    t = s.withDev (mediaEvent evMember (pool + 2 ^ 16 * m + 2 ^ 32 * y.state + 2 ^ 40 * y.cause + 2 ^ 49) s.dev)) ∧
  (∀ pool st cause synd agree y s, NoMail .snow s → Roomy pool 1 s.dev → stripePool st = pool → s.dev.stripe st = some y →
    s.dev.divergentStripe st = false → Does (.reportDivergentStripe pool st cause synd agree) s fun t =>
      t.dev.is MOR_STATUS.DIVERGENT = true ∧
      Assigned rtMap pool (fun r => r.mapDelta = [.diverge st cause synd (b2n agree) y.seq]) s.dev t.dev) ∧
  (∀ pool st x s, NoMail .snow s → s.dev.isHome pool = true → stripePool st = pool → (s.dev.stripe st).isSome → tget s.dev.pools pool = some x →
    st ∉ x.repair → x.repair.length < 4096 → Does (.reportLocatedStrip pool st) s fun t =>
      (tget t.dev.pools pool).map (·.repair) = some (x.repair ++ [st])) ∧
  (∀ m sid n base target stop s, Ready.pair s → NoMail .snow s → s.dev.ctxs = [] → s.dev.staging.store = false → s.dev.twin.act = none →
    m.args = [23, 1, sid, n, base, target, stop] → Does (.coord m) s fun t => tget t.dev.twin.pins sid = some (n, base, target, stop)) ∧
  (∀ m s, Ready.pair s → NoMail .snow s → s.dev.ctxs = [] → s.dev.staging.store = false → s.dev.twin.act = none → coordKinds.contains (m.args.headD 0) = false →
    Does (.coord m) s fun t => Declared 5 s.dev t.dev) ∧
  (∀ m s, NoMail .snow s → s.dev.tstate ≠ 2 → Does (.pair m) s fun t => t.dev.twin.peerReleased = true ∧ t.dev.twin.partner.pairId = m.args.getD 1 0 ∧
    t.dev.twin.partner.region = m.args.getD 3 0 ∧ t.dev.twin.partner.serial = m.args.getD 8 0) ∧
  (∀ m slot r s, NoMail .snow s → s.dev.tstate = 3 → (tget s.dev.pools m.q).isSome → m.args = [2] → s.dev.slotOf m.q m.ref = some slot →
    s.dev.recAt slot = some r → SnowOpen s.dev → Does (.recon m) s fun t =>
      Sent s.dev t.dev (.snow .recon ⟨m.q, 0, m.ref, 0, [3], r.bytes⟩)) ∧
  (∀ pools heads x s, NoMail .snow s → s.dev.twin.swap = some x → x.dest = s.dev.twinSide → x.pools = pools → s.dev.tstate = 5 → s.dev.ctxs = [] →
    s.dev.twin.act = none → Does (.swap pools heads) s fun t => t.dev.twin.swap = none ∧ t.dev.is TWN_STATUS.SWAP_BUSY = false ∧
      ∀ h ∈ heads, bit pools h.1 = true → (tget s.dev.pools h.1).isSome → t.dev.isHome h.1 = true)
namespace Sys2Proof.Machine

/-- A split is under way with a witness whose attempt is to go out, and the root ports serve (R533). -/
abbrev Ready.witness (w i : Nat) (v : Drive) (r : Race) (s : State) : Prop :=
  s.dev.twin.race = some r ∧ r.todo = [w] ∧ s.dev.witnessDrive w = some (i, v) ∧ Ready.submits i false 0 s ∧
    s.dev.writesOver = false

end Sys2Proof.Machine

/-- The sideband and the watch of the partner: words that arrive and go out, ECHO, and the causes for which the partner is declared failed. -/
def Obligations.PartnerIsWatched : Prop :=
  (∀ cable c s, cable ≤ 1 → (c = 1 ∨ c = 4 ∨ c = 7) → Does (.sidebandWord cable (c + 16 * (15 - c))) s fun t =>
    t.dev.rd TWN_PEER.SB_STATE = c ∧ tget t.dev.twin.sbs cable = some (c, s.dev.tbMedia)) ∧
  (∀ cable c s, Ready.pair s → cable ≤ 1 → (c = 3 ∨ c = 5) → Does (.sidebandWord cable (c + 16 * (15 - c))) s fun t => Declared 2 s.dev t.dev) ∧
  (∀ cable word s, word % 16 + word / 16 ≠ 15 → Does (.sidebandWord cable word) s fun t => t = s) ∧
  (∀ s, 2 ≤ s.dev.tstate → s.dev.tstate ≤ 5 → SnowOpen s.dev → Does .echoSend s fun t =>
    ∃ m, Sent s.dev t.dev (.snow .echo m) ∧ m.args.take 3 = [s.dev.health, s.dev.snow.rx.lastSent, s.dev.snow.rx.lastGood]) ∧
  (∀ s, Does .sidebandSend s fun t => t = s.withDev (s.dev.emit (.sideband (s.dev.sbCode + 16 * (15 - s.dev.sbCode))))) ∧
  (∀ cable s, Does (.sidebandSilent cable) s fun t => tget t.dev.twin.sbs cable = none ∧
    (∀ x, s.dev.twin.sbs = [(cable, x)] → t.dev.rd TWN_PEER.SB_STATE = 0) ∧
    (∀ x other c time, s.dev.twin.sbs = [(cable, x), (other, c, time)] → other ≠ cable → c < 16 → t.dev.rd TWN_PEER.SB_STATE = c)) ∧
  (∀ s, Ready.pair s → s.dev.twin.breaks = [] → Does .echoTimeout s fun t => Declared 6 s.dev t.dev) ∧
  (∀ pool seq slot r s, Ready.pair s → (slot, r) ∈ s.dev.firn.recs → r.pool = pool → r.seq = seq → r.receiver = s.dev.twinSide →
    r.ack = none → bit s.dev.twin.partner.health 1 = false → Does (.recordAckTimeout pool seq) s fun t => Declared 7 s.dev t.dev) ∧
  (∀ c time s, Ready.pair s → (c, time) ∈ s.dev.twin.sbWords → (3 ≤ c ∧ c ≤ 7) → s.dev.tbMedia ≤ time + 400 →
    Does .linkLossTimeout s fun t => Declared 8 s.dev t.dev) ∧
  (∀ ok s, s.dev.twin.selfCheck.isSome → s.dev.twin.selfDone = false → Does (.selfCheckEnd ok) s fun t =>
    t.dev.twin.selfDone = true ∧ t.dev.twin.selfOk = ok ∧ (ok = false → t.dev.twin.selfFailed = true))

/-- A split, the takeover and the pairing: witnesses are raced for and written, a split is lost, a registration is preempted, and the
handshake leads to PAIRED. -/
def Obligations.SplitTakeoverAndPairingAdvance : Prop :=
  (∀ w i v r s, Ready.witness w i v r s → Does .witnessRetry s fun t => (∃ data, Sent s.dev t.dev (.nvme s.dev.drives.next i false nvCompare 2 data)) ∧
    t.dev.twin.race = some { r with flying := r.flying ++ [w] }) ∧
  (∀ r s, s.dev.twin.race = some r → Does .splitTimeout s fun t => t.dev.twin.race = none ∧ t.dev.twin.bySplit = true ∧
    t.dev.twin.selfFailed = true) ∧
  (∀ x i v s, s.dev.twin.declared = some x → s.dev.twin.selfFailed = false → s.dev.witnessDrive 0 = some (i, v) →
    Ready.submits i false 0 s → s.dev.writesOver = false →
    Does .witnessTakeoverWrite s fun t =>
      Sent s.dev t.dev (.nvme s.dev.drives.next i false nvWrite 2 (witnessBytes v.lbads (s.dev.nextBlock 0 s.dev.ownState)))) ∧
  (∀ i v s, i ∈ s.dev.twin.preempt → s.dev.drive i = some v → (v.state = 4 ∨ v.state = 6) → Ready.submits i false 0 s →
    (∀ e ∈ s.dev.drives.cmds, e.2.drive = i → e.2.what ≠ .preempt) → Does (.reservationPreempt i) s fun t =>
      Sent s.dev t.dev (.nvme s.dev.drives.next i false nvAcquire 1 (leBytes 8 (s.dev.rkey s.dev.twinSide) ++ leBytes 8 (s.dev.rkey (1 - s.dev.twinSide))))) ∧
  (∀ s, s.dev.tstate = 4 → s.dev.twin.unacked = [] → s.dev.twin.mirrorOnly = true → Does .resyncEnd s fun t => t.dev.tstate = 5) ∧
  (∀ s, s.dev.tstate = 4 → s.dev.twin.unacked = [] → s.dev.twin.mirrorOnly = false → s.dev.twin.partner.mirrorOnly = true →
    bit s.dev.twin.partner.health 2 = true → s.dev.ctxs = [] → s.dev.twin.act = none → Does .resyncEnd s fun t =>
      t.dev.tstate = 5 ∧ t.dev.twin.declared = none) ∧
  (∀ s, s.dev.tstate ≤ 2 → s.dev.cableUp = true → s.dev.is FRN_STATUS.RESTORING = false → s.dev.firn.dumping = none →
    (∀ h, s.dev.is (CRP_STATUS.RELEASED h) = true) → s.dev.twin.released = false → s.dev.twin.mirrorOnly = false → s.dev.twin.race = none →
    s.dev.twin.selfFailed = false → s.dev.twin.act = none → s.dev.twin.peerReleased = false → SnowOpen s.dev → Does .pairingStart s fun t =>
      t.dev.tstate = 2 ∧ ∃ m, Sent s.dev t.dev (.snow .pair m)) ∧
  (∀ s, s.dev.tstate = 3 → s.dev.twin.reconcile ≤ 1 → Does .reconcileStepEnd s fun t => t.dev.twin.reconcile = 2 ∧ t.dev.tstate = 3) ∧
  (∀ s, s.dev.tstate = 3 → s.dev.twin.reconcile = 2 → s.dev.firn.recs = [] → s.dev.xmap.stripes = [] → Does .reconcileStepEnd s fun t =>
    t.dev.tstate = 4 ∧ t.dev.twin.reconcile = 3)
/-- The lanes, the cipher and the handshake of the Snowbridge, and the mean of its time offset. -/
def Obligations.SnowbridgeLanesAndCipherTakeEffect : Prop :=
  (∀ lane n other s, lane ∈ s.dev.snow.rx.lanes → other ∈ s.dev.snow.rx.lanes → other ≠ lane → Does (.snowbridgeLaneLost lane n) s fun t =>
    lane ∉ t.dev.snow.rx.lanes ∧ lane ∈ t.dev.snow.rx.lost) ∧
  (∀ lane s, s.dev.is TWN_CFG.AUTO_RETRAIN = true → lane ∈ s.dev.snow.rx.lost → bit (s.dev.rd TWN_LANES.PARKED) lane = false →
    Does (.laneAutoRetrain lane) s fun t => lane ∈ t.dev.snow.rx.lanes ∧ lane ∉ t.dev.snow.rx.lost) ∧
  (∀ path value s, mediaWriter path = true → s.dev.twinSide = 0 → s.dev.tstate ≠ 5 → Does (.linkGcmWrite path value) s fun t =>
    t.dev.rd TWN_CFG.LINK_GCM = value % 2) ∧
  (∀ path value s, s.dev.twinSide ≠ 0 → Does (.linkGcmWrite path value) s fun t => t = s) ∧
  (∀ path s, mediaWriter path = true → Does (.twnLaneRetry path) s fun t => t.dev.rd TWN_LANES.PARKED = 0 ∧ t.dev.twin.laneLosses = [] ∧
    t.dev.snow.rx.retraining = s.dev.snow.rx.lost) ∧
  (∀ path s, mediaWriter path = true → s.dev.twin.released = true → s.dev.tstate = 2 → s.dev.twin.peerReleased = false → SnowOpen s.dev →
    Does (.rejoin path) s fun t => t.dev.twin.released = false ∧ ∃ m, Sent s.dev t.dev (.snow .pair m)) ∧
  (∀ s, s.dev.twin.offs ≠ [] → Does .tbOffsetUpdate s fun t => t.dev.twin.offs = [] ∧
    t.dev.rd TWN_TB_OFFSET.OFFSET = toBits 64 (s.dev.twin.offs.foldl (· + ·) 0 / (s.dev.twin.offs.length : Int)))

/-- The drain of a swap and of an activation ends, and an activation ends with the new image or with the old one. -/
def Obligations.SwapDrainAndActivationEnd : Prop :=
  (∀ x s, s.dev.twin.swap = some x → x.dest ≠ s.dev.twinSide → s.dev.ctxs = [] → Does .swapDrainEnd s fun t =>
    t.dev.twin.swap = some { x with hold := true }) ∧
  (∀ a s, s.dev.twin.swap = none → s.dev.twin.act = some a → a.step = 1 → a.solo = true → Does .swapDrainEnd s fun t => t.dev.tstate = 7 ∧
    t.dev.twin.act = some { a with step := 2, at2 := s.dev.tbMedia }) ∧
  (∀ a bank s, s.dev.twin.act = some a → a.step = 2 → a.solo = true → a.plain = false → bank = 1 - a.oldBank → s.dev.ctxs = [] →
    Does .activationResume s fun t => t.dev.twin.act = none ∧ t.dev.image.bank = bank ∧ t.flash = programState s.flash bank 0 ∧
      t.fuses = { s.fuses with svn := max s.fuses.svn (koSvn (bankHeader s.flash bank)) }) ∧
  (∀ a s, s.dev.twin.act = some a → a.step = 2 → a.plain = false → Does .activationFallback s fun t => t.dev.twin.act = none ∧
    t.dev.image.bank = a.oldBank ∧ t.flash = programState s.flash (1 - a.oldBank) 1 ∧ t.fuses = s.fuses)
namespace Sys2Proof.Machine

/-- A link in L0 or L0p whose power management is enabled, with no class A queue pair that holds it there (R592, R593). -/
abbrev Ready.power (ep : Nat) (s : State) : Prop :=
  (s.dev.rd (EPX_LINK.STATE ep) = 1 ∨ s.dev.rd (EPX_LINK.STATE ep) = 2) ∧ s.dev.classAHold ep = false

/-- A fetched command of a queue still needs host memory, and is answered when its request fails (R578). -/
abbrev Ready.unread (q tag : Nat) (qu : Queue) (c : Cmd) (s : State) : Prop :=
  s.dev.queue q = some qu ∧ qu.cmd tag = some c ∧ c.unread = true ∧ s.dev.ctxs = []

end Sys2Proof.Machine

/-- Links and resets of the endpoints: training, endpoint resets, Bus Master Enable, virtual functions, function-level resets, D3hot and D0. -/
def Obligations.EndpointLinksAndResetsTakeEffect : Prop :=
  (∀ ep width speed flit s, ep < 4 → [1, 2, 4, 8, 16].contains width = true → 1 ≤ speed → speed ≤ 6 → (s.dev.ep ep).perst = false →
    (s.dev.pw .host).held = false → s.dev.rd (CRP_STATUS.STAGE .host) ≠ 0 → Does (.endpointLinkUp ep width speed flit) s fun t =>
      t.dev.rd (EPX_LINK.STATE ep) = 1 ∧ t.dev.rd (EPX_LINK.WIDTH ep) = width ∧ t.dev.rd (EPX_LINK.SPEED ep) = speed ∧
      t.dev.rd (EPX_LINK.L0P_TX ep) = width ∧ t.dev.rd (EPX_LINK.L0P_RX ep) = width ∧ t.dev.is (EPX_LINK.FLIT ep) = (flit || speed == 6)) ∧
  (∀ ep perst s, ep < 4 → s.dev.ctxs = [] → Does (.endpointReset ep perst) s fun t => t.dev.rd (EPX_LINK.STATE ep) = 0 ∧
    (t.dev.fn (256 * ep)).flr = true ∧ t.dev.is (CFG.BME (256 * ep)) = false ∧ (perst = true → (t.dev.ep ep).perst = true)) ∧
  (∀ fn s, s.dev.fnExists fn = true → s.dev.ctxs = [] → Does (.busMasterEnableClear fn) s fun t => t.dev.is (CFG.BME fn) = false) ∧
  (∀ fn s, s.dev.fnExists fn = true → s.dev.ctxs = [] → Does (.busMasterEnableSet fn) s fun t => t.dev.is (CFG.BME fn) = true) ∧
  (∀ ep s, Does (.vfEnableSet ep) s fun t => t.dev.is (CFG.VF_EN (256 * ep)) = true) ∧
  (∀ ep s, ep < 4 → s.dev.is (CFG.VF_EN (256 * ep)) = true → s.dev.ctxs = [] → Does (.vfEnableClear ep) s fun t =>
    t.dev.is (CFG.VF_EN (256 * ep)) = false ∧ ∀ v ∈ s.dev.vfs ep, (t.dev.fn v).flr = true) ∧
  (∀ fn s, s.dev.fnExists fn = true → fn < 1024 → (s.dev.fn fn).flr = false → s.dev.ctxs = [] → Does (.functionLevelReset fn) s fun t =>
    (t.dev.fn fn).flr = true ∧ t.dev.is (CFG.BME fn) = false) ∧
  (∀ fn s, (∀ e ∈ s.dev.rings.queues, e.2.fn ≠ fn) → s.dev.ctxs = [] →
    (∀ ch ∈ floChansOf fn, s.dev.floState .host ch = floIdle) → Does (.flrComplete fn) s fun t => (t.dev.fn fn).flr = false) ∧
  (∀ fn s, isPf fn = true → (s.dev.fn fn).d3 = false → (s.dev.ep (epOf fn)).perst = false → s.dev.ctxs = [] → Does (.d3hotEntry fn) s fun t =>
    (t.dev.fn fn).d3 = true ∧ t.dev.rd (CFG.POWER fn) = 3) ∧
  (∀ fn s, (s.dev.fn fn).d3 = true → s.dev.ctxs = [] → Does (.d0Return fn) s fun t =>
    (t.dev.fn fn).d3 = false ∧ t.dev.rd (CFG.POWER fn) = 0)

/-- Vectors, errors and link power of the endpoints: the MSI-X table, request errors, poisoned writes and IDE, and L1 and L0p. -/
def Obligations.EndpointEventsTakeEffect : Prop :=
  (∀ fn v i value s, s.dev.decodes fn = true → v < vectorCount fn → i < 4 → Does (.msixEntryWrite fn (16 * v + 4 * i) 4 value) s fun t =>
    (t.dev.fn fn).vec v = ((s.dev.fn fn).vec v).put i (value % 2 ^ 32)) ∧
  (∀ fn v s, s.dev.decodes fn = true → v < vectorCount fn → (s.dev.fn fn).pend.contains v = true → s.dev.is (CFG.MSIX_EN fn) = true →
    s.dev.is (CFG.MSIX_MASK fn) = false → s.dev.holding fn = false → s.dev.ideClear fn = true → Does (.vectorUnmask fn v) s fun t =>
      ((t.dev.fn fn).vec v).masked = false ∧ (t.dev.fn fn).pend.contains v = false ∧
      Sent s.dev t.dev (.msi fn v ((s.dev.fn fn).vec v).addr ((s.dev.fn fn).vec v).data)) ∧
  (∀ fn q tag qu c s, Ready.unread q tag qu c s → Does (.completionTimeout fn (.dataRead q tag)) s fun t => Gone q tag t.dev ∧
    t.dev.rd (EPX_CNT_CPL_TIMEOUT.COUNT (epOf fn)) = min (s.dev.rd (EPX_CNT_CPL_TIMEOUT.COUNT (epOf fn)) + 1) (2 ^ 64 - 1)) ∧
  (∀ fn q tag poisoned qu c s, Ready.unread q tag qu c s → Does (.requestError fn (.dataRead q tag) poisoned) s fun t => Gone q tag t.dev ∧
    t.dev.rd (EPX_CNT_POISONED.COUNT (epOf fn)) = if poisoned then min (s.dev.rd (EPX_CNT_POISONED.COUNT (epOf fn)) + 1) (2 ^ 64 - 1)
      else s.dev.rd (EPX_CNT_POISONED.COUNT (epOf fn))) ∧
  (∀ fn s, s.dev.fnExists fn = true → Does (.poisonedWrite fn) s fun t =>
    bit (t.dev.rd (CFG.AER_UNC fn)) aerPoisoned = true ∧
    t.dev.rd (EPX_CNT_POISONED.COUNT (epOf fn)) = min (s.dev.rd (EPX_CNT_POISONED.COUNT (epOf fn)) + 1) (2 ^ 64 - 1)) ∧
  (∀ ep stream s, ep < 4 → stream < 8 → Does (.ideCheckFailed ep stream) s fun t =>
    (tget (t.dev.ep ep).ide stream).map (·.secure) = some false ∧ bit (t.dev.rd (CFG.AER_UNC (256 * ep))) aerIde = true) ∧
  (∀ ep s, Ready.power ep s → s.dev.rd (EPX_PM_CFG.L1_IDLE ep) ≠ 0 → bit (s.dev.rd (CFG.ASPM (256 * ep))) 1 = true →
    Does (.l1Request ep 0) s fun t => t.dev.rd (EPX_LINK.STATE ep) = 3) ∧
  (∀ ep tx w s, Ready.power ep s → s.dev.is (EPX_LINK.FLIT ep) = true → s.dev.rd (EPX_PM_CFG.L0P_IDLE ep) ≠ 0 →
    w = s.dev.rd (l0pField ep tx) / 2 → w < 32 → 2 ^ (s.dev.rd (EPX_PM_CFG.L0P_MIN ep) + 1) ≤ w → Does (.l0pNarrow ep tx) s fun t =>
      t.dev.rd (l0pField ep tx) = w ∧ t.dev.rd (EPX_LINK.STATE ep) = 2) ∧
  (∀ ep tx s, s.dev.rd (EPX_LINK.STATE ep) = 2 → s.dev.rd (EPX_LINK.WIDTH ep) < 32 → Does (.l0pWiden ep tx) s fun t =>
    t.dev.rd (l0pField ep tx) = s.dev.rd (EPX_LINK.WIDTH ep))
namespace Sys2Proof.Machine

/-- A drive whose facts meet every requirement of R606 and that carries no configuration block. -/
abbrev Ready.drive (i : Nat) (v : Drive) (f : DriveFacts) (s : State) : Prop :=
  s.dev.drive i = some v ∧ v.state = 1 ∧ factsReason f = 0 ∧ f.block = none ∧ s.dev.ctxs = []

/-- An NVMe command is outstanding at a drive of the table. -/
abbrev Ready.nvme (cid : Nat) (c : DrvCmd) (v : Drive) (s : State) : Prop :=
  tget s.dev.drives.cmds cid = some c ∧ s.dev.drive c.drive = some v ∧ s.dev.ctxs = [] ∧ s.dev.maint.ops = [] ∧
    cid < s.dev.drives.next ∧ cid ∉ s.dev.drives.queued

end Sys2Proof.Machine

/-- The drive table: a drive is found, becomes ready or unusable, and is removed; a start-up window ends, and a root port is bifurcated. -/
def Obligations.DrivesComeAndGo : Prop :=
  (∀ port sub speed width path s, port < 8 → sub < s.dev.subLinks port → path.length ≤ 2 → s.dev.drives.table.length < 128 →
    Does (.driveInserted port ⟨sub, path⟩ speed width) s fun t => ∃ i v, i < 1024 ∧ (∀ u, s.dev.drive i = some u → u.state = 0) ∧
      t.dev.drive i = some v ∧ v.state = 1 ∧ v.port = port ∧ v.sub = sub ∧ v.speed = speed ∧ v.width = width ∧ v.path = path) ∧
  (∀ i v f s, Ready.drive i v f s → Does (.driveReady i f) s fun t => (t.dev.drive i).map (fun v => (v.state, v.nguid, v.lbads, v.blocks)) =
    some (3, f.nguid, f.lbads, f.blocks)) ∧
  (∀ i v f s, s.dev.drive i = some v → v.state = 1 → factsReason f ≠ 0 → s.dev.ctxs = [] → Does (.driveReady i f) s fun t =>
    (t.dev.drive i).map (fun v => (v.state, v.reason)) = some (2, factsReason f)) ∧
  (∀ i v s, s.dev.drive i = some v → v.state = 1 → Does (.driveReadyTimeout i) s fun t =>
    (t.dev.drive i).map (fun v => (v.state, v.reason)) = some (2, 7) ∧ t.dev.is DRV_STATUS.UNUSABLE = true) ∧
  (∀ i v s, s.dev.drive i = some v → v.state = 3 → (∀ e ∈ s.dev.drives.cmds, e.2.drive ≠ i) → s.dev.ctxs = [] → Does (.driveRemoved i) s fun t =>
    (t.dev.drive i).map (·.state) = some 0) ∧
  (∀ pool x s, pool ∈ s.dev.drives.windows → tget s.dev.pools pool = some x → Does (.enumWindowExpiry pool) s fun t =>
    pool ∉ t.dev.drives.windows ∧ ∀ m y, t.dev.member pool m = some y → y.drive = none → y.state ≠ 0 → y.state ≠ 4 →
      y.absentSince = some s.dev.tbMedia) ∧
  (∀ path value s, mediaWriter path = true → (∀ e ∈ s.dev.drives.table, e.2.state ≠ 4 ∧ e.2.state ≠ 6) →
    Does (.drvPortCfgWrite path value) s fun t => ∀ p < 8, t.dev.rd (DRV_PORT_CFG.BIF p) = bits value (2 * p) 2 ∧
      (bits value (2 * p) 2 ≠ s.dev.rd (DRV_PORT_CFG.BIF p) → Sent s.dev t.dev (.retrain p)))

/-- The NVMe commands of drives: success, Namespace Not Ready, time-outs with Abort and controller reset, and the hedge of a read. -/
def Obligations.DriveCommandsEnd : Prop :=
  (∀ cid c v s, Ready.nvme cid c v s → c.what = .preempt → Does (.nvmeCompletion cid 0 0 []) s fun t =>
    tget t.dev.drives.cmds cid = none ∧ c.drive ∉ t.dev.twin.preempt ∧
    (t.dev.drive c.drive).map (·.keys) = some (v.keys.filter fun k => k != s.dev.rkey (1 - s.dev.twinSide))) ∧
  (∀ cid c v data s, Ready.nvme cid c v s → cid ∉ s.dev.drives.retry → Does (.nvmeCompletion cid 0 0x82 data) s fun t =>
    tget t.dev.drives.cmds cid = some c ∧ cid ∈ t.dev.drives.retry) ∧
  (∀ cid c v s, Ready.nvme cid c v s → cid ∈ s.dev.drives.retry → s.dev.portsHalted = false → Does (.namespaceNotReadyRetry cid) s fun t =>
    cid ∉ t.dev.drives.retry ∧ Sent s.dev t.dev (.nvme cid c.drive c.admin c.op c.lba c.data)) ∧
  (∀ cid c v s, Ready.nvme cid c v s → c.what = .dsm → c.abortAt = none → s.dev.boundTo c.drive = none → v.aborts < v.abortLimit →
    Ready.submits c.drive true c.cls s → Does (.nvmeCommandTimeout cid) s fun t => (tget t.dev.drives.cmds cid).map (·.abortAt) = some (some s.dev.tbMedia) ∧
      Sent s.dev t.dev (.nvme s.dev.drives.next c.drive true nvAbort cid [])) ∧
  (∀ cid c v old s, Ready.nvme cid c v s → c.what = .abort old → Does (.abortTimeout cid) s fun t =>
    Sent s.dev t.dev (.ctrlReset c.drive) ∧ tget t.dev.drives.cmds cid = none) ∧
  (∀ cid c v id o s, Ready.nvme cid c v s → c.what = .stripRead id o → c.hedged = false → s.dev.rd DRV_CFG.READ_HEDGE ≠ 0 →
    s.dev.sread id = none → Does (.readHedgeTimeout cid) s fun t =>
      (tget t.dev.drives.cmds cid).map (·.hedged) = some true ∧
      t.dev.rd DRV_CNT_HEDGED.COUNT = min (s.dev.rd DRV_CNT_HEDGED.COUNT + 1) (2 ^ 64 - 1))
namespace Sys2Proof.Machine

/-- A path drives a channel of a half: the PF that owns it, or the half's I3C port (R640, R778). -/
abbrev Ready.drives (path : Path) (h : Half) (ch : Nat) : Prop := floHalf path = some h ∧ floMayDrive path ch = true ∧ ch < 128

end Sys2Proof.Machine

/-- The commands of a Floe channel, of its request lines and of its events. -/
def Obligations.FloeChannelCommandsTakeEffect : Prop :=
  (∀ path h ch s, Ready.drives path h ch → s.dev.floState h ch = floIdle → s.dev.floMayIssue h ch = true → Does (.kick path ch) s fun t =>
    t.dev.floState h ch = floRun ∧ (t.dev.chan h ch).await = some .desc ∧ (t.dev.chan h ch).issued = true) ∧
  (∀ path h ch s, Ready.drives path h ch → s.dev.floState h ch = floIdle → s.dev.floMayIssue h ch = false → Does (.kick path ch) s fun t =>
    t.dev.floState h ch = floPaused ∧ t.dev.rd (FLO_CH_STATUS.PAUSE_SRC h ch) = 2) ∧
  (∀ path h ch s, Ready.drives path h ch → s.dev.floState h ch ≠ floIdle → Does (.kick path ch) s fun t =>
    t = s.withDev (s.dev.set (FLO_CH_STATUS.KICK_PEND h ch))) ∧
  (∀ path h ch s, Ready.drives path h ch → (s.dev.floState h ch = floRun ∨ s.dev.floState h ch = floWait) → Does (.pause path ch) s fun t =>
    t.dev.floState h ch = (if (s.dev.chan h ch).bursts.isEmpty && !(s.dev.chan h ch).issued then floPaused else floPausing) ∧
    bit (t.dev.rd (FLO_CH_STATUS.PAUSE_SRC h ch)) 0 = true) ∧
  (∀ path h ch s, Ready.drives path h ch → s.dev.floState h ch = floPaused → s.dev.rd (FLO_CH_STATUS.PAUSE_SRC h ch) = 1 →
    (s.dev.chan h ch).begun = false → (s.dev.chan h ch).await = some .fetch → s.dev.floMayIssue h ch = true →
    Does (.resume path ch) s fun t => t.dev.floState h ch = floRun ∧ (t.dev.chan h ch).await = some .fetch ∧ (t.dev.chan h ch).issued = true) ∧
  (∀ path h ch s, Ready.drives path h ch → s.dev.floState h ch ≠ floIdle → s.dev.floState h ch ≠ floAborting → Does (.abort path ch) s fun t =>
    t.dev.floState h ch = floAborting ∧ (t.dev.chan h ch).begun = false) ∧
  (∀ h ch s, s.dev.floState h ch = floPausing → (s.dev.chan h ch).bursts = [] → (s.dev.chan h ch).issued = false →
    Does (.channelPaused h ch) s fun t => t.dev.floState h ch = floPaused) ∧
  (∀ h ch s, s.dev.floState h ch = floAborting → Does (.abortDrained h ch) s fun t => t.dev.floState h ch = floIdle ∧
    t.dev.rd (FLO_CH_STATUS.PAUSE_SRC h ch) = 0) ∧
  (∀ h l s, l < 32 → s.dev.lineCount h l < 255 → (∀ ch < 128, s.dev.waitsLine h ch l = false) → Does (.floSwreq (.i3c h) l) s fun t =>
    t.dev.lineCount h l = s.dev.lineCount h l + 1) ∧
  (∀ h value s, (∀ ch k, s.dev.waitsEvent h ch k = false) → Does (.floEventSet (.i3c h) value) s fun t => ∀ k < 64,
    bit (t.dev.rd (FLO_EVENT.FLAGS h)) k = (bit value k || bit (s.dev.rd (FLO_EVENT.FLAGS h)) k)) ∧
  (∀ h value s, Does (.floEventClr (.i3c h) value) s fun t => ∀ k < 64,
    bit (t.dev.rd (FLO_EVENT.FLAGS h)) k = (!bit value k && bit (s.dev.rd (FLO_EVENT.FLAGS h)) k)) ∧
  (∀ path h ch value s, Ready.drives path h ch → s.dev.floState h ch = floIdle → bits value 16 12 ≠ 0 → value < 2 ^ 32 →
    Does (.floChConfigWrite path (128 * ch + 0x18) 4 value) s fun t =>
      t.dev.rd (FLO_CH_HEAD.DEPTH_M1 h ch) = bits value 16 12 ∧ t.dev.rd (FLO_CH_HEAD.HEAD h ch) = 0) ∧
  (∀ path h ch value s, Ready.drives path h ch → s.dev.floState h ch ≠ floIdle → Does (.floChConfigWrite path (128 * ch + 0x18) 4 value) s fun t =>
    t = s.withDev (s.dev.set (FLO_CH_STATUS.CFG_REFUSED h ch)))
namespace Sys2Proof.Machine

/-- A running channel that may issue receives the instruction it fetched, whose opcode is `opc` (R650). -/
abbrev Ready.instr (h : Half) (ch opc : Nat) (i : Bytes) (s : State) : Prop :=
  takesInstr s.dev h ch = true ∧ s.dev.floState h ch = floRun ∧ s.dev.floMayIssue h ch = true ∧ i.length = 32 ∧ getLe i 0 1 = opc

/-- The channel's program goes on at an address: the instruction there is fetched. -/
def GoesOn (h : Half) (ch pc : Nat) (d : Dev) : Prop :=
  d.rd (FLO_CH_PC.PC h ch) = pc % 2 ^ 64 ∧ d.floState h ch = floRun ∧ (d.chan h ch).await = some .fetch ∧ (d.chan h ch).issued = true

/-- The descriptor at HEAD is done (R647): HEAD steps, and the channel stops after it or reads the next one. -/
def DescDone (h : Half) (ch : Nat) (d d' : Dev) : Prop :=
  d'.rd (FLO_CH_HEAD.HEAD h ch) = (if d.rd (FLO_CH_HEAD.HEAD h ch) = d.rd (FLO_CH_HEAD.DEPTH_M1 h ch) then 0
    else (d.rd (FLO_CH_HEAD.HEAD h ch) + 1) % 2 ^ 12) ∧
  if bit (d.chan h ch).dstat 2 then d'.floState h ch = floIdle
  else d'.floState h ch = floRun ∧ (d'.chan h ch).await = some .desc

end Sys2Proof.Machine

/-- A Floe program: the descriptor is read, and MOVE, LOOP, WAIT, SIGNAL and END have their effect; bursts are granted, and errors and time-outs
halt the channel. -/
def Obligations.FloeProgramsRun : Prop :=
  (∀ h ch desc s, (s.dev.chan h ch).await = some .desc → (s.dev.chan h ch).issued = true → s.dev.floState h ch = floRun →
    s.dev.floMayIssue h ch = true → bit (getLe desc 0 8) 0 = true → Does (.descriptorRead h ch desc) s fun t =>
      GoesOn h ch (getLe desc 8 8) t.dev ∧ t.dev.rd (FLO_CH_MOVED.MOVED h ch) = 0 ∧ (t.dev.chan h ch).prog = getLe desc 8 8) ∧
  (∀ h ch i s, Ready.instr h ch 1 i s → moveCause h ch i = 0 → moveCont i = false → movePace i = false → Does (.move h ch (.instr i)) s fun t =>
    (t.dev.chan h ch).begun = true ∧ (t.dev.chan h ch).unread = getLe i 4 4 ∧ t.dev.rd (FLO_CH_SRC.SRC h ch) = getLe i 8 8 ∧
    t.dev.rd (FLO_CH_DST.DST h ch) = getLe i 16 8 ∧ t.dev.rd (FLO_CH_REMAIN.REMAIN h ch) = getLe i 4 4) ∧
  (∀ h ch opc i s, Ready.instr h ch opc i s → (opc = 0 ∨ 5 < opc) → Does (.move h ch (.instr i)) s fun t =>
    t.dev.floState h ch = floHalted ∧ t.dev.rd (FLO_CH_STATUS.CAUSE h ch) = 3) ∧
  (∀ h ch i f s, Ready.instr h ch 2 i s → loopCause (s.dev.chan h ch).prog (s.dev.rd (FLO_CH_PC.PC h ch)) i = 0 →
    f = (if bit (getLe i 1 1) 0 then FLO_CH_LOOP.LC1 h ch else FLO_CH_LOOP.LC0 h ch) → 1 < s.dev.rd f → s.dev.rd f < 2 ^ 16 →
    Does (.loop h ch i) s fun t => t.dev.rd f = s.dev.rd f - 1 ∧
      GoesOn h ch (s.dev.rd (FLO_CH_PC.PC h ch) - 32 * getLe i 4 2) t.dev) ∧
  (∀ h ch i s, Ready.instr h ch 3 i s → waitCause h ch i = 0 → bit (getLe i 1 1) 0 = true →
    bit (s.dev.rd (FLO_EVENT.FLAGS h)) (getLe i 2 1) = true → Does (.wait h ch i) s fun t =>
      GoesOn h ch (s.dev.rd (FLO_CH_PC.PC h ch) + 32) t.dev ∧ bit (t.dev.rd (FLO_EVENT.FLAGS h)) (getLe i 2 1) = false) ∧
  (∀ h ch i s, Ready.instr h ch 3 i s → waitCause h ch i = 0 → bit (getLe i 1 1) 0 = true →
    bit (s.dev.rd (FLO_EVENT.FLAGS h)) (getLe i 2 1) = false → Does (.wait h ch i) s fun t =>
      t.dev.floState h ch = floWait ∧ (t.dev.chan h ch).begun = true ∧ (t.dev.chan h ch).since = s.dev.now h) ∧
  (∀ h ch i k s, Ready.instr h ch 4 i s → signalCause h ch i = 0 → (s.dev.chan h ch).unresponded = false → getLe i 1 1 = 1 → getLe i 2 1 = k →
    (∀ c, s.dev.waitsEvent h c k = false) → Does (.signal h ch i) s fun t =>
      GoesOn h ch (s.dev.rd (FLO_CH_PC.PC h ch) + 32) t.dev ∧ bit (t.dev.rd (FLO_EVENT.FLAGS h)) k = true) ∧
  (∀ h ch i s, Ready.instr h ch 5 i s → zeroFrom i 1 = true → (s.dev.chan h ch).unresponded = false → (floOwner h ch).isSome →
    Does (.endInstr h ch i) s fun t => DescDone h ch s.dev t.dev) ∧
  (∀ h ch i s, Ready.instr h ch 5 i s → zeroFrom i 1 = true → (s.dev.chan h ch).unresponded = false → floOwner h ch = none →
    Does (.endInstr h ch i) s fun t => (t.dev.chan h ch).await = some .moved ∧ (t.dev.chan h ch).issued = true) ∧
  (∀ h ch s, (∀ w ∈ s.dev.floe.regWrites, w.1 ≠ h) → (s.dev.chan h ch).await = some .response → (s.dev.chan h ch).issued = true → s.dev.floState h ch = floRun →
    s.dev.floMayIssue h ch = true → getLe (s.dev.chan h ch).instr 0 1 = 5 → (floOwner h ch).isSome → Does (.writeResponse h ch) s fun t =>
      DescDone h ch s.dev t.dev ∧ (t.dev.chan h ch).unresponded = false) ∧
  (∀ h ch s, (∀ w ∈ s.dev.floe.regWrites, w.1 ≠ h) → (s.dev.chan h ch).await = some .dstat → (s.dev.chan h ch).issued = true → s.dev.floState h ch = floRun →
    Does (.writeResponse h ch) s fun t => DescDone h ch s.dev t.dev) ∧
  (∀ h ch n s, s.dev.floGrant h = some ch → movePace (s.dev.chan h ch).instr = false → moveSrcSpace (s.dev.chan h ch).instr ≠ 7 →
    n = min (s.dev.chan h ch).unread (moveBurst (s.dev.chan h ch).instr) → Does (.floeBurstGrant h) s fun t =>
      (t.dev.chan h ch).unread = (s.dev.chan h ch).unread - n ∧ (∃ a, (t.dev.chan h ch).bursts = (s.dev.chan h ch).bursts ++ [(a, n)]) ∧
      tget t.dev.floe.last (halfNum h) = some ch) ∧
  (∀ h ch s, (s.dev.chan h ch).issued = true → (s.dev.chan h ch).begun = false → (s.dev.chan h ch).failed = none →
    s.dev.floState h ch = floRun → s.dev.floMayIssue h ch = true → (s.dev.chan h ch).left ≠ 0 → Does (.busError h ch) s fun t => (t.dev.chan h ch).left = (s.dev.chan h ch).left - 1 ∧
      t.dev.floState h ch = floRun) ∧
  (∀ h ch s, (s.dev.chan h ch).issued = true → (s.dev.chan h ch).begun = false → (s.dev.chan h ch).failed = none →
    s.dev.floState h ch = floRun → (s.dev.chan h ch).left = 0 → (s.dev.chan h ch).await = some .fetch → Does (.busError h ch) s fun t =>
      t.dev.floState h ch = floHalted ∧ t.dev.rd (FLO_CH_STATUS.CAUSE h ch) = 2) ∧
  (∀ h ch s, s.dev.floState h ch = floWait → (s.dev.chan h ch).begun = true → getLe (s.dev.chan h ch).instr 0 1 = 3 →
    bit (getLe (s.dev.chan h ch).instr 1 1) 1 = true → Does (.waitTimeout h ch) s fun t =>
      t.dev.floState h ch = floHalted ∧ t.dev.rd (FLO_CH_STATUS.CAUSE h ch) = 5)
namespace Sys2Proof.Machine

/-- The gauge wrote one record with a reason, into the slot of its sequence number (R705). -/
abbrev Logged (reason : Nat) (d t : Dev) : Prop :=
  t.gauge.gseq = d.gauge.gseq + 1 ∧ ∃ r, tget t.gauge.eeprom (d.gauge.gseq % 128) = some r ∧ recordValid r = true ∧
    getLe r 5 1 = reason ∧ getLe r 8 4 = d.gauge.gseq % 2 ^ 32

/-- The remaining charge in units of 0.1 mA × 1 ms after a window of that current, before its limits (R686). -/
abbrev chargeAfter (current : Int) (d : Dev) : Int := (d.rd HLD_CHARGE.Q_REM : Int) * 36000 + d.gauge.fine - current

/-- A rest-point voltage that lies in the table and above 6.0 V (R690, R702). -/
abbrev Ready.rest (mv soc : Nat) (s : State) : Prop :=
  socOf s.dev.ocvTable mv = some soc ∧ 6000 ≤ mv ∧ 2 * s.dev.rd HLD_CHARGE.Q_FULL < 2 ^ 32

end Sys2Proof.Machine

/-- What the gauge measures: the windows of the converter, its offset, the temperature, the charge after a gap and at a rest point. -/
def Obligations.GaugeMeasuresThePack : Prop :=
  (∀ current mv s, mv < 2 ^ 16 → -2 ^ 23 ≤ current → current < 2 ^ 23 → s.dev.gauge.zeroing = false → s.dev.gauge.absent = false →
    (∀ x ∈ s.dev.gauge.steps, x.1 ≠ 0) → s.dev.rd HLD_CHARGE.Q_FULL < 2 ^ 32 → Does (.converterWindow current mv) s fun t =>
      t.dev.rd HLD_MEAS.VPACK = mv ∧ ofBits 24 (t.dev.rd HLD_MEAS.IPACK) = current ∧
      (0 ≤ chargeAfter current s.dev → chargeAfter current s.dev ≤ 36000 * (s.dev.rd HLD_CHARGE.Q_FULL : Int) →
        (t.dev.rd HLD_CHARGE.Q_REM : Int) * 36000 + t.dev.gauge.fine = chargeAfter current s.dev) ∧
      (chargeAfter current s.dev < 0 → t.dev.rd HLD_CHARGE.Q_REM = 0) ∧
      (36000 * (s.dev.rd HLD_CHARGE.Q_FULL : Int) < chargeAfter current s.dev →
        t.dev.rd HLD_CHARGE.Q_REM = s.dev.rd HLD_CHARGE.Q_FULL)) ∧
  (∀ offset s, offset.natAbs ≤ 20 → Does (.offsetZeroing offset) s fun t => t.dev.gauge.zeroing = true ∧ t.dev.regs = s.dev.regs) ∧
  (∀ offset s, 20 < offset.natAbs → Does (.offsetZeroing offset) s fun t => t.dev.rd HLD_STATUS.FAULT = 1 ∧
    t.dev.rd HLD_STATUS.FAULT_CAUSE = 7 ∧ 7 ∈ t.dev.gauge.faults) ∧
  (∀ temp s, -2048 ≤ temp → temp < 2048 → Does (.temperatureSample temp) s fun t => t.dev.packTemp = temp ∧
    t.dev.gauge.tMin = min s.dev.gauge.tMin temp ∧ t.dev.gauge.tMax = max s.dev.gauge.tMax temp) ∧
  (∀ temp s, s.dev.gauge.outside = false → (temp < 10 * ofBits 8 (s.dev.rd HLD_CFG.TLO) ∨ 10 * ofBits 8 (s.dev.rd HLD_CFG.THI) < temp) →
    Does (.temperatureSample temp) s fun t => t.dev.gauge.outside = true ∧ t.dev.rd HLD_STATUS.EXCURSION = 1 ∧ Logged 5 s.dev t.dev) ∧
  (∀ temp s, s.dev.gauge.outside = true → 10 * ofBits 8 (s.dev.rd HLD_CFG.TLO) + 20 ≤ temp →
    temp ≤ 10 * ofBits 8 (s.dev.rd HLD_CFG.THI) - 20 → Does (.temperatureSample temp) s fun t =>
      t.dev.gauge.outside = false ∧ Logged 6 s.dev t.dev) ∧
  (∀ mv soc s, socOf s.dev.ocvTable mv = some soc → s.dev.rd HLD_CHARGE.Q_FULL < 2 ^ 32 → Does (.gapRecovery mv) s fun t =>
    t.dev.rd HLD_CHARGE.Q_REM = min (soc * s.dev.rd HLD_CHARGE.Q_FULL / 1000000) (s.dev.rd HLD_CHARGE.Q_FULL) ∧
    t.dev.rd HLD_STATUS.PROVISIONAL = 1 ∧ t.dev.gauge.gap = false) ∧
  (∀ mv soc s, Ready.rest mv soc s → s.dev.gauge.points = [] → Does (.restPoint mv) s fun t =>
    t.dev.rd HLD_CHARGE.Q_REM = min (soc * s.dev.rd HLD_CHARGE.Q_FULL / 1000000) (s.dev.rd HLD_CHARGE.Q_FULL) ∧
    t.dev.rd HLD_STATUS.PROVISIONAL = 0 ∧ t.dev.gauge.points = [⟨soc, s.dev.gauge.ageMs, s.dev.gauge.counted⟩]) ∧
  (∀ mv soc a q s, Ready.rest mv soc s → pairPoint soc s.dev.gauge = some a →
    q = qNew (s.dev.gauge.counted - a.mark) ((soc : Int) - a.soc).natAbs → qNewOk q (s.dev.rd HLD_CHARGE.Q_FULL) = true →
    Does (.restPoint mv) s fun t =>
      (t.dev.rd HLD_CHARGE.Q_FULL : Int) = s.dev.rd HLD_CHARGE.Q_FULL + ((q : Int) - s.dev.rd HLD_CHARGE.Q_FULL) / 4 ∧
      t.dev.rd HLD_STATUS.LEARN_DONE = 1 ∧
      t.dev.rd HLD_CNT_LEARNS.COUNT = min (s.dev.rd HLD_CNT_LEARNS.COUNT + 1) (2 ^ 64 - 1) ∧ Logged 2 s.dev t.dev) ∧
  (∀ mv soc a s, Ready.rest mv soc s → pairPoint soc s.dev.gauge = some a →
    qNewOk (qNew (s.dev.gauge.counted - a.mark) ((soc : Int) - a.soc).natAbs) (s.dev.rd HLD_CHARGE.Q_FULL) = false →
    Does (.restPoint mv) s fun t => t.dev.rd HLD_CHARGE.Q_FULL = s.dev.rd HLD_CHARGE.Q_FULL ∧ t.dev.gauge.learns = s.dev.gauge.learns ∧
      (s.dev.gauge.learn = 3 → t.dev.rd HLD_STATUS.LEARN_FAIL = 1 ∧ t.dev.rd HLD_STATUS.LEARN_CAUSE = 3)) ∧
  (∀ mv s, mv < 6000 → Does (.restPoint mv) s fun t => t.dev.rd HLD_STATUS.FAULT = 1 ∧ t.dev.rd HLD_STATUS.FAULT_CAUSE = 5 ∧
    5 ∈ t.dev.gauge.faults) ∧
  (∀ s, s.dev.ctxs = [] → s.dev.gauge.state ≠ 2 → Does .energyRecompute s fun t => t.dev.rd HLD_STATUS.DUMP_READY = 0 ∧
    t.dev.rd FRN_STATUS.DUMP_READY = 0 ∧ t.dev.rd HLD_ENERGY.DUMPS = 0 ∧
    t.dev.rd HLD_ENERGY.E_DUMP = eDump (s.dev.rd FRN_CFG.REGION_GIB) % 2 ^ 16) ∧
  (∀ s, s.dev.ctxs = [] → (s.dev.gauge.res = none ∨ ∃ m, s.dev.gauge.res = some m ∧
      200 * s.dev.rd HLD_CHARGE.Q_REM ≤ m * s.dev.rd HLD_CHARGE.Q_FULL) → Does .energyRecompute s fun t => t.dev.rd HLD_ENERGY.E_AVAIL = 0) ∧
  (∀ m e s, s.dev.ctxs = [] → s.dev.gauge.res = some m → s.dev.gauge.state = 2 → s.dev.rd HLD_STATUS.PROVISIONAL = 0 →
    m * s.dev.rd HLD_CHARGE.Q_FULL < 200 * s.dev.rd HLD_CHARGE.Q_REM →
    deliver s.dev.ocvTable (s.dev.rd HLD_CHARGE.Q_FULL) (s.dev.rd HLD_RESERVE.IR25) (kOf s.dev.packTemp) (200 * s.dev.rd HLD_CHARGE.Q_REM)
      (m * s.dev.rd HLD_CHARGE.Q_FULL) = some e → e / 100000000 < 2 ^ 32 →
    105 * eDump (s.dev.rd FRN_CFG.REGION_GIB) ≤ 100 * (e / 100000000) → Does .energyRecompute s fun t =>
      t.dev.rd HLD_ENERGY.E_AVAIL = e / 100000000 ∧ t.dev.rd HLD_STATUS.DUMP_READY = 1 ∧
      t.dev.rd HLD_ENERGY.DUMPS = min (e / 100000000 / eDump (s.dev.rd FRN_CFG.REGION_GIB)) 255)

/-- The pack's charging, faults, absence, records, learn cycles and connection. -/
def Obligations.GaugeGuardsThePack : Prop :=
  (∀ s, s.dev.gauge.charge = true → Does .chargeTerminate s fun t => t.dev.gauge.charge = false ∧ t.dev.rd HLD_STATUS.CHARGING = 0 ∧
    t.dev.gauge.full = true) ∧
  (∀ cause s, isPackFault cause = true → (cause ≠ 3 ∨ s.dev.dumpRuns = false) → Does (.holdupFault cause) s fun t =>
    t.dev.rd HLD_STATUS.FAULT = 1 ∧ t.dev.rd HLD_STATUS.FAULT_CAUSE = cause ∧ t.dev.gauge.lastFault = cause ∧ Logged 7 s.dev t.dev ∧
    (cause ≤ 3 → t.dev.gauge.enable = false ∧ t.dev.gauge.held = true) ∧ (4 ≤ cause → cause ≤ 7 → cause ∈ t.dev.gauge.faults) ∧
    (cause ∈ [1, 2, 4, 8] → t.dev.gauge.charge = false) ∧ t.dev.gauge.learn = 0) ∧
  (∀ cause s, Does (.holdupFaultClear cause) s fun t => t.dev.gauge.faults = s.dev.gauge.faults.filter (fun c => c != cause) ∧
    t.dev.rd HLD_STATUS.STATE = t.dev.gauge.state) ∧
  (∀ s, Does .packAbsent s fun t => t.dev.rd HLD_STATUS.STATE = 0 ∧ t.dev.gauge.absent = true ∧ t.dev.gauge.charge = false ∧
    t.dev.gauge.learn = 0) ∧
  (∀ s, Does (.eepromPeriodicRecord true) s fun t => Logged 1 s.dev t.dev ∧ t.dev.regs = s.dev.regs) ∧
  (∀ s, Does (.eepromPeriodicRecord false) s fun t => t.dev.rd HLD_STATUS.EEPROM_ERR = 1 ∧ t.dev.gauge.gseq = s.dev.gauge.gseq + 2 ∧
    ∃ r, tget t.dev.gauge.eeprom ((s.dev.gauge.gseq + 1) % 128) = some r ∧ recordValid r = true ∧ getLe r 5 1 = 1) ∧
  (∀ path s, mediaWriter path = true → s.dev.gauge.learn = 0 → s.dev.dumpRuns = false → Does (.learnStart path) s fun t =>
    t.dev.gauge.learn = 1 ∧ t.dev.rd HLD_STATUS.LEARNING = 1) ∧
  (∀ path s, mediaWriter path = true → s.dev.gauge.learn = 0 → s.dev.dumpRuns = true → Does (.learnStart path) s fun t =>
    t.dev.gauge.learn = 0 ∧ t.dev.rd HLD_STATUS.LEARN_FAIL = 1 ∧ t.dev.rd HLD_STATUS.LEARN_CAUSE = 4) ∧
  (∀ path s, mediaWriter path = true → s.dev.gauge.learn ≠ 0 → Does (.learnStop path) s fun t => t.dev.gauge.learn = 0 ∧
    t.dev.gauge.bleed = false ∧ t.dev.rd HLD_STATUS.LEARNING = 0 ∧ t.dev.rd HLD_STATUS.LEARN_FAIL = 1 ∧ t.dev.rd HLD_STATUS.LEARN_CAUSE = 4) ∧
  (∀ s, s.dev.gauge.learn = 1 ∨ s.dev.gauge.learn = 3 → Does .learnRestTimeout s fun t => t.dev.gauge.learn = 0 ∧
    t.dev.rd HLD_STATUS.LEARN_FAIL = 1 ∧ t.dev.rd HLD_STATUS.LEARN_CAUSE = 2) ∧
  (∀ s, s.dev.dumpRuns = false → Does (.hldDisconnect (.i3c .media)) s fun t => t.dev.gauge.enable = false ∧ t.dev.gauge.held = true ∧
    t.dev.rd HLD_STATUS.STATE = t.dev.gauge.state) ∧
  (∀ s, s.dev.dumpRuns = false → s.dev.holdupActivity = none → Does (.hldDisconnect (.feature 0)) s fun t =>
    t = s.withDev (s.dev.set HLD_STATUS.REFUSED)) ∧
  (∀ a s, s.dev.dumpRuns = false → s.dev.holdupActivity = some a → Does (.hldDisconnect (.feature 0)) s fun t =>
    t.dev.gauge.enable = false ∧ t.dev.gauge.held = true ∧ (s.dev.maint.acts = [a] → t.dev.holdupActivity = none)) ∧
  (∀ path s, mediaWriter path = true → s.dev.dumpRuns = false → s.dev.mayConnect = true → Does (.hldConnect path) s fun t =>
    t.dev.gauge.enable = true ∧ t.dev.gauge.held = false ∧ t.dev.gauge.chgOff = false ∧ t.dev.rd HLD_STATUS.STATE = t.dev.gauge.state) ∧
  (∀ path s, mediaWriter path = true → s.dev.dumpRuns = false → s.dev.mayConnect = false → Does (.hldConnect path) s fun t =>
    t = s.withDev (s.dev.set HLD_STATUS.REFUSED)) ∧
  (∀ path s, mediaWriter path = true → s.dev.dumpRuns = true → Does (.hldConnect path) s fun t => t = s) ∧
  (∀ path s, mediaWriter path = true → s.dev.rd HLD_PACK.Q_RATED < 2 ^ 16 → s.dev.rd HLD_PACK.IR_EOL < 2 ^ 16 →
    Does (.hldPackChange path) s fun t => t.dev.rd HLD_CHARGE.Q_FULL = 800 * s.dev.rd HLD_PACK.Q_RATED ∧
      t.dev.rd HLD_RESERVE.IR25 = s.dev.rd HLD_PACK.IR_EOL ∧ t.dev.rd HLD_STATUS.PACK_NEW = 1 ∧ t.dev.rd HLD_STATUS.PROVISIONAL = 1 ∧
      t.dev.gauge.thru = 0 ∧ Logged 4 s.dev t.dev)
namespace Sys2Proof.Machine

/-- Both halves leave their cold resets together, with straps that agree, fuses that load and no dump to restore. -/
abbrev Ready.startup (x : StartFacts) (s : State) : Prop :=
  x.ends = (true, true) ∧ x.parity = (true, true) ∧ s.dev.mayStart .host = true ∧ s.dev.mayStart .media = true ∧
    (∀ h, (s.dev.pw h).stopped = false ∧ s.dev.rd (CRP_STATUS.RELEASED h) = 0) ∧ s.dev.schLock = false ∧
    s.dev.firn.dumping = none ∧ s.dev.newestDump (fun x => !x.consumed) = none ∧ s.dev.ctxs = [] ∧ s.fuses.lifecycle ≠ 3

/-- The host half finds a valid image in the bank it prefers, and both halves' HBM trains. -/
abbrev Ready.images (x : StartFacts) (k : Nat) (s : State) : Prop :=
  preferredBank s.flash = some k ∧ imageValid s.fuses (bankImage s.flash k) = true ∧ x.hbm = (true, true)

/-- Both directions of the Schrund train with twelve lanes or more that are not retired (R242, R262). -/
abbrev Ready.lanes (x : StartFacts) (s : State) : Prop :=
  12 ≤ (s.dev.trainable .media (lockedLanes x.h2m)).length ∧ 12 ≤ (s.dev.trainable .host (lockedLanes x.m2h)).length

/-- A half's start-up stopped with a cause (R727). -/
abbrev Failed (h : Half) (cause : Nat) (t : State) : Prop :=
  t.dev.rd (CRP_STATUS.START_FAIL h) = cause ∧ t.dev.rd (CRP_STATUS.RELEASED h) = 0 ∧ (t.dev.pw h).stopped = true

/-- Both halves released together, from a bank (R725). -/
abbrev Started (k : Nat) (t : State) : Prop :=
  ∀ h, t.dev.rd (CRP_STATUS.RELEASED h) = 1 ∧ t.dev.rd (CRP_STATUS.STAGE h) = 7 ∧ t.dev.rd (CRP_STATUS.START_FAIL h) = 0 ∧
    t.dev.rd (CRP_STATUS.BANK h) = k ∧ t.dev.is (SCH_STATUS.UP h) = true

/-- A half was cold-reset and is held. -/
abbrev Reset (h : Half) (d t : Dev) : Prop :=
  (t.pw h).held = true ∧ t.rd (CRP_CNT_COLD.COUNT h) = min (d.rd (CRP_CNT_COLD.COUNT h) + 1) (2 ^ 64 - 1) ∧
    t.rd (CRP_STATUS.RELEASED h) = 0 ∧ t.now h = 0

end Sys2Proof.Machine

/-- What resets a half or a rail: supply, power-good, the reset pins, CRP_CTRL.COLD and a thermal trip. -/
def Obligations.PowerAndResetsTakeEffect : Prop :=
  (∀ s, ((s.dev.pw .host).vaon = false ∨ (s.dev.pw .host).held = true) → Does (.powerOn .host) s fun t => (t.dev.pw .host).vaon = true ∧
    (t.dev.pw .host).held = true ∧ t.dev.led .host = Ledger.empty ∧ t.dev.rd (CRP_CNT_COLD.COUNT .host) = 0 ∧ t.dev.tbHost = 0) ∧
  (∀ r s, ((s.dev.pw .media).vaon = false ∨ (s.dev.pw .media).held = true) → newestRecord s.dev.gauge.eeprom = some r →
    Does (.powerOn .media) s fun t => (t.dev.pw .media).vaon = true ∧ (t.dev.pw .media).held = true ∧ t.dev.gauge.gap = true ∧
      t.dev.rd HLD_CHARGE.Q_FULL = getLe r 12 4 ∧ t.dev.rd HLD_RESERVE.IR25 = getLe r 16 4 ∧ t.dev.gauge.gseq = getLe r 8 4 + 1) ∧
  (∀ s, ((s.dev.pw .media).vaon = false ∨ (s.dev.pw .media).held = true) → newestRecord s.dev.gauge.eeprom = none →
    Does (.powerOn .media) s fun t => (t.dev.pw .media).vaon = true ∧ t.dev.gauge.gap = true ∧ t.dev.rd HLD_STATUS.PACK_NEW = 1 ∧
      t.dev.rd HLD_STATUS.PROVISIONAL = 1) ∧
  (∀ h s, Does (.alwaysOnRailLoss h) s fun t => (t.dev.pw h).vaon = false ∧ (t.dev.pw h).held = true ∧ t.dev.now h = 0 ∧
    (h = .media → t.dev.gauge.gap = true ∧ t.dev.firn.dumping = none)) ∧
  (∀ s, (s.dev.pw .host).held = false → Does .pwrgdHDeassert s fun t => Reset .host s.dev t.dev ∧ (t.dev.pw .host).pwrgd = false ∧
    t.dev.rings = Dev.reset.rings ∧ t.dev.mbx = none) ∧
  (∀ s, (s.dev.pw .media).held = false → s.dev.is (CRP_STATUS.RELEASED .media) = true → s.dev.firn.dumping = none →
    Does .pwrgdMDeassert s fun t => (t.dev.pw .media).coldPending = true ∧ (t.dev.pw .media).held = false ∧ t.dev.rd FRN_STATUS.DUMPING = 1 ∧
      ∃ slot x, t.dev.firn.dumping = some slot ∧ tget t.dev.firn.dumps slot = some x ∧ x.reason = 1 ∧ x.sealed = false ∧
        x.recs = s.dev.firn.recs.filter fun e => e.2.written) ∧
  (∀ s, (s.dev.pw .media).held = false → s.dev.is (CRP_STATUS.RELEASED .media) = false → s.dev.firn.dumping = none →
    Does .pwrgdMDeassert s fun t => Reset .media s.dev t.dev) ∧
  (∀ s, (s.dev.pw .host).held = false → Does (.coldRstPin .host) s fun t => Reset .host s.dev t.dev) ∧
  (∀ s, (s.dev.pw .media).held = false → s.dev.firn.dumping = none → s.dev.firn.recs = [] → Does (.coldRstPin .media) s fun t =>
    Reset .media s.dev t.dev) ∧
  (∀ s, (s.dev.pw .media).held = false → (s.dev.firn.recs ≠ [] ∨ s.dev.firn.dumping.isSome = true) → Does (.coldRstPin .media) s fun t =>
    (t.dev.pw .media).coldPending = true ∧ t.dev.firn.dumping.isSome = true) ∧
  (∀ h s, (s.dev.pw h).held = true → (s.dev.pw h).tripped = true → Does (.coldRstPin h) s fun t => (t.dev.pw h).tripPulsed = true) ∧
  (∀ path s, crpWriter path .host = true → s.dev.crpAllowed = true → (s.dev.pw .host).held = false → Does (.crpCold path .host) s fun t =>
    Reset .host s.dev t.dev) ∧
  (∀ path s, crpWriter path .media = true → s.dev.crpAllowed = true → (s.dev.pw .media).held = false → s.dev.firn.dumping = none →
    s.dev.firn.recs = [] → Does (.crpCold path .media) s fun t => Reset .media s.dev t.dev) ∧
  (∀ path h s, crpWriter path h = true → s.dev.crpAllowed = false → Does (.crpCold path h) s fun t =>
    t = s.withDev (s.dev.set (CRP_STATUS.REFUSED h))) ∧
  (∀ path h s, crpWriter path h = true → s.dev.crpAllowed = false → Does (.crpWarm path h) s fun t =>
    t = s.withDev (s.dev.set (CRP_STATUS.REFUSED h))) ∧
  (∀ path h s, crpWriter path h = true → s.dev.crpAllowed = true → s.dev.twin.act = none → (s.dev.pw .host).held = false →
    (s.dev.pw .media).held = false → Does (.crpWarm path h) s fun t => t.dev.twin.act.isSome = true ∧
      (s.dev.tstate ≠ 5 → s.dev.destages = [] → t.dev.rd TWN_STATUS.STATE = 7)) ∧
  (∀ path h s, crpWriter path h = false → Does (.crpCold path h) s fun t => t = s) ∧
  (∀ s, (s.dev.pw .host).held = false → Does (.thermalTrip .host) s fun t => Reset .host s.dev t.dev ∧ (t.dev.pw .host).tripped = true) ∧
  (∀ s, (s.dev.pw .media).held = false → s.dev.firn.dumping = none → s.dev.firn.recs = [] → Does (.thermalTrip .media) s fun t =>
    Reset .media s.dev t.dev ∧ (t.dev.pw .media).tripped = true) ∧
  (∀ s, (s.dev.pw .host).held = false → Does .referenceLost s fun t => t.dev.rd (CRP_STATUS.REF_OK .host) = 0 ∧
    t.dev.rd (CRP_STATUS.PLL_LOCK .host) = 0 ∧ (t.dev.pw .host).stopped = true ∧ (t.dev.schEnd .host).tx.stopped = true) ∧
  (∀ h tj hbm s, -2048 ≤ tj → tj < 2048 → ((tget s.dev.thermal (halfNum h)).getD Thermal.fresh).level ≤ 3 →
    Does (.thermalSample h tj hbm) s fun t => ofBits 12 (t.dev.rd (CRP_THERM.TJ h)) = tj ∧
      t.dev.rd (CRP_THERM.LEVEL h) = levelAfter ((tget s.dev.thermal (halfNum h)).getD Thermal.fresh).level tj ∧
      (1100 ≤ tj → ((tget s.dev.thermal (halfNum h)).getD Thermal.fresh).level = 0 → t.dev.rd (CRP_THERM.THROTTLED h) = 1) ∧
      t.dev.rd (CRP_THERM.HBM_HOT h) =
        laneMask (doubledAfter ((tget s.dev.thermal (halfNum h)).getD Thermal.fresh).doubled (hbm.take (hbmStacks h))))

/-- Start-up runs to the release of both halves, or stops where R725 says, with its cause. -/
def Obligations.StartUpReleasesOrStops : Prop :=
  (∀ x k s, Ready.startup x s → Ready.images x k s → Ready.lanes x s → x.side.1 = x.side.2 → x.slot.1 = x.slot.2 → x.agree = true →
    mediaFirmwareOk (bankImage s.flash k) = true → Does (.startup x) s fun t => Started k t) ∧
  (∀ x h s, ofHalf x.ends h = true → ofHalf x.parity h = false → s.dev.mayStart h = true → s.dev.rd (CRP_STATUS.RELEASED h) = 0 →
    Does (.startup x) s fun t => Failed h 2 t) ∧
  (∀ x s, Ready.startup x s → preferredBank s.flash = none → Does (.startup x) s fun t => Failed .host 3 t ∧
    t.dev.rd (CRP_STATUS.BANK_A_BAD .host) = 1 ∧ t.dev.rd (CRP_STATUS.BANK_B_BAD .host) = 1) ∧
  (∀ x k s, Ready.startup x s → preferredBank s.flash = some k → imageValid s.fuses (bankImage s.flash k) = false →
    imageValid s.fuses (bankImage s.flash (1 - k)) = false → Does (.startup x) s fun t => Failed .host 3 t) ∧
  (∀ x k s, Ready.startup x s → x.hbm.1 = false → preferredBank s.flash = some k → imageValid s.fuses (bankImage s.flash k) = false →
    imageValid s.fuses (bankImage s.flash (1 - k)) = true → Does (.startup x) s fun t => t.dev.rd (CRP_STATUS.BANK .host) = 1 - k ∧
      t.dev.rd (if k = 0 then CRP_STATUS.BANK_A_BAD .host else CRP_STATUS.BANK_B_BAD .host) = 1) ∧
  (∀ x k s, Ready.startup x s → preferredBank s.flash = some k → imageValid s.fuses (bankImage s.flash k) = true → x.hbm.1 = false →
    Does (.startup x) s fun t => Failed .host 4 t ∧ t.dev.rd (CRP_STATUS.STAGE .host) = 2) ∧
  (∀ x k s, Ready.startup x s → Ready.images x k s → ¬ Ready.lanes x s → Does (.startup x) s fun t => ∀ h,
    t.dev.rd (CRP_STATUS.START_FAIL h) = 5 ∧ t.dev.rd (CRP_STATUS.STAGE h) = 4) ∧
  (∀ x k s, Ready.startup x s → Ready.images x k s → Ready.lanes x s → x.side.1 % 2 ≠ x.side.2 % 2 → Does (.startup x) s fun t => ∀ h,
    Failed h 1 t) ∧
  (∀ x k s, Ready.startup x s → Ready.images x k s → Ready.lanes x s → x.side.1 = x.side.2 → x.slot.1 = x.slot.2 → x.agree = false →
    Does (.startup x) s fun t => ∀ h, Failed h 7 t) ∧
  (∀ x k s, Ready.startup x s → Ready.images x k s → Ready.lanes x s → x.side.1 = x.side.2 → x.slot.1 = x.slot.2 → x.agree = true →
    mediaFirmwareOk (bankImage s.flash k) = false → Does (.startup x) s fun t => ∀ h, Failed h 6 t) ∧
  (∀ x k s, Ready.lanes x s → s.dev.starting .host = true → s.dev.starting .media = true → s.dev.schLock = false → s.dev.firn.dumping = none →
    s.dev.newestDump (fun x => !x.consumed) = none → s.dev.ctxs = [] → s.fuses.lifecycle ≠ 3 → k < 2 → s.dev.rd (CRP_STATUS.BANK .host) = k →
    s.dev.rd (CRP_STATUS.START_FAIL .host) = 5 → handshakeCause x s.dev = 0 → mediaFirmwareOk (bankImage s.flash k) = true →
    Does (.schrundTrainingRetry x) s fun t => Started k t)
namespace Sys2Proof.Machine

/-- A command of the mailbox that may run: no other runs, the Nunatak has its supply, and an OP from 10h on carries its KEY and comes from
the PF of endpoint 0 (R776, R777). -/
abbrev Ready.mailbox (ep op key : Nat) (s : State) : Prop :=
  ep < 4 ∧ s.dev.mbx = none ∧ (s.dev.pw .host).vaon = true ∧ (0x10 ≤ op → key = mbxKey ∧ ep = 0)

/-- The mailbox asks the media half (R776): the command stays in the mailbox, and the request has gone out. -/
abbrev Asked (ep op : Nat) (d t : Dev) : Prop :=
  t.mbx = some (op, ep) ∧ t.rd FLT_MBX_STATUS.BUSY = 1 ∧ t.rd FLT_MBX_STATUS.LAST_OP = op ∧
    Sent d t (.sch .host .mgmtRequest ⟨noQueue, 0, 0, 0, [op, d.rd FLT_MBX_ARG.ARG % 2], []⟩)

/-- The mailbox command ended with a RESULT (R777). -/
abbrev Ended (result : Nat) (t : Dev) : Prop :=
  t.mbx = none ∧ t.rd FLT_MBX_STATUS.BUSY = 0 ∧ t.rd FLT_MBX_STATUS.RESULT = result

/-- The Nunatak of a half writes a last-gasp record (R766). -/
abbrev Gasped (h : Half) (d t : Dev) : Prop :=
  (t.led h).gaspSeq = (d.led h).gaspSeq + 1 ∧ t.rd (FLT_STATUS.LAST_GASP h) = 1 ∧
    ∃ g, g.half = h ∧ g.seq = (d.led h).gaspSeq ∧ g ∈ (t.led h).gasps

end Sys2Proof.Machine

/-- The fault ledger's times and commands, the watchdog, and the head of the event ring. -/
def Obligations.LedgerAndWatchdogTakeEffect : Prop :=
  (∀ h s, Does (.stormIntervalEnd h) s fun t => (t.dev.led h).fresh = 0 ∧
    (t.dev.led h).interval = max ((s.dev.led h).interval + 1) (s.dev.now h / ms) ∧
    (s.dev.summaryMode h = true → (s.dev.led h).fresh ≤ 256 → t.dev.summaryMode h = false)) ∧
  (∀ h src e s, tget (s.dev.led h).ev src = some e → e.gathered ≠ 0 → Does (.faultEventDeferred h src) s fun t =>
    (tget (t.dev.led h).ev src).map (·.gathered) = some 0 ∧
    t.dev.rd (FLT_CNT_NOTIFY.COUNT h) = min (s.dev.rd (FLT_CNT_NOTIFY.COUNT h) + 1) (2 ^ 64 - 1)) ∧
  (∀ h s, s.dev.is (FLT_WDOG.ARMED h) = true → (s.dev.pw h).halted = false → (s.dev.pw h).held = false → Does (.watchdogExpiry h) s fun t =>
    t.dev.rd (FLT_STATUS.WEDGED h) = 1 ∧ t.dev.rd (FLT_WDOG.ARMED h) = 0 ∧ (t.dev.pw h).halted = true ∧
    (h = .host → (t.dev.schEnd .host).tx.stopped = true) ∧ (h = .media → t.dev.twin.selfFailed = true) ∧
    (h = .media → s.dev.tstate ≠ 5 → t.dev.firn.dumping.isSome = true)) ∧
  (∀ path h s, fltWriter h path = true → (s.dev.pw h).halted = false → (s.dev.pw h).held = false → Does (.wdogKick path h) s fun t =>
    t = s.withDev (s.dev.set (FLT_WDOG.ARMED h))) ∧
  (∀ path h s, fltWriter h path = true → Does (.newEpoch path h) s fun t =>
    t.dev.rd (FLT_LEDGER.EPOCH h) = (s.dev.rd (FLT_LEDGER.EPOCH h) + 1) % 2 ^ 16 ∧
    (∀ r, r ∈ (t.dev.led h).recs ↔ r ∈ (s.dev.led h).recs ∧ r.epoch = s.dev.rd (FLT_LEDGER.EPOCH h)) ∧
    (∀ r, r ∈ (t.dev.led h).sums ↔ r ∈ (s.dev.led h).sums ∧ r.epoch = s.dev.rd (FLT_LEDGER.EPOCH h))) ∧
  (∀ path h s, fltWriter h path = true → Does (.fltLastGasp path h) s fun t => Gasped h s.dev t.dev) ∧
  (∀ fn value s, s.dev.decodes fn = true → bits value 0 12 < (s.dev.fn fn).ev.depth →
    (bits value 0 12 + (s.dev.fn fn).ev.depth - s.dev.rd (RNG_EV_HEAD.HEAD fn)) % (s.dev.fn fn).ev.depth ≤
      ((s.dev.fn fn).ev.tail + (s.dev.fn fn).ev.depth - s.dev.rd (RNG_EV_HEAD.HEAD fn)) % (s.dev.fn fn).ev.depth →
    Does (.rngEvHeadWrite fn value) s fun t => t.dev.rd (RNG_EV_HEAD.HEAD fn) = bits value 0 12)

/-- The admin queue's registers: an admin queue is created, becomes ready, and is disabled. What a slot and the Daxiekar DVSEC read: zero where
no queue pair stands behind the slot, and the part, the place, the function and the running image (R64, R65, R565). -/
def Obligations.AdminQueueRegistersTakeEffect : Prop :=
  (∀ fn value q s, s.dev.decodes fn = true → s.dev.rd (RNG_AQ_CFG.ENABLE fn) = 0 → bit value 28 = true → s.dev.adminQueue fn = some q →
    bits value 0 12 ≠ 0 → vectorOk fn (bits value 16 11) = true → Does (.rngAqCfgWrite fn value) s fun t =>
      t.dev.rd (RNG_AQ_CFG.ENABLE fn) = 1 ∧ t.dev.rd (RNG_AQ_CFG.ERROR fn) = 0 ∧ t.dev.rd (RNG_AQ_CFG.DEPTH_M1 fn) = bits value 0 12 ∧
      t.dev.rd (RNG_AQ_CFG.VECTOR fn) = bits value 16 11 ∧
      (s.dev.adminOf fn = none → ∃ x, t.dev.queue q = some x ∧ x.fn = fn ∧ x.admin = true ∧ x.depth = bits value 0 12 + 1)) ∧
  (∀ fn value s, s.dev.decodes fn = true → s.dev.rd (RNG_AQ_CFG.ENABLE fn) = 0 → bit value 28 = true →
    (s.dev.adminQueue fn = none ∨ bits value 0 12 = 0 ∨ vectorOk fn (bits value 16 11) = false) → Does (.rngAqCfgWrite fn value) s fun t =>
      t.dev.rd (RNG_AQ_CFG.ENABLE fn) = 0 ∧ t.dev.rd (RNG_AQ_CFG.ERROR fn) = 1) ∧
  (∀ fn value s, s.dev.decodes fn = true → s.dev.rd (RNG_AQ_CFG.ENABLE fn) = 1 → bit value 28 = true → Does (.rngAqCfgWrite fn value) s fun t =>
    t = s) ∧
  (∀ fn value s, s.dev.decodes fn = true → s.dev.rd (RNG_AQ_CFG.ENABLE fn) = 1 → bit value 28 = false → s.dev.adminOf fn = none →
    Does (.rngAqCfgWrite fn value) s fun t => t.dev.rd (RNG_AQ_CFG.ENABLE fn) = 0 ∧ t.dev.rd (RNG_AQ_CFG.READY fn) = 0 ∧
      t.dev.rd (RNG_AQ_CFG.ERROR fn) = 0) ∧
  (∀ fn value q x s, s.dev.decodes fn = true → s.dev.rd (RNG_AQ_CFG.ENABLE fn) = 1 → bit value 28 = false → s.dev.adminOf fn = some q →
    s.dev.queue q = some x → x.reset = none → Does (.rngAqCfgWrite fn value) s fun t => t.dev.rd (RNG_AQ_CFG.ENABLE fn) = 0 ∧
      (t.dev.queue q).any (fun y => y.reset.isSome) = true) ∧
  (∀ fn q x s, s.dev.rd (RNG_AQ_CFG.ENABLE fn) = 1 → s.dev.adminOf fn = some q → s.dev.queue q = some x → x.reset = none →
    Does (.adminQueueReady fn) s fun t => t.dev.rd (RNG_AQ_CFG.READY fn) = 1 ∧ t.dev.rd (RNG_AQ_CFG.ERROR fn) = 0) ∧
  (∀ fn off s, Dev.decodes (State.dev s) fn = true → isDoorbell fn off = true → off % 4 = 0 → (s.dev.slotQueue fn off).1 = none →
    s.dev.readBar0 s.fuses fn off 4 = some (leBytes 4 0)) ∧
  (∀ fn off s, Dev.decodes (State.dev s) fn = true → isDoorbell fn off = true → off % 4 = 0 →
    s.dev.readBar0 s.fuses fn off 4 = some (leBytes 4 (s.dev.slotWord fn off))) ∧
  (∀ fn (d : Dev), d.cfgDword fn 0x600 = 0x00010023 ∧ d.cfgDword fn 0x604 = 0x0401D5A9 ∧ d.cfgDword fn 0x608 = 0x09600001 ∧
    d.cfgDword fn 0x60c = 2 ^ 16 * fn + 2 ^ 8 * (4 * (d.twinSide % 2) + epOf fn) + 0xB0 ∧ d.cfgDword fn 0x610 = d.image.version ∧
    d.cfgDword fn 0x614 = d.image.level ∧ d.cfgDword fn 0x618 = if isPf fn then 0xE00000 else 0)

/-- The mailbox of the host half (R776, R777). -/
def Obligations.MailboxCommandsTakeEffect : Prop :=
  (∀ ep key s, Ready.mailbox ep 1 key s → Does (.mbxStatus ep key) s fun t => Ended 0 t.dev ∧
    t.dev.rd FLT_MBX_STATUS.LAST_OP = 1) ∧
  (∀ ep key s, Ready.mailbox ep 2 key s → s.dev.linkOpen .host → Does (.mbxMediaStatus ep key) s fun t => Asked ep 2 s.dev t.dev) ∧
  (∀ ep key s, Ready.mailbox ep 0x10 key s → s.dev.linkOpen .host → Does (.mbxDump ep key) s fun t => Asked ep 0x10 s.dev t.dev) ∧
  (∀ ep key s, Ready.mailbox ep 0x11 key s → s.dev.linkOpen .host → Does (.mbxFence ep key) s fun t => Asked ep 0x11 s.dev t.dev) ∧
  (∀ ep key s, Ready.mailbox ep 0x12 key s → s.dev.linkOpen .host → Does (.mbxZeroize ep key) s fun t =>
    t.dev.mbx = some (0x12, ep) ∧ ∀ i, (t.dev.slot i).type = 0) ∧
  (∀ ep key s, Ready.mailbox ep 0x13 key s → s.dev.linkOpen .host → Does (.mbxPackDisconnect ep key) s fun t => Asked ep 0x13 s.dev t.dev) ∧
  (∀ ep key s, Ready.mailbox ep 0x14 key s → Does (.mbxLastGasp ep key) s fun t => Ended 0 t.dev ∧ Gasped .host s.dev t.dev) ∧
  (∀ ep key s, Ready.mailbox ep 2 key s → s.dev.is (SCH_STATUS.UP .host) = false → Does (.mbxMediaStatus ep key) s fun t => Ended 2 t.dev) ∧
  (∀ ep key s, ep < 4 → s.dev.mbx = none → (s.dev.pw .host).vaon = true → (key ≠ mbxKey ∨ ep ≠ 0) → Does (.mbxFence ep key) s fun t =>
    Ended 1 t.dev) ∧
  (∀ ep key s, s.dev.mbx.isSome = true → Does (.mbxDump ep key) s fun t => t = s)

/-- The two I3C ports: reads, writes, the flash, the fuses and keys (R590, R718, R778); a port enters SMBus mode (R805), and TRST# low brings IDCODE
back at the boundary-scan port (R796; that this is IEEE 1149.1 is the presumption of the log). -/
def Obligations.ManagementPortsAnswer : Prop :=
  (∀ h s, s.dev.nunatak h = true → Does (.statusRead h) s fun t =>
    t = s.withDev (s.dev.emit (.reply (.i3c h) 0 (s.dev.portStatus h)))) ∧
  (∀ h off size r s, s.dev.nunatak h = true → portReg h off = some r → r.size = size → (s.dev.coresRun h = true ∨ nunatakReg h off = true) →
    Does (.regRead h off size) s fun t => t = s.withDev (s.dev.emit (.reply (.i3c h) 0 (leBytes size (match h with
      | .host => readPf s.fuses 0 s.dev r
      | .media => readMedia s.fuses s.dev r))))) ∧
  (∀ h off size r s, s.dev.nunatak h = true → portReg h off = some r → r.size = size → s.dev.coresRun h = false → nunatakReg h off = false →
    Does (.regRead h off size) s fun t => t = s.withDev (s.dev.emit (.reply (.i3c h) 3 []))) ∧
  (∀ h off size s, s.dev.nunatak h = true → portReg h off = none → Does (.regRead h off size) s fun t =>
    t = s.withDev (s.dev.emit (.reply (.i3c h) 1 []))) ∧
  (∀ off size value r s, s.dev.nunatak .host = true → s.dev.coresRun .host = true → portReg .host off = some r → r.size = size →
    Does (.regWrite .host off size value) s fun t =>
      t = s.withDev (regWrite (.i3c .host) off size value (s.dev.emit (.reply (.i3c .host) 0 [])))) ∧
  (∀ value s, s.dev.nunatak .media = true → s.dev.coresRun .media = true → s.dev.ctxs = [] → value < 2 ^ 32 →
    0x3C ≤ bits value 0 8 → bits value 0 8 ≤ 0x50 → ofBits 8 (bits value 8 8) < ofBits 8 (bits value 16 8) →
    Does (.regWrite .media 0xE00000 4 value) s fun t => t.dev.rd HLD_CFG.VCHG = bits value 0 8 ∧ t.dev.rd HLD_CFG.TLO = bits value 8 8 ∧
      t.dev.rd HLD_CFG.THI = bits value 16 8 ∧ t.dev.rd HLD_CFG.LEARN_DAYS = bits value 24 8) ∧
  (∀ key arg s, s.dev.nunatak .host = true → s.dev.mbx = none → Does (.i3cMailbox .host 1 key arg) s fun t =>
    t.dev.mbx = none ∧ ∃ resp, Sent s.dev t.dev (.reply (.i3c .host) 0 (leBytes 1 0 ++ leBytes 8 resp))) ∧
  (∀ key arg s, s.dev.nunatak .media = true → Does (.i3cMailbox .media 2 key arg) s fun t =>
    t = s.withDev (s.dev.emit (.reply (.i3c .media) 0 (leBytes 1 0 ++ leBytes 8 (s.dev.fltStatus .media + 2 ^ 32 * s.dev.frnStatus))))) ∧
  (∀ h i r s, s.dev.nunatak h = true → ((s.dev.led h).recs ++ (s.dev.led h).sums)[i]? = some r → Does (.ledgerRead h i) s fun t =>
    t = s.withDev (s.dev.emit (.reply (.i3c h) 0 r.bytes))) ∧
  (∀ bank off len s, s.dev.nunatak .host = true → bank ≤ 1 → len ≤ 256 → off + len ≤ bankSize →
    Does (.flashAccess .host bank off len none) s fun t =>
      t = s.withDev (s.dev.emit (.reply (.i3c .host) 0 (flashRead s.flash (bankBase bank + off) len)))) ∧
  (∀ bank off len b s, s.dev.nunatak .host = true → bank ≤ 1 → b.length ≤ 256 → off + b.length ≤ bankSize →
    Memory.wf s.flash = true → Does (.flashAccess .host bank off len (some b)) s fun t =>
      flashRead t.flash (bankBase bank + off) b.length = b ∧
      ∀ a, (a < bankBase bank + off ∨ bankBase bank + off + b.length ≤ a) → flashRead t.flash a 1 = flashRead s.flash a 1) ∧
  (∀ h s, s.dev.nunatak h = true → s.fuses.lifecycle = 1 → s.dev.rime.devHost.isSome = true → Does (.lifecycle h 2 [] 0) s fun t =>
    t.fuses = { s.fuses.program [] with lifecycle := 2 }) ∧
  (∀ h s, s.dev.nunatak h = true → (s.fuses.lifecycle = 1 ∨ s.fuses.lifecycle = 2) → s.dev.ctxs = [] →
    Does (.lifecycle h 3 [] 0) s fun t => t.fuses.lifecycle = 3 ∧ t.dev.rime.devHost = none ∧ ∀ i, (t.dev.slot i).type = 0) ∧
  (∀ i b s, s.dev.nunatak .host = true → s.fuses.lifecycle = 1 → i < 4 → b.length = 48 → s.fuses.four.getD i [] = [] →
    Does (.lifecycle .host 0 [(i, b)] 0) s fun t => t.fuses.four.getD i [] = b) ∧
  (∀ revoke s, s.dev.nunatak .host = true → s.fuses.lifecycle ≠ 3 → revoke < 16 → revoke ≠ 0 → Does (.lifecycle .host 0 [] revoke) s fun t =>
    ∀ i, t.fuses.revoked.testBit i = (s.fuses.revoked.testBit i || revoke.testBit i)) ∧
  (∀ h s, s.dev.nunatak h = true → s.fuses.lifecycle = 1 → s.dev.rime.devHost = none → Does (.lifecycle h 2 [] 0) s fun t =>
    t = s.withDev (s.dev.emit (.reply (.i3c h) 2 []))) ∧
  (∀ key s, s.dev.nunatak .host = true → key.length = 32 → (s.fuses.lifecycle = 1 ∨ s.fuses.lifecycle = 2) → s.dev.rime.devHost = none →
    s.dev.rime.used < 16 → Does (.devkey .host key) s fun t => t.dev.rime.devHost = some key ∧ t.dev.rime.devMedia = some key ∧
      t.dev.rime.used = s.dev.rime.used + 1 ∧ t.dev.rd RIM_STATUS.DEVKEY_PRESENT = 1) ∧
  (∀ e n m s, s.dev.nunatak .host = true → (s.dev.pw .host).held = false → e < 4 → n < 8 → m.args = [2, e, n] →
    Does (.mctp .host m) s fun t => (tget (t.dev.ep e).ide n).map (·.key) = some (m.data.take 32)) ∧
  (∀ e n m x s, s.dev.nunatak .host = true → (s.dev.pw .host).held = false → e < 4 → n < 8 → m.args = [4, e, n] →
    tget (s.dev.ep e).ide n = some x → x.key ≠ [] → Does (.mctp .host m) s fun t => tget (t.dev.ep e).ide n = some ⟨true, x.key⟩) ∧
  (∀ e n m x s, s.dev.nunatak .host = true → (s.dev.pw .host).held = false → e < 4 → n < 8 → m.args = [5, e, n] →
    tget (s.dev.ep e).ide n = some x → Does (.mctp .host m) s fun t => tget (t.dev.ep e).ide n = some ⟨false, x.key⟩) ∧
  (∀ h s, s.dev.nunatak h = false → Does (.statusRead h) s fun t => t = s) ∧
  (∀ h slow od bc (d : Dev), ((busStart h slow od bc d).pw h).ports.smbus = ((slow && od && !bc) || (d.pw h).ports.smbus)) ∧
  (∀ h trst i (d : Dev), ((tapLoad h trst i d).pw h).ports.tap = if trst then .idcode else i)

/-- The commands whose rows close the table: a spare is aligned, the clock is marked, PERST# is released, a lane trains, a controller fails. -/
def Obligations.LateEventsTakeEffect : Prop :=
  (∀ h lane spare s, ((s.dev.schEnd h).rx.aligning.find? fun a => a.2 == lane) = some (spare, lane) → Does (.spareAligned h lane) s fun t =>
    (t.dev.schEnd h).rx.lanes = (s.dev.schEnd h).rx.lanes ++ [lane] ∧ ∀ a ∈ (t.dev.schEnd h).rx.aligning, a.2 ≠ lane) ∧
  (∀ s, s.dev.linkOpen .host → Does .clockMarker s fun t => t.dev.clocks.markSeq = (s.dev.clocks.markSeq + 1) % 2 ^ 32 ∧
    Sent s.dev t.dev (.sch .host .timeMark ⟨noQueue, 0, 0, 0, [s.dev.tbHost, s.dev.clocks.markSeq], []⟩) ∧
    (s.dev.clocks.lost = false → s.dev.is (SCH_STATUS.UP .media) = true →
      tget t.dev.clocks.marks s.dev.clocks.markSeq = some s.dev.tbMedia)) ∧
  (∀ e s, e < 4 → (s.dev.ep e).perst = true → Does (.perstRelease e) s fun t => (t.dev.ep e).perst = false ∧ (t.dev.ep e).wake = false ∧
    ((s.dev.ep e).wake = true → Sent s.dev t.dev (.pin "WAKE#" true))) ∧
  (∀ lane s, lane < 16 → (lane ∉ s.dev.snow.rx.lost ∨ lane ∈ s.dev.snow.rx.retraining) → Does (.snowbridgeLaneTrained lane) s fun t =>
    lane ∈ t.dev.snow.tx.lanes ∧ lane ∈ t.dev.snow.rx.lanes ∧ lane ∉ t.dev.snow.rx.lost ∧ (s.dev.tstate = 0 → t.dev.tstate = 1)) ∧
  (∀ i p m x s, s.dev.boundTo i = some (p, m) → s.dev.isHome p = true → s.dev.member p m = some x → x.state ≠ 0 → x.state ≠ 4 →
    x.drive = some i → (∀ e ∈ s.dev.drives.cmds, e.2.drive ≠ i) → s.dev.ctxs = [] → Does (.controllerFatalStatus i) s fun t =>
      (t.dev.member p m).map (fun y => (y.state, y.cause, y.drive)) = some (4, 2, none) ∧ t.dev.boundTo i = none)
namespace Sys2Proof.Machine

/-- Registers of the media management space from one offset up to another read as before. -/
abbrev RegsKept (lo hi : Nat) (d t : Dev) : Prop :=
  ∀ f : Field, f.space = 1 → lo ≤ f.off → f.off < hi → f.lsb < 64 → t.rd f = d.rd f

/-- What a command of a Floe channel leaves alone. -/
abbrev FloeOnly (d t : Dev) : Prop := MediaKept d t ∧ HostKept d t ∧ PlatformKept d t ∧ t.gauge = d.gauge

/-- What a command of the gauge leaves alone: all but the gauge, HLD, the fault ledger, the event rings and the Schrund. -/
abbrev GaugeOnly (d t : Dev) : Prop :=
  MediaKept d t ∧ HostKept d t ∧ PlatformKept d t ∧ t.floe = d.floe ∧ t.thermal = d.thermal ∧ RegsKept 0x500000 0xC00000 d t

/-- What a temperature, a ledger or a watchdog command leaves alone. -/
abbrev LedgerOnly (d t : Dev) : Prop :=
  MediaKept d t ∧ HostKept d t ∧ PlatformKept d t ∧ t.floe = d.floe ∧ t.gauge = d.gauge ∧ RegsKept 0x500000 0xC00000 d t ∧
    RegsKept 0xE00000 0xF00000 d t

/-- Nothing is under way that the passing of time moves on: the links are down, no held result is delivered, no sealed message waits, no cipher
fault is to be reported, no read of a former snapshot is to be told of, and no register write of a Floe channel is to land. -/
abbrev Ready.quiet (s : State) : Prop :=
  (∀ h, s.dev.is (SCH_STATUS.UP h) = false) ∧ s.dev.snow.tx.stopped = true ∧ (∀ e < 4, s.dev.deliveries e = []) ∧ s.dev.tstate ≠ 5 ∧
    s.dev.rime.linkFaults = [] ∧ s.dev.twin.sealed = [] ∧ (∀ e ∈ s.dev.nss, e.2.gone = []) ∧ s.dev.floe.regWrites = []

/-- What the ring engine leaves alone. -/
abbrev RingsOnly (d t : Dev) : Prop :=
  MediaKept d t ∧ PlatformKept d t ∧ t.gauge = d.gauge ∧ t.floe = d.floe ∧ t.ingest = d.ingest ∧ t.rime = d.rime ∧ t.staging = d.staging ∧
    RegsKept 0x500000 0xF00000 d t

end Sys2Proof.Machine

/-- A step with a command at the front of the queue is that command's effect with the queue's rest waiting. On an empty queue a step is one
tick of 10 ns of the two timebases: that is the model's choice (log entry 1). Where no link, delivery, sealed message or Floe write has anything to do, nothing else changes. -/
def Obligations.StepRunsTheFrontCommand : Prop :=
  (∀ c rest s, s.pending = c :: rest → step s = exec c (s.withPending rest)) ∧
  (∀ s, s.pending = [] → ∃ t, step s = .next t ∧ t.pending = [] ∧ t.flash = s.flash ∧ t.fuses = s.fuses ∧
    (s.dev.floe.regWrites = [] →
      t.dev.tbHost = (if (s.dev.pw .host).held then s.dev.tbHost else s.dev.tbHost + 1) % 2 ^ 64 ∧
      t.dev.tbMedia = (if (s.dev.pw .media).held || s.dev.clocks.withhold then s.dev.tbMedia else s.dev.tbMedia + 1) % 2 ^ 64) ∧
    (Ready.quiet s → t.dev = tickClocks s.dev))

/-- After reset: every field reads the value of its Reset column (R10), the timebases stand at 0, the class weights are 12, 3 and 1 (R45),
every block is with the PF of R55, no queue, record, index entry or loaded key slot exists, both halves are held, and nothing waits. That the
flash reads FFh everywhere is the model's choice (log entry 2). -/
def Obligations.ResetLeavesTheStatedValues : Prop :=
  (∀ f : Field, State.reset.dev.rd f = f.reset) ∧ State.reset.dev.tbHost = 0 ∧ State.reset.dev.tbMedia = 0 ∧
  State.reset.dev.rings.weights = (12, 3, 1) ∧ (∀ e b, e < 4 → 4096 * e ≤ b → b ≤ 4096 * e + 4095 → State.reset.dev.holder b = 256 * e) ∧
  (∀ fn, State.reset.dev.vfBlocks fn = []) ∧ (∀ q, State.reset.dev.queue q = none) ∧ State.reset.dev.ingest.index = [] ∧
  State.reset.dev.firn.recs = [] ∧ (∀ i, (State.reset.dev.slot i).type = 0) ∧ (∀ h, (State.reset.dev.pw h).held = true) ∧
  State.reset.pending = [] ∧ ∀ a, flashByte State.reset.flash a = 0xFF#8

/-- The reset state has the invariant that every step keeps. -/
def Obligations.ResetHasTheInvariant : Prop := State.Legal State.reset

/-- Every step keeps the invariant: the boot flash stays in its canonical form within its 128 MiB, and the fuses stay legal. -/
def Obligations.EveryStepKeepsTheInvariant : Prop := ∀ s t, s.Legal → step s = .next t → t.Legal

/-- No step undoes a fuse: the SVN floor and the lifecycle state do not fall, a revocation stands, a programmed key hash keeps its value, and
the serial number does not change. -/
def Obligations.NoStepUndoesAFuse : Prop := ∀ s t, step s = .next t → s.fuses.before t.fuses

/-- Every command answers a next state in every state, and leaves the commands that wait as they are. -/
def Obligations.EveryCommandAnswersANextState : Prop := ∀ c s, Does c s fun t => t.pending = s.pending

/-- Only a firmware commit, an activation's end or start and two messages of the management ports write the boot flash or the fuses; of these
only the end of an activation and LIFECYCLE write fuses. -/
def Obligations.OnlyFirmwareCommandsWriteTheFlash : Prop :=
  (∀ c s t, writesFlash c = false → exec c s = .next t → t.flash = s.flash ∧ t.fuses = s.fuses) ∧
  (∀ q tag s t, exec (.fwCommit q tag) s = .next t → t.fuses = s.fuses) ∧ (∀ m s t, exec (.coord m) s = .next t → t.fuses = s.fuses) ∧
  (∀ s t, exec .activationFallback s = .next t → t.fuses = s.fuses) ∧
  (∀ h b off len data s t, exec (.flashAccess h b off len data) s = .next t → t.fuses = s.fuses) ∧
  (∀ h target hs revoke s t, exec (.lifecycle h target hs revoke) s = .next t → t.flash = s.flash)

/-- A cold reset of the host half, by power-good, its pin, a thermal trip, its always-on rail or an accepted write of CRP_CTRL.COLD, returns
every block to the PF of R55 and empties the chunk index (R139). -/
def Obligations.AHostColdResetReturnsBlocksAndIndex : Prop :=
  ∀ c s, c = .pwrgdHDeassert ∨ c = .coldRstPin .host ∨ c = .thermalTrip .host ∨ c = .alwaysOnRailLoss .host ∨
    (∃ path, crpWriter path .host = true ∧ s.dev.crpAllowed = true ∧ c = .crpCold path .host) →
    (s.dev.pw .host).held = false → Does c s fun t =>
      (∀ e b, e < 4 → 4096 * e ≤ b → b ≤ 4096 * e + 4095 → t.dev.holder b = 256 * e) ∧ (∀ fn, t.dev.vfBlocks fn = []) ∧
      t.dev.ingest.index = [] ∧ t.dev.ingest.drift = []

/-- A fault source ID is the half, the block and the instance at their bits, and an instance of FF_FFFFh is the block's summary source (R756).
EPOCH is 0 after a cold reset of its half, and a new epoch increments it, wrapping, keeps the records of the epoch before, and discards the
older ones, which then count no more (R761). -/
def Obligations.SourceNumbersAndEpochs : Prop :=
  (∀ h block inst, block < 2 ^ 7 → inst < 2 ^ 24 → srcId h block inst < 2 ^ 32 ∧ srcHalf (srcId h block inst) = h ∧
    bit (srcId h block inst) 31 = (h == .media) ∧ srcBlock (srcId h block inst) = block ∧ bits (srcId h block inst) 0 24 = inst) ∧
  summaryInst = 0xFFFFFF ∧
  (∀ s, (s.dev.pw .host).held = false → Does (.coldRstPin .host) s fun t => t.dev.rd (FLT_LEDGER.EPOCH .host) = 0) ∧
  (∀ s, (s.dev.pw .media).held = false → s.dev.firn.dumping = none → s.dev.firn.recs = [] → Does (.coldRstPin .media) s fun t =>
    t.dev.rd (FLT_LEDGER.EPOCH .media) = 0) ∧
  (∀ path h s, fltWriter h path = true → Does (.newEpoch path h) s fun t =>
    t.dev.rd (FLT_LEDGER.EPOCH h) = (s.dev.rd (FLT_LEDGER.EPOCH h) + 1) % 2 ^ 16 ∧
    (t.dev.led h).recs = (s.dev.led h).recs.filter (fun r => r.epoch == s.dev.rd (FLT_LEDGER.EPOCH h)) ∧
    (t.dev.led h).sums = (s.dev.led h).sums.filter (fun r => r.epoch == s.dev.rd (FLT_LEDGER.EPOCH h)) ∧
    t.dev.ledgerRecords h + ((s.dev.led h).recs ++ (s.dev.led h).sums).countP (fun r => r.epoch != s.dev.rd (FLT_LEDGER.EPOCH h)) =
      s.dev.ledgerRecords h)

namespace Sys2Proof.Machine

/-- The four steps of R44 over candidates of which some wait: `r` is what each holds after steps 2 and 4, and `c` is served. -/
def SharedRule (waits : Nat → Prop) (weight before after : Nat → Nat) (c : Nat) : Prop :=
  ∃ r : Nat → Nat, (∀ n, ¬ waits n → r n = 0) ∧
    ((∃ n, waits n ∧ 1 ≤ before n) → ∀ n, waits n → r n = before n) ∧
    ((∀ n, waits n → before n = 0) → ∀ n, waits n → r n = weight n) ∧
    waits c ∧ (∀ n, waits n → r n < r c ∨ (r n = r c ∧ c ≤ n)) ∧ after c = r c - 1 ∧ ∀ n, n ≠ c → after n = r n

/-- The class weights at an arbiter where certain class D work waits: WB for the classes A and B, WC, and the effective weight of class D
(R44, R424). -/
def Dev.classWeight (d : Dev) (work : List WorkD) (c : Nat) : Nat :=
  if c ≤ 1 then d.rings.weights.1 else if c = 2 then d.rings.weights.2.1 else d.weightD work

/-- The deficit of a tenant within a class at an arbiter. -/
def Dev.tenantDeficit (d : Dev) (arb : ArbId) (c fn : Nat) : Nat := if fn < 2048 then (tget (d.arb arb).ten (c * 2048 + fn)).getD 0 else 0

/-- Requests wait at an arbiter, each of a class and of a function; at an endpoint's write arbiter no held result waits beside them. -/
abbrev Ready.requests (arb : ArbId) (waiting : List (Nat × Nat)) (d : Dev) : Prop :=
  waiting ≠ [] ∧ (∀ w ∈ waiting, w.1 < 4 ∧ w.2 < 2048) ∧ ∀ e, arb = .epWrite e → d.deliveries e = []

end Sys2Proof.Machine

/-- Every arbiter grants in frames of 8. Grant 0 goes to class A where a request of class A waits, and then changes no deficit; every other
grant that throttling does not leave idle serves a class, and within it a tenant, by deficit round robin (R43, R44). -/
def Obligations.ArbitersGrantInFramesOfEight : Prop :=
  (∀ arb waiting work s, Ready.requests arb waiting s.dev → Does (.arbiterGrant arb ⟨waiting, work⟩) s fun t =>
    (t.dev.arb arb).pos = ((s.dev.arb arb).pos + 1) % 8) ∧
  (∀ arb waiting work s, Ready.requests arb waiting s.dev → (s.dev.arb arb).pos = 0 → (∃ fn, (0, fn) ∈ waiting) →
    Does (.arbiterGrant arb ⟨waiting, work⟩) s fun t => (∃ fn, (0, fn) ∈ waiting ∧ (t.dev.arb arb).last = some (0, fn)) ∧
      (t.dev.arb arb).cls = (s.dev.arb arb).cls ∧ (t.dev.arb arb).ten = (s.dev.arb arb).ten) ∧
  (∀ arb waiting work s, Ready.requests arb waiting s.dev → ((s.dev.arb arb).pos = 0 → ∀ fn, (0, fn) ∉ waiting) →
    ((s.dev.arb arb).pos = 0 ∨ s.dev.idleGrants arb < (s.dev.arb arb).pos) →
    Does (.arbiterGrant arb ⟨waiting, work⟩) s fun t => ∃ c fn, (t.dev.arb arb).last = some (c, fn) ∧
      SharedRule (fun n => ∃ fn, (n, fn) ∈ waiting) (s.dev.classWeight work) (fun n => (s.dev.arb arb).cls.getD n 0)
        (fun n => (t.dev.arb arb).cls.getD n 0) c ∧
      SharedRule (fun n => (c, n) ∈ waiting) s.dev.tenantWeight (s.dev.tenantDeficit arb c) (t.dev.tenantDeficit arb c) fn ∧
      ∀ c' n, c' ≠ c → t.dev.tenantDeficit arb c' n = s.dev.tenantDeficit arb c' n)

/-- The frame of the Floe and of the gauge: the Floe's commands leave the stores, the queues, the keys, the gauge and the platform as they
were, and the gauge's commands the stores, the queues, the keys and the registers of the other units. -/
def Obligations.FloeAndGaugeCommandsKeepTheRest : Prop :=
  (∀ path ch s, Keeps (.kick path ch) s FloeOnly) ∧ (∀ path ch s, Keeps (.pause path ch) s FloeOnly) ∧
  (∀ path ch s, Keeps (.resume path ch) s FloeOnly) ∧ (∀ path ch s, Keeps (.abort path ch) s FloeOnly) ∧
  (∀ h ch s, Keeps (.channelPaused h ch) s FloeOnly) ∧ (∀ h ch s, Keeps (.abortDrained h ch) s FloeOnly) ∧
  (∀ h ch desc s, Keeps (.descriptorRead h ch desc) s FloeOnly) ∧ (∀ h ch m s, Keeps (.move h ch m) s FloeOnly) ∧
  (∀ h ch i s, Keeps (.loop h ch i) s FloeOnly) ∧ (∀ h ch i s, Keeps (.wait h ch i) s FloeOnly) ∧
  (∀ h ch i s, Keeps (.signal h ch i) s FloeOnly) ∧ (∀ h ch i s, Keeps (.endInstr h ch i) s FloeOnly) ∧
  (∀ h s, Keeps (.floeBurstGrant h) s FloeOnly) ∧ (∀ h ch s, Keeps (.writeResponse h ch) s FloeOnly) ∧
  (∀ h ch s, Keeps (.busError h ch) s FloeOnly) ∧ (∀ h ch s, Keeps (.waitTimeout h ch) s FloeOnly) ∧
  (∀ path v s, Keeps (.floSwreq path v) s FloeOnly) ∧ (∀ path v s, Keeps (.floEventSet path v) s FloeOnly) ∧
  (∀ path v s, Keeps (.floEventClr path v) s FloeOnly) ∧ (∀ path off size v s, Keeps (.floChConfigWrite path off size v) s FloeOnly) ∧
  (∀ i mv s, Keeps (.converterWindow i mv) s GaugeOnly) ∧ (∀ o s, Keeps (.offsetZeroing o) s GaugeOnly) ∧
  (∀ temp s, Keeps (.temperatureSample temp) s GaugeOnly) ∧ (∀ mv s, Keeps (.gapRecovery mv) s GaugeOnly) ∧
  (∀ mv s, Keeps (.restPoint mv) s GaugeOnly) ∧ (∀ s, Keeps .learnRestTimeout s GaugeOnly) ∧ (∀ s, Keeps .chargeTerminate s GaugeOnly) ∧
  (∀ cause s, Keeps (.holdupFault cause) s GaugeOnly) ∧ (∀ cause s, Keeps (.holdupFaultClear cause) s GaugeOnly) ∧
  (∀ s, Keeps .packAbsent s GaugeOnly) ∧ (∀ good s, Keeps (.eepromPeriodicRecord good) s GaugeOnly) ∧
  (∀ path s, Keeps (.learnStart path) s GaugeOnly) ∧ (∀ path s, Keeps (.learnStop path) s GaugeOnly) ∧
  (∀ s, Keeps (.hldDisconnect (.i3c .media)) s GaugeOnly) ∧ (∀ path s, Keeps (.hldConnect path) s GaugeOnly) ∧
  (∀ path s, Keeps (.hldPackChange path) s GaugeOnly)

/-- The frame of the temperatures, the fault ledger and the watchdog: their commands leave the stores, the queues, the keys, the gauge and
the registers of the other units as they were. -/
def Obligations.LedgerCommandsKeepTheRest : Prop :=
  (∀ h tj hbm s, Keeps (.thermalSample h tj hbm) s LedgerOnly) ∧ (∀ h s, Keeps (.stormIntervalEnd h) s LedgerOnly) ∧
  (∀ h src s, Keeps (.faultEventDeferred h src) s LedgerOnly) ∧ (∀ path h s, Keeps (.wdogKick path h) s LedgerOnly) ∧
  (∀ path h s, Keeps (.newEpoch path h) s LedgerOnly) ∧ (∀ path h s, Keeps (.fltLastGasp path h) s LedgerOnly) ∧
  (∀ h s, Keeps (.statusRead h) s LedgerOnly) ∧ (∀ h off size s, Keeps (.regRead h off size) s LedgerOnly) ∧
  (∀ h i s, Keeps (.ledgerRead h i) s LedgerOnly) ∧ (∀ h bank off len s, Keeps (.flashAccess h bank off len none) s LedgerOnly) ∧
  (∀ s, Keeps .clockMarker s LedgerOnly) ∧ (∀ e s, Keeps (.perstRelease e) s LedgerOnly)

/-- The frame of the ring engine: a doorbell, a grant, a coalescing time-out and an event-ring head change no other queue, and none of the
stores, the keys and the media half's registers. -/
def Obligations.RingCommandsKeepOtherQueues : Prop :=
  (∀ fn off size v s, Keeps (.doorbellWrite fn off size v) s RingsOnly) ∧ (∀ pick s, Keeps (.ringFetchGrant pick) s RingsOnly) ∧
  (∀ a w s, (∀ e, a = .epWrite e → s.dev.deliveries e = []) → Keeps (.arbiterGrant a w) s fun d t => t = { d with arbs := t.arbs }) ∧ (∀ q s, Keeps (.coalescingTimeout q) s RingsOnly) ∧
  (∀ fn v s, Keeps (.rngEvHeadWrite fn v) s fun d t => RingsOnly d t ∧ t.rings = d.rings ∧ t.streams = d.streams) ∧
  (∀ fn off size v q s, (s.dev.slotQueue fn off).1 ≠ some q → Keeps (.doorbellWrite fn off size v) s fun d t => t.queue q = d.queue q) ∧
  (∀ q q' s, q' ≠ q → Keeps (.coalescingTimeout q) s fun d t => t.queue q' = d.queue q' ∧ t.streams = d.streams) ∧
  (∀ pick q s, Keeps (.ringFetchGrant pick) s fun d t => (t.queue q).map (fun x => (x.cmds, x.held, x.cqTail, x.cqHead, x.sqTail)) =
    (d.queue q).map (fun x => (x.cmds, x.held, x.cqTail, x.cqHead, x.sqTail)))

/-- The frame of every command, whatever it does: the platform, the gauge and the Floe, what the media half stores, and the queues and keys of
the host half change only by the commands named for it; the standing of the forwarded clock by these and three more; only a start-up samples the straps and
the serial number. -/
def Obligations.OnlyNamedCommandsChangeAUnit : Prop :=
  (∀ c s t, exec c s = .next t → movesPlatform c = false → PlatformKept s.dev t.dev ∧ t.dev.thermal = s.dev.thermal) ∧
  (∀ c s t, exec c s = .next t → movesUnits c = false → t.dev.gauge = s.dev.gauge ∧ t.dev.floe = s.dev.floe) ∧
  (∀ c s t, exec c s = .next t → keepsStores c = true → StoresKept s.dev t.dev) ∧
  (∀ c s t, exec c s = .next t → keepsQueues c = true → HostKept s.dev t.dev) ∧
  (∀ c s t, exec c s = .next t → (∀ x, c ≠ .startup x) → t.dev.straps = s.dev.straps ∧ t.dev.serial = s.dev.serial) ∧
  (∀ c s t, exec c s = .next t → movesPlatform c = false → (∀ b, c ≠ .forwardedClockLost b) → c ≠ .forwardedClockReturn →
    c ≠ .clockMarker → t.dev.clocks = s.dev.clocks)
end

