-- ==== Sys2Proof/Laws/Bytes.lean ====
section
/-! SUPPORT. Byte strings: their lengths, a number read back from its bytes, and that a frame as it is sent passes its check. -/

namespace Sys2Proof.Machine

@[simp] theorem leBytes_length (n v : Nat) : (leBytes n v).length = n := by
  induction n generalizing v with
  | zero => rfl
  | succ n ih => simp [leBytes, ih]

@[simp] theorem padTo_length (n : Nat) (b : Bytes) : (padTo n b).length = n := by
  simp [padTo]; omega

/-- The bytes of a number, least significant first, spell it again (R5). -/
theorem leNat_leBytes (n v : Nat) : leNat (leBytes n v) = v % 256 ^ n := by
  induction n generalizing v with
  | zero => simp [leBytes, leNat, Nat.mod_one]
  | succ n ih =>
    simp only [leBytes, leNat, ih, BitVec.toNat_ofNat]
    rw [show 256 ^ (n + 1) = 256 * 256 ^ n by rw [Nat.pow_succ, Nat.mul_comm], Nat.mod_mul]

/-- A field at the end of a string. -/
theorem getLe_end (b : Bytes) (n v : Nat) : getLe (b ++ leBytes n v) b.length n = v % 256 ^ n := by
  simp [getLe, ← leNat_leBytes n v, List.take_of_length_le]

theorem crc64_lt (b : Bytes) : crc64 b < 2 ^ 64 := by
  unfold crc64; exact BitVec.isLt _

/-- A string followed by its check value passes the check of a frame (R244, R505). -/
theorem frameGood_checked (l : LinkEnd) (b : Bytes) (h : b.length + 8 = frameSize l) : frameGood l (b ++ leBytes 8 (crc64 b)) = true := by
  have e : frameSize l - 8 = b.length := by omega
  have t : (b ++ leBytes 8 (crc64 b)).take b.length = b := by simp
  have g := getLe_end b 8 (crc64 b)
  rw [Nat.mod_eq_of_lt (by simpa using crc64_lt b)] at g
  simp [frameGood, e, g, h]

/-- Every frame that is sent passes its check where it arrives unchanged (R244, R505). -/
theorem frameGood_linkFrame (l : LinkEnd) (fclass fflags seq ack msgId tb : Nat) (payload : Bytes) :
    frameGood l (linkFrame l fclass fflags seq ack msgId tb payload) = true := by
  cases l with
  | sch h => exact frameGood_checked _ _ (by simp [frameSize])
  | snow => exact frameGood_checked _ _ (by simp [frameSize])

end Sys2Proof.Machine
end

