-- ==== Sys2Proof/Laws/Flash.lean ====
section
/-! SUPPORT. The boot flash: every operation keeps its canonical form, and a write changes the bytes it writes and no others. -/

namespace Sys2Proof.Machine

theorem Memory.wfFrom_mono {lo lo' : Nat} {m : List Host.Cell} (h : lo' ≤ lo) (w : Memory.wfFrom lo m = true) :
    Memory.wfFrom lo' m = true := by
  cases m with
  | nil => rfl
  | cons c t =>
    obtain ⟨a, b⟩ := c
    simp only [Memory.wfFrom, Bool.and_eq_true, decide_eq_true_eq] at w ⊢
    exact ⟨⟨⟨Nat.le_trans h w.1.1.1, w.1.1.2⟩, w.1.2⟩, w.2⟩

/-- A part of a flash in its form is in that form. -/
theorem Memory.wfFrom_filter {lo : Nat} {m : List Host.Cell} (p : Host.Cell → Bool) (w : Memory.wfFrom lo m = true) :
    Memory.wfFrom lo (m.filter p) = true := by
  induction m generalizing lo with
  | nil => rfl
  | cons c t ih =>
    obtain ⟨a, b⟩ := c
    simp only [Memory.wfFrom, Bool.and_eq_true, decide_eq_true_eq] at w
    rw [List.filter_cons]
    split
    · simp only [Memory.wfFrom, Bool.and_eq_true, decide_eq_true_eq]
      exact ⟨w.1, ih w.2⟩
    · exact Memory.wfFrom_mono (Nat.le_succ_of_le w.1.1.1) (ih w.2)

/-- Two parts in their form join where the first ends before the second begins. -/
theorem Memory.wfFrom_append {lo mid : Nat} {m n : List Host.Cell} (w : Memory.wfFrom lo m = true) (b : ∀ c ∈ m, c.1 < mid)
    (h : lo ≤ mid) (v : Memory.wfFrom mid n = true) : Memory.wfFrom lo (m ++ n) = true := by
  induction m generalizing lo with
  | nil => exact Memory.wfFrom_mono h v
  | cons c t ih =>
    obtain ⟨a, x⟩ := c
    simp only [Memory.wfFrom, Bool.and_eq_true, decide_eq_true_eq, List.cons_append] at w ⊢
    exact ⟨w.1, ih w.2 (fun c m => b c (List.mem_cons_of_mem _ m)) (b _ (List.mem_cons_self))⟩

theorem cellsAt_wf (a : Nat) (b : Bytes) : Memory.wfFrom a (cellsAt a b) = true := by
  induction b generalizing a with
  | nil => rfl
  | cons x t ih =>
    unfold cellsAt
    split
    · rename_i h
      simp only [Memory.wfFrom, Bool.and_eq_true, decide_eq_true_eq]
      exact ⟨⟨⟨Nat.le_refl _, h.1⟩, by simpa using h.2⟩, ih _⟩
    · exact Memory.wfFrom_mono (Nat.le_succ _) (ih _)

theorem cellsAt_lt {a : Nat} {b : Bytes} {c : Host.Cell} (m : c ∈ cellsAt a b) : a ≤ c.1 ∧ c.1 < a + b.length := by
  induction b generalizing a with
  | nil => cases m
  | cons x t ih =>
    unfold cellsAt at m
    split at m
    · rcases List.mem_cons.1 m with rfl | m
      · simp
      · have := ih m; simp only [List.length_cons]; omega
    · have := ih m; simp only [List.length_cons]; omega

theorem Memory.wfFrom_ge {lo : Nat} {m : List Host.Cell} (w : Memory.wfFrom lo m = true) (k : Nat) :
    Memory.wfFrom k (m.filter fun c => decide (k ≤ c.1)) = true := by
  induction m generalizing lo with
  | nil => rfl
  | cons c t ih =>
    obtain ⟨a, b⟩ := c
    simp only [Memory.wfFrom, Bool.and_eq_true, decide_eq_true_eq] at w
    rw [List.filter_cons]
    split
    · rename_i h
      simp only [Memory.wfFrom, Bool.and_eq_true, decide_eq_true_eq]
      exact ⟨⟨⟨by simpa using h, w.1.1.2⟩, w.1.2⟩, Memory.wfFrom_filter _ w.2⟩
    · exact ih w.2

/-- A write keeps the canonical form. -/
theorem flashWrite_wf {m : List Host.Cell} (w : Memory.wf m = true) (off : Nat) (b : Bytes) : Memory.wf (flashWrite m off b) = true := by
  unfold Memory.wf at *
  unfold flashWrite
  rw [List.append_assoc]
  refine Memory.wfFrom_append (mid := off) (Memory.wfFrom_filter _ w) ?_ (Nat.zero_le _) ?_
  · intro c h; simpa using (List.mem_filter.1 h).2
  · exact Memory.wfFrom_append (mid := off + b.length) (cellsAt_wf _ _) (fun c h => (cellsAt_lt h).2) (Nat.le_add_right _ _)
      (Memory.wfFrom_ge w _)

/-- An erase keeps the canonical form. -/
theorem flashErase_wf {m : List Host.Cell} (w : Memory.wf m = true) (off len : Nat) : Memory.wf (flashErase m off len) = true :=
  Memory.wfFrom_filter _ w

/-- A stored image keeps the canonical form. -/
theorem storeImage_wf {m : List Host.Cell} (w : Memory.wf m = true) (bank : Nat) (b : Bytes) : Memory.wf (storeImage m bank b) = true :=
  flashWrite_wf (flashErase_wf w _ _) _ _

/-- A bit of KSTATE programmed keeps the canonical form. -/
theorem programState_wf {m : List Host.Cell} (w : Memory.wf m = true) (bank n : Nat) : Memory.wf (programState m bank n) = true :=
  flashWrite_wf w _ _

/-- A firmware commit's store keeps the canonical form. -/
theorem State.stored_wf {s : State} (w : Memory.wf s.flash = true) : Memory.wf s.stored.flash = true := by
  unfold State.stored
  split
  · exact w
  · dsimp only
    split
    · exact w
    · exact storeImage_wf w _ _

/-! ### Bytes -/

theorem flashByte_append (m n : List Host.Cell) (a : Nat) :
    flashByte (m ++ n) a = if (m.any fun c => c.1 == a) then flashByte m a else flashByte n a := by
  induction m with
  | nil => rfl
  | cons c t ih =>
    obtain ⟨k, v⟩ := c
    by_cases h : a = k
    · subst h; simp [flashByte]
    · simp [flashByte, h, ih, Ne.symm h]

theorem flashByte_none {m : List Host.Cell} {a : Nat} (h : ∀ c ∈ m, c.1 ≠ a) : flashByte m a = flashErased := by
  induction m with
  | nil => rfl
  | cons c t ih =>
    obtain ⟨k, v⟩ := c
    have : a ≠ k := fun e => h (k, v) List.mem_cons_self e.symm
    simp [flashByte, this, ih fun c m => h c (List.mem_cons_of_mem _ m)]

theorem flashByte_filter {m : List Host.Cell} {p : Host.Cell → Bool} {a : Nat} (h : ∀ v, p (a, v) = true) :
    flashByte (m.filter p) a = flashByte m a := by
  induction m with
  | nil => rfl
  | cons c t ih =>
    obtain ⟨k, v⟩ := c
    by_cases e : a = k
    · subst e; simp [flashByte, h]
    · rw [List.filter_cons]; split <;> simp [flashByte, e, ih]

/-- A byte outside the bytes written reads as before. -/
theorem flashByte_write_out {m : List Host.Cell} {off a : Nat} {b : Bytes} (h : a < off ∨ off + b.length ≤ a) :
    flashByte (flashWrite m off b) a = flashByte m a := by
  unfold flashWrite
  rw [List.append_assoc, flashByte_append, flashByte_append]
  rcases h with h | h
  · split
    · exact flashByte_filter (by simp [h])
    · rename_i n
      have hm : ∀ c ∈ m, c.1 ≠ a := by
        intro c hc e
        apply n
        simp only [List.any_eq_true, beq_iff_eq]
        exact ⟨c, List.mem_filter.2 ⟨hc, by simp [e, h]⟩, e⟩
      rw [flashByte_none hm]
      split
      · rename_i x; obtain ⟨c, hc, e⟩ := List.any_eq_true.1 x; have := cellsAt_lt hc; simp at e; omega
      · exact flashByte_none fun c hc => hm c (List.mem_filter.1 hc).1
  · rw [if_neg, if_neg]
    · exact flashByte_filter (by simp [h])
    · intro x; obtain ⟨c, hc, e⟩ := List.any_eq_true.1 x; have := cellsAt_lt hc; simp at e; omega
    · intro x; obtain ⟨c, hc, e⟩ := List.any_eq_true.1 x; have := (List.mem_filter.1 hc).2; simp at e this; omega

theorem flashByte_cellsAt {a i : Nat} {b : Bytes} (h : i < b.length) (f : a + i < flashSize) :
    flashByte (cellsAt a b) (a + i) = b[i] := by
  induction b generalizing a i with
  | nil => cases h
  | cons x t ih =>
    unfold cellsAt
    cases i with
    | zero =>
      split
      · simp [flashByte]
      · rename_i n
        have hx : x = flashErased := by
          by_contra q
          exact n ⟨by simpa using f, q⟩
        rw [flashByte_none fun c hc => by have := cellsAt_lt hc; omega]
        simp [hx]
    | succ i =>
      have hi : i < t.length := by simpa using h
      have e : a + (i + 1) = (a + 1) + i := by omega
      have := ih (a := a + 1) hi (by omega)
      split
      · simp only [flashByte, if_neg (show a + (i + 1) ≠ a by omega), List.getElem_cons_succ]; rw [e]; exact this
      · rw [e]; simpa using this

/-- A byte that a write covers, within the flash, reads as written. -/
theorem flashByte_write {m : List Host.Cell} {off i : Nat} {b : Bytes} (h : i < b.length) (f : off + i < flashSize) :
    flashByte (flashWrite m off b) (off + i) = b[i] := by
  unfold flashWrite
  rw [List.append_assoc, flashByte_append, if_neg, flashByte_append]
  · split
    · exact flashByte_cellsAt h f
    · rename_i n
      rw [← flashByte_cellsAt h f, flashByte_none fun c hc e => ?_, flashByte_none fun c hc e => ?_]
      · exact n (List.any_eq_true.2 ⟨c, hc, by simp [e]⟩)
      · have := (List.mem_filter.1 hc).2; simp at this; omega
  · intro x; obtain ⟨c, hc, e⟩ := List.any_eq_true.1 x; have := (List.mem_filter.1 hc).2; simp at e this; omega

end Sys2Proof.Machine
end

