-- ==== Sys2Proof/Laws/Record.lean ====
section
/-! SUPPORT. Reading the bytes of a record's copy: what passes its check values is read as a record of the pool and sequence number in its
header. -/

namespace Sys2Proof.Machine

/-- A header whose last 8 bytes are the check value of the rest passes HCHECK (R288). -/
theorem hcheck_checked {b rest : Bytes} (h : b.length = 248) :
    crc64 (((b ++ leBytes 8 (crc64 b) ++ rest).take 256).take 248) = getLe ((b ++ leBytes 8 (crc64 b) ++ rest).take 256) 248 8 := by
  have t : (b ++ leBytes 8 (crc64 b) ++ rest).take 256 = b ++ leBytes 8 (crc64 b) :=
    List.take_left' (by simp [h])
  have u : (b ++ leBytes 8 (crc64 b)).take 248 = b := List.take_left' h
  have e := getLe_end b 8 (crc64 b)
  rw [Nat.mod_eq_of_lt (by simpa using crc64_lt b), h] at e
  rw [t, u, e]

/-- The bytes of a record without sections (R288, R299): it has no page. -/
theorem recordOf_header {b : Bytes} (n : getLe (b.take 256) 36 4 = 0) (len : b.length = 256) (magic : getLe (b.take 256) 0 2 = 0x9F1A)
    (version : getLe (b.take 256) 2 1 = 1) (head : crc64 ((b.take 256).take 248) = getLe (b.take 256) 248 8)
    (pages : getLe (b.take 256) 80 8 = 0) :
    ∃ r, recordOf b = some r ∧ r.rtype = getLe (b.take 256) 3 1 ∧ r.pool = getLe (b.take 256) 4 1 % 8 ∧ r.seq = getLe (b.take 256) 8 8 ∧
      r.npage = 0 := by
  refine ⟨_, if_neg ?_, rfl, rfl, rfl, ?_⟩
  · simp [n, len, magic, version, head, pages]
  · by_cases none : getLe (b.take 256) 6 2 = 0 <;> by_cases one : getLe (b.take 256) 6 2 = 1 <;>
      simp [none, one, FRec.npage, FRec.payload, FRec.sections, n, getBytes, sectionsOf, sectionOf, entriesOf, pieces, piecesOf,
        numberContainers, objOffsets, listSection]

end Sys2Proof.Machine
end

