-- ==== Sys2Proof/Tests/Slice0.lean ====
section
/-! SUPPORT. Tests: ill-formed terms that the checks refuse, worked examples of the specification, and for every clause of a statement a
state and operands that meet its hypotheses. -/

set_option Elab.async false

namespace Sys2Proof.Tests

open Sys2Proof Sys2Proof.Machine

/-! ### Ill-formed commands are refused -/

/-- A queue pair beyond 1,048,575 is refused. -/
theorem test_wf_refuses_queue_pair : (Instr.nop (2 ^ 20) 0).wf = false := by decide

/-- A tag of 17 bits is refused. -/
theorem test_wf_refuses_tag : (Instr.groupQuery 0 (2 ^ 16)).wf = false := by decide

/-- A function beyond 1,023 is refused. -/
theorem test_wf_refuses_function : (Instr.functionLevelReset 1024).wf = false := by decide

/-- An endpoint 4 is refused. -/
theorem test_wf_refuses_endpoint : (Instr.endpointReset 4 true).wf = false := by decide

/-- A Floe channel 128 is refused. -/
theorem test_wf_refuses_channel : (Instr.channelPaused .host 128).wf = false := by decide

/-- A pool 8 is refused. -/
theorem test_wf_refuses_pool : (Instr.prune 8).wf = false := by decide

/-- A member 512 is refused. -/
theorem test_wf_refuses_member : (Instr.memberHeld 0 512).wf = false := by decide

/-- A Calving stream 512 is refused. -/
theorem test_wf_refuses_stream : (Instr.calveMessageWrite 512 ⟨none, 0, [], [], [], []⟩).wf = false := by decide

/-- A root port 8 is refused. -/
theorem test_wf_refuses_port : (Instr.driveInserted 8 ⟨0, []⟩ 4 4).wf = false := by decide

/-- A position 8 below a root port is refused. -/
theorem test_wf_refuses_sub : (Instr.driveInserted 0 ⟨8, []⟩ 4 4).wf = false := by decide

/-- A slice 16 is refused. -/
theorem test_wf_refuses_slice : (Instr.gcmResume 16).wf = false := by decide

/-- A slice run on slice 16 is refused. -/
theorem test_wf_refuses_slice_run : (Instr.write 0 0 ⟨none, 16, [], [], [], []⟩).wf = false := by decide

/-- A second read on slice 16 is refused. -/
theorem test_wf_refuses_read_run : (Instr.readPayload ⟨0, 0, 0, 0, [], []⟩ ⟨0, .agree, false, 16, .agree, false⟩).wf = false := by decide

/-- A key slot 4,096 is refused. -/
theorem test_wf_refuses_key_slot : (Instr.keyEraseDrained 4096).wf = false := by decide

/-- A drive entry 1,024 is refused. -/
theorem test_wf_refuses_drive : (Instr.driveReadyTimeout 1024).wf = false := by decide

/-- A register access of 3 bytes is refused. -/
theorem test_wf_refuses_size : (Instr.regWrite .host 0 3 0).wf = false := by decide

/-- A memory write of no byte is refused. -/
theorem test_wf_refuses_write_size : (Instr.registerWrite (.pf 0) 0 0 0).wf = false := by decide

/-- A memory write of 513 bytes is refused. -/
theorem test_wf_refuses_doorbell_size : (Instr.doorbellWrite 0 0 513 0).wf = false := by decide

/-- A value that its 4 bytes do not hold is refused. -/
theorem test_wf_refuses_value4 : (Instr.regWrite .host 0 4 (2 ^ 32)).wf = false := by decide

/-- A value that 8 bytes do not hold is refused. -/
theorem test_wf_refuses_value8 : (Instr.quarRelease (.pf 0) (2 ^ 64)).wf = false := by decide

/-- A lane 20 of the Schrund is refused. -/
theorem test_wf_refuses_sch_lane : (Instr.laneLost .host 20).wf = false := by decide

/-- A lane 16 of the Snowbridge is refused. -/
theorem test_wf_refuses_snow_lane : (Instr.frameReceived .snow 16 []).wf = false := by decide

/-- A BAR0 of endpoint 4 is refused. -/
theorem test_wf_refuses_path_pf : (Instr.kick (.pf 4) 0).wf = false := by decide

/-- A window of a function that is a PF is refused. -/
theorem test_wf_refuses_path_vf : (Instr.kick (.vf 256) 0).wf = false := by decide

/-- A configuration space of function 1,024 is refused. -/
theorem test_wf_refuses_path_config : (Instr.kick (.config 1024) 0).wf = false := by decide

/-- A FEATURE_SET of function 1,024 is refused. -/
theorem test_wf_refuses_path_feature : (Instr.kick (.feature 1024) 0).wf = false := by decide

/-- An arbiter of an endpoint 4 is refused. -/
theorem test_wf_refuses_arbiter_endpoint : (Instr.arbiterGrant (.epRead 4) ⟨[], []⟩).wf = false := by decide

/-- An arbiter of the host half's HBM stack 2 is refused. -/
theorem test_wf_refuses_arbiter_stack : (Instr.arbiterGrant (.hbm .host 2) ⟨[], []⟩).wf = false := by decide

/-- An arbitration class 4 is refused. -/
theorem test_wf_refuses_arbiter_class : (Instr.arbiterGrant .moraine ⟨[(4, 1)], []⟩).wf = false := by decide

/-- A message whose tag has 17 bits is refused. -/
theorem test_wf_refuses_message : (Instr.ack ⟨0, 2 ^ 16, 0, 0, [], []⟩).wf = false := by decide

/-- A POOL_SLOT 16 is refused. -/
theorem test_wf_refuses_start_slot : (Instr.startup ⟨(true, true), (0, 0), (16, 0), (true, true), true, (true, true), [], [], true⟩).wf = false := by
  decide

/-- A Schrund lane 20 at start-up is refused. -/
theorem test_wf_refuses_start_lane : (Instr.startup ⟨(true, true), (0, 0), (0, 0), (true, true), true, (true, true), [20], [], true⟩).wf = false := by
  decide

/-- An activity 64 is refused. -/
theorem test_wf_refuses_activity : (Instr.activityLimitExpiry 64 true).wf = false := by decide

/-- A sideband cable 2 is refused. -/
theorem test_wf_refuses_cable : (Instr.sidebandWord 2 0).wf = false := by decide

/-- A MSI-X vector 2,048 is refused. -/
theorem test_wf_refuses_vector : (Instr.vectorUnmask 0 2048).wf = false := by decide

/-- A L1 substate 8 is refused. -/
theorem test_wf_refuses_substate : (Instr.l1Request 0 8).wf = false := by decide

/-- A NVMe status code of 9 bits is refused. -/
theorem test_wf_refuses_status : (Instr.nvmeCompletion 0 0 256 []).wf = false := by decide

/-- A mailbox key of 33 bits is refused. -/
theorem test_wf_refuses_key : (Instr.mbxStatus 0 (2 ^ 32)).wf = false := by decide

/-- A mailbox operation of 9 bits is refused. -/
theorem test_wf_refuses_mailbox_op : (Instr.i3cMailbox .host 256 0 0).wf = false := by decide

/-- A flash bank 2 is refused. -/
theorem test_wf_refuses_bank : (Instr.flashAccess .host 2 0 0 none).wf = false := by decide

/-- A command at the ends of its operands' ranges is well formed. -/
theorem test_wf_accepts_register_write : (Instr.registerWrite (.vf 257) 0x1000 8 (2 ^ 64 - 1)).wf = true := by decide

/-- A command at the ends of its operands' ranges is well formed. -/
theorem test_wf_accepts_write : (Instr.write (2 ^ 20 - 1) (2 ^ 16 - 1) ⟨none, 15, [], [], [], []⟩).wf = true := by decide

/-- A command at the ends of its operands' ranges is well formed. -/
theorem test_wf_accepts_startup : (Instr.startup ⟨(true, true), (1, 0), (15, 15), (true, true), true, (true, true), [19], [0], true⟩).wf = true := by decide

/-! ### Worked examples of the specification -/

/-- The check example of R173: CRC-32C over "123456789". -/
theorem test_crc32c_example : crc32c ([0x31, 0x32, 0x33, 0x34, 0x35, 0x36, 0x37, 0x38, 0x39] : Bytes) = 0xE3069283 := by
  decide +kernel

/-- The powers of g printed with R354. -/
theorem test_powers_of_g : (List.range 11).map gfExp = [1, 2, 4, 8, 0x10, 0x20, 0x40, 0x80, 0x1D, 0x3A, 0x74] := by decide

/-- The syndromes P, Q and T of the worked cases after R354, at one byte position. -/
theorem test_syndromes_example : (List.range 3).map (fun j => syndrome 1 j [(0, [0x3C]), (1, [0xA5]), (2, [0x07]), (3, [0x5E])]) =
    [[0xC0], [0xBD], [0xFC]] := by decide

/-- The first worked case after R354: strips 1 and 3 are lost, and P and Q rebuild them. -/
theorem test_rebuild_two_example : gfRebuild 1 [(0, [0x3C]), (2, [0x07])] [(0, [0xC0]), (1, [0xBD])] [1, 3] =
    some [(1, [0xA5]), (3, [0x5E])] := by decide +kernel

/-- The second worked case after R354: strips 0, 2 and 3 are lost, and P, Q and T rebuild them. -/
theorem test_rebuild_three_example : gfRebuild 1 [(1, [0xA5])] [(0, [0xC0]), (1, [0xBD]), (2, [0xFC])] [0, 2, 3] =
    some [(0, [0x3C]), (2, [0x07]), (3, [0x5E])] := by decide +kernel

/-- The worked case after R365: the stripe ID of slot 2 of row 5,000 in pool 3. -/
theorem test_stripe_id_example : stripeId 3 5000 2 = 0x000300000009C402 := by decide

/-- The same stripe ID names that row and slot. -/
theorem test_stripe_id_parts : (stripeRow 0x000300000009C402, stripeSlot 0x000300000009C402) = (5000, 2) := by decide

/-- A literal run of 4 bytes and a match of offset 4 and length 4, coded as R171 has it, and the same with a byte after the end byte (R172). -/
theorem test_unpack_example :
    (unpack [0xC0, 0x03, 0x41, 0x42, 0x43, 0x44, 0x03, 0x00, 0x00] 8, unpack [0xC0, 0x03, 0x41, 0x42, 0x43, 0x44, 0x03, 0x00, 0x00, 0x00] 8) =
      (some [0x41, 0x42, 0x43, 0x44, 0x41, 0x42, 0x43, 0x44], none) := by decide +kernel

/-- The LEN field of the worked case after R174: 241 + 3,781. -/
theorem test_lenField_example : lenField [0xFE, 0xC5] = some (4022, []) := by decide

/-- The worked case of the GCM IV on Twin B: stream 0000_0A17h, counter bits [62:0] at 1F4h. -/
theorem test_gcm_iv_example : gcmIv 0x0A17 (2 ^ 63 + 0x1F4) = [0x00, 0x00, 0x0A, 0x17, 0x80, 0x00, 0x00, 0x00, 0x00, 0x00, 0x01, 0xF4] := by
  decide

/-- The worked case after R694: the learn pair's Q_NEW from 117,900 µAh and half the state of charge. -/
theorem test_q_new_example : qNew (117900 * 36000) 500000 = 235800 := by decide

/-- The same case: Q_FULL becomes 255,450 µAh. -/
theorem test_learn_accept_example :
    (learnAccept 235800 (Dev.reset.wr HLD_CHARGE.Q_FULL 262000)).rd HLD_CHARGE.Q_FULL = 255450 := by decide +kernel

/-- E_DUMP is 597.6 J at 32 GiB (R695). -/
theorem test_e_dump_example : eDump 32 = 5976 := by decide

/-- The states of charge of two rest points of the worked case: 10.80 V and 9.52 V. -/
theorem test_soc_example : (socOf ocvDefault 10800, socOf ocvDefault 9520) = (some 1000000, some 500000) := by decide

/-- k(T) at the points of its table, between two of them, and beyond its ends (R690). -/
theorem test_k_of_temperature : [-500, -400, 0, 125, 250, 650, 900].map kOf =
    [6000000, 6000000, 1800000, 1400000, 1000000, 800000, 800000] := by decide


/-! ### Reads and the half's ports -/

/-- The Daxiekar DVSEC of function 257 (R565): its header, PART and STEPPING, and its FUNC. -/
theorem test_dvsec : (Dev.reset.cfgDword 257 0x604, Dev.reset.cfgDword 257 0x608, Dev.reset.cfgDword 257 0x60c / 2 ^ 16) =
    (0x0401D5A9, 0x09600001, 257) := by decide +kernel

/-- A doorbell slot that no queue pair of the PF stands behind reads as zero (R64). -/
theorem test_slot_reads_zero : (List.range 16).map (fun i => Dev.reset.barByte State.reset.fuses 0 (0x1000000 + 16 * 77 + i)) = List.replicate 16 0 := by
  decide +kernel

/-- A read of 2 bytes returns zeros (R567). -/
theorem test_read_shape : [readShape 0 2, readShape 4 4, readShape 4 8, readShape 3 16] = [false, true, false, true] := by decide

/-- A START below 1 MHz with open-drain timing and no I3C broadcast makes the port an SMBus target; a dynamic address assignment ends that (R805). -/
theorem test_smbus_mode : (((busStart .host true true false Dev.reset).pw .host).ports.smbus,
    ((busAssign .host (busStart .host true true false Dev.reset)).pw .host).ports.smbus,
    ((busStart .host true true true Dev.reset).pw .host).ports.smbus) = (true, false, false) := by decide +kernel

/-- EXTEST takes a half off its function; TRST# low brings IDCODE back (R796). -/
theorem test_extest : ((tapLoad .host false .extest Dev.reset).functional .host, (tapLoad .host true .extest Dev.reset).functional .host) =
    (false, true) := by decide +kernel
/-! ### Small states -/

/-- The reset state with another device. -/
def st (d : Dev) : State := { State.reset with dev := d }

/-- Both halves are released, the Schrund is up, and the PF of endpoint 0 decodes and may master the bus. -/
def up : Dev :=
  let d := (Dev.reset.modPw .host fun p => { p with held := false }).modPw .media fun p => { p with held := false }
  let d := d.each [Half.host, Half.media] fun d h => ((d.set (CRP_STATUS.RELEASED h)).wr (CRP_STATUS.STAGE h) 7).set (SCH_STATUS.UP h)
  (d.set (CFG.MSE 0)).set (CFG.BME 0)

/-- A packet with values at byte offsets. -/
def pkt (l : List (Nat × Nat)) : BitVec 512 := BitVec.ofNat 512 (l.foldl (fun v f => v + f.2 * 2 ^ (8 * f.1)) 0)

/-- A fetched command that waits. -/
def cm (l : List (Nat × Nat)) : Cmd :=
  { order := 0, pkt := pkt l, segs := [], dataLen := 0, stage := .ready, started := false, sent := false, took := false, keySlots := [],
    chunks := [], refs := 0, news := 0, recon := 0, warn := 0, buf := [], got := [], slice := 0, host := [], failed := none, joins := false,
    phase := 0, silent := false }

/-- An I/O queue of class B of the PF of endpoint 0. -/
def ioq (cs : List Cmd) : Queue := { Queue.make 0 16 1 false false 0 0 0 0x10000 0x20000 false with cmds := cs }

/-- An admin queue of the PF of endpoint 0. -/
def adq (cs : List Cmd) : Queue := { Queue.make 0 16 1 false false 0 0 0 0x10000 0x20000 true with cmds := cs }

/-- A device with a queue. -/
def withQ (q : Nat) (x : Queue) (d : Dev) : Dev := { d with rings := { d.rings with queues := tput d.rings.queues q x } }

/-- A state in which a command waits on queue 5. -/
def io (c : Cmd) : State := st (withQ 5 (ioq [c]) up)

/-- A state in which a command waits on the admin queue 0. -/
def ad (c : Cmd) : State := st (withQ 0 (adq [c]) up)

/-- A state with its device changed. -/
def chg (s : State) (f : Dev → Dev) : State := { s with dev := f s.dev }

/-- A run of a slice that met nothing, with data. -/
def run (b : Option Bytes) : SliceRun := ⟨b, 0, [], [], [], []⟩

/-- A namespace of 4,096-byte blocks in pool 0, attached to and owned by the PF of endpoint 0. -/
def ns : Ns := ⟨0, false, 0, 0, 1024, 1, 1, [], [0], some 0, 0, none, false, none, (0, 0, 0), []⟩

/-- A device with namespace 1. -/
def withNs (n : Ns) (d : Dev) : Dev := { d with nss := tput d.nss 1 n }

/-- A freeze group of the PF of endpoint 0 on queue 5. -/
def grp (state : GroupState) (ms : List Member) : Group := ⟨0, 7, 5, 1, 0, state, ms, 0, 0, false, 0, none, [], 0⟩

/-- A Calving stream of the PF of endpoint 0. -/
def strm (send : Bool) : Stream :=
  ⟨0, send, 5, 1, 1, 4000, 0, 0, 1, 0, 0, 0, false, false, 0, 4, 9, 0, 0, false, none, none, 0, 0, [], none, none⟩

/-- A key slot with a key of a type. -/
def key (type : Nat) : KeySlot := ⟨type, 1, List.replicate 64 1#8, 0, 0, 16, false, false, none⟩

/-- A device with a key slot. -/
def withKey (n type : Nat) (d : Dev) : Dev := { d with rime := { d.rime with slots := tput d.rime.slots n (key type) } }

/-- A pool of four members with one parity strip, owned by Twin A and online. -/
def pool : Pool :=
  { k := 2, m := 1, d := 4, spare := 1, big := false, seed := 0, rows := 8, members := [], relocs := [], home := 0, online := true, offline := false,
    offlineRec := false, level := 0, row := 0, slot := 0, mark := (0, 0), markAt := 0, sinceMark := 0, jobs := [], lost := [], repair := [],
    scrub := ⟨0, 0, false, 0, 0, (0, 0), [], false, false, 0⟩, warned := false, full := false, winSecs := 0 }

/-- A device with a pool 0. -/
def withPool (x : Pool) (d : Dev) : Dev := { d with pools := tput d.pools 0 x }

/-- A device with namespace 1 in pool 0. -/
def stored (d : Dev) : Dev := withPool pool (withNs ns d)

/-- A device key, and a blob of a data key for slot 2 (R199). -/
def kek : Bytes := List.replicate 32 3#8
def blob : Bytes := leBytes 1 1 ++ leBytes 1 0 ++ leBytes 2 2 ++ leBytes 4 9 ++ List.replicate 32 5#8 ++ List.replicate 32 6#8

/-- The second block of a write whose first is zero. -/
theorem pad_second : allZero (padTo 4096 (getBytes (List.replicate 4096 0#8 ++ [1#8]) 4096 4096)) = false := by
  unfold getBytes
  rw [List.drop_left' (by rw [List.length_replicate])]
  decide +kernel

/-- A ZERO message of stream 3 for one block, with its tag under the key of slot 4000. -/
def zeroHead : Bytes :=
  leBytes 2 0x5C4B ++ leBytes 1 1 ++ leBytes 1 3 ++ leBytes 4 3 ++ leBytes 4 0 ++ leBytes 4 1 ++ beBytes 4 3 ++ beBytes 8 0 ++ leBytes 4 0 ++
    leBytes 8 0 ++ leBytes 4 1 ++ leBytes 20 0
def zeroMsg : Bytes := zeroHead ++ gcmTag (List.replicate 64 1#8) (getBytes zeroHead 16 12) zeroHead []

/-- An image that is well formed and signed (R720 to R722), and not below the SVN floor, may be taken where no twin is connected. -/
theorem signed_taken (f : Fuses) (b : Bytes) (h : koFormatOk f b = true) (v : f.svn ≤ koSvn b) (d : Dev) (t : d.tstate = 0) :
    commitCause f (some b) d = 0 := by
  simp [commitCause, h, t, Nat.not_lt.2 v]

theorem waits_staging {ops : List Nat} {q tag : Nat} {d : Dev} {qu : Queue} {c : Cmd} (x : Staging) (w : Waits ops q tag d qu c) :
    Waits ops q tag { d with staging := x } qu c := w
theorem tstate_staging (d : Dev) (x : Staging) : ({ d with staging := x } : Dev).tstate = d.tstate := rfl

/-- An admitted activity of a kind for member 0 of pool 0, with a time limit. -/
def act (kind : Nat) : Activity := ⟨1, kind, 0, 0, 0, 5, 0, true, 0⟩

/-- A member in a state, on drive 0. -/
def mem (state : Nat) : PoolMember := { PoolMember.make state 0 with drive := some 0 }

/-- Drive 0, bound to member 0 of pool 0 (state 4), or not. -/
def drv (state : Nat) : Drive :=
  { Drive.found 0 0 4 4 0 0 [] 0 with state := state, pool := 0, member := 0, nguid := 77, lbads := 12, blocks := 1000000, ready := true }

/-- A device with a drive 0. -/
def withDrv (v : Drive) (d : Dev) : Dev := { d with drives := { d.drives with table := tput d.drives.table 0 v } }

/-- A device with pool 0 whose member 0 is in a state on drive 0. -/
def withMem (state : Nat) (d : Dev) : Dev := withDrv (drv 4) (withPool { pool with members := [(0, mem state)] } d)

/-- A device with an activity, and one with a service operation. -/
def withAct (a : Activity) (d : Dev) : Dev := { d with maint := { d.maint with acts := [a] } }
def svc (op : Nat) : ServiceOp := ⟨op, 0, 0, 1, 0, 0, 0, 0⟩
def withOp (o : ServiceOp) (d : Dev) : Dev := { d with maint := { d.maint with ops := [o] } }

/-- What a drive with no configuration block reports, and the block of member 0 of pool 0 of the pair 0. -/
def facts : DriveFacts := ⟨0, 77, 12, 1000000, true, true, 4, none, [], none⟩
def cfg : CfgBlock := ⟨2, 0, 0, 1, 0, 0, 77, [], [], 0, 0, [], 0⟩

/-- A device whose end of a link is another. -/
def withLink (l : LinkEnd) (x : Link) (d : Dev) : Dev :=
  match l with
  | .sch h => { d with sch := tput d.sch (halfNum h) x }
  | .snow => { d with snow := x }

/-- A link end with a transmitter and a receiver. -/
def lnk (tx : LinkTx) (rx : LinkRx) : Link := { Link.fresh with tx := tx, rx := rx }
def tx0 : LinkTx := { Link.fresh.tx with lanes := [0, 1, 2] }
def rx0 : LinkRx := { Link.fresh.rx with lanes := [0, 1, 2], locked := [0, 1, 2, 5], lost := [5], retraining := [5] }

/-- A state in which a command of queue 5 has crossed to the media half. -/
def sent (c : Cmd) : State := io { c with stage := .crossed, sent := true }
def crossed (l : List (Nat × Nat)) : Cmd := { cm l with stage := .crossed, sent := true }

/-- The context of a write of two blocks of namespace 1 by command 0 of queue 5, with items. -/
def wctx (items : List MItem) : MCtx :=
  ⟨5, 0, .write, 1, 0, 0, 2, 0, 0, 0, 2, (0, 0, 0), 0, items, 0, false, [], [], [], 0, 0, 0, false, 0, 0, 0, 0⟩

/-- A record of a type in pool 0, whose copy here is written. -/
def rec0 (rtype seq : Nat) : FRec := { FRec.empty with rtype := rtype, seq := seq, written := true }

/-- A record that both twins hold. -/
def acked (rtype seq : Nat) : FRec := { rec0 rtype seq with ack := some 0 }

/-- A device that holds a record in slot 3. -/
def withRec (r : FRec) (d : Dev) : Dev := { d with firn := { d.firn with recs := [(3, r)] } }

/-- Pool 0 with four members in service. -/
def pool4 : Pool := { pool with members := [(0, mem 1), (1, mem 1), (2, mem 1), (3, mem 1)] }

/-- A committed MAP record waits for destage. -/
def toDestage : State := chg (st up) fun d => withPool pool4 (withRec { rec0 rtMap 1 with committed := true, mapDelta := [.nsRemove 1] } d)

/-- A destage of the stripe in row 1. -/
def dst : Destage := ⟨0, ⟨stripeId 0 1 0, 0, 2, 1, false, [0, 1, 2], [], []⟩, 0, [], [], true, [], [], 0, 0, 0, (0, 0), false, [], 0, false, []⟩
def withDst (x : Destage) (d : Dev) : Dev := { d with destages := [x] }

/-- A live stripe in row 0 with a data strip, one of its strips missing or none. -/
def strp (missing : List Nat) : Stripe :=
  ⟨9, 2, 1, [0, 1, 2], [(1, 0, 1, 5), (1, 0, 1, 6), (0, 0, 0, 0)], missing, false, false, 0, false⟩
def withStripe (y : Stripe) (d : Dev) : Dev := { d with xmap := { d.xmap with stripes := [(stripeId 0 0 0, y)] } }

/-- A read of the stripe of row 0 that waits for an engine. -/
def rd0 (f : ReadFor) : StripeRead := ⟨4, 0, stripeId 0 0 0, f, (5, 0), ⟨8, 0, 0, 512, stripeId 0 0 0, 9⟩, 1, 0, [], [], [], true, true, 1⟩
def withRead (r : StripeRead) (d : Dev) : Dev := { d with reads := [r] }

/-- A stripe without live objects waits for its replacement while a record waits for destage. -/
def toCompact : State := chg toDestage fun d => withStripe (strp []) d

/-- The bytes of a record without sections are read back as a record of its pool and sequence number (R288). -/
def hd : Bytes := (rec0 rtMap 5).head88 0 0 ++ padTo 16 [] ++ List.replicate 144 0
def hdr : Bytes := hd ++ leBytes 8 (crc64 hd)
theorem hd_length : hd.length = 248 := by decide +kernel
theorem hdr_length : hdr.length = 256 := by simp [hdr, hd_length]
theorem hdr_read : ∃ r, recordOf hdr = some r ∧ r.pool = 0 ∧ r.seq = 5 ∧ r.npage = 0 := by
  have c := hcheck_checked (rest := []) hd_length
  simp only [List.append_nil] at c
  obtain ⟨r, e, -, p, q, n⟩ := recordOf_header (b := hdr) (by decide +kernel) hdr_length (by decide +kernel) (by decide +kernel) c (by decide +kernel)
  exact ⟨r, e, p.trans (by decide +kernel), q.trans (by decide +kernel), n⟩

/-- A device that has paired with its twin and hears it on three lanes. -/
def paired (d : Dev) : Dev := withLink .snow (lnk tx0 rx0) (d.wr TWN_STATUS.STATE 5)

/-- A device with another standing of its twin. -/
def withTwin (f : Twin → Twin) (d : Dev) : Dev := { d with twin := f d.twin }

/-- Witness designation 0 is drive 0. -/
def wtn : Witness := ⟨77, true, ⟨1, 0, 3, 0⟩⟩

/-- A Floe instruction: 32 bytes with values at byte offsets. -/
def ins (l : List (Nat × Nat)) : Bytes := leBytes 32 (l.foldl (fun v f => v + f.2 * 2 ^ (8 * f.1)) 0)

/-- A channel of the host half that the firmware drives, in a state, with its further standing. -/
def withChan (ch state : Nat) (x : Chan) (d : Dev) : Dev :=
  (d.wr (FLO_CH_STATUS.STATE .host ch) state).modChan .host ch fun _ => x

/-- A channel that awaits an instruction it has asked for. -/
def fetching : Chan := { Chan.fresh with await := some .fetch, issued := true, prog := 4096 }

/-- Where no channel has begun an instruction, none waits on an event. -/
theorem tget_all {α : Type} {P : α → Prop} {l : Tab α} (b : ∀ e ∈ l, P e.2) (n : Nat) : ∀ x, tget l n = some x → P x := by
  induction l with
  | nil => intro x h; exact nomatch h
  | cons e t ih =>
    intro x h
    unfold tget at h
    split at h
    · cases h; exact b e (by simp)
    · exact ih (fun e m => b e (List.mem_cons_of_mem _ m)) x h
theorem waits_none {d : Dev} (b : ∀ e ∈ d.floe.chans, e.2.begun = false) (h : Half) (ch k : Nat) : d.waitsEvent h ch k = false := by
  have u : (d.chan h ch).begun = false := by
    unfold Dev.chan
    cases e : tget d.floe.chans (chanNum h ch) with
    | none => rfl
    | some x => exact tget_all (P := fun c => c.begun = false) b _ x e
  simp [Dev.waitsEvent, u]

/-- A device whose gauge has another standing, and one with a pack that delivers. -/
def withGauge (f : Gauge → Gauge) (d : Dev) : Dev := { d with gauge := f d.gauge }
def packed (d : Dev) : Dev :=
  withGauge (fun g => { g with absent := false, enable := true, res := some 20 })
    ((((d.wr HLD_CHARGE.Q_FULL 4000000).wr HLD_CHARGE.Q_REM 3600000).wr HLD_RESERVE.IR25 200).wr HLD_MEAS.TEMP 250)

/-- A flash whose bank A has a header that passes, in which no start was accepted yet. -/
def flash0 : List Host.Cell :=
  [(0, 0xC3), (1, 0xA5), (2, 0x0F), (3, 0x6B), (4, 1), (8, 0), (9, 0x10), (10, 0), (11, 0)]

/-- Fuses without a programmed key accept no image. -/
theorem image_refused {f : Fuses} (h : f.hashes = []) (b : Bytes) : imageValid f b = false := by
  simp [imageValid, koFormatOk, keyOk, h]

/-- A start-up that meets nothing wrong. -/
def good : StartFacts := ⟨(true, true), (0, 0), (0, 0), (true, true), true, (true, true), List.range 18, List.range 18, true⟩

/-- The module right after power-on, with other fuses and another flash. -/
def cold (f : Fuses) (m : List Host.Cell) : State := { State.reset with fuses := f, flash := m }

theorem cold_startup {x : StartFacts} (e : x.ends = (true, true)) (p : x.parity = (true, true)) (f : Fuses) (m : List Host.Cell)
    (n : f.lifecycle ≠ 3) : Ready.startup x (cold f m) :=
  ⟨e, p, show Dev.reset.mayStart .host = true by decide +kernel, show Dev.reset.mayStart .media = true by decide +kernel,
    fun h => show (Dev.reset.pw h).stopped = false ∧ Dev.reset.rd (CRP_STATUS.RELEASED h) = 0 by cases h <;> decide +kernel, rfl, rfl, rfl, rfl, n⟩

/-- A valid record of the gauge with sequence number 6 (R705). -/
def grec : Bytes :=
  let b : Bytes := leBytes 4 0x48D70E5B ++ [1, 1, 0, 0] ++ leBytes 4 6 ++ leBytes 4 4000000 ++ leBytes 4 200 ++ List.replicate 40 0
  b ++ leBytes 4 (crc32c b)

/-- Both halves wait for the Schrund to train again. -/
def retrying : Dev :=
  (Dev.reset.each [Half.host, Half.media] fun d h => (d.modPw h fun p => { p with held := false }).wr (CRP_STATUS.STAGE h) 4).wr
    (CRP_STATUS.START_FAIL .host) 5

/-- The register at an offset of a management port. -/
theorem regAt (h : Half) (off : Nat) (i : (portReg h off).isSome = true) : portReg h off = some ((portReg h off).get i) := (Option.some_get i).symm

theorem reset_legal : State.reset.Legal where
  flash := by decide
  lifecycle := by decide
  revoked := by decide
  hashes := by decide
theorem witness_RingEngineCommandsTakeEffect_1 : ∃ e value s, (∃ t, exec (.registerWrite (.pf e) 0x100000 8 value) s = .next t) ∧ e < 4 ∧
    s.dev.decodes (256 * e) = true ∧ s.dev.is (RNG_AQ_CFG.ENABLE (256 * e)) = false :=
  ⟨0, 0, st up, ⟨_, rfl⟩, by decide +kernel⟩

theorem witness_RingEngineCommandsTakeEffect_2 : ∃ fn off value qi q s, (∃ t, exec (.doorbellWrite fn off 4 value) s = .next t) ∧
    Ready.tail fn off qi q s ∧ value % 65536 < q.depth :=
  ⟨0, 0x1000050, 3, 5, ioq [], st (withQ 5 (ioq []) up), ⟨_, rfl⟩, by decide +kernel⟩

theorem witness_RingEngineCommandsTakeEffect_3 : ∃ fn off value qi q s, (∃ t, exec (.doorbellWrite fn off 4 value) s = .next t) ∧
    Ready.tail fn off qi q s ∧ q.depth ≤ value % 65536 :=
  ⟨0, 0x1000050, 16, 5, ioq [], st (withQ 5 (ioq []) up), ⟨_, rfl⟩, by decide +kernel⟩

theorem witness_RingEngineCommandsTakeEffect_4 : ∃ pick qi q s, (∃ t, exec (.ringFetchGrant pick) s = .next t) ∧ Ready.fetch qi q s :=
  ⟨0, 5, { ioq [] with sqTail := 1 }, st (withQ 5 { ioq [] with sqTail := 1 } up), ⟨_, rfl⟩, by decide +kernel⟩

theorem witness_RingEngineCommandsTakeEffect_5 : ∃ order lists run qi q p segs s,
    (∃ t, exec (.packetFetched order (some p) lists run) s = .next t) ∧ Ready.packet order qi q s ∧
    packetChecks qi { q with fetches := q.fetches - 1 } p lists (s.dev.atPacket order qi p) = .inl segs ∧ s.dev.holding q.fn = false ∧
    s.dev.twin.act = none ∧ pktMember p = false ∧ [0x40, 0x41, 0x42, 0x87, 0x88].contains (pktOp p) = false :=
  ⟨0, [], run none, 5, { ioq [] with fetches := 1 }, pkt [(1, 1)], [],
    chg (st (withQ 5 { ioq [] with fetches := 1 } up)) fun d => d.modRings fun r => { r with fetches := [(0, 5)] }, ⟨_, rfl⟩,
    by decide +kernel⟩

theorem witness_RingEngineCommandsTakeEffect_6 : ∃ order lists run qi q p st s,
    (∃ t, exec (.packetFetched order (some p) lists run) s = .next t) ∧ Ready.packet order qi q s ∧ Room s.dev q ∧
    packetChecks qi { q with fetches := q.fetches - 1 } p lists (s.dev.atPacket order qi p) = .inr st :=
  ⟨0, [], run none, 5, { ioq [] with fetches := 1 }, pkt [(0, 0xFF)], stInvalidOpcode,
    chg (st (withQ 5 { ioq [] with fetches := 1 } up)) fun d => d.modRings fun r => { r with fetches := [(0, 5)] }, ⟨_, rfl⟩,
    by decide +kernel⟩

theorem witness_RingEngineCommandsTakeEffect_7 : ∃ arb cls fn work s, (∀ e, arb = .epWrite e → s.dev.deliveries e = []) ∧
    (∃ t, exec (.arbiterGrant arb ⟨[(cls, fn)], work⟩) s = .next t) ∧ cls < 4 ∧
    ¬ (1 ≤ (s.dev.arb arb).pos ∧ (s.dev.arb arb).pos ≤ s.dev.idleGrants arb) :=
  ⟨.ringFetch, 1, 0, [], st up, fun _ h => (nomatch h), ⟨_, rfl⟩, by decide +kernel⟩

theorem witness_RingEngineCommandsTakeEffect_8 : ∃ qi q s, (∃ t, exec (.coalescingTimeout qi) s = .next t) ∧ Ready.coalesced qi q s :=
  ⟨5, { ioq [] with irq := true, coalT := 1, unsig := 1 },
    st (withQ 5 { ioq [] with irq := true, coalT := 1, unsig := 1 } ((up.set (CFG.MSIX_EN 0)).modFn 0 fun f => { f with msix := [(0, ⟨0, 0, false⟩)] })),
    ⟨_, rfl⟩, by decide +kernel⟩

theorem witness_IoCommandsCross_1 : ∃ q tag qu c s, (∃ t, exec (.nop q tag) s = .next t) ∧ Waits [0] q tag s.dev qu c ∧ Free s.dev c :=
  ⟨5, 0, ioq [cm [(0, 0)]], cm [(0, 0)], io (cm [(0, 0)]), ⟨_, rfl⟩, by decide +kernel⟩

theorem witness_IoCommandsCross_2 : ∃ q tag qu c s, (∃ t, exec (.read q tag) s = .next t) ∧ Ready.io 2 q tag qu c s ∧ Ready.sliced q c s :=
  ⟨5, 0, ioq [cm [(0, 2)]], cm [(0, 2)], io (cm [(0, 2)]), ⟨_, rfl⟩, by decide +kernel⟩

theorem witness_IoCommandsCross_3 : ∃ q tag qu c s, (∃ t, exec (.verify q tag) s = .next t) ∧ Ready.io 7 q tag qu c s ∧ Ready.sliced q c s :=
  ⟨5, 0, ioq [cm [(0, 7)]], cm [(0, 7)], io (cm [(0, 7)]), ⟨_, rfl⟩, by decide +kernel⟩

theorem witness_IoCommandsCross_4 : ∃ q tag qu c s, (∃ t, exec (.writeZeroes q tag) s = .next t) ∧ Ready.io 3 q tag qu c s :=
  ⟨5, 0, ioq [cm [(0, 3)]], cm [(0, 3)], io (cm [(0, 3)]), ⟨_, rfl⟩, by decide +kernel⟩

theorem witness_IoCommandsCross_5 : ∃ q tag qu c s, (∃ t, exec (.deallocate q tag) s = .next t) ∧ Ready.io 4 q tag qu c s :=
  ⟨5, 0, ioq [cm [(0, 4)]], cm [(0, 4)], io (cm [(0, 4)]), ⟨_, rfl⟩, by decide +kernel⟩

theorem witness_IoCommandsCross_6 : ∃ q tag b qu c s, (∃ t, exec (.compare q tag (some b)) s = .next t) ∧ Ready.io 5 q tag qu c s ∧
    Ready.sliced q c s :=
  ⟨5, 0, [], ioq [cm [(0, 5)]], cm [(0, 5)], io (cm [(0, 5)]), ⟨_, rfl⟩, by decide +kernel⟩

theorem witness_IoCommandsCross_7 : ∃ q tag qu c s, (∃ t, exec (.copy q tag) s = .next t) ∧ Ready.io 8 q tag qu c s ∧
    copyCheck qu.fn c.pkt s.dev = 0 :=
  ⟨5, 0, ioq [cm [(0, 8), (4, 1), (24, 1), (48, 1)]], cm [(0, 8), (4, 1), (24, 1), (48, 1)],
    chg (io (cm [(0, 8), (4, 1), (24, 1), (48, 1)])) fun d => stored d, ⟨_, rfl⟩, by decide +kernel⟩

theorem witness_IoCommandsCross_8 : ∃ q tag run b qu c n sl s, (∃ t, exec (.write q tag run) s = .next t) ∧ Ready.io 1 q tag qu c s ∧
    run.data = some b ∧ Ready.rawWrite run c n sl (padTo n.blockSize b) s :=
  ⟨5, 0, run (some [1#8]), [1#8], ioq [cm [(0, 1), (4, 1), (24, 1)]], cm [(0, 1), (4, 1), (24, 1)], ns, 0,
    chg (io (cm [(0, 1), (4, 1), (24, 1)])) fun d => { stored d with ingest := { d.ingest with lease := [(0, (1, 5))] } }, ⟨_, rfl⟩,
    by decide +kernel⟩

theorem witness_IoCommandsCross_9 : ∃ q tag run b qu c n sl s, run.data = some b ∧
    Ready.rawWrite run c n sl (padTo n.blockSize (getBytes b n.blockSize n.blockSize)) s ∧
    (∃ t, exec (.compareAndWrite q tag run) s = .next t) ∧ Ready.io 6 q tag qu c s :=
  ⟨5, 0, run (some (List.replicate 4096 0#8 ++ [1#8])), (List.replicate 4096 0#8 ++ [1#8]), ioq [cm [(0, 6), (4, 1), (24, 1)]],
    cm [(0, 6), (4, 1), (24, 1)], ns, 0,
    chg (io (cm [(0, 6), (4, 1), (24, 1)])) fun d => { stored d with ingest := { d.ingest with lease := [(0, (1, 5))] } }, rfl,
    by refine ⟨?_, ?_, ?_, ?_, ?_, ?_, ?_, ?_, ?_, ?_, ?_, pad_second⟩ <;> decide +kernel, ⟨_, rfl⟩, by decide +kernel⟩

theorem witness_IoCommandsCross_10 : ∃ q tag run b qu c n sl s, (∃ t, exec (.write q tag run) s = .next t) ∧ Ready.io 1 q tag qu c s ∧
    run.data = some b ∧ s.dev.ns (pktNsid c.pkt) = some n ∧ c.chunks = [] ∧ c.sent = false ∧ pktNlb c.pkt = 1 ∧
    s.dev.rimeBlocked = false ∧ s.dev.sliceFor run.slice = some sl ∧ allZero (padTo n.blockSize b) = true :=
  ⟨5, 0, run (some []), [], ioq [cm [(0, 1), (4, 1), (24, 1)]], cm [(0, 1), (4, 1), (24, 1)], ns, 0,
    chg (io (cm [(0, 1), (4, 1), (24, 1)])) fun d => stored d, ⟨_, rfl⟩, by decide +kernel⟩

theorem witness_GroupAndSnapshotCommandsCross_1 : ∃ q tag qu c g s, (∃ t, exec (.groupOpen q tag) s = .next t) ∧
    Ready.io 0x40 q tag qu c s ∧ Ready.group qu.fn c g s :=
  ⟨5, 0, ioq [cm [(0, 64), (8, 7)]], cm [(0, 64), (8, 7)], grp .opened [],
    chg (io (cm [(0, 64), (8, 7)])) fun d => d.modFirn fun f => { f with groups := [grp .opened []] }, ⟨_, rfl⟩, by decide +kernel⟩

theorem witness_GroupAndSnapshotCommandsCross_2 : ∃ q tag qu c g s, (∃ t, exec (.groupSeal q tag) s = .next t) ∧
    Ready.io 0x41 q tag qu c s ∧ Ready.group qu.fn c g s :=
  ⟨5, 0, ioq [cm [(0, 65), (8, 7)]], cm [(0, 65), (8, 7)], grp .opened [],
    chg (io (cm [(0, 65), (8, 7)])) fun d => d.modFirn fun f => { f with groups := [grp .opened []] }, ⟨_, rfl⟩, by decide +kernel⟩

theorem witness_GroupAndSnapshotCommandsCross_3 : ∃ q tag qu c s, (∃ t, exec (.groupDiscard q tag) s = .next t) ∧
    Ready.io 0x42 q tag qu c s ∧ c.phase = 7 :=
  ⟨5, 0, ioq [{ cm [(0, 0x42)] with phase := 7 }], { cm [(0, 0x42)] with phase := 7 }, io { cm [(0, 0x42)] with phase := 7 }, ⟨_, rfl⟩,
    by decide +kernel⟩

theorem witness_GroupAndSnapshotCommandsCross_4 : ∃ q tag qu c s, (∃ t, exec (.groupQuery q tag) s = .next t) ∧ Ready.io 0x43 q tag qu c s :=
  ⟨5, 0, ioq [cm [(0, 67)]], cm [(0, 67)], io (cm [(0, 67)]), ⟨_, rfl⟩, by decide +kernel⟩

theorem witness_GroupAndSnapshotCommandsCross_5 : ∃ q tag qu c s, (∃ t, exec (.snapCreate q tag) s = .next t) ∧
    Ready.io 0x48 q tag qu c s ∧ s.dev.snapWaits q c = false :=
  ⟨5, 0, ioq [cm [(0, 72)]], cm [(0, 72)], io (cm [(0, 72)]), ⟨_, rfl⟩, by decide +kernel⟩

theorem witness_GroupAndSnapshotCommandsCross_6 : ∃ q tag qu c s, (∃ t, exec (.snapDelete q tag) s = .next t) ∧ Ready.io 0x49 q tag qu c s :=
  ⟨5, 0, ioq [cm [(0, 73)]], cm [(0, 73)], io (cm [(0, 73)]), ⟨_, rfl⟩, by decide +kernel⟩

theorem witness_GroupAndSnapshotCommandsCross_7 : ∃ q tag qu c s, (∃ t, exec (.cloneCreate q tag) s = .next t) ∧
    Ready.io 0x4A q tag qu c s ∧ snapOperand c.pkt ≠ 0 :=
  ⟨5, 0, ioq [cm [(0, 74), (8, 1)]], cm [(0, 74), (8, 1)], io (cm [(0, 74), (8, 1)]), ⟨_, rfl⟩, by decide +kernel⟩

theorem witness_GroupAndSnapshotCommandsCross_8 : ∃ q tag qu c s, (∃ t, exec (.cloneCreate q tag) s = .next t) ∧
    Ready.io 0x4A q tag qu c s ∧ snapOperand c.pkt = 0 ∧ s.dev.snapWaits q c = false :=
  ⟨5, 0, ioq [cm [(0, 74)]], cm [(0, 74)], io (cm [(0, 74)]), ⟨_, rfl⟩, by decide +kernel⟩

theorem witness_CalvingCommandsTakeEffect_1 : ∃ q tag qu c n s, (∃ t, exec (.calveOpen q tag) s = .next t) ∧
    Waits [0x50] q tag s.dev qu c ∧ Free s.dev c ∧ s.dev.ns (pktNsid c.pkt) = some n ∧ calveOpenCheck qu c n s.dev = 0 :=
  ⟨5, 0, ioq [cm [(0, 0x50), (4, 1), (28, 1), (48, 3), (52, 4000)]], cm [(0, 0x50), (4, 1), (28, 1), (48, 3), (52, 4000)],
    { ns with flags := 1 },
    chg (io (cm [(0, 0x50), (4, 1), (28, 1), (48, 3), (52, 4000)])) fun d => withKey 4000 3 (withPool pool (withNs { ns with flags := 1 } d)),
    ⟨_, rfl⟩, by decide +kernel⟩

theorem witness_CalvingCommandsTakeEffect_2 : ∃ q tag sid qu c st s, (∃ t, exec (.calveClose q tag) s = .next t) ∧
    Ready.stream 0x51 q tag sid qu c st s ∧ st.send = true ∧ st.ended = some 0 :=
  ⟨5, 0, 3, ioq [cm [(0, 0x51), (48, 3)]], cm [(0, 0x51), (48, 3)], { strm true with ended := some 0 },
    chg (io (cm [(0, 0x51), (48, 3)])) fun d => { d with streams := [(3, { strm true with ended := some 0 })] }, ⟨_, rfl⟩,
    by decide +kernel⟩

theorem witness_CalvingCommandsTakeEffect_3 : ∃ q tag sid addr x qu c st s, (∃ t, exec (.calveSave q tag) s = .next t) ∧
    Ready.stream 0x53 q tag sid qu c st s ∧ st.ctx = some x ∧ pktField c.pkt 52 1 = 0 ∧ c.segs = [(addr, 64)] ∧
    (st.send = true → s.dev.rime.pending.length < 256 ∧ s.dev.rimeBlocked = false) :=
  ⟨5, 0, 3, 4096, ⟨1, 0, 0, 0⟩, ioq [{ cm [(0, 0x53), (48, 3)] with segs := [(4096, 64)] }],
    { cm [(0, 0x53), (48, 3)] with segs := [(4096, 64)] }, { strm true with ctx := some ⟨1, 0, 0, 0⟩ },
    chg (io ({ cm [(0, 0x53), (48, 3)] with segs := [(4096, 64)] })) fun d => { d with streams := [(3, { strm true with ctx := some ⟨1, 0, 0, 0⟩ })] },
    ⟨_, rfl⟩, by decide +kernel⟩

theorem witness_CalvingCommandsTakeEffect_4 : ∃ q tag sid slice b qu c st s,
    (∃ t, exec (.calveRestore q tag (some b) slice .agree) s = .next t) ∧ Ready.stream 0x54 q tag sid qu c st s ∧
    Ready.restore slice sid b c st s :=
  ⟨5, 0, 3, 0, (leBytes 1 1 ++ leBytes 1 1 ++ leBytes 2 4000 ++ leBytes 4 1 ++ leBytes 4 3), ioq [cm [(0, 0x54), (48, 3)]],
    cm [(0, 0x54), (48, 3)], strm false,
    chg (io (cm [(0, 0x54), (48, 3)])) fun d => { withKey 4000 3 d with streams := [(3, strm false)] }, ⟨_, rfl⟩, by decide +kernel⟩

theorem witness_CalvingCommandsTakeEffect_5 : ∃ q tag sid run b qu c n st s, (∃ t, exec (.calveApply q tag run) s = .next t) ∧
    Ready.stream 0x52 q tag sid qu c st s ∧ Ready.applyZero run b c n st s :=
  ⟨5, 0, 3, run (some zeroMsg), zeroMsg, ioq [{ cm [(0, 0x52), (4, 1), (48, 3)] with dataLen := 80 }],
    { cm [(0, 0x52), (4, 1), (48, 3)] with dataLen := 80 }, { ns with flags := 1 }, strm false,
    chg (io ({ cm [(0, 0x52), (4, 1), (48, 3)] with dataLen := 80 })) fun d => { withKey 4000 3 (withPool pool (withNs { ns with flags := 1 } d)) with streams := [(3, strm false)] },
    ⟨_, rfl⟩, by decide +kernel⟩

theorem witness_AdminReadsAndSettingsAnswer_1 : ∃ q tag addr qu c s, (∃ t, exec (.identify q tag) s = .next t) ∧
    Waits [0x80] q tag s.dev qu c ∧ pktField c.pkt 48 1 = 2 ∧ c.segs = [(addr, 4096)] :=
  ⟨0, 0, 4096, adq [{ cm [(0, 0x80), (48, 2)] with segs := [(4096, 4096)] }], { cm [(0, 0x80), (48, 2)] with segs := [(4096, 4096)] },
    ad ({ cm [(0, 0x80), (48, 2)] with segs := [(4096, 4096)] }), ⟨_, rfl⟩, by decide +kernel⟩

theorem witness_AdminReadsAndSettingsAnswer_2 : ∃ q tag addr n b qu c s, (∃ t, exec (.logRead q tag) s = .next t) ∧
    Waits [0x81] q tag s.dev qu c ∧ pktField c.pkt 48 1 = 1 ∧ pktField c.pkt 56 8 % logEntry 1 = 0 ∧ c.segs = [(addr, n)] ∧
    b = logSlice (s.dev.logPage 1 0 0 0) (logEntry 1) (pktField c.pkt 56 8 / logEntry 1) c.dataLen ∧ b ≠ [] :=
  ⟨0, 0, 4096, 32, LedgerRec.bytes ⟨5, 0, 1, 0, 0, 0, 0, false, false, false, 1⟩,
    adq [{ cm [(0, 0x81), (48, 1)] with segs := [(4096, 32)], dataLen := 32 }],
    { cm [(0, 0x81), (48, 1)] with segs := [(4096, 32)], dataLen := 32 },
    chg (ad ({ cm [(0, 0x81), (48, 1)] with segs := [(4096, 32)], dataLen := 32 })) fun d => d.modLed .host fun l => { l with recs := [⟨5, 0, 1, 0, 0, 0, 0, false, false, false, 1⟩] },
    ⟨_, rfl⟩, by decide +kernel⟩

theorem witness_AdminReadsAndSettingsAnswer_3 : ∃ q tag qu c s, (∃ t, exec (.featureGet q tag) s = .next t) ∧
    Waits [0x82] q tag s.dev qu c ∧ pktField c.pkt 48 1 = 1 :=
  ⟨0, 0, adq [cm [(0, 0x82), (48, 1)]], cm [(0, 0x82), (48, 1)], ad (cm [(0, 0x82), (48, 1)]), ⟨_, rfl⟩, by decide +kernel⟩

theorem witness_AdminReadsAndSettingsAnswer_4 : ∃ q tag p qu c s, (∃ t, exec (.featureGet q tag) s = .next t) ∧
    Waits [0x82] q tag s.dev qu c ∧ Ready.media s ∧ pktField c.pkt 48 1 = 0x20 ∧ pktField c.pkt 49 1 = p ∧ p < 8 :=
  ⟨0, 0, 3, adq [cm [(0, 0x82), (48, 0x20), (49, 3)]], cm [(0, 0x82), (48, 0x20), (49, 3)], ad (cm [(0, 0x82), (48, 0x20), (49, 3)]),
    ⟨_, rfl⟩, by decide +kernel⟩

theorem witness_AdminReadsAndSettingsAnswer_5 : ∃ q tag qu c s, (∃ t, exec (.classWeights q tag) s = .next t) ∧
    Ready.feature 1 q tag qu c s ∧ pktField c.pkt 56 1 ≠ 0 ∧ pktField c.pkt 57 1 ≠ 0 ∧ pktField c.pkt 58 1 ≠ 0 :=
  ⟨0, 0, adq [cm [(0, 0x83), (48, 1), (56, 1), (57, 255), (58, 2)]], cm [(0, 0x83), (48, 1), (56, 1), (57, 255), (58, 2)],
    ad (cm [(0, 0x83), (48, 1), (56, 1), (57, 255), (58, 2)]), ⟨_, rfl⟩, by decide +kernel⟩

theorem witness_AdminReadsAndSettingsAnswer_6 : ∃ q tag qu c s, (∃ t, exec (.classWeights q tag) s = .next t) ∧
    Ready.feature 1 q tag qu c s ∧ (pktField c.pkt 56 1 = 0 ∨ pktField c.pkt 57 1 = 0 ∨ pktField c.pkt 58 1 = 0) :=
  ⟨0, 0, adq [cm [(0, 0x83), (48, 1), (56, 1), (58, 2)]], cm [(0, 0x83), (48, 1), (56, 1), (58, 2)],
    ad (cm [(0, 0x83), (48, 1), (56, 1), (58, 2)]), ⟨_, rfl⟩, by decide +kernel⟩

theorem witness_AdminReadsAndSettingsAnswer_7 : ∃ q tag qu c s, (∃ t, exec (.tenantWeight q tag) s = .next t) ∧
    Ready.feature 2 q tag qu c s ∧ pktField c.pkt 56 1 ≠ 0 ∧ epOf (pktField c.pkt 52 2) = epOf qu.fn :=
  ⟨0, 0, adq [cm [(0, 0x83), (48, 2), (52, 255), (56, 255)]], cm [(0, 0x83), (48, 2), (52, 255), (56, 255)],
    ad (cm [(0, 0x83), (48, 2), (52, 255), (56, 255)]), ⟨_, rfl⟩, by decide +kernel⟩

theorem witness_AdminReadsAndSettingsAnswer_8 : ∃ q tag qu c s, (∃ t, exec (.classAEvents q tag) s = .next t) ∧
    Ready.feature 3 q tag qu c s :=
  ⟨0, 0, adq [cm [(0, 0x83), (48, 3)]], cm [(0, 0x83), (48, 3)], ad (cm [(0, 0x83), (48, 3)]), ⟨_, rfl⟩, by decide +kernel⟩

theorem witness_MediaFeaturesAreTaken_1 : ∃ q tag p v qu c s, (∃ t, exec (.poolGeometry q tag) s = .next t) ∧
    Ready.feature 0x20 q tag qu c s ∧ Ready.media s ∧ s.dev.tstate = 5 ∧ pktField c.pkt 49 1 = p ∧ p < 8 ∧ pktField c.pkt 56 8 = v ∧
    geometryOk v = true ∧ s.dev.poolStripes p = [] :=
  ⟨0, 0, 7, 2178, adq [cm [(0, 0x83), (48, 0x20), (49, 7), (56, 2178)]], cm [(0, 0x83), (48, 0x20), (49, 7), (56, 2178)],
    chg (ad (cm [(0, 0x83), (48, 0x20), (49, 7), (56, 2178)])) fun d => d.wr TWN_STATUS.STATE 5, ⟨_, rfl⟩, by decide +kernel⟩

theorem witness_MediaFeaturesAreTaken_2 : ∃ q tag w ports qu c s, (∃ t, exec (.witnessSet q tag ports) s = .next t) ∧
    Ready.feature 0x21 q tag qu c s ∧ Ready.media s ∧ Ready.clearWitness w c s :=
  ⟨0, 0, 4, [], adq [cm [(0, 0x83), (48, 0x21), (49, 4), (56, 0xFFFFFFFF)]], cm [(0, 0x83), (48, 0x21), (49, 4), (56, 0xFFFFFFFF)],
    chg (ad (cm [(0, 0x83), (48, 0x21), (49, 4), (56, 0xFFFFFFFF)])) fun d => d.wr TWN_STATUS.STATE 5, ⟨_, rfl⟩, by decide +kernel⟩

theorem witness_MediaFeaturesAreTaken_3 : ∃ q tag n qu c s, (∃ t, exec (.enumWindow q tag) s = .next t) ∧
    Ready.feature 0x22 q tag qu c s ∧ Ready.media s ∧ s.dev.tstate ≠ 5 ∧ pktField c.pkt 56 4 = n ∧ (n = 0 ∨ 1000 ≤ n ∧ n ≤ 600000) :=
  ⟨0, 0, 600000, adq [cm [(0, 0x83), (48, 0x22), (56, 600000)]], cm [(0, 0x83), (48, 0x22), (56, 600000)],
    ad (cm [(0, 0x83), (48, 0x22), (56, 600000)]), ⟨_, rfl⟩, by decide +kernel⟩

theorem witness_MediaFeaturesAreTaken_4 : ∃ q tag v qu c s, (∃ t, exec (.mediaReg q tag) s = .next t) ∧ Ready.feature 0x30 q tag qu c s ∧
    Ready.media s ∧ s.dev.tstate ≠ 5 ∧ s.dev.ctxs = [] ∧ qu.fn = 0 ∧ pktField c.pkt 49 1 = 0 ∧ pktField c.pkt 52 4 = 0x700004 ∧
    pktField c.pkt 56 8 = v ∧ bits v 0 8 ≠ 0 ∧ bits v 8 8 ≠ 0 ∧ bits v 16 8 ≠ 0 :=
  ⟨0, 0, 65793, adq [cm [(0, 0x83), (48, 0x30), (52, 0x700004), (56, 65793)]], cm [(0, 0x83), (48, 0x30), (52, 0x700004), (56, 65793)],
    ad (cm [(0, 0x83), (48, 0x30), (52, 0x700004), (56, 65793)]), ⟨_, rfl⟩, by decide +kernel⟩

theorem witness_FirmwareIsStagedAndStored_1 : ∃ q tag b qu c s, b.length = 4096 ∧ (∃ t, exec (.fwDownload q tag (some b)) s = .next t) ∧
    Waits [0x84] q tag s.dev qu c ∧ bit (pktField c.pkt 52 1) 0 = true ∧ c.dataLen = 4096 ∧ pktField c.pkt 48 4 + 4096 ≤ 2 ^ 27 :=
  ⟨0, 0, List.replicate 4096 0#8, adq [{ cm [(0, 0x84), (52, 1)] with dataLen := 4096 }],
    { cm [(0, 0x84), (52, 1)] with dataLen := 4096 }, ad ({ cm [(0, 0x84), (52, 1)] with dataLen := 4096 }), List.length_replicate,
    ⟨_, rfl⟩, by decide +kernel⟩

theorem witness_FirmwareIsStagedAndStored_2
    (f : Fuses)
    (b : Bytes)
    (h : koFormatOk f b = true)
    (v : f.svn ≤ koSvn b)
    (i : ∀ x,
    (Staging.mk [(0, b)] b.length x).image = some b) :
    ∃ q tag b qu c s,
    Waits [0x85] q tag s.dev qu c ∧ s.dev.staging.image = some b ∧ commitCause s.fuses (some b) s.dev = 0 ∧
    (∃ t, exec (.fwCommit q tag) s = .next t) ∧ pktField c.pkt 48 1 = 0 :=
  ⟨0, 0, b, adq [cm [(0, 0x85)]], cm [(0, 0x85)],
    { chg (ad (cm [(0, 0x85)])) fun d => { d with staging := ⟨[(0, b)], b.length, false⟩ } with fuses := f },
    waits_staging _ (by decide +kernel), i _, signed_taken f b h v _ ((tstate_staging _ _).trans (by decide +kernel)), ⟨_, rfl⟩,
    by decide +kernel⟩

theorem witness_QueuePairsAreCreatedResetAndFreed_1 : ∃ q tag qu c s, (∃ t, exec (.queueCreate q tag) s = .next t) ∧
    Waits [0x86] q tag s.dev qu c ∧ queueCreateCheck qu.fn c.pkt s.dev = 0 :=
  ⟨0, 0, adq [cm [(0, 0x86), (32, 0x10000), (40, 128), (48, 0x20000), (56, 9), (60, 1)]],
    cm [(0, 0x86), (32, 0x10000), (40, 128), (48, 0x20000), (56, 9), (60, 1)],
    ad (cm [(0, 0x86), (32, 0x10000), (40, 128), (48, 0x20000), (56, 9), (60, 1)]), ⟨_, rfl⟩, by decide +kernel⟩

theorem witness_QueuePairsAreCreatedResetAndFreed_2 : ∃ q tag tq qu x c s, (∃ t, exec (.queueDelete q tag) s = .next t) ∧
    Waits [0x87] q tag s.dev qu c ∧ Ready.reset q tq qu x c s :=
  ⟨0, 0, 9, adq [cm [(0, 135), (56, 9)]], ioq [], cm [(0, 135), (56, 9)], chg (ad (cm [(0, 135), (56, 9)])) fun d => withQ 9 (ioq []) d,
    ⟨_, rfl⟩, by decide +kernel⟩

theorem witness_QueuePairsAreCreatedResetAndFreed_3 : ∃ q tag tq qu x c s, (∃ t, exec (.queueReset q tag) s = .next t) ∧
    Waits [0x88] q tag s.dev qu c ∧ Ready.reset q tq qu x c s :=
  ⟨0, 0, 9, adq [cm [(0, 136), (56, 9)]], ioq [], cm [(0, 136), (56, 9)], chg (ad (cm [(0, 136), (56, 9)])) fun d => withQ 9 (ioq []) d,
    ⟨_, rfl⟩, by decide +kernel⟩

theorem witness_QueuePairsAreCreatedResetAndFreed_4 : ∃ q x aq r c s, (∃ t, exec (.queueResetDone q) s = .next t) ∧
    Ready.resetOver q x aq r c s ∧ r.delete = false :=
  ⟨9, { ioq [] with reset := some ⟨0, 0, false, 0, 0, false, false⟩ }, adq [{ cm [(0, 0x88), (56, 9)] with stage := .hostWork }],
    ⟨0, 0, false, 0, 0, false, false⟩, { cm [(0, 0x88), (56, 9)] with stage := .hostWork },
    chg (ad ({ cm [(0, 0x88), (56, 9)] with stage := .hostWork })) fun d => withQ 9 { ioq [] with reset := some ⟨0, 0, false, 0, 0, false, false⟩ } d,
    ⟨_, rfl⟩, by decide +kernel⟩

theorem witness_QueuePairsAreCreatedResetAndFreed_5 : ∃ q x aq r c s, (∃ t, exec (.queueResetDone q) s = .next t) ∧
    Ready.resetOver q x aq r c s ∧ r.delete = true :=
  ⟨9, { ioq [] with reset := some ⟨0, 0, true, 0, 0, false, false⟩ }, adq [{ cm [(0, 0x88), (56, 9)] with stage := .hostWork }],
    ⟨0, 0, true, 0, 0, false, false⟩, { cm [(0, 0x88), (56, 9)] with stage := .hostWork },
    chg (ad ({ cm [(0, 0x88), (56, 9)] with stage := .hostWork })) fun d => withQ 9 { ioq [] with reset := some ⟨0, 0, true, 0, 0, false, false⟩ } d,
    ⟨_, rfl⟩, by decide +kernel⟩

theorem witness_KeySlotsEventRingsAndBlocksAreSet_1
    (w : Bytes)
    (h : kwUnwrap kek w = some blob) : ∃ q tag slice n b p qu c s,
    Ready.dataKey slice n b p qu c s ∧ (∃ t, exec (.keyLoad q tag (some b) slice .agree) s = .next t) ∧ Waits [0x89] q tag s.dev qu c :=
  ⟨0, 0, 0, 2, w, blob, adq [cm [(0, 0x89), (48, 2), (50, 1)]], cm [(0, 0x89), (48, 2), (50, 1)],
    chg (ad (cm [(0, 0x89), (48, 2), (50, 1)])) fun d => { d with rime := { d.rime with devHost := some kek } },
    by refine ⟨?_, ?_, ?_, ?_, ?_, ?_, h, ?_, ?_, ?_, ?_⟩ <;> decide +kernel, ⟨_, rfl⟩, by decide +kernel⟩

theorem witness_KeySlotsEventRingsAndBlocksAreSet_2 : ∃ q tag n qu c s, (∃ t, exec (.keyErase q tag) s = .next t) ∧
    Waits [0x8A] q tag s.dev qu c ∧ pktField c.pkt 48 2 = n ∧ (s.dev.slot n).erase = none :=
  ⟨0, 0, 2, adq [cm [(0, 0x8A), (48, 2)]], cm [(0, 0x8A), (48, 2)], chg (ad (cm [(0, 0x8A), (48, 2)])) fun d => withKey 2 1 d, ⟨_, rfl⟩,
    by decide +kernel⟩

theorem witness_KeySlotsEventRingsAndBlocksAreSet_3 : ∃ slot e qu c s, (∃ t, exec (.keyEraseDrained slot) s = .next t) ∧
    Ready.drained slot e qu c s :=
  ⟨2, ⟨0, 0, [], 0, none⟩, adq [cm [(0, 0x8A), (48, 2)]], cm [(0, 0x8A), (48, 2)],
    chg (ad (cm [(0, 0x8A), (48, 2)])) fun d => { d with rime := { d.rime with slots := [(2, { key 1 with erase := some ⟨0, 0, [], 0, none⟩ })] } },
    ⟨_, rfl⟩, by decide +kernel⟩

theorem witness_KeySlotsEventRingsAndBlocksAreSet_4 : ∃ q tag qu c s, (∃ t, exec (.eventRingSet q tag) s = .next t) ∧
    Waits [0x8C] q tag s.dev qu c ∧ pktAddr c.pkt % 4096 = 0 ∧ pktField c.pkt 60 2 ≠ 0 ∧ pktField c.pkt 60 2 ≤ 4095 ∧
    vectorOk qu.fn (bits (pktOpts c.pkt) 0 11) = true ∧ (s.dev.fn qu.fn).ev.held = [] ∧ (s.dev.fn qu.fn).ev.lostSince = 0 :=
  ⟨0, 0, adq [cm [(0, 0x8C), (32, 4096), (60, 4095)]], cm [(0, 0x8C), (32, 4096), (60, 4095)],
    ad (cm [(0, 0x8C), (32, 4096), (60, 4095)]), ⟨_, rfl⟩, by decide +kernel⟩

theorem witness_KeySlotsEventRingsAndBlocksAreSet_5 : ∃ q tag n first target qu c s, (∃ t, exec (.qpoolAssign q tag) s = .next t) ∧
    Waits [0x8D] q tag s.dev qu c ∧ pktField c.pkt 52 2 = n ∧ n ≠ 0 ∧ pktField c.pkt 54 1 = 0 ∧ pktField c.pkt 55 1 = target ∧
    pktField c.pkt 48 4 = first ∧ qpoolCheck qu.fn 0 target ((List.range n).map (first + ·)) s.dev = 0 :=
  ⟨0, 0, 2, 1, 1, adq [cm [(0, 0x8D), (48, 1), (52, 2), (55, 1)]], cm [(0, 0x8D), (48, 1), (52, 2), (55, 1)],
    chg (ad (cm [(0, 0x8D), (48, 1), (52, 2), (55, 1)])) fun d => (d.wr (CFG.NUMVFS 0) 1).set (CFG.VF_EN 0), ⟨_, rfl⟩, by decide +kernel⟩

theorem witness_NamespaceCommandsFormTheirRecord_1 : ∃ q tag pool x qu c s, (∃ t, exec (.nsCreate q tag) s = .next t) ∧
    Waits [0x8B] q tag s.dev qu c ∧ Ready.media s ∧ pktField c.pkt 48 1 = 1 ∧ s.dev.ctx q tag = none ∧ pktField c.pkt 49 1 = pool ∧
    tget s.dev.pools pool = some x ∧ pktNsid c.pkt = 0 ∧ pktField c.pkt 50 1 ≤ 1 ∧ (pktField c.pkt 50 1 = 1 → x.big = true) ∧
    pktField c.pkt 51 1 ≤ 3 ∧ packAttrOk (pktField c.pkt 52 4) (pktField c.pkt 50 1 == 1) = true ∧
    Sys2Proof.Machine.sizeOk (pktField c.pkt 56 8) = true ∧ s.dev.nsidsUsed.length < 65536 ∧ Roomy pool 1 s.dev :=
  ⟨0, 0, 0, pool, adq [cm [(0, 0x8B), (48, 1), (56, 2 ^ 40)]], cm [(0, 0x8B), (48, 1), (56, 2 ^ 40)],
    chg (ad (cm [(0, 0x8B), (48, 1), (56, 2 ^ 40)])) fun d => withPool pool d, ⟨_, rfl⟩, by decide +kernel⟩

theorem witness_NamespaceCommandsFormTheirRecord_2 : ∃ q tag qu c n s, (∃ t, exec (.nsDelete q tag) s = .next t) ∧
    Ready.ns 2 q tag qu c n s ∧ n.attached = [] ∧ (s.dev.nss.all (fun e => e.2.parent.isNone) = true) ∧ s.dev.dueDeltas = [] ∧
    s.dev.streams = [] ∧ s.dev.twin.pins = [] :=
  ⟨0, 0, adq [cm [(0, 0x8B), (4, 1), (48, 2)]], cm [(0, 0x8B), (4, 1), (48, 2)], { ns with attached := [] },
    chg (ad (cm [(0, 0x8B), (4, 1), (48, 2)])) fun d => withPool pool (withNs { ns with attached := [] } d), ⟨_, rfl⟩, by decide +kernel⟩

theorem witness_NamespaceCommandsFormTheirRecord_3 : ∃ q tag fn qu c n s, (∃ t, exec (.nsAttach q tag) s = .next t) ∧
    Ready.ns 3 q tag qu c n s ∧ pktField c.pkt 52 4 = fn ∧ fn ≤ 1023 ∧ epOf fn = epOf qu.fn ∧
    (n.attached.length < 16 ∨ fn ∈ n.attached) ∧ (n.owner = none → (s.dev.slot (2 * fn)).type ≠ 0 ∧ s.dev.is RIM_STATUS.ZEROIZED = false) :=
  ⟨0, 0, 255, adq [cm [(0, 0x8B), (4, 1), (48, 3), (52, 255)]], cm [(0, 0x8B), (4, 1), (48, 3), (52, 255)],
    { ns with attached := [], owner := none },
    chg (ad (cm [(0, 0x8B), (4, 1), (48, 3), (52, 255)])) fun d => withKey 510 1 (withPool pool (withNs { ns with attached := [], owner := none } d)),
    ⟨_, rfl⟩, by decide +kernel⟩

theorem witness_NamespaceCommandsFormTheirRecord_4 : ∃ q tag fn qu c n s, (∃ t, exec (.nsDetach q tag) s = .next t) ∧
    Ready.ns 4 q tag qu c n s ∧ pktField c.pkt 52 4 = fn ∧ fn ≤ 1023 ∧ epOf fn = epOf qu.fn :=
  ⟨0, 0, 0, adq [cm [(0, 0x8B), (4, 1), (48, 4), (52, 0)]], cm [(0, 0x8B), (4, 1), (48, 4), (52, 0)], ns,
    chg (ad (cm [(0, 0x8B), (4, 1), (48, 4), (52, 0)])) fun d => withPool pool (withNs ns d), ⟨_, rfl⟩, by decide +kernel⟩

theorem witness_NamespaceCommandsFormTheirRecord_5 : ∃ q tag run qu c n s, (∃ t, exec (.nsSetPack q tag run) s = .next t) ∧
    Ready.ns 5 q tag qu c n s ∧ packAttrOk (pktField c.pkt 52 4) n.big = true ∧
    (s.dev.rings.queues.all (fun e => e.2.block.isNone) = true) :=
  ⟨0, 0, run none, adq [cm [(0, 0x8B), (4, 1), (48, 5)]], cm [(0, 0x8B), (4, 1), (48, 5)], ns,
    chg (ad (cm [(0, 0x8B), (4, 1), (48, 5)])) fun d => withPool pool (withNs ns d), ⟨_, rfl⟩, by decide +kernel⟩

theorem witness_NamespaceCommandsFormTheirRecord_6 : ∃ q tag size l pages qu c n s, (∃ t, exec (.nsResize q tag) s = .next t) ∧
    Ready.ns 6 q tag qu c n s ∧ pktField c.pkt 56 8 = size ∧ Sys2Proof.Machine.sizeOk size = true ∧
    l = (if size < n.size then shrinkDeltas (pktNsid c.pkt) size s.dev else []) ∧ 32 * l.length + 64 ≤ 4096 * pages ∧
    Roomed pages s.dev ∧ (size < n.size → s.dev.streams = [] ∧ s.dev.twin.pins = []) :=
  ⟨0, 0, 1024, [], 1, adq [cm [(0, 0x8B), (4, 1), (48, 6), (56, 1024)]], cm [(0, 0x8B), (4, 1), (48, 6), (56, 1024)], ns,
    chg (ad (cm [(0, 0x8B), (4, 1), (48, 6), (56, 1024)])) fun d => withPool pool (withNs ns d), ⟨_, rfl⟩, by decide +kernel⟩

theorem witness_NamespaceCommandsFormTheirRecord_7 : ∃ q tag qu c n s, (∃ t, exec (.nsSetFlags q tag) s = .next t) ∧
    Ready.ns 7 q tag qu c n s ∧ pktField c.pkt 51 1 ≤ 3 :=
  ⟨0, 0, adq [cm [(0, 0x8B), (4, 1), (48, 7), (51, 3)]], cm [(0, 0x8B), (4, 1), (48, 7), (51, 3)], ns,
    chg (ad (cm [(0, 0x8B), (4, 1), (48, 7), (51, 3)])) fun d => withPool pool (withNs ns d), ⟨_, rfl⟩, by decide +kernel⟩

theorem witness_NamespaceCommandsFormTheirRecord_8 : ∃ pool seq slot q tag r qu c x s, (∃ e, r.mapDelta = [e] ∧ nsEntry e) ∧
    (∃ t, exec (.writeCommit pool seq) s = .next t) ∧ Ready.mapRecord pool seq slot r s ∧ r.committed = false ∧ r.applied = false ∧
    s.dev.meets r = true ∧ r.posted = false ∧ r.origin = .host ∧ r.cmds = [⟨q, tag, 0, 0, 0⟩] ∧ s.dev.ctxs = [x] ∧ x.q = q ∧
    x.tag = tag ∧ x.kind = .varve 0x8B ∧ s.dev.queue q = some qu ∧ qu.cmd tag = some c ∧ s.dev.linkOpen .media :=
  ⟨0, 5, 3, 0, 0, { acked rtMap 5 with mapDelta := [.nsSet 1 2048 0 0], origin := .host, cmds := [⟨0, 0, 0, 0, 0⟩] },
    adq [crossed [(0, 0x8B), (4, 1), (48, 6)]], crossed [(0, 0x8B), (4, 1), (48, 6)],
    (⟨0, 0, .varve 0x8B, 1, 0, 0, 2, 0, 0, 0, 2, (0, 0, 0), 0, [], 0, false, [], [], [], 0, 0, 0, false, 0, 0, 0, 0⟩ : MCtx),
    chg (ad (crossed [(0, 0x8B), (4, 1), (48, 6)])) fun d => withRec { acked rtMap 5 with mapDelta := [.nsSet 1 2048 0 0], origin := .host, cmds := [⟨0, 0, 0, 0, 0⟩] } (stored { (d.wr FRN_STATUS.MODE 0) with ctxs := [(⟨0, 0, .varve 0x8B, 1, 0, 0, 2, 0, 0, 0, 2, (0, 0, 0), 0, [], 0, false, [], [], [], 0, 0, 0, false, 0, 0, 0, 0⟩ : MCtx)] }),
    ⟨_, rfl, trivial⟩, ⟨_, rfl⟩, by decide +kernel⟩

theorem witness_NamespaceCommandsFormTheirRecord_9 : ∃ pool seq slot r nsid size pack attrs s,
    (∃ t, exec (.recordApply pool) s = .next t) ∧ Ready.applies pool seq slot r s ∧ r.mapDelta = [.nsSet nsid size pack attrs] :=
  ⟨0, 5, 3, { acked rtMap 5 with committed := true, mapDelta := [.nsSet 1 2048 7 8] }, 1, 2048, 7, 8,
    chg (st up) fun d => withRec { acked rtMap 5 with committed := true, mapDelta := [.nsSet 1 2048 7 8] } (stored d), ⟨_, rfl⟩,
    by decide +kernel⟩

theorem witness_NamespaceCommandsFormTheirRecord_10 : ∃ pool seq slot r nsid fn on owner key n s,
    (∃ t, exec (.recordApply pool) s = .next t) ∧ Ready.applies pool seq slot r s ∧ r.mapDelta = [.nsAttach nsid fn on owner key] ∧
    s.dev.nsAny nsid = some n :=
  ⟨0, 5, 3, { acked rtMap 5 with committed := true, mapDelta := [.nsAttach 1 3 true true 9] }, 1, 3, true, true, 9, ns,
    chg (st up) fun d => withRec { acked rtMap 5 with committed := true, mapDelta := [.nsAttach 1 3 true true 9] } (stored d), ⟨_, rfl⟩,
    by decide +kernel⟩

theorem witness_NamespaceCommandsFormTheirRecord_11 : ∃ pool seq slot r nsid s, (∃ t, exec (.recordApply pool) s = .next t) ∧
    Ready.applies pool seq slot r s ∧ r.mapDelta = [.nsRemove nsid] :=
  ⟨0, 5, 3, { acked rtMap 5 with committed := true, mapDelta := [.nsRemove 1] }, 1,
    chg (st up) fun d => withRec { acked rtMap 5 with committed := true, mapDelta := [.nsRemove 1] } (stored d), ⟨_, rfl⟩,
    by decide +kernel⟩

theorem witness_ActivitiesAreAdmittedAndReleased_1 : ∃ q tag qu c r s, requestOf qu c = r ∧
    (∃ t, exec (.maintRequest q tag) s = .next t) ∧ Ready.maint 0xC0 q tag qu c s ∧ r.ok s.dev = true ∧ s.dev.maintCheck r = (0, 0) :=
  ⟨0, 0, adq [cm [(0, 0xC0), (48, 6)]], cm [(0, 0xC0), (48, 6)], ⟨6, 0, 0, 0, 0, 0⟩, ad (cm [(0, 0xC0), (48, 6)]), rfl, ⟨_, rfl⟩,
    by decide +kernel⟩

theorem witness_ActivitiesAreAdmittedAndReleased_2 : ∃ q tag qu c r st n s, requestOf qu c = r ∧
    (∃ t, exec (.maintRequest q tag) s = .next t) ∧ Ready.maint 0xC0 q tag qu c s ∧ r.ok s.dev = true ∧ s.dev.maintCheck r = (st, n) ∧
    st ≠ 0 :=
  ⟨0, 0, adq [cm [(0, 0xC0), (48, 3)]], cm [(0, 0xC0), (48, 3)], ⟨3, 0, 0, 0, 0, 0⟩, stInvalidField, 0,
    chg (ad (cm [(0, 0xC0), (48, 3)])) fun d => withPool pool d, rfl, ⟨_, rfl⟩, by decide +kernel⟩

theorem witness_ActivitiesAreAdmittedAndReleased_3 : ∃ q tag good qu c a s, (∃ t, exec (.maintRelease q tag good) s = .next t) ∧
    Ready.maint 0xC1 q tag qu c s ∧ s.dev.activity (pktField c.pkt 48 2) = some a ∧ (s.dev.isHome a.pool = false ∨ 4 ≤ a.kind) :=
  ⟨0, 0, 0, adq [cm [(0, 0xC1), (48, 1)]], cm [(0, 0xC1), (48, 1)], act 4, chg (ad (cm [(0, 0xC1), (48, 1)])) fun d => withAct (act 4) d,
    ⟨_, rfl⟩, by decide +kernel⟩

theorem witness_ActivitiesAreAdmittedAndReleased_4 : ∃ id good a s, (∃ t, exec (.activityLimitExpiry id good) s = .next t) ∧
    s.dev.activity id = some a ∧ s.dev.tstate ≠ 5 ∧ a.limit ≠ 0 ∧ (s.dev.isHome a.pool = false ∨ 4 ≤ a.kind) :=
  ⟨1, 0, act 4, chg (st up) fun d => withAct (act 4) d, ⟨_, rfl⟩, by decide +kernel⟩

theorem witness_DriveServiceActsOnTheMember_1 : ∃ q tag a i v qu c s, (∃ t, exec (.releaseMember q tag) s = .next t) ∧
    Ready.service 1 q tag a i v qu c s :=
  ⟨0, 0, act 1, 0, drv 4, adq [cm [(0, 0xC3), (48, 1), (50, 1)]], cm [(0, 0xC3), (48, 1), (50, 1)],
    chg (ad (cm [(0, 0xC3), (48, 1), (50, 1)])) fun d => withAct (act 1) (withMem 1 (d)), ⟨_, rfl⟩, by decide +kernel⟩

theorem witness_DriveServiceActsOnTheMember_2 : ∃ q tag f a i v qu c y s, (∃ t, exec (.returnMember q tag f true) s = .next t) ∧
    Ready.service 2 q tag a i v qu c s ∧ s.dev.member a.pool a.member = some y ∧ f.failed = 0 ∧
    s.dev.blockIs f.block a.pool a.member = true :=
  ⟨0, 0, { facts with block := some cfg }, act 1, 0, drv 4, adq [cm [(0, 0xC3), (48, 1), (50, 2)]], cm [(0, 0xC3), (48, 1), (50, 2)],
    mem 3, chg (ad (cm [(0, 0xC3), (48, 1), (50, 2)])) fun d => withAct (act 1) (withMem 3 (d)), ⟨_, rfl⟩, by decide +kernel⟩

theorem witness_DriveServiceActsOnTheMember_3 : ∃ q tag f a i v qu c x s, (∃ t, exec (.bind q tag f) s = .next t) ∧
    Ready.service 3 q tag a i v qu c s ∧ tget s.dev.pools a.pool = some x ∧ Ready.bind x v f s :=
  ⟨0, 0, facts, act 2, 0, drv 3, adq [cm [(0, 0xC3), (48, 1), (50, 3)]], cm [(0, 0xC3), (48, 1), (50, 3)], pool,
    chg (ad (cm [(0, 0xC3), (48, 1), (50, 3)])) fun d => withAct (act 2) (withDrv (drv 3) (withPool pool d)), ⟨_, rfl⟩, by decide +kernel⟩

theorem witness_DriveServiceActsOnTheMember_4 : ∃ q tag b a i v qu c s, (∃ t, exec (.fwStage q tag (some b)) s = .next t) ∧
    Ready.service 4 q tag a i v qu c s ∧ Ready.submits i true 3 s :=
  ⟨0, 0, [1, 2], act 1, 0, drv 4, adq [cm [(0, 0xC3), (48, 1), (50, 4)]], cm [(0, 0xC3), (48, 1), (50, 4)],
    chg (ad (cm [(0, 0xC3), (48, 1), (50, 4)])) fun d => withAct (act 1) (withMem 1 (d)), ⟨_, rfl⟩, by decide +kernel⟩

theorem witness_DriveServiceActsOnTheMember_5 : ∃ q tag a i v qu c s, (∃ t, exec (.fwActivate q tag) s = .next t) ∧
    Ready.service 5 q tag a i v qu c s :=
  ⟨0, 0, act 1, 0, drv 4, adq [cm [(0, 0xC3), (48, 1), (50, 5), (56, 1)]], cm [(0, 0xC3), (48, 1), (50, 5), (56, 1)],
    chg (ad (cm [(0, 0xC3), (48, 1), (50, 5), (56, 1)])) fun d => withAct (act 1) (withMem 1 (d)), ⟨_, rfl⟩, by decide +kernel⟩

theorem witness_DriveServiceActsOnTheMember_6 : ∃ p m o y s,
    (∀ i e, y.drive = some i → e ∈ s.dev.drives.cmds → e.2.drive = i → o.step ≤ e.1) ∧ (∃ t, exec (.memberHeld p m) s = .next t) ∧
    s.dev.serviceOp p m = some o ∧ o.op = 1 ∧ s.dev.member p m = some y ∧ (y.state = 1 ∨ y.state = 2) :=
  ⟨0, 0, svc 1, mem 1, chg (st up) fun d => withOp (svc 1) (withMem 1 d), fun _ _ _ h _ => (nomatch h), ⟨_, rfl⟩, by decide +kernel⟩

theorem witness_DriveServiceActsOnTheMember_7 : ∃ p m o y s, (∃ t, exec (.fwActivateReady p m true true) s = .next t) ∧
    s.dev.serviceOp p m = some o ∧ o.op = 5 ∧ s.dev.member p m = some y ∧ y.state = 3 ∧
    (∀ e ∈ s.dev.drives.cmds, e.2.what ≠ .fwCommit o.q o.tag) :=
  ⟨0, 0, svc 5, mem 3, chg (st up) fun d => withOp (svc 5) (withMem 3 d), ⟨_, rfl⟩, by decide +kernel⟩

theorem witness_ResolveSwapZeroizeAndDiagnosticsAct_1 : ∃ q tag st qu c x y s, (∃ t, exec (.divergenceResolve q tag) s = .next t) ∧
    Waits [0xC2] q tag s.dev qu c ∧ Ready.media s ∧ q < noQueue ∧ pktOpts c.pkt % 4 = 2 ∧ pktField c.pkt 56 8 = 0 ∧
    pktField c.pkt 48 8 = st ∧ s.dev.isHome (stripePool st) = true ∧ s.dev.stripeBusy st = false ∧ s.dev.inDivLog st = true ∧
    tget s.dev.pools (stripePool st) = some x ∧ s.dev.stripe st = some y ∧ s.dev.lostEntry st = none ∧ x.lost.length < 65536 ∧
    Roomy (stripePool st) 1 s.dev :=
  ⟨0, 0, 5, adq [cm [(0, 0xC2), (48, 5), (28, 2)]], cm [(0, 0xC2), (48, 5), (28, 2)], pool,
    ⟨9, 2, 1, [0, 1, 2, 3], [], [], false, false, 0, false⟩,
    chg (ad (cm [(0, 0xC2), (48, 5), (28, 2)])) fun d => withPool pool { d with xmap := { d.xmap with stripes := [(5, ⟨9, 2, 1, [0, 1, 2, 3], [], [], false, false, 0, false⟩)], divLog := [⟨5, 9, 0, 0, 0, false⟩] } },
    ⟨_, rfl⟩, by decide +kernel⟩

theorem witness_ResolveSwapZeroizeAndDiagnosticsAct_2 : ∃ q tag pools dest move qu c s, (∃ t, exec (.roleSwap q tag) s = .next t) ∧
    Waits [0xC4] q tag s.dev qu c ∧ Ready.media s ∧ pktField c.pkt 48 1 = pools ∧ pktField c.pkt 49 1 = dest ∧ dest ≤ 1 ∧
    (∀ p < 8, bit pools p = true → (tget s.dev.pools p).isSome) ∧ s.dev.tstate = 5 ∧ s.dev.twinSide = 0 ∧ s.dev.twin.mirrorOnly = false ∧
    s.dev.twin.partner.mirrorOnly = false ∧ s.dev.twin.swap = none ∧
    (move = (s.dev.pools.filter fun e => bit pools e.1 && e.2.home != dest).foldl (fun m e => setBit m e.1 true) 0) ∧ move ≠ 0 :=
  ⟨0, 0, 1, 1, 1, adq [cm [(0, 0xC4), (48, 1), (49, 1)]], cm [(0, 0xC4), (48, 1), (49, 1)],
    chg (ad (cm [(0, 0xC4), (48, 1), (49, 1)])) fun d => withPool pool (d.wr TWN_STATUS.STATE 5), ⟨_, rfl⟩, by decide +kernel⟩

theorem witness_ResolveSwapZeroizeAndDiagnosticsAct_3 : ∃ q tag qu c s, (∃ t, exec (.deviceZeroize q tag) s = .next t) ∧
    Waits [0xC5] q tag s.dev qu c :=
  ⟨0, 0, adq [cm [(0, 0xC5)]], cm [(0, 0xC5)], ad (cm [(0, 0xC5)]), ⟨_, rfl⟩, by decide +kernel⟩

theorem witness_ResolveSwapZeroizeAndDiagnosticsAct_4 : ∃ q tag unit qu c s, (∃ t, exec (.diagSelftest q tag 0) s = .next t) ∧
    Waits [0xE0] q tag s.dev qu c ∧ pktField c.pkt 48 1 = unit ∧ pktField c.pkt 49 1 < testUnits unit ∧
    (unit = 2 ∨ unit = 3 → Ready.media s) :=
  ⟨0, 0, 2, adq [cm [(0, 0xE0), (48, 2), (49, 3)]], cm [(0, 0xE0), (48, 2), (49, 3)], ad (cm [(0, 0xE0), (48, 2), (49, 3)]), ⟨_, rfl⟩,
    by decide +kernel⟩

theorem witness_ResolveSwapZeroizeAndDiagnosticsAct_5 : ∃ q tag src h qu c s, (∃ t, exec (.diagInject q tag) s = .next t) ∧
    Waits [0xE1] q tag s.dev qu c ∧ pktField c.pkt 52 4 = src ∧ srcHalf src = h ∧ 0 < srcBlock src ∧ srcBlock src ≤ 16 ∧
    src % 2 ^ 24 ≤ 0xFFFFFE ∧ pktField c.pkt 58 2 = 1 ∧ pktField c.pkt 60 2 = 1 ∧ (h = .media → Ready.media s) ∧
    s.dev.summaryMode h = false ∧ (s.dev.led h).fresh < 4096 ∧ (s.dev.led h).recs.length < 16384 ∧
    (∀ r ∈ (s.dev.led h).recs, r.source ≠ src) :=
  ⟨0, 0, 2181038087, .media, adq [cm [(0, 0xE1), (52, 2181038087), (56, 0x810), (58, 1), (60, 1)]],
    cm [(0, 0xE1), (52, 2181038087), (56, 0x810), (58, 1), (60, 1)],
    ad (cm [(0, 0xE1), (52, 2181038087), (56, 0x810), (58, 1), (60, 1)]), ⟨_, rfl⟩, by decide +kernel⟩

theorem witness_SliceEventsTakeEffect_1 : ∃ q b n run s, (∃ t, exec (.streamBlockTimeout q run) s = .next t) ∧
    (s.dev.queue q).bind (·.block) = some b ∧ s.dev.ns b.nsid = some n ∧ b.chunks.length ≤ s.dev.leaseLeft b.slice :=
  ⟨5, ⟨1, 2, 1, [(0, ⟨0, List.replicate 4 1#8, none, none, 0, 9, false, 8, 2, false, false⟩)], 4, false⟩, ns, run none,
    chg (st up) fun d => withQ 5 { ioq [] with block := some ⟨1, 2, 1, [(0, ⟨0, List.replicate 4 1#8, none, none, 0, 9, false, 8, 2, false, false⟩)], 4, false⟩ } { stored d with ingest := { d.ingest with lease := [(2, (10, 100))] } },
    ⟨_, rfl⟩, by decide +kernel⟩

theorem witness_SliceEventsTakeEffect_2 : ∃ slice run a s, Ready.lease 1 slice a s ∧
    (∀ e ∈ s.dev.rings.queues, ∀ b, e.2.block = some b → b.closing = true → b.slice ≠ slice) ∧
    (∃ t, exec (.serialLeaseGrant slice run) s = .next t) ∧ s.dev.ingest.marksRead = true :=
  ⟨2, run none, ⟨1, 2, 0, 1, 16777216, 0⟩,
    chg (st up) fun d => { d with firn := { d.firn with asks := [⟨1, 2, 0, 1, 16777216, 0⟩] }, ingest := { d.ingest with marksRead := true } },
    ⟨by decide +kernel, by decide +kernel⟩, fun _ h => (nomatch h), ⟨_, rfl⟩, by decide +kernel⟩

theorem witness_SliceEventsTakeEffect_3 : ∃ path s, (∃ t, exec (.invalidate path) s = .next t) ∧ ingWriter path = true ∧
    s.dev.is ING_STATUS.INV_BUSY = false :=
  ⟨.pf 0, st up, ⟨_, rfl⟩, by decide +kernel⟩

theorem witness_SliceEventsTakeEffect_4 : ∃ s, (∃ t, exec .invalidateDone s = .next t) ∧ s.dev.is ING_STATUS.INV_BUSY = true :=
  ⟨chg (st up) fun d => d.set ING_STATUS.INV_BUSY, ⟨_, rfl⟩, by decide +kernel⟩

theorem witness_SliceEventsTakeEffect_5 : ∃ path mask s, (∃ t, exec (.quarRelease path mask) s = .next t) ∧
    (path = .pf 0 ∨ path = .i3c .host) :=
  ⟨.pf 0, 4, chg (st up) fun d => d.wr ING_STATUS.QUARANTINED 5, ⟨_, rfl⟩, by decide +kernel⟩

theorem witness_SliceEventsTakeEffect_6 : ∃ path value s, (∃ t, exec (.ingCfgWrite path value) s = .next t) ∧ ingWriter path = true :=
  ⟨.pf 0, 3, st up, ⟨_, rfl⟩, by decide +kernel⟩

theorem witness_SliceEventsTakeEffect_7 : ∃ path value v s, (∃ t, exec (.ingIndexConfigWrite path 0x200010 value) s = .next t) ∧
    ingWriter path = true ∧ bits value 0 27 = v ∧ s.dev.is ING_CFG.DEDUP_EN = false :=
  ⟨.pf 0, 4096, 4096, chg (st up) fun d => d.wr ING_CFG.DEDUP_EN 0, ⟨_, rfl⟩, by decide +kernel⟩

theorem witness_SliceEventsTakeEffect_8 : ∃ table s, (∃ t, exec (.lendTableCopied (some table)) s = .next t) ∧
    s.dev.is ING_CFG.LEND_EN = true ∧ s.dev.ingest.lendCopied = false ∧ s.dev.holding s.dev.lendFn = false :=
  ⟨[1, 2, 3], chg (st up) fun d => (d.set ING_CFG.LEND_EN).wr ING_LEND_PAGES.PAGES 2, ⟨_, rfl⟩, by decide +kernel⟩

theorem witness_SliceEventsTakeEffect_9 : ∃ slice g s, (∃ t, exec (.gcmResume slice) s = .next t) ∧ tget s.dev.ingest.gcm slice = some g :=
  ⟨2, ⟨3, 1, true, false⟩, chg (st up) fun d => { d with ingest := { d.ingest with gcm := [(2, ⟨3, 1, true, false⟩)] } }, ⟨_, rfl⟩,
    by decide +kernel⟩

theorem witness_KeyEngineEventsTakeEffect_1 : ∃ slot a old s, Ready.lease 2 slot a s ∧ (∃ t, exec (.nonceLeaseGrant slot) s = .next t) ∧
    s.dev.noncePair slot = (a.fn, a.keyId) ∧ (tget s.dev.firn.nonces (nonceKey a.fn a.keyId)).getD 0 = old :=
  ⟨2, ⟨2, 2, 1, 1, 1048576, 0⟩, 0,
    chg (st up) fun d => withKey 2 1 { d with firn := { d.firn with asks := [⟨2, 2, 1, 1, 1048576, 0⟩] } },
    ⟨by decide +kernel, by decide +kernel⟩, ⟨_, rfl⟩, by decide +kernel⟩

theorem witness_KeyEngineEventsTakeEffect_5 : ∃ value s, (∃ t, exec (.rimZeroize (.pf 0) value) s = .next t) ∧ bits value 0 16 = 0x5A3C :=
  ⟨88636, st up, ⟨_, rfl⟩, by decide +kernel⟩

theorem witness_KeyEngineEventsTakeEffect_6 : ∃ path value s, (∃ t, exec (.rimZeroize path value) s = .next t) ∧ bits value 0 16 ≠ 0x5A3C :=
  ⟨.pf 0, 1, st up, ⟨_, rfl⟩, by decide +kernel⟩

theorem witness_LinkFramesTakeEffect_1 : ∃ link lane frame s, frameGood link frame = true ∧
    (∃ t, exec (.frameReceived link lane frame) s = .next t) ∧ s.dev.deaf link lane = false ∧ (getLe frame 0 1 = 0 ∨ getLe frame 0 1 = 15) :=
  ⟨.sch .media, 3, linkFrame (.sch .media) 0 0 7 0 0 0 [], st up, frameGood_linkFrame _ _ _ _ _ _ _ _, ⟨_, rfl⟩, by decide +kernel⟩

theorem witness_LinkFramesTakeEffect_2 : ∃ h lane frame b s, Ready.whole h frame b s ∧
    (∃ t, exec (.frameReceived (.sch h) lane frame) s = .next t) ∧ s.dev.deaf (.sch h) lane = false :=
  ⟨.media, 3, linkFrame (.sch .media) 5 3 0 0 0 0 (leBytes 4 0x105 ++ leBytes 4 44 ++ leBytes 4 0xFFFFFFFF ++ leBytes 32 0),
    (leBytes 4 0x105 ++ leBytes 4 44 ++ leBytes 4 0xFFFFFFFF ++ leBytes 32 0),
    chg (st up) fun d => withLink (.sch .media) (lnk tx0 rx0) d, ⟨frameGood_linkFrame _ _ _ _ _ _ _ _, by decide +kernel⟩, ⟨_, rfl⟩,
    by decide +kernel⟩

theorem witness_LinkFramesTakeEffect_3 : ∃ c l k b x rest s, (∃ t, exec c s = .next t) ∧ messageOf c = some (l, k, b) ∧
    (s.dev.link l).rx.inbox = x :: rest ∧ fitsTurn x k b = false :=
  ⟨.swap 0 [], .snow, .swap, none, some [0], [], chg (st up) fun d => withLink .snow (lnk tx0 { rx0 with inbox := [some [0]] }) d,
    ⟨_, rfl⟩, by decide +kernel⟩

theorem witness_LinkFramesTakeEffect_4 : ∃ lane frame l s, (∃ t, exec (.frameReceived .snow lane frame) s = .next t) ∧
    s.dev.deaf .snow lane = false ∧ frameGood .snow frame = false ∧ s.dev.snow.tx.stopped = false ∧ l ∈ s.dev.snow.tx.lanes :=
  ⟨3, [1], 0, chg (st up) fun d => withLink .snow (lnk tx0 rx0) d, ⟨_, rfl⟩, by decide +kernel⟩

theorem witness_LinkFramesTakeEffect_5 : ∃ link lane seqs f s, (∃ t, exec (.nak link lane seqs) s = .next t) ∧
    s.dev.deaf link lane = false ∧ (s.dev.link link).tx.stopped = false ∧ (s.dev.link link).tx.lanes ≠ [] ∧
    (FewReplays link (fun f => seqs.contains f.seq) s.dev) ∧ f ∈ (s.dev.link link).tx.retry ∧ f.seq ∈ seqs :=
  ⟨.snow, 3, [4], ⟨4, 1, [9], 0⟩, chg (st up) fun d => withLink .snow (lnk { tx0 with retry := [⟨4, 1, [9], 0⟩] } rx0) d, ⟨_, rfl⟩,
    by decide +kernel⟩

theorem witness_LinkFramesTakeEffect_6 : ∃ link lane s, (∀ h, link = .sch h → s.dev.is (SCH_STATUS.PEER_DOWN h) = false) ∧
    (∃ t, exec (.laneDown link lane) s = .next t) ∧ lane ∈ (s.dev.link link).tx.lanes ∧
    2 ≤ ((s.dev.link link).tx.lanes.filter (· != lane)).length ∧ (FewReplays link (fun f => f.lane == lane) s.dev) :=
  ⟨.sch .host, 1, chg (st up) fun d => withLink (.sch .host) (lnk { tx0 with retry := [⟨4, 1, [9], 0⟩] } rx0) d,
    by intro h e; cases e; decide +kernel, ⟨_, rfl⟩, by decide +kernel⟩

theorem witness_LinkFramesTakeEffect_7 : ∃ h logical lane s, (∃ t, exec (.laneUp (.sch h) logical lane) s = .next t) ∧
    s.dev.is (SCH_STATUS.PEER_DOWN h) = false ∧ (logical, lane) ∈ (s.dev.schEnd h).tx.mapped :=
  ⟨.host, 1, 9, chg (st up) fun d => withLink (.sch .host) (lnk { tx0 with mapped := [(1, 9)] } rx0) d, ⟨_, rfl⟩, by decide +kernel⟩

theorem witness_LinkFramesTakeEffect_8 : ∃ lane s, (∃ t, exec (.laneUp .snow lane lane) s = .next t) ∧ lane < 16 ∧
    lane ∉ s.dev.snow.tx.lanes :=
  ⟨7, chg (st up) fun d => withLink .snow (lnk tx0 rx0) d, ⟨_, rfl⟩, by decide +kernel⟩

theorem witness_LinkFramesTakeEffect_9 : ∃ h width first s, (∃ t, exec (.width (.sch h) width first) s = .next t) ∧ 12 ≤ width ∧
    width ≤ 18 ∧ first < 2 ^ 32 ∧ s.dev.is (SCH_STATUS.PEER_DOWN h) = false :=
  ⟨.media, 18, 100, st up, ⟨_, rfl⟩, by decide +kernel⟩

theorem witness_LinkFramesTakeEffect_10 : ∃ width first s, (∃ t, exec (.width .snow width first) s = .next t) ∧ 1 ≤ width ∧ width ≤ 16 ∧
    first < 2 ^ 32 :=
  ⟨16, 100, st up, ⟨_, rfl⟩, by decide +kernel⟩

theorem witness_SchrundLinkEventsTakeEffect_1 : ∃ half cause s, (∃ t, exec (.peerFatal half cause) s = .next t) ∧
    s.dev.is (SCH_STATUS.UP half) = true ∧ s.dev.is (SCH_STATUS.PEER_DOWN half) = false :=
  ⟨.host, 4, st up, ⟨_, rfl⟩, by decide +kernel⟩

theorem witness_SchrundLinkEventsTakeEffect_2 : ∃ half s, (∃ t, exec (.schrundSilenceTimeout half) s = .next t) ∧
    s.dev.is (SCH_STATUS.UP half) = true ∧ s.dev.is (SCH_STATUS.PEER_DOWN half) = false :=
  ⟨.media, st up, ⟨_, rfl⟩, by decide +kernel⟩

theorem witness_SchrundLinkEventsTakeEffect_3 : ∃ half lane s, (∃ t, exec (.laneLost half lane) s = .next t) ∧
    s.dev.is (SCH_STATUS.UP half) = true ∧ lane < 20 ∧ lane ∉ (s.dev.schEnd half).rx.lost :=
  ⟨.host, 2, chg (st up) fun d => withLink (.sch .host) (lnk tx0 rx0) d, ⟨_, rfl⟩, by decide +kernel⟩

theorem witness_SchrundLinkEventsTakeEffect_4 : ∃ path half s, (∃ t, exec (.schLaneRetry path half) s = .next t) ∧
    schWriter half path = true :=
  ⟨.pf 0, .host, chg (st up) fun d => withLink (.sch .host) (lnk tx0 rx0) d, ⟨_, rfl⟩, by decide +kernel⟩

theorem witness_SchrundLinkEventsTakeEffect_5 : ∃ half lane s, (∃ t, exec (.laneRetrained half lane) s = .next t) ∧
    lane ∈ (s.dev.schEnd half).rx.retraining :=
  ⟨.host, 5, chg (st up) fun d => withLink (.sch .host) (lnk tx0 rx0) d, ⟨_, rfl⟩, by decide +kernel⟩

theorem witness_SchrundLinkEventsTakeEffect_6 : ∃ s, (∃ t, exec (.forwardedClockLost true) s = .next t) ∧ s.dev.clocks.lost = false :=
  ⟨st up, ⟨_, rfl⟩, by decide +kernel⟩

theorem witness_SchrundLinkEventsTakeEffect_7 : ∃ s, (∃ t, exec (.forwardedClockLost false) s = .next t) ∧
    s.dev.is (SCH_STATUS.CLK_ALT .media) = false :=
  ⟨st up, ⟨_, rfl⟩, by decide +kernel⟩

theorem witness_WriteMessagesFillTheirContext_1 : ∃ m c s, (∃ t, exec (.writeEnvelope m) s = .next t) ∧ Ready.msg m [1, 6, 0x52] c s ∧
    s.dev.ctxs = [] ∧ m.ref = 0 ∧ m.nsid = pktNsid c.pkt ∧ pktOp c.pkt = 1 ∧ 1 ≤ pktNlb c.pkt ∧
    m.args = [pktSlba c.pkt, pktNlb c.pkt, pktFlags c.pkt, pktOpts c.pkt, pktNlb c.pkt, 1] :=
  ⟨⟨5, 0, 0, 1, [0, 2, 0, 0, 2, 1], []⟩, crossed [(0, 1), (4, 1), (24, 2)], sent (crossed [(0, 1), (4, 1), (24, 2)]), ⟨_, rfl⟩,
    by decide +kernel⟩

theorem witness_WriteMessagesFillTheirContext_2 : ∃ m ord form len c x s, (∀ i ∈ x.chunks, i.ord ≠ ord) ∧
    (∃ t, exec (.newChunk m) s = .next t) ∧ Ready.msg m [1, 6, 0x52] c s ∧ Ready.writeCtx m 1 x s ∧ m.ref ≠ 0 ∧
    m.args = [ord, form, 0, 0, len] ∧ ord < x.nchunk ∧ 1 ≤ form ∧ form ≤ 9 ∧ 512 ≤ len ∧ len ≤ 16384 :=
  ⟨⟨5, 0, 9, 1, [0, 8, 0, 0, 512], []⟩, 0, 8, 512, crossed [(0, 1), (4, 1), (24, 2)], wctx [],
    chg (sent (crossed [(0, 1), (4, 1), (24, 2)])) fun d => { d with ctxs := [wctx []] }, by intro i h; exact (nomatch h), ⟨_, rfl⟩,
    by decide +kernel⟩

theorem witness_WriteMessagesFillTheirContext_3 : ∃ m ord c x s, (∀ i ∈ x.chunks, i.ord ≠ ord) ∧
    (∃ t, exec (.referenceChunk m) s = .next t) ∧ Ready.msg m [1, 6, 0x52] c s ∧ Ready.writeCtx m 1 x s ∧ m.args = [ord] ∧
    ord < x.nchunk ∧ (m.ref = 0 ∨ m.data.length = 32) :=
  ⟨⟨5, 0, 0, 1, [1], []⟩, 1, crossed [(0, 1), (4, 1), (24, 2)], wctx [],
    chg (sent (crossed [(0, 1), (4, 1), (24, 2)])) fun d => { d with ctxs := [wctx []] }, fun _ h => (nomatch h), ⟨_, rfl⟩,
    by decide +kernel⟩

theorem witness_WriteMessagesFillTheirContext_4 : ∃ m i c x s, 512 ≤ m.data.length ∧ m.data.length ≤ 16384 ∧ i.len = m.data.length ∧
    (∃ t, exec (.writePayload m) s = .next t) ∧ Ready.msg m [1, 6, 0x52] c s ∧ Ready.writeCtx m 0 x s ∧
    (x.chunks.find? (fun i => !i.isRef && i.id == m.ref && i.form != 0x10 && !i.settled) = some i) :=
  ⟨⟨5, 0, 9, 1, [], List.replicate 512 0⟩, ⟨0, 9, false, 8, 9, 0, 512, [], none, false⟩, crossed [(0, 1), (4, 1), (24, 2)],
    wctx [⟨0, 9, false, 8, 9, 0, 512, [], none, false⟩],
    chg (sent (crossed [(0, 1), (4, 1), (24, 2)])) fun d => { d with ctxs := [wctx [⟨0, 9, false, 8, 9, 0, 512, [], none, false⟩]] },
    List.length_replicate.ge, List.length_replicate.le.trans (by decide), List.length_replicate.symm, ⟨_, rfl⟩, by decide +kernel⟩

theorem witness_DescriptorsActAtTheMediaHalf_1 : ∃ m c n s, (∃ t, exec (.readDescriptor m) s = .next t) ∧ Ready.msg m [2, 5, 6, 7] c s ∧
    s.dev.ctxs = [] ∧ m.nsid = pktNsid c.pkt ∧ m.ref = 0 ∧ pktGos c.pkt = 0 ∧ pktOp c.pkt = 2 ∧
    m.args = [pktSlba c.pkt, pktNlb c.pkt, pktOpts c.pkt, 0] ∧ tget s.dev.nss m.nsid = some n ∧
    (∀ i < pktNlb c.pkt, s.dev.shows n m.nsid 0 (pktSlba c.pkt + i) = 0 ∧ s.dev.divergentAt m.nsid (pktSlba c.pkt + i) = false) :=
  ⟨⟨5, 0, 0, 1, [0, 1, 0, 0], []⟩, crossed [(0, 2), (4, 1), (24, 1)], ns,
    chg (sent (crossed [(0, 2), (4, 1), (24, 1)])) fun d => stored d, ⟨_, rfl⟩, by decide +kernel⟩

theorem witness_DescriptorsActAtTheMediaHalf_2 : ∃ m c n s, (∃ t, exec (.otherIo m) s = .next t) ∧ Ready.msg m [3, 4, 5, 6, 8] c s ∧
    s.dev.ctxs = [] ∧ m.nsid = pktNsid c.pkt ∧ pktOp c.pkt = 3 ∧ m.args = [ioZeroes, pktSlba c.pkt, pktNlb c.pkt, 0, 0] ∧
    s.dev.ns m.nsid = some n ∧ s.dev.hazard m.q c = false ∧ Roomy n.pool 1 s.dev :=
  ⟨⟨5, 0, 0, 1, [0, 0, 8, 0, 0], []⟩, crossed [(0, 3), (4, 1), (24, 8)], ns,
    chg (sent (crossed [(0, 3), (4, 1), (24, 8)])) fun d => stored d, ⟨_, rfl⟩, by decide +kernel⟩

theorem witness_DescriptorsActAtTheMediaHalf_3 : ∃ m c s, (∃ t, exec (.freezeGroupOperation m) s = .next t) ∧
    Ready.msg m [0x40, 0x41, 0x42, 0x43] c s ∧ s.dev.ctxs = [] ∧ m.ref = pktGos c.pkt ∧ m.args = [0] :=
  ⟨⟨5, 0, 7, 0, [0], []⟩, crossed [(0, 0x40), (8, 7)], sent (crossed [(0, 0x40), (8, 7)]), ⟨_, rfl⟩, by decide +kernel⟩

theorem witness_DescriptorsActAtTheMediaHalf_4 : ∃ m label c n s, (∃ t, exec (.varveOperation m) s = .next t) ∧
    Ready.msg m [0x48, 0x49, 0x4A, 0x52] c s ∧ s.dev.ctxs = [] ∧ m.nsid = pktNsid c.pkt ∧ pktOp c.pkt = 0x48 ∧
    m.args = [0x48, 0, label] ∧ s.dev.ns m.nsid = some n ∧ s.dev.snapLimit m.nsid n = false ∧ Roomy n.pool 1 s.dev :=
  ⟨⟨5, 0, 0, 1, [0x48, 0, 33], []⟩, 33, crossed [(0, 0x48), (4, 1)], ns, chg (sent (crossed [(0, 0x48), (4, 1)])) fun d => stored d,
    ⟨_, rfl⟩, by decide +kernel⟩

theorem witness_MessagesOfTheMediaHalfTakeEffect_1 : ∃ m lend st res seq qu c s, (∃ t, exec (.completionMessage m lend) s = .next t) ∧
    Ready.completion m qu c s ∧ m.args = [st, res, seq] ∧ [3, 4, 7, 8].contains (pktOp c.pkt) = true ∧ c.news = 0 ∧ c.failed = none ∧
    c.warn = 0 ∧ c.recon = 0 ∧ (st = 0 ∨ st = 1 ∨ st = 2) :=
  ⟨⟨5, 0, 0, 1, [0, 4, 9], []⟩, [], 0, 4, 9, ioq [crossed [(0, 3), (4, 1)]], crossed [(0, 3), (4, 1)], sent (crossed [(0, 3), (4, 1)]),
    ⟨_, rfl⟩, by decide +kernel⟩

theorem witness_MessagesOfTheMediaHalfTakeEffect_2 : ∃ m run x c n s, (∃ t, exec (.referenceRefused m run) s = .next t) ∧
    s.dev.is (SCH_STATUS.UP .host) = true ∧ NoMail (.sch .host) s ∧ s.dev.waiting m [1, 6, 0x52] = some c ∧ c.phase < 8 ∧ m.args = [n] ∧
    (c.chunks.find? (fun x => x.ord == n && x.isRef && x.id == m.ref && x.id != 0) = some x) :=
  ⟨⟨5, 0, 9, 1, [0], []⟩, run none, ⟨0, List.replicate 4 1#8, none, none, 0, 9, true, 8, 2, false, false⟩,
    { crossed [(0, 1), (4, 1)] with chunks := [⟨0, List.replicate 4 1#8, none, none, 0, 9, true, 8, 2, false, false⟩] }, 0,
    sent ({ crossed [(0, 1), (4, 1)] with chunks := [⟨0, List.replicate 4 1#8, none, none, 0, 9, true, 8, 2, false, false⟩] }), ⟨_, rfl⟩,
    by decide +kernel⟩

theorem witness_MessagesOfTheMediaHalfTakeEffect_3 : ∃ m run plain c n sl s, (∃ t, exec (.readPayload m run) s = .next t) ∧
    s.dev.is (SCH_STATUS.UP .host) = true ∧ NoMail (.sch .host) s ∧ s.dev.cipherStop = none ∧ s.dev.waiting m [2, 5, 6, 7] = some c ∧
    c.phase < 8 ∧ m.ref ≠ 0 ∧ m.args = [0x10, 0, 2] ∧ m.data.length % 16 = 0 ∧ tget s.dev.nss m.nsid = some n ∧
    (s.dev.slot (2 * n.tenant)).type ≠ 0 ∧ s.dev.sliceFor run.slice = some sl ∧ c.got = [] ∧ run.cmp = .agree ∧
    plain = xtsDec ((s.dev.slot (2 * n.tenant)).key.take 32) ((s.dev.slot (2 * n.tenant)).key.drop 32) (leBytes 8 m.ref ++ leBytes 8 0) m.data :=
  ⟨(⟨5, 0, 9, 1, [0x10, 0, 2], []⟩ : Msg), ⟨0, .agree, false, 0, .agree, false⟩, [], crossed [(0, 2), (4, 1), (24, 1)], ns, 0,
    chg (sent (crossed [(0, 2), (4, 1), (24, 1)])) fun d => withKey 0 1 (stored d), ⟨_, rfl⟩, by decide +kernel⟩

theorem witness_MessagesOfTheMediaHalfTakeEffect_4 : ∃ id req s, (∃ t, exec (.managementRequest .media id req) s = .next t) ∧
    s.dev.linkOpen .media ∧ NoMail (.sch .media) s ∧ req.q = noQueue ∧ req.args = [2] :=
  ⟨7, ⟨noQueue, 0, 7, 0, [2], []⟩, st up, ⟨_, rfl⟩, by decide +kernel⟩

theorem witness_MessagesOfTheMediaHalfTakeEffect_5 : ∃ half id op e data s, (∃ t, exec (.managementReply half id 0 data) s = .next t) ∧
    s.dev.is (SCH_STATUS.UP half) = true ∧ NoMail (.sch half) s ∧
    (s.dev.schEnd half).requests.find? (fun r => r.1 == id) = some (id, .mailbox op) ∧ s.dev.mbx = some (op, e) ∧ e < 4 :=
  ⟨.host, 7, 2, 0, [1],
    chg (st up) fun d => withLink (.sch .host) { lnk tx0 rx0 with requests := [(7, .mailbox 2)] } { d with mbx := some (2, 0) },
    ⟨_, rfl⟩, by decide +kernel⟩

theorem witness_MessagesOfTheMediaHalfTakeEffect_6 : ∃ tb seq own s, (∃ t, exec (.timeMark tb seq) s = .next t) ∧
    own = s.dev.ownMark seq ∧ NoMail (.sch .media) s ∧ s.dev.is (SCH_STATUS.UP .media) = true ∧ own ≠ tb ∧
    s.dev.clocks.steered + 10000 ≤ s.dev.tbMedia ∧ seq < 2 ^ 32 :=
  ⟨20005, 1, 5, chg (st up) fun d => { d with tbMedia := 20000, clocks := { d.clocks with marks := [(1, 5)] } }, ⟨_, rfl⟩,
    by decide +kernel⟩

theorem witness_MessagesOfTheMediaHalfTakeEffect_7 : ∃ half src code count time s,
    (∃ t, exec (.faultNotice half src code count time) s = .next t) ∧ s.dev.is (SCH_STATUS.UP half) = true ∧ NoMail (.sch half) s ∧
    noticeOk half src code = true ∧ count ≠ 0 ∧ s.dev.summaryMode half = false ∧ (s.dev.led half).fresh < 4096 ∧
    (s.dev.led half).recs.length < 16384 ∧ (∀ r ∈ (s.dev.led half).recs, r.source ≠ src) :=
  ⟨.host, 2181038087, 0x1810, 3, 40, st up, ⟨_, rfl⟩, by decide +kernel⟩

theorem witness_FirnRecordsAndDestagesAdvance_1 : ∃ r s, (∃ t, exec .recordAdmitted s = .next t) ∧ s.dev.firn.waiting = [r] ∧
    s.dev.fitsNow r = true ∧ r.seq ≠ 0 ∧ r.rtype = rtWrite :=
  ⟨rec0 rtWrite 5, chg (st up) fun d => withPool pool { d with firn := { d.firn with waiting := [rec0 rtWrite 5] } }, ⟨_, rfl⟩,
    by decide +kernel⟩

theorem witness_FirnRecordsAndDestagesAdvance_2 : ∃ r s, (∃ t, exec .recordAdmitted s = .next t) ∧ s.dev.firn.waiting = [r] ∧
    s.dev.fitsNow r = true ∧ r.seq = 0 ∧ r.rtype = rtWrite ∧ r.divergent = false ∧ r.refs = [] ∧ s.dev.isHome r.pool = true :=
  ⟨rec0 rtWrite 0, chg (st up) fun d => withPool pool { d with firn := { d.firn with waiting := [rec0 rtWrite 0] } }, ⟨_, rfl⟩,
    by decide +kernel⟩

theorem witness_FirnRecordsAndDestagesAdvance_3 : ∃ pool seq slot r s, (∃ t, exec (.localCopyWritten pool seq) s = .next t) ∧
    s.dev.copyOf pool seq = some (slot, r) ∧ s.dev.recAt slot = some r :=
  ⟨0, 5, 3, { rec0 rtWrite 5 with written := false },
    chg (st up) fun d => withRec { rec0 rtWrite 5 with written := false } (withPool pool d), ⟨_, rfl⟩, by decide +kernel⟩

theorem witness_FirnRecordsAndDestagesAdvance_4 : ∃ pool seq slot r s, (∃ t, exec (.writeCommit pool seq) s = .next t) ∧
    Ready.commit pool seq slot r s ∧ (r.rtype = rtWrite ∨ r.rtype = rtMap ∨ r.rtype = rtMark) ∧ r.member = false ∧ s.dev.meets r = true :=
  ⟨0, 5, 3, acked rtMap 5, chg (st up) fun d => withRec (acked rtMap 5) (withPool pool (d.wr FRN_STATUS.MODE 0)), ⟨_, rfl⟩,
    by decide +kernel⟩

theorem witness_FirnRecordsAndDestagesAdvance_5 : ∃ pool slot r s, (∃ t, exec (.recordApply pool) s = .next t) ∧
    s.dev.nextToApply pool = some (slot, r) ∧ s.dev.recAt slot = some r ∧ r.pool = pool ∧ r.void = false ∧ r.member = false ∧
    r.committed = true ∧ s.dev.inOrder pool r.seq = true ∧ (r.rtype = rtWrite ∨ r.rtype = rtMap ∨ r.rtype = rtMark) ∧ s.dev.ctxs = [] :=
  ⟨0, 3, { rec0 rtMap 5 with committed := true, mapDelta := [.nsRemove 1] },
    chg (st up) fun d => withRec { rec0 rtMap 5 with committed := true, mapDelta := [.nsRemove 1] } (stored d), ⟨_, rfl⟩,
    by decide +kernel⟩

theorem witness_FirnRecordsAndDestagesAdvance_6 : ∃ pool n pages x y s, (∀ z ∈ s.dev.destages, z.pool = pool → z.abandoned = false) ∧
    (∃ t, exec (.destageStart pool n) s = .next t) ∧ Ready.destage pool (n / 128) (n % 128) pages x y s ∧
    (y.full = true ∨ s.dev.closeNow pool = true) ∧ s.dev.rewriteToReplay pool = none :=
  ⟨0, 0, 1, pool4,
    layAll pool4.k pool4.stripLen toDestage.dev (toDestage.dev.destageOrder 0) { Lay.empty with unloc := (toDestage.dev.unlocates 0).length },
    toDestage, fun _ h => (nomatch h), ⟨_, rfl⟩, by decide +kernel⟩

theorem witness_FirnRecordsAndDestagesAdvance_7 : ∃ pool n pages x y s, (∃ t, exec (.stripeCloseTimeout pool n) s = .next t) ∧
    Ready.destage pool (n / 128) (n % 128) pages x y s :=
  ⟨0, 0, 1, pool4,
    layAll pool4.k pool4.stripLen toDestage.dev (toDestage.dev.destageOrder 0) { Lay.empty with unloc := (toDestage.dev.unlocates 0).length },
    toDestage, ⟨_, rfl⟩, by decide +kernel⟩

theorem witness_FirnRecordsAndDestagesAdvance_8 : ∃ pool stripe slot r x s, (∃ t, exec (.intentMet pool stripe) s = .next t) ∧
    s.dev.stripeRec rtIntent stripe = some (slot, r) ∧ s.dev.destage stripe = some x ∧ r.pool = pool ∧ r.seq ≠ 0 ∧ x.intent = 0 ∧
    s.dev.meets r = true :=
  ⟨0, stripeId 0 1 0, 3, { acked rtIntent 6 with aux := stripeId 0 1 0 }, dst,
    chg (st up) fun d => withRec { acked rtIntent 6 with aux := stripeId 0 1 0 } (withDst dst (withPool pool4 (d.wr FRN_STATUS.MODE 0))),
    ⟨_, rfl⟩, by decide +kernel⟩

theorem witness_FirnRecordsAndDestagesAdvance_9 : ∃ pool stripe slot r x s, (∃ t, exec (.releaseMet pool stripe) s = .next t) ∧
    s.dev.stripeRec rtRelease stripe = some (slot, r) ∧ s.dev.destage stripe = some x ∧ r.pool = pool ∧ r.seq ≠ 0 ∧ r.committed = false ∧
    s.dev.meets r = true :=
  ⟨0, stripeId 0 1 0, 3, { acked rtRelease 6 with aux := stripeId 0 1 0 }, dst,
    chg (st up) fun d => withRec { acked rtRelease 6 with aux := stripeId 0 1 0 } (withDst dst (withPool pool4 (d.wr FRN_STATUS.MODE 0))),
    ⟨_, rfl⟩, by decide +kernel⟩

theorem witness_FreezeGroupsEnd_1 : ∃ fn tag pages g s, (∃ t, exec (.groupSealProceed fn tag) s = .next t) ∧
    Ready.sealing pages fn tag g s ∧ g.linkPools = [] ∧ Roomy g.pool pages s.dev :=
  ⟨0, 7, 1, { grp .sealing [⟨5, 0, 0, true, false, 0, 4⟩] with sealBy := some (5, 0, 0) },
    chg (st up) fun d => { stored { d with ctxs := [wctx []] } with firn := { d.firn with groups := [{ grp .sealing [⟨5, 0, 0, true, false, 0, 4⟩] with sealBy := some (5, 0, 0) }] } },
    ⟨_, rfl⟩, by decide +kernel⟩

theorem witness_FreezeGroupsEnd_2 : ∃ fn tag p pages g s, (∃ t, exec (.groupSealProceed fn tag) s = .next t) ∧
    Ready.sealing pages fn tag g s ∧ g.linkPools = [p] ∧ s.dev.linkOf g p = none ∧ Roomy p pages s.dev :=
  ⟨0, 7, 1, 1, { grp .sealing [⟨5, 0, 0, true, false, 1, 4⟩] with sealBy := some (5, 0, 0) },
    chg (st up) fun d => { { stored { d with ctxs := [wctx []] } with firn := { d.firn with groups := [{ grp .sealing [⟨5, 0, 0, true, false, 1, 4⟩] with sealBy := some (5, 0, 0) }] } } with pools := [(0, pool), (1, pool)] },
    ⟨_, rfl⟩, by decide +kernel⟩

theorem witness_FreezeGroupsEnd_3 : ∃ fn tag g slot r s, (∃ t, exec (.groupCommit fn tag) s = .next t) ∧
    s.dev.liveGroup fn tag = some g ∧
    (s.dev.firn.recs.find? (fun e => e.2.rtype == rtCommit && e.2.group == tag && e.2.gfn == fn && !e.2.committed) = some (slot, r)) ∧
    r.seq ≠ 0 ∧ s.dev.meets r = true :=
  ⟨0, 7, (grp .committing [⟨5, 0, 0, true, false, 0, 4⟩]), 3, { acked rtCommit 6 with group := 7, gfn := 0 },
    chg (st up) fun d => { (withRec { acked rtCommit 6 with group := 7, gfn := 0 } (stored (d.wr FRN_STATUS.MODE 0))) with firn := { ((withRec { acked rtCommit 6 with group := 7, gfn := 0 } (stored (d.wr FRN_STATUS.MODE 0)))).firn with groups := [(grp .committing [⟨5, 0, 0, true, false, 0, 4⟩])] } },
    ⟨_, rfl⟩, by decide +kernel⟩

theorem witness_FreezeGroupsEnd_4 : ∃ fn tag g s, (∃ t, exec (.groupTimeout fn tag) s = .next t) ∧ s.dev.liveGroup fn tag = some g ∧
    s.dev.commitAssigned g = false :=
  ⟨0, 7, (grp .opened [⟨5, 0, 0, true, false, 0, 4⟩]),
    chg (st up) fun d => { stored d with firn := { (stored d).firn with groups := [(grp .opened [⟨5, 0, 0, true, false, 0, 4⟩])] } },
    ⟨_, rfl⟩, by decide +kernel⟩

theorem witness_FreezeGroupsEnd_6 : ∃ fn tag slot r s, (∃ t, exec (.abortRecordOnMedium fn tag) s = .next t) ∧
    (s.dev.firn.recs.find? (fun e => e.2.rtype == rtAbort && e.2.group == tag && e.2.gfn == fn && !e.2.committed && s.dev.meets e.2) = some (slot, r)) :=
  ⟨0, 7, 3, { acked rtAbort 6 with group := 7, gfn := 0 },
    chg (st up) fun d => { (withRec { acked rtAbort 6 with group := 7, gfn := 0 } (stored (d.wr FRN_STATUS.MODE 0))) with firn := { ((withRec { acked rtAbort 6 with group := 7, gfn := 0 } (stored (d.wr FRN_STATUS.MODE 0)))).firn with groups := [(grp .discarded [⟨5, 0, 0, true, false, 0, 4⟩])] } },
    ⟨_, rfl⟩, by decide +kernel⟩

theorem witness_DumpsAndTheRegionTakeEffect_1 : ∃ path value s, (∃ t, exec (.frnDump path value) s = .next t) ∧ mediaWriter path = true ∧
    value % 65536 = 0x7C51 ∧ s.dev.firn.dumping = none :=
  ⟨.feature 0, 31825, st up, ⟨_, rfl⟩, by decide +kernel⟩

theorem witness_DumpsAndTheRegionTakeEffect_2 : ∃ path value s, (∃ t, exec (.frnDump path value) s = .next t) ∧ mediaWriter path = true ∧
    value % 65536 ≠ 0x7C51 :=
  ⟨.feature 0, 1, st up, ⟨_, rfl⟩, by decide +kernel⟩

theorem witness_DumpsAndTheRegionTakeEffect_3 : ∃ slot x s, (∃ t, exec .dumpEnd s = .next t) ∧ s.dev.firn.dumping = some slot ∧
    tget s.dev.firn.dumps slot = some x ∧ (s.dev.pw .media).coldPending = false :=
  ⟨1, ⟨2, 4, 1, 0, 0, [], 0, 1, [], [], false, false⟩,
    chg (st up) fun d => { d with firn := { d.firn with dumping := some 1, dumps := [(1, ⟨2, 4, 1, 0, 0, [], 0, 1, [], [], false, false⟩)] } },
    ⟨_, rfl⟩, by decide +kernel⟩

theorem witness_DumpsAndTheRegionTakeEffect_4 : ∃ s, (∃ t, exec .restoreEnd s = .next t) ∧ s.dev.is FRN_STATUS.RESTORING = true ∧
    s.dev.ctxs = [] :=
  ⟨chg (st up) fun d => withPool { pool with online := false } (d.set FRN_STATUS.RESTORING), ⟨_, rfl⟩, by decide +kernel⟩

theorem witness_DumpsAndTheRegionTakeEffect_5 : ∃ path value g a s, (∃ t, exec (.frnCfgWrite path value) s = .next t) ∧
    mediaWriter path = true ∧ bits value 0 6 = g ∧ bits value 8 8 = a ∧ 4 ≤ g ∧ g ≤ 32 ∧ a ≤ 64 ∧
    4 * (a * 16384) ≤ (g * 2 ^ 30 - 2 ^ 28 - 2 ^ 26) / 4096 ∧ s.dev.firn.recs = [] :=
  ⟨.feature 0, 1032, 8, 4, st up, ⟨_, rfl⟩, by decide +kernel⟩

theorem witness_DumpsAndTheRegionTakeEffect_6 : ∃ path value s, (∃ t, exec (.frnCfgWrite path value) s = .next t) ∧
    mediaWriter path = true ∧ (bits value 0 6 < 4 ∨ 32 < bits value 0 6 ∨ 64 < bits value 8 8) :=
  ⟨.feature 0, 1, st up, ⟨_, rfl⟩, by decide +kernel⟩

theorem witness_EnginesAndSequencersTakeEffect_1 : ∃ pool stripe engine s, (∃ r ∈ s.dev.reads, r.stripe = stripe ∧ r.job = true) ∧
    (∃ t, exec (.moraineJobComplete pool stripe engine false) s = .next t) ∧ engine < 16 ∧
    bit (s.dev.rd MOR_STATUS.ENG_QUAR) engine = false ∧ stripePool stripe = pool ∧ stripe ∈ s.dev.moraine ∧
    s.dev.rd (MOR_ENG.PMISMATCH engine) < 2 ∧ s.dev.ctxs = [] ∧ s.dev.maint.ops = [] :=
  ⟨0, stripeId 0 0 0, 3, chg (st up) fun d => withRead (rd0 .scrub) (withPool pool4 { d with moraine := [stripeId 0 0 0] }),
    ⟨_, List.mem_singleton.2 rfl, rfl, rfl⟩, ⟨_, rfl⟩, by decide +kernel⟩

theorem witness_EnginesAndSequencersTakeEffect_2 : ∃ pool stripe engine x p s,
    (∃ t, exec (.moraineJobComplete pool stripe engine true) s = .next t) ∧ engine < 16 ∧
    bit (s.dev.rd MOR_STATUS.ENG_QUAR) engine = false ∧ stripePool stripe = pool ∧ stripe ∈ s.dev.moraine ∧
    s.dev.destage stripe = some x ∧ x.intent ≠ 0 ∧ x.synd = false ∧ s.dev.twin.race = none ∧ tget s.dev.pools x.pool = some p ∧
    (∀ o < x.plan.k + x.plan.m, ((p.place stripe o).bind (s.dev.driveFor x.pool)).isSome) ∧ s.dev.ctxs = [] ∧ s.dev.maint.ops = [] :=
  ⟨0, stripeId 0 1 0, 3, { dst with intent := 4, synd := false }, pool4,
    chg (st up) fun d => withDst { dst with intent := 4, synd := false } (withDrv (drv 4) (withPool pool4 { d with moraine := [stripeId 0 1 0] })),
    ⟨_, rfl⟩, by decide +kernel⟩

theorem witness_EnginesAndSequencersTakeEffect_3 : ∃ path mask s, (∃ t, exec (.engRelease path mask) s = .next t) ∧
    mediaWriter path = true :=
  ⟨.feature 0, 5, st up, ⟨_, rfl⟩, by decide +kernel⟩

theorem witness_EnginesAndSequencersTakeEffect_4 : ∃ pool m y s, (∃ t, exec (.driveAbsenceTimeout pool m) s = .next t) ∧
    s.dev.member pool m = some y ∧ y.absentSince.isSome ∧ s.dev.isHome pool = true ∧ pool ∉ s.dev.drives.windows ∧
    (y.state = 1 ∨ y.state = 2) :=
  ⟨0, 2, { mem 1 with absentSince := some 4 },
    chg (st up) fun d => withPool { pool4 with members := [(2, { mem 1 with absentSince := some 4 })] } d, ⟨_, rfl⟩, by decide +kernel⟩

theorem witness_EnginesAndSequencersTakeEffect_5 : ∃ pool x st s, (∃ t, exec (.rebuildJobStart pool) s = .next t) ∧ Ready.pool pool x s ∧
    s.dev.jobsOf pool < 256 ∧ s.dev.nextRebuild pool = some st ∧ s.dev.beyondRepair st = false :=
  ⟨0, pool4, stripeId 0 0 0, chg (st up) fun d => withStripe (strp [1]) (withDrv (drv 4) (withPool pool4 d)), ⟨_, rfl⟩, by decide +kernel⟩

theorem witness_EnginesAndSequencersTakeEffect_6 : ∃ pool x s, (∃ t, exec (.rebuildMarkTimer pool) s = .next t) ∧ Ready.pool pool x s ∧
    x.mark ≠ (x.level, x.row) :=
  ⟨0, { pool4 with level := 2 }, chg (st up) fun d => withPool { pool4 with level := 2 } d, ⟨_, rfl⟩, by decide +kernel⟩

theorem witness_EnginesAndSequencersTakeEffect_7 : ∃ pool x s, (∃ t, exec (.poolPlacementRetry pool) s = .next t) ∧ Ready.pool pool x s ∧
    x.offline = true ∧ x.offlineRec = false :=
  ⟨0, { pool4 with offline := true }, chg (st up) fun d => withPool { pool4 with offline := true } d, ⟨_, rfl⟩, by decide +kernel⟩

theorem witness_EnginesAndSequencersTakeEffect_8 : ∃ pool x s, (∃ t, exec (.scrubStripe pool) s = .next t) ∧ Ready.pool pool x s ∧
    s.dev.rebuildWork pool = [] ∧ x.scrub.begun = true ∧ x.scrub.redo = [] ∧ x.repair = [] ∧ x.scrub.onDemand = false ∧
    s.dev.nextSweep pool (x.scrub.row * 128 + x.scrub.slot) = none :=
  ⟨0, { pool4 with scrub := ⟨0, 0, false, 0, 0, (0, 0), [], true, false, 3⟩ },
    chg (st up) fun d => withPool { pool4 with scrub := ⟨0, 0, false, 0, 0, (0, 0), [], true, false, 3⟩ } d, ⟨_, rfl⟩, by decide +kernel⟩

theorem witness_EnginesAndSequencersTakeEffect_9 : ∃ pool x st s, (∃ t, exec (.scrubStripe pool) s = .next t) ∧ Ready.pool pool x s ∧
    s.dev.rebuildWork pool = [] ∧ x.scrub.begun = true ∧ x.scrub.redo = [] ∧ x.repair = [] ∧
    s.dev.nextSweep pool (x.scrub.row * 128 + x.scrub.slot) = some st :=
  ⟨0, { pool4 with scrub := ⟨0, 0, false, 0, 0, (0, 0), [], true, false, 3⟩ }, stripeId 0 0 0,
    chg (st up) fun d => withStripe (strp []) (withDrv (drv 4) (withPool { pool4 with scrub := ⟨0, 0, false, 0, 0, (0, 0), [], true, false, 3⟩ } d)),
    ⟨_, rfl⟩, by decide +kernel⟩

theorem witness_EnginesAndSequencersTakeEffect_10 : ∃ pool x s, (∃ t, exec (.scrubLate pool) s = .next t) ∧ Ready.pool pool x s ∧
    x.scrub.begun = true :=
  ⟨0, { pool4 with scrub := ⟨0, 0, false, 0, 0, (0, 0), [], true, false, 3⟩ },
    chg (st up) fun d => withPool { pool4 with scrub := ⟨0, 0, false, 0, 0, (0, 0), [], true, false, 3⟩ } d, ⟨_, rfl⟩, by decide +kernel⟩

theorem witness_EnginesAndSequencersTakeEffect_11 : ∃ pool m k x r s, (∃ t, exec (.evacuationRowCopy pool m) s = .next t) ∧
    Ready.pool pool x s ∧ (x.relocs.find? (fun r => r.member == m) = some r) ∧ r.mark = some k ∧ x.mstate m = 6 ∧
    s.dev.nextEvacRow pool m k = none :=
  ⟨0, 2, 0, { pool4 with members := [(0, mem 1), (1, mem 1), (2, mem 6), (3, mem 1)], relocs := [⟨2, some 0⟩] }, ⟨2, some 0⟩,
    chg (st up) fun d => withPool { pool4 with members := [(0, mem 1), (1, mem 1), (2, mem 6), (3, mem 1)], relocs := [⟨2, some 0⟩] } d,
    ⟨_, rfl⟩, by decide +kernel⟩

theorem witness_EnginesAndSequencersTakeEffect_12 : ∃ pool m k row st o x r s, (∃ t, exec (.evacuationRowCopy pool m) s = .next t) ∧
    Ready.pool pool x s ∧ (x.relocs.find? (fun r => r.member == m) = some r) ∧ r.mark = some k ∧ x.mstate m = 6 ∧
    s.dev.nextEvacRow pool m k = some row ∧ s.dev.rowStrip pool m row = some (st, o) ∧ s.dev.moving pool m st = false ∧
    (s.dev.stripe st).any (·.reserved) = false ∧ s.dev.reads = [] :=
  ⟨0, 2, 0, 0, stripeId 0 0 0, 1, { pool4 with members := [(0, mem 1), (1, mem 1), (2, mem 6), (3, mem 1)], relocs := [⟨2, some 0⟩] },
    ⟨2, some 0⟩,
    chg (st up) fun d => withStripe (strp []) (withDrv (drv 4) (withPool { pool4 with members := [(0, mem 1), (1, mem 1), (2, mem 6), (3, mem 1)], relocs := [⟨2, some 0⟩] } d)),
    ⟨_, rfl⟩, by decide +kernel⟩

theorem witness_PruningCompactionAndStreamsAdvance_1 : ∃ pool pages nsid n es s, (∃ t, exec (.prune pool) s = .next t) ∧
    Roomy pool pages s.dev ∧ 64 * es.length + 512 ≤ 4096 * pages ∧ s.dev.nss = [(nsid, n)] ∧ n.pool = pool ∧
    s.dev.prunePending nsid = true ∧ s.dev.dueDeltas = [] ∧ s.dev.readsGone nsid n = false ∧ es = (s.dev.prunable nsid).take pruneBatch ∧
    es ≠ [] :=
  ⟨0, 1, 1, { ns with deleted := true }, [(4, ⟨1, false, 9, 3⟩)],
    chg (st up) fun d => withPool pool4 (withNs { ns with deleted := true } { d with xmap := { d.xmap with blocks := [(2 ^ 41 + 4, [⟨1, false, 9, 3⟩])] } }),
    ⟨_, rfl⟩, by decide +kernel⟩

theorem witness_PruningCompactionAndStreamsAdvance_2 : ∃ pool n pages st x y s, (∃ t, exec (.compaction pool n) s = .next t) ∧
    Ready.destage pool (n / 128) (n % 128) pages x y s ∧ (y.full = true ∨ s.dev.closeNow pool = true) ∧ s.dev.destages = [] ∧
    (s.dev.rebuildWork pool = [] ∨ x.full = true) ∧ s.dev.compactNext pool = some st ∧ s.dev.liveObjs st = [] :=
  ⟨0, 128, 1, stripeId 0 0 0, pool4,
    layAll pool4.k pool4.stripLen toCompact.dev (toCompact.dev.destageOrder 0) { Lay.empty with unloc := (toCompact.dev.unlocates 0).length },
    toCompact, ⟨_, rfl⟩, by decide +kernel⟩

theorem witness_PruningCompactionAndStreamsAdvance_3 : ∃ sid addr len sl st n run s,
    (∃ t, exec (.calveMessageWrite sid run) s = .next t) ∧ Ready.message sid addr len sl st n run s :=
  ⟨3, 4096, 8192, 0, { strm true with tail := 1, depth := 4 }, { ns with flags := 1 },
    ⟨some (leBytes 8 4096 ++ leBytes 4 8192 ++ leBytes 4 0), 0, [], [], [], []⟩,
    chg (st up) fun d => withKey 4000 3 (withPool pool4 (withNs { ns with flags := 1 } { d with streams := [(3, { strm true with tail := 1, depth := 4 })] })),
    ⟨_, rfl⟩, by decide +kernel⟩

theorem witness_TwinRecordMessagesTakeEffect_1 : ∃ m id len s, (∃ t, exec (.record m) s = .next t) ∧ s.dev.stillCrossing = true ∧
    NoMail .snow s ∧ m.q < 8 ∧ m.args = [id] ∧ m.tag = 2 ^ 32 * len ∧ m.data.length < 256 * len :=
  ⟨⟨0, 2 ^ 32, 5, 0, [9], [1]⟩, 9, 1, chg (st up) fun d => paired d, ⟨_, rfl⟩, by decide +kernel⟩

theorem witness_TwinRecordMessagesTakeEffect_2 : ∃ m id pages r s, r.npage ≤ pages ∧ m.data ≠ [] ∧
    m.tag = 2 ^ 32 * (m.data.length / 256) ∧ m.data.length % 256 = 0 ∧ recordOf m.data = some r ∧ r.pool = m.q ∧ r.seq = m.ref ∧
    (∃ t, exec (.record m) s = .next t) ∧ s.dev.stillCrossing = true ∧ NoMail .snow s ∧ Roomed pages s.dev ∧ s.dev.firn.locks = [] ∧
    s.dev.tstate ≠ 7 ∧ m.q < 8 ∧ m.args = [id] ∧ m.ref ≠ 0 ∧ (tget s.dev.pools m.q).isSome ∧ s.dev.slotOf m.q m.ref = none ∧
    s.dev.ctxs = [] := by
  obtain ⟨r, h, p, e, n⟩ := hdr_read
  exact ⟨⟨0, 2 ^ 32, 5, 0, [9], hdr⟩, 9, 1, r, chg (st up) fun d => withPool pool (paired d), n.le.trans (by decide),
    List.ne_nil_of_length_pos (by rw [hdr_length]; decide), by simp only [hdr_length]; decide, by rw [hdr_length], h, p, e, ⟨_, rfl⟩,
    by decide +kernel⟩

theorem witness_TwinRecordMessagesTakeEffect_3 : ∃ m h time slot r s, m.args = [h, time] ∧ r.hcheck = h ∧
    (∃ t, exec (.ack m) s = .next t) ∧ s.dev.stillCrossing = true ∧ NoMail .snow s ∧ (tget s.dev.pools m.q).isSome ∧ m.ref ≠ 0 ∧
    (∀ e ∈ s.dev.firn.recs, e.2.seq ≠ 0) ∧ s.dev.slotOf m.q m.ref = some slot ∧ s.dev.recAt slot = some r ∧ s.dev.ctxs = [] :=
  ⟨⟨0, 0, 5, 0, [(rec0 rtMap 5).hcheck, 7], []⟩, (rec0 rtMap 5).hcheck, 7, 3, rec0 rtMap 5,
    chg (st up) fun d => withRec (rec0 rtMap 5) (withPool pool (paired d)), rfl, rfl, ⟨_, rfl⟩, by decide +kernel⟩

theorem witness_TwinRecordMessagesTakeEffect_4 : ∃ m slot r x i s, (∃ t, exec (.refuse m) s = .next t) ∧ Ready.refused m slot r x i s ∧
    s.dev.linkOpen .media :=
  ⟨⟨0, 9, 0, 0, [0], []⟩, 3, { rec0 rtWrite 0 with msgId := 9, cmds := [⟨5, 0, 0, 2, 0⟩] },
    wctx [⟨0, 9, true, 0, 9, 0, 0, [], none, true⟩], ⟨0, 9, true, 0, 9, 0, 0, [], none, true⟩,
    chg (st up) fun d => withRec ({ rec0 rtWrite 0 with msgId := 9, cmds := [⟨5, 0, 0, 2, 0⟩] }) (withPool pool (paired { d with ctxs := [wctx [⟨0, 9, true, 0, 9, 0, 0, [], none, true⟩]] })),
    ⟨_, rfl⟩, by decide +kernel⟩

theorem witness_TwinMessagesTakeEffect_1 : ∃ m health echo s, (∃ t, exec (.echo m) s = .next t) ∧ NoMail .snow s ∧
    s.dev.twin.breaks = [] ∧ s.dev.twin.chains = [] ∧ m.args.getD 0 0 = health ∧ m.args.getD 1 0 = echo :=
  ⟨⟨0, 0, 0, 0, [7, 9], []⟩, 7, 9, chg (st up) fun d => paired d, ⟨_, rfl⟩, by decide +kernel⟩

theorem witness_TwinMessagesTakeEffect_2 : ∃ source time s, (∃ t, exec (.reportFaultNotice source time) s = .next t) ∧ Ready.pair s ∧
    NoMail .snow s :=
  ⟨4, 9, chg (st up) fun d => paired d, ⟨_, rfl⟩, by decide +kernel⟩

theorem witness_TwinMessagesTakeEffect_3 : ∃ pool m y s, (∃ t, exec (.reportPathLoss pool m) s = .next t) ∧ NoMail .snow s ∧
    s.dev.isHome pool = true ∧ s.dev.member pool m = some y :=
  ⟨0, 0, mem 1, chg (st up) fun d => withPool pool4 (paired d), ⟨_, rfl⟩, by decide +kernel⟩

theorem witness_TwinMessagesTakeEffect_4 : ∃ pool st cause synd agree y s,
    (∃ t, exec (.reportDivergentStripe pool st cause synd agree) s = .next t) ∧ NoMail .snow s ∧ Roomy pool 1 s.dev ∧
    stripePool st = pool ∧ s.dev.stripe st = some y ∧ s.dev.divergentStripe st = false :=
  ⟨0, stripeId 0 0 0, 2, 3, true, strp [], chg (st up) fun d => withStripe (strp []) (withPool pool4 (paired d)), ⟨_, rfl⟩,
    by decide +kernel⟩

theorem witness_TwinMessagesTakeEffect_5 : ∃ pool st x s, (∃ t, exec (.reportLocatedStrip pool st) s = .next t) ∧ NoMail .snow s ∧
    s.dev.isHome pool = true ∧ stripePool st = pool ∧ (s.dev.stripe st).isSome ∧ tget s.dev.pools pool = some x ∧ st ∉ x.repair ∧
    x.repair.length < 4096 :=
  ⟨0, stripeId 0 0 0, pool4, chg (st up) fun d => withStripe (strp []) (withPool pool4 (paired d)), ⟨_, rfl⟩, by decide +kernel⟩

theorem witness_TwinMessagesTakeEffect_6 : ∃ m sid n base target stop s, (∃ t, exec (.coord m) s = .next t) ∧ Ready.pair s ∧
    NoMail .snow s ∧ s.dev.ctxs = [] ∧ s.dev.staging.store = false ∧ s.dev.twin.act = none ∧ m.args = [23, 1, sid, n, base, target, stop] :=
  ⟨⟨0, 0, 0, 0, [23, 1, 3, 1, 0, 2, 8], []⟩, 3, 1, 0, 2, 8, chg (st up) fun d => paired d, ⟨_, rfl⟩, by decide +kernel⟩

theorem witness_TwinMessagesTakeEffect_7 : ∃ m s, (∃ t, exec (.coord m) s = .next t) ∧ Ready.pair s ∧ NoMail .snow s ∧ s.dev.ctxs = [] ∧
    s.dev.staging.store = false ∧ s.dev.twin.act = none ∧ coordKinds.contains (m.args.headD 0) = false :=
  ⟨⟨0, 0, 0, 0, [77], []⟩, chg (st up) fun d => paired d, ⟨_, rfl⟩, by decide +kernel⟩

theorem witness_TwinMessagesTakeEffect_8 : ∃ m s, (∃ t, exec (.pair m) s = .next t) ∧ NoMail .snow s ∧ s.dev.tstate ≠ 2 :=
  ⟨⟨0, 0, 0, 0, [0, 4, 0, 8, 0, 0, 0, 0, 6], []⟩, chg (st up) fun d => paired d, ⟨_, rfl⟩, by decide +kernel⟩

theorem witness_TwinMessagesTakeEffect_9 : ∃ m slot r s, (∃ t, exec (.recon m) s = .next t) ∧ NoMail .snow s ∧ s.dev.tstate = 3 ∧
    (tget s.dev.pools m.q).isSome ∧ m.args = [2] ∧ s.dev.slotOf m.q m.ref = some slot ∧ s.dev.recAt slot = some r ∧ SnowOpen s.dev :=
  ⟨⟨0, 0, 5, 0, [2], []⟩, 3, rec0 rtMap 5,
    chg (st up) fun d => withRec (rec0 rtMap 5) (withPool pool ((paired d).wr TWN_STATUS.STATE 3)), ⟨_, rfl⟩, by decide +kernel⟩

theorem witness_TwinMessagesTakeEffect_10 : ∃ pools heads x s, (∃ t, exec (.swap pools heads) s = .next t) ∧ NoMail .snow s ∧
    s.dev.twin.swap = some x ∧ x.dest = s.dev.twinSide ∧ x.pools = pools ∧ s.dev.tstate = 5 ∧ s.dev.ctxs = [] ∧ s.dev.twin.act = none :=
  ⟨1, [(0, 5, [])], ⟨1, 0, none, false, 0, 0⟩,
    chg (st up) fun d => withPool { pool with home := 1 } { (paired d) with twin := { (paired d).twin with swap := some ⟨1, 0, none, false, 0, 0⟩ } },
    ⟨_, rfl⟩, by decide +kernel⟩

theorem witness_PartnerIsWatched_1 : ∃ cable c s, (∃ t, exec (.sidebandWord cable (c + 16 * (15 - c))) s = .next t) ∧ cable ≤ 1 ∧
    (c = 1 ∨ c = 4 ∨ c = 7) :=
  ⟨1, 4, st up, ⟨_, rfl⟩, by decide +kernel⟩

theorem witness_PartnerIsWatched_2 : ∃ cable c s, (∃ t, exec (.sidebandWord cable (c + 16 * (15 - c))) s = .next t) ∧ Ready.pair s ∧
    cable ≤ 1 ∧ (c = 3 ∨ c = 5) :=
  ⟨0, 5, chg (st up) fun d => paired d, ⟨_, rfl⟩, by decide +kernel⟩

theorem witness_PartnerIsWatched_3 : ∃ cable word s, (∃ t, exec (.sidebandWord cable word) s = .next t) ∧ word % 16 + word / 16 ≠ 15 :=
  ⟨0, 7, st up, ⟨_, rfl⟩, by decide +kernel⟩

theorem witness_PartnerIsWatched_4 : ∃ s, (∃ t, exec .echoSend s = .next t) ∧ 2 ≤ s.dev.tstate ∧ s.dev.tstate ≤ 5 ∧ SnowOpen s.dev :=
  ⟨chg (st up) fun d => paired d, ⟨_, rfl⟩, by decide +kernel⟩

theorem witness_PartnerIsWatched_7 : ∃ s, (∃ t, exec .echoTimeout s = .next t) ∧ Ready.pair s ∧ s.dev.twin.breaks = [] :=
  ⟨chg (st up) fun d => paired d, ⟨_, rfl⟩, by decide +kernel⟩

theorem witness_PartnerIsWatched_8 : ∃ pool seq slot r s, (slot, r) ∈ s.dev.firn.recs ∧
    (∃ t, exec (.recordAckTimeout pool seq) s = .next t) ∧ Ready.pair s ∧ r.pool = pool ∧ r.seq = seq ∧ r.receiver = s.dev.twinSide ∧
    r.ack = none ∧ bit s.dev.twin.partner.health 1 = false :=
  ⟨0, 5, 3, { rec0 rtMap 5 with receiver := 0 },
    chg (st up) fun d => withRec { rec0 rtMap 5 with receiver := 0 } (withPool pool (paired d)), List.mem_singleton.2 rfl, ⟨_, rfl⟩,
    by decide +kernel⟩

theorem witness_PartnerIsWatched_9 : ∃ c time s, (∃ t, exec .linkLossTimeout s = .next t) ∧ Ready.pair s ∧
    (c, time) ∈ s.dev.twin.sbWords ∧ (3 ≤ c ∧ c ≤ 7) ∧ s.dev.tbMedia ≤ time + 400 :=
  ⟨4, 100, chg (st up) fun d => (withTwin (fun x => { x with sbWords := [(4, 100)] }) (paired d)), ⟨_, rfl⟩, by decide +kernel⟩

theorem witness_PartnerIsWatched_10 : ∃ ok s, (∃ t, exec (.selfCheckEnd ok) s = .next t) ∧ s.dev.twin.selfCheck.isSome ∧
    s.dev.twin.selfDone = false :=
  ⟨false, chg (st up) fun d => (withTwin (fun x => { x with selfCheck := some 4 }) (d)), ⟨_, rfl⟩, by decide +kernel⟩

theorem witness_SplitTakeoverAndPairingAdvance_1 : ∃ w i v r s, (∃ t, exec .witnessRetry s = .next t) ∧ Ready.witness w i v r s :=
  ⟨0, 0, drv 4, ⟨0, [], [1, 2, 3, 4], []⟩,
    chg (st up) fun d => (withTwin (fun x => { x with witness := [wtn], race := some ⟨0, [], [1, 2, 3, 4], []⟩ }) (withDrv { drv 4 with nguid := 77 } (withPool pool4 d))),
    ⟨_, rfl⟩, by decide +kernel⟩

theorem witness_SplitTakeoverAndPairingAdvance_2 : ∃ r s, (∃ t, exec .splitTimeout s = .next t) ∧ s.dev.twin.race = some r :=
  ⟨⟨0, [], [1, 2, 3, 4], []⟩, chg (st up) fun d => (withTwin (fun x => { x with race := some ⟨0, [], [1, 2, 3, 4], []⟩ }) (d)), ⟨_, rfl⟩,
    by decide +kernel⟩

theorem witness_SplitTakeoverAndPairingAdvance_3 : ∃ x i v s, (∃ t, exec .witnessTakeoverWrite s = .next t) ∧
    s.dev.twin.declared = some x ∧ s.dev.twin.selfFailed = false ∧ s.dev.witnessDrive 0 = some (i, v) ∧ Ready.submits i false 0 s ∧
    s.dev.writesOver = false :=
  ⟨(3, 9), 0, drv 4,
    chg (st up) fun d => (withTwin (fun x => { x with witness := [wtn], declared := some (3, 9) }) (withDrv { drv 4 with nguid := 77 } (withPool pool4 d))),
    ⟨_, rfl⟩, by decide +kernel⟩

theorem witness_SplitTakeoverAndPairingAdvance_4 : ∃ i v s, (∃ t, exec (.reservationPreempt i) s = .next t) ∧ i ∈ s.dev.twin.preempt ∧
    s.dev.drive i = some v ∧ (v.state = 4 ∨ v.state = 6) ∧ Ready.submits i false 0 s ∧
    (∀ e ∈ s.dev.drives.cmds, e.2.drive = i → e.2.what ≠ .preempt) :=
  ⟨0, drv 4,
    chg (st up) fun d => (withTwin (fun x => { x with preempt := [0] }) (withDrv { drv 4 with nguid := 77 } (withPool pool4 d))),
    ⟨_, rfl⟩, by decide +kernel⟩

theorem witness_SplitTakeoverAndPairingAdvance_5 : ∃ s, (∃ t, exec .resyncEnd s = .next t) ∧ s.dev.tstate = 4 ∧ s.dev.twin.unacked = [] ∧
    s.dev.twin.mirrorOnly = true :=
  ⟨chg (st up) fun d => (withTwin (fun x => { x with mirrorOnly := true }) (d.wr TWN_STATUS.STATE 4)), ⟨_, rfl⟩, by decide +kernel⟩

theorem witness_SplitTakeoverAndPairingAdvance_6 : ∃ s, (∃ t, exec .resyncEnd s = .next t) ∧ s.dev.tstate = 4 ∧ s.dev.twin.unacked = [] ∧
    s.dev.twin.mirrorOnly = false ∧ s.dev.twin.partner.mirrorOnly = true ∧ bit s.dev.twin.partner.health 2 = true ∧ s.dev.ctxs = [] ∧
    s.dev.twin.act = none :=
  ⟨
    chg (st up) fun d => (withTwin (fun x => { x with partner := { x.partner with mirrorOnly := true, health := 4 } }) (d.wr TWN_STATUS.STATE 4)),
    ⟨_, rfl⟩, by decide +kernel⟩

theorem witness_SplitTakeoverAndPairingAdvance_7 : ∃ s, (∀ h, s.dev.is (CRP_STATUS.RELEASED h) = true) ∧
    (∃ t, exec .pairingStart s = .next t) ∧ s.dev.tstate ≤ 2 ∧ s.dev.cableUp = true ∧ s.dev.is FRN_STATUS.RESTORING = false ∧
    s.dev.firn.dumping = none ∧ s.dev.twin.released = false ∧ s.dev.twin.mirrorOnly = false ∧ s.dev.twin.race = none ∧
    s.dev.twin.selfFailed = false ∧ s.dev.twin.act = none ∧ s.dev.twin.peerReleased = false ∧ SnowOpen s.dev :=
  ⟨chg (st up) fun d => withLink .snow (lnk tx0 rx0) (d.set TWN_LANES.CABLE0_UP), (by intro h; cases h <;> decide +kernel), ⟨_, rfl⟩,
    by decide +kernel⟩

theorem witness_SplitTakeoverAndPairingAdvance_8 : ∃ s, (∃ t, exec .reconcileStepEnd s = .next t) ∧ s.dev.tstate = 3 ∧
    s.dev.twin.reconcile ≤ 1 :=
  ⟨chg (st up) fun d => d.wr TWN_STATUS.STATE 3, ⟨_, rfl⟩, by decide +kernel⟩

theorem witness_SplitTakeoverAndPairingAdvance_9 : ∃ s, (∃ t, exec .reconcileStepEnd s = .next t) ∧ s.dev.tstate = 3 ∧
    s.dev.twin.reconcile = 2 ∧ s.dev.firn.recs = [] ∧ s.dev.xmap.stripes = [] :=
  ⟨chg (st up) fun d => (withTwin (fun x => { x with reconcile := 2 }) (d.wr TWN_STATUS.STATE 3)), ⟨_, rfl⟩, by decide +kernel⟩

theorem witness_SnowbridgeLanesAndCipherTakeEffect_1 : ∃ lane n other s, (∃ t, exec (.snowbridgeLaneLost lane n) s = .next t) ∧
    lane ∈ s.dev.snow.rx.lanes ∧ other ∈ s.dev.snow.rx.lanes ∧ other ≠ lane :=
  ⟨1, 3, 2, chg (st up) fun d => withLink .snow (lnk tx0 rx0) d, ⟨_, rfl⟩, by decide +kernel⟩

theorem witness_SnowbridgeLanesAndCipherTakeEffect_2 : ∃ lane s, (∃ t, exec (.laneAutoRetrain lane) s = .next t) ∧
    s.dev.is TWN_CFG.AUTO_RETRAIN = true ∧ lane ∈ s.dev.snow.rx.lost ∧ bit (s.dev.rd TWN_LANES.PARKED) lane = false :=
  ⟨5, chg (st up) fun d => withLink .snow (lnk tx0 rx0) (d.set TWN_CFG.AUTO_RETRAIN), ⟨_, rfl⟩, by decide +kernel⟩

theorem witness_SnowbridgeLanesAndCipherTakeEffect_3 : ∃ path value s, (∃ t, exec (.linkGcmWrite path value) s = .next t) ∧
    mediaWriter path = true ∧ s.dev.twinSide = 0 ∧ s.dev.tstate ≠ 5 :=
  ⟨.feature 0, 1, st up, ⟨_, rfl⟩, by decide +kernel⟩

theorem witness_SnowbridgeLanesAndCipherTakeEffect_4 : ∃ path value s, (∃ t, exec (.linkGcmWrite path value) s = .next t) ∧
    s.dev.twinSide ≠ 0 :=
  ⟨.feature 0, 1, chg (st up) fun d => { d with straps := [(0, 1)] }, ⟨_, rfl⟩, by decide +kernel⟩

theorem witness_SnowbridgeLanesAndCipherTakeEffect_5 : ∃ path s, (∃ t, exec (.twnLaneRetry path) s = .next t) ∧ mediaWriter path = true :=
  ⟨.feature 0, chg (st up) fun d => withLink .snow (lnk tx0 rx0) d, ⟨_, rfl⟩, by decide +kernel⟩

theorem witness_SnowbridgeLanesAndCipherTakeEffect_6 : ∃ path s, (∃ t, exec (.rejoin path) s = .next t) ∧ mediaWriter path = true ∧
    s.dev.twin.released = true ∧ s.dev.tstate = 2 ∧ s.dev.twin.peerReleased = false ∧ SnowOpen s.dev :=
  ⟨.feature 0,
    chg (st up) fun d => (withTwin (fun x => { x with released := true }) (withLink .snow (lnk tx0 rx0) (d.wr TWN_STATUS.STATE 2))),
    ⟨_, rfl⟩, by decide +kernel⟩

theorem witness_SnowbridgeLanesAndCipherTakeEffect_7 : ∃ s, (∃ t, exec .tbOffsetUpdate s = .next t) ∧ s.dev.twin.offs ≠ [] :=
  ⟨chg (st up) fun d => (withTwin (fun x => { x with offs := [3, -5] }) (d)), ⟨_, rfl⟩, by decide +kernel⟩

theorem witness_SwapDrainAndActivationEnd_1 : ∃ x s, (∃ t, exec .swapDrainEnd s = .next t) ∧ s.dev.twin.swap = some x ∧
    x.dest ≠ s.dev.twinSide ∧ s.dev.ctxs = [] :=
  ⟨⟨1, 1, none, false, 0, 0⟩,
    chg (st up) fun d => withPool pool (withTwin (fun x => { x with swap := some ⟨1, 1, none, false, 0, 0⟩ }) (d)), ⟨_, rfl⟩,
    by decide +kernel⟩

theorem witness_SwapDrainAndActivationEnd_2 : ∃ a s, (∃ t, exec .swapDrainEnd s = .next t) ∧ s.dev.twin.swap = none ∧
    s.dev.twin.act = some a ∧ a.step = 1 ∧ a.solo = true :=
  ⟨⟨0, 3, 1, 0, true, 0, 1⟩, chg (st up) fun d => (withTwin (fun x => { x with act := some ⟨0, 3, 1, 0, true, 0, 1⟩ }) (d)), ⟨_, rfl⟩,
    by decide +kernel⟩

theorem witness_SwapDrainAndActivationEnd_3 : ∃ a bank s, (∃ t, exec .activationResume s = .next t) ∧ s.dev.twin.act = some a ∧
    a.step = 2 ∧ a.solo = true ∧ a.plain = false ∧ bank = 1 - a.oldBank ∧ s.dev.ctxs = [] :=
  ⟨⟨0, 3, 2, 0, true, 0, 1⟩, 1, chg (st up) fun d => (withTwin (fun x => { x with act := some ⟨0, 3, 2, 0, true, 0, 1⟩ }) (d)), ⟨_, rfl⟩,
    by decide +kernel⟩

theorem witness_SwapDrainAndActivationEnd_4 : ∃ a s, (∃ t, exec .activationFallback s = .next t) ∧ s.dev.twin.act = some a ∧ a.step = 2 ∧
    a.plain = false :=
  ⟨⟨0, 3, 2, 0, false, 0, 1⟩, chg (st up) fun d => (withTwin (fun x => { x with act := some ⟨0, 3, 2, 0, false, 0, 1⟩ }) (d)), ⟨_, rfl⟩,
    by decide +kernel⟩

theorem witness_EndpointLinksAndResetsTakeEffect_1 : ∃ ep width speed flit s,
    (∃ t, exec (.endpointLinkUp ep width speed flit) s = .next t) ∧ ep < 4 ∧ [1, 2, 4, 8, 16].contains width = true ∧ 1 ≤ speed ∧
    speed ≤ 6 ∧ (s.dev.ep ep).perst = false ∧ (s.dev.pw .host).held = false ∧ s.dev.rd (CRP_STATUS.STAGE .host) ≠ 0 :=
  ⟨1, 8, 5, false, chg (st up) fun d => { (d.wr (CRP_STATUS.STAGE .host) 4) with eps := [] }, ⟨_, rfl⟩, by decide +kernel⟩

theorem witness_EndpointLinksAndResetsTakeEffect_2 : ∃ ep perst s, (∃ t, exec (.endpointReset ep perst) s = .next t) ∧ ep < 4 ∧
    s.dev.ctxs = [] :=
  ⟨2, true, st up, ⟨_, rfl⟩, by decide +kernel⟩

theorem witness_EndpointLinksAndResetsTakeEffect_3 : ∃ fn s, (∃ t, exec (.busMasterEnableClear fn) s = .next t) ∧
    s.dev.fnExists fn = true ∧ s.dev.ctxs = [] :=
  ⟨0, st up, ⟨_, rfl⟩, by decide +kernel⟩

theorem witness_EndpointLinksAndResetsTakeEffect_4 : ∃ fn s, (∃ t, exec (.busMasterEnableSet fn) s = .next t) ∧
    s.dev.fnExists fn = true ∧ s.dev.ctxs = [] :=
  ⟨0, st up, ⟨_, rfl⟩, by decide +kernel⟩

theorem witness_EndpointLinksAndResetsTakeEffect_6 : ∃ ep s, (∃ t, exec (.vfEnableClear ep) s = .next t) ∧ ep < 4 ∧
    s.dev.is (CFG.VF_EN (256 * ep)) = true ∧ s.dev.ctxs = [] :=
  ⟨0, chg (st up) fun d => (d.wr (CFG.NUMVFS 0) 2).set (CFG.VF_EN 0), ⟨_, rfl⟩, by decide +kernel⟩

theorem witness_EndpointLinksAndResetsTakeEffect_7 : ∃ fn s, (∃ t, exec (.functionLevelReset fn) s = .next t) ∧
    s.dev.fnExists fn = true ∧ fn < 1024 ∧ (s.dev.fn fn).flr = false ∧ s.dev.ctxs = [] :=
  ⟨0, st up, ⟨_, rfl⟩, by decide +kernel⟩

theorem witness_EndpointLinksAndResetsTakeEffect_8 : ∃ fn s, (∀ e ∈ s.dev.rings.queues, e.2.fn ≠ fn) ∧
    (∃ t, exec (.flrComplete fn) s = .next t) ∧ s.dev.ctxs = [] ∧ (∀ ch ∈ floChansOf fn, s.dev.floState .host ch = floIdle) :=
  ⟨0, chg (st up) fun d => d.modFn 0 fun x => { x with flr := true }, fun _ h => (nomatch h), ⟨_, rfl⟩, by decide +kernel⟩

theorem witness_EndpointLinksAndResetsTakeEffect_9 : ∃ fn s, (∃ t, exec (.d3hotEntry fn) s = .next t) ∧ isPf fn = true ∧
    (s.dev.fn fn).d3 = false ∧ (s.dev.ep (epOf fn)).perst = false ∧ s.dev.ctxs = [] :=
  ⟨256, st up, ⟨_, rfl⟩, by decide +kernel⟩

theorem witness_EndpointLinksAndResetsTakeEffect_10 : ∃ fn s, (∃ t, exec (.d0Return fn) s = .next t) ∧ (s.dev.fn fn).d3 = true ∧
    s.dev.ctxs = [] :=
  ⟨0, chg (st up) fun d => (d.modFn 0 fun x => { x with d3 := true }).wr (CFG.POWER 0) 3, ⟨_, rfl⟩, by decide +kernel⟩

theorem witness_EndpointEventsTakeEffect_1 : ∃ fn v i value s, (∃ t, exec (.msixEntryWrite fn (16 * v + 4 * i) 4 value) s = .next t) ∧
    s.dev.decodes fn = true ∧ v < vectorCount fn ∧ i < 4 :=
  ⟨0, 3, 2, 77, st up, ⟨_, rfl⟩, by decide +kernel⟩

theorem witness_EndpointEventsTakeEffect_2 : ∃ fn v s, (∃ t, exec (.vectorUnmask fn v) s = .next t) ∧ s.dev.decodes fn = true ∧
    v < vectorCount fn ∧ (s.dev.fn fn).pend.contains v = true ∧ s.dev.is (CFG.MSIX_EN fn) = true ∧ s.dev.is (CFG.MSIX_MASK fn) = false ∧
    s.dev.holding fn = false ∧ s.dev.ideClear fn = true :=
  ⟨0, 3, chg (st up) fun d => (d.modFn 0 fun x => { x with msix := [(3, ⟨4096, 9, true⟩)], pend := [3] }).set (CFG.MSIX_EN 0), ⟨_, rfl⟩,
    by decide +kernel⟩

theorem witness_EndpointEventsTakeEffect_3 : ∃ fn q tag qu c s, (∃ t, exec (.completionTimeout fn (.dataRead q tag)) s = .next t) ∧
    Ready.unread q tag qu c s :=
  ⟨0, 5, 0, ioq [{ cm [(0, 1), (4, 1), (24, 1)] with segs := [(4096, 4096)], dataLen := 4096 }],
    { cm [(0, 1), (4, 1), (24, 1)] with segs := [(4096, 4096)], dataLen := 4096 },
    io ({ cm [(0, 1), (4, 1), (24, 1)] with segs := [(4096, 4096)], dataLen := 4096 }), ⟨_, rfl⟩, by decide +kernel⟩

theorem witness_EndpointEventsTakeEffect_4 : ∃ fn q tag poisoned qu c s,
    (∃ t, exec (.requestError fn (.dataRead q tag) poisoned) s = .next t) ∧ Ready.unread q tag qu c s :=
  ⟨0, 5, 0, true, ioq [{ cm [(0, 1), (4, 1), (24, 1)] with segs := [(4096, 4096)], dataLen := 4096 }],
    { cm [(0, 1), (4, 1), (24, 1)] with segs := [(4096, 4096)], dataLen := 4096 },
    io ({ cm [(0, 1), (4, 1), (24, 1)] with segs := [(4096, 4096)], dataLen := 4096 }), ⟨_, rfl⟩, by decide +kernel⟩

theorem witness_EndpointEventsTakeEffect_5 : ∃ fn s, (∃ t, exec (.poisonedWrite fn) s = .next t) ∧ s.dev.fnExists fn = true :=
  ⟨0, st up, ⟨_, rfl⟩, by decide +kernel⟩

theorem witness_EndpointEventsTakeEffect_6 : ∃ ep stream s, (∃ t, exec (.ideCheckFailed ep stream) s = .next t) ∧ ep < 4 ∧ stream < 8 :=
  ⟨1, 3, st up, ⟨_, rfl⟩, by decide +kernel⟩

theorem witness_EndpointEventsTakeEffect_7 : ∃ ep s, (∃ t, exec (.l1Request ep 0) s = .next t) ∧ Ready.power ep s ∧
    s.dev.rd (EPX_PM_CFG.L1_IDLE ep) ≠ 0 ∧ bit (s.dev.rd (CFG.ASPM (256 * ep))) 1 = true :=
  ⟨0, chg (st up) fun d => ((d.wr (EPX_LINK.STATE 0) 1).wr (EPX_PM_CFG.L1_IDLE 0) 5).wr (CFG.ASPM 0) 2, ⟨_, rfl⟩, by decide +kernel⟩

theorem witness_EndpointEventsTakeEffect_8 : ∃ ep tx w s, (∃ t, exec (.l0pNarrow ep tx) s = .next t) ∧ Ready.power ep s ∧
    s.dev.is (EPX_LINK.FLIT ep) = true ∧ s.dev.rd (EPX_PM_CFG.L0P_IDLE ep) ≠ 0 ∧ w = s.dev.rd (l0pField ep tx) / 2 ∧ w < 32 ∧
    2 ^ (s.dev.rd (EPX_PM_CFG.L0P_MIN ep) + 1) ≤ w :=
  ⟨0, true, 4,
    chg (st up) fun d => ((((d.wr (EPX_LINK.STATE 0) 1).set (EPX_LINK.FLIT 0)).wr (EPX_PM_CFG.L0P_IDLE 0) 5).wr (l0pField 0 true) 8).wr (EPX_PM_CFG.L0P_MIN 0) 0,
    ⟨_, rfl⟩, by decide +kernel⟩

theorem witness_EndpointEventsTakeEffect_9 : ∃ ep tx s, (∃ t, exec (.l0pWiden ep tx) s = .next t) ∧ s.dev.rd (EPX_LINK.STATE ep) = 2 ∧
    s.dev.rd (EPX_LINK.WIDTH ep) < 32 :=
  ⟨0, true, chg (st up) fun d => ((d.wr (EPX_LINK.STATE 0) 2).wr (EPX_LINK.WIDTH 0) 8).wr (l0pField 0 true) 4, ⟨_, rfl⟩, by decide +kernel⟩

theorem witness_DrivesComeAndGo_1 : ∃ port sub speed width path s,
    (∃ t, exec (.driveInserted port ⟨sub, path⟩ speed width) s = .next t) ∧ port < 8 ∧ sub < s.dev.subLinks port ∧ path.length ≤ 2 ∧
    s.dev.drives.table.length < 128 :=
  ⟨3, 0, 4, 4, [7], st up, ⟨_, rfl⟩, by decide +kernel⟩

theorem witness_DrivesComeAndGo_2 : ∃ i v f s, (∃ t, exec (.driveReady i f) s = .next t) ∧ Ready.drive i v f s :=
  ⟨0, drv 1, facts, chg (st up) fun d => withDrv (drv 1) d, ⟨_, rfl⟩, by decide +kernel⟩

theorem witness_DrivesComeAndGo_3 : ∃ i v f s, (∃ t, exec (.driveReady i f) s = .next t) ∧ s.dev.drive i = some v ∧ v.state = 1 ∧
    factsReason f ≠ 0 ∧ s.dev.ctxs = [] :=
  ⟨0, drv 1, { facts with lbads := 9 }, chg (st up) fun d => withDrv (drv 1) d, ⟨_, rfl⟩, by decide +kernel⟩

theorem witness_DrivesComeAndGo_4 : ∃ i v s, (∃ t, exec (.driveReadyTimeout i) s = .next t) ∧ s.dev.drive i = some v ∧ v.state = 1 :=
  ⟨0, drv 1, chg (st up) fun d => withDrv (drv 1) d, ⟨_, rfl⟩, by decide +kernel⟩

theorem witness_DrivesComeAndGo_5 : ∃ i v s, (∀ e ∈ s.dev.drives.cmds, e.2.drive ≠ i) ∧ (∃ t, exec (.driveRemoved i) s = .next t) ∧
    s.dev.drive i = some v ∧ v.state = 3 ∧ s.dev.ctxs = [] :=
  ⟨0, drv 3, chg (st up) fun d => withDrv (drv 3) d, fun _ h => (nomatch h), ⟨_, rfl⟩, by decide +kernel⟩

theorem witness_DrivesComeAndGo_6 : ∃ pool x s, (∃ t, exec (.enumWindowExpiry pool) s = .next t) ∧ pool ∈ s.dev.drives.windows ∧
    tget s.dev.pools pool = some x :=
  ⟨0, pool4, chg (st up) fun d => withPool pool4 { d with drives := { d.drives with windows := [0] } }, ⟨_, rfl⟩, by decide +kernel⟩

theorem witness_DrivesComeAndGo_7 : ∃ path value s, (∀ e ∈ s.dev.drives.table, e.2.state ≠ 4 ∧ e.2.state ≠ 6) ∧
    (∃ t, exec (.drvPortCfgWrite path value) s = .next t) ∧ mediaWriter path = true :=
  ⟨.feature 0, 5, st up, fun _ h => (nomatch h), ⟨_, rfl⟩, by decide +kernel⟩

theorem witness_DriveCommandsEnd_1 : ∃ cid c v s, (∃ t, exec (.nvmeCompletion cid 0 0 []) s = .next t) ∧ Ready.nvme cid c v s ∧
    c.what = .preempt :=
  ⟨4, ⟨0, false, 2, 64, 1, 1024, .preempt, [], 0, false, none, 0⟩, { drv 4 with keys := [0, 1] },
    chg (st up) fun d => withDrv ({ drv 4 with keys := [0, 1] }) { d with drives := { d.drives with cmds := [(4, ⟨0, false, 2, 64, 1, 1024, .preempt, [], 0, false, none, 0⟩)], next := 9 } },
    ⟨_, rfl⟩, by decide +kernel⟩

theorem witness_DriveCommandsEnd_2 : ∃ cid c v data s, (∃ t, exec (.nvmeCompletion cid 0 0x82 data) s = .next t) ∧ Ready.nvme cid c v s ∧
    cid ∉ s.dev.drives.retry :=
  ⟨4, ⟨0, false, 2, 64, 1, 1024, .dsm, [], 0, false, none, 0⟩, drv 4, [],
    chg (st up) fun d => withDrv (drv 4) { d with drives := { d.drives with cmds := [(4, ⟨0, false, 2, 64, 1, 1024, .dsm, [], 0, false, none, 0⟩)], next := 9 } },
    ⟨_, rfl⟩, by decide +kernel⟩

theorem witness_DriveCommandsEnd_3 : ∃ cid c v s, (∃ t, exec (.namespaceNotReadyRetry cid) s = .next t) ∧ Ready.nvme cid c v s ∧
    cid ∈ s.dev.drives.retry ∧ s.dev.portsHalted = false :=
  ⟨4, ⟨0, false, 2, 64, 1, 1024, .dsm, [], 0, false, none, 0⟩, drv 4,
    chg (st up) fun d => withDrv (drv 4) { d with drives := { d.drives with cmds := [(4, ⟨0, false, 2, 64, 1, 1024, .dsm, [], 0, false, none, 0⟩)], next := 9, retry := [4] } },
    ⟨_, rfl⟩, by decide +kernel⟩

theorem witness_DriveCommandsEnd_4 : ∃ cid c v s, (∃ t, exec (.nvmeCommandTimeout cid) s = .next t) ∧ Ready.nvme cid c v s ∧
    c.what = .dsm ∧ c.abortAt = none ∧ s.dev.boundTo c.drive = none ∧ v.aborts < v.abortLimit ∧ Ready.submits c.drive true c.cls s :=
  ⟨4, ⟨0, false, 2, 64, 1, 1024, .dsm, [], 0, false, none, 0⟩, { drv 3 with abortLimit := 4 },
    chg (st up) fun d => withDrv ({ drv 3 with abortLimit := 4 }) { d with drives := { d.drives with cmds := [(4, ⟨0, false, 2, 64, 1, 1024, .dsm, [], 0, false, none, 0⟩)], next := 9 } },
    ⟨_, rfl⟩, by decide +kernel⟩

theorem witness_DriveCommandsEnd_5 : ∃ cid c v old s, (∃ t, exec (.abortTimeout cid) s = .next t) ∧ Ready.nvme cid c v s ∧
    c.what = .abort old :=
  ⟨4, ⟨0, false, 2, 64, 1, 1024, (.abort 3), [], 0, false, none, 0⟩, drv 4, 3,
    chg (st up) fun d => withDrv (drv 4) { d with drives := { d.drives with cmds := [(4, ⟨0, false, 2, 64, 1, 1024, (.abort 3), [], 0, false, none, 0⟩)], next := 9 } },
    ⟨_, rfl⟩, by decide +kernel⟩

theorem witness_DriveCommandsEnd_6 : ∃ cid c v id o s, (∃ t, exec (.readHedgeTimeout cid) s = .next t) ∧ Ready.nvme cid c v s ∧
    c.what = .stripRead id o ∧ c.hedged = false ∧ s.dev.rd DRV_CFG.READ_HEDGE ≠ 0 ∧ s.dev.sread id = none :=
  ⟨4, ⟨0, false, 2, 64, 1, 1024, (.stripRead 2 1), [], 0, false, none, 0⟩, drv 4, 2, 1,
    chg (st up) fun d => withDrv (drv 4) { d with drives := { d.drives with cmds := [(4, ⟨0, false, 2, 64, 1, 1024, (.stripRead 2 1), [], 0, false, none, 0⟩)], next := 9 } },
    ⟨_, rfl⟩, by decide +kernel⟩

theorem witness_FloeChannelCommandsTakeEffect_1 : ∃ path h ch s, (∃ t, exec (.kick path ch) s = .next t) ∧ Ready.drives path h ch ∧
    s.dev.floState h ch = floIdle ∧ s.dev.floMayIssue h ch = true :=
  ⟨.i3c .host, .host, 0, st up, ⟨_, rfl⟩, by decide +kernel⟩

theorem witness_FloeChannelCommandsTakeEffect_2 : ∃ path h ch s, (∃ t, exec (.kick path ch) s = .next t) ∧ Ready.drives path h ch ∧
    s.dev.floState h ch = floIdle ∧ s.dev.floMayIssue h ch = false :=
  ⟨.pf 0, .host, 96, chg (st up) fun d => d.wr (CFG.BME 0) 0, ⟨_, rfl⟩, by decide +kernel⟩

theorem witness_FloeChannelCommandsTakeEffect_3 : ∃ path h ch s, (∃ t, exec (.kick path ch) s = .next t) ∧ Ready.drives path h ch ∧
    s.dev.floState h ch ≠ floIdle :=
  ⟨.i3c .host, .host, 0, chg (st up) fun d => withChan 0 floRun fetching (d), ⟨_, rfl⟩, by decide +kernel⟩

theorem witness_FloeChannelCommandsTakeEffect_4 : ∃ path h ch s, (∃ t, exec (.pause path ch) s = .next t) ∧ Ready.drives path h ch ∧
    (s.dev.floState h ch = floRun ∨ s.dev.floState h ch = floWait) :=
  ⟨.i3c .host, .host, 0, chg (st up) fun d => withChan 0 floRun fetching (d), ⟨_, rfl⟩, by decide +kernel⟩

theorem witness_FloeChannelCommandsTakeEffect_5 : ∃ path h ch s, (∃ t, exec (.resume path ch) s = .next t) ∧ Ready.drives path h ch ∧
    s.dev.floState h ch = floPaused ∧ s.dev.rd (FLO_CH_STATUS.PAUSE_SRC h ch) = 1 ∧ (s.dev.chan h ch).begun = false ∧
    (s.dev.chan h ch).await = some .fetch ∧ s.dev.floMayIssue h ch = true :=
  ⟨.i3c .host, .host, 0,
    chg (st up) fun d => withChan 0 floPaused { fetching with issued := false } (d.wr (FLO_CH_STATUS.PAUSE_SRC .host 0) 1), ⟨_, rfl⟩,
    by decide +kernel⟩

theorem witness_FloeChannelCommandsTakeEffect_6 : ∃ path h ch s, (∃ t, exec (.abort path ch) s = .next t) ∧ Ready.drives path h ch ∧
    s.dev.floState h ch ≠ floIdle ∧ s.dev.floState h ch ≠ floAborting :=
  ⟨.i3c .host, .host, 0, chg (st up) fun d => withChan 0 floRun fetching (d), ⟨_, rfl⟩, by decide +kernel⟩

theorem witness_FloeChannelCommandsTakeEffect_7 : ∃ h ch s, (∃ t, exec (.channelPaused h ch) s = .next t) ∧
    s.dev.floState h ch = floPausing ∧ (s.dev.chan h ch).bursts = [] ∧ (s.dev.chan h ch).issued = false :=
  ⟨.host, 0, chg (st up) fun d => withChan 0 floPausing { fetching with issued := false } (d), ⟨_, rfl⟩, by decide +kernel⟩

theorem witness_FloeChannelCommandsTakeEffect_8 : ∃ h ch s, (∃ t, exec (.abortDrained h ch) s = .next t) ∧
    s.dev.floState h ch = floAborting :=
  ⟨.host, 0, chg (st up) fun d => withChan 0 floAborting fetching (d), ⟨_, rfl⟩, by decide +kernel⟩

theorem witness_FloeChannelCommandsTakeEffect_9 : ∃ h l s, (∃ t, exec (.floSwreq (.i3c h) l) s = .next t) ∧ l < 32 ∧
    s.dev.lineCount h l < 255 ∧ (∀ ch < 128, s.dev.waitsLine h ch l = false) :=
  ⟨.host, 3, st up, ⟨_, rfl⟩, by decide +kernel⟩

theorem witness_FloeChannelCommandsTakeEffect_10 : ∃ h value s, (∀ ch k, s.dev.waitsEvent h ch k = false) ∧
    ∃ t, exec (.floEventSet (.i3c h) value) s = .next t :=
  ⟨.host, 5, st up, waits_none (by decide +kernel) _, _, rfl⟩

theorem witness_FloeChannelCommandsTakeEffect_12 : ∃ path h ch value s,
    (∃ t, exec (.floChConfigWrite path (128 * ch + 0x18) 4 value) s = .next t) ∧ Ready.drives path h ch ∧ s.dev.floState h ch = floIdle ∧
    bits value 16 12 ≠ 0 ∧ value < 2 ^ 32 :=
  ⟨.i3c .host, .host, 0, 458752, st up, ⟨_, rfl⟩, by decide +kernel⟩

theorem witness_FloeChannelCommandsTakeEffect_13 : ∃ path h ch value s,
    (∃ t, exec (.floChConfigWrite path (128 * ch + 0x18) 4 value) s = .next t) ∧ Ready.drives path h ch ∧ s.dev.floState h ch ≠ floIdle :=
  ⟨.i3c .host, .host, 0, 9, chg (st up) fun d => withChan 0 floRun fetching (d), ⟨_, rfl⟩, by decide +kernel⟩

theorem witness_FloeProgramsRun_1 : ∃ h ch desc s, (∃ t, exec (.descriptorRead h ch desc) s = .next t) ∧
    (s.dev.chan h ch).await = some .desc ∧ (s.dev.chan h ch).issued = true ∧ s.dev.floState h ch = floRun ∧
    s.dev.floMayIssue h ch = true ∧ bit (getLe desc 0 8) 0 = true :=
  ⟨.host, 0, leBytes 8 1 ++ leBytes 8 4096 ++ List.replicate 16 0,
    chg (st up) fun d => withChan 0 floRun { fetching with await := some .desc } (d), ⟨_, rfl⟩, by decide +kernel⟩

theorem witness_FloeProgramsRun_2 : ∃ h ch i s, (∃ t, exec (.move h ch (.instr i)) s = .next t) ∧ Ready.instr h ch 1 i s ∧
    moveCause h ch i = 0 ∧ moveCont i = false ∧ movePace i = false :=
  ⟨.host, 0, ins [(0, 1), (4, 64), (8, 4096), (16, 8192)], chg (st up) fun d => withChan 0 floRun fetching (d), ⟨_, rfl⟩,
    by decide +kernel⟩

theorem witness_FloeProgramsRun_3 : ∃ h ch opc i s, (∃ t, exec (.move h ch (.instr i)) s = .next t) ∧ Ready.instr h ch opc i s ∧
    (opc = 0 ∨ 5 < opc) :=
  ⟨.host, 0, 0, ins [], chg (st up) fun d => withChan 0 floRun fetching (d), ⟨_, rfl⟩, by decide +kernel⟩

theorem witness_FloeProgramsRun_4 : ∃ h ch i f s, (∃ t, exec (.loop h ch i) s = .next t) ∧ Ready.instr h ch 2 i s ∧
    loopCause (s.dev.chan h ch).prog (s.dev.rd (FLO_CH_PC.PC h ch)) i = 0 ∧
    f = (if bit (getLe i 1 1) 0 then FLO_CH_LOOP.LC1 h ch else FLO_CH_LOOP.LC0 h ch) ∧ 1 < s.dev.rd f ∧ s.dev.rd f < 2 ^ 16 :=
  ⟨.host, 0, ins [(0, 2), (2, 3), (4, 1)], FLO_CH_LOOP.LC0 .host 0,
    chg (st up) fun d => withChan 0 floRun fetching ((d.wr (FLO_CH_PC.PC .host 0) 4160).wr (FLO_CH_LOOP.LC0 .host 0) 2), ⟨_, rfl⟩,
    by decide +kernel⟩

theorem witness_FloeProgramsRun_5 : ∃ h ch i s, (∃ t, exec (.wait h ch i) s = .next t) ∧ Ready.instr h ch 3 i s ∧ waitCause h ch i = 0 ∧
    bit (getLe i 1 1) 0 = true ∧ bit (s.dev.rd (FLO_EVENT.FLAGS h)) (getLe i 2 1) = true :=
  ⟨.host, 0, ins [(0, 3), (1, 1), (2, 40)], chg (st up) fun d => withChan 0 floRun fetching (d.wr (FLO_EVENT.FLAGS .host) (2 ^ 40)),
    ⟨_, rfl⟩, by decide +kernel⟩

theorem witness_FloeProgramsRun_6 : ∃ h ch i s, (∃ t, exec (.wait h ch i) s = .next t) ∧ Ready.instr h ch 3 i s ∧ waitCause h ch i = 0 ∧
    bit (getLe i 1 1) 0 = true ∧ bit (s.dev.rd (FLO_EVENT.FLAGS h)) (getLe i 2 1) = false :=
  ⟨.host, 0, ins [(0, 3), (1, 1), (2, 40)], chg (st up) fun d => withChan 0 floRun fetching (d), ⟨_, rfl⟩, by decide +kernel⟩

theorem witness_FloeProgramsRun_7 : ∃ h ch i k s, (∀ c, s.dev.waitsEvent h c k = false) ∧ (∃ t, exec (.signal h ch i) s = .next t) ∧
    Ready.instr h ch 4 i s ∧ signalCause h ch i = 0 ∧ (s.dev.chan h ch).unresponded = false ∧ getLe i 1 1 = 1 ∧ getLe i 2 1 = k :=
  ⟨.host, 0, ins [(0, 4), (1, 1), (2, 40)], 40, chg (st up) fun d => withChan 0 floRun fetching (d),
    fun c => waits_none (by decide +kernel) _ c _, ⟨_, rfl⟩, by decide +kernel⟩

theorem witness_FloeProgramsRun_8 : ∃ h ch i s, (∃ t, exec (.endInstr h ch i) s = .next t) ∧ Ready.instr h ch 5 i s ∧
    zeroFrom i 1 = true ∧ (s.dev.chan h ch).unresponded = false ∧ (floOwner h ch).isSome :=
  ⟨.host, 96, ins [(0, 5)], chg (st up) fun d => withChan 96 floRun fetching (d), ⟨_, rfl⟩, by decide +kernel⟩

theorem witness_FloeProgramsRun_9 : ∃ h ch i s, (∃ t, exec (.endInstr h ch i) s = .next t) ∧ Ready.instr h ch 5 i s ∧
    zeroFrom i 1 = true ∧ (s.dev.chan h ch).unresponded = false ∧ floOwner h ch = none :=
  ⟨.host, 0, ins [(0, 5)], chg (st up) fun d => withChan 0 floRun fetching (d), ⟨_, rfl⟩, by decide +kernel⟩

theorem witness_FloeProgramsRun_10 : ∃ h ch s, (∃ t, exec (.writeResponse h ch) s = .next t) ∧ (∀ w ∈ s.dev.floe.regWrites, w.1 ≠ h) ∧
    (s.dev.chan h ch).await = some .response ∧ (s.dev.chan h ch).issued = true ∧ s.dev.floState h ch = floRun ∧
    s.dev.floMayIssue h ch = true ∧ getLe (s.dev.chan h ch).instr 0 1 = 5 ∧ (floOwner h ch).isSome :=
  ⟨.host, 96, chg (st up) fun d => withChan 96 floRun { fetching with await := some .response, instr := ins [(0, 5)] } (d), ⟨_, rfl⟩,
    by decide +kernel⟩

theorem witness_FloeProgramsRun_11 : ∃ h ch s, (∃ t, exec (.writeResponse h ch) s = .next t) ∧ (∀ w ∈ s.dev.floe.regWrites, w.1 ≠ h) ∧
    (s.dev.chan h ch).await = some .dstat ∧ (s.dev.chan h ch).issued = true ∧ s.dev.floState h ch = floRun :=
  ⟨.host, 0, chg (st up) fun d => withChan 0 floRun { fetching with await := some .dstat, instr := ins [(0, 5)] } (d), ⟨_, rfl⟩,
    by decide +kernel⟩

theorem witness_FloeProgramsRun_12 : ∃ h ch n s, (∃ t, exec (.floeBurstGrant h) s = .next t) ∧ s.dev.floGrant h = some ch ∧
    movePace (s.dev.chan h ch).instr = false ∧ moveSrcSpace (s.dev.chan h ch).instr ≠ 7 ∧
    n = min (s.dev.chan h ch).unread (moveBurst (s.dev.chan h ch).instr) :=
  ⟨.host, 0, 1,
    chg (st up) fun d => withChan 0 floRun { fetching with begun := true, unread := 64, instr := ins [(0, 1), (4, 64)], issued := false, await := none } (d),
    ⟨_, rfl⟩, by decide +kernel⟩

theorem witness_FloeProgramsRun_13 : ∃ h ch s, (∃ t, exec (.busError h ch) s = .next t) ∧ (s.dev.chan h ch).issued = true ∧
    (s.dev.chan h ch).begun = false ∧ (s.dev.chan h ch).failed = none ∧ s.dev.floState h ch = floRun ∧ s.dev.floMayIssue h ch = true ∧
    (s.dev.chan h ch).left ≠ 0 :=
  ⟨.host, 0, chg (st up) fun d => withChan 0 floRun { fetching with left := 2 } (d), ⟨_, rfl⟩, by decide +kernel⟩

theorem witness_FloeProgramsRun_14 : ∃ h ch s, (∃ t, exec (.busError h ch) s = .next t) ∧ (s.dev.chan h ch).issued = true ∧
    (s.dev.chan h ch).begun = false ∧ (s.dev.chan h ch).failed = none ∧ s.dev.floState h ch = floRun ∧ (s.dev.chan h ch).left = 0 ∧
    (s.dev.chan h ch).await = some .fetch :=
  ⟨.host, 0, chg (st up) fun d => withChan 0 floRun { fetching with left := 0 } (d), ⟨_, rfl⟩, by decide +kernel⟩

theorem witness_FloeProgramsRun_15 : ∃ h ch s, (∃ t, exec (.waitTimeout h ch) s = .next t) ∧ s.dev.floState h ch = floWait ∧
    (s.dev.chan h ch).begun = true ∧ getLe (s.dev.chan h ch).instr 0 1 = 3 ∧ bit (getLe (s.dev.chan h ch).instr 1 1) 1 = true :=
  ⟨.host, 0, chg (st up) fun d => withChan 0 floWait { fetching with begun := true, instr := ins [(0, 3), (1, 2), (2, 40), (4, 9)] } (d),
    ⟨_, rfl⟩, by decide +kernel⟩

theorem witness_GaugeMeasuresThePack_1 : ∃ current mv s, (∀ x ∈ s.dev.gauge.steps, x.1 ≠ 0) ∧
    (∃ t, exec (.converterWindow current mv) s = .next t) ∧ mv < 2 ^ 16 ∧ -2 ^ 23 ≤ current ∧ current < 2 ^ 23 ∧
    s.dev.gauge.zeroing = false ∧ s.dev.gauge.absent = false ∧ s.dev.rd HLD_CHARGE.Q_FULL < 2 ^ 32 :=
  ⟨-500, 7500, chg (st up) fun d => packed d, fun _ h => (nomatch h), ⟨_, rfl⟩, by decide +kernel⟩

theorem witness_GaugeMeasuresThePack_2 : ∃ offset s, (∃ t, exec (.offsetZeroing offset) s = .next t) ∧ offset.natAbs ≤ 20 :=
  ⟨-7, st up, ⟨_, rfl⟩, by decide +kernel⟩

theorem witness_GaugeMeasuresThePack_3 : ∃ offset s, (∃ t, exec (.offsetZeroing offset) s = .next t) ∧ 20 < offset.natAbs :=
  ⟨25, st up, ⟨_, rfl⟩, by decide +kernel⟩

theorem witness_GaugeMeasuresThePack_4 : ∃ temp s, (∃ t, exec (.temperatureSample temp) s = .next t) ∧ -2048 ≤ temp ∧ temp < 2048 :=
  ⟨-30, st up, ⟨_, rfl⟩, by decide +kernel⟩

theorem witness_GaugeMeasuresThePack_5 : ∃ temp s, (∃ t, exec (.temperatureSample temp) s = .next t) ∧ s.dev.gauge.outside = false ∧
    (temp < 10 * ofBits 8 (s.dev.rd HLD_CFG.TLO) ∨ 10 * ofBits 8 (s.dev.rd HLD_CFG.THI) < temp) :=
  ⟨900, chg (st up) fun d => packed d, ⟨_, rfl⟩, by decide +kernel⟩

theorem witness_GaugeMeasuresThePack_6 : ∃ temp s, (∃ t, exec (.temperatureSample temp) s = .next t) ∧ s.dev.gauge.outside = true ∧
    10 * ofBits 8 (s.dev.rd HLD_CFG.TLO) + 20 ≤ temp ∧ temp ≤ 10 * ofBits 8 (s.dev.rd HLD_CFG.THI) - 20 :=
  ⟨250, chg (st up) fun d => withGauge (fun g => { g with outside := true }) (packed d), ⟨_, rfl⟩, by decide +kernel⟩

theorem witness_GaugeMeasuresThePack_7 : ∃ mv soc s, (∃ t, exec (.gapRecovery mv) s = .next t) ∧ socOf s.dev.ocvTable mv = some soc ∧
    s.dev.rd HLD_CHARGE.Q_FULL < 2 ^ 32 :=
  ⟨9520, 500000, chg (st up) fun d => packed d, ⟨_, rfl⟩, by decide +kernel⟩

theorem witness_GaugeMeasuresThePack_8 : ∃ mv soc s, (∃ t, exec (.restPoint mv) s = .next t) ∧ Ready.rest mv soc s ∧
    s.dev.gauge.points = [] :=
  ⟨9520, 500000, chg (st up) fun d => packed d, ⟨_, rfl⟩, by decide +kernel⟩

theorem witness_GaugeMeasuresThePack_9 : ∃ mv soc a q s, (∃ t, exec (.restPoint mv) s = .next t) ∧ Ready.rest mv soc s ∧
    pairPoint soc s.dev.gauge = some a ∧ q = qNew (s.dev.gauge.counted - a.mark) ((soc : Int) - a.soc).natAbs ∧
    qNewOk q (s.dev.rd HLD_CHARGE.Q_FULL) = true :=
  ⟨9520, 500000, ⟨1000000, 0, 0⟩, 4000000,
    chg (st up) fun d => withGauge (fun g => { g with points := [⟨1000000, 0, 0⟩], counted := -72000000000 }) (packed d), ⟨_, rfl⟩,
    by decide +kernel⟩

theorem witness_GaugeMeasuresThePack_10 : ∃ mv soc a s, (∃ t, exec (.restPoint mv) s = .next t) ∧ Ready.rest mv soc s ∧
    pairPoint soc s.dev.gauge = some a ∧
    qNewOk (qNew (s.dev.gauge.counted - a.mark) ((soc : Int) - a.soc).natAbs) (s.dev.rd HLD_CHARGE.Q_FULL) = false :=
  ⟨9520, 500000, ⟨1000000, 0, 0⟩,
    chg (st up) fun d => withGauge (fun g => { g with points := [⟨1000000, 0, 0⟩], counted := -7 }) (packed d), ⟨_, rfl⟩,
    by decide +kernel⟩

theorem witness_GaugeMeasuresThePack_11 : ∃ mv s, (∃ t, exec (.restPoint mv) s = .next t) ∧ mv < 6000 :=
  ⟨5000, chg (st up) fun d => packed d, ⟨_, rfl⟩, by decide +kernel⟩

theorem witness_GaugeMeasuresThePack_12 : ∃ s, (∃ t, exec .energyRecompute s = .next t) ∧ s.dev.ctxs = [] ∧ s.dev.gauge.state ≠ 2 :=
  ⟨st up, ⟨_, rfl⟩, by decide +kernel⟩

theorem witness_GaugeMeasuresThePack_13 : ∃ s, (∃ t, exec .energyRecompute s = .next t) ∧ s.dev.ctxs = [] ∧
    (s.dev.gauge.res = none ∨ ∃ m, s.dev.gauge.res = some m ∧ 200 * s.dev.rd HLD_CHARGE.Q_REM ≤ m * s.dev.rd HLD_CHARGE.Q_FULL) :=
  ⟨st up, ⟨_, rfl⟩, by decide +kernel⟩

theorem witness_GaugeMeasuresThePack_14 : ∃ m e s, (∃ t, exec .energyRecompute s = .next t) ∧ s.dev.ctxs = [] ∧
    s.dev.gauge.res = some m ∧ s.dev.gauge.state = 2 ∧ s.dev.rd HLD_STATUS.PROVISIONAL = 0 ∧
    m * s.dev.rd HLD_CHARGE.Q_FULL < 200 * s.dev.rd HLD_CHARGE.Q_REM ∧
    deliver s.dev.ocvTable (s.dev.rd HLD_CHARGE.Q_FULL) (s.dev.rd HLD_RESERVE.IR25) (kOf s.dev.packTemp) (200 * s.dev.rd HLD_CHARGE.Q_REM) (m * s.dev.rd HLD_CHARGE.Q_FULL) = some e ∧
    e / 100000000 < 2 ^ 32 ∧ 105 * eDump (s.dev.rd FRN_CFG.REGION_GIB) ≤ 100 * (e / 100000000) :=
  ⟨20, 109961890621998, chg (st up) fun d => packed d, ⟨_, rfl⟩, by decide +kernel⟩

theorem witness_GaugeGuardsThePack_1 : ∃ s, (∃ t, exec .chargeTerminate s = .next t) ∧ s.dev.gauge.charge = true :=
  ⟨chg (st up) fun d => withGauge (fun g => { g with charge := true }) (packed d), ⟨_, rfl⟩, by decide +kernel⟩

theorem witness_GaugeGuardsThePack_2 : ∃ cause s, (∃ t, exec (.holdupFault cause) s = .next t) ∧ isPackFault cause = true ∧
    (cause ≠ 3 ∨ s.dev.dumpRuns = false) :=
  ⟨4, chg (st up) fun d => packed d, ⟨_, rfl⟩, by decide +kernel⟩

theorem witness_GaugeGuardsThePack_7 : ∃ path s, (∃ t, exec (.learnStart path) s = .next t) ∧ mediaWriter path = true ∧
    s.dev.gauge.learn = 0 ∧ s.dev.dumpRuns = false :=
  ⟨.feature 0, chg (st up) fun d => packed d, ⟨_, rfl⟩, by decide +kernel⟩

theorem witness_GaugeGuardsThePack_8 : ∃ path s, (∃ t, exec (.learnStart path) s = .next t) ∧ mediaWriter path = true ∧
    s.dev.gauge.learn = 0 ∧ s.dev.dumpRuns = true :=
  ⟨.feature 0, chg (st up) fun d => { packed d with firn := { d.firn with dumping := some 1 } }, ⟨_, rfl⟩, by decide +kernel⟩

theorem witness_GaugeGuardsThePack_9 : ∃ path s, (∃ t, exec (.learnStop path) s = .next t) ∧ mediaWriter path = true ∧
    s.dev.gauge.learn ≠ 0 :=
  ⟨.feature 0, chg (st up) fun d => withGauge (fun g => { g with learn := 2 }) (packed d), ⟨_, rfl⟩, by decide +kernel⟩

theorem witness_GaugeGuardsThePack_10 : ∃ s, (∃ t, exec .learnRestTimeout s = .next t) ∧ (s.dev.gauge.learn = 1 ∨ s.dev.gauge.learn = 3) :=
  ⟨chg (st up) fun d => withGauge (fun g => { g with learn := 3 }) (packed d), ⟨_, rfl⟩, by decide +kernel⟩

theorem witness_GaugeGuardsThePack_11 : ∃ s, (∃ t, exec (.hldDisconnect (.i3c .media)) s = .next t) ∧ s.dev.dumpRuns = false :=
  ⟨chg (st up) fun d => packed d, ⟨_, rfl⟩, by decide +kernel⟩

theorem witness_GaugeGuardsThePack_12 : ∃ s, (∃ t, exec (.hldDisconnect (.feature 0)) s = .next t) ∧ s.dev.dumpRuns = false ∧
    s.dev.holdupActivity = none :=
  ⟨chg (st up) fun d => packed d, ⟨_, rfl⟩, by decide +kernel⟩

theorem witness_GaugeGuardsThePack_13 : ∃ a s, (∃ t, exec (.hldDisconnect (.feature 0)) s = .next t) ∧ s.dev.dumpRuns = false ∧
    s.dev.holdupActivity = some a :=
  ⟨{ act 6 with active := false }, chg (st up) fun d => withAct { act 6 with active := false } (packed d), ⟨_, rfl⟩, by decide +kernel⟩

theorem witness_GaugeGuardsThePack_14 : ∃ path s, (∃ t, exec (.hldConnect path) s = .next t) ∧ mediaWriter path = true ∧
    s.dev.dumpRuns = false ∧ s.dev.mayConnect = true :=
  ⟨.feature 0, chg (st up) fun d => (packed d).wr HLD_MEAS.VPACK 8000, ⟨_, rfl⟩, by decide +kernel⟩

theorem witness_GaugeGuardsThePack_15 : ∃ path s, (∃ t, exec (.hldConnect path) s = .next t) ∧ mediaWriter path = true ∧
    s.dev.dumpRuns = false ∧ s.dev.mayConnect = false :=
  ⟨.feature 0, chg (st up) fun d => packed d, ⟨_, rfl⟩, by decide +kernel⟩

theorem witness_GaugeGuardsThePack_16 : ∃ path s, (∃ t, exec (.hldConnect path) s = .next t) ∧ mediaWriter path = true ∧
    s.dev.dumpRuns = true :=
  ⟨.feature 0, chg (st up) fun d => { packed d with firn := { d.firn with dumping := some 1 } }, ⟨_, rfl⟩, by decide +kernel⟩

theorem witness_GaugeGuardsThePack_17 : ∃ path s, (∃ t, exec (.hldPackChange path) s = .next t) ∧ mediaWriter path = true ∧
    s.dev.rd HLD_PACK.Q_RATED < 2 ^ 16 ∧ s.dev.rd HLD_PACK.IR_EOL < 2 ^ 16 :=
  ⟨.feature 0, chg (st up) fun d => packed d, ⟨_, rfl⟩, by decide +kernel⟩

theorem witness_PowerAndResetsTakeEffect_1 : ∃ s, (∃ t, exec (.powerOn .host) s = .next t) ∧
    ((s.dev.pw .host).vaon = false ∨ (s.dev.pw .host).held = true) :=
  ⟨chg (st up) fun d => d.modPw .host (fun p => { p with held := true }), ⟨_, rfl⟩, by decide +kernel⟩

theorem witness_PowerAndResetsTakeEffect_2 : ∃ r s, (∃ t, exec (.powerOn .media) s = .next t) ∧
    ((s.dev.pw .media).vaon = false ∨ (s.dev.pw .media).held = true) ∧ newestRecord s.dev.gauge.eeprom = some r :=
  ⟨grec, chg (st up) fun d => withGauge (fun g => { g with eeprom := [(6, grec)] }) (d.modPw .media (fun p => { p with held := true })),
    ⟨_, rfl⟩, by decide +kernel⟩

theorem witness_PowerAndResetsTakeEffect_3 : ∃ s, (∃ t, exec (.powerOn .media) s = .next t) ∧
    ((s.dev.pw .media).vaon = false ∨ (s.dev.pw .media).held = true) ∧ newestRecord s.dev.gauge.eeprom = none :=
  ⟨chg (st up) fun d => d.modPw .media (fun p => { p with held := true }), ⟨_, rfl⟩, by decide +kernel⟩

theorem witness_PowerAndResetsTakeEffect_5 : ∃ s, (∃ t, exec .pwrgdHDeassert s = .next t) ∧ (s.dev.pw .host).held = false :=
  ⟨st up, ⟨_, rfl⟩, by decide +kernel⟩

theorem witness_PowerAndResetsTakeEffect_6 : ∃ s, (∃ t, exec .pwrgdMDeassert s = .next t) ∧ (s.dev.pw .media).held = false ∧
    s.dev.is (CRP_STATUS.RELEASED .media) = true ∧ s.dev.firn.dumping = none :=
  ⟨st up, ⟨_, rfl⟩, by decide +kernel⟩

theorem witness_PowerAndResetsTakeEffect_7 : ∃ s, (∃ t, exec .pwrgdMDeassert s = .next t) ∧ (s.dev.pw .media).held = false ∧
    s.dev.is (CRP_STATUS.RELEASED .media) = false ∧ s.dev.firn.dumping = none :=
  ⟨chg (st up) fun d => d.wr (CRP_STATUS.RELEASED .media) 0, ⟨_, rfl⟩, by decide +kernel⟩

theorem witness_PowerAndResetsTakeEffect_8 : ∃ s, (∃ t, exec (.coldRstPin .host) s = .next t) ∧ (s.dev.pw .host).held = false :=
  ⟨st up, ⟨_, rfl⟩, by decide +kernel⟩

theorem witness_PowerAndResetsTakeEffect_9 : ∃ s, (∃ t, exec (.coldRstPin .media) s = .next t) ∧ (s.dev.pw .media).held = false ∧
    s.dev.firn.dumping = none ∧ s.dev.firn.recs = [] :=
  ⟨st up, ⟨_, rfl⟩, by decide +kernel⟩

theorem witness_PowerAndResetsTakeEffect_10 : ∃ s, (∃ t, exec (.coldRstPin .media) s = .next t) ∧ (s.dev.pw .media).held = false ∧
    (s.dev.firn.recs ≠ [] ∨ s.dev.firn.dumping.isSome = true) :=
  ⟨chg (st up) fun d => withRec (rec0 rtMap 5) d, ⟨_, rfl⟩, by decide +kernel⟩

theorem witness_PowerAndResetsTakeEffect_11 : ∃ h s, (∃ t, exec (.coldRstPin h) s = .next t) ∧ (s.dev.pw h).held = true ∧
    (s.dev.pw h).tripped = true :=
  ⟨.media, chg (st up) fun d => d.modPw .media fun p => { p with held := true, tripped := true }, ⟨_, rfl⟩, by decide +kernel⟩

theorem witness_PowerAndResetsTakeEffect_12 : ∃ path s, (∃ t, exec (.crpCold path .host) s = .next t) ∧ crpWriter path .host = true ∧
    s.dev.crpAllowed = true ∧ (s.dev.pw .host).held = false :=
  ⟨.pf 0, st up, ⟨_, rfl⟩, by decide +kernel⟩

theorem witness_PowerAndResetsTakeEffect_13 : ∃ path s, (∃ t, exec (.crpCold path .media) s = .next t) ∧ crpWriter path .media = true ∧
    s.dev.crpAllowed = true ∧ (s.dev.pw .media).held = false ∧ s.dev.firn.dumping = none ∧ s.dev.firn.recs = [] :=
  ⟨.feature 0, st up, ⟨_, rfl⟩, by decide +kernel⟩

theorem witness_PowerAndResetsTakeEffect_14 : ∃ path h s, (∃ t, exec (.crpCold path h) s = .next t) ∧ crpWriter path h = true ∧
    s.dev.crpAllowed = false :=
  ⟨.pf 0, .host, chg (st up) fun d => (d.wr TWN_STATUS.STATE 5), ⟨_, rfl⟩, by decide +kernel⟩

theorem witness_PowerAndResetsTakeEffect_15 : ∃ path h s, (∃ t, exec (.crpWarm path h) s = .next t) ∧ crpWriter path h = true ∧
    s.dev.crpAllowed = false :=
  ⟨.pf 0, .host, chg (st up) fun d => (d.wr TWN_STATUS.STATE 5), ⟨_, rfl⟩, by decide +kernel⟩

theorem witness_PowerAndResetsTakeEffect_16 : ∃ path h s, (∃ t, exec (.crpWarm path h) s = .next t) ∧ crpWriter path h = true ∧
    s.dev.crpAllowed = true ∧ s.dev.twin.act = none ∧ (s.dev.pw .host).held = false ∧ (s.dev.pw .media).held = false :=
  ⟨.pf 0, .host, st up, ⟨_, rfl⟩, by decide +kernel⟩

theorem witness_PowerAndResetsTakeEffect_17 : ∃ path h s, (∃ t, exec (.crpCold path h) s = .next t) ∧ crpWriter path h = false :=
  ⟨.pf 1, .host, st up, ⟨_, rfl⟩, by decide +kernel⟩

theorem witness_PowerAndResetsTakeEffect_18 : ∃ s, (∃ t, exec (.thermalTrip .host) s = .next t) ∧ (s.dev.pw .host).held = false :=
  ⟨st up, ⟨_, rfl⟩, by decide +kernel⟩

theorem witness_PowerAndResetsTakeEffect_19 : ∃ s, (∃ t, exec (.thermalTrip .media) s = .next t) ∧ (s.dev.pw .media).held = false ∧
    s.dev.firn.dumping = none ∧ s.dev.firn.recs = [] :=
  ⟨st up, ⟨_, rfl⟩, by decide +kernel⟩

theorem witness_PowerAndResetsTakeEffect_20 : ∃ s, (∃ t, exec .referenceLost s = .next t) ∧ (s.dev.pw .host).held = false :=
  ⟨st up, ⟨_, rfl⟩, by decide +kernel⟩

theorem witness_PowerAndResetsTakeEffect_21 : ∃ h tj hbm s, (∃ t, exec (.thermalSample h tj hbm) s = .next t) ∧ -2048 ≤ tj ∧ tj < 2048 ∧
    ((tget s.dev.thermal (halfNum h)).getD Thermal.fresh).level ≤ 3 :=
  ⟨.host, 1100, [], st up, ⟨_, rfl⟩, by decide +kernel⟩

theorem witness_StartUpReleasesOrStops_1
    (f : Fuses)
    (m : List Host.Cell)
    (k : Nat)
    (n : f.lifecycle ≠ 3)
    (p : preferredBank m = some k)
    (v : imageValid f
    (bankImage m k) = true)
    (w : mediaFirmwareOk
    (bankImage m k) = true) :
    ∃ x k s,
    Ready.startup x s ∧ Ready.images x k s ∧ Ready.lanes x s ∧ mediaFirmwareOk (bankImage s.flash k) = true ∧
    (∃ t, exec (.startup x) s = .next t) ∧ x.side.1 = x.side.2 ∧ x.slot.1 = x.slot.2 ∧ x.agree = true :=
  ⟨good, k, cold f m, cold_startup rfl rfl _ _ n, ⟨p, v, rfl⟩, (show Ready.lanes (good) (st Dev.reset) by decide +kernel), w, ⟨_, rfl⟩,
    by decide +kernel⟩

theorem witness_StartUpReleasesOrStops_2 : ∃ x h s, (∃ t, exec (.startup x) s = .next t) ∧ ofHalf x.ends h = true ∧
    ofHalf x.parity h = false ∧ s.dev.mayStart h = true ∧ s.dev.rd (CRP_STATUS.RELEASED h) = 0 :=
  ⟨{ good with parity := (false, true) }, .host, State.reset, ⟨_, rfl⟩, by decide +kernel⟩

theorem witness_StartUpReleasesOrStops_3 : ∃ x s, Ready.startup x s ∧ (∃ t, exec (.startup x) s = .next t) ∧ preferredBank s.flash = none :=
  ⟨good, State.reset, cold_startup rfl rfl _ _ (by decide), ⟨_, rfl⟩, by decide +kernel⟩

theorem witness_StartUpReleasesOrStops_4 : ∃ x k s, Ready.startup x s ∧ imageValid s.fuses (bankImage s.flash k) = false ∧
    imageValid s.fuses (bankImage s.flash (1 - k)) = false ∧ (∃ t, exec (.startup x) s = .next t) ∧ preferredBank s.flash = some k :=
  ⟨good, 0, (cold State.reset.fuses flash0), cold_startup rfl rfl _ _ (by decide), image_refused rfl _, image_refused rfl _, ⟨_, rfl⟩,
    by decide +kernel⟩

theorem witness_StartUpReleasesOrStops_5
    (f : Fuses)
    (m : List Host.Cell)
    (k : Nat)
    (n : f.lifecycle ≠ 3)
    (p : preferredBank m = some k)
    (b : imageValid f
    (bankImage m k) = false)
    (v : imageValid f
    (bankImage m
    (1 - k)) = true) :
    ∃ x k s,
    Ready.startup x s ∧ preferredBank s.flash = some k ∧ imageValid s.fuses (bankImage s.flash k) = false ∧
    imageValid s.fuses (bankImage s.flash (1 - k)) = true ∧ (∃ t, exec (.startup x) s = .next t) ∧ x.hbm.1 = false :=
  ⟨{ good with hbm := (false, true) }, k, cold f m, cold_startup rfl rfl _ _ n, p, b, v, ⟨_, rfl⟩, by decide +kernel⟩

theorem witness_StartUpReleasesOrStops_6
    (f : Fuses)
    (m : List Host.Cell)
    (k : Nat)
    (n : f.lifecycle ≠ 3)
    (p : preferredBank m = some k)
    (v : imageValid f
    (bankImage m k) = true) :
    ∃ x k s,
    Ready.startup x s ∧ preferredBank s.flash = some k ∧ imageValid s.fuses (bankImage s.flash k) = true ∧
    (∃ t, exec (.startup x) s = .next t) ∧ x.hbm.1 = false :=
  ⟨{ good with hbm := (false, true) }, k, cold f m, cold_startup rfl rfl _ _ n, p, v, ⟨_, rfl⟩, by decide +kernel⟩

theorem witness_StartUpReleasesOrStops_7
    (f : Fuses)
    (m : List Host.Cell)
    (k : Nat)
    (n : f.lifecycle ≠ 3)
    (p : preferredBank m = some k)
    (v : imageValid f
    (bankImage m k) = true) :
    ∃ x k s,
    Ready.startup x s ∧ Ready.images x k s ∧ ¬ Ready.lanes x s ∧ ∃ t, exec (.startup x) s = .next t :=
  ⟨{ good with h2m := List.range 11 }, k, cold f m, cold_startup rfl rfl _ _ n, ⟨p, v, rfl⟩,
    (show ¬Ready.lanes { good with h2m := List.range 11 } (st Dev.reset) by decide +kernel), _, rfl⟩

theorem witness_StartUpReleasesOrStops_8
    (f : Fuses)
    (m : List Host.Cell)
    (k : Nat)
    (n : f.lifecycle ≠ 3)
    (p : preferredBank m = some k)
    (v : imageValid f
    (bankImage m k) = true) :
    ∃ x k s,
    Ready.startup x s ∧ Ready.images x k s ∧ Ready.lanes x s ∧ (∃ t, exec (.startup x) s = .next t) ∧ x.side.1 % 2 ≠ x.side.2 % 2 :=
  ⟨{ good with side := (0, 1) }, k, cold f m, cold_startup rfl rfl _ _ n, ⟨p, v, rfl⟩,
    (show Ready.lanes ({ good with side := (0, 1) }) (st Dev.reset) by decide +kernel), ⟨_, rfl⟩, by decide +kernel⟩

theorem witness_StartUpReleasesOrStops_9
    (f : Fuses)
    (m : List Host.Cell)
    (k : Nat)
    (n : f.lifecycle ≠ 3)
    (p : preferredBank m = some k)
    (v : imageValid f
    (bankImage m k) = true) :
    ∃ x k s,
    Ready.startup x s ∧ Ready.images x k s ∧ Ready.lanes x s ∧ (∃ t, exec (.startup x) s = .next t) ∧ x.side.1 = x.side.2 ∧
    x.slot.1 = x.slot.2 ∧ x.agree = false :=
  ⟨{ good with agree := false }, k, cold f m, cold_startup rfl rfl _ _ n, ⟨p, v, rfl⟩,
    (show Ready.lanes ({ good with agree := false }) (st Dev.reset) by decide +kernel), ⟨_, rfl⟩, by decide +kernel⟩

theorem witness_StartUpReleasesOrStops_10
    (f : Fuses)
    (m : List Host.Cell)
    (k : Nat)
    (n : f.lifecycle ≠ 3)
    (p : preferredBank m = some k)
    (v : imageValid f
    (bankImage m k) = true)
    (w : mediaFirmwareOk
    (bankImage m k) = false) :
    ∃ x k s,
    Ready.startup x s ∧ Ready.images x k s ∧ Ready.lanes x s ∧ mediaFirmwareOk (bankImage s.flash k) = false ∧
    (∃ t, exec (.startup x) s = .next t) ∧ x.side.1 = x.side.2 ∧ x.slot.1 = x.slot.2 ∧ x.agree = true :=
  ⟨good, k, cold f m, cold_startup rfl rfl _ _ n, ⟨p, v, rfl⟩, (show Ready.lanes (good) (st Dev.reset) by decide +kernel), w, ⟨_, rfl⟩,
    by decide +kernel⟩

theorem witness_StartUpReleasesOrStops_11
    (f : Fuses)
    (m : List Host.Cell)
    (n : f.lifecycle ≠ 3)
    (w : mediaFirmwareOk
    (bankImage m 0) = true) :
    ∃ x k s,
    Ready.lanes x s ∧ s.dev.starting .host = true ∧ s.dev.starting .media = true ∧ s.dev.schLock = false ∧ s.dev.firn.dumping = none ∧
    (s.dev.newestDump (fun x => !x.consumed) = none) ∧ s.dev.ctxs = [] ∧ s.fuses.lifecycle ≠ 3 ∧ s.dev.rd (CRP_STATUS.BANK .host) = k ∧
    s.dev.rd (CRP_STATUS.START_FAIL .host) = 5 ∧ handshakeCause x s.dev = 0 ∧ mediaFirmwareOk (bankImage s.flash k) = true ∧
    (∃ t, exec (.schrundTrainingRetry x) s = .next t) ∧ k < 2 :=
  ⟨good, 0, { cold f m with dev := retrying }, (show Ready.lanes good (st retrying) by decide +kernel),
    (show retrying.starting .host = true by decide +kernel), (show retrying.starting .media = true by decide +kernel), rfl, rfl, rfl,
    rfl, n, (show retrying.rd (CRP_STATUS.BANK .host) = 0 by decide +kernel),
    (show retrying.rd (CRP_STATUS.START_FAIL .host) = 5 by decide +kernel), (show handshakeCause good retrying = 0 by decide +kernel), w,
    ⟨_, rfl⟩, by decide +kernel⟩

theorem witness_LedgerAndWatchdogTakeEffect_2 : ∃ h src e s, (∃ t, exec (.faultEventDeferred h src) s = .next t) ∧
    tget (s.dev.led h).ev src = some e ∧ e.gathered ≠ 0 :=
  ⟨.host, 9, ⟨3, 2, 4, false, false, 1⟩, chg (st up) fun d => d.modLed .host fun l => { l with ev := [(9, ⟨3, 2, 4, false, false, 1⟩)] },
    ⟨_, rfl⟩, by decide +kernel⟩

theorem witness_LedgerAndWatchdogTakeEffect_3 : ∃ h s, (∃ t, exec (.watchdogExpiry h) s = .next t) ∧ s.dev.is (FLT_WDOG.ARMED h) = true ∧
    (s.dev.pw h).halted = false ∧ (s.dev.pw h).held = false :=
  ⟨.media, chg (st up) fun d => d.set (FLT_WDOG.ARMED .media), ⟨_, rfl⟩, by decide +kernel⟩

theorem witness_LedgerAndWatchdogTakeEffect_4 : ∃ path h s, (∃ t, exec (.wdogKick path h) s = .next t) ∧ fltWriter h path = true ∧
    (s.dev.pw h).halted = false ∧ (s.dev.pw h).held = false :=
  ⟨.pf 0, .host, st up, ⟨_, rfl⟩, by decide +kernel⟩

theorem witness_LedgerAndWatchdogTakeEffect_5 : ∃ path h s, (∃ t, exec (.newEpoch path h) s = .next t) ∧ fltWriter h path = true :=
  ⟨.pf 0, .host,
    chg (st up) fun d => d.modLed .host fun l => { l with recs := [⟨5, 0, 1, 0, 0, 0, 0, false, false, false, 1⟩, ⟨5, 0, 1, 0, 0, 0, 3, false, false, false, 1⟩] },
    ⟨_, rfl⟩, by decide +kernel⟩

theorem witness_LedgerAndWatchdogTakeEffect_6 : ∃ path h s, (∃ t, exec (.fltLastGasp path h) s = .next t) ∧ fltWriter h path = true :=
  ⟨.pf 0, .host, st up, ⟨_, rfl⟩, by decide +kernel⟩

theorem witness_LedgerAndWatchdogTakeEffect_7 : ∃ fn value s, (∃ t, exec (.rngEvHeadWrite fn value) s = .next t) ∧
    s.dev.decodes fn = true ∧ bits value 0 12 < (s.dev.fn fn).ev.depth ∧
    (bits value 0 12 + (s.dev.fn fn).ev.depth - s.dev.rd (RNG_EV_HEAD.HEAD fn)) % (s.dev.fn fn).ev.depth ≤ ((s.dev.fn fn).ev.tail + (s.dev.fn fn).ev.depth - s.dev.rd (RNG_EV_HEAD.HEAD fn)) % (s.dev.fn fn).ev.depth :=
  ⟨0, 3, chg (st up) fun d => d.modFn 0 fun x => { x with ev := { x.ev with set := true, depth := 16, tail := 5 } }, ⟨_, rfl⟩,
    by decide +kernel⟩

theorem witness_AdminQueueRegistersTakeEffect_1 : ∃ fn value q s, (∃ t, exec (.rngAqCfgWrite fn value) s = .next t) ∧
    s.dev.decodes fn = true ∧ s.dev.rd (RNG_AQ_CFG.ENABLE fn) = 0 ∧ bit value 28 = true ∧ s.dev.adminQueue fn = some q ∧
    bits value 0 12 ≠ 0 ∧ vectorOk fn (bits value 16 11) = true :=
  ⟨0, 268435471, 0, st up, ⟨_, rfl⟩, by decide +kernel⟩

theorem witness_AdminQueueRegistersTakeEffect_2 : ∃ fn value s,
    (s.dev.adminQueue fn = none ∨ bits value 0 12 = 0 ∨ vectorOk fn (bits value 16 11) = false) ∧
    (∃ t, exec (.rngAqCfgWrite fn value) s = .next t) ∧ s.dev.decodes fn = true ∧ s.dev.rd (RNG_AQ_CFG.ENABLE fn) = 0 ∧
    bit value 28 = true :=
  ⟨0, 268435456, st up, Or.inr (Or.inl (by decide +kernel)), ⟨_, rfl⟩, by decide +kernel⟩

theorem witness_AdminQueueRegistersTakeEffect_3 : ∃ fn value s, (∃ t, exec (.rngAqCfgWrite fn value) s = .next t) ∧
    s.dev.decodes fn = true ∧ s.dev.rd (RNG_AQ_CFG.ENABLE fn) = 1 ∧ bit value 28 = true :=
  ⟨0, 268435471, chg (st up) fun d => (d.set (RNG_AQ_CFG.ENABLE 0)), ⟨_, rfl⟩, by decide +kernel⟩

theorem witness_AdminQueueRegistersTakeEffect_4 : ∃ fn value s, (∃ t, exec (.rngAqCfgWrite fn value) s = .next t) ∧
    s.dev.decodes fn = true ∧ s.dev.rd (RNG_AQ_CFG.ENABLE fn) = 1 ∧ bit value 28 = false ∧ s.dev.adminOf fn = none :=
  ⟨0, 0, chg (st up) fun d => (d.set (RNG_AQ_CFG.ENABLE 0)), ⟨_, rfl⟩, by decide +kernel⟩

theorem witness_AdminQueueRegistersTakeEffect_5 : ∃ fn value q x s, (∃ t, exec (.rngAqCfgWrite fn value) s = .next t) ∧
    s.dev.decodes fn = true ∧ s.dev.rd (RNG_AQ_CFG.ENABLE fn) = 1 ∧ bit value 28 = false ∧ s.dev.adminOf fn = some q ∧
    s.dev.queue q = some x ∧ x.reset = none :=
  ⟨0, 0, 0, adq [], chg (st up) fun d => withQ 0 (adq []) (d.set (RNG_AQ_CFG.ENABLE 0)), ⟨_, rfl⟩, by decide +kernel⟩

theorem witness_AdminQueueRegistersTakeEffect_6 : ∃ fn q x s, (∃ t, exec (.adminQueueReady fn) s = .next t) ∧
    s.dev.rd (RNG_AQ_CFG.ENABLE fn) = 1 ∧ s.dev.adminOf fn = some q ∧ s.dev.queue q = some x ∧ x.reset = none :=
  ⟨0, 0, adq [], chg (st up) fun d => withQ 0 (adq []) (d.set (RNG_AQ_CFG.ENABLE 0)), ⟨_, rfl⟩, by decide +kernel⟩

theorem witness_AdminQueueRegistersTakeEffect_7 : ∃ (fn : _) (off : _) (s : State), Dev.decodes (State.dev s) fn = true ∧
    isDoorbell fn off = true ∧ off % 4 = 0 ∧ (s.dev.slotQueue fn off).1 = none :=
  ⟨0, 21577216, st up, by decide +kernel⟩

theorem witness_AdminQueueRegistersTakeEffect_8 : ∃ (fn : _) (off : _) (s : State), Dev.decodes (State.dev s) fn = true ∧
    isDoorbell fn off = true ∧ off % 4 = 0 :=
  ⟨0, 0x1000050, st up, by decide +kernel⟩

theorem witness_MailboxCommandsTakeEffect_1 : ∃ ep key s, (∃ t, exec (.mbxStatus ep key) s = .next t) ∧ Ready.mailbox ep 1 key s :=
  ⟨2, 0, st up, ⟨_, rfl⟩, by decide +kernel⟩

theorem witness_MailboxCommandsTakeEffect_2 : ∃ ep key s, (∃ t, exec (.mbxMediaStatus ep key) s = .next t) ∧ Ready.mailbox ep 2 key s ∧
    s.dev.linkOpen .host :=
  ⟨2, 0, st up, ⟨_, rfl⟩, by decide +kernel⟩

theorem witness_MailboxCommandsTakeEffect_3 : ∃ ep key s, (∃ t, exec (.mbxDump ep key) s = .next t) ∧ Ready.mailbox ep 0x10 key s ∧
    s.dev.linkOpen .host :=
  ⟨0, mbxKey, st up, ⟨_, rfl⟩, by decide +kernel⟩

theorem witness_MailboxCommandsTakeEffect_4 : ∃ ep key s, (∃ t, exec (.mbxFence ep key) s = .next t) ∧ Ready.mailbox ep 0x11 key s ∧
    s.dev.linkOpen .host :=
  ⟨0, mbxKey, st up, ⟨_, rfl⟩, by decide +kernel⟩

theorem witness_MailboxCommandsTakeEffect_5 : ∃ ep key s, (∃ t, exec (.mbxZeroize ep key) s = .next t) ∧ Ready.mailbox ep 0x12 key s ∧
    s.dev.linkOpen .host :=
  ⟨0, mbxKey, st up, ⟨_, rfl⟩, by decide +kernel⟩

theorem witness_MailboxCommandsTakeEffect_6 : ∃ ep key s, (∃ t, exec (.mbxPackDisconnect ep key) s = .next t) ∧
    Ready.mailbox ep 0x13 key s ∧ s.dev.linkOpen .host :=
  ⟨0, mbxKey, st up, ⟨_, rfl⟩, by decide +kernel⟩

theorem witness_MailboxCommandsTakeEffect_7 : ∃ ep key s, (∃ t, exec (.mbxLastGasp ep key) s = .next t) ∧ Ready.mailbox ep 0x14 key s :=
  ⟨0, mbxKey, st up, ⟨_, rfl⟩, by decide +kernel⟩

theorem witness_MailboxCommandsTakeEffect_8 : ∃ ep key s, (∃ t, exec (.mbxMediaStatus ep key) s = .next t) ∧ Ready.mailbox ep 2 key s ∧
    s.dev.is (SCH_STATUS.UP .host) = false :=
  ⟨1, 0, chg (st up) fun d => d.clr (SCH_STATUS.UP .host), ⟨_, rfl⟩, by decide +kernel⟩

theorem witness_MailboxCommandsTakeEffect_9 : ∃ ep key s, (∃ t, exec (.mbxFence ep key) s = .next t) ∧ ep < 4 ∧ s.dev.mbx = none ∧
    (s.dev.pw .host).vaon = true ∧ (key ≠ mbxKey ∨ ep ≠ 0) :=
  ⟨1, mbxKey, st up, ⟨_, rfl⟩, by decide +kernel⟩

theorem witness_MailboxCommandsTakeEffect_10 : ∃ ep key s, (∃ t, exec (.mbxDump ep key) s = .next t) ∧ s.dev.mbx.isSome = true :=
  ⟨0, mbxKey, chg (st up) fun d => { d with mbx := some (2, 0) }, ⟨_, rfl⟩, by decide +kernel⟩

theorem witness_ManagementPortsAnswer_1 : ∃ h s, (∃ t, exec (.statusRead h) s = .next t) ∧ s.dev.nunatak h = true :=
  ⟨.media, st up, ⟨_, rfl⟩, by decide +kernel⟩

theorem witness_ManagementPortsAnswer_2 : ∃ h off size r s, portReg h off = some r ∧ r.size = size ∧
    (∃ t, exec (.regRead h off size) s = .next t) ∧ s.dev.nunatak h = true ∧ (s.dev.coresRun h = true ∨ nunatakReg h off = true) :=
  ⟨.media, 0xE00000, ((portReg .media 0xE00000).get (by decide +kernel)).size, (portReg .media 0xE00000).get (by decide +kernel), st up,
    regAt _ _ _, rfl, ⟨_, rfl⟩, by decide +kernel⟩

theorem witness_ManagementPortsAnswer_3 : ∃ h off size r s, portReg h off = some r ∧ r.size = size ∧
    (∃ t, exec (.regRead h off size) s = .next t) ∧ s.dev.nunatak h = true ∧ s.dev.coresRun h = false ∧ nunatakReg h off = false :=
  ⟨.media, 0x700000, (portReg .media 0x700000).get (by decide +kernel) |>.size, (portReg .media 0x700000).get (by decide +kernel),
    State.reset, regAt _ _ _, rfl, ⟨_, rfl⟩, by decide +kernel⟩

theorem witness_ManagementPortsAnswer_4 : ∃ h off size s, (∃ t, exec (.regRead h off size) s = .next t) ∧ s.dev.nunatak h = true ∧
    portReg h off = none :=
  ⟨.host, 0x7, 4, st up, ⟨_, rfl⟩, by decide +kernel⟩

theorem witness_ManagementPortsAnswer_5 : ∃ off size value r s, portReg .host off = some r ∧ r.size = size ∧
    (∃ t, exec (.regWrite .host off size value) s = .next t) ∧ s.dev.nunatak .host = true ∧ s.dev.coresRun .host = true :=
  ⟨0x300000, ((portReg .host 0x300000).get (by decide +kernel)).size, 0, (portReg .host 0x300000).get (by decide +kernel), st up,
    regAt _ _ _, rfl, ⟨_, rfl⟩, by decide +kernel⟩

theorem witness_ManagementPortsAnswer_6 : ∃ value s, (∃ t, exec (.regWrite .media 0xE00000 4 value) s = .next t) ∧
    s.dev.nunatak .media = true ∧ s.dev.coresRun .media = true ∧ s.dev.ctxs = [] ∧ value < 2 ^ 32 ∧ 0x3C ≤ bits value 0 8 ∧
    bits value 0 8 ≤ 0x50 ∧ ofBits 8 (bits value 8 8) < ofBits 8 (bits value 16 8) :=
  ⟨1513944640, st up, ⟨_, rfl⟩, by decide +kernel⟩

theorem witness_ManagementPortsAnswer_7 : ∃ key arg s, (∃ t, exec (.i3cMailbox .host 1 key arg) s = .next t) ∧
    s.dev.nunatak .host = true ∧ s.dev.mbx = none :=
  ⟨0, 0, st up, ⟨_, rfl⟩, by decide +kernel⟩

theorem witness_ManagementPortsAnswer_8 : ∃ key arg s, (∃ t, exec (.i3cMailbox .media 2 key arg) s = .next t) ∧
    s.dev.nunatak .media = true :=
  ⟨0, 0, st up, ⟨_, rfl⟩, by decide +kernel⟩

theorem witness_ManagementPortsAnswer_9 : ∃ h i r s, (∃ t, exec (.ledgerRead h i) s = .next t) ∧ s.dev.nunatak h = true ∧
    ((s.dev.led h).recs ++ (s.dev.led h).sums)[i]? = some r :=
  ⟨.host, 0, ⟨5, 0, 1, 0, 0, 0, 0, false, false, false, 1⟩,
    chg (st up) fun d => d.modLed .host fun l => { l with recs := [⟨5, 0, 1, 0, 0, 0, 0, false, false, false, 1⟩] }, ⟨_, rfl⟩,
    by decide +kernel⟩

theorem witness_ManagementPortsAnswer_10 : ∃ bank off len s, (∃ t, exec (.flashAccess .host bank off len none) s = .next t) ∧
    s.dev.nunatak .host = true ∧ bank ≤ 1 ∧ len ≤ 256 ∧ off + len ≤ bankSize :=
  ⟨1, 64, 16, st up, ⟨_, rfl⟩, by decide +kernel⟩

theorem witness_ManagementPortsAnswer_11 : ∃ bank off len b s, (∃ t, exec (.flashAccess .host bank off len (some b)) s = .next t) ∧
    s.dev.nunatak .host = true ∧ bank ≤ 1 ∧ b.length ≤ 256 ∧ off + b.length ≤ bankSize ∧ Memory.wf s.flash = true :=
  ⟨1, 64, 3, [1, 2, 3], st up, ⟨_, rfl⟩, by decide +kernel⟩

theorem witness_ManagementPortsAnswer_12 : ∃ h s, (∃ t, exec (.lifecycle h 2 [] 0) s = .next t) ∧ s.dev.nunatak h = true ∧
    s.fuses.lifecycle = 1 ∧ s.dev.rime.devHost.isSome = true :=
  ⟨.host, chg (st up) fun d => { d with rime := { d.rime with devHost := some kek, devMedia := some kek } }, ⟨_, rfl⟩, by decide +kernel⟩

theorem witness_ManagementPortsAnswer_13 : ∃ h s, (∃ t, exec (.lifecycle h 3 [] 0) s = .next t) ∧ s.dev.nunatak h = true ∧
    (s.fuses.lifecycle = 1 ∨ s.fuses.lifecycle = 2) ∧ s.dev.ctxs = [] :=
  ⟨.media, chg (st up) fun d => withKey 2 1 { d with rime := { d.rime with devHost := some kek, devMedia := some kek } }, ⟨_, rfl⟩,
    by decide +kernel⟩

theorem witness_ManagementPortsAnswer_14 : ∃ i b s, b.length = 48 ∧ (∃ t, exec (.lifecycle .host 0 [(i, b)] 0) s = .next t) ∧
    s.dev.nunatak .host = true ∧ s.fuses.lifecycle = 1 ∧ i < 4 ∧ s.fuses.four.getD i [] = [] :=
  ⟨1, List.replicate 48 7#8, st up, List.length_replicate, ⟨_, rfl⟩, by decide +kernel⟩

theorem witness_ManagementPortsAnswer_15 : ∃ revoke s, (∃ t, exec (.lifecycle .host 0 [] revoke) s = .next t) ∧
    s.dev.nunatak .host = true ∧ s.fuses.lifecycle ≠ 3 ∧ revoke < 16 ∧ revoke ≠ 0 :=
  ⟨5, st up, ⟨_, rfl⟩, by decide +kernel⟩

theorem witness_ManagementPortsAnswer_16 : ∃ h s, (∃ t, exec (.lifecycle h 2 [] 0) s = .next t) ∧ s.dev.nunatak h = true ∧
    s.fuses.lifecycle = 1 ∧ s.dev.rime.devHost = none :=
  ⟨.host, st up, ⟨_, rfl⟩, by decide +kernel⟩

theorem witness_ManagementPortsAnswer_17 : ∃ key s, (∃ t, exec (.devkey .host key) s = .next t) ∧ s.dev.nunatak .host = true ∧
    key.length = 32 ∧ (s.fuses.lifecycle = 1 ∨ s.fuses.lifecycle = 2) ∧ s.dev.rime.devHost = none ∧ s.dev.rime.used < 16 :=
  ⟨kek, st up, ⟨_, rfl⟩, by decide +kernel⟩

theorem witness_ManagementPortsAnswer_18 : ∃ e n m s, (∃ t, exec (.mctp .host m) s = .next t) ∧ s.dev.nunatak .host = true ∧
    (s.dev.pw .host).held = false ∧ e < 4 ∧ n < 8 ∧ m.args = [2, e, n] :=
  ⟨1, 3, ⟨0, 0, 0, 0, [2, 1, 3], List.replicate 32 4#8⟩, st up, ⟨_, rfl⟩, by decide +kernel⟩

theorem witness_ManagementPortsAnswer_19 : ∃ e n m x s, (∃ t, exec (.mctp .host m) s = .next t) ∧ s.dev.nunatak .host = true ∧
    (s.dev.pw .host).held = false ∧ e < 4 ∧ n < 8 ∧ m.args = [4, e, n] ∧ tget (s.dev.ep e).ide n = some x ∧ x.key ≠ [] :=
  ⟨1, 3, ⟨0, 0, 0, 0, [4, 1, 3], List.replicate 32 4#8⟩, ⟨false, [4]⟩,
    chg (st up) fun d => d.modEp 1 fun x => { x with ide := [(3, ⟨false, [4]⟩)] }, ⟨_, rfl⟩, by decide +kernel⟩

theorem witness_ManagementPortsAnswer_20 : ∃ e n m x s, (∃ t, exec (.mctp .host m) s = .next t) ∧ s.dev.nunatak .host = true ∧
    (s.dev.pw .host).held = false ∧ e < 4 ∧ n < 8 ∧ m.args = [5, e, n] ∧ tget (s.dev.ep e).ide n = some x :=
  ⟨1, 3, ⟨0, 0, 0, 0, [5, 1, 3], List.replicate 32 4#8⟩, ⟨true, [4]⟩,
    chg (st up) fun d => d.modEp 1 fun x => { x with ide := [(3, ⟨true, [4]⟩)] }, ⟨_, rfl⟩, by decide +kernel⟩

theorem witness_ManagementPortsAnswer_21 : ∃ h s, (∃ t, exec (.statusRead h) s = .next t) ∧ s.dev.nunatak h = false :=
  ⟨.host, chg (st up) fun d => d.modPw .host fun p => { p with vaon := false }, ⟨_, rfl⟩, by decide +kernel⟩

theorem witness_LateEventsTakeEffect_1 : ∃ h lane spare s, (∃ t, exec (.spareAligned h lane) s = .next t) ∧
    ((s.dev.schEnd h).rx.aligning.find? fun a => a.2 == lane) = some (spare, lane) :=
  ⟨.host, 9, 4, chg (st up) fun d => withLink (.sch .host) (lnk tx0 { rx0 with aligning := [(4, 9)] }) d, ⟨_, rfl⟩, by decide +kernel⟩

theorem witness_LateEventsTakeEffect_2 : ∃ s, (∃ t, exec .clockMarker s = .next t) ∧ s.dev.linkOpen .host :=
  ⟨st up, ⟨_, rfl⟩, by decide +kernel⟩

theorem witness_LateEventsTakeEffect_3 : ∃ e s, (∃ t, exec (.perstRelease e) s = .next t) ∧ e < 4 ∧ (s.dev.ep e).perst = true :=
  ⟨1, chg (st up) fun d => d.modEp 1 fun x => { x with perst := true, wake := true }, ⟨_, rfl⟩, by decide +kernel⟩

theorem witness_LateEventsTakeEffect_4 : ∃ lane s, (∃ t, exec (.snowbridgeLaneTrained lane) s = .next t) ∧ lane < 16 ∧
    (lane ∉ s.dev.snow.rx.lost ∨ lane ∈ s.dev.snow.rx.retraining) :=
  ⟨5, chg (st up) fun d => withLink .snow (lnk tx0 rx0) d, ⟨_, rfl⟩, by decide +kernel⟩

theorem witness_LateEventsTakeEffect_5 : ∃ i p m x s, (∀ e ∈ s.dev.drives.cmds, e.2.drive ≠ i) ∧
    (∃ t, exec (.controllerFatalStatus i) s = .next t) ∧ s.dev.boundTo i = some (p, m) ∧ s.dev.isHome p = true ∧
    s.dev.member p m = some x ∧ x.state ≠ 0 ∧ x.state ≠ 4 ∧ x.drive = some i ∧ s.dev.ctxs = [] :=
  ⟨0, 0, 0, mem 1, chg (st up) fun d => withMem 1 d, fun _ h => (nomatch h), ⟨_, rfl⟩, by decide +kernel⟩

theorem witness_StepRunsTheFrontCommand_1 : ∃ (c : _) (rest : _) (s : State), s.pending = c :: rest :=
  ⟨.nop 5 0, [], { st up with pending := [.nop 5 0] }, rfl⟩

theorem witness_StepRunsTheFrontCommand_2 : ∃ (s : State), s.pending = [] :=
  ⟨st up, rfl⟩

theorem witness_ResetLeavesTheStatedValues_5 : ∃ e b, e < 4 ∧ 4096 * e ≤ b ∧ b ≤ 4096 * e + 4095 :=
  ⟨3, 16383, by decide +kernel⟩

theorem witness_EveryStepKeepsTheInvariant_1 : ∃ s t, s.Legal ∧ step s = .next t :=
  ⟨State.reset, _, reset_legal, rfl⟩

theorem witness_NoStepUndoesAFuse_1 : ∃ s t, step s = .next t :=
  ⟨State.reset, _, rfl⟩

theorem witness_OnlyFirmwareCommandsWriteTheFlash_1 : ∃ c s t, exec c s = .next t ∧ writesFlash c = false :=
  ⟨.mbxStatus 0 0, st up, _, rfl, by decide +kernel⟩

theorem witness_OnlyFirmwareCommandsWriteTheFlash_2 : ∃ q tag s t, exec (.fwCommit q tag) s = .next t :=
  ⟨0, 0, st up, _, rfl⟩

theorem witness_OnlyFirmwareCommandsWriteTheFlash_3 : ∃ m s t, exec (.coord m) s = .next t :=
  ⟨⟨0, 0, 0, 0, [77], []⟩, st up, _, rfl⟩

theorem witness_OnlyFirmwareCommandsWriteTheFlash_4 : ∃ s t, exec .activationFallback s = .next t :=
  ⟨st up, _, rfl⟩

theorem witness_OnlyFirmwareCommandsWriteTheFlash_5 : ∃ h b off len data s t, exec (.flashAccess h b off len data) s = .next t :=
  ⟨.host, 0, 64, 3, some [1, 2, 3], st up, _, rfl⟩

theorem witness_OnlyFirmwareCommandsWriteTheFlash_6 : ∃ h target hs revoke s t, exec (.lifecycle h target hs revoke) s = .next t :=
  ⟨.host, 3, [], 0, st up, _, rfl⟩

theorem witness_AHostColdResetReturnsBlocksAndIndex_1 : ∃ c s,
    (c = .pwrgdHDeassert ∨ c = .coldRstPin .host ∨ c = .thermalTrip .host ∨ c = .alwaysOnRailLoss .host ∨ (∃ path, crpWriter path .host = true ∧ s.dev.crpAllowed = true ∧ c = .crpCold path .host)) ∧
    (∃ t, exec c s = .next t) ∧ (s.dev.pw .host).held = false :=
  ⟨.coldRstPin .host, st up, Or.inr (Or.inl rfl), ⟨_, rfl⟩, by decide +kernel⟩

theorem witness_SourceNumbersAndEpochs_1 : ∃ (h : Half) (block : _) (inst : _), block < 2 ^ 7 ∧ inst < 2 ^ 24 :=
  ⟨.media, 8, 5, by decide +kernel⟩

theorem witness_SourceNumbersAndEpochs_3 : ∃ s, (∃ t, exec (.coldRstPin .host) s = .next t) ∧ (s.dev.pw .host).held = false :=
  ⟨st up, ⟨_, rfl⟩, by decide +kernel⟩

theorem witness_SourceNumbersAndEpochs_4 : ∃ s, (∃ t, exec (.coldRstPin .media) s = .next t) ∧ (s.dev.pw .media).held = false ∧
    s.dev.firn.dumping = none ∧ s.dev.firn.recs = [] :=
  ⟨st up, ⟨_, rfl⟩, by decide +kernel⟩

theorem witness_SourceNumbersAndEpochs_5 : ∃ path h s, (∃ t, exec (.newEpoch path h) s = .next t) ∧ fltWriter h path = true :=
  ⟨.pf 0, .host, st up, ⟨_, rfl⟩, by decide +kernel⟩

theorem witness_ArbitersGrantInFramesOfEight_1 : ∃ arb waiting work s, Ready.requests arb waiting s.dev ∧
    ∃ t, exec (.arbiterGrant arb ⟨waiting, work⟩) s = .next t :=
  ⟨.moraine, [(1, 1023)], [], st up, ⟨by decide, by decide, fun _ h => (nomatch h)⟩, _, rfl⟩

theorem witness_ArbitersGrantInFramesOfEight_2 : ∃ arb waiting work s, Ready.requests arb waiting s.dev ∧ (∃ fn, (0, fn) ∈ waiting) ∧
    (∃ t, exec (.arbiterGrant arb ⟨waiting, work⟩) s = .next t) ∧ (s.dev.arb arb).pos = 0 :=
  ⟨.moraine, [(0, 3), (1, 2)], [], st up, ⟨by decide, by decide, fun _ h => (nomatch h)⟩, ⟨3, by decide⟩, ⟨_, rfl⟩, by decide +kernel⟩

theorem witness_ArbitersGrantInFramesOfEight_3 : ∃ arb waiting work s, Ready.requests arb waiting s.dev ∧
    ((s.dev.arb arb).pos = 0 → ∀ fn, (0, fn) ∉ waiting) ∧ (∃ t, exec (.arbiterGrant arb ⟨waiting, work⟩) s = .next t) ∧
    ((s.dev.arb arb).pos = 0 ∨ s.dev.idleGrants arb < (s.dev.arb arb).pos) :=
  ⟨.moraine, [(3, 1024)], [.scrub], st up, ⟨by decide, by decide, fun _ h => (nomatch h)⟩, (by intro _ fn h; simp at h), ⟨_, rfl⟩,
    by decide +kernel⟩

theorem witness_RingCommandsKeepOtherQueues_6 : ∃ (fn : _) (off : _) (size : Nat) (v : Nat) (q : _) (s : State),
    (s.dev.slotQueue fn off).1 ≠ some q :=
  ⟨0, 0, 4, 3, 77, st up, by decide +kernel⟩

theorem witness_RingCommandsKeepOtherQueues_7 : ∃ (q : Nat) (q' : Nat) (s : State), q' ≠ q :=
  ⟨5, 6, st up, by decide +kernel⟩

theorem witness_OnlyNamedCommandsChangeAUnit_1 : ∃ c s t, exec c s = .next t ∧ movesPlatform c = false :=
  ⟨.statusRead .host, st up, _, rfl, by decide +kernel⟩

theorem witness_OnlyNamedCommandsChangeAUnit_2 : ∃ c s t, exec c s = .next t ∧ movesUnits c = false :=
  ⟨.statusRead .host, st up, _, rfl, by decide +kernel⟩

theorem witness_OnlyNamedCommandsChangeAUnit_3 : ∃ c s t, exec c s = .next t ∧ keepsStores c = true :=
  ⟨.statusRead .host, st up, _, rfl, by decide +kernel⟩

theorem witness_OnlyNamedCommandsChangeAUnit_4 : ∃ c s t, exec c s = .next t ∧ keepsQueues c = true :=
  ⟨.statusRead .host, st up, _, rfl, by decide +kernel⟩

theorem witness_OnlyNamedCommandsChangeAUnit_5 : ∃ c s t, exec c s = .next t ∧ (∀ x, c ≠ .startup x) :=
  ⟨.statusRead .host, st up, _, rfl, (by intro x h; cases h)⟩

theorem witness_OnlyNamedCommandsChangeAUnit_6 : ∃ c s t, exec c s = .next t ∧ movesPlatform c = false ∧
    (∀ b, c ≠ .forwardedClockLost b) ∧ c ≠ .forwardedClockReturn ∧ c ≠ .clockMarker :=
  ⟨.statusRead .host, st up, _, rfl, rfl, (by intro x h; cases h), (by intro h; cases h), (by intro h; cases h)⟩


end Sys2Proof.Tests
end

section
/-! PROOFS. The state after reset: what each view of the state reads where its table has no entry, and the values of R10, R45 and R55. -/

namespace Sys2Proof.Machine

/-! ### A number without an entry reads the default of its view -/

@[simp] theorem tget_nil {α : Type} (n : Nat) : tget ([] : Tab α) n = none := rfl

/-- `regs` lists only the fields that left their reset value (R10). -/
theorem Dev.rd_eq_reset {d : Dev} {f : Field} (h : tget d.regs f.key = none) : d.rd f = f.reset := by
  simp [Dev.rd, h]

theorem Dev.holder_eq_pf {d : Dev} {b : Nat} (h : tget d.rings.owners b = none) : d.holder b = 256 * (b / 4096) := by
  simp [Dev.holder, h]

/-- The blocks of R55: those of endpoint e, while none of them was moved, are with its PF. -/
theorem Dev.holder_eq_pf_of_range {d : Dev} {e b : Nat} (h : tget d.rings.owners b = none) (lo : 4096 * e ≤ b)
    (hi : b ≤ 4096 * e + 4095) : d.holder b = 256 * e := by
  have endpoint : b / 4096 = e := by omega
  rw [Dev.holder_eq_pf h, endpoint]

theorem Dev.vfBlocks_eq_nil {d : Dev} {fn : Nat} (h : ∀ x ∈ d.rings.owners, x.2 ≠ fn) : d.vfBlocks fn = [] := by
  simpa [Dev.vfBlocks] using fun b x m => h (b, x) m

theorem Dev.slot_eq_empty {d : Dev} {i : Nat} (h : tget d.rime.slots i = none) : d.slot i = KeySlot.empty := by
  simp [Dev.slot, h]

theorem Dev.pw_eq_fresh {d : Dev} {h : Half} (n : tget d.power (halfNum h) = none) : d.pw h = HalfPower.fresh := by
  simp [Dev.pw, n]

/-! ### The tables of the reset state hold no entry -/

/-- Settles O48: no table has an entry at reset, so each view reads its default, which is the stated value. -/
theorem resetLeavesTheStatedValues : Obligations.ResetLeavesTheStatedValues := by
  unfold Obligations.ResetLeavesTheStatedValues
  refine ⟨?fields, rfl, rfl, rfl, ?blocks, ?vfs, ?queues, rfl, rfl, ?slots, ?held, rfl, ?flash⟩
  case fields => exact fun f => Dev.rd_eq_reset (tget_nil f.key)
  case blocks => exact fun e b _ lo hi => Dev.holder_eq_pf_of_range (tget_nil b) lo hi
  case vfs => exact fun fn => Dev.vfBlocks_eq_nil fun x m => absurd m List.not_mem_nil
  case queues => exact tget_nil
  case slots => exact fun i => congrArg KeySlot.type (Dev.slot_eq_empty (tget_nil i))
  case held => exact fun h => congrArg HalfPower.held (Dev.pw_eq_fresh (tget_nil (halfNum h)))
  case flash => exact fun a => flashByte_none fun c m => absurd m List.not_mem_nil

end Sys2Proof.Machine
end

section
/-! PROOFS. The arbiters (R43 to R46): one round of deficit round robin, the tenants of a class, and one grant. -/

namespace Sys2Proof.Machine

/-! ### One round of deficit round robin (R44) -/

/-- A greatest value among the elements that pass a test, from a start value on: a bound of them all, and one that is met. -/
theorem foldl_max_spec {α : Type} (p : α → Bool) (f : α → Nat) (l : List α) (m : Nat) :
    let best := l.foldl (fun m x => if p x then max m (f x) else m) m
    m ≤ best ∧ (∀ x ∈ l, p x = true → f x ≤ best) ∧ (best = m ∨ ∃ x ∈ l, p x = true ∧ f x = best) := by
  induction l generalizing m with
  | nil => simp
  | cons a t ih =>
    obtain ⟨le, bound, met⟩ := ih (if p a then max m (f a) else m)
    by_cases pa : p a = true
    · simp only [pa, if_true] at le bound met
      simp only [List.foldl_cons, pa, if_true]
      refine ⟨by omega, fun x hx px => ?_, ?_⟩
      · rcases List.mem_cons.mp hx with rfl | hx
        · omega
        · exact bound x hx px
      · rcases met with met | ⟨x, hx, px, e⟩
        · by_cases le' : f a ≤ m
          · left; omega
          · right; exact ⟨a, List.mem_cons_self, pa, by omega⟩
        · right; exact ⟨x, List.mem_cons_of_mem _ hx, px, e⟩
    · simp only [pa] at le bound met
      simp only [List.foldl_cons, pa]
      refine ⟨le, fun x hx px => ?_, ?_⟩
      · rcases List.mem_cons.mp hx with rfl | hx
        · exact absurd px pa
        · exact bound x hx px
      · rcases met with met | ⟨x, hx, px, e⟩
        · exact .inl met
        · exact .inr ⟨x, List.mem_cons_of_mem _ hx, px, e⟩

/-- Where some element passes the test, the greatest value from 0 on is that of one of them. -/
theorem foldl_max_met {α : Type} {p : α → Bool} {f : α → Nat} {l : List α} (h : ∃ x ∈ l, p x = true) :
    ∃ x ∈ l, p x = true ∧ f x = l.foldl (fun m x => if p x then max m (f x) else m) 0 := by
  obtain ⟨-, bound, met⟩ := foldl_max_spec p f l 0
  rcases met with zero | met
  · obtain ⟨x, hx, px⟩ := h
    exact ⟨x, hx, px, by have := bound x hx px; omega⟩
  · exact met

/-- No candidate that waits holds 1 or more, so each adds its weight (step 3 of R44). -/
def allShort (ts : List Nat) (waits : Nat → Bool) (before : Nat → Nat) : Bool := ts.all fun n => !waits n || before n == 0

/-- What a candidate holds after steps 2 to 4 of R44. -/
def refilled (ts : List Nat) (waits : Nat → Bool) (weight before : Nat → Nat) (n : Nat) : Nat :=
  if n ∈ ts ∧ waits n = true then if allShort ts waits before then weight n else before n else 0

/-- What a candidate holds after candidate `c` was served. -/
def served (r : Nat → Nat) (c n : Nat) : Nat := if n = c then r c - 1 else r n

/-- The candidates of a round as `drr` takes them. -/
def candidates (ts : List Nat) (waits : Nat → Bool) (weight before : Nat → Nat) : List (Nat × Option Nat) :=
  ts.map fun n => (before n, if waits n then some (weight n) else none)

/-- The candidates after steps 2 to 4 of R44. -/
def refilledCandidates (ts : List Nat) (waits : Nat → Bool) (weight before : Nat → Nat) : List (Nat × Option Nat) :=
  ts.map fun n => (refilled ts waits weight before n, if waits n then some (weight n) else none)

/-- The rest of a round: the first of the waiting candidates with the most is served. -/
def serveLargest (c : List (Nat × Option Nat)) : Option Nat × List Nat :=
  let best := c.foldl (fun m x => if x.2.isSome then max m x.1 else m) 0
  let i := c.findIdx fun x => x.2.isSome && x.1 == best
  if i < c.length then (some i, setAt (c.map (·.1)) i (best - 1)) else (none, c.map (·.1))

/-- Step 2 of R44: a candidate of which no request waits holds nothing. -/
def dropIdle (c : List (Nat × Option Nat)) : List (Nat × Option Nat) :=
  c.map fun x => match x.2 with
    | none => (0, none)
    | some w => (x.1, some w)

/-- Step 3 of R44: every waiting candidate adds its weight where none holds 1 or more. -/
def addWeights (c : List (Nat × Option Nat)) : List (Nat × Option Nat) :=
  if c.all fun x => x.2.isNone || x.1 == 0 then c.map fun x => (x.1 + x.2.getD 0, x.2) else c

theorem drr_eq (c : List (Nat × Option Nat)) : drr c = serveLargest (addWeights (dropIdle c)) := rfl

theorem dropIdle_candidates (ts : List Nat) (waits : Nat → Bool) (weight before : Nat → Nat) :
    dropIdle (candidates ts waits weight before) = ts.map fun n => if waits n then (before n, some (weight n)) else (0, none) := by
  simp only [dropIdle, candidates, List.map_map]
  refine List.map_congr_left fun n _ => ?_
  cases h : waits n <;> simp [h]

theorem addWeights_dropIdle (ts : List Nat) (waits : Nat → Bool) (weight before : Nat → Nat) :
    addWeights (dropIdle (candidates ts waits weight before)) = refilledCandidates ts waits weight before := by
  have short : ((ts.map fun n => if waits n then (before n, some (weight n)) else (0, none)).all
      fun x => x.2.isNone || x.1 == 0) = allShort ts waits before := by
    simp only [allShort, List.all_map]
    congr 1
    funext n
    cases h : waits n <;> simp [h]
  rw [dropIdle_candidates, addWeights, short, refilledCandidates]
  cases all : allShort ts waits before
  · refine List.map_congr_left fun n hn => ?_
    cases h : waits n <;> simp [refilled, h, all, hn]
  · simp only [if_true, List.map_map]
    refine List.map_congr_left fun n hn => ?_
    cases h : waits n
    · simp [refilled, h]
    · have zero : before n = 0 := by simpa [h] using List.all_eq_true.mp all n hn
      simp [refilled, h, all, hn, zero]

theorem setAt_map_served {ts : List Nat} (sorted : ts.Pairwise (· < ·)) (r : Nat → Nat) {i : Nat} (h : i < ts.length) :
    setAt (ts.map r) i (r ts[i] - 1) = ts.map (served r ts[i]) := by
  induction ts generalizing i with
  | nil => exact absurd h (Nat.not_lt_zero _)
  | cons a t ih =>
    obtain ⟨above, sorted⟩ := List.pairwise_cons.mp sorted
    cases i with
    | zero =>
      simp only [List.map_cons, setAt, List.getElem_cons_zero, served, if_true]
      exact congrArg _ (List.map_congr_left fun n hn => by simp [served, Nat.ne_of_gt (above n hn)])
    | succ i =>
      have hi : i < t.length := by simpa using h
      have ne : a ≠ t[i] := Nat.ne_of_lt (above _ (List.getElem_mem hi))
      simp [setAt, ih sorted hi, served, ne]

/-- A round over candidates in rising order of which one waits serves a waiting one by the rule of R44; the others keep what steps 2 to 4
left them. -/
theorem drr_serves {ts : List Nat} (sorted : ts.Pairwise (· < ·)) {waits : Nat → Bool} (weight before : Nat → Nat)
    {Waits : Nat → Prop} (waits_iff : ∀ n, Waits n ↔ n ∈ ts ∧ waits n = true) (some_waits : ∃ n, Waits n) :
    ∃ i c, ts[i]? = some c ∧
      drr (candidates ts waits weight before) = (some i, ts.map (served (refilled ts waits weight before) c)) ∧
      SharedRule Waits weight before (served (refilled ts waits weight before) c) c := by
  let r := refilled ts waits weight before
  let cs := refilledCandidates ts waits weight before
  let best := cs.foldl (fun m x => if x.2.isSome then max m x.1 else m) 0
  let i := cs.findIdx fun x => x.2.isSome && x.1 == best
  have hcs : cs = ts.map fun n => (r n, if waits n then some (weight n) else none) := rfl
  have bound : ∀ n, Waits n → r n ≤ best := by
    intro n hn
    obtain ⟨mem, wn⟩ := (waits_iff n).mp hn
    exact (foldl_max_spec (fun x : Nat × Option Nat => x.2.isSome) (·.1) cs 0).2.1 (r n, some (weight n))
      (hcs ▸ List.mem_map.mpr ⟨n, mem, by simp [wn]⟩) rfl
  have found : i < cs.length := by
    obtain ⟨n, hn⟩ := some_waits
    obtain ⟨mem, wn⟩ := (waits_iff n).mp hn
    obtain ⟨x, hx, px, e⟩ := foldl_max_met (p := fun x : Nat × Option Nat => x.2.isSome) (f := (·.1)) (l := cs)
      ⟨(r n, some (weight n)), hcs ▸ List.mem_map.mpr ⟨n, mem, by simp [wn]⟩, rfl⟩
    exact List.findIdx_lt_length_of_exists ⟨x, hx, by simpa [px] using e⟩
  have hi : i < ts.length := by simpa [hcs] using found
  have at_ : ∀ (j : Nat) (hj : j < cs.length) (hj' : j < ts.length),
      cs[j] = (r ts[j], if waits ts[j] then some (weight ts[j]) else none) := fun j hj hj' => by simp [hcs]
  have passes : (cs[i].2.isSome && cs[i].1 == best) = true := List.findIdx_getElem (w := found)
  rw [at_ i found hi] at passes
  have wc : waits ts[i] = true := by
    by_contra no
    simp [no] at passes
  have topr : r ts[i] = best := by simpa [wc] using passes
  have wait : Waits ts[i] := (waits_iff _).mpr ⟨List.getElem_mem hi, wc⟩
  have first : ∀ n, Waits n → r n = best → ts[i] ≤ n := by
    intro n hn e
    obtain ⟨mem, wn⟩ := (waits_iff n).mp hn
    obtain ⟨j, hj, rfl⟩ := List.mem_iff_getElem.mp mem
    by_contra lt
    have ji : j < i := by
      by_contra ge
      rcases Nat.lt_or_eq_of_le (Nat.le_of_not_lt ge) with ij | rfl
      · exact lt (Nat.le_of_lt (List.pairwise_iff_getElem.mp sorted _ _ hi hj ij))
      · exact lt (Nat.le_refl _)
    have no : (cs[j].2.isSome && cs[j].1 == best) = false := List.not_of_lt_findIdx ji
    rw [at_ j (ji.trans found) hj] at no
    simp [wn, e] at no
  refine ⟨i, ts[i], List.getElem?_eq_getElem hi, ?_, r, ?_, ?_, ?_, wait, ?_, ?_, ?_⟩
  · rw [drr_eq, addWeights_dropIdle]
    show (if i < cs.length then (some i, setAt (cs.map (·.1)) i (best - 1)) else (none, cs.map (·.1))) = _
    have fsts : cs.map (·.1) = ts.map r := by simp [hcs]
    rw [if_pos found, fsts, ← topr, setAt_map_served sorted r hi]
  · intro n hn
    exact if_neg fun h => hn ((waits_iff n).mpr h)
  · rintro ⟨n, hn, one⟩ m hm
    have long : allShort ts waits before = false := by
      obtain ⟨mem, wn⟩ := (waits_iff n).mp hn
      rw [← Bool.not_eq_true]
      intro all
      have : before n = 0 := by simpa [wn] using List.all_eq_true.mp all n mem
      omega
    simp [r, refilled, (waits_iff m).mp hm, long]
  · intro zero m hm
    have short : allShort ts waits before = true := List.all_eq_true.mpr fun n mem => by
      cases wn : waits n
      · rfl
      · simp [zero n ((waits_iff n).mpr ⟨mem, wn⟩)]
    simp [r, refilled, (waits_iff m).mp hm, short]
  · intro n hn
    rcases Nat.lt_or_eq_of_le (bound n hn) with lt | e
    · exact .inl (topr ▸ lt)
    · exact .inr ⟨e.trans topr.symm, first n hn e⟩
  · simp [served, r]
  · intro n ne
    simp [served, ne, r]

/-! ### The tenants of a class (R46) -/

/-- A table whose numbers rise, as `tput` keeps them. -/
def Rising {α : Type} (t : Tab α) : Prop := (t.map (·.1)).Pairwise (· < ·)

theorem mem_keys_tput {α : Type} (t : Tab α) (n m : Nat) (v : α) :
    m ∈ (tput t n v).map (·.1) ↔ m = n ∨ m ∈ t.map (·.1) := by
  induction t with
  | nil => simp [tput]
  | cons e t ih =>
    obtain ⟨k, w⟩ := e
    by_cases lt : n < k
    · simp [tput, lt]
    · by_cases eq : n = k
      · simp [tput, eq]
      · simp only [tput, lt, eq, if_false, List.map_cons, List.mem_cons, ih]
        tauto

theorem rising_tput {α : Type} {t : Tab α} (h : Rising t) (n : Nat) (v : α) : Rising (tput t n v) := by
  induction t with
  | nil => simp [Rising, tput]
  | cons e t ih =>
    obtain ⟨k, w⟩ := e
    obtain ⟨above, rest⟩ := List.pairwise_cons.mp h
    by_cases lt : n < k
    · simp only [Rising, tput, lt, if_true, List.map_cons]
      exact List.pairwise_cons.mpr ⟨fun m hm => by
        rcases List.mem_cons.mp hm with rfl | hm
        · exact lt
        · exact Nat.lt_trans lt (above m hm), h⟩
    · by_cases eq : n = k
      · subst eq
        simpa [Rising, tput] using h
      · simp only [Rising, tput, lt, eq, if_false, List.map_cons]
        exact List.pairwise_cons.mpr ⟨fun m hm => by
          rcases (mem_keys_tput t n m v).mp hm with rfl | hm
          · omega
          · exact above m hm, ih rest⟩

theorem foldl_tput_keys (l : List (Nat × Nat)) (t : Tab Unit) (h : Rising t) :
    Rising (l.foldl (fun t w => tput t w.2 ()) t) ∧
      ∀ m, m ∈ (l.foldl (fun t w => tput t w.2 ()) t).map (·.1) ↔ (∃ w ∈ l, w.2 = m) ∨ m ∈ t.map (·.1) := by
  induction l generalizing t with
  | nil => exact ⟨h, by simp⟩
  | cons a l ih =>
    obtain ⟨rising, keys⟩ := ih (tput t a.2 ()) (rising_tput h a.2 ())
    refine ⟨rising, fun m => (keys m).trans ?_⟩
    rw [mem_keys_tput]
    simp only [List.exists_mem_cons_iff, eq_comm (a := m), or_assoc]
    exact or_left_comm

theorem tenantsOf_sorted (waiting : List (Nat × Nat)) (c : Nat) : (tenantsOf waiting c).Pairwise (· < ·) :=
  (foldl_tput_keys (waiting.filter fun w => w.1 == c) [] List.Pairwise.nil).1

theorem mem_tenantsOf {waiting : List (Nat × Nat)} {c n : Nat} : n ∈ tenantsOf waiting c ↔ (c, n) ∈ waiting := by
  refine ((foldl_tput_keys (waiting.filter fun w => w.1 == c) [] List.Pairwise.nil).2 n).trans ⟨?_, fun h => ?_⟩
  · rintro (⟨w, hw, rfl⟩ | no)
    · obtain ⟨mem, e⟩ := List.mem_filter.mp hw
      exact (beq_iff_eq.mp e) ▸ mem
    · exact absurd no List.not_mem_nil
  · exact .inl ⟨(c, n), List.mem_filter.mpr ⟨h, beq_self_eq_true c⟩, rfl⟩

/-! ### The deficits of the tenants -/

theorem tget_filter_key {α : Type} (t : Tab α) (p : Nat → Bool) (n : Nat) :
    tget (t.filter fun e => p e.1) n = if p n then tget t n else none := by
  induction t with
  | nil => simp [tget]
  | cons e t ih =>
    obtain ⟨k, w⟩ := e
    by_cases nk : n = k
    · subst nk
      cases h : p n <;> simp [tget, h, ih]
    · cases h : p k <;> simp [tget, h, ih, nk]

/-- A table in which the tenants of a list were given values, each under its own number. -/
theorem tget_foldl_tput (ts : List Nat) (k g : Nat → Nat) (inj : ∀ a b, k a = k b → a = b) (t : Tab Nat) (m : Nat) :
    (∀ n ∈ ts, m = k n → tget (ts.foldl (fun tab n => tput tab (k n) (g n)) t) m = some (g n)) ∧
      ((∀ n ∈ ts, m ≠ k n) → tget (ts.foldl (fun tab n => tput tab (k n) (g n)) t) m = tget t m) := by
  induction ts generalizing t with
  | nil => simp
  | cons a ts ih =>
    obtain ⟨given, kept⟩ := ih (tput t (k a) (g a))
    refine ⟨fun n hn e => ?_, fun no => ?_⟩
    · by_cases later : ∃ b ∈ ts, m = k b
      · obtain ⟨b, hb, eb⟩ := later
        obtain rfl : n = b := inj n b (e.symm.trans eb)
        exact given n hb eb
      · rcases List.mem_cons.mp hn with rfl | hn
        · exact (kept fun b hb eb => later ⟨b, hb, eb⟩).trans (e ▸ tget_tput_same t (k n) (g n))
        · exact absurd ⟨n, hn, e⟩ later
    · exact (kept fun b hb => no b (List.mem_cons_of_mem _ hb)).trans (tget_tput_ne t _ (no a List.mem_cons_self))

/-- The table of deficits after a grant served class `c`: its tenants hold `g`, and no entry of another class changed. -/
def tenantsAfter (ten : Tab Nat) (c : Nat) (ts : List Nat) (g : Nat → Nat) : Tab Nat :=
  ts.foldl (fun tab n => tput tab (c * 2048 + n) (g n)) (ten.filter fun e => e.1 / 2048 != c)

theorem tget_tenantsAfter {ten : Tab Nat} {c : Nat} {ts : List Nat} {g : Nat → Nat} {c' n : Nat} (small : ∀ m ∈ ts, m < 2048)
    (hn : n < 2048) : tget (tenantsAfter ten c ts g) (c' * 2048 + n) =
      if c' = c then if n ∈ ts then some (g n) else none else tget ten (c' * 2048 + n) := by
  obtain ⟨given, kept⟩ := tget_foldl_tput ts (fun n => c * 2048 + n) g (fun a b h => by simpa using h)
    (ten.filter fun e => e.1 / 2048 != c) (c' * 2048 + n)
  have cls : (c' * 2048 + n) / 2048 = c' := by omega
  have other : tget (ten.filter fun e => e.1 / 2048 != c) (c' * 2048 + n) = if c' = c then none else tget ten (c' * 2048 + n) := by
    rw [tget_filter_key ten (fun k => k / 2048 != c), cls]
    by_cases h : c' = c <;> simp [h]
  by_cases same : c' = c
  · subst same
    by_cases mem : n ∈ ts
    · rw [if_pos rfl, if_pos mem]; exact given n mem rfl
    · rw [if_pos rfl, if_neg mem]
      exact (kept fun m hm e => mem (by rwa [show n = m by omega])).trans (other.trans (if_pos rfl))
  · rw [if_neg same]
    exact (kept fun m hm e => same (by have := small m hm; omega)).trans (other.trans (if_neg same))

/-- The round over the tenants of a class of which one waits: a tenant is served by the rule of R44. -/
theorem drrTenant_serves {d : Dev} {a : Arb} {waiting : List (Nat × Nat)} {c : Nat} (h : ∃ fn, (c, fn) ∈ waiting) :
    ∃ fn g, drrTenant d a waiting c = some (fn, tenantsAfter a.ten c (tenantsOf waiting c) g) ∧
      (∀ n, (c, n) ∉ waiting → g n = 0) ∧
      SharedRule (fun n => (c, n) ∈ waiting) d.tenantWeight (fun n => (tget a.ten (c * 2048 + n)).getD 0) g fn := by
  obtain ⟨i, fn, hi, hdrr, rule⟩ := drr_serves (tenantsOf_sorted waiting c) (waits := fun _ => true) d.tenantWeight
    (fun n => (tget a.ten (c * 2048 + n)).getD 0) (Waits := fun n => (c, n) ∈ waiting) (fun n => by simp [mem_tenantsOf]) h
  refine ⟨fn, _, ?_, fun n hn => ?_, rule⟩
  · simp only [candidates, if_true] at hdrr
    simp only [drrTenant, hdrr, List.zip_map_right, tenantsAfter, List.getD_eq_getElem?_getD, hi, Option.getD_some]
    congr 2
    rw [List.foldl_map, List.zip_eq_zipWith, List.zipWith_self, List.foldl_map]
    rfl
  · obtain ⟨r, none_waits, -, -, wait, -, -, others⟩ := rule
    have ne : n ≠ fn := fun e => hn (e ▸ wait)
    rw [others n ne, none_waits n hn]

/-! ### One grant (R43 to R46, R738) -/

theorem Dev.arb_put (d : Dev) (a : ArbId) (x : Arb) : ({ d with arbs := tput d.arbs (arbNum a) x } : Dev).arb a = x := by
  simp [Dev.arb]

/-- The frame of grants moves on at every grant, and an arbiter gives none only where nothing waits. -/
theorem grant_pos {a : ArbId} {waiting : List (Nat × Nat)} (work : List WorkD) (d : Dev) (h : waiting ≠ []) :
    ((grant a waiting work d).2.arb a).pos = ((d.arb a).pos + 1) % 8 := by
  have isEmpty : waiting.isEmpty = false := by simpa using h
  unfold grant
  simp only [isEmpty, Bool.false_eq_true, if_false]
  repeat' split
  all_goals rw [Dev.arb_put]

/-- The tenant of a reserved grant is one of class A that waits (R43). -/
theorem reservedTenant_waits {a : Arb} {waiting : List (Nat × Nat)} (h : ∃ fn, (0, fn) ∈ waiting) :
    ∃ fn, (0, fn) ∈ waiting ∧ reservedTenant a waiting = some fn := by
  obtain ⟨fn, hfn⟩ := h
  obtain ⟨t, mem, -, best⟩ := foldl_max_met (p := fun _ => true) (f := fun t => (tget a.ten t).getD 0)
    ⟨fn, mem_tenantsOf.mpr hfn, rfl⟩
  simp only [if_true] at best
  obtain ⟨c, hc⟩ : ∃ c, reservedTenant a waiting = some c :=
    Option.isSome_iff_exists.mp (List.find?_isSome.mpr ⟨t, mem, beq_iff_eq.mpr best⟩)
  exact ⟨c, mem_tenantsOf.mp (List.mem_of_find?_eq_some hc), hc⟩

/-- Grant 0 goes to class A where a request of class A waits, and changes no deficit (R43, R44). -/
theorem grant_reserved {a : ArbId} {waiting : List (Nat × Nat)} (work : List WorkD) (d : Dev) (first : (d.arb a).pos = 0)
    (h : ∃ fn, (0, fn) ∈ waiting) :
    (∃ fn, (0, fn) ∈ waiting ∧ ((grant a waiting work d).2.arb a).last = some (0, fn)) ∧
      ((grant a waiting work d).2.arb a).cls = (d.arb a).cls ∧ ((grant a waiting work d).2.arb a).ten = (d.arb a).ten := by
  obtain ⟨t, mem, ht⟩ := reservedTenant_waits (a := d.arb a) h
  have isEmpty : waiting.isEmpty = false := by simpa using List.ne_nil_of_mem mem
  have hasA : waiting.any (fun w => w.1 == 0) = true := List.any_eq_true.mpr ⟨(0, t), mem, rfl⟩
  unfold grant
  simp only [isEmpty, first, hasA, ht, Bool.false_eq_true, if_false, and_self, if_true, Dev.arb_put, and_true]
  exact ⟨t, mem, rfl⟩

/-- Every other grant that throttling does not leave idle serves a class and a tenant of it, by the rule of R44 over each. -/
theorem grant_serves {a : ArbId} {waiting : List (Nat × Nat)} (work : List WorkD) {d : Dev} (ne : waiting ≠ [])
    (small : ∀ w ∈ waiting, w.1 < 4) (notReserved : (d.arb a).pos = 0 → ∀ fn, (0, fn) ∉ waiting)
    (busy : (d.arb a).pos = 0 ∨ d.idleGrants a < (d.arb a).pos) :
    ∃ c fn cls ten, (grant a waiting work d).2.arb a = ⟨((d.arb a).pos + 1) % 8, (List.range 4).map cls, ten, some (c, fn)⟩ ∧
      SharedRule (fun n => ∃ fn, (n, fn) ∈ waiting) (d.classWeight work) (fun n => (d.arb a).cls.getD n 0) cls c ∧
      drrTenant d (d.arb a) waiting c = some (fn, ten) := by
  have anyClass : ∀ c, waiting.any (fun x => x.1 == c) = true ↔ ∃ fn, (c, fn) ∈ waiting := fun c => by simp
  have notFirst : ¬ ((d.arb a).pos = 0 ∧ waiting.any (fun w => w.1 == 0) = true) := fun ⟨first, hasA⟩ => by
    obtain ⟨fn, mem⟩ := (anyClass 0).mp hasA
    exact notReserved first fn mem
  have notIdle : ¬ (1 ≤ (d.arb a).pos ∧ (d.arb a).pos ≤ d.idleGrants a) := by omega
  obtain ⟨i, c, hi, hdrr, rule⟩ := drr_serves (ts := List.range 4) List.pairwise_lt_range
    (waits := fun c => waiting.any (fun x => x.1 == c)) (d.classWeight work) (fun n => (d.arb a).cls.getD n 0)
    (Waits := fun n => ∃ fn, (n, fn) ∈ waiting)
    (fun n => ⟨fun h => ⟨List.mem_range.mpr (small _ h.choose_spec), (anyClass n).mpr h⟩, fun h => (anyClass n).mp h.2⟩)
    (by obtain ⟨w, hw⟩ := List.exists_mem_of_ne_nil _ ne; exact ⟨w.1, w.2, hw⟩)
  obtain rfl : i = c := by
    obtain ⟨hlt, e⟩ := List.getElem?_eq_some_iff.mp hi
    simpa using e
  have waits : ∃ fn, (i, fn) ∈ waiting := rule.choose_spec.2.2.2.1
  obtain ⟨fn, g, hten, -, -⟩ := drrTenant_serves (d := d) (a := d.arb a) waits
  refine ⟨i, fn, _, _, ?_, rule, hten⟩
  have isEmpty : waiting.isEmpty = false := by simpa using ne
  change drr ((List.range 4).map fun c => ((d.arb a).cls.getD c 0,
    if waiting.any (fun x => x.1 == c) then some (d.classWeight work c) else none)) = _ at hdrr
  simp only [Dev.classWeight] at hdrr
  unfold grant
  simp only [isEmpty, Bool.false_eq_true, if_false, if_neg notFirst, if_neg notIdle, hdrr, hten, Dev.arb_put]

/-! ### The command -/

/-- The held results that wait beside the requests at an arbiter (R582). -/
def heldAt (d : Dev) : ArbId → List (Nat × Nat)
  | .epWrite e => d.deliveries e
  | _ => []

theorem heldAt_eq_nil {d : Dev} {a : ArbId} (h : ∀ e, a = .epWrite e → d.deliveries e = []) : heldAt d a = [] := by
  cases a with
  | epWrite e => exact h e rfl
  | _ => rfl

theorem execArbiterGrant_eq (a : ArbId) (waiting : Requests) (s : State) : execArbiterGrant a waiting s = s.ok
    (match grant a (waiting.list.filter (fun w => decide (w.1 < 4)) ++ heldAt s.dev a) waiting.work s.dev with
    | (some r, d) => d.when (!(heldAt s.dev a).isEmpty) (deliverGrant r)
    | (none, d) => d) := rfl

/-- Where no held result waits beside the requests, the command is one grant over them. -/
theorem exec_arbiterGrant {a : ArbId} {waiting : List (Nat × Nat)} (work : List WorkD) {s : State}
    (ready : Ready.requests a waiting s.dev) :
    exec (.arbiterGrant a ⟨waiting, work⟩) s = .next { s with dev := (grant a waiting work s.dev).2 } := by
  obtain ⟨-, small, noHeld⟩ := ready
  have all : waiting.filter (fun w => decide (w.1 < 4)) = waiting :=
    List.filter_eq_self.mpr fun w hw => decide_eq_true (small w hw).1
  refine (execArbiterGrant_eq a ⟨waiting, work⟩ s).trans ?_
  simp only [all, heldAt_eq_nil noHeld, List.append_nil]
  rcases grant a waiting work s.dev with ⟨_ | r, d⟩ <;> rfl

/-- The deficit of a tenant as the statement reads it is what the table holds under the class and the function. -/
theorem tenantDeficit_eq {d : Dev} {arb : ArbId} {c fn : Nat} (h : fn < 2048) :
    d.tenantDeficit arb c fn = (tget (d.arb arb).ten (c * 2048 + fn)).getD 0 := if_pos h

/-- The rule of R44 speaks of a candidate's deficits before and after only where it may be one, and there they may be replaced by equal ones. -/
theorem SharedRule.congr {waits : Nat → Prop} {weight before before' after after' : Nat → Nat} {c : Nat}
    (hb : ∀ n, waits n → before' n = before n) (ha : ∀ n, after' n = after n) (h : SharedRule waits weight before after c) :
    SharedRule waits weight before' after' c := by
  obtain ⟨r, idle, kept, added, wait, top, one, others⟩ := h
  refine ⟨r, idle, ?_, fun zero => added fun n hn => (hb n hn) ▸ zero n hn, wait, top, (ha c).trans one, fun n ne => (ha n).trans (others n ne)⟩
  rintro ⟨n, hn, le⟩ m hm
  exact (kept ⟨n, hn, (hb n hn) ▸ le⟩ m hm).trans (hb m hm).symm

/-- Settles O56: a grant moves the frame on, grant 0 goes to class A by `grant_reserved`, and every other one is a round over the classes and
one over the tenants of the class served. -/
theorem arbitersGrantInFramesOfEight : Obligations.ArbitersGrantInFramesOfEight := by
  unfold Obligations.ArbitersGrantInFramesOfEight
  refine ⟨fun arb waiting work s ready => ⟨_, exec_arbiterGrant work ready, ?pos⟩,
    fun arb waiting work s ready first hasA => ⟨_, exec_arbiterGrant work ready, ?reserved⟩,
    fun arb waiting work s ready notReserved busy => ⟨_, exec_arbiterGrant work ready, ?shared⟩⟩
  case pos => exact grant_pos work s.dev ready.1
  case reserved => exact grant_reserved work s.dev first hasA
  case shared =>
    obtain ⟨ne, small, -⟩ := ready
    obtain ⟨c, fn, cls, ten, after, classes, hten⟩ := grant_serves work ne (fun w hw => (small w hw).1) notReserved busy
    have waits : ∃ fn, (c, fn) ∈ waiting := classes.choose_spec.2.2.2.1
    obtain ⟨fn', g, hten', idle, tenants⟩ := drrTenant_serves (d := s.dev) (a := s.dev.arb arb) waits
    obtain ⟨rfl, rfl⟩ : fn = fn' ∧ ten = _ := by simpa using hten.symm.trans hten'
    have smallFn : ∀ n, (c, n) ∈ waiting → n < 2048 := fun n hn => (small _ hn).2
    have smallTenants : ∀ n ∈ tenantsOf waiting c, n < 2048 := fun n hn => smallFn n (mem_tenantsOf.mp hn)
    refine ⟨c, fn, by rw [after], classes.congr (fun _ _ => rfl) fun n => ?_, tenants.congr (fun n hn => ?_) fun n => ?_, fun c' n ne => ?_⟩
    · by_cases hn : n < 4
      · simp [after, hn]
      · obtain ⟨r, idle, -, -, wait, -, -, others⟩ := classes
        have off : ¬ ∃ fn, (n, fn) ∈ waiting := fun ⟨fn, h⟩ => hn (small _ h).1
        have nc : n ≠ c := fun e => off (e ▸ wait)
        simp [after, hn, others n nc, idle n off]
    · exact tenantDeficit_eq (smallFn n hn)
    · by_cases hn : n < 2048
      · rw [tenantDeficit_eq hn, after, tget_tenantsAfter smallTenants hn, if_pos rfl]
        by_cases mem : n ∈ tenantsOf waiting c
        · simp [mem]
        · simp [mem, idle n fun h => mem (mem_tenantsOf.mpr h)]
      · rw [Dev.tenantDeficit, if_neg hn, idle n fun h => hn (smallFn n h)]
    · by_cases hn : n < 2048
      · rw [tenantDeficit_eq hn, tenantDeficit_eq hn, after, tget_tenantsAfter smallTenants hn, if_neg ne]
      · rw [Dev.tenantDeficit, Dev.tenantDeficit, if_neg hn, if_neg hn]

end Sys2Proof.Machine
end

section
/-! PROOFS. The parts of the device in which the frame of every command is stated, and the updates that keep a part. -/

namespace Sys2Proof.Machine

/-- The parts of the device in which the frame of the commands is stated. -/
inductive Part where
  | clocks
  | straps
  | platform
  | units
  | stores
  | host

/-- The device with one part as it is and everything else as at reset: two devices agree in a part when these are equal. -/
def Dev.part (P : Part) (d : Dev) : Dev :=
  match P with
  | .clocks => { Dev.reset with clocks := d.clocks }
  | .straps => { Dev.reset with straps := d.straps, serial := d.serial }
  | .platform =>
    { Dev.reset with tbHost := d.tbHost, tbMedia := d.tbMedia, power := d.power, image := d.image, thermal := d.thermal }
  | .units => { Dev.reset with gauge := d.gauge, floe := d.floe }
  | .stores =>
    { Dev.reset with
      firn := d.firn, ctxs := d.ctxs, xmap := d.xmap, destages := d.destages, reads := d.reads, pools := d.pools
      maint := d.maint, nss := d.nss, twin := d.twin, drives := d.drives }
  | .host =>
    { Dev.reset with
      rings := d.rings, streams := d.streams, ingest := d.ingest, rime := d.rime, staging := d.staging, mbx := d.mbx }

section
variable {P : Part} {d : Dev}

/-! ### Through the ways in which the model composes updates -/

@[simp] theorem Dev.part_ite {c : Prop} [Decidable c] {a b : Dev} :
    (if c then a else b).part P = if c then a.part P else b.part P := by
  split <;> rfl

@[simp] theorem Dev.part_when {c : Bool} {f : Dev → Dev} : (d.when c f).part P = if c then (f d).part P else d.part P := by
  unfold Dev.when
  split <;> rfl

@[simp] theorem part_foldl {α : Type} {f : Dev → α → Dev} {l : List α} (h : ∀ d a, (f d a).part P = d.part P) :
    (l.foldl f d).part P = d.part P := by
  induction l generalizing d with
  | nil => rfl
  | cons a t ih => simp [ih, h]

@[simp] theorem Dev.part_each {α : Type} {f : Dev → α → Dev} {l : List α} (h : ∀ d a, (f d a).part P = d.part P) :
    (d.each l f).part P = d.part P := part_foldl h

theorem part_foldl_snd_snd {α β γ : Type} {f : α × β × Dev → γ → α × β × Dev} {l : List γ} {x : α × β × Dev}
    (h : ∀ x a, (f x a).2.2.part P = x.2.2.part P) : (l.foldl f x).2.2.part P = x.2.2.part P := by
  induction l generalizing x with
  | nil => rfl
  | cons a t ih => rw [List.foldl_cons, ih, h]

/-! The device of a result that a `match` has named. -/

theorem part_snd_eq {α : Type} {x : α × Dev} {a : α} {e : Dev} (h : x = (a, e)) : e.part P = x.2.part P := by rw [h]

theorem part_fst_eq {α : Type} {x : Dev × α} {a : α} {e : Dev} (h : x = (e, a)) : e.part P = x.1.part P := by rw [h]

theorem part_snd_snd_eq {α β : Type} {x : α × β × Dev} {a : α} {b : β} {e : Dev} (h : x = (a, b, e)) :
    e.part P = x.2.2.part P := by rw [h]

theorem part_snd_fst_eq {α β : Type} {x : α × Dev × β} {a : α} {b : β} {e : Dev} (h : x = (a, e, b)) :
    e.part P = x.2.1.part P := by rw [h]

/-! ### Setting fields outside a part -/

/-- The fields that belong to no part. -/
@[simp] theorem part_set_rest {regs out free arbs fns eps sch snow ledger schLock moraine mapLog} :
    ({ d with
      regs, out, free, arbs, fns, eps, sch, snow, ledger, schLock, moraine, mapLog } : Dev).part P = d.part P := by
  cases P <;> rfl

/-- Those and the fields of the clocks. -/
@[simp] theorem part_set_clocks {clocks regs out free arbs fns eps sch snow ledger schLock moraine mapLog} (hc : P ≠ .clocks) :
    ({ d with
      clocks, regs, out, free, arbs, fns, eps, sch, snow, ledger, schLock, moraine, mapLog } : Dev).part P = d.part P := by
  cases P with
  | clocks => exact absurd rfl hc
  | _ => rfl

/-- Those and the fields of the platform. -/
@[simp] theorem part_set_platform
    {tbHost tbMedia power image thermal regs out free arbs fns eps sch snow ledger schLock moraine mapLog}
    (hp : P ≠ .platform) :
    ({ d with
      tbHost, tbMedia, power, image, thermal, regs, out, free, arbs, fns, eps, sch, snow, ledger, schLock,
      moraine, mapLog } : Dev).part P = d.part P := by
  cases P with
  | platform => exact absurd rfl hp
  | _ => rfl

/-- Those and the fields of the units. -/
@[simp] theorem part_set_units {gauge floe regs out free arbs fns eps sch snow ledger schLock moraine mapLog} (hu : P ≠ .units) :
    ({ d with
      gauge, floe, regs, out, free, arbs, fns, eps, sch, snow, ledger, schLock, moraine, mapLog } : Dev).part P = d.part P := by
  cases P with
  | units => exact absurd rfl hu
  | _ => rfl

/-- Those and the fields of the stores. -/
@[simp] theorem part_set_stores
    {firn ctxs xmap destages reads pools maint nss twin drives regs out free arbs fns eps sch snow ledger schLock moraine mapLog}
    (hs : P ≠ .stores) :
    ({ d with
      firn, ctxs, xmap, destages, reads, pools, maint, nss, twin, drives, regs, out, free, arbs, fns, eps,
      sch, snow, ledger, schLock, moraine, mapLog } : Dev).part P = d.part P := by
  cases P with
  | stores => exact absurd rfl hs
  | _ => rfl

/-- Those and the fields of the host half. -/
@[simp] theorem part_set_host
    {rings streams ingest rime staging mbx regs out free arbs fns eps sch snow ledger schLock moraine mapLog}
    (hh : P ≠ .host) :
    ({ d with
      rings, streams, ingest, rime, staging, mbx, regs, out, free, arbs, fns, eps, sch, snow, ledger, schLock,
      moraine, mapLog } : Dev).part P = d.part P := by
  cases P with
  | host => exact absurd rfl hh
  | _ => rfl

/-- A timebase of the platform and the clocks. -/
@[simp] theorem part_set_times {tbMedia clocks} (hc : P ≠ .clocks) (hp : P ≠ .platform) :
    ({ d with tbMedia, clocks } : Dev).part P = d.part P := by
  cases P with
  | clocks => exact absurd rfl hc
  | platform => exact absurd rfl hp
  | _ => rfl

/-- The fields of the stores and of the host half. -/
@[simp] theorem part_set_both
    {firn ctxs xmap destages reads pools maint nss twin drives rings streams ingest rime staging mbx regs out free arbs fns eps sch snow
    ledger schLock moraine mapLog}
    (hs : P ≠ .stores) (hh : P ≠ .host) :
    ({ d with
      firn, ctxs, xmap, destages, reads, pools, maint, nss, twin, drives, rings, streams, ingest, rime,
      staging, mbx, regs, out, free, arbs, fns, eps, sch, snow, ledger, schLock, moraine, mapLog } : Dev).part P = d.part P := by
  cases P with
  | stores => exact absurd rfl hs
  | host => exact absurd rfl hh
  | _ => rfl

/-- Every field but the straps and the serial number. -/
@[simp] theorem part_set_reset
    {clocks tbHost tbMedia power image thermal gauge floe firn ctxs xmap destages reads pools maint nss twin drives rings streams ingest
    rime staging mbx regs out free arbs fns eps sch snow ledger schLock moraine mapLog}
    (hc : P ≠ .clocks) (hp : P ≠ .platform) (hu : P ≠ .units) (hs : P ≠ .stores) (hh : P ≠ .host) :
    ({ d with
      clocks, tbHost, tbMedia, power, image, thermal, gauge, floe, firn, ctxs, xmap, destages, reads, pools,
      maint, nss, twin, drives, rings, streams, ingest, rime, staging, mbx, regs, out, free, arbs, fns, eps,
      sch, snow, ledger, schLock, moraine, mapLog } : Dev).part P = d.part P := by
  cases P with
  | clocks => exact absurd rfl hc
  | platform => exact absurd rfl hp
  | units => exact absurd rfl hu
  | stores => exact absurd rfl hs
  | host => exact absurd rfl hh
  | _ => rfl

end
end Sys2Proof.Machine
end

section
/-! PROOFS. What each function of the model writes: a part that it does not write is as it was. The hypotheses of a lemma name the parts
that its function, with all that it calls, may write (`hc` the clocks, `hp` the platform, `hu` the units, `hs` the stores, `hh` the host
half); everything else follows from the lemmas of the functions it calls. -/

namespace Sys2Proof.Machine
section
variable {P : Part} {d : Dev}

/-! ### The functions of Machine/Ops -/

@[simp] theorem Dev.part_wr {f v} : (d.wr f v).part P = d.part P := part_set_rest
@[simp] theorem Dev.part_set {f} : (d.set f).part P = d.part P := by simp [Dev.set]
@[simp] theorem Dev.part_clr {f} : (d.clr f).part P = d.part P := by simp [Dev.clr]
@[simp] theorem Dev.part_put {f b} : (d.put f b).part P = d.part P := by simp [Dev.put]
@[simp] theorem Dev.part_putBit {f n b} : (d.putBit f n b).part P = d.part P := by simp [Dev.putBit]
@[simp] theorem Dev.part_bump {f n} : (d.bump f n).part P = d.part P := by simp [Dev.bump]
@[simp] theorem Dev.part_emit {o} : (d.emit o).part P = d.part P := part_set_rest
@[simp] theorem Dev.part_emits {os} : (d.emits os).part P = d.part P := part_set_rest
@[simp] theorem Dev.part_draw : (d.draw).2.part P = d.part P := part_set_rest
@[simp] theorem Dev.part_drawBytes {n} : (d.drawBytes n).2.part P = d.part P := part_set_rest
@[simp] theorem Dev.part_modFn {n f} : (d.modFn n f).part P = d.part P := part_set_rest
@[simp] theorem Dev.part_modEp {e f} : (d.modEp e f).part P = d.part P := part_set_rest
@[simp] theorem Dev.part_modLed {h f} : (d.modLed h f).part P = d.part P := part_set_rest
@[simp] theorem Dev.part_modPw {h f} (hp : P ≠ .platform) : (d.modPw h f).part P = d.part P := part_set_platform hp
@[simp] theorem Dev.part_modSch {h f} : (d.modSch h f).part P = d.part P := part_set_rest

@[simp] theorem Dev.part_modLink {l f} : (d.modLink l f).part P = d.part P := by
  unfold Dev.modLink
  split <;> simp

@[simp] theorem Dev.part_modTwin {f} (hs : P ≠ .stores) : (d.modTwin f).part P = d.part P := part_set_stores hs
@[simp] theorem Dev.part_modGauge {f} (hu : P ≠ .units) : (d.modGauge f).part P = d.part P := part_set_units hu
@[simp] theorem Dev.part_modRings {f} (hh : P ≠ .host) : (d.modRings f).part P = d.part P := part_set_host hh
@[simp] theorem Dev.part_modFirn {f} (hs : P ≠ .stores) : (d.modFirn f).part P = d.part P := part_set_stores hs
@[simp] theorem Dev.part_modMap {f} (hs : P ≠ .stores) : (d.modMap f).part P = d.part P := part_set_stores hs
@[simp] theorem Dev.part_modDrv {f} (hs : P ≠ .stores) : (d.modDrv f).part P = d.part P := part_set_stores hs
@[simp] theorem Dev.part_modRime {f} (hh : P ≠ .host) : (d.modRime f).part P = d.part P := part_set_host hh
@[simp] theorem Dev.part_modIng {f} (hh : P ≠ .host) : (d.modIng f).part P = d.part P := part_set_host hh
@[simp] theorem Dev.part_modPool {p f} (hs : P ≠ .stores) : (d.modPool p f).part P = d.part P := part_set_stores hs
@[simp] theorem Dev.part_modNs {n f} (hs : P ≠ .stores) : (d.modNs n f).part P = d.part P := part_set_stores hs
@[simp] theorem Dev.part_modStream {n f} (hh : P ≠ .host) : (d.modStream n f).part P = d.part P := part_set_host hh
@[simp] theorem Dev.part_modQ {q f} (hh : P ≠ .host) : (d.modQ q f).part P = d.part P := part_set_host hh
@[simp] theorem Dev.part_modCmd {q tag f} (hh : P ≠ .host) : (d.modCmd q tag f).part P = d.part P := by simp [Dev.modCmd, hh]
@[simp] theorem Dev.part_modCtx {q tag f} (hs : P ≠ .stores) : (d.modCtx q tag f).part P = d.part P := part_set_stores hs
@[simp] theorem Dev.part_dropCtx {q tag} (hs : P ≠ .stores) : (d.dropCtx q tag).part P = d.part P := part_set_stores hs

/-! ### The functions of Machine/Arbiter -/

@[simp] theorem part_grant {a waiting work} : (grant a waiting work d).2.part P = d.part P := by
  simp only [grant]
  repeat' split
  all_goals simp

@[simp] theorem part_grantSome {n a waiting work} : (grantSome n a waiting work d).2.part P = d.part P := by
  induction n generalizing d with
  | zero => rfl
  | succ n ih =>
    unfold grantSome
    split <;> rename_i h <;> simp [ih, part_snd_eq h]

@[simp] theorem part_serveNext {α : Type} {a} {l : List α} {key work} : (serveNext a l key work d).2.part P = d.part P := by
  unfold serveNext
  split <;> rename_i h <;> simp [part_snd_eq h]

/-! ### The functions of Machine/Post -/

@[simp] theorem part_trigger {fn v} : (trigger fn v d).part P = d.part P := by simp [trigger]
@[simp] theorem part_sendPending {fn v} : (sendPending fn v d).part P = d.part P := by simp [sendPending]
@[simp] theorem part_sendPendingMsi {fn n} : (sendPendingMsi fn n d).part P = d.part P := by simp [sendPendingMsi]
@[simp] theorem part_sendAllPending {fn} : (sendAllPending fn d).part P = d.part P := by simp [sendAllPending]
@[simp] theorem part_writeEvent {fn e} : (writeEvent fn e d).part P = d.part P := by simp [writeEvent]
@[simp] theorem part_ringEvent {fn e} : (ringEvent fn e d).part P = d.part P := by simp [ringEvent]
@[simp] theorem part_pmeFor {fn} : (pmeFor fn d).part P = d.part P := by simp [pmeFor]
@[simp] theorem part_postEvent {fn e} : (postEvent fn e d).part P = d.part P := by simp [postEvent]
@[simp] theorem part_queueEvent {fn q code data} : (queueEvent fn q code data d).part P = d.part P := by simp [queueEvent]
@[simp] theorem part_classAExceeded {fn q} (hh : P ≠ .host) : (classAExceeded fn q d).part P = d.part P := by simp [classAExceeded, hh]

@[simp] theorem part_classABroken {qi} (hh : P ≠ .host) : (classABroken qi d).part P = d.part P := by
  unfold classABroken
  split <;> simp [hh]

@[simp] theorem part_classAWindow (hh : P ≠ .host) : (classAWindow d).part P = d.part P := by simp [classAWindow, hh]

@[simp] theorem part_signalQueue {qi} (hh : P ≠ .host) : (signalQueue qi d).part P = d.part P := by
  unfold signalQueue
  split <;> simp [hh]

@[simp] theorem Dev.part_endReset {frees} (hh : P ≠ .host) : (d.endReset frees).part P = d.part P := by
  unfold Dev.endReset
  split <;> simp [hh]

@[simp] theorem part_writeCqe {qi e} (hh : P ≠ .host) : (writeCqe qi e d).part P = d.part P := by
  unfold writeCqe
  split <;> simp [hh]

@[simp] theorem part_postCqe {qi e} (hh : P ≠ .host) : (postCqe qi e d).part P = d.part P := by
  unfold postCqe
  split <;> simp [hh]

@[simp] theorem part_drainHeld {fuel qi} (hh : P ≠ .host) : (drainHeld fuel qi d).part P = d.part P := by
  induction fuel generalizing qi d with
  | zero => rfl
  | succ n ih =>
    unfold drainHeld
    repeat' split
    all_goals simp [ih, hh]

@[simp] theorem part_noteMember {fn qi tag status c} (hs : P ≠ .stores) : (noteMember fn qi tag status c d).part P = d.part P := by
  simp [noteMember, hs]

@[simp] theorem part_noteApply {qi tag status c} (hh : P ≠ .host) : (noteApply qi tag status c d).part P = d.part P := by
  simp only [noteApply]
  repeat' split
  all_goals simp [hh]

@[simp] theorem part_completeFreeing {frees qi tag status result} (hs : P ≠ .stores) (hh : P ≠ .host) :
    (completeFreeing frees qi tag status result d).part P = d.part P := by
  unfold completeFreeing
  split <;> simp [hs, hh]

@[simp] theorem part_complete {qi tag status result} (hs : P ≠ .stores) (hh : P ≠ .host) :
    (complete qi tag status result d).part P = d.part P := by
  simp [complete, hs, hh]

@[simp] theorem part_failCmd {qi tag status} (hs : P ≠ .stores) (hh : P ≠ .host) : (failCmd qi tag status d).part P = d.part P := by
  simp [failCmd, hs, hh]

@[simp] theorem part_drainEvents {n fn} : (drainEvents n fn d).part P = d.part P := by
  induction n generalizing d with
  | zero => rfl
  | succ n ih =>
    unfold drainEvents
    simp only [Dev.part_ite]
    split
    · rfl
    · split <;> simp [ih]

@[simp] theorem part_postToPfs {e} : (postToPfs e d).part P = d.part P := by simp [postToPfs]
@[simp] theorem part_devEvent {code data} : (devEvent code data d).part P = d.part P := by simp [devEvent]
@[simp] theorem part_fnEvent {fn code data} : (fnEvent fn code data d).part P = d.part P := by simp [fnEvent]
@[simp] theorem part_aerUnc {fn n} : (aerUnc fn n d).part P = d.part P := by simp [aerUnc]
@[simp] theorem part_aerCor {fn n} : (aerCor fn n d).part P = d.part P := by simp [aerCor]
@[simp] theorem part_internalError : (internalError d).part P = d.part P := by simp [internalError]
@[simp] theorem part_correctedError : (correctedError d).part P = d.part P := by simp [correctedError]

@[simp] theorem part_deliverCqe {qi e} (hh : P ≠ .host) : (deliverCqe qi e d).part P = d.part P := by
  unfold deliverCqe
  split <;> simp [hh]

@[simp] theorem part_deliverWrite {fn} (hh : P ≠ .host) : (deliverWrite fn d).part P = d.part P := by
  unfold deliverWrite
  repeat' split
  all_goals simp [hh]

@[simp] theorem part_sendData {fn q tag segs b ro} : (sendData fn q tag segs b ro d).1.part P = d.part P := by
  unfold sendData
  repeat' split
  all_goals simp

@[simp] theorem part_readHost {q qu c} : (readHost q qu c d).part P = d.part P := by simp [readHost]

/-! ### The functions of Machine/Keys -/

@[simp] theorem Dev.part_modSlot {n f} (hh : P ≠ .host) : (d.modSlot n f).part P = d.part P := by simp [Dev.modSlot, hh]

@[simp] theorem part_takeCounter {n} (hh : P ≠ .host) : (takeCounter n d).2.part P = d.part P := by
  simp only [takeCounter]
  repeat' split
  all_goals simp [hh]

@[simp] theorem part_reseed (hh : P ≠ .host) : (reseed d).part P = d.part P := by simp [reseed, hh]

@[simp] theorem part_drbgServe {n} (hh : P ≠ .host) : (drbgServe n d).part P = d.part P := by
  simp only [drbgServe]
  repeat' split
  all_goals simp [hh]

/-! ### The functions of Machine/Link -/

@[simp] theorem part_nextFrame {l} : (nextFrame l d).2.part P = d.part P := by
  unfold nextFrame
  split
  · rfl
  · exact part_serveNext

@[simp] theorem part_placeFrame {l f lane} : (placeFrame l f lane d).part P = d.part P := by simp [placeFrame]

@[simp] theorem part_pump {n l} : (pump n l d).part P = d.part P := by
  induction n generalizing d with
  | zero => rfl
  | succ n ih =>
    unfold pump
    split
    · rfl
    · split <;> rename_i h <;> simp [ih, part_snd_eq h]

@[simp] theorem part_pumpAll {l} : (pumpAll l d).part P = d.part P := by simp [pumpAll]
@[simp] theorem part_queueFrames {l k cls fn b} : (queueFrames l k cls fn b d).part P = d.part P := by simp [queueFrames]
@[simp] theorem part_schSend {h k cls m} : (schSend h k cls m d).part P = d.part P := by simp [schSend]

@[simp] theorem part_schSendFree {h k cls ref nsid args data} : (schSendFree h k cls ref nsid args data d).part P = d.part P := by
  simp [schSendFree]

@[simp] theorem part_schAsk {h what m} : (schAsk h what m d).part P = d.part P := by simp [schAsk]
@[simp] theorem part_schReply {h id args data} : (schReply h id args data d).part P = d.part P := by simp [schReply]
@[simp] theorem part_linkCompare {len} (hh : P ≠ .host) : (linkCompare len d).2.part P = d.part P := by simp [linkCompare, hh]

@[simp] theorem part_sealSnow {b} (hh : P ≠ .host) : (sealSnow b d).2.part P = d.part P := by
  unfold sealSnow
  split
  · rfl
  · split <;> rename_i h <;> simp [part_snd_eq h, hh]

@[simp] theorem part_snowSendFor {fn k cls m} (hs : P ≠ .stores) (hh : P ≠ .host) : (snowSendFor fn k cls m d).part P = d.part P := by
  unfold snowSendFor
  simp only [Dev.part_ite]
  repeat' split
  any_goals simp [hs]
  all_goals rename_i h; simp [part_snd_eq h, hh]

@[simp] theorem part_snowSend {k cls m} (hs : P ≠ .stores) (hh : P ≠ .host) : (snowSend k cls m d).part P = d.part P := by
  simp [snowSend, hs, hh]

@[simp] theorem part_sendSealed (hs : P ≠ .stores) (hh : P ≠ .host) : (sendSealed d).part P = d.part P := by simp [sendSealed, hs, hh]
@[simp] theorem part_linkControl {l k ops} : (linkControl l k ops d).part P = d.part P := by simp [linkControl]

/-! ### The functions of Machine/Report -/

@[simp] theorem part_rollInterval {h t} : (rollInterval h t d).part P = d.part P := by simp [rollInterval]
@[simp] theorem part_stickySummary {h block sev} : (stickySummary h block sev d).part P = d.part P := by simp [stickySummary]

@[simp] theorem part_lastGasp {h} : (lastGasp h d).part P = d.part P := by
  unfold lastGasp
  split <;> simp

@[simp] theorem part_sendFaultEvent {h src code count summary twin} :
    (sendFaultEvent h src code count summary twin d).part P = d.part P := by
  unfold sendFaultEvent
  split <;> simp

@[simp] theorem part_sourceEvent {h src code n t first summary twin} :
    (sourceEvent h src code n t first summary twin d).part P = d.part P := by
  unfold sourceEvent
  split <;> simp

@[simp] theorem part_summarise {h n src code reporter t twin injected} :
    (summarise h n src code reporter t twin injected d).part P = d.part P := by
  simp [summarise]

@[simp] theorem part_mediaEvent {code data} : (mediaEvent code data d).part P = d.part P := by simp [mediaEvent]
@[simp] theorem part_mediaFnEvent {fn code data} : (mediaFnEvent fn code data d).part P = d.part P := by simp [mediaFnEvent]

@[simp] theorem part_stormEvent {h} : (stormEvent h d).part P = d.part P := by
  unfold stormEvent
  split <;> simp

@[simp] theorem part_reports {h n src code reporter t twin injected} :
    (reports h n src code reporter t twin injected d).part P = d.part P := by
  simp [reports]

@[simp] theorem part_report {h src code reporter t twin injected} : (report h src code reporter t twin injected d).part P = d.part P := by
  simp [report]

@[simp] theorem part_fault {h block inst cause left} : (fault h block inst cause left d).part P = d.part P := by simp [fault]
@[simp] theorem part_newEpoch {h} : (newEpoch h d).part P = d.part P := by simp [newEpoch]

/-! ### The functions of Machine/HostCmd -/

@[simp] theorem part_runCmd {ops q tag f} (hs : P ≠ .stores) (hh : P ≠ .host) (hf : ∀ qu c d, (f qu c d).part P = d.part P) :
    (runCmd ops q tag f d).part P = d.part P := by
  unfold runCmd
  repeat' split
  all_goals simp [hf, hs, hh]

@[simp] theorem part_crossCmd {q tag} (hh : P ≠ .host) : (crossCmd q tag d).part P = d.part P := by simp [crossCmd, hh]
@[simp] theorem part_dropRun {sid} (hh : P ≠ .host) : (dropRun sid d).part P = d.part P := by simp [dropRun, hh]

@[simp] theorem part_tellPins {opens sid s} (hs : P ≠ .stores) (hh : P ≠ .host) : (tellPins opens sid s d).part P = d.part P := by
  simp [tellPins, hs, hh]

@[simp] theorem part_releaseStream {sid s} (hs : P ≠ .stores) (hh : P ≠ .host) : (releaseStream sid s d).part P = d.part P := by
  unfold releaseStream
  split <;> simp [hs, hh]

@[simp] theorem part_closeStreams {p} (hs : P ≠ .stores) (hh : P ≠ .host) : (closeStreams p d).part P = d.part P := by
  simp [closeStreams, hs, hh]

/-! ### The functions of Machine/Xmap -/

@[simp] theorem part_modChunk {c f} (hs : P ≠ .stores) : (modChunk c f d).part P = d.part P := by simp [modChunk, hs]

@[simp] theorem part_freeChunk {c e} (hs : P ≠ .stores) : (freeChunk c e d).part P = d.part P := by
  simp only [freeChunk]
  repeat' split
  all_goals simp [hs]

@[simp] theorem part_refDelta {c n} (hs : P ≠ .stores) : (refDelta c n d).part P = d.part P := by
  unfold refDelta
  split <;> simp [hs]

@[simp] theorem part_dropRefs {es} (hs : P ≠ .stores) : (dropRefs es d).part P = d.part P := by simp [dropRefs, hs]

@[simp] theorem part_bindOne {seq nsid epoch lba unmapped chunk} (hs : P ≠ .stores) :
    (bindOne seq nsid epoch lba unmapped chunk d).part P = d.part P := by
  simp [bindOne, hs]

@[simp] theorem part_bind {seq nsid slba count first} (hs : P ≠ .stores) : (bind seq nsid slba count first d).part P = d.part P := by
  simp [bind, hs]

@[simp] theorem part_unbind {seq nsid slba count} (hs : P ≠ .stores) : (unbind seq nsid slba count d).part P = d.part P := by
  simp [unbind, hs]

@[simp] theorem part_snapMark {nsid id label time} (hs : P ≠ .stores) : (snapMark nsid id label time d).part P = d.part P := by
  simp [snapMark, hs]

@[simp] theorem part_snapDrop {nsid id} (hs : P ≠ .stores) : (snapDrop nsid id d).part P = d.part P := by simp [snapDrop, hs]

@[simp] theorem part_dropHidden {parent} (hs : P ≠ .stores) : (dropHidden parent d).part P = d.part P := by
  unfold dropHidden
  repeat' split
  all_goals simp [hs]

@[simp] theorem part_reclaimEnd {nsid} (hs : P ≠ .stores) : (reclaimEnd nsid d).part P = d.part P := by
  unfold reclaimEnd
  split <;> simp [hs]

@[simp] theorem part_pruneEntry {nsid lba birth} (hs : P ≠ .stores) : (pruneEntry nsid lba birth d).part P = d.part P := by
  simp [pruneEntry, hs]

@[simp] theorem part_applyDelta {time seq delta} (hs : P ≠ .stores) : (applyDelta time seq d delta).part P = d.part P := by
  unfold applyDelta
  split <;> simp [hs]

/-! ### The functions of Machine/Firn -/

@[simp] theorem part_spaceCheck (hs : P ≠ .stores) : (spaceCheck d).part P = d.part P := by simp [spaceCheck, hs]
@[simp] theorem part_modRec {slot f} (hs : P ≠ .stores) : (modRec slot f d).part P = d.part P := by simp [modRec, hs]
@[simp] theorem part_freeRec {slot} (hs : P ≠ .stores) : (freeRec slot d).part P = d.part P := by simp [freeRec, hs]
@[simp] theorem part_dropTaken {r} (hs : P ≠ .stores) : (dropTaken r d).part P = d.part P := by simp [dropTaken, hs]

@[simp] theorem part_assignSeq {slot} (hs : P ≠ .stores) : (assignSeq slot d).part P = d.part P := by
  simp only [assignSeq]
  repeat' split
  all_goals simp [hs]

@[simp] theorem part_sendRecord {slot} (hs : P ≠ .stores) (hh : P ≠ .host) : (sendRecord slot d).part P = d.part P := by
  unfold sendRecord
  split <;> simp [hs, hh]

@[simp] theorem part_takeSlot {r} (hs : P ≠ .stores) : (takeSlot r d).2.part P = d.part P := by simp [takeSlot, hs]

@[simp] theorem part_mediaComplete {q tag status result seq} (hs : P ≠ .stores) :
    (mediaComplete q tag status result seq d).part P = d.part P := by
  simp [mediaComplete, hs]

@[simp] theorem part_markTook {q tag} (hs : P ≠ .stores) (hh : P ≠ .host) : (markTook q tag d).part P = d.part P := by
  simp [markTook, hs, hh]

@[simp] theorem part_fit24 {n} : (fit24 n d).2.part P = d.part P := by
  unfold fit24
  split <;> simp

@[simp] theorem part_recResult {r q tag} : (recResult r q tag d).2.part P = d.part P := by
  simp only [recResult]
  repeat' split
  all_goals simp

@[simp] theorem part_completeRec {slot status} (hs : P ≠ .stores) (hh : P ≠ .host) : (completeRec slot status d).part P = d.part P := by
  unfold completeRec
  split <;> simp [hs, hh]

@[simp] theorem part_recordMarks {r} (hs : P ≠ .stores) : (recordMarks r d).part P = d.part P := by simp [recordMarks, hs]

@[simp] theorem part_coverDivs {r} (hs : P ≠ .stores) : (coverDivs r d).part P = d.part P := by
  refine (Dev.part_each fun d x => ?_).trans (Dev.part_modFirn hs)
  split <;> simp [hs]

@[simp] theorem part_setPack {nsid pack} (hs : P ≠ .stores) (hh : P ≠ .host) : (setPack nsid pack d).part P = d.part P := by
  simp [setPack, hs, hh]

@[simp] theorem part_commitEffects {r} (hs : P ≠ .stores) (hh : P ≠ .host) : (commitEffects r d).part P = d.part P := by
  refine (Dev.part_each fun d x => ?_).trans (by simp [hs])
  split <;> simp [hs, hh]

@[simp] theorem part_noteIntent {r} (hs : P ≠ .stores) : (noteIntent r d).part P = d.part P := by
  unfold noteIntent
  split <;> simp [hs]

@[simp] theorem part_noteMirrored (hs : P ≠ .stores) (hh : P ≠ .host) : (noteMirrored d).part P = d.part P := by
  simp [noteMirrored, hs, hh]

@[simp] theorem part_noteWritten {pool stripe} (hs : P ≠ .stores) (hh : P ≠ .host) : (noteWritten pool stripe d).part P = d.part P := by
  simp [noteWritten, hs, hh]

@[simp] theorem part_noteRevoke {r} (hs : P ≠ .stores) (hh : P ≠ .host) : (noteRevoke r d).part P = d.part P := by
  unfold noteRevoke
  repeat' split
  all_goals simp [hs, hh]

@[simp] theorem part_noteCommit {r} (hs : P ≠ .stores) : (noteCommit r d).part P = d.part P := by simp [noteCommit, hs]
@[simp] theorem part_voidRecs {a} (hs : P ≠ .stores) : (voidRecs a d).part P = d.part P := by simp [voidRecs, hs]

@[simp] theorem part_noteEntered {r} (hs : P ≠ .stores) (hh : P ≠ .host) : (noteEntered r d).part P = d.part P := by
  simp [noteEntered, hs, hh]

@[simp] theorem part_noteHeld {r} (hs : P ≠ .stores) : (noteHeld r d).part P = d.part P := by simp [noteHeld, hs]
@[simp] theorem part_refuseRef {c i} (hs : P ≠ .stores) : (refuseRef c i d).part P = d.part P := by simp [refuseRef, hs]

@[simp] theorem part_refuseRec {slot ords} (hs : P ≠ .stores) (hh : P ≠ .host) : (refuseRec slot ords d).part P = d.part P := by
  unfold refuseRec
  split
  · rfl
  · simp only [Dev.part_ite, part_freeRec hs, part_snowSendFor hs hh]
    split
    · rfl
    · refine Dev.part_each fun d c => ?_
      split <;> simp [hs, hh]

@[simp] theorem part_assignNow {slot} (hs : P ≠ .stores) (hh : P ≠ .host) : (assignNow slot d).part P = d.part P := by
  unfold assignNow
  split <;> simp [hs, hh]

@[simp] theorem part_enterRec {r} (hs : P ≠ .stores) (hh : P ≠ .host) : (enterRec r d).part P = d.part P := by simp [enterRec, hs, hh]
@[simp] theorem part_noteWaits (hs : P ≠ .stores) : (noteWaits d).part P = d.part P := by simp [noteWaits, hs]
@[simp] theorem part_formRec {r} (hs : P ≠ .stores) (hh : P ≠ .host) : (formRec r d).part P = d.part P := by simp [formRec, hs, hh]
@[simp] theorem part_modGroup {fn tag f} (hs : P ≠ .stores) : (modGroup fn tag f d).part P = d.part P := by simp [modGroup, hs]

@[simp] theorem part_divergeRec {slot} (hs : P ≠ .stores) (hh : P ≠ .host) : (divergeRec slot d).part P = d.part P := by
  unfold divergeRec
  split <;> simp [hs, hh]

@[simp] theorem part_commitRec {slot} (hs : P ≠ .stores) (hh : P ≠ .host) : (commitRec slot d).part P = d.part P := by
  unfold commitRec
  split <;> simp [hs, hh]

@[simp] theorem part_stageMember {slot} (hs : P ≠ .stores) (hh : P ≠ .host) : (stageMember slot d).part P = d.part P := by
  unfold stageMember
  split <;> simp [hs, hh]

@[simp] theorem part_applyRefs {r} (hs : P ≠ .stores) : (applyRefs r d).part P = d.part P := by simp [applyRefs, hs]
@[simp] theorem part_applyChunks {r} (hs : P ≠ .stores) : (applyChunks r d).part P = d.part P := by simp [applyChunks, hs]
@[simp] theorem part_mapDeltas {seq r} (hs : P ≠ .stores) : (mapDeltas seq r d).part P = d.part P := by simp [mapDeltas, hs]
@[simp] theorem part_applyDeltas {seq r} (hs : P ≠ .stores) : (applyDeltas seq r d).part P = d.part P := by simp [applyDeltas, hs]
@[simp] theorem part_passTo {p seq} (hs : P ≠ .stores) : (passTo p seq d).part P = d.part P := by simp [passTo, hs]

@[simp] theorem part_noteApplied {slot} (hs : P ≠ .stores) : (noteApplied slot d).part P = d.part P := by
  unfold noteApplied
  split <;> simp [hs]

@[simp] theorem part_commitGroup {slot c} (hs : P ≠ .stores) (hh : P ≠ .host) : (commitGroup slot c d).part P = d.part P := by
  simp [commitGroup, hs, hh]

@[simp] theorem part_applyCommit {slot c} (hs : P ≠ .stores) : (applyCommit slot c d).part P = d.part P := by simp [applyCommit, hs]
@[simp] theorem part_voidGroup {a} (hs : P ≠ .stores) (hh : P ≠ .host) : (voidGroup a d).part P = d.part P := by simp [voidGroup, hs, hh]

@[simp] theorem part_freeChain {fuel head} (hs : P ≠ .stores) : (freeChain fuel head d).part P = d.part P := by
  induction fuel generalizing head d with
  | zero => rfl
  | succ n ih =>
    unfold freeChain
    repeat' split
    all_goals simp [ih, hs]

@[simp] theorem part_releaseStripe {s} (hs : P ≠ .stores) : (releaseStripe s d).part P = d.part P := by
  unfold releaseStripe
  split <;> simp [hs]

@[simp] theorem part_applyNext {p} (hs : P ≠ .stores) (hh : P ≠ .host) : (applyNext p d).part P = d.part P := by
  unfold applyNext
  split <;> simp [hs, hh]

@[simp] theorem part_applyAll {fuel p} (hs : P ≠ .stores) (hh : P ≠ .host) : (applyAll fuel p d).part P = d.part P := by
  induction fuel generalizing d with
  | zero => rfl
  | succ n ih =>
    unfold applyAll
    simp [ih, hs, hh]

@[simp] theorem part_freeDone {p} (hs : P ≠ .stores) : (freeDone p d).part P = d.part P := by simp [freeDone, hs]

/-! ### The functions of Machine/Group -/

@[simp] theorem part_addMember {fn q order p bs} (hs : P ≠ .stores) : (addMember fn q order p bs d).part P = d.part P := by
  simp [addMember, hs]

@[simp] theorem part_sealGroup {fn q order p} (hs : P ≠ .stores) : (sealGroup fn q order p d).part P = d.part P := by simp [sealGroup, hs]
@[simp] theorem part_withdrawGroup {g} (hs : P ≠ .stores) : (withdrawGroup g d).part P = d.part P := by simp [withdrawGroup, hs]

@[simp] theorem part_endCrossed {q tag status} (hs : P ≠ .stores) (hh : P ≠ .host) : (endCrossed q tag status d).part P = d.part P := by
  simp [endCrossed, hs, hh]

@[simp] theorem part_endMember {status q tag} (hs : P ≠ .stores) (hh : P ≠ .host) : (endMember status d q tag).part P = d.part P := by
  unfold endMember
  split <;> simp [hs, hh]

@[simp] theorem part_discardGroup {fn tag status} (hs : P ≠ .stores) (hh : P ≠ .host) :
    (discardGroup fn tag status d).part P = d.part P := by
  unfold discardGroup
  repeat' split
  all_goals simp [hs, hh]

@[simp] theorem part_discardQueueGroups {q} (hs : P ≠ .stores) (hh : P ≠ .host) : (discardQueueGroups q d).part P = d.part P := by
  simp [discardQueueGroups, hs, hh]

@[simp] theorem part_discardFnGroups {fn} (hs : P ≠ .stores) (hh : P ≠ .host) : (discardFnGroups fn d).part P = d.part P := by
  simp [discardFnGroups, hs, hh]

@[simp] theorem part_crossGroup {q tag op count c cls} (hh : P ≠ .host) : (crossGroup q tag op count c cls d).part P = d.part P := by
  simp [crossGroup, hh]

@[simp] theorem part_openGroup {fn q p} (hs : P ≠ .stores) : (openGroup fn q p d).part P = d.part P := by simp [openGroup, hs]

@[simp] theorem part_discardAtFetch {fn q tag p} (hs : P ≠ .stores) (hh : P ≠ .host) :
    (discardAtFetch fn q tag p d).part P = d.part P := by
  unfold discardAtFetch
  split <;> simp [hs, hh]

@[simp] theorem part_groupOperation {m} (hs : P ≠ .stores) : (groupOperation m d).part P = d.part P := by
  simp only [groupOperation]
  repeat' split
  all_goals simp [hs]

@[simp] theorem part_sealStep {g} (hs : P ≠ .stores) (hh : P ≠ .host) : (sealStep g d).part P = d.part P := by simp [sealStep, hs, hh]

/-! ### The functions of Machine/Mode -/

@[simp] theorem part_keepDual (hs : P ≠ .stores) : (keepDual d).part P = d.part P := by simp [keepDual, hs]
@[simp] theorem part_updateMode (hs : P ≠ .stores) : (updateMode d).part P = d.part P := by simp [updateMode, hs]
@[simp] theorem part_haltPorts (hs : P ≠ .stores) : (haltPorts d).part P = d.part P := by simp [haltPorts, hs]

@[simp] theorem part_fenceCommand {q sent c} (hs : P ≠ .stores) (hh : P ≠ .host) : (fenceCommand q sent d c).part P = d.part P := by
  unfold fenceCommand
  split <;> simp [hs, hh]

@[simp] theorem part_settleFence {sent} (hs : P ≠ .stores) (hh : P ≠ .host) : (settleFence sent d).part P = d.part P := by
  exact Dev.part_each fun d e => Dev.part_each fun d c => part_fenceCommand hs hh

@[simp] theorem part_loseGroups (hs : P ≠ .stores) : (loseGroups d).part P = d.part P := by simp [loseGroups, hs]
@[simp] theorem part_lastEvent {cause kind} : (lastEvent cause kind d).part P = d.part P := by simp [lastEvent]

@[simp] theorem part_fenceSelf {cause} (hs : P ≠ .stores) (hh : P ≠ .host) : (fenceSelf cause d).part P = d.part P := by
  simp [fenceSelf, hs, hh]

@[simp] theorem part_syncHome : (syncHome d).part P = d.part P := by simp [syncHome]

@[simp] theorem part_yieldPools (hs : P ≠ .stores) : (yieldPools d).part P = d.part P := by
  cases P with
  | stores => exact absurd rfl hs
  | _ => rfl

@[simp] theorem part_peerDownHost (hs : P ≠ .stores) (hh : P ≠ .host) : (peerDownHost d).part P = d.part P := by
  simp (maxDischargeDepth := 4) [peerDownHost, hs, hh]

@[simp] theorem part_peerDownMedia (hs : P ≠ .stores) (hh : P ≠ .host) : (peerDownMedia d).part P = d.part P := by
  simp [peerDownMedia, hs, hh]

@[simp] theorem part_keepGlb : (keepGlb d).part P = d.part P := by simp [keepGlb]

@[simp] theorem part_mbxEnd {result resp} (hh : P ≠ .host) : (mbxEnd result resp d).part P = d.part P := by
  unfold mbxEnd
  split <;> simp [hh]

@[simp] theorem part_enterPeerDown {h cause} (hs : P ≠ .stores) (hh : P ≠ .host) : (enterPeerDown h cause d).part P = d.part P := by
  unfold enterPeerDown
  repeat' split
  all_goals simp [hs, hh]

@[simp] theorem part_fatalSch {h cause} (hs : P ≠ .stores) (hh : P ≠ .host) : (fatalSch h cause d).part P = d.part P := by
  simp [fatalSch, hs, hh]

@[simp] theorem part_rejectSch {h} (hs : P ≠ .stores) (hh : P ≠ .host) : (rejectSch h d).part P = d.part P := by simp [rejectSch, hs, hh]

/-! ### The functions of Machine/Rings -/

@[simp] theorem Dev.part_giveBlock {b fn} (hh : P ≠ .host) : (d.giveBlock b fn).part P = d.part P := by simp [Dev.giveBlock, hh]

@[simp] theorem part_tailWrite {fn qi v} (hh : P ≠ .host) : (tailWrite fn qi v d).part P = d.part P := by
  unfold tailWrite
  split <;> simp [hh]

@[simp] theorem part_headWrite {fn qi v} (hh : P ≠ .host) : (headWrite fn qi v d).part P = d.part P := by
  unfold headWrite
  split <;> simp [hh]

@[simp] theorem part_streamTail {fn qi sid v} (hh : P ≠ .host) : (streamTail fn qi sid v d).part P = d.part P := by
  unfold streamTail
  split <;> simp [hh]

@[simp] theorem part_doorbell {fn qi off size value} (hh : P ≠ .host) : (doorbell fn qi off size value d).part P = d.part P := by
  unfold doorbell
  repeat' split
  all_goals simp [hh]

@[simp] theorem Dev.part_addQueue {qi q} (hh : P ≠ .host) : (d.addQueue qi q).part P = d.part P := by simp [Dev.addQueue, hh]
@[simp] theorem part_evHeadWrite {fn value} : (evHeadWrite fn value d).part P = d.part P := by simp [evHeadWrite]

@[simp] theorem part_runFeature {fid q tag f} (hs : P ≠ .stores) (hh : P ≠ .host) (hf : ∀ qu c d, (f qu c d).part P = d.part P) :
    (runFeature fid q tag f d).part P = d.part P := by
  simp [runFeature, hf, hs, hh]

/-! ### The functions of Machine/Rime -/

@[simp] theorem part_quarantine {n} : (quarantine n d).part P = d.part P := by simp [quarantine]
@[simp] theorem part_verifyMismatch {n} : (verifyMismatch n d).part P = d.part P := by simp [verifyMismatch]

@[simp] theorem part_compare2 {n len c} (hh : P ≠ .host) : (compare2 n len c d).2.part P = d.part P := by
  unfold compare2
  repeat' split
  all_goals simp [hh]

@[simp] theorem part_quarRelease {mask} : (quarRelease mask d).part P = d.part P := by simp [quarRelease]
@[simp] theorem part_noiseFail : (noiseFail d).part P = d.part P := by simp [noiseFail]
@[simp] theorem part_gcmSuspend {slice cls} (hh : P ≠ .host) : (gcmSuspend slice cls d).part P = d.part P := by simp [gcmSuspend, hh]
@[simp] theorem part_stepGen {fn} : (stepGen fn d).part P = d.part P := by simp [stepGen]

@[simp] theorem part_placeKey {n type keyId key owner} (hh : P ≠ .host) : (placeKey n type keyId key owner d).part P = d.part P := by
  simp [placeKey, hh]

@[simp] theorem part_beginErase {n q tag load} (hh : P ≠ .host) : (beginErase n q tag load d).part P = d.part P := by
  simp [beginErase, hh]

@[simp] theorem part_loadSlot {fn n type keyId key q tag} (hs : P ≠ .stores) (hh : P ≠ .host) :
    (loadSlot fn n type keyId key q tag d).part P = d.part P := by
  simp [loadSlot, hs, hh]

@[simp] theorem part_placeDevKey {key} (hh : P ≠ .host) : (placeDevKey key d).part P = d.part P := by simp [placeDevKey, hh]

@[simp] theorem part_keyLoad {fn q tag p blob slice cmp} (hs : P ≠ .stores) (hh : P ≠ .host) :
    (keyLoad fn q tag p blob slice cmp d).part P = d.part P := by
  simp only [keyLoad]
  split <;> rename_i h
  · simp [part_snd_eq h, hs, hh]
  · split <;> simp [part_snd_eq h, hs, hh]

@[simp] theorem part_dropSlotRuns {n} (hh : P ≠ .host) : (dropSlotRuns n d).part P = d.part P := by simp [dropSlotRuns, hh]

@[simp] theorem part_zeroizeCommands (hs : P ≠ .stores) (hh : P ≠ .host) : (zeroizeCommands d).part P = d.part P := by
  refine Dev.part_each fun d e => (Dev.part_modQ hh).trans (Dev.part_each fun d c => ?_)
  simp [hs, hh]

@[simp] theorem part_zeroizeErases (hs : P ≠ .stores) (hh : P ≠ .host) : (zeroizeErases d).part P = d.part P := by
  refine Dev.part_each fun d e => ?_
  split <;> simp [hs, hh]

@[simp] theorem part_zeroize {incl host media} (hs : P ≠ .stores) (hh : P ≠ .host) : (zeroize incl host media d).part P = d.part P := by
  simp [zeroize, hs, hh]

@[simp] theorem part_zeroizeAt {h incl} (hs : P ≠ .stores) (hh : P ≠ .host) : (zeroizeAt h incl d).part P = d.part P := by
  simp [zeroizeAt, hs, hh]

/-! ### The functions of Machine/Neve -/

@[simp] theorem part_driftWay {line} (hh : P ≠ .host) : (driftWay line d).2.part P = d.part P := by simp [driftWay, hh]

@[simp] theorem part_driftFill {line sec es} (hh : P ≠ .host) : (driftFill line sec es d).part P = d.part P := by
  simp only [driftFill]
  repeat' split
  all_goals simp [hh]

@[simp] theorem part_driftWrite {line place e} (hh : P ≠ .host) : (driftWrite line place e d).part P = d.part P := by
  unfold driftWrite
  split <;> simp [hh]

@[simp] theorem part_lendFault (hh : P ≠ .host) : (lendFault d).part P = d.part P := by simp [lendFault, hh]

@[simp] theorem part_readSector {fill line sec cls lend} (hh : P ≠ .host) :
    (readSector fill line sec cls d lend).2.1.part P = d.part P := by
  simp only [readSector]
  repeat' split
  all_goals simp [hh]

@[simp] theorem part_readSectors {fill line cls l lend} (hh : P ≠ .host) :
    (readSectors fill line cls l d lend).2.1.part P = d.part P := by
  induction l generalizing d lend with
  | nil => rfl
  | cons s t ih => simp [readSectors, ih, hh]

@[simp] theorem part_writeEntry {line place e} (hh : P ≠ .host) : (writeEntry line place e d).part P = d.part P := by
  simp only [writeEntry]
  repeat' split
  all_goals simp [hh]

@[simp] theorem part_strideRequest {slice line cls lend} (hh : P ≠ .host) :
    (strideRequest slice line cls d lend).1.part P = d.part P := by
  simp only [strideRequest]
  repeat' split
  all_goals simp [hh]

@[simp] theorem part_lookup {slice cls fp m lend} (hh : P ≠ .host) : (lookup slice cls fp m d lend).2.1.part P = d.part P := by
  have rest {c : Prop} [Decidable c] {line t e l} :
      (if c then (([] : Sector), e, l) else readSectors true line cls t e l).2.1.part P = e.part P := by
    split <;> simp [hh]
  simp only [lookup]
  split
  · rfl
  · split <;> rename_i h <;> simp [rest, part_snd_fst_eq h, hh]

@[simp] theorem part_indexInsert {fp chunk m lend} (hh : P ≠ .host) : (indexInsert fp chunk m d lend).1.part P = d.part P := by
  simp only [indexInsert]
  repeat' split
  all_goals simp [hh]

@[simp] theorem part_readLine {line lend} (hh : P ≠ .host) : (readLine line d lend).2.1.part P = d.part P := by simp [readLine, hh]

@[simp] theorem part_indexHit {ix old lend} (hh : P ≠ .host) : (indexHit ix old d lend).1.part P = d.part P := by
  unfold indexHit
  simp only
  rcases h : readLine (ix / 16) d lend with ⟨es, e, l⟩
  have same : e.part P = d.part P := by simp [part_snd_fst_eq h, hh]
  simp only
  split
  · exact same
  · split
    · exact same
    · split
      · simp [same, hh]
      · refine (Dev.part_each fun d x => ?_).trans same
        split <;> simp [hh]

@[simp] theorem part_indexClear {ix old lend} (hh : P ≠ .host) : (indexClear ix old d lend).1.part P = d.part P := by
  unfold indexClear
  rcases h : readLine (ix / 16) d lend with ⟨es, e, l⟩
  have same : e.part P = d.part P := by simp [part_snd_fst_eq h, hh]
  simp only
  generalize (es.find? fun e => e.1 == ix % 16).bind (·.2) = o
  cases o with
  | none => exact same
  | some x =>
    simp only
    split <;> simp [same, hh]

@[simp] theorem part_invalidate (hh : P ≠ .host) : (invalidate d).part P = d.part P := by simp [invalidate, hh]
@[simp] theorem part_lendOff : (lendOff d).part P = d.part P := by simp [lendOff]
@[simp] theorem part_askTable : (askTable d).part P = d.part P := by simp [askTable]
@[simp] theorem part_ingCfgWrite {value} (hh : P ≠ .host) : (ingCfgWrite value d).part P = d.part P := by simp [ingCfgWrite, hh]
@[simp] theorem part_ingIndexWrite {off value} : (ingIndexWrite off value d).part P = d.part P := by simp [ingIndexWrite]

/-! ### The functions of Machine/Slices -/

@[simp] theorem part_formMarks {kind id fn mark} (hs : P ≠ .stores) (hh : P ≠ .host) :
    (formMarks kind id fn mark d).part P = d.part P := by
  simp [formMarks, hs, hh]

@[simp] theorem part_askLease {sl} (hs : P ≠ .stores) (hh : P ≠ .host) : (askLease sl d).part P = d.part P := by simp [askLease, hs, hh]
@[simp] theorem part_takeSerials {sl n} (hh : P ≠ .host) : (takeSerials sl n d).2.part P = d.part P := by simp [takeSerials, hh]

@[simp] theorem part_settleChunk {sl cls n opts ord data lend} (hh : P ≠ .host) :
    (settleChunk sl cls n opts ord data lend d).2.2.part P = d.part P := by
  simp only [settleChunk]
  repeat' split
  any_goals simp
  all_goals rename_i h; simp [part_snd_fst_eq h, hh]

@[simp] theorem part_settleChunks {sl cls n opts l lend} (hh : P ≠ .host) :
    (settleChunks sl cls n opts l lend d).2.2.part P = d.part P := by
  induction l generalizing d lend with
  | nil => rfl
  | cons x t ih => simp [settleChunks, ih, hh]

@[simp] theorem part_packChunk {sl n opts data run} : (packChunk sl n opts data run d).2.2.2.part P = d.part P := by
  simp only [packChunk]
  repeat' split
  all_goals simp

@[simp] theorem part_encryptUnit {sl n id ordinal plain run} (hh : P ≠ .host) :
    (encryptUnit sl n id ordinal plain run d).2.2.part P = d.part P := by
  simp only [encryptUnit]
  split <;> rename_i h <;> simp [part_snd_eq h, hh]

@[simp] theorem part_storeChunks {sl n opts id l run} (hh : P ≠ .host) : (storeChunks sl n opts id l run d).2.2.part P = d.part P := by
  induction l generalizing d id run with
  | nil => rfl
  | cons c t ih =>
    simp only [storeChunks]
    split <;> rename_i h <;> simp [part_snd_snd_eq h, ih, hh]

@[simp] theorem part_sealContainers {sl n block o l run} (hh : P ≠ .host) :
    (sealContainers sl n block o l run d).2.2.part P = d.part P := by
  induction l generalizing d o run with
  | nil => rfl
  | cons c t ih =>
    simp only [sealContainers]
    split <;> rename_i h <;> simp [part_snd_snd_eq h, ih, hh]

@[simp] theorem part_sendEnvelope {q cls c count} : (sendEnvelope q cls c count d).part P = d.part P := by simp [sendEnvelope]

@[simp] theorem part_sendNew {q tag nsid cls c block count len} : (sendNew q tag nsid cls c block count len d).part P = d.part P := by
  simp [sendNew]

@[simp] theorem part_sendPayload {q tag nsid cls id b} : (sendPayload q tag nsid cls id b d).part P = d.part P := by simp [sendPayload]
@[simp] theorem part_sendRef {q tag nsid cls c} : (sendRef q tag nsid cls c d).part P = d.part P := by simp [sendRef]
@[simp] theorem part_sendStored {q tag nsid cls l} : (sendStored q tag nsid cls l d).part P = d.part P := by simp [sendStored]
@[simp] theorem part_keepChunks {q tag l} (hh : P ≠ .host) : (keepChunks q tag l d).part P = d.part P := by simp [keepChunks, hh]

@[simp] theorem part_sendOpening {q tag cls} (hh : P ≠ .host) : (sendOpening q tag cls d).part P = d.part P := by
  unfold sendOpening
  split <;> simp [hh]

@[simp] theorem part_crossIfSent {q tag} (hh : P ≠ .host) : (crossIfSent q tag d).part P = d.part P := by
  unfold crossIfSent
  split <;> simp [hh]

@[simp] theorem part_sendBlock {q nsid cls sl n l run} (hs : P ≠ .stores) (hh : P ≠ .host) :
    (sendBlock q nsid cls sl n l run d).2.part P = d.part P := by
  simp only [sendBlock]
  split
  · split <;> rename_i h <;> simp [part_snd_snd_eq h, hs, hh]
  · split <;> rename_i h <;> simp [part_snd_snd_eq h, hs, hh]

@[simp] theorem part_closeBlock {q run} (hs : P ≠ .stores) (hh : P ≠ .host) : (closeBlock q run d).2.part P = d.part P := by
  simp only [closeBlock]
  repeat' split
  all_goals simp [hs, hh]

@[simp] theorem part_joinBlock {q tag nsid cls sl n c run} (hs : P ≠ .stores) (hh : P ≠ .host) :
    (joinBlock q tag nsid cls sl n c run d).2.part P = d.part P := by
  simp only [joinBlock]
  repeat' split
  all_goals simp [hs, hh]

@[simp] theorem part_joinAll {q tag nsid cls sl n l run} (hs : P ≠ .stores) (hh : P ≠ .host) :
    (joinAll q tag nsid cls sl n l run d).2.part P = d.part P := by
  induction l generalizing d run with
  | nil => rfl
  | cons c t ih =>
    rw [joinAll]
    split
    · rfl
    · exact ih.trans (part_joinBlock hs hh)

@[simp] theorem part_ownBlocks {q tag nsid cls sl n fuel l run} (hs : P ≠ .stores) (hh : P ≠ .host) :
    (ownBlocks q tag nsid cls sl n fuel l run d).2.part P = d.part P := by
  induction fuel generalizing d l run with
  | zero => rfl
  | succ k ih =>
    unfold ownBlocks
    split <;> simp [ih, hs, hh]

@[simp] theorem part_sendWrite {qi qu c n sl run} (hs : P ≠ .stores) (hh : P ≠ .host) :
    (sendWrite qi qu c n sl run d).part P = d.part P := by
  have closed {c : Prop} [Decidable c] {q run} {e : Dev} : (if c then closeBlock q run e else (run, e)).2.part P = e.part P := by
    split <;> simp [hs, hh]
  have first {c : Prop} [Decidable c] {sl n} {e : Dev} : (if c then (0, e) else takeSerials sl n e).2.part P = e.part P := by
    split <;> simp [hh]
  simp only [sendWrite]
  split
  · simp [hs, hh]
  · simp only [Dev.part_ite]
    split
    · simp [closed, hs, hh]
    · split
      · simp [hs, hh]
      · split
        · simp [hs, hh]
        · split <;> rename_i h <;> simp [part_snd_snd_eq h, first, hs, hh]

@[simp] theorem part_settleWrite {qi qu c n run b} (hs : P ≠ .stores) (hh : P ≠ .host) :
    (settleWrite qi qu c n run b d).part P = d.part P := by
  unfold settleWrite
  split <;> simp [hs, hh]

@[simp] theorem part_runWrite {qi run qu c} (hs : P ≠ .stores) (hh : P ≠ .host) : (runWrite qi run qu c d).part P = d.part P := by
  unfold runWrite
  repeat' split
  all_goals simp [hs, hh]

@[simp] theorem part_needSlice {qi c f} (hs : P ≠ .stores) (hh : P ≠ .host) (hf : ∀ d, (f d).part P = d.part P) :
    (needSlice qi c d f).part P = d.part P := by
  simp [needSlice, hf, hs, hh]

@[simp] theorem part_crossRead {qi qu c} (hh : P ≠ .host) : (crossRead qi qu c d).part P = d.part P := by simp [crossRead, hh]

@[simp] theorem part_crossOther {qi op qu c ref src} (hh : P ≠ .host) : (crossOther qi op qu c ref src d).part P = d.part P := by
  simp [crossOther, hh]

/-! ### The functions of Machine/Stripe -/

@[simp] theorem part_modMember {p m f} (hs : P ≠ .stores) : (modMember p m f d).part P = d.part P := by simp [modMember, hs]

@[simp] theorem part_remap {p written f} (hs : P ≠ .stores) : (remap p written f d).part P = d.part P := by
  unfold remap
  split <;> simp [hs]

@[simp] theorem part_addRepair {s} (hs : P ≠ .stores) : (addRepair s d).part P = d.part P := by
  unfold addRepair
  split <;> simp [hs]

/-! ### The functions of Machine/HostRx -/

@[simp] theorem part_dropAsk {kind target} (hs : P ≠ .stores) : (dropAsk kind target d).part P = d.part P := by simp [dropAsk, hs]

@[simp] theorem part_closeWaiting {sl run} (hs : P ≠ .stores) (hh : P ≠ .host) : (closeWaiting sl run d).part P = d.part P := by
  have each (l : List (Nat × Queue)) (x : SliceRun × Dev) : (l.foldl (fun (x : SliceRun × Dev) e =>
      if e.2.block.any (fun b => b.closing && b.slice == sl) then closeBlock e.1 x.1 x.2 else x) x).2.part P = x.2.part P := by
    induction l generalizing x with
    | nil => rfl
    | cons e t ih =>
      rw [List.foldl_cons, ih]
      split <;> simp [hs, hh]
  exact each d.rings.queues (run, d)

@[simp] theorem part_askNonce {n} (hs : P ≠ .stores) (hh : P ≠ .host) : (askNonce n d).2.part P = d.part P := by
  simp only [askNonce]
  repeat' split
  all_goals simp [hs, hh]

@[simp] theorem part_decryptUnit {run sl n id ordinal b} (hh : P ≠ .host) :
    (decryptUnit run sl n id ordinal b d).2.part P = d.part P := by
  simp only [decryptUnit]
  split <;> rename_i h
  · simp [part_snd_eq h, hh]
  · split
    · simp [part_snd_eq h, hh]
    · split <;> rename_i h' <;> simp [part_snd_eq h', part_snd_eq h, hh]

@[simp] theorem part_decodeTwice {again reject other sl r} : (decodeTwice again reject other sl r d).2.part P = d.part P := by
  unfold decodeTwice
  repeat' split
  all_goals simp

@[simp] theorem part_failRead {q tag st} (hh : P ≠ .host) : (failRead q tag st d).part P = d.part P := by simp [failRead, hh]

@[simp] theorem part_askAgain {q tag cls c id was} (hh : P ≠ .host) : (askAgain q tag cls c id was d).part P = d.part P := by
  simp [askAgain, hh]

@[simp] theorem part_queueRepair {id} (hs : P ≠ .stores) : (queueRepair id d).part P = d.part P := by
  unfold queueRepair
  split <;> simp [hs]

@[simp] theorem part_serveObject {q tag cls bs c id again pairs r} (hs : P ≠ .stores) (hh : P ≠ .host) :
    (serveObject q tag cls bs c id again pairs r d).part P = d.part P := by
  unfold serveObject
  split <;> simp [hs, hh]

@[simp] theorem part_readObject {m run c n sl} (hs : P ≠ .stores) (hh : P ≠ .host) : (readObject m run c n sl d).part P = d.part P := by
  simp only [readObject]
  split <;> rename_i h <;> simp [part_snd_eq h, hs, hh]

@[simp] theorem part_indexRecord {c n l lend} (hh : P ≠ .host) : (indexRecord c n l lend d).part P = d.part P := by
  induction l generalizing d lend with
  | nil => rfl
  | cons x t ih =>
    simp only [indexRecord, ih]
    repeat' split
    all_goals simp [hh]

@[simp] theorem part_decideCaw {q tag cls c} (hh : P ≠ .host) : (decideCaw q tag cls c d).part P = d.part P := by simp [decideCaw, hh]

@[simp] theorem part_finishRead {q tag qu c st result} (hs : P ≠ .stores) (hh : P ≠ .host) :
    (finishRead q tag qu c st result d).part P = d.part P := by
  unfold finishRead
  split <;> simp [hs, hh]

@[simp] theorem part_completionFor {q tag qu c st result lend} (hs : P ≠ .stores) (hh : P ≠ .host) :
    (completionFor q tag qu c st result lend d).part P = d.part P := by
  unfold completionFor
  repeat' split
  all_goals simp [hs, hh]

/-! ### The functions of Machine/DriveIo -/

@[simp] theorem part_submitNvme {n port} (hs : P ≠ .stores) : (submitNvme n port d).part P = d.part P := by
  induction n generalizing d with
  | zero => rfl
  | succ n ih =>
    simp only [submitNvme]
    split <;> rename_i h <;> simp [part_snd_eq h, ih, hs]

@[simp] theorem part_releaseNvme (hs : P ≠ .stores) : (releaseNvme d).part P = d.part P := by simp [releaseNvme, hs]

@[simp] theorem part_issueNvme {drive admin op lba cls what data} (hs : P ≠ .stores) :
    (issueNvme drive admin op lba cls what data d).part P = d.part P := by
  simp [issueNvme, hs]

@[simp] theorem part_modDrive {i f} (hs : P ≠ .stores) : (modDrive i f d).part P = d.part P := by simp [modDrive, hs]

@[simp] theorem part_readStrip {id s ord cls} (hs : P ≠ .stores) : (readStrip id s ord cls d).2.part P = d.part P := by
  unfold readStrip
  split <;> simp [hs]

@[simp] theorem part_setUpQueues {i} (hs : P ≠ .stores) : (setUpQueues i d).part P = d.part P := by
  unfold setUpQueues
  split <;> simp [hs]

@[simp] theorem part_updateWeights (hs : P ≠ .stores) : (updateWeights d).part P = d.part P := by simp [updateWeights, hs]

@[simp] theorem part_writeBlock {drive pool change b} (hs : P ≠ .stores) : (writeBlock drive pool change b d).part P = d.part P := by
  unfold writeBlock
  split <;> simp [hs]

@[simp] theorem part_sendPool {p} (hs : P ≠ .stores) (hh : P ≠ .host) : (sendPool p d).part P = d.part P := by
  unfold sendPool
  split <;> simp [hs, hh]

@[simp] theorem part_recordPool {p} (hs : P ≠ .stores) (hh : P ≠ .host) : (recordPool p d).part P = d.part P := by
  unfold recordPool
  split
  · rfl
  · refine (Dev.part_each fun d e => ?_).trans (part_sendPool hs hh)
    split
    · rfl
    · split <;> simp [hs]

@[simp] theorem part_syncOffline : (syncOffline d).part P = d.part P := by simp [syncOffline]

@[simp] theorem part_setOffline {p off} (hs : P ≠ .stores) : (setOffline p off d).part P = d.part P := by
  unfold setOffline
  repeat' split
  all_goals simp [hs]

@[simp] theorem part_setOfflineRec {p off} (hs : P ≠ .stores) : (setOfflineRec p off d).part P = d.part P := by
  unfold setOfflineRec
  split <;> simp [hs]

@[simp] theorem part_cfgWritten {p change ok} (hs : P ≠ .stores) : (cfgWritten p change ok d).part P = d.part P := by
  simp [cfgWritten, hs]

/-! ### The functions of Machine/Destage -/

@[simp] theorem part_modDestage {stripe f} (hs : P ≠ .stores) : (modDestage stripe f d).part P = d.part P := part_set_stores hs

@[simp] theorem part_formIntent {x} (hs : P ≠ .stores) (hh : P ≠ .host) : (formIntent x d).part P = d.part P := by
  simp [formIntent, hs, hh]

@[simp] theorem part_startStripe {p stripe replaces purpose asker data y places} (hs : P ≠ .stores) (hh : P ≠ .host) :
    (startStripe p stripe replaces purpose asker data y places d).part P = d.part P := by
  unfold startStripe
  split <;> simp [hs, hh]

@[simp] theorem part_destageAt {p row slot replaces close} (hs : P ≠ .stores) (hh : P ≠ .host) :
    (destageAt p row slot replaces close d).part P = d.part P := by
  unfold destageAt
  split <;> simp [hs, hh]

@[simp] theorem part_replaceStripe {x p row slot} (hs : P ≠ .stores) (hh : P ≠ .host) :
    (replaceStripe x p row slot d).part P = d.part P := by
  unfold replaceStripe
  repeat' split
  all_goals simp [hs, hh]

@[simp] theorem part_unplace {x} (hs : P ≠ .stores) : (unplace x d).part P = d.part P := by simp [unplace, hs]

@[simp] theorem part_unplaceable {x} (hs : P ≠ .stores) (hh : P ≠ .host) : (unplaceable x d).part P = d.part P := by
  simp [unplaceable, hs, hh]

@[simp] theorem part_abandonStripe {stripe} (hs : P ≠ .stores) (hh : P ≠ .host) : (abandonStripe stripe d).part P = d.part P := by
  unfold abandonStripe
  split <;> simp [hs, hh]

@[simp] theorem part_sendStrip {stripe ord} (hs : P ≠ .stores) : (sendStrip stripe ord d).2.part P = d.part P := by
  unfold sendStrip
  repeat' split
  all_goals simp [hs]

@[simp] theorem part_stripFailed {n stripe ord} (hs : P ≠ .stores) (hh : P ≠ .host) :
    (stripFailed n stripe ord d).2.part P = d.part P := by
  induction n generalizing d with
  | zero => rfl
  | succ n ih =>
    simp only [stripFailed]
    split
    · rfl
    · split
      · rfl
      · split
        · simp [hs, hh]
        · split <;> rename_i h <;> simp [part_snd_eq h, ih, hs]

@[simp] theorem part_sendStripe {stripe} (hs : P ≠ .stores) (hh : P ≠ .host) : (sendStripe stripe d).part P = d.part P := by
  unfold sendStripe
  split
  · rfl
  · refine Dev.part_each fun d o => ?_
    split
    · rfl
    · split <;> rename_i h <;> simp [part_snd_eq h, hs, hh]

@[simp] theorem part_formRelease {x} (hs : P ≠ .stores) (hh : P ≠ .host) : (formRelease x d).part P = d.part P := by
  simp [formRelease, hs, hh]

@[simp] theorem part_stripWritten {stripe ord} (hs : P ≠ .stores) (hh : P ≠ .host) : (stripWritten stripe ord d).part P = d.part P := by
  unfold stripWritten
  split <;> simp [hs, hh]

@[simp] theorem part_destageJob {x} (hs : P ≠ .stores) (hh : P ≠ .host) : (destageJob x d).part P = d.part P := by
  simp [destageJob, hs, hh]

@[simp] theorem part_formClear {p stripe seq asker} (hs : P ≠ .stores) (hh : P ≠ .host) :
    (formClear p stripe seq asker d).part P = d.part P := by
  simp [formClear, hs, hh]

@[simp] theorem part_rewritten {x} (hs : P ≠ .stores) (hh : P ≠ .host) : (rewritten x d).part P = d.part P := by
  simp only [rewritten]
  repeat' split
  all_goals simp [hs, hh]

@[simp] theorem part_placedAgain {p} (hs : P ≠ .stores) : (placedAgain p d).part P = d.part P := by simp [placedAgain, hs]

@[simp] theorem part_trimFreed {before} (hs : P ≠ .stores) : (trimFreed before d).part P = d.part P := by
  unfold trimFreed
  split
  · rfl
  · refine Dev.part_each fun d e => ?_
    split
    · rfl
    · refine Dev.part_each fun d o => ?_
      split <;> simp [hs]

/-! ### The functions of Machine/Member -/

@[simp] theorem part_finish {q tag st result} (hs : P ≠ .stores) (hh : P ≠ .host) : (finish q tag st result d).part P = d.part P := by
  simp [finish, hs, hh]

@[simp] theorem part_syncLedger : (syncLedger d).part P = d.part P := by simp [syncLedger]

@[simp] theorem part_modActs {f} (hs : P ≠ .stores) : (modActs f d).part P = d.part P := by
  cases P with
  | stores => exact absurd rfl hs
  | _ => rfl

@[simp] theorem part_mirrorActivity {a ended} (hs : P ≠ .stores) (hh : P ≠ .host) : (mirrorActivity a ended d).part P = d.part P := by
  simp [mirrorActivity, hs, hh]

@[simp] theorem part_putActivity {a} (hs : P ≠ .stores) (hh : P ≠ .host) : (putActivity a d).part P = d.part P := by
  simp [putActivity, hs, hh]

@[simp] theorem part_dropActivity {a} (hs : P ≠ .stores) (hh : P ≠ .host) : (dropActivity a d).part P = d.part P := by
  simp [dropActivity, hs, hh]

@[simp] theorem part_withdraw {margin pool} (hs : P ≠ .stores) (hh : P ≠ .host) : (withdraw margin pool d).part P = d.part P := by
  simp [withdraw, hs, hh]

@[simp] theorem part_withdrawPair (hs : P ≠ .stores) (hh : P ≠ .host) : (withdrawPair d).part P = d.part P := by
  simp [withdrawPair, hs, hh]

@[simp] theorem part_syncRebuild : (syncRebuild d).part P = d.part P := by simp [syncRebuild]
@[simp] theorem part_restartSeq {p} (hs : P ≠ .stores) : (restartSeq p d).part P = d.part P := by simp [restartSeq, hs]

@[simp] theorem part_loseStripe {s cause nerased} (hs : P ≠ .stores) : (loseStripe s cause nerased d).part P = d.part P := by
  simp only [loseStripe]
  repeat' split
  all_goals simp [hs]

@[simp] theorem part_unloseStripe {s} (hs : P ≠ .stores) : (unloseStripe s d).part P = d.part P := by
  unfold unloseStripe
  split <;> simp [hs]

@[simp] theorem part_settleLost {p} (hs : P ≠ .stores) : (settleLost p d).part P = d.part P := by simp [settleLost, hs]
@[simp] theorem part_dropLost {p} (hs : P ≠ .stores) : (dropLost p d).part P = d.part P := by simp [dropLost, hs]
@[simp] theorem part_memberEvent {p m extra} : (memberEvent p m extra d).part P = d.part P := by simp [memberEvent]

@[simp] theorem part_changeMember {p m st f} (hs : P ≠ .stores) (hh : P ≠ .host) : (changeMember p m st f d).part P = d.part P := by
  simp [changeMember, hs, hh]

@[simp] theorem part_addReloc {p m mark} (hs : P ≠ .stores) : (addReloc p m mark d).part P = d.part P := by simp [addReloc, hs]
@[simp] theorem part_dropReloc {p m written} (hs : P ≠ .stores) : (dropReloc p m written d).part P = d.part P := by simp [dropReloc, hs]

@[simp] theorem part_startEvacuation {p m} (hs : P ≠ .stores) (hh : P ≠ .host) : (startEvacuation p m d).part P = d.part P := by
  simp [startEvacuation, hs, hh]

@[simp] theorem part_autoEvacuate {p m} (hs : P ≠ .stores) (hh : P ≠ .host) : (autoEvacuate p m d).part P = d.part P := by
  simp [autoEvacuate, hs, hh]

@[simp] theorem part_suspectMember {p m cause} (hs : P ≠ .stores) (hh : P ≠ .host) : (suspectMember p m cause d).part P = d.part P := by
  unfold suspectMember
  split <;> simp [hs, hh]

@[simp] theorem part_failMember {p m cause} (hs : P ≠ .stores) (hh : P ≠ .host) : (failMember p m cause d).part P = d.part P := by
  unfold failMember
  repeat' split
  all_goals simp [hs, hh]

@[simp] theorem part_evidence {p m cause} (hs : P ≠ .stores) (hh : P ≠ .host) : (evidence p m cause d).2.part P = d.part P := by
  simp only [evidence]
  repeat' split
  all_goals simp [hs, hh]

@[simp] theorem part_rebuildEnds {p before} : (rebuildEnds p before d).part P = d.part P := by simp [rebuildEnds]

/-! ### The functions of Machine/ReadMedia -/

@[simp] theorem part_modRead {id f} (hs : P ≠ .stores) : (modRead id f d).part P = d.part P := part_set_stores hs
@[simp] theorem part_dropFreed (hs : P ≠ .stores) : (dropFreed d).part P = d.part P := by simp [dropFreed, hs]

@[simp] theorem part_dropRead {id} (hs : P ≠ .stores) : (dropRead id d).part P = d.part P := by
  cases P with
  | stores => exact absurd rfl hs
  | _ => rfl

@[simp] theorem part_newRead {r} (hs : P ≠ .stores) : (newRead r d).2.part P = d.part P := by
  cases P with
  | stores => exact absurd rfl hs
  | _ => rfl

@[simp] theorem part_askStrip {id ord} (hs : P ≠ .stores) : (askStrip id ord d).part P = d.part P := by
  unfold askStrip
  split
  · rfl
  · rename_i r _
    have asked (o : Option Nat) : (match o with
        | some v => (true, issueNvme v false nvRead (d.rowLba v (stripeRow r.stripe)) r.cls (.stripRead id ord) [] d)
        | none => readStrip id r.stripe ord r.cls d).2.part P = d.part P := by
      cases o <;> simp [hs]
    simp only
    split <;> rename_i h <;> exact (part_modRead hs).trans ((part_snd_eq h).trans (asked _))

@[simp] theorem part_askWhole {id} (hs : P ≠ .stores) : (askWhole id d).part P = d.part P := by
  unfold askWhole
  split <;> simp [hs]

@[simp] theorem part_queueRewrite {old purpose asker data places} (hs : P ≠ .stores) :
    (queueRewrite old purpose asker data places d).part P = d.part P := by
  simp only [queueRewrite]
  repeat' split
  all_goals simp [hs]

@[simp] theorem part_rewriteStripe {s purpose asker data} (hs : P ≠ .stores) :
    (rewriteStripe s purpose asker data d).part P = d.part P := by
  unfold rewriteStripe
  split <;> simp [hs]

@[simp] theorem part_unlock {q tag} (hs : P ≠ .stores) (hh : P ≠ .host) : (unlock q tag d).part P = d.part P := by simp [unlock, hs, hh]

@[simp] theorem part_endRead {q tag st} (hs : P ≠ .stores) (hh : P ≠ .host) : (endRead q tag st d).part P = d.part P := by
  unfold endRead
  split <;> simp [hs, hh]

@[simp] theorem part_failObject {q tag st} (hs : P ≠ .stores) (hh : P ≠ .host) : (failObject q tag st d).part P = d.part P := by
  simp [failObject, hs, hh]

@[simp] theorem part_sendObject {q tag id ord form b again rebuilt warn} (hs : P ≠ .stores) (hh : P ≠ .host) :
    (sendObject q tag id ord form b again rebuilt warn d).part P = d.part P := by
  simp only [sendObject]
  repeat' split
  all_goals simp [hs, hh]

@[simp] theorem part_markDivergent {s cause synd agree} (hs : P ≠ .stores) (hh : P ≠ .host) :
    (markDivergent s cause synd agree d).part P = d.part P := by
  simp [markDivergent, hs, hh]

@[simp] theorem part_dropOp {q tag} (hs : P ≠ .stores) : (dropOp q tag d).part P = d.part P := part_set_stores hs

@[simp] theorem part_answer {q tag st result} (hs : P ≠ .stores) (hh : P ≠ .host) : (answer q tag st result d).part P = d.part P := by
  simp [answer, hs, hh]

@[simp] theorem part_replayWith {r plan data places ride purpose} (hs : P ≠ .stores) :
    (replayWith r plan data places ride purpose d).part P = d.part P := by
  unfold replayWith
  split <;> simp [hs]

@[simp] theorem part_dropIntent {stripe} (hs : P ≠ .stores) : (dropIntent stripe d).part P = d.part P := by
  unfold dropIntent
  split <;> simp [hs]

@[simp] theorem part_replayRewrite {stripe old p strip} (hs : P ≠ .stores) : (replayRewrite stripe old p strip d).part P = d.part P := by
  unfold replayRewrite
  repeat' split
  all_goals simp [hs]

@[simp] theorem part_readFailed {r} (hs : P ≠ .stores) (hh : P ≠ .host) : (readFailed r d).part P = d.part P := by
  unfold readFailed
  split <;> simp [hs, hh]

@[simp] theorem part_writeLost {r p x} (hs : P ≠ .stores) : (writeLost r p x d).part P = d.part P := by simp [writeLost, hs]

@[simp] theorem part_writeMoved {p m s b} (hs : P ≠ .stores) : (writeMoved p m s b d).part P = d.part P := by
  simp only [writeMoved]
  repeat' split
  all_goals simp [hs]

@[simp] theorem part_compactNow {s p strip} (hs : P ≠ .stores) : (compactNow s p strip d).part P = d.part P := by
  unfold compactNow
  split <;> simp [hs]

@[simp] theorem part_resolveBy {s q tag data} (hs : P ≠ .stores) : (resolveBy s q tag data d).part P = d.part P := by
  simp [resolveBy, hs]

@[simp] theorem part_scrubSolved {r p x} (hs : P ≠ .stores) (hh : P ≠ .host) : (scrubSolved r p x d).part P = d.part P := by
  unfold scrubSolved
  repeat' split
  all_goals simp [hs, hh]

@[simp] theorem part_readSolved {r p x} (hs : P ≠ .stores) (hh : P ≠ .host) : (readSolved r p x d).part P = d.part P := by
  unfold readSolved
  split <;> simp [hs, hh]

@[simp] theorem part_readDirect {r p} (hs : P ≠ .stores) (hh : P ≠ .host) : (readDirect r p d).part P = d.part P := by
  unfold readDirect
  split <;> simp [hs, hh]

@[simp] theorem part_readAll {r p} (hs : P ≠ .stores) (hh : P ≠ .host) : (readAll r p d).part P = d.part P := by
  unfold readAll
  repeat' split
  all_goals simp [hs, hh]

@[simp] theorem part_readOn {id} (hs : P ≠ .stores) (hh : P ≠ .host) : (readOn id d).part P = d.part P := by
  have rest {p} {e : Dev} : (readOn.whole id p e).part P = e.part P := by
    simp only [readOn.whole]
    split <;> simp [hs, hh]
  unfold readOn
  repeat' split
  all_goals simp [rest, hs, hh]

@[simp] theorem part_beginRead {r} (hs : P ≠ .stores) (hh : P ≠ .host) : (beginRead r d).part P = d.part P := by
  unfold beginRead
  split <;> simp [hs, hh]

@[simp] theorem part_noteTried {s ord good} (hs : P ≠ .stores) : (noteTried s ord good d).part P = d.part P := by
  simp only [noteTried]
  repeat' split
  all_goals simp [hs]

@[simp] theorem part_stripErased {id ord cause} (hs : P ≠ .stores) (hh : P ≠ .host) : (stripErased id ord cause d).part P = d.part P := by
  unfold stripErased
  split <;> simp [hs, hh]

@[simp] theorem part_identityFailed {r ord} (hs : P ≠ .stores) (hh : P ≠ .host) : (identityFailed r ord d).part P = d.part P := by
  simp only [identityFailed]
  repeat' split
  all_goals simp [hs, hh]

@[simp] theorem part_stripArrived {id ord b} (hs : P ≠ .stores) (hh : P ≠ .host) : (stripArrived id ord b d).part P = d.part P := by
  unfold stripArrived
  repeat' split
  all_goals simp [hs, hh]

@[simp] theorem part_readObjectFor {q tag id ord again tagNs tagFn o} (hs : P ≠ .stores) (hh : P ≠ .host) :
    (readObjectFor q tag id ord again tagNs tagFn o d).part P = d.part P := by
  simp only [readObjectFor]
  repeat' split
  all_goals simp [hs, hh]

@[simp] theorem part_replayIntent {r plan} (hs : P ≠ .stores) : (replayIntent r plan d).part P = d.part P := by
  unfold replayIntent
  split <;> simp [hs]

@[simp] theorem part_replayIntents (hs : P ≠ .stores) : (replayIntents d).part P = d.part P := by simp [replayIntents, hs]

/-! ### The functions of Machine/MediaMsg -/

@[simp] theorem part_openCtx {m kind snap slba nlb flags opts nchunk src} (hs : P ≠ .stores) :
    (openCtx m kind snap slba nlb flags opts nchunk src d).part P = d.part P :=
  part_set_stores hs

@[simp] theorem part_addItem {q tag i} (hs : P ≠ .stores) : (addItem q tag i d).part P = d.part P := by simp [addItem, hs]
@[simp] theorem part_markFormed {cs} (hs : P ≠ .stores) : (markFormed cs d).part P = d.part P := by simp [markFormed, hs]

@[simp] theorem part_formWrite {c cs n} (hs : P ≠ .stores) (hh : P ≠ .host) : (formWrite c cs n d).part P = d.part P := by
  simp [formWrite, hs, hh]

@[simp] theorem part_fetchObject {q tag key chunk} (hs : P ≠ .stores) (hh : P ≠ .host) :
    (fetchObject q tag key chunk d).part P = d.part P := by
  simp only [fetchObject]
  repeat' split
  all_goals simp [hs, hh]

@[simp] theorem part_readBlocks {q tag} (hs : P ≠ .stores) (hh : P ≠ .host) : (readBlocks q tag d).part P = d.part P := by
  unfold readBlocks
  repeat' split
  all_goals simp [hs, hh]

@[simp] theorem part_startCompare {c n} (hs : P ≠ .stores) (hh : P ≠ .host) : (startCompare c n d).part P = d.part P := by
  simp [startCompare, hs, hh]

@[simp] theorem part_formCopy {c n} (hs : P ≠ .stores) (hh : P ≠ .host) : (formCopy c n d).part P = d.part P := by
  simp only [formCopy]
  repeat' split
  all_goals simp [hs, hh]

@[simp] theorem part_settleOne {c} (hs : P ≠ .stores) (hh : P ≠ .host) : (settleOne c d).part P = d.part P := by
  unfold settleOne
  repeat' split
  all_goals simp [hs, hh]

@[simp] theorem part_settle (hs : P ≠ .stores) (hh : P ≠ .host) : (settle d).part P = d.part P := by simp [settle, hs, hh]

/-! ### The functions of Machine/MediaRx -/

@[simp] theorem part_mediaMsg {m ops ctx f first} (hs : P ≠ .stores) (hh : P ≠ .host)
    (hf : ∀ c x, (f c x).elim (d.part P) (·.part P) = d.part P) (h1 : ∀ c, (first c).elim (d.part P) (·.part P) = d.part P) :
    (mediaMsg m ops ctx f first d).part P = d.part P := by
  have kept {c x e} (made : f c x = some e) : e.part P = d.part P := by simpa [made] using hf c x
  have kept1 {c e} (made : first c = some e) : e.part P = d.part P := by simpa [made] using h1 c
  simp only [mediaMsg]
  split
  · rfl
  · split
    · simp [hs, hh]
    · split
      · rfl
      · split
        · split <;> simp [hs, hh]
        · split
          · simp [hs, hh]
          · rename_i e made
            rw [part_settle hs hh]
            split at made
            · obtain ⟨x, -, hx⟩ := Option.bind_eq_some_iff.mp made
              exact kept hx
            · exact kept1 made

@[simp] theorem part_readAgain {m kind} (hs : P ≠ .stores) (hh : P ≠ .host) : (readAgain m kind d).part P = d.part P := by
  simp only [readAgain]
  split
  · split
    · simp [hs, hh]
    · refine (Dev.part_each fun d o => ?_).trans (by simp [hs])
      split <;> simp [hs, hh]
  · simp [hs, hh]

@[simp] theorem part_sendAck {r} (hs : P ≠ .stores) (hh : P ≠ .host) : (sendAck r d).part P = d.part P := by simp [sendAck, hs, hh]
@[simp] theorem part_freeAbandoned {p} (hs : P ≠ .stores) : (freeAbandoned p d).part P = d.part P := by simp [freeAbandoned, hs]

@[simp] theorem part_clearDone {p} (hs : P ≠ .stores) (hh : P ≠ .host) : (clearDone d p).part P = d.part P := by
  unfold clearDone
  split <;> simp [hs, hh]

@[simp] theorem part_capacityCheck {p} (hs : P ≠ .stores) : (capacityCheck p d).part P = d.part P := by
  unfold capacityCheck
  split <;> simp [hs]

/-! ### The functions of Machine/LinkRx -/

@[simp] theorem part_syncSch : (syncSch d).part P = d.part P := by simp [syncSch]
@[simp] theorem part_markRetired {h lanes} : (markRetired h lanes d).part P = d.part P := by simp [markRetired]
@[simp] theorem part_syncSnow (hs : P ≠ .stores) : (syncSnow d).part P = d.part P := by simp [syncSnow, hs]

@[simp] theorem part_halfEvent {h code data} : (halfEvent h code data d).part P = d.part P := by
  unfold halfEvent
  split <;> simp

@[simp] theorem part_schCount {f n} : (schCount f n d).part P = d.part P := by simp [schCount]
@[simp] theorem part_schMark {f} : (schMark f d).part P = d.part P := by simp [schMark]
@[simp] theorem part_ackFrames {l ack} : (ackFrames l ack d).part P = d.part P := by simp [ackFrames]

@[simp] theorem part_replayOne {l f} : (replayOne l d f).part P = d.part P := by
  simp only [replayOne]
  repeat' split
  all_goals simp

@[simp] theorem part_replayFrames {l p} : (replayFrames l p d).1.part P = d.part P := by
  simp only [replayFrames]
  repeat' split
  all_goals simp

@[simp] theorem part_enqueueMessage {l b} : (enqueueMessage l b d).part P = d.part P := by simp [enqueueMessage]

@[simp] theorem part_messageEnd {l fclass flags seqs b} (hs : P ≠ .stores) (hh : P ≠ .host) :
    (messageEnd l fclass flags seqs b d).1.part P = d.part P := by
  simp only [messageEnd]
  repeat' split
  all_goals simp [hs, hh]

@[simp] theorem part_deliverOne {l seq f} (hs : P ≠ .stores) (hh : P ≠ .host) : (deliverOne l seq f d).1.part P = d.part P := by
  simp only [deliverOne]
  repeat' split
  all_goals simp [hs, hh]

@[simp] theorem part_deliverHeldFrames {n l} (hs : P ≠ .stores) (hh : P ≠ .host) : (deliverHeldFrames n l d).1.part P = d.part P := by
  induction n generalizing d with
  | zero => rfl
  | succ n ih =>
    simp only [deliverHeldFrames]
    split
    · rfl
    · split <;> rename_i h <;> simp [part_fst_eq h, ih, hs, hh]

@[simp] theorem part_messageFrame {l f} (hs : P ≠ .stores) (hh : P ≠ .host) : (messageFrame l f d).1.part P = d.part P := by
  simp only [messageFrame]
  repeat' split
  all_goals simp [hs, hh]

@[simp] theorem part_schLaneLost {h lane locked} (hs : P ≠ .stores) (hh : P ≠ .host) :
    (schLaneLost h lane locked d).part P = d.part P := by
  simp [schLaneLost, hs, hh]

@[simp] theorem part_schLaneDown {h lane} : (schLaneDown h lane d).1.part P = d.part P := by
  simp only [schLaneDown]
  repeat' split
  all_goals simp

@[simp] theorem part_schLaneUp {h lane} : (schLaneUp h lane d).part P = d.part P := by
  unfold schLaneUp
  split <;> simp

@[simp] theorem part_schRetry : (schRetry d).part P = d.part P := by simp [schRetry]

@[simp] theorem part_silentPeer {h} (hs : P ≠ .stores) (hh : P ≠ .host) : (silentPeer h d).part P = d.part P := by
  simp [silentPeer, hs, hh]

/-! ### The functions of Machine/DriveFail -/

@[simp] theorem part_weigh {p m cause} (hs : P ≠ .stores) (hh : P ≠ .host) : (weigh p m cause d).2.part P = d.part P := by
  simp [weigh, hs, hh]

@[simp] theorem part_jobOver {p s} (hs : P ≠ .stores) : (jobOver p s d).part P = d.part P := by simp [jobOver, hs]
@[simp] theorem part_listOver (hs : P ≠ .stores) (hh : P ≠ .host) : (listOver d).part P = d.part P := by simp [listOver, hs, hh]

@[simp] theorem part_failedWhat {evid st what} (hs : P ≠ .stores) (hh : P ≠ .host) : (failedWhat evid st what d).2.part P = d.part P := by
  induction what generalizing d with
  | stripWrite s o =>
    simp only [failedWhat]
    split <;> rename_i h
    · split <;> simp [part_snd_eq h, hs, hh]
    · simp [part_snd_eq h, hs, hh]
  | fwCommit q tag =>
    simp only [failedWhat]
    split <;> simp [hs, hh]
  | report why ih => exact ih
  | _ => simp [failedWhat, hs, hh]

@[simp] theorem part_dropCid {cid} (hs : P ≠ .stores) : (dropCid cid d).part P = d.part P := by simp [dropCid, hs]

@[simp] theorem part_failDrive {evid i} (hs : P ≠ .stores) (hh : P ≠ .host) : (failDrive evid i d).2.part P = d.part P := by
  have each (l : Tab DrvCmd) (a : List Verdict × Dev) : (l.foldl (fun a e =>
      if (tget a.2.drives.cmds e.1).isNone then a
      else let (v, d) := failedWhat evid 0 e.2.what (dropCid e.1 a.2); (a.1 ++ v, d)) a).2.part P = a.2.part P := by
    induction l generalizing a with
    | nil => rfl
    | cons e t ih =>
      rw [List.foldl_cons, ih]
      split <;> simp [hs, hh]
  exact each _ ([], d)

@[simp] theorem part_endOps {p m st} (hs : P ≠ .stores) (hh : P ≠ .host) : (endOps p m st d).part P = d.part P := by simp [endOps, hs, hh]

@[simp] theorem part_declareAll {n l} (hs : P ≠ .stores) (hh : P ≠ .host) : (declareAll n l d).part P = d.part P := by
  induction n generalizing d l with
  | zero => rfl
  | succ n ih =>
    cases l with
    | nil => rfl
    | cons x t =>
      simp only [declareAll]
      split <;> simp [ih, hs, hh]

@[simp] theorem part_declare {vs} (hs : P ≠ .stores) (hh : P ≠ .host) : (declare vs d).part P = d.part P := by simp [declare, hs, hh]

@[simp] theorem part_declareOne {p m c} (hs : P ≠ .stores) (hh : P ≠ .host) : (declareOne p m c d).part P = d.part P := by
  simp [declareOne, hs, hh]

@[simp] theorem part_failedCmd {evid cid st c} (hs : P ≠ .stores) (hh : P ≠ .host) : (failedCmd evid cid st c d).part P = d.part P := by
  simp [failedCmd, hs, hh]

@[simp] theorem part_askEvents {i} (hs : P ≠ .stores) : (askEvents i d).part P = d.part P := by simp [askEvents, hs]
@[simp] theorem part_ctrlReset {i} (hs : P ≠ .stores) (hh : P ≠ .host) : (ctrlReset i d).part P = d.part P := by simp [ctrlReset, hs, hh]

@[simp] theorem part_timeoutSeen {i} (hs : P ≠ .stores) (hh : P ≠ .host) : (timeoutSeen i d).part P = d.part P := by
  unfold timeoutSeen
  split <;> simp [hs, hh]

@[simp] theorem part_stripPresent {s o} (hs : P ≠ .stores) : (stripPresent s o d).part P = d.part P := by simp [stripPresent, hs]

@[simp] theorem part_rebuilt {p s o} (hs : P ≠ .stores) (hh : P ≠ .host) : (rebuilt p s o d).part P = d.part P := by
  simp [rebuilt, hs, hh]

@[simp] theorem part_moved {p m row} (hs : P ≠ .stores) (hh : P ≠ .host) : (moved p m row d).part P = d.part P := by
  unfold moved
  split <;> simp [hs, hh]

/-! ### The functions of Machine/Ledger -/

@[simp] theorem part_mediaAdmin {ops q tag f} (hs : P ≠ .stores) (hh : P ≠ .host) (hf : ∀ qu c d, (f qu c d).part P = d.part P) :
    (mediaAdmin ops q tag f d).part P = d.part P := by
  simp [mediaAdmin, hf, hs, hh]

@[simp] theorem part_forward {q tag args data} (hs : P ≠ .stores) (hh : P ≠ .host) : (forward q tag args data d).part P = d.part P := by
  simp [forward, hs, hh]

@[simp] theorem part_answered {q tag st result} (hs : P ≠ .stores) (hh : P ≠ .host) : (answered q tag st result d).part P = d.part P := by
  simp [answered, hs, hh]

@[simp] theorem part_unanswered (hs : P ≠ .stores) (hh : P ≠ .host) : (unanswered d).part P = d.part P := by simp [unanswered, hs, hh]
@[simp] theorem part_startScrub {p act} (hs : P ≠ .stores) : (startScrub p act d).part P = d.part P := by simp [startScrub, hs]
@[simp] theorem part_stopScrub {p} (hs : P ≠ .stores) : (stopScrub p d).part P = d.part P := by simp [stopScrub, hs]
@[simp] theorem part_onAdmit {a} (hs : P ≠ .stores) (hh : P ≠ .host) : (onAdmit a d).part P = d.part P := by simp [onAdmit, hs, hh]

@[simp] theorem part_ledgerRequest {r q tag} (hs : P ≠ .stores) (hh : P ≠ .host) : (ledgerRequest r q tag d).part P = d.part P := by
  unfold ledgerRequest
  split <;> simp [hs, hh]

@[simp] theorem part_stopEvacuation {p m} (hs : P ≠ .stores) (hh : P ≠ .host) : (stopEvacuation p m d).part P = d.part P := by
  simp [stopEvacuation, hs, hh]

@[simp] theorem part_releaseEffect {a good} (hs : P ≠ .stores) (hh : P ≠ .host) : (releaseEffect a good d).part P = d.part P := by
  simp only [releaseEffect]
  repeat' split
  all_goals simp [hs, hh]

@[simp] theorem part_releaseActivity {a good} (hs : P ≠ .stores) (hh : P ≠ .host) : (releaseActivity a good d).part P = d.part P := by
  simp [releaseActivity, hs, hh]

@[simp] theorem part_ledgerRelease {id good q tag} (hs : P ≠ .stores) (hh : P ≠ .host) :
    (ledgerRelease id good q tag d).part P = d.part P := by
  unfold ledgerRelease
  split <;> simp [hs, hh]

@[simp] theorem part_activate {id} (hs : P ≠ .stores) (hh : P ≠ .host) : (activate id d).part P = d.part P := by
  unfold activate
  split <;> simp [hs, hh]

@[simp] theorem part_activateTwin {kind twin} (hs : P ≠ .stores) (hh : P ≠ .host) : (activateTwin kind twin d).part P = d.part P := by
  simp [activateTwin, hs, hh]

/-! ### The functions of Machine/Regelation -/

@[simp] theorem part_fillEnd {p m} (hs : P ≠ .stores) (hh : P ≠ .host) : (fillEnd p m d).part P = d.part P := by simp [fillEnd, hs, hh]

@[simp] theorem part_fillStep {p m} (hs : P ≠ .stores) (hh : P ≠ .host) : (fillStep p m d).part P = d.part P := by
  simp only [fillStep]
  repeat' split
  all_goals simp [hs, hh]

@[simp] theorem part_recordMark {p} (hs : P ≠ .stores) (hh : P ≠ .host) : (recordMark p d).part P = d.part P := by
  simp [recordMark, hs, hh]

@[simp] theorem part_advanceRebuild {p s} (hs : P ≠ .stores) (hh : P ≠ .host) : (advanceRebuild p s d).part P = d.part P := by
  simp [advanceRebuild, hs, hh]

@[simp] theorem part_rebuildNext {p} (hs : P ≠ .stores) (hh : P ≠ .host) : (rebuildNext p d).part P = d.part P := by
  unfold rebuildNext
  split <;> simp [hs, hh]

@[simp] theorem part_setMark {p m k} (hs : P ≠ .stores) : (setMark p m k d).part P = d.part P := by simp [setMark, hs]
@[simp] theorem part_scrubOne {s} (hs : P ≠ .stores) (hh : P ≠ .host) : (scrubOne s d).part P = d.part P := by simp [scrubOne, hs, hh]

@[simp] theorem part_passEnd {p} (hs : P ≠ .stores) (hh : P ≠ .host) : (passEnd p d).part P = d.part P := by
  simp only [passEnd]
  repeat' split
  all_goals simp [hs, hh]

@[simp] theorem part_scrubNext {p} (hs : P ≠ .stores) (hh : P ≠ .host) : (scrubNext p d).part P = d.part P := by
  simp only [scrubNext]
  repeat' split
  all_goals simp [hs, hh]

@[simp] theorem part_resolveStripe {action s map q tag} (hs : P ≠ .stores) (hh : P ≠ .host) :
    (resolveStripe action s map q tag d).part P = d.part P := by
  simp only [resolveStripe]
  split
  · simp [hs, hh]
  · repeat' split
    all_goals simp [hs, hh]

@[simp] theorem part_settleResolves (hs : P ≠ .stores) (hh : P ≠ .host) : (settleResolves d).part P = d.part P := by
  unfold settleResolves
  split <;> simp [hs, hh]

@[simp] theorem part_adminCtx {q tag op} (hs : P ≠ .stores) : (adminCtx q tag op d).part P = d.part P := by simp [adminCtx, hs]

/-! ### The functions of Machine/Service -/

@[simp] theorem part_openOp {op p m fw q tag step} (hs : P ≠ .stores) : (openOp op p m fw q tag step d).part P = d.part P :=
  part_set_stores hs

@[simp] theorem part_fwCommitNow {i slot q tag} (hs : P ≠ .stores) : (fwCommitNow i slot q tag d).part P = d.part P := by
  simp [fwCommitNow, hs]

@[simp] theorem part_reserve {i keys} (hs : P ≠ .stores) : (reserve i keys d).part P = d.part P := by simp [reserve, hs]

@[simp] theorem part_unwritten {p m} (hs : P ≠ .stores) : (unwritten p m d).part P = d.part P := by
  unfold unwritten
  split <;> simp [hs]

@[simp] theorem part_markForeign {i} (hs : P ≠ .stores) : (markForeign i d).part P = d.part P := by simp [markForeign, hs]

@[simp] theorem part_syncRows {p} (hs : P ≠ .stores) : (syncRows p d).part P = d.part P := by
  simp only [syncRows]
  repeat' split
  all_goals simp [hs]

@[simp] theorem part_bindMember {r q tag} (hs : P ≠ .stores) (hh : P ≠ .host) : (bindMember r q tag d).part P = d.part P := by
  simp only [bindMember]
  repeat' split
  all_goals simp [hs, hh]

@[simp] theorem part_serviceNow {r q tag} (hs : P ≠ .stores) (hh : P ≠ .host) : (serviceNow r q tag d).part P = d.part P := by
  unfold serviceNow
  split <;> simp [hs, hh]

@[simp] theorem part_driveService {op q tag facts good data} (hs : P ≠ .stores) (hh : P ≠ .host) :
    (driveService op q tag facts good data d).part P = d.part P := by
  simp only [driveService]
  refine part_mediaAdmin hs hh fun qu c d => ?_
  repeat' split
  all_goals simp [hs, hh]

/-! ### The functions of Machine/Twin -/

@[simp] theorem part_modWitness {w f} (hs : P ≠ .stores) : (modWitness w f d).part P = d.part P := by simp [modWitness, hs]
@[simp] theorem part_witnessGood {w good} (hs : P ≠ .stores) : (witnessGood w good d).part P = d.part P := by simp [witnessGood, hs]
@[simp] theorem part_keepBlock {w b} (hs : P ≠ .stores) : (keepBlock w b d).part P = d.part P := by simp [keepBlock, hs]

@[simp] theorem part_writeWitness {w wstate} (hs : P ≠ .stores) : (writeWitness w wstate d).part P = d.part P := by
  unfold writeWitness
  split <;> simp [hs]

@[simp] theorem part_rereadWitness {w} (hs : P ≠ .stores) : (rereadWitness w d).part P = d.part P := by
  unfold rereadWitness
  split <;> simp [hs]

@[simp] theorem part_witnessSeen {w b} (hs : P ≠ .stores) : (witnessSeen w b d).part P = d.part P := by simp [witnessSeen, hs]

@[simp] theorem part_witnessWritten {w} (hs : P ≠ .stores) (hh : P ≠ .host) : (witnessWritten w d).part P = d.part P := by
  simp [witnessWritten, hs, hh]

@[simp] theorem part_writeWitnesses {wstate} (hs : P ≠ .stores) : (writeWitnesses wstate d).part P = d.part P := by
  simp [writeWitnesses, hs]

@[simp] theorem part_setHomes {mask} (hs : P ≠ .stores) : (setHomes mask d).part P = d.part P := by
  cases P with
  | stores => exact absurd rfl hs
  | _ => rfl

@[simp] theorem part_adoptRecs {p} (hs : P ≠ .stores) : (adoptRecs p d).part P = d.part P := by simp [adoptRecs, hs]

@[simp] theorem part_assignMarked {p} (hs : P ≠ .stores) (hh : P ≠ .host) : (assignMarked p d).part P = d.part P := by
  simp [assignMarked, hs, hh]

@[simp] theorem part_takeLocks {p} (hs : P ≠ .stores) : (takeLocks p d).part P = d.part P := by simp [takeLocks, hs]
@[simp] theorem part_takePool {p} (hs : P ≠ .stores) (hh : P ≠ .host) : (takePool p d).part P = d.part P := by simp [takePool, hs, hh]
@[simp] theorem part_voidPartner (hs : P ≠ .stores) (hh : P ≠ .host) : (voidPartner d).part P = d.part P := by simp [voidPartner, hs, hh]

@[simp] theorem part_endSwap (hs : P ≠ .stores) (hh : P ≠ .host) : (endSwap d).part P = d.part P := by
  unfold endSwap
  repeat' split
  all_goals simp [hs, hh]

@[simp] theorem part_failoverEvent {cause kind} : (failoverEvent cause kind d).part P = d.part P := by simp [failoverEvent]
@[simp] theorem part_dropMessages {keep} : (dropMessages keep d).part P = d.part P := by simp [dropMessages]

@[simp] theorem part_failover {cause kind keep} (hs : P ≠ .stores) (hh : P ≠ .host) : (failover cause kind keep d).part P = d.part P := by
  simp [failover, hs, hh]

@[simp] theorem part_declarePartner {cause} (hs : P ≠ .stores) (hh : P ≠ .host) : (declarePartner cause d).part P = d.part P := by
  simp [declarePartner, hs, hh]

@[simp] theorem part_fenceFree (hs : P ≠ .stores) (hh : P ≠ .host) : (fenceFree d).part P = d.part P := by simp [fenceFree, hs, hh]
@[simp] theorem part_winSplit (hs : P ≠ .stores) (hh : P ≠ .host) : (winSplit d).part P = d.part P := by simp [winSplit, hs, hh]
@[simp] theorem part_loseSplit (hs : P ≠ .stores) (hh : P ≠ .host) : (loseSplit d).part P = d.part P := by simp [loseSplit, hs, hh]

@[simp] theorem part_raceWitness {w} (hs : P ≠ .stores) : (raceWitness w d).part P = d.part P := by
  unfold raceWitness
  split <;> simp [hs]

@[simp] theorem part_split (hs : P ≠ .stores) (hh : P ≠ .host) : (split d).part P = d.part P := by simp [split, hs, hh]
@[simp] theorem part_linkLoss (hs : P ≠ .stores) (hh : P ≠ .host) : (linkLoss d).part P = d.part P := by simp [linkLoss, hs, hh]

@[simp] theorem part_raceWon {w} (hs : P ≠ .stores) (hh : P ≠ .host) : (raceWon w d).part P = d.part P := by
  unfold raceWon
  split <;> simp [hs, hh]

@[simp] theorem part_raceLost {w} (hs : P ≠ .stores) (hh : P ≠ .host) : (raceLost w d).part P = d.part P := by
  unfold raceLost
  split <;> simp [hs, hh]

@[simp] theorem part_takeoverSeen (hs : P ≠ .stores) (hh : P ≠ .host) : (takeoverSeen d).part P = d.part P := by
  simp only [takeoverSeen]
  repeat' split
  all_goals simp [hs, hh]

@[simp] theorem part_chainBreak {p} (hs : P ≠ .stores) : (chainBreak p d).part P = d.part P := by simp [chainBreak, hs]

@[simp] theorem part_checkChain {r} (hs : P ≠ .stores) : (checkChain r d).part P = d.part P := by
  unfold checkChain
  split <;> simp [hs]

/-! ### The functions of Machine/TwinLink -/

@[simp] theorem part_snowDegraded (hs : P ≠ .stores) : (snowDegraded d).part P = d.part P := by simp [snowDegraded, hs]
@[simp] theorem part_dropLanes (hs : P ≠ .stores) (hh : P ≠ .host) : (dropLanes d).part P = d.part P := by simp [dropLanes, hs, hh]

@[simp] theorem part_snowLaneLost {lane} (hs : P ≠ .stores) (hh : P ≠ .host) : (snowLaneLost lane d).part P = d.part P := by
  simp [snowLaneLost, hs, hh]

@[simp] theorem part_leaveDown : (leaveDown d).part P = d.part P := by simp [leaveDown]
@[simp] theorem part_snowLaneBack {lane} (hs : P ≠ .stores) : (snowLaneBack lane d).part P = d.part P := by simp [snowLaneBack, hs]
@[simp] theorem part_twnLaneRetry (hs : P ≠ .stores) : (twnLaneRetry d).part P = d.part P := by simp [twnLaneRetry, hs]

@[simp] theorem part_replayLimit {l} (hs : P ≠ .stores) (hh : P ≠ .host) : (replayLimit l d).part P = d.part P := by
  unfold replayLimit
  split <;> simp [hs, hh]

@[simp] theorem part_snowLaneDown {lane} (hs : P ≠ .stores) (hh : P ≠ .host) : (snowLaneDown lane d).part P = d.part P := by
  simp [snowLaneDown, hs, hh]

@[simp] theorem part_afterMessage {l e} (hs : P ≠ .stores) (hh : P ≠ .host) : (afterMessage l e d).part P = d.part P := by
  unfold afterMessage
  split <;> simp [hs, hh]

@[simp] theorem part_noteCheck {l lane bad} : (noteCheck l lane bad d).1.part P = d.part P := by simp [noteCheck]

@[simp] theorem part_badFrame {l lane f} (hs : P ≠ .stores) (hh : P ≠ .host) : (badFrame l lane f d).part P = d.part P := by
  simp only [badFrame]
  repeat' split
  all_goals simp [hs, hh]

@[simp] theorem part_goodFrame {l lane f} (hs : P ≠ .stores) (hh : P ≠ .host) : (goodFrame l lane f d).part P = d.part P := by
  simp [goodFrame, hs, hh]

/-! ### The functions of Machine/Drives -/

@[simp] theorem part_syncDrives : (syncDrives d).part P = d.part P := by simp [syncDrives]

@[simp] theorem part_driveEvent {i} : (driveEvent i d).part P = d.part P := by
  unfold driveEvent
  split <;> simp

@[simp] theorem part_enumeratePath {port sub path} (hs : P ≠ .stores) : (enumeratePath port sub path d).part P = d.part P := by
  simp [enumeratePath, hs]

@[simp] theorem part_unusable {i reason} (hs : P ≠ .stores) : (unusable i reason d).part P = d.part P := by simp [unusable, hs]

@[simp] theorem part_learnBlock {b} (hs : P ≠ .stores) : (learnBlock b d).part P = d.part P := by
  simp [learnBlock, hs]

@[simp] theorem part_readWitness {nguid w} (hs : P ≠ .stores) : (readWitness nguid w d).part P = d.part P := by
  unfold readWitness
  split <;> simp [hs]

@[simp] theorem part_windowEnds {p} (hs : P ≠ .stores) : (windowEnds p d).part P = d.part P := by simp [windowEnds, hs]

@[simp] theorem part_bindAgain {i p m keys} (hs : P ≠ .stores) : (bindAgain i p m keys d).part P = d.part P := by
  unfold bindAgain
  split <;> simp [hs]

@[simp] theorem part_drvPortCfgWrite {value} : (drvPortCfgWrite value d).part P = d.part P := by simp [drvPortCfgWrite]

@[simp] theorem part_mediaFeature {fid q tag f} (hs : P ≠ .stores) (hh : P ≠ .host) (hf : ∀ qu c d, (f qu c d).part P = d.part P) :
    (mediaFeature fid q tag f d).part P = d.part P := by
  simp [mediaFeature, hf, hs, hh]

@[simp] theorem part_writeList {i} (hs : P ≠ .stores) : (writeList i d).part P = d.part P := by
  unfold writeList
  split <;> simp [hs]

@[simp] theorem part_setWitness {w nguid} (hs : P ≠ .stores) : (setWitness w nguid d).part P = d.part P := by simp [setWitness, hs]

@[simp] theorem part_designate {w nguid q tag} (hs : P ≠ .stores) (hh : P ≠ .host) : (designate w nguid q tag d).part P = d.part P := by
  simp only [designate]
  repeat' split
  all_goals simp [hs, hh]

@[simp] theorem part_windowNow {len q tag step} (hs : P ≠ .stores) (hh : P ≠ .host) : (windowNow len q tag step d).part P = d.part P := by
  simp [windowNow, hs, hh]

@[simp] theorem part_nvmeGood {c data} (hs : P ≠ .stores) (hh : P ≠ .host) : (nvmeGood c data d).part P = d.part P := by
  simp only [nvmeGood]
  repeat' split
  all_goals simp [hs, hh]

@[simp] theorem part_readError {c} (hs : P ≠ .stores) (hh : P ≠ .host) : (readError c d).part P = d.part P := by
  unfold readError
  split <;> simp [hs, hh]

@[simp] theorem part_nvmeFailed {cid st c} (hs : P ≠ .stores) (hh : P ≠ .host) : (nvmeFailed cid st c d).part P = d.part P := by
  unfold nvmeFailed
  repeat' split
  all_goals simp [hs, hh]

@[simp] theorem part_readTimedOut {cid c} (hs : P ≠ .stores) (hh : P ≠ .host) : (readTimedOut cid c d).part P = d.part P := by
  unfold readTimedOut
  split <;> simp [hs, hh]

@[simp] theorem part_engineOut {n} (hs : P ≠ .stores) (hh : P ≠ .host) : (engineOut n d).part P = d.part P := by
  simp only [engineOut]
  split
  · rfl
  · split
    · simp
    · refine (Dev.part_each fun d r => ?_).trans (by simp)
      split <;> simp [hs, hh]

@[simp] theorem part_engineMismatch {n} (hs : P ≠ .stores) (hh : P ≠ .host) : (engineMismatch n d).part P = d.part P := by
  simp [engineMismatch, hs, hh]

@[simp] theorem part_grantEngines {n} : (grantEngines n d).part P = d.part P := by
  induction n generalizing d with
  | zero => rfl
  | succ n ih =>
    simp only [grantEngines]
    split
    · rfl
    · split <;> rename_i h <;> simp [part_snd_eq h, ih]

@[simp] theorem part_startJobs : (startJobs d).part P = d.part P := by simp [startJobs]
@[simp] theorem part_engRelease {mask} : (engRelease mask d).part P = d.part P := by simp [engRelease]

/-! ### The functions of Machine/Varve -/

@[simp] theorem part_formMap {c pool deltas} (hs : P ≠ .stores) (hh : P ≠ .host) : (formMap c pool deltas d).part P = d.part P := by
  simp [formMap, hs, hh]

@[simp] theorem part_crossVarve {qi qu c ref args} (hh : P ≠ .host) : (crossVarve qi qu c ref args d).part P = d.part P := by
  simp [crossVarve, hh]

@[simp] theorem part_cloneNow {c n snap} (hs : P ≠ .stores) (hh : P ≠ .host) : (cloneNow c n snap d).part P = d.part P := by
  simp only [cloneNow]
  repeat' split
  all_goals simp [hs, hh]

@[simp] theorem part_varveNow {op snap label c} (hs : P ≠ .stores) (hh : P ≠ .host) : (varveNow op snap label c d).part P = d.part P := by
  unfold varveNow
  split <;> simp [hs, hh]

@[simp] theorem part_nsManage {op q tag f} (hs : P ≠ .stores) (hh : P ≠ .host)
    (hf : ∀ qu c n d, (f qu c n d).elim (fun _ => d.part P) (·.2.2.2.part P) = d.part P) :
    (nsManage op q tag f d).part P = d.part P := by
  have kept {qu c n d r} (made : f qu c n d = .inr r) : r.2.2.2.part P = d.part P := by simpa [made] using hf qu c n d
  simp only [nsManage]
  refine part_mediaAdmin hs hh fun qu c d => ?_
  repeat' split
  any_goals simp [hs, hh]
  all_goals
    have made := kept ‹f qu c _ d = _›
    simp [made]

@[simp] theorem part_closeBlocks {l run} (hs : P ≠ .stores) (hh : P ≠ .host) : (closeBlocks l run d).part P = d.part P := by
  induction l generalizing d run with
  | nil => rfl
  | cons q t ih => simp [closeBlocks, ih, hs, hh]

@[simp] theorem part_definePool {p geometry} (hs : P ≠ .stores) : (definePool p geometry d).part P = d.part P := by
  cases P with
  | stores => exact absurd rfl hs
  | _ => rfl

@[simp] theorem part_forgetGone {nsid} (hs : P ≠ .stores) : (forgetGone nsid d).part P = d.part P := by simp [forgetGone, hs]

/-! ### The functions of Machine/Calving -/

@[simp] theorem part_placeRun {offered sid cls} (hh : P ≠ .host) : (placeRun offered sid cls d).part P = d.part P := by
  simp only [placeRun]
  repeat' split
  all_goals simp [hh]

@[simp] theorem part_readStored {again sl n c run} (hh : P ≠ .host) : (readStored again sl n c run d).2.2.part P = d.part P := by
  simp only [readStored]
  split <;> rename_i h <;>
    have same := (part_snd_snd_eq (P := P) h).trans (part_foldl_snd_snd fun x o => by
      split
      · rfl
      · split
        · simp
        · split <;> rename_i h' <;> simp [part_snd_eq h', hh])
  · simp [same]
  · split <;> simp [same]

@[simp] theorem part_readChunk {sl n c run} (hs : P ≠ .stores) (hh : P ≠ .host) : (readChunk sl n c run d).2.2.part P = d.part P := by
  simp only [readChunk]
  split <;> rename_i h
  · simp [part_snd_snd_eq h, hh]
  · simp [part_snd_snd_eq h, hh]
  · split <;> rename_i h' <;> simp [part_snd_snd_eq h', part_snd_snd_eq h, hs, hh]

@[simp] theorem part_readRun {sl n l run} (hs : P ≠ .stores) (hh : P ≠ .host) : (readRun sl n l run d).2.2.part P = d.part P := by
  induction l generalizing d run with
  | nil => rfl
  | cons c t ih =>
    simp only [readRun]
    split <;> rename_i h
    · simp [part_snd_snd_eq h, hs, hh]
    · split <;> rename_i h' <;> simp [part_snd_snd_eq h', part_snd_snd_eq h, ih, hs, hh]

@[simp] theorem part_nextMsg {sl len st n run} (hs : P ≠ .stores) (hh : P ≠ .host) :
    (nextMsg sl len st n run d).2.2.part P = d.part P := by
  simp only [nextMsg]
  split
  · rfl
  · split
    · rfl
    · split
      · rfl
      · split <;> rename_i h
        · simp [part_snd_snd_eq h, hs, hh]
        · repeat' split
          all_goals simp [part_snd_snd_eq h, hs, hh]

@[simp] theorem part_writeDesc {st addr len stat} : (writeDesc st addr len stat d).part P = d.part P := by simp [writeDesc]

@[simp] theorem part_stopStream {sid state status addr st} (hh : P ≠ .host) :
    (stopStream sid state status addr st d).part P = d.part P := by
  simp [stopStream, hh]

@[simp] theorem part_writeMsg {sid sl addr ctr st n m run} (hh : P ≠ .host) :
    (writeMsg sid sl addr ctr st n m run d).part P = d.part P := by
  simp only [writeMsg]
  split <;> rename_i h <;> simp [part_snd_eq h, hh]

@[simp] theorem part_applyNow {qi qu c n sid seq st b run} (hs : P ≠ .stores) (hh : P ≠ .host) :
    (applyNow qi qu c n sid seq st b run d).part P = d.part P := by
  simp only [applyNow]
  repeat' split
  all_goals simp [hs, hh]

@[simp] theorem part_takeApply {qi run qu c st n b} (hs : P ≠ .stores) (hh : P ≠ .host) :
    (takeApply qi run qu c st n b d).part P = d.part P := by
  simp only [takeApply]
  split
  · simp [hs, hh]
  · split
    · simp [hs, hh]
    · split
      · split
        · simp [hs, hh]
        · split
          · simp [hs, hh]
          · split
            · simp [hs, hh]
            · split <;> rename_i h <;> simp [part_snd_eq h, hs, hh]
      · simp [hs, hh]

@[simp] theorem part_applyRecord {c a} (hs : P ≠ .stores) (hh : P ≠ .host) : (applyRecord c a d).part P = d.part P := by
  unfold applyRecord
  repeat' split
  all_goals simp [hs, hh]

@[simp] theorem part_saveCtx {st} (hs : P ≠ .stores) (hh : P ≠ .host) : (saveCtx st d).2.part P = d.part P := by
  unfold saveCtx
  split
  · rfl
  · split
    · split <;> rename_i h
      · simp [part_snd_eq h, hh]
      · split <;> simp [part_snd_eq h, hs, hh]
    · simp

@[simp] theorem part_wrapCtx {b} (hh : P ≠ .host) : (wrapCtx b d).2.part P = d.part P := by
  unfold wrapCtx
  split
  · rfl
  · rfl
  · simp only
    split <;> rename_i h <;> simp [part_snd_eq h, hh]

/-! ### The functions of Machine/Holdup -/

@[simp] theorem part_packState : (packState d).part P = d.part P := by simp [packState]
@[simp] theorem part_holdupEvent : (holdupEvent d).part P = d.part P := by simp [holdupEvent]
@[simp] theorem part_chargeUpdate (hu : P ≠ .units) : (chargeUpdate d).part P = d.part P := by simp [chargeUpdate, hu]
@[simp] theorem part_packEnable {on} (hu : P ≠ .units) : (packEnable on d).part P = d.part P := by simp [packEnable, hu]
@[simp] theorem part_bleedSet {on} (hu : P ≠ .units) : (bleedSet on d).part P = d.part P := by simp [bleedSet, hu]
@[simp] theorem part_writeRecord {reason} (hu : P ≠ .units) : (writeRecord reason d).part P = d.part P := by simp [writeRecord, hu]
@[simp] theorem part_learnFail {cause} (hu : P ≠ .units) : (learnFail cause d).part P = d.part P := by simp [learnFail, hu]
@[simp] theorem part_packFault {cause} (hu : P ≠ .units) : (packFault cause d).part P = d.part P := by simp [packFault, hu]
@[simp] theorem part_endOfLife (hu : P ≠ .units) : (endOfLife d).part P = d.part P := by simp [endOfLife, hu]

@[simp] theorem part_reserveUpdate (hu : P ≠ .units) : (reserveUpdate d).part P = d.part P := by
  simp only [reserveUpdate]
  repeat' split
  all_goals simp [hu]

@[simp] theorem part_setCharge {q} (hu : P ≠ .units) : (setCharge q d).part P = d.part P := by simp [setCharge, hu]

@[simp] theorem part_socDraw {mv} : (socDraw mv d).2.part P = d.part P := by
  unfold socDraw
  split <;> simp

@[simp] theorem part_packChange (hu : P ≠ .units) : (packChange d).part P = d.part P := by simp [packChange, hu]

@[simp] theorem part_gaugeStart (hu : P ≠ .units) : (gaugeStart d).part P = d.part P := by
  simp only [gaugeStart]
  repeat' split
  all_goals simp [hu]

@[simp] theorem part_resistanceSample {i0 i1 v0 v1} (hu : P ≠ .units) : (resistanceSample i0 i1 v0 v1 d).part P = d.part P := by
  simp [resistanceSample, hu]

@[simp] theorem part_countCharge {u} (hu : P ≠ .units) : (countCharge u d).part P = d.part P := by simp [countCharge, hu]
@[simp] theorem part_bleedCheck (hu : P ≠ .units) : (bleedCheck d).part P = d.part P := by simp [bleedCheck, hu]

@[simp] theorem part_converterWindow {i mv} (hu : P ≠ .units) : (converterWindow i mv d).part P = d.part P := by
  simp [converterWindow, hu]

@[simp] theorem part_learnAccept {q} (hu : P ≠ .units) : (learnAccept q d).part P = d.part P := by simp [learnAccept, hu]
@[simp] theorem part_restPoint {mv} (hu : P ≠ .units) : (restPoint mv d).part P = d.part P := by simp [restPoint, hu]

@[simp] theorem part_energyAvail : (energyAvail d).2.part P = d.part P := by
  simp only [energyAvail]
  repeat' split
  all_goals simp

@[simp] theorem part_energyUpdate (hu : P ≠ .units) : (energyUpdate d).part P = d.part P := by simp [energyUpdate, hu]
@[simp] theorem part_packConnect (hu : P ≠ .units) : (packConnect d).part P = d.part P := by simp [packConnect, hu]
@[simp] theorem part_packDisconnect (hu : P ≠ .units) : (packDisconnect d).part P = d.part P := by simp [packDisconnect, hu]
@[simp] theorem part_gaugeDumpEnd (hu : P ≠ .units) : (gaugeDumpEnd d).part P = d.part P := by simp [gaugeDumpEnd, hu]
@[simp] theorem part_learnStart (hu : P ≠ .units) : (learnStart d).part P = d.part P := by simp [learnStart, hu]

/-! ### The functions of Machine/Pair -/

@[simp] theorem part_recordToAssign {r} (hs : P ≠ .stores) (hh : P ≠ .host) : (recordToAssign r d).part P = d.part P := by
  simp [recordToAssign, hs, hh]

@[simp] theorem part_mirrorCopy {r} (hs : P ≠ .stores) (hh : P ≠ .host) : (mirrorCopy r d).part P = d.part P := by
  simp only [mirrorCopy]
  repeat' split
  all_goals simp [hs, hh]

@[simp] theorem part_recordArrived {pool ref id b} (hs : P ≠ .stores) (hh : P ≠ .host) :
    (recordArrived pool ref id b d).part P = d.part P := by
  unfold recordArrived
  split <;> simp [hs, hh]

@[simp] theorem part_stampRec {slot r m} (hs : P ≠ .stores) (hh : P ≠ .host) : (stampRec slot r m d).part P = d.part P := by
  simp only [stampRec]
  repeat' split
  all_goals simp [hs, hh]

@[simp] theorem part_handOver (hs : P ≠ .stores) (hh : P ≠ .host) : (handOver d).part P = d.part P := by
  unfold handOver
  split <;> simp [hs, hh]

@[simp] theorem part_enterActivating (hs : P ≠ .stores) (hh : P ≠ .host) : (enterActivating d).part P = d.part P := by
  unfold enterActivating
  split <;> simp [hs, hh]

@[simp] theorem part_handedOver (hs : P ≠ .stores) (hh : P ≠ .host) : (handedOver d).part P = d.part P := by simp [handedOver, hs, hh]

@[simp] theorem part_swapDone (hs : P ≠ .stores) (hh : P ≠ .host) : (swapDone d).part P = d.part P := by
  unfold swapDone
  repeat' split
  all_goals simp [hs, hh]

@[simp] theorem part_beginSwap {pools dest asker} (hs : P ≠ .stores) : (beginSwap pools dest asker d).part P = d.part P := by
  simp [beginSwap, hs]

@[simp] theorem part_coordinateSwap {pools dest asker} (hs : P ≠ .stores) (hh : P ≠ .host) :
    (coordinateSwap pools dest asker d).part P = d.part P := by
  unfold coordinateSwap
  split <;> simp [hs, hh]

@[simp] theorem part_handAway (hs : P ≠ .stores) (hh : P ≠ .host) : (handAway d).part P = d.part P := by
  unfold handAway
  split <;> simp [hs, hh]

@[simp] theorem part_actEnds (hs : P ≠ .stores) (hh : P ≠ .host) : (actEnds d).part P = d.part P := by
  simp only [actEnds]
  repeat' split
  all_goals simp [hs, hh]

@[simp] theorem part_becomePaired (hs : P ≠ .stores) (hh : P ≠ .host) : (becomePaired d).part P = d.part P := by
  simp [becomePaired, hs, hh]

@[simp] theorem part_beginResync (hs : P ≠ .stores) (hh : P ≠ .host) : (beginResync d).part P = d.part P := by simp [beginResync, hs, hh]
@[simp] theorem part_dropStale (hs : P ≠ .stores) : (dropStale d).part P = d.part P := by simp [dropStale, hs]

@[simp] theorem part_joinSeqs {was other theirs} (hs : P ≠ .stores) : (joinSeqs was other theirs d).part P = d.part P := by
  simp [joinSeqs, hs]

@[simp] theorem part_paired {a} (hs : P ≠ .stores) (hh : P ≠ .host) : (paired a d).part P = d.part P := by simp [paired, hs, hh]

@[simp] theorem part_handshake (hs : P ≠ .stores) (hh : P ≠ .host) : (handshake d).part P = d.part P := by
  simp only [handshake]
  repeat' split
  all_goals simp [hs, hh]

@[simp] theorem part_rejoin (hs : P ≠ .stores) (hh : P ≠ .host) : (rejoin d).part P = d.part P := by simp [rejoin, hs, hh]

@[simp] theorem part_joinRecord {r} (hs : P ≠ .stores) (hh : P ≠ .host) : (joinRecord r d).part P = d.part P := by
  simp [joinRecord, hs, hh]

@[simp] theorem part_freeOthers (hs : P ≠ .stores) : (freeOthers d).part P = d.part P := by simp [freeOthers, hs]

@[simp] theorem part_linkGcmWrite {value} (hs : P ≠ .stores) (hh : P ≠ .host) : (linkGcmWrite value d).part P = d.part P := by
  simp [linkGcmWrite, hs, hh]

@[simp] theorem part_linkCheck {step on key} (hs : P ≠ .stores) (hh : P ≠ .host) : (linkCheck step on key d).part P = d.part P := by
  unfold linkCheck
  split <;> simp [hs, hh]

/-! ### The functions of Machine/Dump -/

@[simp] theorem part_haltForDump (hs : P ≠ .stores) : (haltForDump d).part P = d.part P := by
  simp [haltForDump, hs]

@[simp] theorem part_startDump {reason} (hu : P ≠ .units) (hs : P ≠ .stores) (hh : P ≠ .host) :
    (startDump reason d).part P = d.part P := by
  simp [startDump, hu, hs, hh]

@[simp] theorem part_endDump (hu : P ≠ .units) (hs : P ≠ .stores) : (endDump d).part P = d.part P := by
  unfold endDump
  split <;> simp [hu, hs]

@[simp] theorem part_cutDump (hs : P ≠ .stores) : (cutDump d).part P = d.part P := by
  unfold cutDump
  split <;> simp [hs]

@[simp] theorem part_rebuildMap (hs : P ≠ .stores) : (rebuildMap d).part P = d.part P := part_set_stores hs

@[simp] theorem part_restore (hs : P ≠ .stores) : (restore d).part P = d.part P := by
  unfold restore
  split <;> simp [hs]

@[simp] theorem part_frnCfgWrite {value} (hs : P ≠ .stores) : (frnCfgWrite value d).part P = d.part P := by simp [frnCfgWrite, hs]

/-! ### The functions of Machine/Floe -/

@[simp] theorem Dev.part_modChan {h ch f} (hu : P ≠ .units) : (d.modChan h ch f).part P = d.part P := part_set_units hu
@[simp] theorem Dev.part_setFlo {h ch st} : (d.setFlo h ch st).part P = d.part P := by simp [Dev.setFlo]
@[simp] theorem Dev.part_setLine {h l n} (hu : P ≠ .units) : (d.setLine h l n).part P = d.part P := by simp [Dev.setLine, hu]
@[simp] theorem part_issueBurst {h ch b} : (issueBurst h ch b d).part P = d.part P := by simp [issueBurst]

@[simp] theorem part_issueAwait {h ch} (hu : P ≠ .units) : (issueAwait h ch d).part P = d.part P := by
  simp only [issueAwait]
  repeat' split
  all_goals simp [hu]

@[simp] theorem part_needReq {h ch r} (hu : P ≠ .units) : (needReq h ch r d).part P = d.part P := by simp [needReq, hu]

@[simp] theorem part_floHalt {h ch cause} : (floHalt h ch cause d).part P = d.part P := by
  unfold floHalt
  split <;> simp

@[simp] theorem part_floHaltInstr {h ch cause} (hu : P ≠ .units) : (floHaltInstr h ch cause d).part P = d.part P := by
  simp [floHaltInstr, hu]

@[simp] theorem part_floGoto {h ch pc} (hu : P ≠ .units) : (floGoto h ch pc d).part P = d.part P := by simp [floGoto, hu]
@[simp] theorem part_floNext {h ch} (hu : P ≠ .units) : (floNext h ch d).part P = d.part P := by simp [floNext, hu]
@[simp] theorem part_floToIdle {h ch} (hu : P ≠ .units) : (floToIdle h ch d).part P = d.part P := by simp [floToIdle, hu]

@[simp] theorem part_wakeLine {h l} (hu : P ≠ .units) : (wakeLine h l d).part P = d.part P := by
  unfold wakeLine
  split <;> simp [hu]

@[simp] theorem part_assertLine {h l} (hu : P ≠ .units) : (assertLine h l d).part P = d.part P := by simp [assertLine, hu]

@[simp] theorem part_setEvent {h k} (hu : P ≠ .units) : (setEvent h k d).part P = d.part P := by
  unfold setEvent
  split <;> simp [hu]

@[simp] theorem part_readDesc {h ch} (hu : P ≠ .units) : (readDesc h ch d).part P = d.part P := by simp [readDesc, hu]
@[simp] theorem part_floKick {h ch} (hu : P ≠ .units) : (floKick h ch d).part P = d.part P := by simp [floKick, hu]
@[simp] theorem part_descArrived {h ch desc} (hu : P ≠ .units) : (descArrived h ch desc d).part P = d.part P := by simp [descArrived, hu]
@[simp] theorem part_descDone {h ch} (hu : P ≠ .units) : (descDone h ch d).part P = d.part P := by simp [descDone, hu]

@[simp] theorem part_writeBack {h ch} (hu : P ≠ .units) : (writeBack h ch d).part P = d.part P := by
  unfold writeBack
  split <;> simp [hu]

@[simp] theorem part_signalNow {h ch i} (hu : P ≠ .units) : (signalNow h ch i d).part P = d.part P := by
  unfold signalNow
  split <;> simp [hu]

@[simp] theorem part_afterResponse {h ch} (hu : P ≠ .units) : (afterResponse h ch d).part P = d.part P := by simp [afterResponse, hu]
@[simp] theorem part_waitResponse {h ch} (hu : P ≠ .units) : (waitResponse h ch d).part P = d.part P := by simp [waitResponse, hu]

@[simp] theorem part_runInstr {h ch opc i f} (hu : P ≠ .units) (hf : ∀ d, (f d).part P = d.part P) :
    (runInstr h ch opc i f d).part P = d.part P := by
  simp [runInstr, hf, hu]

@[simp] theorem part_moveBegin {h ch} (hu : P ≠ .units) : (moveBegin h ch d).part P = d.part P := by simp [moveBegin, hu]
@[simp] theorem part_paceState {h ch} : (paceState h ch d).part P = d.part P := by simp [paceState]
@[simp] theorem part_moveWrite {h ch} (hu : P ≠ .units) : (moveWrite h ch d).part P = d.part P := by simp [moveWrite, hu]

@[simp] theorem part_moveData {h ch data} (hu : P ≠ .units) : (moveData h ch data d).part P = d.part P := by
  simp only [moveData]
  repeat' split
  all_goals simp [hu]

@[simp] theorem part_loopRun {h ch} (hu : P ≠ .units) : (loopRun h ch d).part P = d.part P := by simp [loopRun, hu]
@[simp] theorem part_waitRun {h ch} (hu : P ≠ .units) : (waitRun h ch d).part P = d.part P := by simp [waitRun, hu]
@[simp] theorem part_signalRun {h ch} (hu : P ≠ .units) : (signalRun h ch d).part P = d.part P := by simp [signalRun, hu]
@[simp] theorem part_endRun {h ch} (hu : P ≠ .units) : (endRun h ch d).part P = d.part P := by simp [endRun, hu]

@[simp] theorem part_burstGrant {h} (hu : P ≠ .units) : (burstGrant h d).part P = d.part P := by
  unfold burstGrant
  split <;> simp [hu]

@[simp] theorem part_busError {h ch} (hu : P ≠ .units) : (busError h ch d).part P = d.part P := by
  simp only [busError]
  repeat' split
  all_goals simp [hu]

@[simp] theorem part_floContinue {h ch} (hu : P ≠ .units) : (floContinue h ch d).part P = d.part P := by
  simp only [floContinue]
  repeat' split
  all_goals simp [hu]

@[simp] theorem part_floGoOn {h ch} (hu : P ≠ .units) : (floGoOn h ch d).part P = d.part P := by simp [floGoOn, hu]
@[simp] theorem part_floStop {h ch src} : (floStop h ch src d).part P = d.part P := by simp [floStop]
@[simp] theorem part_floPause {h ch} : (floPause h ch d).part P = d.part P := by simp [floPause]
@[simp] theorem part_floResume {h ch} (hu : P ≠ .units) : (floResume h ch d).part P = d.part P := by simp [floResume, hu]
@[simp] theorem part_floUndefined {h ch} : (floUndefined h ch d).part P = d.part P := by simp [floUndefined]
@[simp] theorem part_floAbort {h ch} (hu : P ≠ .units) : (floAbort h ch d).part P = d.part P := by simp [floAbort, hu]
@[simp] theorem part_floPausedNow {h ch} : (floPausedNow h ch d).part P = d.part P := by simp [floPausedNow]
@[simp] theorem part_floDrained {h ch} (hu : P ≠ .units) : (floDrained h ch d).part P = d.part P := by simp [floDrained, hu]
@[simp] theorem part_floBusStop {fn} : (floBusStop fn d).part P = d.part P := by simp [floBusStop]
@[simp] theorem part_floBusStart {fn} (hu : P ≠ .units) : (floBusStart fn d).part P = d.part P := by simp [floBusStart, hu]
@[simp] theorem part_floReset {fn} (hu : P ≠ .units) : (floReset fn d).part P = d.part P := by simp [floReset, hu]

@[simp] theorem part_floConfigWrite {h ch off size value} : (floConfigWrite h ch off size value d).part P = d.part P := by
  simp [floConfigWrite]

@[simp] theorem part_floCmd {p ch f} (hf : ∀ h ch d, (f h ch d).part P = d.part P) : (floCmd p ch f d).part P = d.part P := by
  unfold floCmd
  split <;> simp [hf]

@[simp] theorem part_floSwreq {p value} (hu : P ≠ .units) : (floSwreq p value d).part P = d.part P := by
  unfold floSwreq
  split <;> simp [hu]

@[simp] theorem part_floEventWrite {p on value} (hu : P ≠ .units) : (floEventWrite p on value d).part P = d.part P := by
  unfold floEventWrite
  split <;> simp [hu]

/-! ### The functions of Machine/Coord -/

@[simp] theorem part_bindByNguid {p m nguid} (hs : P ≠ .stores) : (bindByNguid p m nguid d).part P = d.part P := by
  unfold bindByNguid
  split <;> simp [hs]

@[simp] theorem part_poolTold {a} (hs : P ≠ .stores) (hh : P ≠ .host) : (poolTold a d).part P = d.part P := by simp [poolTold, hs, hh]

@[simp] theorem part_resolveAsked {stripe word q tag} (hs : P ≠ .stores) (hh : P ≠ .host) :
    (resolveAsked stripe word q tag d).part P = d.part P := by
  simp [resolveAsked, hs, hh]

@[simp] theorem part_serviceAsked {a data} (hs : P ≠ .stores) (hh : P ≠ .host) : (serviceAsked a data d).part P = d.part P := by
  simp only [serviceAsked]
  repeat' split
  all_goals simp [hs, hh]

@[simp] theorem part_lockAsked {q tag nsid slba nlb} (hs : P ≠ .stores) (hh : P ≠ .host) :
    (lockAsked q tag nsid slba nlb d).part P = d.part P := by
  simp [lockAsked, hs, hh]

@[simp] theorem part_lockAnswered {q tag good} (hs : P ≠ .stores) (hh : P ≠ .host) : (lockAnswered q tag good d).part P = d.part P := by
  simp [lockAnswered, hs, hh]

@[simp] theorem part_activityTold {a} (hs : P ≠ .stores) (hh : P ≠ .host) : (activityTold a d).part P = d.part P := by
  simp [activityTold, hs, hh]

@[simp] theorem part_otherDone {q tag st result} (hs : P ≠ .stores) (hh : P ≠ .host) :
    (otherDone q tag st result d).part P = d.part P := by
  simp [otherDone, hs, hh]

@[simp] theorem part_coordNow {m mirror} (hs : P ≠ .stores) (hh : P ≠ .host) (hm : ∀ p n d, (mirror p n d).part P = d.part P) :
    (coordNow m mirror d).part P = d.part P := by
  simp only [coordNow]
  split
  case h_9 => cases d.slotOf (m.args.getD 1 0) (m.args.getD 2 0) <;> simp [hs, hh]
  all_goals simp [hm, hs, hh]

/-! ### The functions of Machine/Reset -/

@[simp] theorem part_dropOnMedia {q tag} (hs : P ≠ .stores) (hh : P ≠ .host) : (dropOnMedia q tag d).part P = d.part P := by
  simp [dropOnMedia, hs, hh]

@[simp] theorem part_dropCmd {q c} (hs : P ≠ .stores) (hh : P ≠ .host) : (dropCmd q d c).part P = d.part P := by simp [dropCmd, hs, hh]

@[simp] theorem part_beginReset {q ask delete} (hs : P ≠ .stores) (hh : P ≠ .host) : (beginReset q ask delete d).part P = d.part P := by
  unfold beginReset
  split <;> simp [hs, hh]

@[simp] theorem part_runReset {ops delete q tag} (hs : P ≠ .stores) (hh : P ≠ .host) :
    (runReset ops delete q tag d).part P = d.part P := by
  refine part_runCmd hs hh fun qu c d => ?_
  simp only [Dev.part_ite]
  split
  · simp [hs, hh]
  · split
    · simp [hs, hh]
    · split <;> simp [hs, hh]

@[simp] theorem part_aqCfgWrite {fn value} (hs : P ≠ .stores) (hh : P ≠ .host) : (aqCfgWrite fn value d).part P = d.part P := by
  simp only [aqCfgWrite]
  repeat' split
  all_goals simp [hs, hh]

@[simp] theorem part_resetDone {q} (hs : P ≠ .stores) (hh : P ≠ .host) : (resetDone q d).part P = d.part P := by
  simp only [resetDone]
  repeat' split
  all_goals simp [hs, hh]

/-! ### The functions of Machine/Packet -/

@[simp] theorem part_refusePacket {qi order st p} (hh : P ≠ .host) : (refusePacket qi order st p d).part P = d.part P := by
  simp [refusePacket, hh]

@[simp] theorem part_acceptPacket {qi order qu p segs joins} (hs : P ≠ .stores) (hh : P ≠ .host) :
    (acceptPacket qi order qu p segs joins d).part P = d.part P := by
  unfold acceptPacket
  repeat' split
  all_goals simp [hs, hh]

@[simp] theorem part_takePacket {qi order qu p lists run} (hs : P ≠ .stores) (hh : P ≠ .host) :
    (takePacket qi order qu p lists run d).part P = d.part P := by
  simp only [takePacket]
  repeat' split
  all_goals simp [hs, hh]

@[simp] theorem part_fetchFailed {qi qu} (hh : P ≠ .host) : (fetchFailed qi qu d).part P = d.part P := by simp [fetchFailed, hh]

/-! ### The functions of Machine/Endpoint -/

@[simp] theorem part_stopTraffic {fn} (hs : P ≠ .stores) (hh : P ≠ .host) : (stopTraffic fn d).part P = d.part P := by
  simp (maxDischargeDepth := 4) [stopTraffic, hs, hh]

@[simp] theorem part_endDelivery {fn} (hs : P ≠ .stores) (hh : P ≠ .host) : (endDelivery fn d).part P = d.part P := by
  simp [endDelivery, hs, hh]

@[simp] theorem part_startTraffic {fn} (hu : P ≠ .units) (hs : P ≠ .stores) (hh : P ≠ .host) : (startTraffic fn d).part P = d.part P := by
  simp [startTraffic, hu, hs, hh]

@[simp] theorem part_deliverGrant {r} (hs : P ≠ .stores) (hh : P ≠ .host) : (deliverGrant r d).part P = d.part P := by
  simp [deliverGrant, hs, hh]

@[simp] theorem part_bmeWrite {fn on} (hu : P ≠ .units) (hs : P ≠ .stores) (hh : P ≠ .host) : (bmeWrite fn on d).part P = d.part P := by
  simp [bmeWrite, hu, hs, hh]

@[simp] theorem part_setLinkState {e st} : (setLinkState e st d).part P = d.part P := by simp [setLinkState]
@[simp] theorem part_enterD3 {fn} (hs : P ≠ .stores) (hh : P ≠ .host) : (enterD3 fn d).part P = d.part P := by simp [enterD3, hs, hh]

@[simp] theorem part_returnD0 {fn} (hu : P ≠ .units) (hs : P ≠ .stores) (hh : P ≠ .host) : (returnD0 fn d).part P = d.part P := by
  simp [returnD0, hu, hs, hh]

@[simp] theorem part_resetRegs {fn} : (resetRegs fn d).part P = d.part P := part_set_rest

@[simp] theorem part_resetFn {fn} (hu : P ≠ .units) (hs : P ≠ .stores) (hh : P ≠ .host) : (resetFn fn d).part P = d.part P := by
  simp [resetFn, hu, hs, hh]

@[simp] theorem part_resetVfs {e} (hu : P ≠ .units) (hs : P ≠ .stores) (hh : P ≠ .host) : (resetVfs e d).part P = d.part P := by
  simp [resetVfs, hu, hs, hh]

@[simp] theorem part_flrOf {fn} (hu : P ≠ .units) (hs : P ≠ .stores) (hh : P ≠ .host) : (flrOf fn d).part P = d.part P := by
  simp [flrOf, hu, hs, hh]

@[simp] theorem part_vfEnable {e} (hh : P ≠ .host) : (vfEnable e d).part P = d.part P := by simp [vfEnable, hh]
@[simp] theorem part_linkUp {e width speed flit} : (linkUp e width speed flit d).part P = d.part P := by simp [linkUp]
@[simp] theorem part_linkDown {e} : (linkDown e d).part P = d.part P := by simp [linkDown]

@[simp] theorem part_endpointReset {e} (hu : P ≠ .units) (hs : P ≠ .stores) (hh : P ≠ .host) : (endpointReset e d).part P = d.part P := by
  simp [endpointReset, hu, hs, hh]

@[simp] theorem part_msixWrite {fn off size value} : (msixWrite fn off size value d).part P = d.part P := by simp [msixWrite]

@[simp] theorem part_requestFailed {fn why} (hu : P ≠ .units) (hs : P ≠ .stores) (hh : P ≠ .host) :
    (requestFailed fn why d).part P = d.part P := by
  simp only [requestFailed]
  repeat' split
  all_goals simp [hu, hs, hh]

@[simp] theorem part_epFault {fn cause} : (epFault fn cause d).part P = d.part P := by simp [epFault]

/-! ### The functions of Machine/Firmware -/

@[simp] theorem part_startActivation (hs : P ≠ .stores) (hh : P ≠ .host) : (startActivation d).part P = d.part P := by
  simp only [startActivation]
  split
  · rfl
  · simp [hs, hh]

@[simp] theorem part_askActivation {q tag fn} (hs : P ≠ .stores) (hh : P ≠ .host) : (askActivation q tag fn d).part P = d.part P := by
  simp only [askActivation]
  repeat' split
  all_goals simp [hs, hh]

@[simp] theorem part_warmReset (hs : P ≠ .stores) : (warmReset d).part P = d.part P := by
  cases P with
  | stores => exact absurd rfl hs
  | _ => rfl

@[simp] theorem part_runImage {m bank} (hp : P ≠ .platform) : (runImage m bank d).part P = d.part P := by simp [runImage, hp]

@[simp] theorem part_resume {a} (hs : P ≠ .stores) (hh : P ≠ .host) : (resume a d).part P = d.part P := by
  simp only [resume]
  repeat' split
  all_goals simp [hs, hh]

@[simp] theorem part_warmWrite {h} (hs : P ≠ .stores) (hh : P ≠ .host) : (warmWrite h d).part P = d.part P := by simp [warmWrite, hs, hh]

/-! ### The functions of Machine/Nunatak -/

@[simp] theorem part_packDisconnectCmd {p} (hu : P ≠ .units) (hs : P ≠ .stores) (hh : P ≠ .host) :
    (packDisconnectCmd p d).part P = d.part P := by
  unfold packDisconnectCmd
  repeat' split
  all_goals simp [hu, hs, hh]

@[simp] theorem part_wdogKick {h} : (wdogKick h d).part P = d.part P := by simp [wdogKick]

@[simp] theorem part_mbxMedia {op incl} (hu : P ≠ .units) (hs : P ≠ .stores) (hh : P ≠ .host) :
    (mbxMedia op incl d).2.part P = d.part P := by
  unfold mbxMedia
  split <;> simp [hu, hs, hh]

@[simp] theorem part_mbxRun {op arg} (hs : P ≠ .stores) (hh : P ≠ .host) : (mbxRun op arg d).part P = d.part P := by
  unfold mbxRun
  split <;> simp [hs, hh]

@[simp] theorem part_mbxCmd {e op key arg} (hs : P ≠ .stores) (hh : P ≠ .host) : (mbxCmd e op key arg d).part P = d.part P := by
  simp [mbxCmd, hs, hh]

@[simp] theorem part_mbxWrite {e op key} (hs : P ≠ .stores) (hh : P ≠ .host) : (mbxWrite e op key d).part P = d.part P := by
  simp [mbxWrite, hs, hh]

@[simp] theorem part_linkKeyAsked {id m} (hh : P ≠ .host) : (linkKeyAsked id m d).part P = d.part P := by
  simp only [linkKeyAsked]
  repeat' split
  all_goals simp [hh]

/-! ### The functions of Machine/Power -/

@[simp] theorem part_clearCommon {h} (hp : P ≠ .platform) : (clearCommon h d).part P = d.part P := part_set_platform hp

@[simp] theorem part_clearHost (hc : P ≠ .clocks) (hp : P ≠ .platform) (hu : P ≠ .units) (hs : P ≠ .stores) (hh : P ≠ .host) :
    (clearHost d).part P = d.part P := by
  simp [clearHost, hc, hp, hu, hs, hh]

@[simp] theorem part_clearMedia (hc : P ≠ .clocks) (hp : P ≠ .platform) (hu : P ≠ .units) (hs : P ≠ .stores) (hh : P ≠ .host) :
    (clearMedia d).part P = d.part P := by
  simp [clearMedia, hc, hp, hu, hs, hh]

@[simp] theorem part_endAct (hs : P ≠ .stores) (hh : P ≠ .host) : (endAct d).part P = d.part P := by
  simp only [endAct]
  repeat' split
  all_goals simp [hs, hh]

@[simp] theorem part_coldReset {h} (hc : P ≠ .clocks) (hp : P ≠ .platform) (hu : P ≠ .units) (hs : P ≠ .stores) (hh : P ≠ .host) :
    (coldReset h d).part P = d.part P := by
  unfold coldReset
  split <;> simp [hc, hp, hu, hs, hh]

@[simp] theorem part_triggerCold {h} (hc : P ≠ .clocks) (hp : P ≠ .platform) (hu : P ≠ .units) (hs : P ≠ .stores) (hh : P ≠ .host) :
    (triggerCold h d).part P = d.part P := by
  unfold triggerCold
  repeat' split
  all_goals simp [hc, hp, hu, hs, hh]

@[simp] theorem part_railLoss {h} (hc : P ≠ .clocks) (hp : P ≠ .platform) (hu : P ≠ .units) (hs : P ≠ .stores) (hh : P ≠ .host) :
    (railLoss h d).part P = d.part P := by
  unfold railLoss
  split <;> simp [hc, hp, hu, hs, hh]

@[simp] theorem part_coldWrite {h} (hc : P ≠ .clocks) (hp : P ≠ .platform) (hu : P ≠ .units) (hs : P ≠ .stores) (hh : P ≠ .host) :
    (coldWrite h d).part P = d.part P := by
  simp [coldWrite, hc, hp, hu, hs, hh]

@[simp] theorem part_crpCtrlWrite {h value} (hc : P ≠ .clocks) (hp : P ≠ .platform) (hu : P ≠ .units) (hs : P ≠ .stores) (hh : P ≠ .host)
    :
    (crpCtrlWrite h value d).part P = d.part P := by
  simp [crpCtrlWrite, hc, hp, hu, hs, hh]

@[simp] theorem part_startFail {h cause} (hp : P ≠ .platform) : (startFail h cause d).part P = d.part P := by simp [startFail, hp]
@[simp] theorem part_failStarting {cause} (hp : P ≠ .platform) : (failStarting cause d).part P = d.part P := by simp [failStarting, hp]
@[simp] theorem part_stageStarting {n} : (stageStarting n d).part P = d.part P := by simp [stageStarting]
@[simp] theorem part_schUpWith {h2m m2h} : (schUpWith h2m m2h d).part P = d.part P := by simp [schUpWith]

@[simp] theorem part_startHost {m f x} (hp : P ≠ .platform) (hs : P ≠ .stores) (hh : P ≠ .host) :
    (startHost m f x d).part P = d.part P := by
  simp [startHost, hp, hs, hh]

@[simp] theorem part_packRated (hu : P ≠ .units) : (packRated d).part P = d.part P := by simp [packRated, hu]

@[simp] theorem part_startMedia {m} (hu : P ≠ .units) (hs : P ≠ .stores) : (startMedia m d).part P = d.part P := by
  simp [startMedia, hu, hs]

@[simp] theorem part_release (hs : P ≠ .stores) (hh : P ≠ .host) : (release d).part P = d.part P := by simp [release, hs, hh]
@[simp] theorem part_mediaClock (hp : P ≠ .platform) : (mediaClock d).part P = d.part P := by simp [mediaClock, hp]

@[simp] theorem part_startTogether {m f x} (hp : P ≠ .platform) (hu : P ≠ .units) (hs : P ≠ .stores) (hh : P ≠ .host) :
    (startTogether m f x d).part P = d.part P := by
  simp [startTogether, hp, hu, hs, hh]

/-! ### The functions of Machine/RegWrite -/

@[simp] theorem part_storeField {f v ones} : (storeField f v ones d).part P = d.part P := by
  unfold storeField
  split <;> simp

@[simp] theorem part_Reg.write {r at0 size value} : (Reg.write r at0 size value d).part P = d.part P := by simp [Reg.write]
@[simp] theorem part_floCtrlWrite {p ch raw} (hu : P ≠ .units) : (floCtrlWrite p ch raw d).part P = d.part P := by simp [floCtrlWrite, hu]

@[simp] theorem part_floRegWrite {p r at0 size value} (hu : P ≠ .units) : (floRegWrite p r at0 size value d).part P = d.part P := by
  simp [floRegWrite, hu]

@[simp] theorem part_fltRegWrite {h r at0 size value} : (fltRegWrite h r at0 size value d).part P = d.part P := by simp [fltRegWrite]

@[simp] theorem part_bothRegWrite {h p r at0 size value} (hc : P ≠ .clocks) (hp : P ≠ .platform) (hu : P ≠ .units) (hs : P ≠ .stores)
    (hh : P ≠ .host) :
    (bothRegWrite h p r at0 size value d).part P = d.part P := by
  unfold bothRegWrite
  repeat' split
  all_goals simp [hc, hp, hu, hs, hh]

@[simp] theorem part_rngRegWrite {fn r at0 size value} (hs : P ≠ .stores) (hh : P ≠ .host) :
    (rngRegWrite fn r at0 size value d).part P = d.part P := by
  simp [rngRegWrite, hs, hh]

@[simp] theorem part_hostOwnWrite {p r at0 size value} (hs : P ≠ .stores) (hh : P ≠ .host) :
    (hostOwnWrite p r at0 size value d).part P = d.part P := by
  simp [hostOwnWrite, hs, hh]

@[simp] theorem part_mbxRegWrite {e r at0 size value} (hs : P ≠ .stores) (hh : P ≠ .host) :
    (mbxRegWrite e r at0 size value d).part P = d.part P := by
  simp [mbxRegWrite, hs, hh]

@[simp] theorem part_epRegWrite {e r at0 size value} : (epRegWrite e r at0 size value d).part P = d.part P := by simp [epRegWrite]

@[simp] theorem part_hostOneWrite {p e r at0 size value} (hc : P ≠ .clocks) (hp : P ≠ .platform) (hu : P ≠ .units) (hs : P ≠ .stores)
    (hh : P ≠ .host) :
    (hostOneWrite p e r at0 size value d).part P = d.part P := by
  simp [hostOneWrite, hc, hp, hu, hs, hh]

@[simp] theorem part_spanWrite {regs f off size v} (hf : ∀ r o n v d, (f r o n v d).part P = d.part P) :
    (spanWrite regs f off size v d).part P = d.part P := by
  have put (off size v : Nat) (d : Dev) : (match regOver regs off with
      | some r => f r (off - r.off) size v d
      | none => d).part P = d.part P := by split <;> simp [hf]
  simp only [spanWrite]
  split
  · rfl
  · split
    · exact put off size v d
    · exact (put _ _ _ _).trans (put _ _ _ _)

@[simp] theorem part_pfWrite {p e off size value} (hc : P ≠ .clocks) (hp : P ≠ .platform) (hu : P ≠ .units) (hs : P ≠ .stores)
    (hh : P ≠ .host) :
    (pfWrite p e off size value d).part P = d.part P := by
  simp [pfWrite, hc, hp, hu, hs, hh]

@[simp] theorem part_vfWrite {fn off size value} (hs : P ≠ .stores) (hh : P ≠ .host) :
    (vfWrite fn off size value d).part P = d.part P := by
  simp [vfWrite, hs, hh]

@[simp] theorem part_vfMseWrite {e on} (hu : P ≠ .units) (hs : P ≠ .stores) (hh : P ≠ .host) : (vfMseWrite e on d).part P = d.part P := by
  simp [vfMseWrite, hu, hs, hh]

@[simp] theorem part_vfEnWrite {e on} (hu : P ≠ .units) (hs : P ≠ .stores) (hh : P ≠ .host) : (vfEnWrite e on d).part P = d.part P := by
  simp [vfEnWrite, hu, hs, hh]

@[simp] theorem part_sriovWrite {e en mse num} (hu : P ≠ .units) (hs : P ≠ .stores) (hh : P ≠ .host) :
    (sriovWrite e en mse num d).part P = d.part P := by
  simp [sriovWrite, hu, hs, hh]

@[simp] theorem part_cfgWrite {fn off size value} (hu : P ≠ .units) (hs : P ≠ .stores) (hh : P ≠ .host) :
    (cfgWrite fn off size value d).part P = d.part P := by
  simp [cfgWrite, hu, hs, hh]

@[simp] theorem part_mirrorWrite {off value} (hs : P ≠ .stores) : (mirrorWrite off value d).part P = d.part P := by simp [mirrorWrite, hs]

@[simp] theorem part_mirrorSend {off value} (hs : P ≠ .stores) (hh : P ≠ .host) : (mirrorSend off value d).part P = d.part P := by
  simp [mirrorSend, hs, hh]

@[simp] theorem part_hldCtrlWrite {p cmd} (hu : P ≠ .units) (hs : P ≠ .stores) (hh : P ≠ .host) :
    (hldCtrlWrite p cmd d).part P = d.part P := by
  simp [hldCtrlWrite, hu, hs, hh]

@[simp] theorem part_scrubProgWrite {value} (hs : P ≠ .stores) : (scrubProgWrite value d).part P = d.part P := by
  simp [scrubProgWrite, hs]

@[simp] theorem part_mediaOneWrite {p r value} (hc : P ≠ .clocks) (hp : P ≠ .platform) (hu : P ≠ .units) (hs : P ≠ .stores)
    (hh : P ≠ .host) :
    (mediaOneWrite p r value d).part P = d.part P := by
  simp [mediaOneWrite, hc, hp, hu, hs, hh]

@[simp] theorem part_mediaWrite {p off size value} (hc : P ≠ .clocks) (hp : P ≠ .platform) (hu : P ≠ .units) (hs : P ≠ .stores)
    (hh : P ≠ .host) :
    (mediaWrite p off size value d).2.part P = d.part P := by
  unfold mediaWrite
  repeat' split
  all_goals simp [hc, hp, hu, hs, hh]

@[simp] theorem part_regWrite {p off size value} (hc : P ≠ .clocks) (hp : P ≠ .platform) (hu : P ≠ .units) (hs : P ≠ .stores)
    (hh : P ≠ .host) :
    (regWrite p off size value d).part P = d.part P := by
  unfold regWrite
  split
  case h_7 h => cases h <;> cases mediaRegAt off <;> cases pfRegAt 0 off <;> simp [hc, hp, hu, hs, hh]
  all_goals simp [hc, hp, hu, hs, hh]

/-! ### The functions of Machine/Manage -/

@[simp] theorem part_answerData {q tag qu c b result} (hs : P ≠ .stores) (hh : P ≠ .host) :
    (answerData q tag qu c b result d).part P = d.part P := by
  simp [answerData, hs, hh]

@[simp] theorem part_needMedia {q tag need f} (hs : P ≠ .stores) (hh : P ≠ .host) (hf : ∀ d, (f d).part P = d.part P) :
    (needMedia q tag need f d).part P = d.part P := by
  simp [needMedia, hf, hs, hh]

@[simp] theorem part_testFailed {unit n} (hs : P ≠ .stores) (hh : P ≠ .host) : (testFailed unit n d).part P = d.part P := by
  unfold testFailed
  split <;> simp [hs, hh]

@[simp] theorem part_injectSource {h src code n t} : (injectSource h src code n t d).part P = d.part P := by simp [injectSource]

/-! ### The functions of Machine/Port -/

@[simp] theorem part_portReply {h status data} : (portReply h status data d).part P = d.part P := by simp [portReply]

@[simp] theorem part_mediaMailbox {op key arg} (hu : P ≠ .units) (hs : P ≠ .stores) (hh : P ≠ .host) :
    (mediaMailbox op key arg d).part P = d.part P := by
  simp [mediaMailbox, hu, hs, hh]

@[simp] theorem part_modIde {e n f} : (modIde e n f d).part P = d.part P := by simp [modIde]

end
end Sys2Proof.Machine
end

section
/-! PROOFS. What each command writes: a part that none of its functions writes is as it was, whatever the command answers. -/

namespace Sys2Proof.Machine

/-- The part of the device that a command leaves; where it answers no next state, that of the state before it. -/
def partAfter (P : Part) (s : State) : Host.Outcome State Fault Refusal → Dev
  | .next t => t.dev.part P
  | _ => s.dev.part P

section
variable {P : Part} {s : State}

@[simp] theorem partAfter_next {t : State} : partAfter P s (.next t) = t.dev.part P := rfl

@[simp] theorem partAfter_ite {c : Prop} [Decidable c] {a b : Host.Outcome State Fault Refusal} :
    partAfter P s (if c then a else b) = if c then partAfter P s a else partAfter P s b := by
  split <;> rfl

theorem partAfter_congr {t : State} (h : t.dev.part P = s.dev.part P) (o : Host.Outcome State Fault Refusal) :
    partAfter P s o = partAfter P t o := by
  cases o with
  | next u => rfl
  | _ => exact h.symm

@[simp] theorem State.part_stored (hh : P ≠ .host) : s.stored.dev.part P = s.dev.part P := by
  unfold State.stored
  split
  · rfl
  · split <;> simp [hh]

/-- A message taken from an inbox keeps what its work keeps: the inbox belongs to no part. -/
theorem part_inTurn {l k b f} (h : ∀ t, partAfter P t (f t) = t.dev.part P) : partAfter P s (inTurn l k b s f) = s.dev.part P := by
  unfold inTurn
  split
  · exact h s
  · split
    · rename_i x rest inbox _
      have taken : (s.dev.modLink l fun e => { e with rx := { e.rx with inbox := rest } }).part P = s.dev.part P := Dev.part_modLink
      exact (partAfter_congr (t := { s with dev := s.dev.modLink l fun e => { e with rx := { e.rx with inbox := rest } } }) taken _).trans
        ((h _).trans taken)
    · rfl

@[simp] theorem part_schTurn {h k m f} (hf : ∀ t, partAfter P t (f t) = t.dev.part P) :
    partAfter P s (schTurn h k m s f) = s.dev.part P :=
  part_inTurn hf

@[simp] theorem part_snowTurn {k m f} (hf : ∀ t, partAfter P t (f t) = t.dev.part P) :
    partAfter P s (snowTurn k m s f) = s.dev.part P :=
  part_inTurn hf

/-! ### The commands of Machine/HostCmd -/

theorem part_execNop {q tag} (hs : P ≠ .stores) (hh : P ≠ .host) : partAfter P s (execNop q tag s) = s.dev.part P := by
  simp [execNop, hs, hh]

/-! ### The commands of Machine/Firn -/

theorem part_execRecordAdmitted (hs : P ≠ .stores) (hh : P ≠ .host) : partAfter P s (execRecordAdmitted s) = s.dev.part P := by
  simp only [execRecordAdmitted, State.ok_eq, partAfter_next]
  repeat' split
  all_goals simp [hs, hh]

/-! ### The commands of Machine/Group -/

theorem part_execAbortRecordOnMedium {fn tag} (hs : P ≠ .stores) (hh : P ≠ .host) :
    partAfter P s (execAbortRecordOnMedium fn tag s) = s.dev.part P := by
  simp only [execAbortRecordOnMedium, State.ok_eq, partAfter_next]
  repeat' split
  all_goals simp [hs, hh]

theorem part_execGroupTimeout {fn tag} (hs : P ≠ .stores) (hh : P ≠ .host) :
    partAfter P s (execGroupTimeout fn tag s) = s.dev.part P := by
  unfold execGroupTimeout
  repeat' split
  all_goals simp [hs, hh]

theorem part_execTombstoneExpiry {fn tag} (hs : P ≠ .stores) : partAfter P s (execTombstoneExpiry fn tag s) = s.dev.part P := by
  simp [execTombstoneExpiry, hs]

theorem part_execGroupOpen {q tag} (hs : P ≠ .stores) (hh : P ≠ .host) : partAfter P s (execGroupOpen q tag s) = s.dev.part P := by
  simp only [execGroupOpen, State.ok_eq, partAfter_next]
  repeat' split
  all_goals simp [hs, hh]

theorem part_execGroupSeal {q tag} (hs : P ≠ .stores) (hh : P ≠ .host) : partAfter P s (execGroupSeal q tag s) = s.dev.part P := by
  simp only [execGroupSeal, State.ok_eq, partAfter_next]
  split
  · rw [part_modGroup hs]
    refine part_runCmd hs hh fun qu c d => ?_
    split <;> simp [hs, hh]
  · refine part_runCmd hs hh fun qu c d => ?_
    split <;> simp [hs, hh]

theorem part_execGroupDiscard {q tag} (hs : P ≠ .stores) (hh : P ≠ .host) : partAfter P s (execGroupDiscard q tag s) = s.dev.part P := by
  simp only [execGroupDiscard, State.ok_eq, partAfter_next]
  refine part_runCmd hs hh fun qu c d => ?_
  repeat' split
  all_goals simp [hs, hh]

theorem part_execGroupQuery {q tag} (hs : P ≠ .stores) (hh : P ≠ .host) : partAfter P s (execGroupQuery q tag s) = s.dev.part P := by
  simp [execGroupQuery, hs, hh]

theorem part_execGroupSealProceed {fn tag} (hs : P ≠ .stores) (hh : P ≠ .host) :
    partAfter P s (execGroupSealProceed fn tag s) = s.dev.part P := by
  simp only [execGroupSealProceed, State.ok_eq, partAfter_next]
  repeat' split
  all_goals simp [hs, hh]

theorem part_execGroupCommit {fn tag} (hs : P ≠ .stores) (hh : P ≠ .host) : partAfter P s (execGroupCommit fn tag s) = s.dev.part P := by
  simp only [execGroupCommit, State.ok_eq, partAfter_next]
  repeat' split
  all_goals simp [hs, hh]

/-! ### The commands of Machine/Rings -/

theorem part_execDoorbellWrite {fn off size value} (hh : P ≠ .host) :
    partAfter P s (execDoorbellWrite fn off size value s) = s.dev.part P := by
  simp only [execDoorbellWrite, State.ok_eq, partAfter_next]
  repeat' split
  all_goals simp [hh]

theorem part_execRingFetchGrant {pick} (hh : P ≠ .host) : partAfter P s (execRingFetchGrant pick s) = s.dev.part P := by
  simp only [execRingFetchGrant, State.ok_eq, partAfter_next]
  split <;> rename_i h
  · simp [part_snd_eq h]
  · split <;> simp [part_snd_eq h, hh]

theorem part_execCoalescingTimeout {q} (hh : P ≠ .host) : partAfter P s (execCoalescingTimeout q s) = s.dev.part P := by
  unfold execCoalescingTimeout
  repeat' split
  all_goals simp [hh]

theorem part_execQueueCreate {q tag} (hs : P ≠ .stores) (hh : P ≠ .host) : partAfter P s (execQueueCreate q tag s) = s.dev.part P := by
  simp only [execQueueCreate, State.ok_eq, partAfter_next]
  refine part_runCmd hs hh fun qu c d => ?_
  repeat' split
  all_goals simp [hs, hh]

theorem part_execEventRingSet {q tag} (hs : P ≠ .stores) (hh : P ≠ .host) : partAfter P s (execEventRingSet q tag s) = s.dev.part P := by
  simp [execEventRingSet, hs, hh]

theorem part_execRngEvHeadWrite {fn value} : partAfter P s (execRngEvHeadWrite fn value s) = s.dev.part P := by simp [execRngEvHeadWrite]

theorem part_execQpoolAssign {q tag} (hs : P ≠ .stores) (hh : P ≠ .host) : partAfter P s (execQpoolAssign q tag s) = s.dev.part P := by
  simp only [execQpoolAssign, State.ok_eq, partAfter_next]
  refine part_runCmd hs hh fun qu c d => ?_
  repeat' split
  all_goals simp [hs, hh]

theorem part_execTenantWeight {q tag} (hs : P ≠ .stores) (hh : P ≠ .host) : partAfter P s (execTenantWeight q tag s) = s.dev.part P := by
  simp [execTenantWeight, hs, hh]

theorem part_execClassAEvents {q tag} (hs : P ≠ .stores) (hh : P ≠ .host) : partAfter P s (execClassAEvents q tag s) = s.dev.part P := by
  simp [execClassAEvents, hs, hh]

/-! ### The commands of Machine/Rime -/

theorem part_execNoiseHealthFail : partAfter P s (execNoiseHealthFail s) = s.dev.part P := by simp [execNoiseHealthFail]

theorem part_execEntropyRestored (hh : P ≠ .host) : partAfter P s (execEntropyRestored s) = s.dev.part P := by
  simp [execEntropyRestored, hh]

theorem part_execDrbgReseed (hh : P ≠ .host) : partAfter P s (execDrbgReseed s) = s.dev.part P := by simp [execDrbgReseed, hh]
theorem part_execGcmResume {slice} (hh : P ≠ .host) : partAfter P s (execGcmResume slice s) = s.dev.part P := by simp [execGcmResume, hh]
theorem part_execQuarRelease {path mask} : partAfter P s (execQuarRelease path mask s) = s.dev.part P := by simp [execQuarRelease]

theorem part_execKeyLoad {q tag data slice cmp} (hs : P ≠ .stores) (hh : P ≠ .host) :
    partAfter P s (execKeyLoad q tag data slice cmp s) = s.dev.part P := by
  simp only [execKeyLoad, State.ok_eq, partAfter_next]
  refine part_runCmd hs hh fun qu c d => ?_
  repeat' split
  all_goals simp [hs, hh]

theorem part_execKeyErase {q tag} (hs : P ≠ .stores) (hh : P ≠ .host) : partAfter P s (execKeyErase q tag s) = s.dev.part P := by
  simp [execKeyErase, hs, hh]

theorem part_execKeyEraseDrained {slot} (hs : P ≠ .stores) (hh : P ≠ .host) :
    partAfter P s (execKeyEraseDrained slot s) = s.dev.part P := by
  simp only [execKeyEraseDrained, State.ok_eq, partAfter_next]
  repeat' split
  all_goals simp [hs, hh]

theorem part_execRimZeroize {path value} (hs : P ≠ .stores) (hh : P ≠ .host) :
    partAfter P s (execRimZeroize path value s) = s.dev.part P := by
  unfold execRimZeroize
  repeat' split
  all_goals simp [hs, hh]

theorem part_execDeviceZeroize {q tag} (hs : P ≠ .stores) (hh : P ≠ .host) :
    partAfter P s (execDeviceZeroize q tag s) = s.dev.part P := by
  simp [execDeviceZeroize, hs, hh]

/-! ### The commands of Machine/Neve -/

theorem part_execInvalidate {path} (hh : P ≠ .host) : partAfter P s (execInvalidate path s) = s.dev.part P := by simp [execInvalidate, hh]
theorem part_execInvalidateDone : partAfter P s (execInvalidateDone s) = s.dev.part P := by simp [execInvalidateDone]

theorem part_execIngCfgWrite {path value} (hh : P ≠ .host) : partAfter P s (execIngCfgWrite path value s) = s.dev.part P := by
  simp [execIngCfgWrite, hh]

theorem part_execLendTableCopied {table} (hh : P ≠ .host) : partAfter P s (execLendTableCopied table s) = s.dev.part P := by
  unfold execLendTableCopied
  repeat' split
  all_goals simp [hh]

theorem part_execIngIndexConfigWrite {path off value} : partAfter P s (execIngIndexConfigWrite path off value s) = s.dev.part P := by
  simp [execIngIndexConfigWrite]

/-! ### The commands of Machine/Slices -/

theorem part_execWrite {q tag run} (hs : P ≠ .stores) (hh : P ≠ .host) : partAfter P s (execWrite q tag run s) = s.dev.part P := by
  simp [execWrite, hs, hh]

theorem part_execCompareAndWrite {q tag run} (hs : P ≠ .stores) (hh : P ≠ .host) :
    partAfter P s (execCompareAndWrite q tag run s) = s.dev.part P := by
  simp [execCompareAndWrite, hs, hh]

theorem part_execStreamBlockTimeout {q run} (hs : P ≠ .stores) (hh : P ≠ .host) :
    partAfter P s (execStreamBlockTimeout q run s) = s.dev.part P := by
  simp [execStreamBlockTimeout, hs, hh]

theorem part_execRead {q tag} (hs : P ≠ .stores) (hh : P ≠ .host) : partAfter P s (execRead q tag s) = s.dev.part P := by
  simp only [execRead, State.ok_eq, partAfter_next]
  exact part_runCmd hs hh fun qu c d => part_needSlice hs hh fun d => by simp [hh]

theorem part_execVerify {q tag} (hs : P ≠ .stores) (hh : P ≠ .host) : partAfter P s (execVerify q tag s) = s.dev.part P := by
  simp only [execVerify, State.ok_eq, partAfter_next]
  exact part_runCmd hs hh fun qu c d => part_needSlice hs hh fun d => by simp [hh]

theorem part_execCompare {q tag data} (hs : P ≠ .stores) (hh : P ≠ .host) : partAfter P s (execCompare q tag data s) = s.dev.part P := by
  simp only [execCompare, State.ok_eq, partAfter_next]
  refine part_runCmd hs hh fun qu c d => part_needSlice hs hh fun d => ?_
  repeat' split
  all_goals simp [hs, hh]

theorem part_execWriteZeroes {q tag} (hs : P ≠ .stores) (hh : P ≠ .host) : partAfter P s (execWriteZeroes q tag s) = s.dev.part P := by
  simp [execWriteZeroes, hs, hh]

theorem part_execDeallocate {q tag} (hs : P ≠ .stores) (hh : P ≠ .host) : partAfter P s (execDeallocate q tag s) = s.dev.part P := by
  simp [execDeallocate, hs, hh]

theorem part_execCopy {q tag} (hs : P ≠ .stores) (hh : P ≠ .host) : partAfter P s (execCopy q tag s) = s.dev.part P := by
  simp only [execCopy, State.ok_eq, partAfter_next]
  refine part_runCmd hs hh fun qu c d => ?_
  repeat' split
  all_goals simp [hs, hh]

/-! ### The commands of Machine/HostRx -/

theorem part_execSerialLeaseGrant {slice run} (hs : P ≠ .stores) (hh : P ≠ .host) :
    partAfter P s (execSerialLeaseGrant slice run s) = s.dev.part P := by
  simp only [execSerialLeaseGrant, State.ok_eq, partAfter_next]
  repeat' split
  all_goals simp [hs, hh]

theorem part_execNonceLeaseGrant {slot} (hs : P ≠ .stores) (hh : P ≠ .host) :
    partAfter P s (execNonceLeaseGrant slot s) = s.dev.part P := by
  simp only [execNonceLeaseGrant, State.ok_eq, partAfter_next]
  repeat' split
  all_goals simp [hs, hh]

theorem part_execReadPayload {msg run} (hs : P ≠ .stores) (hh : P ≠ .host) :
    partAfter P s (execReadPayload msg run s) = s.dev.part P := by
  simp only [execReadPayload]
  refine part_schTurn fun t => ?_
  simp only [State.ok_eq, partAfter_next]
  repeat' split
  all_goals simp [hs, hh]

theorem part_execReferenceRefused {msg run} (hs : P ≠ .stores) (hh : P ≠ .host) :
    partAfter P s (execReferenceRefused msg run s) = s.dev.part P := by
  simp only [execReferenceRefused]
  refine part_schTurn fun t => ?_
  simp only [State.ok_eq, partAfter_next]
  repeat' split
  all_goals simp [hs, hh]

/-! ### The commands of Machine/Destage -/

theorem part_execStripeCloseTimeout {pool slot} (hs : P ≠ .stores) (hh : P ≠ .host) :
    partAfter P s (execStripeCloseTimeout pool slot s) = s.dev.part P := by
  simp [execStripeCloseTimeout, hs, hh]

theorem part_execIntentMet {pool stripe} (hs : P ≠ .stores) (hh : P ≠ .host) :
    partAfter P s (execIntentMet pool stripe s) = s.dev.part P := by
  simp only [execIntentMet, State.ok_eq, partAfter_next]
  repeat' split
  all_goals simp [hs, hh]

theorem part_execReleaseMet {pool stripe} (hs : P ≠ .stores) (hh : P ≠ .host) :
    partAfter P s (execReleaseMet pool stripe s) = s.dev.part P := by
  simp only [execReleaseMet, State.ok_eq, partAfter_next]
  repeat' split
  all_goals simp [hs, hh]

/-! ### The commands of Machine/ReadMedia -/

theorem part_execDestageStart {pool slot} (hs : P ≠ .stores) (hh : P ≠ .host) :
    partAfter P s (execDestageStart pool slot s) = s.dev.part P := by
  simp only [execDestageStart, State.ok_eq, partAfter_next]
  repeat' split
  all_goals simp [hs, hh]

/-! ### The commands of Machine/MediaRx -/

theorem part_execWriteEnvelope {msg} (hs : P ≠ .stores) (hh : P ≠ .host) : partAfter P s (execWriteEnvelope msg s) = s.dev.part P := by
  simp only [execWriteEnvelope]
  refine part_schTurn fun t => ?_
  simp only [State.ok_eq, partAfter_next]
  refine part_mediaMsg hs hh (fun c x => ?_) fun c => ?_
  · rfl
  · repeat' split
    all_goals simp [hs]

theorem part_execNewChunk {msg} (hs : P ≠ .stores) (hh : P ≠ .host) : partAfter P s (execNewChunk msg s) = s.dev.part P := by
  simp only [execNewChunk]
  refine part_schTurn fun t => ?_
  simp only [State.ok_eq, partAfter_next]
  refine part_mediaMsg hs hh (fun c x => ?_) fun c => ?_
  · repeat' split
    all_goals simp [hs]
  · rfl

theorem part_execReferenceChunk {msg} (hs : P ≠ .stores) (hh : P ≠ .host) : partAfter P s (execReferenceChunk msg s) = s.dev.part P := by
  simp only [execReferenceChunk]
  refine part_schTurn fun t => ?_
  simp only [State.ok_eq, partAfter_next]
  refine part_mediaMsg hs hh (fun c x => ?_) fun c => ?_
  · repeat' split
    all_goals simp [hs]
  · rfl

theorem part_execWritePayload {msg} (hs : P ≠ .stores) (hh : P ≠ .host) : partAfter P s (execWritePayload msg s) = s.dev.part P := by
  simp only [execWritePayload]
  refine part_schTurn fun t => ?_
  simp only [State.ok_eq, partAfter_next]
  refine part_mediaMsg hs hh (fun c x => ?_) fun c => ?_
  · repeat' split
    all_goals simp [hs]
  · rfl

theorem part_execReadDescriptor {msg} (hs : P ≠ .stores) (hh : P ≠ .host) : partAfter P s (execReadDescriptor msg s) = s.dev.part P := by
  simp only [execReadDescriptor]
  refine part_schTurn fun t => ?_
  simp only [State.ok_eq, partAfter_next]
  refine part_mediaMsg hs hh (fun c x => ?_) fun c => ?_
  · rfl
  · repeat' split
    all_goals simp [hs, hh]

theorem part_execOtherIo {msg} (hs : P ≠ .stores) (hh : P ≠ .host) : partAfter P s (execOtherIo msg s) = s.dev.part P := by
  simp only [execOtherIo]
  refine part_schTurn fun t => ?_
  simp only [State.ok_eq, partAfter_next]
  refine part_mediaMsg hs hh (fun c x => ?_) fun c => ?_
  · rfl
  · repeat' split
    all_goals simp [hs, hh]

theorem part_execFreezeGroupOperation {msg} (hs : P ≠ .stores) (hh : P ≠ .host) :
    partAfter P s (execFreezeGroupOperation msg s) = s.dev.part P := by
  simp only [execFreezeGroupOperation]
  refine part_schTurn fun t => ?_
  simp only [State.ok_eq, partAfter_next]
  refine part_mediaMsg hs hh (fun c x => ?_) fun c => ?_
  · rfl
  · repeat' split
    all_goals simp [hs]

theorem part_execCompletionMessage {msg lend} (hs : P ≠ .stores) (hh : P ≠ .host) :
    partAfter P s (execCompletionMessage msg lend s) = s.dev.part P := by
  simp only [execCompletionMessage]
  refine part_schTurn fun t => ?_
  simp only [State.ok_eq, partAfter_next]
  repeat' split
  all_goals simp [hs, hh]

theorem part_execLocalCopyWritten {pool seq} (hs : P ≠ .stores) (hh : P ≠ .host) :
    partAfter P s (execLocalCopyWritten pool seq s) = s.dev.part P := by
  simp only [execLocalCopyWritten, State.ok_eq, partAfter_next]
  repeat' split
  all_goals simp [hs, hh]

theorem part_execWriteCommit {pool seq} (hs : P ≠ .stores) (hh : P ≠ .host) :
    partAfter P s (execWriteCommit pool seq s) = s.dev.part P := by
  simp only [execWriteCommit, State.ok_eq, partAfter_next]
  repeat' split
  all_goals simp [hs, hh]

theorem part_execRecordApply {pool} (hs : P ≠ .stores) (hh : P ≠ .host) : partAfter P s (execRecordApply pool s) = s.dev.part P := by
  simp [execRecordApply, hs, hh]

/-! ### The commands of Machine/LinkRx -/

theorem part_execLaneLost {half lane} (hs : P ≠ .stores) (hh : P ≠ .host) : partAfter P s (execLaneLost half lane s) = s.dev.part P := by
  simp [execLaneLost, hs, hh]

theorem part_execSpareAligned {half lane} : partAfter P s (execSpareAligned half lane s) = s.dev.part P := by
  unfold execSpareAligned
  repeat' split
  all_goals simp

theorem part_execSchLaneRetry {path half} : partAfter P s (execSchLaneRetry path half s) = s.dev.part P := by simp [execSchLaneRetry]
theorem part_execLaneRetrained {half lane} : partAfter P s (execLaneRetrained half lane s) = s.dev.part P := by simp [execLaneRetrained]

theorem part_execPeerFatal {half cause} (hs : P ≠ .stores) (hh : P ≠ .host) :
    partAfter P s (execPeerFatal half cause s) = s.dev.part P := by
  simp [execPeerFatal, hs, hh]

theorem part_execSchrundSilenceTimeout {half} (hs : P ≠ .stores) (hh : P ≠ .host) :
    partAfter P s (execSchrundSilenceTimeout half s) = s.dev.part P := by
  simp [execSchrundSilenceTimeout, hs, hh]

theorem part_execForwardedClockLost {both} (hc : P ≠ .clocks) : partAfter P s (execForwardedClockLost both s) = s.dev.part P := by
  simp [execForwardedClockLost, hc]

theorem part_execForwardedClockReturn (hc : P ≠ .clocks) : partAfter P s (execForwardedClockReturn s) = s.dev.part P := by
  simp [execForwardedClockReturn, hc]

theorem part_execClockMarker (hc : P ≠ .clocks) : partAfter P s (execClockMarker s) = s.dev.part P := by simp [execClockMarker, hc]

theorem part_execTimeMark {tb seq} (hc : P ≠ .clocks) (hp : P ≠ .platform) : partAfter P s (execTimeMark tb seq s) = s.dev.part P := by
  simp only [execTimeMark]
  refine part_schTurn fun t => ?_
  simp only [State.ok_eq, partAfter_next]
  repeat' split
  all_goals simp only [part_set_times hc hp]

theorem part_execFaultNotice {half source code count time} (hs : P ≠ .stores) (hh : P ≠ .host) :
    partAfter P s (execFaultNotice half source code count time s) = s.dev.part P := by
  simp [execFaultNotice, hs, hh]

/-! ### The commands of Machine/Ledger -/

theorem part_execMaintRequest {q tag} (hs : P ≠ .stores) (hh : P ≠ .host) : partAfter P s (execMaintRequest q tag s) = s.dev.part P := by
  simp [execMaintRequest, hs, hh]

theorem part_execMaintRelease {q tag good} (hs : P ≠ .stores) (hh : P ≠ .host) :
    partAfter P s (execMaintRelease q tag good s) = s.dev.part P := by
  simp [execMaintRelease, hs, hh]

theorem part_execActivityLimitExpiry {activity good} (hs : P ≠ .stores) (hh : P ≠ .host) :
    partAfter P s (execActivityLimitExpiry activity good s) = s.dev.part P := by
  simp only [execActivityLimitExpiry, State.ok_eq, partAfter_next]
  repeat' split
  all_goals simp [hs, hh]

/-! ### The commands of Machine/Regelation -/

theorem part_execRebuildJobStart {pool} (hs : P ≠ .stores) (hh : P ≠ .host) :
    partAfter P s (execRebuildJobStart pool s) = s.dev.part P := by
  simp [execRebuildJobStart, hs, hh]

theorem part_execRebuildMarkTimer {pool} (hs : P ≠ .stores) (hh : P ≠ .host) :
    partAfter P s (execRebuildMarkTimer pool s) = s.dev.part P := by
  simp only [execRebuildMarkTimer, State.ok_eq, partAfter_next]
  repeat' split
  all_goals simp [hs, hh]

theorem part_execPoolPlacementRetry {pool} (hs : P ≠ .stores) (hh : P ≠ .host) :
    partAfter P s (execPoolPlacementRetry pool s) = s.dev.part P := by
  simp only [execPoolPlacementRetry, State.ok_eq, partAfter_next]
  repeat' split
  all_goals simp [hs, hh]

theorem part_execEvacuationRowCopy {pool member} (hs : P ≠ .stores) (hh : P ≠ .host) :
    partAfter P s (execEvacuationRowCopy pool member s) = s.dev.part P := by
  simp only [execEvacuationRowCopy, State.ok_eq, partAfter_next]
  repeat' split
  all_goals simp [hs, hh]

theorem part_execScrubStripe {pool} (hs : P ≠ .stores) (hh : P ≠ .host) : partAfter P s (execScrubStripe pool s) = s.dev.part P := by
  simp [execScrubStripe, hs, hh]

theorem part_execScrubLate {pool} (hs : P ≠ .stores) : partAfter P s (execScrubLate pool s) = s.dev.part P := by
  simp only [execScrubLate, State.ok_eq, partAfter_next]
  repeat' split
  all_goals simp [hs]

theorem part_execDriveAbsenceTimeout {pool member} (hs : P ≠ .stores) (hh : P ≠ .host) :
    partAfter P s (execDriveAbsenceTimeout pool member s) = s.dev.part P := by
  simp [execDriveAbsenceTimeout, hs, hh]

theorem part_execDivergenceResolve {q tag} (hs : P ≠ .stores) (hh : P ≠ .host) :
    partAfter P s (execDivergenceResolve q tag s) = s.dev.part P := by
  simp [execDivergenceResolve, hs, hh]

/-! ### The commands of Machine/Service -/

theorem part_execReleaseMember {q tag} (hs : P ≠ .stores) (hh : P ≠ .host) :
    partAfter P s (execReleaseMember q tag s) = s.dev.part P := by
  simp [execReleaseMember, hs, hh]

theorem part_execReturnMember {q tag facts good} (hs : P ≠ .stores) (hh : P ≠ .host) :
    partAfter P s (execReturnMember q tag facts good s) = s.dev.part P := by
  simp [execReturnMember, hs, hh]

theorem part_execBind {q tag facts} (hs : P ≠ .stores) (hh : P ≠ .host) : partAfter P s (execBind q tag facts s) = s.dev.part P := by
  simp [execBind, hs, hh]

theorem part_execFwStage {q tag data} (hs : P ≠ .stores) (hh : P ≠ .host) : partAfter P s (execFwStage q tag data s) = s.dev.part P := by
  unfold execFwStage
  repeat' split
  all_goals simp [hs, hh]

theorem part_execFwActivate {q tag} (hs : P ≠ .stores) (hh : P ≠ .host) : partAfter P s (execFwActivate q tag s) = s.dev.part P := by
  simp [execFwActivate, hs, hh]

theorem part_execMemberHeld {pool member} (hs : P ≠ .stores) (hh : P ≠ .host) :
    partAfter P s (execMemberHeld pool member s) = s.dev.part P := by
  simp only [execMemberHeld, State.ok_eq, partAfter_next]
  repeat' split
  all_goals simp [hs, hh]

theorem part_execFwActivateReady {pool member ready good} (hs : P ≠ .stores) (hh : P ≠ .host) :
    partAfter P s (execFwActivateReady pool member ready good s) = s.dev.part P := by
  simp only [execFwActivateReady, State.ok_eq, partAfter_next]
  repeat' split
  all_goals simp [hs, hh]

/-! ### The commands of Machine/Twin -/

theorem part_execLinkLossTimeout (hs : P ≠ .stores) (hh : P ≠ .host) : partAfter P s (execLinkLossTimeout s) = s.dev.part P := by
  simp [execLinkLossTimeout, hs, hh]

theorem part_execWitnessRetry (hs : P ≠ .stores) : partAfter P s (execWitnessRetry s) = s.dev.part P := by
  unfold execWitnessRetry
  repeat' split
  all_goals simp [hs]

theorem part_execSplitTimeout (hs : P ≠ .stores) (hh : P ≠ .host) : partAfter P s (execSplitTimeout s) = s.dev.part P := by
  simp [execSplitTimeout, hs, hh]

theorem part_execWitnessTakeoverWrite (hs : P ≠ .stores) : partAfter P s (execWitnessTakeoverWrite s) = s.dev.part P := by
  simp [execWitnessTakeoverWrite, hs]

theorem part_execReservationPreempt {drive} (hs : P ≠ .stores) : partAfter P s (execReservationPreempt drive s) = s.dev.part P := by
  simp [execReservationPreempt, hs]

theorem part_execSidebandSend : partAfter P s (execSidebandSend s) = s.dev.part P := by simp [execSidebandSend]

theorem part_execSidebandWord {cable word} (hs : P ≠ .stores) (hh : P ≠ .host) :
    partAfter P s (execSidebandWord cable word s) = s.dev.part P := by
  simp only [execSidebandWord, State.ok_eq, partAfter_next]
  repeat' split
  all_goals simp [hs, hh]

theorem part_execSidebandSilent {cable} (hs : P ≠ .stores) : partAfter P s (execSidebandSilent cable s) = s.dev.part P := by
  simp [execSidebandSilent, hs]

theorem part_execEchoSend (hs : P ≠ .stores) (hh : P ≠ .host) : partAfter P s (execEchoSend s) = s.dev.part P := by
  simp [execEchoSend, hs, hh]

theorem part_execEcho {msg} (hs : P ≠ .stores) (hh : P ≠ .host) : partAfter P s (execEcho msg s) = s.dev.part P := by
  simp only [execEcho]
  refine part_snowTurn fun t => ?_
  simp only [State.ok_eq, partAfter_next]
  generalize told : updateMode (t.dev.modTwin _) = u
  have heard : u.part P = t.dev.part P := by simp [← told, hs]
  split
  · exact heard
  · generalize each : u.each (List.range 8) _ = v
    have compared : v.part P = u.part P := by
      rw [← each]
      refine Dev.part_each fun d p => ?_
      split
      · split <;> simp [hs]
      · rfl
    simp [heard, compared, hs, hh]

theorem part_execEchoTimeout (hs : P ≠ .stores) (hh : P ≠ .host) : partAfter P s (execEchoTimeout s) = s.dev.part P := by
  simp [execEchoTimeout, hs, hh]

theorem part_execRecordAckTimeout {pool seq} (hs : P ≠ .stores) (hh : P ≠ .host) :
    partAfter P s (execRecordAckTimeout pool seq s) = s.dev.part P := by
  simp [execRecordAckTimeout, hs, hh]

theorem part_execSelfCheckEnd {ok} (hs : P ≠ .stores) (hh : P ≠ .host) : partAfter P s (execSelfCheckEnd ok s) = s.dev.part P := by
  simp [execSelfCheckEnd, hs, hh]

theorem part_execTbOffsetUpdate (hs : P ≠ .stores) : partAfter P s (execTbOffsetUpdate s) = s.dev.part P := by
  simp [execTbOffsetUpdate, hs]

theorem part_execReportFaultNotice {source time} (hs : P ≠ .stores) (hh : P ≠ .host) :
    partAfter P s (execReportFaultNotice source time s) = s.dev.part P := by
  simp only [execReportFaultNotice]
  refine part_inTurn fun t => ?_
  simp [hs, hh]

theorem part_execReportPathLoss {pool member} (hs : P ≠ .stores) (hh : P ≠ .host) :
    partAfter P s (execReportPathLoss pool member s) = s.dev.part P := by
  simp only [execReportPathLoss]
  refine part_inTurn fun t => ?_
  simp only [State.ok_eq, partAfter_next]
  repeat' split
  all_goals simp [hs, hh]

theorem part_execReportDivergentStripe {pool stripe cause synd agree} (hs : P ≠ .stores) (hh : P ≠ .host) :
    partAfter P s (execReportDivergentStripe pool stripe cause synd agree s) = s.dev.part P := by
  simp only [execReportDivergentStripe]
  refine part_inTurn fun t => ?_
  simp only [State.ok_eq, partAfter_next]
  repeat' split
  all_goals simp [hs, hh]

theorem part_execReportLocatedStrip {pool stripe} (hs : P ≠ .stores) (hh : P ≠ .host) :
    partAfter P s (execReportLocatedStrip pool stripe s) = s.dev.part P := by
  simp only [execReportLocatedStrip]
  refine part_inTurn fun t => ?_
  simp only [State.ok_eq, partAfter_next]
  repeat' split
  all_goals simp [hs, hh]

/-! ### The commands of Machine/TwinLink -/

theorem part_execSnowbridgeLaneLost {lane uncorrectable} (hs : P ≠ .stores) (hh : P ≠ .host) :
    partAfter P s (execSnowbridgeLaneLost lane uncorrectable s) = s.dev.part P := by
  simp [execSnowbridgeLaneLost, hs, hh]

theorem part_execLaneAutoRetrain {lane} (hs : P ≠ .stores) : partAfter P s (execLaneAutoRetrain lane s) = s.dev.part P := by
  simp [execLaneAutoRetrain, hs]

theorem part_execTwnLaneRetry {path} (hs : P ≠ .stores) : partAfter P s (execTwnLaneRetry path s) = s.dev.part P := by
  simp [execTwnLaneRetry, hs]

theorem part_execSnowbridgeLaneTrained {lane} (hs : P ≠ .stores) : partAfter P s (execSnowbridgeLaneTrained lane s) = s.dev.part P := by
  simp [execSnowbridgeLaneTrained, hs]

theorem part_execNak {link lane seqs} (hs : P ≠ .stores) (hh : P ≠ .host) : partAfter P s (execNak link lane seqs s) = s.dev.part P := by
  simp [execNak, hs, hh]

theorem part_execLaneDown {link lane} (hs : P ≠ .stores) (hh : P ≠ .host) : partAfter P s (execLaneDown link lane s) = s.dev.part P := by
  simp only [execLaneDown, State.ok_eq, partAfter_next]
  repeat' split
  all_goals simp [hs, hh]

theorem part_execLaneUp {link logical lane} (hs : P ≠ .stores) : partAfter P s (execLaneUp link logical lane s) = s.dev.part P := by
  unfold execLaneUp
  repeat' split
  all_goals simp [hs]

theorem part_execWidth {link width first} : partAfter P s (execWidth link width first s) = s.dev.part P := by simp [execWidth]

theorem part_execFrameReceived {link lane frame} (hs : P ≠ .stores) (hh : P ≠ .host) :
    partAfter P s (execFrameReceived link lane frame s) = s.dev.part P := by
  simp [execFrameReceived, hs, hh]

/-! ### The commands of Machine/Drives -/

theorem part_execDriveInserted {port place speed width} (hs : P ≠ .stores) :
    partAfter P s (execDriveInserted port place speed width s) = s.dev.part P := by
  simp [execDriveInserted, hs]

theorem part_execDriveReadyTimeout {index} (hs : P ≠ .stores) : partAfter P s (execDriveReadyTimeout index s) = s.dev.part P := by
  simp [execDriveReadyTimeout, hs]

theorem part_execEnumWindowExpiry {pool} (hs : P ≠ .stores) : partAfter P s (execEnumWindowExpiry pool s) = s.dev.part P := by
  simp [execEnumWindowExpiry, hs]

theorem part_execDriveReady {index facts} (hs : P ≠ .stores) (hh : P ≠ .host) :
    partAfter P s (execDriveReady index facts s) = s.dev.part P := by
  simp only [execDriveReady, State.ok_eq, partAfter_next]
  repeat' split
  all_goals simp [hs, hh]

theorem part_execDriveRemoved {index} (hs : P ≠ .stores) (hh : P ≠ .host) : partAfter P s (execDriveRemoved index s) = s.dev.part P := by
  simp only [execDriveRemoved, State.ok_eq, partAfter_next]
  repeat' split
  all_goals simp [hs, hh]

theorem part_execControllerFatalStatus {index} (hs : P ≠ .stores) (hh : P ≠ .host) :
    partAfter P s (execControllerFatalStatus index s) = s.dev.part P := by
  unfold execControllerFatalStatus
  repeat' split
  all_goals simp [hs, hh]

theorem part_execDrvPortCfgWrite {path value} : partAfter P s (execDrvPortCfgWrite path value s) = s.dev.part P := by
  simp [execDrvPortCfgWrite]

theorem part_execClassWeights {q tag} (hs : P ≠ .stores) (hh : P ≠ .host) : partAfter P s (execClassWeights q tag s) = s.dev.part P := by
  simp [execClassWeights, hs, hh]

theorem part_execWitnessSet {q tag peerPorts} (hs : P ≠ .stores) (hh : P ≠ .host) :
    partAfter P s (execWitnessSet q tag peerPorts s) = s.dev.part P := by
  simp only [execWitnessSet, State.ok_eq, partAfter_next]
  refine part_mediaFeature hs hh fun qu c d => ?_
  repeat' split
  all_goals simp [hs, hh]

theorem part_execEnumWindow {q tag} (hs : P ≠ .stores) (hh : P ≠ .host) : partAfter P s (execEnumWindow q tag s) = s.dev.part P := by
  simp [execEnumWindow, hs, hh]

theorem part_execNvmeCompletion {cid sct sc data} (hs : P ≠ .stores) (hh : P ≠ .host) :
    partAfter P s (execNvmeCompletion cid sct sc data s) = s.dev.part P := by
  simp only [execNvmeCompletion, State.ok_eq, partAfter_next]
  repeat' split
  all_goals simp [hs, hh]

theorem part_execNvmeCommandTimeout {cid} (hs : P ≠ .stores) (hh : P ≠ .host) :
    partAfter P s (execNvmeCommandTimeout cid s) = s.dev.part P := by
  simp only [execNvmeCommandTimeout, State.ok_eq, partAfter_next]
  repeat' split
  all_goals simp [hs, hh]

theorem part_execAbortTimeout {cid} (hs : P ≠ .stores) (hh : P ≠ .host) : partAfter P s (execAbortTimeout cid s) = s.dev.part P := by
  simp only [execAbortTimeout, State.ok_eq, partAfter_next]
  repeat' split
  all_goals simp [hs, hh]

theorem part_execReadHedgeTimeout {cid} (hs : P ≠ .stores) (hh : P ≠ .host) :
    partAfter P s (execReadHedgeTimeout cid s) = s.dev.part P := by
  simp only [execReadHedgeTimeout, State.ok_eq, partAfter_next]
  repeat' split
  all_goals simp [hs, hh]

theorem part_execNamespaceNotReadyRetry {cid} (hs : P ≠ .stores) : partAfter P s (execNamespaceNotReadyRetry cid s) = s.dev.part P := by
  simp only [execNamespaceNotReadyRetry, State.ok_eq, partAfter_next]
  repeat' split
  all_goals simp [hs]

theorem part_execMoraineJobComplete {pool stripe engine agree} (hs : P ≠ .stores) (hh : P ≠ .host) :
    partAfter P s (execMoraineJobComplete pool stripe engine agree s) = s.dev.part P := by
  simp only [execMoraineJobComplete, State.ok_eq, partAfter_next]
  repeat' split
  all_goals simp [hs, hh]

theorem part_execEngRelease {path mask} : partAfter P s (execEngRelease path mask s) = s.dev.part P := by simp [execEngRelease]

/-! ### The commands of Machine/Varve -/

theorem part_execSnapCreate {q tag} (hs : P ≠ .stores) (hh : P ≠ .host) : partAfter P s (execSnapCreate q tag s) = s.dev.part P := by
  simp [execSnapCreate, hs, hh]

theorem part_execSnapDelete {q tag} (hs : P ≠ .stores) (hh : P ≠ .host) : partAfter P s (execSnapDelete q tag s) = s.dev.part P := by
  simp [execSnapDelete, hs, hh]

theorem part_execCloneCreate {q tag} (hs : P ≠ .stores) (hh : P ≠ .host) : partAfter P s (execCloneCreate q tag s) = s.dev.part P := by
  simp [execCloneCreate, hs, hh]

theorem part_execNsCreate {q tag} (hs : P ≠ .stores) (hh : P ≠ .host) : partAfter P s (execNsCreate q tag s) = s.dev.part P := by
  simp only [execNsCreate, State.ok_eq, partAfter_next]
  refine part_nsManage hs hh fun qu c n d => ?_
  repeat' split
  all_goals simp

theorem part_execNsDelete {q tag} (hs : P ≠ .stores) (hh : P ≠ .host) : partAfter P s (execNsDelete q tag s) = s.dev.part P := by
  simp only [execNsDelete, State.ok_eq, partAfter_next]
  refine part_nsManage hs hh fun qu c n d => ?_
  repeat' split
  all_goals simp

theorem part_execNsAttach {q tag} (hs : P ≠ .stores) (hh : P ≠ .host) : partAfter P s (execNsAttach q tag s) = s.dev.part P := by
  simp only [execNsAttach, State.ok_eq, partAfter_next]
  refine part_nsManage hs hh fun qu c n d => ?_
  repeat' split
  all_goals simp

theorem part_execNsDetach {q tag} (hs : P ≠ .stores) (hh : P ≠ .host) : partAfter P s (execNsDetach q tag s) = s.dev.part P := by
  simp only [execNsDetach, State.ok_eq, partAfter_next]
  refine part_nsManage hs hh fun qu c n d => ?_
  repeat' split
  all_goals simp

theorem part_execNsSetPack {q tag run} (hs : P ≠ .stores) (hh : P ≠ .host) :
    partAfter P s (execNsSetPack q tag run s) = s.dev.part P := by
  simp only [execNsSetPack, State.ok_eq, partAfter_next]
  refine part_nsManage hs hh fun qu c n d => ?_
  repeat' split
  all_goals simp [hs, hh]

theorem part_execNsResize {q tag} (hs : P ≠ .stores) (hh : P ≠ .host) : partAfter P s (execNsResize q tag s) = s.dev.part P := by
  simp only [execNsResize, State.ok_eq, partAfter_next]
  refine part_nsManage hs hh fun qu c n d => ?_
  repeat' split
  all_goals simp

theorem part_execNsSetFlags {q tag} (hs : P ≠ .stores) (hh : P ≠ .host) : partAfter P s (execNsSetFlags q tag s) = s.dev.part P := by
  simp only [execNsSetFlags, State.ok_eq, partAfter_next]
  refine part_nsManage hs hh fun qu c n d => ?_
  repeat' split
  all_goals simp

theorem part_execPoolGeometry {q tag} (hs : P ≠ .stores) (hh : P ≠ .host) : partAfter P s (execPoolGeometry q tag s) = s.dev.part P := by
  simp [execPoolGeometry, hs, hh]

theorem part_execPrune {pool} (hs : P ≠ .stores) (hh : P ≠ .host) : partAfter P s (execPrune pool s) = s.dev.part P := by
  simp only [execPrune, State.ok_eq, partAfter_next]
  repeat' split
  all_goals simp [hs, hh]

theorem part_execCompaction {pool slot} (hs : P ≠ .stores) (hh : P ≠ .host) :
    partAfter P s (execCompaction pool slot s) = s.dev.part P := by
  simp only [execCompaction, State.ok_eq, partAfter_next]
  repeat' split
  all_goals simp [hs, hh]

/-! ### The commands of Machine/Calving -/

theorem part_execCalveOpen {q tag} (hs : P ≠ .stores) (hh : P ≠ .host) : partAfter P s (execCalveOpen q tag s) = s.dev.part P := by
  simp only [execCalveOpen, State.ok_eq, partAfter_next]
  refine part_runCmd hs hh fun qu c d => ?_
  repeat' split
  all_goals simp [hs, hh]

theorem part_execCalveClose {q tag} (hs : P ≠ .stores) (hh : P ≠ .host) : partAfter P s (execCalveClose q tag s) = s.dev.part P := by
  simp only [execCalveClose, State.ok_eq, partAfter_next]
  refine part_runCmd hs hh fun qu c d => ?_
  repeat' split
  all_goals simp [hs, hh]

theorem part_execCalveMessageWrite {stream run} (hs : P ≠ .stores) (hh : P ≠ .host) :
    partAfter P s (execCalveMessageWrite stream run s) = s.dev.part P := by
  simp only [execCalveMessageWrite, State.ok_eq, partAfter_next]
  split
  · rfl
  · split
    · rfl
    · split
      · simp [hh]
      · simp
      · iterate 6 (split; · simp [hh])
        split
        · simp [hh]
        · split
          · split <;> rename_i asked <;> simp [part_snd_eq asked, hs, hh]
          · split <;> rename_i next
            · simp [part_snd_snd_eq next, hs, hh]
            · split
              · simp [part_snd_snd_eq next, hs, hh]
              · split <;> rename_i taken <;> simp [part_snd_eq taken, part_snd_snd_eq next, hs, hh]

theorem part_execCalveApply {q tag run} (hs : P ≠ .stores) (hh : P ≠ .host) :
    partAfter P s (execCalveApply q tag run s) = s.dev.part P := by
  simp only [execCalveApply, State.ok_eq, partAfter_next]
  refine part_runCmd hs hh fun qu c d => ?_
  repeat' split
  all_goals simp [hs, hh]

theorem part_execVarveOperation {msg} (hs : P ≠ .stores) (hh : P ≠ .host) : partAfter P s (execVarveOperation msg s) = s.dev.part P := by
  simp only [execVarveOperation]
  refine part_schTurn fun t => ?_
  simp only [State.ok_eq, partAfter_next]
  refine part_mediaMsg hs hh (fun c x => ?_) fun c => ?_
  · rfl
  · repeat' split
    all_goals simp [hs, hh]

theorem part_execCalveSave {q tag} (hs : P ≠ .stores) (hh : P ≠ .host) : partAfter P s (execCalveSave q tag s) = s.dev.part P := by
  simp only [execCalveSave, State.ok_eq, partAfter_next]
  refine part_runCmd hs hh fun qu c d => ?_
  split
  · simp [hs, hh]
  · iterate 3 (split; · simp [hs, hh])
    split <;> rename_i saved
    · simp [part_snd_eq saved, hs, hh]
    · split <;> rename_i wrapped
      · simp [part_snd_eq wrapped, apply_ite Prod.snd, part_snd_eq saved, hs, hh]
      · simp [part_snd_eq wrapped, apply_ite Prod.snd, part_snd_eq saved, hs, hh]

theorem part_execCalveRestore {q tag data slice cmp} (hs : P ≠ .stores) (hh : P ≠ .host) :
    partAfter P s (execCalveRestore q tag data slice cmp s) = s.dev.part P := by
  simp only [execCalveRestore, State.ok_eq, partAfter_next]
  refine part_runCmd hs hh fun qu c d => ?_
  split
  · simp [hs, hh]
  · simp [hs, hh]
  · iterate 2 (split; · simp [hs, hh])
    split
    · simp [hs, hh]
    · split <;> rename_i compared
      · simp [part_snd_eq compared, hs, hh]
      · have left := part_snd_eq (P := P) compared
        repeat' split
        all_goals simp [left, hs, hh]

/-! ### The commands of Machine/Holdup -/

theorem part_execConverterWindow {current mv} (hu : P ≠ .units) : partAfter P s (execConverterWindow current mv s) = s.dev.part P := by
  simp [execConverterWindow, hu]

theorem part_execOffsetZeroing {offset} (hu : P ≠ .units) : partAfter P s (execOffsetZeroing offset s) = s.dev.part P := by
  simp [execOffsetZeroing, hu]

theorem part_execTemperatureSample {temp} (hu : P ≠ .units) : partAfter P s (execTemperatureSample temp s) = s.dev.part P := by
  simp [execTemperatureSample, hu]

theorem part_execGapRecovery {mv} (hu : P ≠ .units) : partAfter P s (execGapRecovery mv s) = s.dev.part P := by simp [execGapRecovery, hu]
theorem part_execRestPoint {mv} (hu : P ≠ .units) : partAfter P s (execRestPoint mv s) = s.dev.part P := by simp [execRestPoint, hu]

theorem part_execLearnRestTimeout (hu : P ≠ .units) : partAfter P s (execLearnRestTimeout s) = s.dev.part P := by
  simp [execLearnRestTimeout, hu]

theorem part_execChargeTerminate (hu : P ≠ .units) : partAfter P s (execChargeTerminate s) = s.dev.part P := by
  simp [execChargeTerminate, hu]

theorem part_execHoldupFault {cause} (hu : P ≠ .units) : partAfter P s (execHoldupFault cause s) = s.dev.part P := by
  simp [execHoldupFault, hu]

theorem part_execHoldupFaultClear {cause} (hu : P ≠ .units) : partAfter P s (execHoldupFaultClear cause s) = s.dev.part P := by
  simp [execHoldupFaultClear, hu]

theorem part_execPackAbsent (hu : P ≠ .units) : partAfter P s (execPackAbsent s) = s.dev.part P := by simp [execPackAbsent, hu]

theorem part_execEepromPeriodicRecord {good} (hu : P ≠ .units) : partAfter P s (execEepromPeriodicRecord good s) = s.dev.part P := by
  simp [execEepromPeriodicRecord, hu]

theorem part_execLearnStart {path} (hu : P ≠ .units) : partAfter P s (execLearnStart path s) = s.dev.part P := by
  simp [execLearnStart, hu]

theorem part_execLearnStop {path} (hu : P ≠ .units) : partAfter P s (execLearnStop path s) = s.dev.part P := by simp [execLearnStop, hu]

theorem part_execHldConnect {path} (hu : P ≠ .units) : partAfter P s (execHldConnect path s) = s.dev.part P := by
  simp [execHldConnect, hu]

theorem part_execHldPackChange {path} (hu : P ≠ .units) : partAfter P s (execHldPackChange path s) = s.dev.part P := by
  simp [execHldPackChange, hu]

/-! ### The commands of Machine/Pair -/

theorem part_execRecord {msg} (hs : P ≠ .stores) (hh : P ≠ .host) : partAfter P s (execRecord msg s) = s.dev.part P := by
  simp [execRecord, hs, hh]

theorem part_execRoleSwap {q tag} (hs : P ≠ .stores) (hh : P ≠ .host) : partAfter P s (execRoleSwap q tag s) = s.dev.part P := by
  simp [execRoleSwap, hs, hh]

theorem part_execSwapDrainEnd (hs : P ≠ .stores) (hh : P ≠ .host) : partAfter P s (execSwapDrainEnd s) = s.dev.part P := by
  simp only [execSwapDrainEnd, State.ok_eq, partAfter_next]
  repeat' split
  all_goals simp [hs, hh]

theorem part_execSwap {pools heads} (hs : P ≠ .stores) (hh : P ≠ .host) : partAfter P s (execSwap pools heads s) = s.dev.part P := by
  simp only [execSwap]
  refine part_inTurn fun t => ?_
  simp only [State.ok_eq, partAfter_next]
  repeat' split
  all_goals simp [hs, hh]

theorem part_execAck {msg} (hs : P ≠ .stores) (hh : P ≠ .host) : partAfter P s (execAck msg s) = s.dev.part P := by
  simp only [execAck]
  refine part_snowTurn fun t => ?_
  simp only [State.ok_eq, partAfter_next]
  repeat' split
  all_goals simp [hs, hh]

theorem part_execRefuse {msg} (hs : P ≠ .stores) (hh : P ≠ .host) : partAfter P s (execRefuse msg s) = s.dev.part P := by
  simp only [execRefuse]
  refine part_snowTurn fun t => ?_
  simp only [State.ok_eq, partAfter_next]
  repeat' split
  all_goals simp [hs, hh]

theorem part_execPairingStart (hs : P ≠ .stores) (hh : P ≠ .host) : partAfter P s (execPairingStart s) = s.dev.part P := by
  simp [execPairingStart, hs, hh]

theorem part_execPair {msg} (hs : P ≠ .stores) (hh : P ≠ .host) : partAfter P s (execPair msg s) = s.dev.part P := by
  simp [execPair, hs, hh]

theorem part_execRejoin {path} (hs : P ≠ .stores) (hh : P ≠ .host) : partAfter P s (execRejoin path s) = s.dev.part P := by
  simp [execRejoin, hs, hh]

theorem part_execRecon {msg} (hs : P ≠ .stores) (hh : P ≠ .host) : partAfter P s (execRecon msg s) = s.dev.part P := by
  simp only [execRecon]
  refine part_snowTurn fun t => ?_
  simp only [State.ok_eq, partAfter_next]
  repeat' split
  all_goals simp [hs, hh]

theorem part_execReconcileStepEnd (hs : P ≠ .stores) (hh : P ≠ .host) : partAfter P s (execReconcileStepEnd s) = s.dev.part P := by
  simp [execReconcileStepEnd, hs, hh]

theorem part_execResyncEnd (hs : P ≠ .stores) (hh : P ≠ .host) : partAfter P s (execResyncEnd s) = s.dev.part P := by
  simp [execResyncEnd, hs, hh]

theorem part_execLinkGcmWrite {path value} (hs : P ≠ .stores) (hh : P ≠ .host) :
    partAfter P s (execLinkGcmWrite path value s) = s.dev.part P := by
  simp [execLinkGcmWrite, hs, hh]

/-! ### The commands of Machine/Dump -/

theorem part_execFrnDump {path value} (hu : P ≠ .units) (hs : P ≠ .stores) (hh : P ≠ .host) :
    partAfter P s (execFrnDump path value s) = s.dev.part P := by
  simp [execFrnDump, hu, hs, hh]

theorem part_execRestoreEnd (hs : P ≠ .stores) (hh : P ≠ .host) : partAfter P s (execRestoreEnd s) = s.dev.part P := by
  simp [execRestoreEnd, hs, hh]

theorem part_execFrnCfgWrite {path value} (hs : P ≠ .stores) : partAfter P s (execFrnCfgWrite path value s) = s.dev.part P := by
  simp [execFrnCfgWrite, hs]

/-! ### The commands of Machine/Floe -/

theorem part_execKick {path ch} (hu : P ≠ .units) : partAfter P s (execKick path ch s) = s.dev.part P := by simp [execKick, hu]
theorem part_execPause {path ch} : partAfter P s (execPause path ch s) = s.dev.part P := by simp [execPause]
theorem part_execResume {path ch} (hu : P ≠ .units) : partAfter P s (execResume path ch s) = s.dev.part P := by simp [execResume, hu]
theorem part_execAbort {path ch} (hu : P ≠ .units) : partAfter P s (execAbort path ch s) = s.dev.part P := by simp [execAbort, hu]
theorem part_execChannelPaused {half ch} : partAfter P s (execChannelPaused half ch s) = s.dev.part P := by simp [execChannelPaused]

theorem part_execAbortDrained {half ch} (hu : P ≠ .units) : partAfter P s (execAbortDrained half ch s) = s.dev.part P := by
  simp [execAbortDrained, hu]

theorem part_execDescriptorRead {half ch desc} (hu : P ≠ .units) : partAfter P s (execDescriptorRead half ch desc s) = s.dev.part P := by
  simp [execDescriptorRead, hu]

theorem part_execMove {half ch arrived} (hu : P ≠ .units) : partAfter P s (execMove half ch arrived s) = s.dev.part P := by
  unfold execMove
  repeat' split
  all_goals simp [hu]

theorem part_execLoop {half ch instr} (hu : P ≠ .units) : partAfter P s (execLoop half ch instr s) = s.dev.part P := by
  simp [execLoop, hu]

theorem part_execWait {half ch instr} (hu : P ≠ .units) : partAfter P s (execWait half ch instr s) = s.dev.part P := by
  simp [execWait, hu]

theorem part_execSignal {half ch instr} (hu : P ≠ .units) : partAfter P s (execSignal half ch instr s) = s.dev.part P := by
  simp [execSignal, hu]

theorem part_execEndInstr {half ch instr} (hu : P ≠ .units) : partAfter P s (execEndInstr half ch instr s) = s.dev.part P := by
  simp [execEndInstr, hu]

theorem part_execFloeBurstGrant {half} (hu : P ≠ .units) : partAfter P s (execFloeBurstGrant half s) = s.dev.part P := by
  simp [execFloeBurstGrant, hu]

theorem part_execWriteResponse {half ch} (hu : P ≠ .units) : partAfter P s (execWriteResponse half ch s) = s.dev.part P := by
  simp only [execWriteResponse, State.ok_eq, partAfter_next]
  repeat' split
  all_goals simp [hu]

theorem part_execBusError {half ch} (hu : P ≠ .units) : partAfter P s (execBusError half ch s) = s.dev.part P := by
  simp [execBusError, hu]

theorem part_execWaitTimeout {half ch} (hu : P ≠ .units) : partAfter P s (execWaitTimeout half ch s) = s.dev.part P := by
  simp [execWaitTimeout, hu]

theorem part_execFloSwreq {path value} (hu : P ≠ .units) : partAfter P s (execFloSwreq path value s) = s.dev.part P := by
  simp [execFloSwreq, hu]

theorem part_execFloEventSet {path value} (hu : P ≠ .units) : partAfter P s (execFloEventSet path value s) = s.dev.part P := by
  simp [execFloEventSet, hu]

theorem part_execFloEventClr {path value} (hu : P ≠ .units) : partAfter P s (execFloEventClr path value s) = s.dev.part P := by
  simp [execFloEventClr, hu]

theorem part_execFloChConfigWrite {path off size value} : partAfter P s (execFloChConfigWrite path off size value s) = s.dev.part P := by
  simp [execFloChConfigWrite]

/-! ### The commands of Machine/Reset -/

theorem part_execQueueReset {q tag} (hs : P ≠ .stores) (hh : P ≠ .host) : partAfter P s (execQueueReset q tag s) = s.dev.part P := by
  simp [execQueueReset, hs, hh]

theorem part_execQueueDelete {q tag} (hs : P ≠ .stores) (hh : P ≠ .host) : partAfter P s (execQueueDelete q tag s) = s.dev.part P := by
  simp [execQueueDelete, hs, hh]

theorem part_execRngAqCfgWrite {fn value} (hs : P ≠ .stores) (hh : P ≠ .host) :
    partAfter P s (execRngAqCfgWrite fn value s) = s.dev.part P := by
  simp [execRngAqCfgWrite, hs, hh]

theorem part_execAdminQueueReady {fn} : partAfter P s (execAdminQueueReady fn s) = s.dev.part P := by simp [execAdminQueueReady]

theorem part_execQueueResetDone {q} (hs : P ≠ .stores) (hh : P ≠ .host) : partAfter P s (execQueueResetDone q s) = s.dev.part P := by
  simp [execQueueResetDone, hs, hh]

/-! ### The commands of Machine/Packet -/

theorem part_execPacketFetched {order pkt lists run} (hs : P ≠ .stores) (hh : P ≠ .host) :
    partAfter P s (execPacketFetched order pkt lists run s) = s.dev.part P := by
  simp only [execPacketFetched, State.ok_eq, partAfter_next]
  repeat' split
  all_goals simp [hs, hh]

/-! ### The commands of Machine/Endpoint -/

theorem part_execArbiterGrant {arb waiting} (hs : P ≠ .stores) (hh : P ≠ .host) :
    partAfter P s (execArbiterGrant arb waiting s) = s.dev.part P := by
  simp only [execArbiterGrant, State.ok_eq, partAfter_next]
  split <;> rename_i h <;> simp [part_snd_eq h, hs, hh]

theorem part_execBusMasterEnableClear {fn} (hu : P ≠ .units) (hs : P ≠ .stores) (hh : P ≠ .host) :
    partAfter P s (execBusMasterEnableClear fn s) = s.dev.part P := by
  simp [execBusMasterEnableClear, hu, hs, hh]

theorem part_execBusMasterEnableSet {fn} (hu : P ≠ .units) (hs : P ≠ .stores) (hh : P ≠ .host) :
    partAfter P s (execBusMasterEnableSet fn s) = s.dev.part P := by
  simp [execBusMasterEnableSet, hu, hs, hh]

theorem part_execD3hotEntry {fn} (hs : P ≠ .stores) (hh : P ≠ .host) : partAfter P s (execD3hotEntry fn s) = s.dev.part P := by
  simp [execD3hotEntry, hs, hh]

theorem part_execD0Return {fn} (hu : P ≠ .units) (hs : P ≠ .stores) (hh : P ≠ .host) :
    partAfter P s (execD0Return fn s) = s.dev.part P := by
  simp [execD0Return, hu, hs, hh]

theorem part_execFunctionLevelReset {fn} (hu : P ≠ .units) (hs : P ≠ .stores) (hh : P ≠ .host) :
    partAfter P s (execFunctionLevelReset fn s) = s.dev.part P := by
  simp [execFunctionLevelReset, hu, hs, hh]

theorem part_execFlrComplete {fn} (hs : P ≠ .stores) (hh : P ≠ .host) : partAfter P s (execFlrComplete fn s) = s.dev.part P := by
  simp [execFlrComplete, hs, hh]

theorem part_execVfEnableSet {ep} (hh : P ≠ .host) : partAfter P s (execVfEnableSet ep s) = s.dev.part P := by simp [execVfEnableSet, hh]

theorem part_execVfEnableClear {ep} (hu : P ≠ .units) (hs : P ≠ .stores) (hh : P ≠ .host) :
    partAfter P s (execVfEnableClear ep s) = s.dev.part P := by
  simp [execVfEnableClear, hu, hs, hh]

theorem part_execEndpointLinkUp {ep width speed flit} : partAfter P s (execEndpointLinkUp ep width speed flit s) = s.dev.part P := by
  simp [execEndpointLinkUp]

theorem part_execEndpointReset {ep perst} (hu : P ≠ .units) (hs : P ≠ .stores) (hh : P ≠ .host) :
    partAfter P s (execEndpointReset ep perst s) = s.dev.part P := by
  simp [execEndpointReset, hu, hs, hh]

theorem part_execPerstRelease {ep} : partAfter P s (execPerstRelease ep s) = s.dev.part P := by simp [execPerstRelease]
theorem part_execL1Request {ep sub} : partAfter P s (execL1Request ep sub s) = s.dev.part P := by simp [execL1Request]
theorem part_execL0pNarrow {ep tx} : partAfter P s (execL0pNarrow ep tx s) = s.dev.part P := by simp [execL0pNarrow]
theorem part_execL0pWiden {ep tx} : partAfter P s (execL0pWiden ep tx s) = s.dev.part P := by simp [execL0pWiden]

theorem part_execMsixEntryWrite {fn off size value} : partAfter P s (execMsixEntryWrite fn off size value s) = s.dev.part P := by
  simp [execMsixEntryWrite]

theorem part_execVectorUnmask {fn vector} : partAfter P s (execVectorUnmask fn vector s) = s.dev.part P := by simp [execVectorUnmask]

theorem part_execCompletionTimeout {fn why} (hu : P ≠ .units) (hs : P ≠ .stores) (hh : P ≠ .host) :
    partAfter P s (execCompletionTimeout fn why s) = s.dev.part P := by
  simp [execCompletionTimeout, hu, hs, hh]

theorem part_execRequestError {fn why poisoned} (hu : P ≠ .units) (hs : P ≠ .stores) (hh : P ≠ .host) :
    partAfter P s (execRequestError fn why poisoned s) = s.dev.part P := by
  simp [execRequestError, hu, hs, hh]

theorem part_execPoisonedWrite {fn} : partAfter P s (execPoisonedWrite fn s) = s.dev.part P := by simp [execPoisonedWrite]

theorem part_execIdeCheckFailed {ep stream} : partAfter P s (execIdeCheckFailed ep stream s) = s.dev.part P := by
  simp [execIdeCheckFailed]

/-! ### The commands of Machine/Firmware -/

theorem part_execFwDownload {q tag data} (hs : P ≠ .stores) (hh : P ≠ .host) :
    partAfter P s (execFwDownload q tag data s) = s.dev.part P := by
  unfold execFwDownload
  repeat' split
  all_goals simp [hs, hh]

theorem part_execFwCommit {q tag} (hs : P ≠ .stores) (hh : P ≠ .host) : partAfter P s (execFwCommit q tag s) = s.dev.part P := by
  simp only [execFwCommit, partAfter_next]
  refine (State.part_stored hh).trans (part_runCmd hs hh fun qu c d => ?_)
  repeat' split
  all_goals simp [hs, hh]

theorem part_execActivationResume (hp : P ≠ .platform) (hs : P ≠ .stores) (hh : P ≠ .host) :
    partAfter P s (execActivationResume s) = s.dev.part P := by
  simp only [execActivationResume]
  repeat' split
  all_goals simp [hp, hs, hh]

theorem part_execActivationFallback (hp : P ≠ .platform) (hs : P ≠ .stores) (hh : P ≠ .host) :
    partAfter P s (execActivationFallback s) = s.dev.part P := by
  simp only [execActivationFallback]
  repeat' split
  all_goals simp [hp, hs, hh]

/-! ### The commands of Machine/Nunatak -/

theorem part_execHldDisconnect {path} (hu : P ≠ .units) (hs : P ≠ .stores) (hh : P ≠ .host) :
    partAfter P s (execHldDisconnect path s) = s.dev.part P := by
  simp [execHldDisconnect, hu, hs, hh]

theorem part_execWdogKick {path half} : partAfter P s (execWdogKick path half s) = s.dev.part P := by simp [execWdogKick]

theorem part_execWatchdogExpiry {half} (hp : P ≠ .platform) (hu : P ≠ .units) (hs : P ≠ .stores) (hh : P ≠ .host) :
    partAfter P s (execWatchdogExpiry half s) = s.dev.part P := by
  unfold execWatchdogExpiry
  repeat' split
  all_goals simp [hp, hu, hs, hh]

theorem part_execNewEpoch {path half} : partAfter P s (execNewEpoch path half s) = s.dev.part P := by simp [execNewEpoch]
theorem part_execFltLastGasp {path half} : partAfter P s (execFltLastGasp path half s) = s.dev.part P := by simp [execFltLastGasp]
theorem part_execStormIntervalEnd {half} : partAfter P s (execStormIntervalEnd half s) = s.dev.part P := by simp [execStormIntervalEnd]

theorem part_execFaultEventDeferred {half source} : partAfter P s (execFaultEventDeferred half source s) = s.dev.part P := by
  simp only [execFaultEventDeferred, State.ok_eq, partAfter_next]
  repeat' split
  all_goals simp

theorem part_execMbxStatus {ep key} (hs : P ≠ .stores) (hh : P ≠ .host) : partAfter P s (execMbxStatus ep key s) = s.dev.part P := by
  simp [execMbxStatus, hs, hh]

theorem part_execMbxMediaStatus {ep key} (hs : P ≠ .stores) (hh : P ≠ .host) :
    partAfter P s (execMbxMediaStatus ep key s) = s.dev.part P := by
  simp [execMbxMediaStatus, hs, hh]

theorem part_execMbxDump {ep key} (hs : P ≠ .stores) (hh : P ≠ .host) : partAfter P s (execMbxDump ep key s) = s.dev.part P := by
  simp [execMbxDump, hs, hh]

theorem part_execMbxFence {ep key} (hs : P ≠ .stores) (hh : P ≠ .host) : partAfter P s (execMbxFence ep key s) = s.dev.part P := by
  simp [execMbxFence, hs, hh]

theorem part_execMbxZeroize {ep key} (hs : P ≠ .stores) (hh : P ≠ .host) : partAfter P s (execMbxZeroize ep key s) = s.dev.part P := by
  simp [execMbxZeroize, hs, hh]

theorem part_execMbxPackDisconnect {ep key} (hs : P ≠ .stores) (hh : P ≠ .host) :
    partAfter P s (execMbxPackDisconnect ep key s) = s.dev.part P := by
  simp [execMbxPackDisconnect, hs, hh]

theorem part_execMbxLastGasp {ep key} (hs : P ≠ .stores) (hh : P ≠ .host) : partAfter P s (execMbxLastGasp ep key s) = s.dev.part P := by
  simp [execMbxLastGasp, hs, hh]

theorem part_execManagementRequest {half id req} (hu : P ≠ .units) (hs : P ≠ .stores) (hh : P ≠ .host) :
    partAfter P s (execManagementRequest half id req s) = s.dev.part P := by
  simp [execManagementRequest, hu, hs, hh]

theorem part_execManagementReply {half id status data} (hs : P ≠ .stores) (hh : P ≠ .host) :
    partAfter P s (execManagementReply half id status data s) = s.dev.part P := by
  simp only [execManagementReply]
  refine part_schTurn fun t => ?_
  simp only [State.ok_eq, partAfter_next]
  repeat' split
  all_goals simp [hs, hh]

/-! ### The commands of Machine/Power -/

theorem part_execColdRstPin {half} (hc : P ≠ .clocks) (hp : P ≠ .platform) (hu : P ≠ .units) (hs : P ≠ .stores) (hh : P ≠ .host) :
    partAfter P s (execColdRstPin half s) = s.dev.part P := by
  simp [execColdRstPin, hc, hp, hu, hs, hh]

theorem part_execPwrgdHDeassert (hc : P ≠ .clocks) (hp : P ≠ .platform) (hu : P ≠ .units) (hs : P ≠ .stores) (hh : P ≠ .host) :
    partAfter P s (execPwrgdHDeassert s) = s.dev.part P := by
  simp [execPwrgdHDeassert, hc, hp, hu, hs, hh]

theorem part_execPwrgdMDeassert (hc : P ≠ .clocks) (hp : P ≠ .platform) (hu : P ≠ .units) (hs : P ≠ .stores) (hh : P ≠ .host) :
    partAfter P s (execPwrgdMDeassert s) = s.dev.part P := by
  simp [execPwrgdMDeassert, hc, hp, hu, hs, hh]

theorem part_execDumpEnd (hc : P ≠ .clocks) (hp : P ≠ .platform) (hu : P ≠ .units) (hs : P ≠ .stores) (hh : P ≠ .host) :
    partAfter P s (execDumpEnd s) = s.dev.part P := by
  simp [execDumpEnd, hc, hp, hu, hs, hh]

theorem part_execAlwaysOnRailLoss {half} (hc : P ≠ .clocks) (hp : P ≠ .platform) (hu : P ≠ .units) (hs : P ≠ .stores) (hh : P ≠ .host) :
    partAfter P s (execAlwaysOnRailLoss half s) = s.dev.part P := by
  simp [execAlwaysOnRailLoss, hc, hp, hu, hs, hh]

theorem part_execPowerOn {half} (hc : P ≠ .clocks) (hp : P ≠ .platform) (hu : P ≠ .units) (hs : P ≠ .stores) (hh : P ≠ .host) :
    partAfter P s (execPowerOn half s) = s.dev.part P := by
  unfold execPowerOn
  repeat' split
  all_goals simp [hc, hp, hu, hs, hh]

theorem part_execCrpCold {path half} (hc : P ≠ .clocks) (hp : P ≠ .platform) (hu : P ≠ .units) (hs : P ≠ .stores) (hh : P ≠ .host) :
    partAfter P s (execCrpCold path half s) = s.dev.part P := by
  simp [execCrpCold, hc, hp, hu, hs, hh]

theorem part_execCrpWarm {path half} (hc : P ≠ .clocks) (hp : P ≠ .platform) (hu : P ≠ .units) (hs : P ≠ .stores) (hh : P ≠ .host) :
    partAfter P s (execCrpWarm path half s) = s.dev.part P := by
  simp [execCrpWarm, hc, hp, hu, hs, hh]

theorem part_execSchrundTrainingRetry {facts} (hp : P ≠ .platform) (hu : P ≠ .units) (hs : P ≠ .stores) (hh : P ≠ .host) :
    partAfter P s (execSchrundTrainingRetry facts s) = s.dev.part P := by
  simp only [execSchrundTrainingRetry, State.ok_eq, partAfter_next]
  split
  · exact part_startTogether hp hu hs hh
  · rfl

theorem part_execReferenceLost (hp : P ≠ .platform) : partAfter P s (execReferenceLost s) = s.dev.part P := by
  simp [execReferenceLost, hp]

theorem part_execThermalSample {half tj hbm} (hp : P ≠ .platform) : partAfter P s (execThermalSample half tj hbm s) = s.dev.part P := by
  simp [execThermalSample, hp]

theorem part_execThermalTrip {half} (hc : P ≠ .clocks) (hp : P ≠ .platform) (hu : P ≠ .units) (hs : P ≠ .stores) (hh : P ≠ .host) :
    partAfter P s (execThermalTrip half s) = s.dev.part P := by
  simp [execThermalTrip, hc, hp, hu, hs, hh]

theorem part_execEnergyRecompute (hu : P ≠ .units) (hs : P ≠ .stores) (hh : P ≠ .host) :
    partAfter P s (execEnergyRecompute s) = s.dev.part P := by
  simp [execEnergyRecompute, hu, hs, hh]

/-! ### The commands of Machine/RegWrite -/

theorem part_execRegisterWrite {path off size value} (hc : P ≠ .clocks) (hp : P ≠ .platform) (hu : P ≠ .units) (hs : P ≠ .stores)
    (hh : P ≠ .host) :
    partAfter P s (execRegisterWrite path off size value s) = s.dev.part P := by
  simp [execRegisterWrite, hc, hp, hu, hs, hh]

/-! ### The commands of Machine/Manage -/

theorem part_execIdentify {q tag} (hs : P ≠ .stores) (hh : P ≠ .host) : partAfter P s (execIdentify q tag s) = s.dev.part P := by
  simp only [execIdentify, State.ok_eq, partAfter_next]
  refine part_runCmd hs hh fun qu c d => part_needMedia hs hh fun d => ?_
  repeat' split
  all_goals simp [hs, hh]

theorem part_execLogRead {q tag} (hs : P ≠ .stores) (hh : P ≠ .host) : partAfter P s (execLogRead q tag s) = s.dev.part P := by
  simp only [execLogRead, State.ok_eq, partAfter_next]
  refine part_runCmd hs hh fun qu c d => part_needMedia hs hh fun d => ?_
  repeat' split
  all_goals simp [hs, hh]

theorem part_execFeatureGet {q tag} (hs : P ≠ .stores) (hh : P ≠ .host) : partAfter P s (execFeatureGet q tag s) = s.dev.part P := by
  simp only [execFeatureGet, State.ok_eq, partAfter_next]
  refine part_runCmd hs hh fun qu c d => part_needMedia hs hh fun d => ?_
  repeat' split
  all_goals simp [hs, hh]

theorem part_execMediaReg {q tag} (hc : P ≠ .clocks) (hp : P ≠ .platform) (hu : P ≠ .units) (hs : P ≠ .stores) (hh : P ≠ .host) :
    partAfter P s (execMediaReg q tag s) = s.dev.part P := by
  simp [execMediaReg, hc, hp, hu, hs, hh]

theorem part_execDiagSelftest {q tag stage} (hs : P ≠ .stores) (hh : P ≠ .host) :
    partAfter P s (execDiagSelftest q tag stage s) = s.dev.part P := by
  simp only [execDiagSelftest, State.ok_eq, partAfter_next]
  refine part_runCmd hs hh fun qu c d => ?_
  split
  · simp [hs, hh]
  · refine part_needMedia hs hh fun d => ?_
    repeat' split
    all_goals simp [hs, hh]

theorem part_execDiagInject {q tag} (hs : P ≠ .stores) (hh : P ≠ .host) : partAfter P s (execDiagInject q tag s) = s.dev.part P := by
  simp only [execDiagInject, State.ok_eq, partAfter_next]
  refine part_runCmd hs hh fun qu c d => ?_
  split
  · simp [hs, hh]
  · refine part_needMedia hs hh fun d => ?_
    simp [hs, hh]

theorem part_execCoord {msg} (hs : P ≠ .stores) (hh : P ≠ .host) : partAfter P s (execCoord msg s) = s.dev.part P := by
  simp only [execCoord]
  refine part_snowTurn fun t => ?_
  split
  · rfl
  · split
    · simp [hs, hh]
    · refine (State.part_stored hh).trans ?_
      rw [part_startActivation hs hh, part_settle hs hh]
      exact part_coordNow hs hh fun p n d => part_mirrorWrite hs

/-! ### The commands of Machine/Port -/

theorem part_execStatusRead {half} : partAfter P s (execStatusRead half s) = s.dev.part P := by simp [execStatusRead]

theorem part_execRegRead {half off size} : partAfter P s (execRegRead half off size s) = s.dev.part P := by
  unfold execRegRead
  repeat' split
  all_goals simp

theorem part_execRegWrite {half off size value} (hc : P ≠ .clocks) (hp : P ≠ .platform) (hu : P ≠ .units) (hs : P ≠ .stores)
    (hh : P ≠ .host) :
    partAfter P s (execRegWrite half off size value s) = s.dev.part P := by
  unfold execRegWrite
  repeat' split
  all_goals simp [hc, hp, hu, hs, hh]

theorem part_execI3cMailbox {half op key arg} (hu : P ≠ .units) (hs : P ≠ .stores) (hh : P ≠ .host) :
    partAfter P s (execI3cMailbox half op key arg s) = s.dev.part P := by
  unfold execI3cMailbox
  repeat' split
  all_goals simp [hu, hs, hh]

theorem part_execLedgerRead {half index} : partAfter P s (execLedgerRead half index s) = s.dev.part P := by
  simp only [execLedgerRead, State.ok_eq, partAfter_next, Dev.part_when]
  repeat' split
  all_goals simp

theorem part_execFlashAccess {half bank off len data} : partAfter P s (execFlashAccess half bank off len data s) = s.dev.part P := by
  unfold execFlashAccess
  repeat' split
  all_goals simp

theorem part_execLifecycle {half target hashes revoke} (hs : P ≠ .stores) (hh : P ≠ .host) :
    partAfter P s (execLifecycle half target hashes revoke s) = s.dev.part P := by
  simp [execLifecycle, hs, hh]

theorem part_execDevkey {half key} (hh : P ≠ .host) : partAfter P s (execDevkey half key s) = s.dev.part P := by simp [execDevkey, hh]

theorem part_execMctp {half msg} : partAfter P s (execMctp half msg s) = s.dev.part P := by
  simp only [execMctp, State.ok_eq, partAfter_next]
  repeat' split
  all_goals simp

end

end Sys2Proof.Machine
end

section
/-! PROOFS. The frame of every command: the parts that the lists of the model name for it are as they were. -/

namespace Sys2Proof.Machine

/-- The commands that may change the standing of the forwarded clock. -/
def movesClocks : Instr → Bool
  | .forwardedClockLost _ | .forwardedClockReturn | .clockMarker => true
  | c => movesPlatform c

/-- The one command that samples the straps and the serial number. -/
def samplesStraps : Instr → Bool
  | .startup _ => true
  | _ => false

/-- Whether a command keeps a part, by the lists of the model. -/
def keeps : Part → Instr → Bool
  | .clocks, c => !movesClocks c
  | .straps, c => !samplesStraps c
  | .platform, c => !movesPlatform c
  | .units, c => !movesUnits c
  | .stores, c => keepsStores c
  | .host, c => keepsQueues c

theorem ne_of_keeps {P Q : Part} {c : Instr} (h : keeps P c = true) (h' : keeps Q c = false) : P ≠ Q := by
  rintro rfl
  simp [h] at h'

/-- What a command keeps by the lists, it leaves as it was, whatever it answers. -/
theorem exec_keeps {P : Part} {c : Instr} {s : State} (h : keeps P c = true) : partAfter P s (exec c s) = s.dev.part P := by
  have other {Q : Part} (h' : keeps Q c = false) : P ≠ Q := ne_of_keeps h h'
  cases c with
  | registerWrite => exact part_execRegisterWrite (other rfl) (other rfl) (other rfl) (other rfl) (other rfl)
  | doorbellWrite => exact part_execDoorbellWrite (other rfl)
  | ringFetchGrant => exact part_execRingFetchGrant (other rfl)
  | packetFetched => exact part_execPacketFetched (other rfl) (other rfl)
  | arbiterGrant => exact part_execArbiterGrant (other rfl) (other rfl)
  | coalescingTimeout => exact part_execCoalescingTimeout (other rfl)
  | nop => exact part_execNop (other rfl) (other rfl)
  | write => exact part_execWrite (other rfl) (other rfl)
  | read => exact part_execRead (other rfl) (other rfl)
  | writeZeroes => exact part_execWriteZeroes (other rfl) (other rfl)
  | deallocate => exact part_execDeallocate (other rfl) (other rfl)
  | compare => exact part_execCompare (other rfl) (other rfl)
  | compareAndWrite => exact part_execCompareAndWrite (other rfl) (other rfl)
  | verify => exact part_execVerify (other rfl) (other rfl)
  | copy => exact part_execCopy (other rfl) (other rfl)
  | groupOpen => exact part_execGroupOpen (other rfl) (other rfl)
  | groupSeal => exact part_execGroupSeal (other rfl) (other rfl)
  | groupDiscard => exact part_execGroupDiscard (other rfl) (other rfl)
  | groupQuery => exact part_execGroupQuery (other rfl) (other rfl)
  | snapCreate => exact part_execSnapCreate (other rfl) (other rfl)
  | snapDelete => exact part_execSnapDelete (other rfl) (other rfl)
  | cloneCreate => exact part_execCloneCreate (other rfl) (other rfl)
  | calveOpen => exact part_execCalveOpen (other rfl) (other rfl)
  | calveClose => exact part_execCalveClose (other rfl) (other rfl)
  | calveApply => exact part_execCalveApply (other rfl) (other rfl)
  | calveSave => exact part_execCalveSave (other rfl) (other rfl)
  | calveRestore => exact part_execCalveRestore (other rfl) (other rfl)
  | identify => exact part_execIdentify (other rfl) (other rfl)
  | logRead => exact part_execLogRead (other rfl) (other rfl)
  | featureGet => exact part_execFeatureGet (other rfl) (other rfl)
  | classWeights => exact part_execClassWeights (other rfl) (other rfl)
  | tenantWeight => exact part_execTenantWeight (other rfl) (other rfl)
  | classAEvents => exact part_execClassAEvents (other rfl) (other rfl)
  | poolGeometry => exact part_execPoolGeometry (other rfl) (other rfl)
  | witnessSet => exact part_execWitnessSet (other rfl) (other rfl)
  | enumWindow => exact part_execEnumWindow (other rfl) (other rfl)
  | mediaReg => exact part_execMediaReg (other rfl) (other rfl) (other rfl) (other rfl) (other rfl)
  | fwDownload => exact part_execFwDownload (other rfl) (other rfl)
  | fwCommit => exact part_execFwCommit (other rfl) (other rfl)
  | queueCreate => exact part_execQueueCreate (other rfl) (other rfl)
  | queueDelete => exact part_execQueueDelete (other rfl) (other rfl)
  | queueReset => exact part_execQueueReset (other rfl) (other rfl)
  | queueResetDone => exact part_execQueueResetDone (other rfl) (other rfl)
  | keyLoad => exact part_execKeyLoad (other rfl) (other rfl)
  | keyErase => exact part_execKeyErase (other rfl) (other rfl)
  | keyEraseDrained => exact part_execKeyEraseDrained (other rfl) (other rfl)
  | nsCreate => exact part_execNsCreate (other rfl) (other rfl)
  | nsDelete => exact part_execNsDelete (other rfl) (other rfl)
  | nsAttach => exact part_execNsAttach (other rfl) (other rfl)
  | nsDetach => exact part_execNsDetach (other rfl) (other rfl)
  | nsSetPack => exact part_execNsSetPack (other rfl) (other rfl)
  | nsResize => exact part_execNsResize (other rfl) (other rfl)
  | nsSetFlags => exact part_execNsSetFlags (other rfl) (other rfl)
  | eventRingSet => exact part_execEventRingSet (other rfl) (other rfl)
  | qpoolAssign => exact part_execQpoolAssign (other rfl) (other rfl)
  | maintRequest => exact part_execMaintRequest (other rfl) (other rfl)
  | maintRelease => exact part_execMaintRelease (other rfl) (other rfl)
  | divergenceResolve => exact part_execDivergenceResolve (other rfl) (other rfl)
  | releaseMember => exact part_execReleaseMember (other rfl) (other rfl)
  | returnMember => exact part_execReturnMember (other rfl) (other rfl)
  | bind => exact part_execBind (other rfl) (other rfl)
  | fwStage => exact part_execFwStage (other rfl) (other rfl)
  | fwActivate => exact part_execFwActivate (other rfl) (other rfl)
  | fwActivateReady => exact part_execFwActivateReady (other rfl) (other rfl)
  | roleSwap => exact part_execRoleSwap (other rfl) (other rfl)
  | deviceZeroize => exact part_execDeviceZeroize (other rfl) (other rfl)
  | diagSelftest => exact part_execDiagSelftest (other rfl) (other rfl)
  | diagInject => exact part_execDiagInject (other rfl) (other rfl)
  | streamBlockTimeout => exact part_execStreamBlockTimeout (other rfl) (other rfl)
  | serialLeaseGrant => exact part_execSerialLeaseGrant (other rfl) (other rfl)
  | invalidate => exact part_execInvalidate (other rfl)
  | invalidateDone => exact part_execInvalidateDone
  | quarRelease => exact part_execQuarRelease
  | ingCfgWrite => exact part_execIngCfgWrite (other rfl)
  | ingIndexConfigWrite => exact part_execIngIndexConfigWrite
  | lendTableCopied => exact part_execLendTableCopied (other rfl)
  | gcmResume => exact part_execGcmResume (other rfl)
  | nonceLeaseGrant => exact part_execNonceLeaseGrant (other rfl) (other rfl)
  | noiseHealthFail => exact part_execNoiseHealthFail
  | entropyRestored => exact part_execEntropyRestored (other rfl)
  | drbgReseed => exact part_execDrbgReseed (other rfl)
  | rimZeroize => exact part_execRimZeroize (other rfl) (other rfl)
  | frameReceived => exact part_execFrameReceived (other rfl) (other rfl)
  | nak => exact part_execNak (other rfl) (other rfl)
  | laneDown => exact part_execLaneDown (other rfl) (other rfl)
  | laneUp => exact part_execLaneUp (other rfl)
  | width => exact part_execWidth
  | peerFatal => exact part_execPeerFatal (other rfl) (other rfl)
  | laneLost => exact part_execLaneLost (other rfl) (other rfl)
  | schrundSilenceTimeout => exact part_execSchrundSilenceTimeout (other rfl) (other rfl)
  | schLaneRetry => exact part_execSchLaneRetry
  | laneRetrained => exact part_execLaneRetrained
  | forwardedClockLost => exact part_execForwardedClockLost (other rfl)
  | forwardedClockReturn => exact part_execForwardedClockReturn (other rfl)
  | writePayload => exact part_execWritePayload (other rfl) (other rfl)
  | readPayload => exact part_execReadPayload (other rfl) (other rfl)
  | writeEnvelope => exact part_execWriteEnvelope (other rfl) (other rfl)
  | newChunk => exact part_execNewChunk (other rfl) (other rfl)
  | referenceChunk => exact part_execReferenceChunk (other rfl) (other rfl)
  | readDescriptor => exact part_execReadDescriptor (other rfl) (other rfl)
  | otherIo => exact part_execOtherIo (other rfl) (other rfl)
  | freezeGroupOperation => exact part_execFreezeGroupOperation (other rfl) (other rfl)
  | varveOperation => exact part_execVarveOperation (other rfl) (other rfl)
  | completionMessage => exact part_execCompletionMessage (other rfl) (other rfl)
  | referenceRefused => exact part_execReferenceRefused (other rfl) (other rfl)
  | managementRequest => exact part_execManagementRequest (other rfl) (other rfl) (other rfl)
  | managementReply => exact part_execManagementReply (other rfl) (other rfl)
  | timeMark => exact part_execTimeMark (other rfl) (other rfl)
  | faultNotice => exact part_execFaultNotice (other rfl) (other rfl)
  | recordAdmitted => exact part_execRecordAdmitted (other rfl) (other rfl)
  | localCopyWritten => exact part_execLocalCopyWritten (other rfl) (other rfl)
  | writeCommit => exact part_execWriteCommit (other rfl) (other rfl)
  | recordApply => exact part_execRecordApply (other rfl) (other rfl)
  | destageStart => exact part_execDestageStart (other rfl) (other rfl)
  | stripeCloseTimeout => exact part_execStripeCloseTimeout (other rfl) (other rfl)
  | intentMet => exact part_execIntentMet (other rfl) (other rfl)
  | releaseMet => exact part_execReleaseMet (other rfl) (other rfl)
  | groupSealProceed => exact part_execGroupSealProceed (other rfl) (other rfl)
  | groupCommit => exact part_execGroupCommit (other rfl) (other rfl)
  | groupTimeout => exact part_execGroupTimeout (other rfl) (other rfl)
  | tombstoneExpiry => exact part_execTombstoneExpiry (other rfl)
  | abortRecordOnMedium => exact part_execAbortRecordOnMedium (other rfl) (other rfl)
  | frnDump => exact part_execFrnDump (other rfl) (other rfl) (other rfl)
  | dumpEnd => exact part_execDumpEnd (other rfl) (other rfl) (other rfl) (other rfl) (other rfl)
  | restoreEnd => exact part_execRestoreEnd (other rfl) (other rfl)
  | frnCfgWrite => exact part_execFrnCfgWrite (other rfl)
  | moraineJobComplete => exact part_execMoraineJobComplete (other rfl) (other rfl)
  | engRelease => exact part_execEngRelease
  | driveAbsenceTimeout => exact part_execDriveAbsenceTimeout (other rfl) (other rfl)
  | rebuildJobStart => exact part_execRebuildJobStart (other rfl) (other rfl)
  | rebuildMarkTimer => exact part_execRebuildMarkTimer (other rfl) (other rfl)
  | poolPlacementRetry => exact part_execPoolPlacementRetry (other rfl) (other rfl)
  | scrubStripe => exact part_execScrubStripe (other rfl) (other rfl)
  | scrubLate => exact part_execScrubLate (other rfl)
  | activityLimitExpiry => exact part_execActivityLimitExpiry (other rfl) (other rfl)
  | memberHeld => exact part_execMemberHeld (other rfl) (other rfl)
  | evacuationRowCopy => exact part_execEvacuationRowCopy (other rfl) (other rfl)
  | prune => exact part_execPrune (other rfl) (other rfl)
  | compaction => exact part_execCompaction (other rfl) (other rfl)
  | calveMessageWrite => exact part_execCalveMessageWrite (other rfl) (other rfl)
  | record => exact part_execRecord (other rfl) (other rfl)
  | ack => exact part_execAck (other rfl) (other rfl)
  | refuse => exact part_execRefuse (other rfl) (other rfl)
  | echo => exact part_execEcho (other rfl) (other rfl)
  | reportFaultNotice => exact part_execReportFaultNotice (other rfl) (other rfl)
  | reportPathLoss => exact part_execReportPathLoss (other rfl) (other rfl)
  | reportDivergentStripe => exact part_execReportDivergentStripe (other rfl) (other rfl)
  | reportLocatedStrip => exact part_execReportLocatedStrip (other rfl) (other rfl)
  | coord => exact part_execCoord (other rfl) (other rfl)
  | pair => exact part_execPair (other rfl) (other rfl)
  | recon => exact part_execRecon (other rfl) (other rfl)
  | swap => exact part_execSwap (other rfl) (other rfl)
  | sidebandWord => exact part_execSidebandWord (other rfl) (other rfl)
  | echoSend => exact part_execEchoSend (other rfl) (other rfl)
  | sidebandSend => exact part_execSidebandSend
  | sidebandSilent => exact part_execSidebandSilent (other rfl)
  | echoTimeout => exact part_execEchoTimeout (other rfl) (other rfl)
  | recordAckTimeout => exact part_execRecordAckTimeout (other rfl) (other rfl)
  | linkLossTimeout => exact part_execLinkLossTimeout (other rfl) (other rfl)
  | selfCheckEnd => exact part_execSelfCheckEnd (other rfl) (other rfl)
  | witnessRetry => exact part_execWitnessRetry (other rfl)
  | splitTimeout => exact part_execSplitTimeout (other rfl) (other rfl)
  | witnessTakeoverWrite => exact part_execWitnessTakeoverWrite (other rfl)
  | reservationPreempt => exact part_execReservationPreempt (other rfl)
  | resyncEnd => exact part_execResyncEnd (other rfl) (other rfl)
  | pairingStart => exact part_execPairingStart (other rfl) (other rfl)
  | reconcileStepEnd => exact part_execReconcileStepEnd (other rfl) (other rfl)
  | snowbridgeLaneLost => exact part_execSnowbridgeLaneLost (other rfl) (other rfl)
  | laneAutoRetrain => exact part_execLaneAutoRetrain (other rfl)
  | linkGcmWrite => exact part_execLinkGcmWrite (other rfl) (other rfl)
  | twnLaneRetry => exact part_execTwnLaneRetry (other rfl)
  | rejoin => exact part_execRejoin (other rfl) (other rfl)
  | tbOffsetUpdate => exact part_execTbOffsetUpdate (other rfl)
  | swapDrainEnd => exact part_execSwapDrainEnd (other rfl) (other rfl)
  | activationResume => exact part_execActivationResume (other rfl) (other rfl) (other rfl)
  | activationFallback => exact part_execActivationFallback (other rfl) (other rfl) (other rfl)
  | endpointLinkUp => exact part_execEndpointLinkUp
  | endpointReset => exact part_execEndpointReset (other rfl) (other rfl) (other rfl)
  | busMasterEnableClear => exact part_execBusMasterEnableClear (other rfl) (other rfl) (other rfl)
  | busMasterEnableSet => exact part_execBusMasterEnableSet (other rfl) (other rfl) (other rfl)
  | vfEnableSet => exact part_execVfEnableSet (other rfl)
  | vfEnableClear => exact part_execVfEnableClear (other rfl) (other rfl) (other rfl)
  | functionLevelReset => exact part_execFunctionLevelReset (other rfl) (other rfl) (other rfl)
  | flrComplete => exact part_execFlrComplete (other rfl) (other rfl)
  | d3hotEntry => exact part_execD3hotEntry (other rfl) (other rfl)
  | d0Return => exact part_execD0Return (other rfl) (other rfl) (other rfl)
  | msixEntryWrite => exact part_execMsixEntryWrite
  | vectorUnmask => exact part_execVectorUnmask
  | completionTimeout => exact part_execCompletionTimeout (other rfl) (other rfl) (other rfl)
  | requestError => exact part_execRequestError (other rfl) (other rfl) (other rfl)
  | poisonedWrite => exact part_execPoisonedWrite
  | ideCheckFailed => exact part_execIdeCheckFailed
  | l1Request => exact part_execL1Request
  | l0pNarrow => exact part_execL0pNarrow
  | l0pWiden => exact part_execL0pWiden
  | driveInserted => exact part_execDriveInserted (other rfl)
  | driveReady => exact part_execDriveReady (other rfl) (other rfl)
  | driveReadyTimeout => exact part_execDriveReadyTimeout (other rfl)
  | driveRemoved => exact part_execDriveRemoved (other rfl) (other rfl)
  | nvmeCompletion => exact part_execNvmeCompletion (other rfl) (other rfl)
  | nvmeCommandTimeout => exact part_execNvmeCommandTimeout (other rfl) (other rfl)
  | abortTimeout => exact part_execAbortTimeout (other rfl) (other rfl)
  | readHedgeTimeout => exact part_execReadHedgeTimeout (other rfl) (other rfl)
  | namespaceNotReadyRetry => exact part_execNamespaceNotReadyRetry (other rfl)
  | enumWindowExpiry => exact part_execEnumWindowExpiry (other rfl)
  | drvPortCfgWrite => exact part_execDrvPortCfgWrite
  | kick => exact part_execKick (other rfl)
  | pause => exact part_execPause
  | resume => exact part_execResume (other rfl)
  | abort => exact part_execAbort (other rfl)
  | channelPaused => exact part_execChannelPaused
  | abortDrained => exact part_execAbortDrained (other rfl)
  | descriptorRead => exact part_execDescriptorRead (other rfl)
  | move => exact part_execMove (other rfl)
  | loop => exact part_execLoop (other rfl)
  | wait => exact part_execWait (other rfl)
  | signal => exact part_execSignal (other rfl)
  | endInstr => exact part_execEndInstr (other rfl)
  | floeBurstGrant => exact part_execFloeBurstGrant (other rfl)
  | writeResponse => exact part_execWriteResponse (other rfl)
  | busError => exact part_execBusError (other rfl)
  | waitTimeout => exact part_execWaitTimeout (other rfl)
  | floSwreq => exact part_execFloSwreq (other rfl)
  | floEventSet => exact part_execFloEventSet (other rfl)
  | floEventClr => exact part_execFloEventClr (other rfl)
  | floChConfigWrite => exact part_execFloChConfigWrite
  | converterWindow => exact part_execConverterWindow (other rfl)
  | offsetZeroing => exact part_execOffsetZeroing (other rfl)
  | temperatureSample => exact part_execTemperatureSample (other rfl)
  | gapRecovery => exact part_execGapRecovery (other rfl)
  | restPoint => exact part_execRestPoint (other rfl)
  | learnRestTimeout => exact part_execLearnRestTimeout (other rfl)
  | energyRecompute => exact part_execEnergyRecompute (other rfl) (other rfl) (other rfl)
  | chargeTerminate => exact part_execChargeTerminate (other rfl)
  | holdupFault => exact part_execHoldupFault (other rfl)
  | holdupFaultClear => exact part_execHoldupFaultClear (other rfl)
  | packAbsent => exact part_execPackAbsent (other rfl)
  | eepromPeriodicRecord => exact part_execEepromPeriodicRecord (other rfl)
  | learnStart => exact part_execLearnStart (other rfl)
  | learnStop => exact part_execLearnStop (other rfl)
  | hldDisconnect => exact part_execHldDisconnect (other rfl) (other rfl) (other rfl)
  | hldConnect => exact part_execHldConnect (other rfl)
  | hldPackChange => exact part_execHldPackChange (other rfl)
  | powerOn => exact part_execPowerOn (other rfl) (other rfl) (other rfl) (other rfl) (other rfl)
  | pwrgdHDeassert => exact part_execPwrgdHDeassert (other rfl) (other rfl) (other rfl) (other rfl) (other rfl)
  | pwrgdMDeassert => exact part_execPwrgdMDeassert (other rfl) (other rfl) (other rfl) (other rfl) (other rfl)
  | coldRstPin => exact part_execColdRstPin (other rfl) (other rfl) (other rfl) (other rfl) (other rfl)
  | startup => cases P <;> cases h
  | schrundTrainingRetry => exact part_execSchrundTrainingRetry (other rfl) (other rfl) (other rfl) (other rfl)
  | crpCold => exact part_execCrpCold (other rfl) (other rfl) (other rfl) (other rfl) (other rfl)
  | crpWarm => exact part_execCrpWarm (other rfl) (other rfl) (other rfl) (other rfl) (other rfl)
  | thermalSample => exact part_execThermalSample (other rfl)
  | thermalTrip => exact part_execThermalTrip (other rfl) (other rfl) (other rfl) (other rfl) (other rfl)
  | referenceLost => exact part_execReferenceLost (other rfl)
  | stormIntervalEnd => exact part_execStormIntervalEnd
  | faultEventDeferred => exact part_execFaultEventDeferred
  | watchdogExpiry => exact part_execWatchdogExpiry (other rfl) (other rfl) (other rfl) (other rfl)
  | wdogKick => exact part_execWdogKick
  | newEpoch => exact part_execNewEpoch
  | fltLastGasp => exact part_execFltLastGasp
  | rngEvHeadWrite => exact part_execRngEvHeadWrite
  | rngAqCfgWrite => exact part_execRngAqCfgWrite (other rfl) (other rfl)
  | adminQueueReady => exact part_execAdminQueueReady
  | mbxStatus => exact part_execMbxStatus (other rfl) (other rfl)
  | mbxMediaStatus => exact part_execMbxMediaStatus (other rfl) (other rfl)
  | mbxDump => exact part_execMbxDump (other rfl) (other rfl)
  | mbxFence => exact part_execMbxFence (other rfl) (other rfl)
  | mbxZeroize => exact part_execMbxZeroize (other rfl) (other rfl)
  | mbxPackDisconnect => exact part_execMbxPackDisconnect (other rfl) (other rfl)
  | mbxLastGasp => exact part_execMbxLastGasp (other rfl) (other rfl)
  | statusRead => exact part_execStatusRead
  | regRead => exact part_execRegRead
  | regWrite => exact part_execRegWrite (other rfl) (other rfl) (other rfl) (other rfl) (other rfl)
  | i3cMailbox => exact part_execI3cMailbox (other rfl) (other rfl) (other rfl)
  | ledgerRead => exact part_execLedgerRead
  | flashAccess => exact part_execFlashAccess
  | lifecycle => exact part_execLifecycle (other rfl) (other rfl)
  | devkey => exact part_execDevkey (other rfl)
  | mctp => exact part_execMctp
  | spareAligned => exact part_execSpareAligned
  | clockMarker => exact part_execClockMarker (other rfl)
  | alwaysOnRailLoss => exact part_execAlwaysOnRailLoss (other rfl) (other rfl) (other rfl) (other rfl) (other rfl)
  | perstRelease => exact part_execPerstRelease
  | snowbridgeLaneTrained => exact part_execSnowbridgeLaneTrained (other rfl)
  | controllerFatalStatus => exact part_execControllerFatalStatus (other rfl) (other rfl)

theorem part_of_next {P : Part} {c : Instr} {s t : State} (run : exec c s = .next t) (h : keeps P c = true) :
    t.dev.part P = s.dev.part P := by
  simpa [run] using exec_keeps (s := s) h

theorem movesClocks_eq_false {c : Instr} (h : movesPlatform c = false) (lost : ∀ b, c ≠ .forwardedClockLost b)
    (back : c ≠ .forwardedClockReturn) (mark : c ≠ .clockMarker) : movesClocks c = false := by
  unfold movesClocks
  split
  · exact absurd rfl (lost _)
  · exact absurd rfl back
  · exact absurd rfl mark
  · exact h

theorem samplesStraps_eq_false {c : Instr} (h : ∀ x, c ≠ .startup x) : samplesStraps c = false := by
  unfold samplesStraps
  split
  · exact absurd rfl (h _)
  · rfl

theorem ne_startup_of_movesPlatform {c : Instr} (h : movesPlatform c = false) (x : StartFacts) : c ≠ .startup x := by
  rintro rfl
  cases h

/-! Equal parts, read field by field. -/

theorem PlatformKept.of_part {d t : Dev} (h : t.part .platform = d.part .platform) (hx : t.part .straps = d.part .straps) :
    PlatformKept d t :=
  ⟨(congrArg Dev.tbHost h :), (congrArg Dev.tbMedia h :), (congrArg Dev.power h :), (congrArg Dev.image h :),
    (congrArg Dev.straps hx :), (congrArg Dev.serial hx :)⟩

theorem StoresKept.of_part {d t : Dev} (h : t.part .stores = d.part .stores) : StoresKept d t :=
  ⟨(congrArg Dev.firn h :), (congrArg Dev.ctxs h :), (congrArg Dev.xmap h :), (congrArg Dev.destages h :), (congrArg Dev.reads h :),
    (congrArg Dev.pools h :), (congrArg Dev.maint h :), (congrArg Dev.nss h :), (congrArg Dev.twin h :), (congrArg Dev.drives h :)⟩

theorem HostKept.of_part {d t : Dev} (h : t.part .host = d.part .host) : HostKept d t :=
  ⟨(congrArg Dev.rings h :), (congrArg Dev.streams h :), (congrArg Dev.ingest h :), (congrArg Dev.rime h :),
    (congrArg Dev.staging h :), (congrArg Dev.mbx h :)⟩

/-- Settles O60: no function that a command calls writes a part which the lists say that the command keeps (`exec_keeps`). -/
theorem onlyNamedCommandsChangeAUnit : Obligations.OnlyNamedCommandsChangeAUnit := by
  unfold Obligations.OnlyNamedCommandsChangeAUnit
  refine ⟨fun c s t run h => ?_, fun c s t run h => ?_, fun c s t run h => ?_, fun c s t run h => ?_, fun c s t run h => ?_,
    fun c s t run h lost back mark => ?_⟩
  · have platform := part_of_next (P := .platform) run (by simp [keeps, h])
    have straps := part_of_next (P := .straps) run (by simp [keeps, samplesStraps_eq_false (ne_startup_of_movesPlatform h)])
    exact ⟨.of_part platform straps, (congrArg Dev.thermal platform :)⟩
  · have units := part_of_next (P := .units) run (by simp [keeps, h])
    exact ⟨(congrArg Dev.gauge units :), (congrArg Dev.floe units :)⟩
  · exact .of_part (part_of_next (P := .stores) run h)
  · exact .of_part (part_of_next (P := .host) run h)
  · have straps := part_of_next (P := .straps) run (by simp [keeps, samplesStraps_eq_false h])
    exact ⟨(congrArg Dev.straps straps :), (congrArg Dev.serial straps :)⟩
  · have clocks := part_of_next (P := .clocks) run (by simp [keeps, movesClocks_eq_false h lost back mark])
    exact (congrArg Dev.clocks clocks :)

end Sys2Proof.Machine
end

section
/-! PROOFS. The messages of a write at the media half (R26, R251): one context that is short of chunks, and what a message does to it. -/

namespace Sys2Proof.Machine

/-! ### The one context of the media half -/

section
variable {d : Dev} {x : MCtx} {q tag : Nat}

theorem Dev.ctx_of_only (only : d.ctxs = [x]) (hq : x.q = q) (ht : x.tag = tag) : d.ctx q tag = some x := by
  simp [Dev.ctx, only, hq, ht]

theorem Dev.ctx_eq_none_of_nil (none : d.ctxs = []) : d.ctx q tag = .none := by
  simp [Dev.ctx, none]

theorem Dev.modCtx_ctxs_of_only (only : d.ctxs = [x]) (hq : x.q = q) (ht : x.tag = tag) (f : MCtx → MCtx) :
    (d.modCtx q tag f).ctxs = [f x] := by
  simp [Dev.modCtx, only, hq, ht]

theorem addItem_ctxs_of_only (only : d.ctxs = [x]) (hq : x.q = q) (ht : x.tag = tag) (i : MItem) :
    (addItem q tag i d).ctxs = [{ x with items := x.items ++ [i] }] :=
  Dev.modCtx_ctxs_of_only only hq ht _

theorem chunks_append_le (i : MItem) : ({ x with items := x.items ++ [i] } : MCtx).chunks.length ≤ x.chunks.length + 1 := by
  simp only [MCtx.chunks, List.filter_append, List.length_append]
  exact Nat.add_le_add_left (List.length_filter_le _ [i]) _

theorem openCtx_ctxs_of_nil {m : Msg} {kind : MKind} {snap slba nlb flags opts nchunk : Nat} {src : Nat × Nat × Nat}
    (none : d.ctxs = []) : ∃ x, (openCtx m kind snap slba nlb flags opts nchunk src d).ctxs = [x] ∧ x.q = m.q ∧ x.tag = m.tag ∧
      x.kind = kind ∧ x.nsid = m.nsid ∧ x.slba = slba ∧ x.nlb = nlb ∧ x.nchunk = nchunk ∧ x.items = [] := by
  simp only [openCtx, none, List.filter_nil, List.nil_append]
  exact ⟨_, rfl, rfl, rfl, rfl, rfl, rfl, rfl, rfl, rfl⟩

/-- A change of the items that keeps their places keeps the number of chunks. -/
theorem chunks_map_length {f : MItem → MItem} (h : ∀ i, (f i).ord = i.ord) :
    ({ x with items := x.items.map f } : MCtx).chunks.length = x.chunks.length := by
  simp [MCtx.chunks, List.filter_map, Function.comp_def, h]

end

/-! ### A write that is short of chunks forms no record (R26) -/

theorem complete?_eq_false {cs : List MCtx} {c : MCtx} (m : c ∈ cs) (short : c.chunks.length < c.nchunk) : complete? cs = false := by
  have missing : (cs.all fun c => c.chunks.length == c.nchunk && c.chunks.all (·.settled)) = false :=
    List.all_eq_false.mpr ⟨c, m, by simp [short.ne]⟩
  simp [complete?, missing]

theorem subset_shareBlocks {fuel : Nat} {all l : List MCtx} : l ⊆ shareBlocks fuel all l := by
  induction fuel generalizing l with
  | zero => exact List.Subset.refl l
  | succ n ih =>
    simp only [shareBlocks]
    split
    · exact List.Subset.refl l
    · exact List.Subset.trans (List.subset_append_left _ _) ih

theorem settleOne_of_short {d : Dev} {c : MCtx} (here : d.ctx c.q c.tag = some c) (write : c.kind = .write)
    (short : c.chunks.length < c.nchunk) : settleOne c d = d := by
  have incomplete {fuel all} : complete? (shareBlocks fuel all [c]) = false :=
    complete?_eq_false (subset_shareBlocks (List.mem_singleton_self c)) short
  unfold settleOne
  cases space : d.ns c.nsid with
  | none => simp [here]
  | some n => simp [here, write, incomplete]

theorem noteWaits_ctxs (d : Dev) : (noteWaits d).ctxs = d.ctxs := by
  have stores (f : Firn → Firn) (l : List FRec) : ((d.modFirn f).each l fun d w =>
      (d.bump FRN_CNT_SPACE_WAITS.COUNT 1).when (w.cls == 0 && !w.internal) fun d =>
        fault .media 0x0A 8 3 false (d.set FRN_STATUS.CLASS_A_WAIT)).part .stores = (d.modFirn f).part .stores :=
    Dev.part_each fun d w => by simp
  exact (congrArg Dev.ctxs (stores _ _) :)

theorem settle_ctxs_of_short {d : Dev} {x : MCtx} (only : d.ctxs = [x]) (write : x.kind = .write)
    (short : x.chunks.length < x.nchunk) : (settle d).ctxs = [x] := by
  rw [settle, noteWaits_ctxs, only]
  exact (congrArg Dev.ctxs (settleOne_of_short (Dev.ctx_of_only only rfl rfl) write short)).trans only

/-! ### A message that names a waiting command takes effect (R266) -/

section
variable {m : Msg} {ops : List Nat} {c : Cmd} {x : MCtx} {s : State} {e : Dev} {f : Cmd → MCtx → Option Dev} {first : Cmd → Option Dev}

theorem mediaMsg_joins (ready : Ready.msg m ops c s) (here : s.dev.ctx m.q m.tag = some x) (made : f c x = some e) :
    mediaMsg m ops true f first s.dev = settle e := by
  obtain ⟨⟨up, -⟩, -, names, before⟩ := ready
  simp [mediaMsg, up, names, here, made, Nat.ne_of_lt before, Nat.ne_of_lt (Nat.lt_succ_of_lt before)]

theorem mediaMsg_opens (ready : Ready.msg m ops c s) (made : first c = some e) : mediaMsg m ops false f first s.dev = settle e := by
  obtain ⟨⟨up, -⟩, -, names, before⟩ := ready
  simp [mediaMsg, up, names, made, Nat.ne_of_lt before, Nat.ne_of_lt (Nat.lt_succ_of_lt before)]

theorem schTurn_of_ready (ready : Ready.msg m ops c s) (k : Kind) (g : State → Host.Outcome State Fault Refusal) :
    schTurn .media k m s g = g s := by
  obtain ⟨-, noMail, -, -⟩ := ready
  exact inTurn_nil noMail _ _ _

end

/-! ### The four messages -/

section
variable {m : Msg} {c : Cmd} {x : MCtx} {s : State}

theorem execWriteEnvelope_eq (ready : Ready.msg m [1, 6, 0x52] c s) (none : s.dev.ctxs = []) (ref : m.ref = 0)
    (nsid : m.nsid = pktNsid c.pkt) (op : pktOp c.pkt = 1)
    (args : m.args = [pktSlba c.pkt, pktNlb c.pkt, pktFlags c.pkt, pktOpts c.pkt, pktNlb c.pkt, 1]) :
    execWriteEnvelope m s = s.ok (settle
      (openCtx m .write 0 (pktSlba c.pkt) (pktNlb c.pkt) (pktFlags c.pkt) (pktOpts c.pkt) (pktNlb c.pkt) (0, 0, 0) s.dev)) := by
  rw [execWriteEnvelope, schTurn_of_ready ready]
  exact congrArg s.ok (mediaMsg_opens ready (by simp [ref, nsid, op, args, Dev.ctx_eq_none_of_nil none]))

theorem execNewChunk_eq {ord form len : Nat} (ready : Ready.msg m [1, 6, 0x52] c s) (here : s.dev.ctx m.q m.tag = some x)
    (write : x.kind = .write) (unformed : x.formed = false) (ref : m.ref ≠ 0) (args : m.args = [ord, form, 0, 0, len])
    (within : ord < x.nchunk) (new : ∀ i ∈ x.chunks, i.ord ≠ ord) (least : 1 ≤ form) (most : form ≤ 9) (long : 512 ≤ len)
    (short : len ≤ 16384) : execNewChunk m s =
      s.ok (settle (addItem m.q m.tag ⟨ord, m.ref, false, form, m.ref, 0, len, m.data, none, false⟩ s.dev)) := by
  rw [execNewChunk, schTurn_of_ready ready]
  have noBlock : (form == 0x10) = false := beq_false_of_ne (by omega)
  refine congrArg s.ok (mediaMsg_joins ready here ?_)
  simpa [args, ref, unformed, write, noBlock] using ⟨within, new, Nat.ne_of_gt least, most, long, short⟩

theorem execReferenceChunk_eq {ord : Nat} (ready : Ready.msg m [1, 6, 0x52] c s) (here : s.dev.ctx m.q m.tag = some x)
    (write : x.kind = .write) (unformed : x.formed = false) (args : m.args = [ord]) (within : ord < x.nchunk)
    (new : ∀ i ∈ x.chunks, i.ord ≠ ord) (print : m.ref = 0 ∨ m.data.length = 32) : execReferenceChunk m s =
      s.ok (settle (addItem m.q m.tag ⟨ord, m.ref, true, 0, m.ref, 0, 0, m.data, none, true⟩ s.dev)) := by
  rw [execReferenceChunk, schTurn_of_ready ready]
  refine congrArg s.ok (mediaMsg_joins ready here ?_)
  simpa [args, unformed, write] using ⟨within, new, print.resolve_left⟩

/-- The item of a chunk whose bytes have come. -/
def arrived (ord : Nat) (data : Bytes) (i : MItem) : MItem :=
  if i.ord = ord then { i with bytes := some data, settled := true } else i

@[simp] theorem arrived_ord (ord : Nat) (data : Bytes) (i : MItem) : (arrived ord data i).ord = i.ord := by
  unfold arrived
  split <;> rfl

theorem execWritePayload_eq {i : MItem} (ready : Ready.msg m [1, 6, 0x52] c s) (here : s.dev.ctx m.q m.tag = some x)
    (unformed : x.formed = false) (long : 512 ≤ m.data.length) (short : m.data.length ≤ 16384)
    (first : x.chunks.find? (fun i => !i.isRef && i.id == m.ref && i.form != 0x10 && !i.settled) = some i)
    (fits : i.len = m.data.length) : execWritePayload m s =
      s.ok (settle (s.dev.modCtx m.q m.tag fun c => { c with items := c.items.map (arrived i.ord m.data) })) := by
  rw [execWritePayload, schTurn_of_ready ready]
  refine congrArg s.ok (mediaMsg_joins ready here ?_)
  simp [unformed, first, fits, long.not_gt, short.not_gt]
  rfl

end

/-- Settles O18: the message changes the one context as stated, which then is short of chunks, so that no record is formed of it
(`settle_ctxs_of_short`). -/
theorem writeMessagesFillTheirContext : Obligations.WriteMessagesFillTheirContext := by
  unfold Obligations.WriteMessagesFillTheirContext
  refine ⟨?envelope, ?newChunk, ?reference, ?payload⟩
  case envelope =>
    intro m c s ready none ref nsid op blocks args
    refine ⟨_, execWriteEnvelope_eq ready none ref nsid op args, ?_⟩
    obtain ⟨x, only, hq, ht, write, hn, hs, hb, chunks, empty⟩ := openCtx_ctxs_of_nil none
    refine ⟨x, settle_ctxs_of_short only write ?_, hq, ht, write, hn, hs, hb, chunks, empty⟩
    simpa [MCtx.chunks, empty, chunks] using Nat.lt_of_succ_le blocks
  case newChunk =>
    intro m ord form len c x s ready only ref args within new least most long short
    obtain ⟨only, hq, ht, write, unformed, left⟩ := only
    refine ⟨_, execNewChunk_eq ready (Dev.ctx_of_only only hq ht) write unformed ref args within new least most long short, ?_⟩
    exact settle_ctxs_of_short (addItem_ctxs_of_only only hq ht _) write ((chunks_append_le _).trans_lt left)
  case reference =>
    intro m ord c x s ready only args within new print
    obtain ⟨only, hq, ht, write, unformed, left⟩ := only
    refine ⟨_, execReferenceChunk_eq ready (Dev.ctx_of_only only hq ht) write unformed args within new print, ?_⟩
    exact settle_ctxs_of_short (addItem_ctxs_of_only only hq ht _) write ((chunks_append_le _).trans_lt left)
  case payload =>
    intro m i c x s ready only long short first fits
    obtain ⟨only, hq, ht, write, unformed, left⟩ := only
    obtain ⟨⟨⟨-, same⟩, -⟩, -⟩ : ((i.isRef = false ∧ i.id = m.ref) ∧ i.form ≠ 0x10) ∧ i.settled = false := by
      simpa using List.find?_some first
    have member := List.mem_of_find?_eq_some first
    refine ⟨_, execWritePayload_eq ready (Dev.ctx_of_only only hq ht) unformed long short first fits, _,
      settle_ctxs_of_short (Dev.modCtx_ctxs_of_only only hq ht _) write ?_, arrived i.ord m.data i, ?_, ?_⟩
    · rwa [chunks_map_length (arrived_ord i.ord m.data)]
    · exact List.mem_map_of_mem (List.mem_of_mem_filter member)
    · simp [arrived, same]

end Sys2Proof.Machine
end

section
/-! PROOFS. A cold reset of the host half (R55, R139, R730): the ring engine and the slices stand as at reset. -/

namespace Sys2Proof.Machine

/-- The ring engine and the slices stand as at reset. -/
def HostCleared (d : Dev) : Prop := d.rings = Dev.reset.rings ∧ d.ingest = Dev.reset.ingest

section
variable {d : Dev}

/-- Then every block is with the PF of R55, no VF holds one, and the chunk index is empty (R139). -/
theorem HostCleared.blocks_and_index (h : HostCleared d) :
    (∀ e b, e < 4 → 4096 * e ≤ b → b ≤ 4096 * e + 4095 → d.holder b = 256 * e) ∧ (∀ fn, d.vfBlocks fn = []) ∧
      d.ingest.index = [] ∧ d.ingest.drift = [] := by
  obtain ⟨rings, ingest⟩ := h
  have none : d.rings.owners = [] := congrArg Rings.owners rings
  refine ⟨fun e b _ lo hi => Dev.holder_eq_pf_of_range ?_ lo hi, fun fn => Dev.vfBlocks_eq_nil ?_,
    congrArg Ingest.index ingest, congrArg Ingest.drift ingest⟩
  · rw [none, tget_nil]
  · simp [none]

theorem coldReset_host_cleared (d : Dev) : HostCleared (coldReset .host d) := ⟨rfl, rfl⟩

/-- A half that is not held already is reset (R733). -/
theorem triggerCold_host_cleared (awake : (d.pw .host).held = false) : HostCleared (triggerCold .host d) := by
  rw [triggerCold, if_neg (by simp [awake])]
  exact coldReset_host_cleared d

/-- The supply that goes takes the host half's registers and ledger with it, beyond what its cold reset clears. -/
theorem railLoss_host_cleared (d : Dev) : HostCleared (railLoss .host d) := coldReset_host_cleared d

theorem Dev.pw_eq_of_part {e : Dev} (kept : e.part .platform = d.part .platform) (h : Half) : e.pw h = d.pw h := by
  have power : e.power = d.power := (congrArg Dev.power kept :)
  simp only [Dev.pw, power]

/-- COLD written with its value, where R732 admits it. -/
theorem crpCtrlWrite_host_cleared (awake : (d.pw .host).held = false) (allowed : d.crpAllowed = true) :
    HostCleared (crpCtrlWrite .host 0x0C1D d) := by
  have cold : crpCtrlWrite .host 0x0C1D d = triggerCold .host (activate d.crpActivity d) := by
    simp [crpCtrlWrite, coldWrite, allowed, show bits 0x0C1D 0 16 = 0x0C1D by decide]
  rw [cold]
  have same : (activate d.crpActivity d).pw .host = d.pw .host := Dev.pw_eq_of_part (part_activate nofun nofun) .host
  exact triggerCold_host_cleared (same ▸ awake)

/-- A half that trips is in cold reset, once its trip is reported (R739). -/
def tripCold (h : Half) (d : Dev) : Dev :=
  let d := fault h 7 0 0x10 false d
  let old := (tget d.thermal (halfNum h)).getD Thermal.fresh
  triggerCold h (({ d with thermal := tput d.thermal (halfNum h) { old with tj := none } } : Dev).modPw h
    fun p => { p with tripped := true, tripPulsed := false })

theorem tripCold_host_cleared (awake : (d.pw .host).held = false) : HostCleared (tripCold .host d) := by
  have same : (fault .host 7 0 0x10 false d).pw .host = d.pw .host := Dev.pw_eq_of_part part_fault .host
  unfold tripCold
  generalize fault .host 7 0 0x10 false d = e at same
  exact triggerCold_host_cleared (by rw [Dev.pw_modPw]; exact (congrArg HalfPower.held same).trans awake)

end

theorem exec_thermalTrip (h : Half) (s : State) :
    exec (.thermalTrip h) s = s.ok (if (s.dev.pw h).held then s.dev else tripCold h s.dev) := rfl

theorem exec_crpCold (path : Path) (h : Half) (s : State) :
    exec (.crpCold path h) s = s.ok (if crpWriter path h then crpCtrlWrite h 0x0C1D s.dev else s.dev) := rfl

/-- Settles O54: each of the five kinds comes to `coldReset`, after updates that leave the half not held. -/
theorem aHostColdResetReturnsBlocksAndIndex : Obligations.AHostColdResetReturnsBlocksAndIndex := by
  unfold Obligations.AHostColdResetReturnsBlocksAndIndex
  intro c s which awake
  suffices cleared : ∃ d, exec c s = s.ok d ∧ HostCleared d by
    obtain ⟨d, run, clear⟩ := cleared
    exact ⟨_, run, clear.blocks_and_index⟩
  rcases which with rfl | rfl | rfl | rfl | ⟨path, writer, allowed, rfl⟩
  · exact ⟨_, rfl, triggerCold_host_cleared (by simpa using awake)⟩
  · exact ⟨_, rfl, triggerCold_host_cleared (by simpa using awake)⟩
  · exact ⟨_, (exec_thermalTrip .host s).trans (congrArg s.ok (if_neg (by simp [awake]))), tripCold_host_cleared awake⟩
  · exact ⟨_, rfl, railLoss_host_cleared s.dev⟩
  · exact ⟨_, (exec_crpCold path .host s).trans (congrArg s.ok (if_pos writer)), crpCtrlWrite_host_cleared awake allowed⟩

end Sys2Proof.Machine
end

section
/-! PROOFS. A queue reset (R97) whose queue pair holds a completion that ends that very reset: the reset is over as it begins. -/

namespace Sys2Proof.Machine

/-! ### Completions that are dropped end the resets that wait for them -/

theorem endReset_reset {d : Dev} {t : Nat} (q : Nat) (none : (d.queue t).bind (·.reset) = none) :
    ((d.endReset (some q)).queue t).bind (·.reset) = .none := by
  by_cases h : t = q
  · subst h
    simp [Dev.endReset]
  · simpa [Dev.endReset, Dev.queue_modQ_ne, h] using none

theorem each_endReset_reset {d : Dev} {t : Nat} {l : List Nat} (ends : t ∈ l ∨ (d.queue t).bind (·.reset) = none) :
    ((d.each l fun d q => d.endReset (some q)).queue t).bind (·.reset) = none := by
  induction l generalizing d with
  | nil => simpa [Dev.each] using ends
  | cons q l ih =>
    refine ih ?_
    by_cases h : t = q
    · subst h
      exact .inr (by simp [Dev.endReset])
    · exact (ends.imp_left fun m => (List.mem_cons.mp m).resolve_left h).imp_right (endReset_reset q)

theorem each_endReset_firn {d : Dev} {l : List Nat} : (d.each l fun d q => d.endReset (some q)).firn = d.firn := by
  induction l generalizing d with
  | nil => rfl
  | cons q l ih => exact ih

theorem each_endReset_streams {d : Dev} {l : List Nat} : (d.each l fun d q => d.endReset (some q)).streams = d.streams := by
  induction l generalizing d with
  | nil => rfl
  | cons q l ih => exact ih

theorem discardQueueGroups_of_nil {d : Dev} (none : d.firn.groups = []) (q : Nat) : discardQueueGroups q d = d := by
  simp [discardQueueGroups, none, Dev.each]

theorem closeStreams_of_nil {d : Dev} (none : d.streams = []) (p : Stream → Bool) : closeStreams p d = d := by
  simp [closeStreams, none, Dev.each]

theorem beginReset_reset_none {t : Nat} {ask : Option (Nat × Nat)} {delete : Bool} {d : Dev} {x : Queue} {e : Cqe}
    (here : d.queue t = some x) (idle : x.cmds = []) (held : e ∈ x.held) (frees : e.frees = some t) (groups : d.firn.groups = [])
    (streams : d.streams = []) : ((beginReset t ask delete d).queue t).bind (·.reset) = none := by
  unfold beginReset
  rw [here]
  simp only [idle, List.filter_nil, Dev.each, List.foldl_nil]
  rw [discardQueueGroups_of_nil, closeStreams_of_nil]
  · refine each_endReset_reset (.inl ?_)
    exact List.mem_append_left _ (List.mem_filterMap.mpr ⟨e, held, frees⟩)
  · exact each_endReset_streams.trans streams
  · exact (congrArg Firn.groups each_endReset_firn).trans groups

/-! ### A state in which that happens -/

/-- The host half runs, and the PF of endpoint 0 decodes and may master the bus. -/
def hostInService : Dev := ((Dev.reset.modPw .host fun p => { p with held := false }).set (CFG.MSE 0)).set (CFG.BME 0)

/-- A queue pair of the PF of endpoint 0 that holds a completion which ends the reset of queue pair `q` when it is posted or lost. -/
def holdingFreeing (q : Nat) (admin : Bool) : Queue :=
  { Queue.make 0 16 1 false false 0 0 0 0x10000 0x20000 admin with held := [⟨0, 0, 0, 0, some q⟩] }

/-- Queue pair 0 is an enabled admin queue that holds a completion which ends its own reset. -/
def adminHoldsFreeing : State :=
  { State.reset with dev := (hostInService.addQueue 0 (holdingFreeing 0 true)).set (RNG_AQ_CFG.ENABLE 0) }

/-- A QUEUE_RESET of queue pair 9. -/
def resetOf9 : Cmd :=
  ⟨0, 9#64 ++ 0x88#448, [], 0, .ready, false, false, false, [], [], 0, 0, 0, 0, [], [], 0, [], none, false, 0, false⟩

/-- The admin queue of the PF of endpoint 0 with the QUEUE_RESET. -/
def asksReset : Queue := { Queue.make 0 16 1 false false 0 0 0 0x10000 0x20000 true with cmds := [resetOf9] }

/-- Admin queue 0 has fetched a QUEUE_RESET of queue pair 9, which holds a completion that ends its own reset. -/
def targetHoldsFreeing : State :=
  { State.reset with dev := (hostInService.addQueue 0 asksReset).addQueue 9 (holdingFreeing 9 false) }

theorem adminHoldsFreeing_ready : adminHoldsFreeing.dev.decodes 0 = true ∧ adminHoldsFreeing.dev.rd (RNG_AQ_CFG.ENABLE 0) = 1 ∧
    adminHoldsFreeing.dev.adminOf 0 = some 0 ∧ adminHoldsFreeing.dev.queue 0 = some (holdingFreeing 0 true) := by
  decide

theorem targetHoldsFreeing_ready : Waits [0x88] 0 0 targetHoldsFreeing.dev asksReset resetOf9 ∧
    Ready.reset 0 9 asksReset (holdingFreeing 9 false) resetOf9 targetHoldsFreeing := by
  decide

/-! ### What the two commands make of it -/

theorem exec_queueReset (q tag : Nat) (s : State) : exec (.queueReset q tag) s = s.ok (runReset [0x88] false q tag s.dev) := rfl

theorem exec_rngAqCfgWrite (fn value : Nat) (s : State) :
    exec (.rngAqCfgWrite fn value) s = s.ok (if s.dev.decodes fn then aqCfgWrite fn value s.dev else s.dev) := rfl

theorem Dev.queue_modCmd_ne (d : Dev) {q p : Nat} (h : p ≠ q) (tag : Nat) (f : Cmd → Cmd) :
    (d.modCmd q tag f).queue p = d.queue p := Dev.queue_modQ_ne d _ h

/-- The device once a QUEUE_RESET or QUEUE_DELETE has started: the command waits for the end of the reset. -/
def Dev.resetAsked (d : Dev) (q tag : Nat) : Dev :=
  (d.modCmd q tag fun c => { c with started := true }).modCmd q tag fun c => { c with stage := .hostWork }

theorem Waits.opcode {op q tag : Nat} {d : Dev} {qu : Queue} {c : Cmd} (waits : Waits [op] q tag d qu c) : pktOp c.pkt = op := by
  obtain ⟨-, -, known, -⟩ := waits
  simpa using known

/-- A QUEUE_RESET or QUEUE_DELETE of a queue pair that is at rest begins its reset (R97). -/
theorem runReset_begins {op q tag tq : Nat} {delete : Bool} {s : State} {qu x : Queue} {c : Cmd} (admin : 0x80 ≤ op)
    (waits : Waits [op] q tag s.dev qu c) (ready : Ready.reset q tq qu x c s) :
    runReset [op] delete q tag s.dev = beginReset tq (some (q, tag)) delete (s.dev.resetAsked q tag) := by
  obtain ⟨names, other, holds, plain, here, rest, -⟩ := ready
  have holds' : (s.dev.modCmd q tag fun c => { c with started := true }).holdsQueue qu.fn tq = true := holds
  have plain' : (s.dev.modCmd q tag fun c => { c with started := true }).adminQueue qu.fn ≠ some tq := plain
  rw [runReset, runCmd_waits _ waits (.inl (waits.opcode ▸ admin))]
  simp [names, holds', plain', Dev.queue_modCmd_ne, other, here, rest, Dev.resetAsked]

/-- ENABLE written 0 begins the reset of the admin queue (R785), which may be over with it. -/
theorem aqCfgWrite_reset_none {fn value q : Nat} {x : Queue} {e : Cqe} {d : Dev} (enabled : d.is (RNG_AQ_CFG.ENABLE fn) = true)
    (off : bit value 28 = false) (admin : d.adminOf fn = some q) (here : d.queue q = some x) (rest : x.reset = none) (idle : x.cmds = [])
    (held : e ∈ x.held) (frees : e.frees = some q) (groups : d.firn.groups = []) (streams : d.streams = []) :
    ((aqCfgWrite fn value d).queue q).bind (·.reset) = none := by
  have admin' : (d.clr (RNG_AQ_CFG.ENABLE fn)).adminOf fn = some q := admin
  have here' : (d.clr (RNG_AQ_CFG.ENABLE fn)).queue q = some x := here
  have begins : aqCfgWrite fn value d = beginReset q none true (d.clr (RNG_AQ_CFG.ENABLE fn)) := by
    simp [aqCfgWrite, enabled, off, admin', here', rest]
  rw [begins]
  exact beginReset_reset_none here' idle held frees groups streams

/-- Refutes O8: QUEUE_RESET is to leave the reset of its queue pair running, but where that queue pair holds a completion that ends its own
reset, the reset drops that completion and so is over as it begins (`beginReset_reset_none`); the premises do not exclude it. -/
theorem not_queuePairsAreCreatedResetAndFreed : ¬ Obligations.QueuePairsAreCreatedResetAndFreed := by
  unfold Obligations.QueuePairsAreCreatedResetAndFreed
  rintro ⟨-, -, resets, -⟩
  obtain ⟨waits, ready⟩ := targetHoldsFreeing_ready
  obtain ⟨t, run, x, r, here, runs, -⟩ := resets 0 0 9 asksReset (holdingFreeing 9 false) resetOf9 targetHoldsFreeing waits ready
  rw [exec_queueReset, runReset_begins (by decide) waits ready, State.ok_eq] at run
  obtain rfl := Host.Outcome.next.inj run
  have ended : ((beginReset 9 (some (0, 0)) false (targetHoldsFreeing.dev.resetAsked 0 0)).queue 9).bind (·.reset) = none :=
    beginReset_reset_none (x := holdingFreeing 9 false) (by decide) rfl List.mem_cons_self rfl rfl rfl
  simp [here, runs] at ended

/-- Refutes O43: disabling an admin queue is to leave its reset running, but where the admin queue holds a completion that ends its own
reset, the reset is over as it begins (`beginReset_reset_none`); the premises do not exclude it. -/
theorem not_adminQueueRegistersTakeEffect : ¬ Obligations.AdminQueueRegistersTakeEffect := by
  unfold Obligations.AdminQueueRegistersTakeEffect
  rintro ⟨-, -, -, -, disables, -⟩
  obtain ⟨decodes, enabled, admin, here⟩ := adminHoldsFreeing_ready
  obtain ⟨t, run, -, resets⟩ := disables 0 0 0 (holdingFreeing 0 true) adminHoldsFreeing decodes enabled (by decide) admin here rfl
  rw [exec_rngAqCfgWrite, if_pos decodes, State.ok_eq] at run
  obtain rfl := Host.Outcome.next.inj run
  have ended : ((aqCfgWrite 0 0 adminHoldsFreeing.dev).queue 0).bind (·.reset) = none :=
    aqCfgWrite_reset_none (by simp [enabled, Dev.is]) (by decide) admin here rfl rfl List.mem_cons_self rfl rfl rfl
  obtain ⟨y, here, runs⟩ := (Option.any_eq_true _ _).mp resets
  have none : y.reset = none := by simpa [here] using ended
  simp [none] at runs

end Sys2Proof.Machine
end

section
/-! PROOFS. Updates that leave the queues alone and take back nothing that was sent: what the rest of the module does while a command of a
queue crosses. -/

namespace Sys2Proof.Machine

/-- The ring engine is as it was, and what was sent stays sent. -/
structure Quiet (d e : Dev) : Prop where
  rings : e.rings = d.rings
  out : Grows d e

section
variable {d e : Dev}

/-! ### Composition -/

theorem Quiet.refl (d : Dev) : Quiet d d := ⟨rfl, .refl d⟩

theorem Quiet.trans {f : Dev} (h : Quiet d e) (k : Quiet e f) : Quiet d f := ⟨k.rings.trans h.rings, h.out.trans k.out⟩

theorem Quiet.of_out (rings : e.rings = d.rings) (out : e.out = d.out) : Quiet d e := ⟨rings, .of_eq out⟩

theorem Quiet.ite {c : Prop} [Decidable c] {f : Dev} (h : Quiet d e) (k : Quiet d f) : Quiet d (if c then e else f) := by
  split
  · exact h
  · exact k

theorem Quiet.when {c : Bool} {f : Dev → Dev} (h : Quiet d e) (k : ∀ e, Quiet e (f e)) : Quiet d (e.when c f) := by
  unfold Dev.when
  exact .ite (h.trans (k e)) h

theorem Quiet.each {α : Type} {l : List α} {f : Dev → α → Dev} (h : Quiet d e) (k : ∀ d a, Quiet d (f d a)) : Quiet d (e.each l f) := by
  induction l generalizing e with
  | nil => exact h
  | cons a l ih => exact ih (h.trans (k e a))

/-! ### Registers, tables and what is emitted -/

theorem Quiet.wr (h : Quiet d e) (f : Field) (v : Nat) : Quiet d (e.wr f v) := h.trans (.of_out rfl rfl)
theorem Quiet.bump (h : Quiet d e) (f : Field) (n : Nat) : Quiet d (e.bump f n) := h.trans (.of_out rfl rfl)
theorem Quiet.set (h : Quiet d e) (f : Field) : Quiet d (e.set f) := h.wr f 1
theorem Quiet.clr (h : Quiet d e) (f : Field) : Quiet d (e.clr f) := h.wr f 0
theorem Quiet.putBit (h : Quiet d e) (f : Field) (n : Nat) (b : Bool) : Quiet d (e.putBit f n b) := h.wr f _
theorem Quiet.emits (h : Quiet d e) (os : List Out) : Quiet d (e.emits os) := h.trans ⟨rfl, ⟨os, rfl⟩⟩
theorem Quiet.emit (h : Quiet d e) (o : Out) : Quiet d (e.emit o) := h.trans ⟨rfl, ⟨[o], rfl⟩⟩
theorem Quiet.modFn (h : Quiet d e) (n : Nat) (f : Fn → Fn) : Quiet d (e.modFn n f) := h.trans (.of_out rfl rfl)
theorem Quiet.modLed (h : Quiet d e) (k : Half) (f : Ledger → Ledger) : Quiet d (e.modLed k f) := h.trans (.of_out rfl rfl)
theorem Quiet.modFirn (h : Quiet d e) (f : Firn → Firn) : Quiet d (e.modFirn f) := h.trans (.of_out rfl rfl)
theorem Quiet.modRime (h : Quiet d e) (f : Rime → Rime) : Quiet d (e.modRime f) := h.trans (.of_out rfl rfl)
theorem Quiet.modIng (h : Quiet d e) (f : Ingest → Ingest) : Quiet d (e.modIng f) := h.trans (.of_out rfl rfl)
theorem Quiet.modTwin (h : Quiet d e) (f : Twin → Twin) : Quiet d (e.modTwin f) := h.trans (.of_out rfl rfl)
theorem Quiet.dropCtx (h : Quiet d e) (q tag : Nat) : Quiet d (e.dropCtx q tag) := h.trans (.of_out rfl rfl)

/-! ### Links and events -/

theorem OnlyLinks.quiet (only : OnlyLinks d e) (out : Grows d e) : Quiet d e := ⟨only.rings, out⟩

theorem Quiet.schSend (h : Quiet d e) (k : Half) (kind : Kind) (cls : Nat) (m : Msg) : Quiet d (schSend k kind cls m e) :=
  h.trans ((schSend_only k kind cls m e).quiet (schSend_grows k kind cls m e))

theorem Quiet.queueFrames (h : Quiet d e) (l : LinkEnd) (kind : Kind) (cls fn : Nat) (b : Bytes) :
    Quiet d (queueFrames l kind cls fn b e) :=
  h.trans ((queueFrames_only l kind cls fn b e).1.quiet (queueFrames_grows l kind cls fn b e))

theorem Quiet.postEvent (h : Quiet d e) (fn : Nat) (x : Event) : Quiet d (postEvent fn x e) :=
  h.trans ⟨postEvent_rings fn x e, postEvent_grows fn x e⟩

theorem Quiet.postToPfs (h : Quiet d e) (x : Event) : Quiet d (postToPfs x e) :=
  h.each fun d fn => (Quiet.refl d).postEvent fn x

theorem Quiet.devEvent (h : Quiet d e) (code data : Nat) : Quiet d (devEvent code data e) := h.postToPfs _

/-! ### Fault reports (R759 to R766) -/

theorem Quiet.lastGasp (h : Quiet d e) (k : Half) : Quiet d (lastGasp k e) := by
  unfold Machine.lastGasp
  extract_lets l g e1 ring
  have counted : Quiet d e1 := (h.modLed _ _).set _
  cases k with
  | host => exact .when (counted.modLed _ _) fun e => (Quiet.refl e).modLed _ _
  | media => exact counted.modLed _ _

theorem Quiet.sendFaultEvent (h : Quiet d e) (k : Half) (src code count : Nat) (summary twin : Bool) :
    Quiet d (sendFaultEvent k src code count summary twin e) := by
  unfold Machine.sendFaultEvent
  extract_lets e1 e2
  have told : Quiet d e2 := .when (h.bump _ _) fun e => (Quiet.refl e).schSend _ _ _ _
  cases k with
  | host => exact told.postToPfs _
  | media => exact told

theorem Quiet.sourceEvent (h : Quiet d e) (k : Half) (src code n t : Nat) (first summary twin : Bool) :
    Quiet d (sourceEvent k src code n t first summary twin e) := by
  unfold Machine.sourceEvent
  extract_lets
  split
  · exact (h.modLed _ _).sendFaultEvent _ _ _ _ _ _
  · exact .ite ((h.modLed _ _).sendFaultEvent _ _ _ _ _ _) (h.modLed _ _)

theorem Quiet.summarise (h : Quiet d e) (k : Half) (n src code reporter t : Nat) (twin injected : Bool) :
    Quiet d (summarise k n src code reporter t twin injected e) := by
  unfold Machine.summarise
  extract_lets
  exact .ite (((h.bump _ _).modLed _ _).sourceEvent _ _ _ _ _ _ _ _)
    (.ite (((h.bump _ _).modLed _ _).sourceEvent _ _ _ _ _ _ _ _) (h.bump _ _))

theorem Quiet.stormEvent (h : Quiet d e) (k : Half) : Quiet d (stormEvent k e) := by
  cases k with
  | host => exact h.devEvent _ _
  | media => exact .ite (h.devEvent _ _) h

theorem Quiet.rollInterval (h : Quiet d e) (k : Half) (t : Nat) : Quiet d (rollInterval k t e) := by
  unfold Machine.rollInterval
  exact .ite h ((h.when fun e => (Quiet.refl e).clr _).modLed _ _)

theorem Quiet.stickySummary (h : Quiet d e) (k : Half) (block sev : Nat) : Quiet d (stickySummary k block sev e) := by
  unfold Machine.stickySummary
  exact .when (h.when fun e => (Quiet.refl e).putBit _ _ _) fun e => (Quiet.refl e).putBit _ _ _

theorem Quiet.reports (h : Quiet d e) (k : Half) (n src code reporter t : Nat) (twin injected : Bool) :
    Quiet d (reports k n src code reporter t twin injected e) := by
  unfold Machine.reports
  extract_lets e1 sev e2 ep mine l n' others e3 e4 noted e5
  have known : Quiet d e2 := ((h.bump _ _).rollInterval _ _).stickySummary _ _ _
  have counted : Quiet d e4 := .when (known.modLed _ _) fun e => (((Quiet.refl e).set _).set _).stormEvent _
  refine .when (.ite (Quiet.sourceEvent (known.modLed _ _) _ _ _ _ _ _ _ _) (.ite ?summary (.ite ?full ?new))) fun e => (Quiet.refl e).lastGasp k
  case summary => exact (counted.modLed _ _).summarise _ _ _ _ _ _ _ _
  case full => exact ((counted.set _).modLed _ _).summarise _ _ _ _ _ _ _ _
  case new => exact (counted.modLed _ _).sourceEvent _ _ _ _ _ _ _ _

theorem Quiet.fault (h : Quiet d e) (k : Half) (block inst cause : Nat) (left : Bool) : Quiet d (fault k block inst cause left e) :=
  h.reports _ _ _ _ _ _ _ _

/-! ### Rime, and the Snowbridge (R210, R512) -/

theorem Quiet.modSlot (h : Quiet d e) (n : Nat) (f : KeySlot → KeySlot) : Quiet d (e.modSlot n f) := h.trans (.of_out rfl rfl)

theorem Quiet.drbgServe (h : Quiet d e) (n : Nat) : Quiet d (drbgServe n e) :=
  .ite (h.modRime _) (.ite ((h.modRime _).modRime _) ((h.modRime _).modRime _))

theorem Quiet.linkCompare (h : Quiet d e) (len : Nat) : Quiet d (linkCompare len e).2 := by
  have drawn : Quiet d e.draw.2 := h.trans ⟨rfl, .of_eq rfl⟩
  unfold Machine.linkCompare
  generalize e.draw = x at drawn ⊢
  exact ((drawn.drbgServe _).when fun e => ((Quiet.refl e).modRime _).bump _ _).bump _ _

theorem Quiet.takeCounter (h : Quiet d e) (n : Nat) : Quiet d (takeCounter n e).2 := by
  unfold Machine.takeCounter
  extract_lets k nx warn e1 e2
  have counted : Quiet d e2 := (h.modSlot _ _).when fun e => ((Quiet.refl e).set _).postEvent _ _
  split
  · exact h
  · exact counted

theorem Quiet.sealSnow (h : Quiet d e) (b : Bytes) : Quiet d (sealSnow b e).2 := by
  have taken : Quiet d (Machine.takeCounter linkSlot e).2 := h.takeCounter linkSlot
  unfold Machine.sealSnow
  split
  · exact h
  · split <;> rename_i eq <;> rw [eq] at taken
    · exact taken.bump _ _
    · exact taken.linkCompare _

theorem Quiet.snowSendFor (h : Quiet d e) (fn : Nat) (k : Kind) (cls : Nat) (m : Msg) : Quiet d (snowSendFor fn k cls m e) := by
  have sealed : Quiet d (Machine.sealSnow (snowBytes k m) e).2 := h.sealSnow _
  unfold Machine.snowSendFor
  refine .ite h (.ite (h.modTwin _) (.ite ?_ ((h.emit _).queueFrames _ _ _ _ _)))
  split <;> rename_i eq <;> rw [eq] at sealed
  · exact sealed
  · exact (sealed.emit _).queueFrames _ _ _ _ _

/-! ### Records without references (R283 to R293) -/

theorem Quiet.spaceCheck (h : Quiet d e) : Quiet d (spaceCheck e) := by
  unfold Machine.spaceCheck
  exact h.modFirn _

theorem Quiet.takeSlot (h : Quiet d e) (r : FRec) : Quiet d (takeSlot r e).2 := (((h.modFirn _).bump _ _).clr _).spaceCheck

theorem Quiet.sendRecord (h : Quiet d e) (slot : Nat) : Quiet d (sendRecord slot e) := by
  unfold Machine.sendRecord
  split
  · exact h
  · exact Quiet.each (h.modFirn _) fun e s => (Quiet.refl e).snowSendFor _ _ _ _

theorem Quiet.noteWaits (h : Quiet d e) : Quiet d (noteWaits e) := by
  unfold Machine.noteWaits
  extract_lets
  exact (h.modFirn _).each fun e w => ((Quiet.refl e).bump _ _).when fun e => ((Quiet.refl e).set _).fault _ _ _ _ _

end
end Sys2Proof.Machine
end

section
/-! PROOFS. A record that takes no references and ends nothing, as its home twin forms it: its header slot, and what its assignment gives it
(R283, R292, R293, R465). -/

namespace Sys2Proof.Machine

/-! ### A free header slot -/

theorem lowestFree_le (used : List Nat) (fuel n : Nat) : n ≤ lowestFree used fuel n := by
  induction fuel generalizing n with
  | zero => exact Nat.le_refl n
  | succ fuel ih =>
    unfold lowestFree
    split
    · exact (Nat.le_succ n).trans (ih (n + 1))
    · exact Nat.le_refl n

/-- Where the list holds the number found, it holds every number tried before. -/
theorem mem_of_lowestFree_mem {used : List Nat} {fuel n i : Nat} (taken : lowestFree used fuel n ∈ used) (least : n ≤ i) (most : i ≤ n + fuel) :
    i ∈ used := by
  induction fuel generalizing n with
  | zero => exact (Nat.le_antisymm most least : i = n) ▸ taken
  | succ fuel ih =>
    unfold lowestFree at taken
    split at taken
    next here =>
      rcases Nat.eq_or_lt_of_le least with same | later
      · exact same ▸ List.contains_iff_mem.mp here
      · exact ih taken later (by omega)
    next away => exact absurd taken (by simpa using away)

/-- A list has more numbers below its length, itself included, than it has entries. -/
theorem lowestFree_not_mem (used : List Nat) : lowestFree used (used.length + 1) 0 ∉ used := by
  intro taken
  have every : List.range (used.length + 1) ⊆ used := fun i small =>
    mem_of_lowestFree_mem taken (Nat.zero_le i) (by have := List.mem_range.mp small; omega)
  have := (List.nodup_range.subperm every).length_le
  simp at this

theorem tget_eq_none_of_not_mem {α : Type} {t : Tab α} {n : Nat} (absent : n ∉ tkeys t) : tget t n = none := by
  induction t with
  | nil => rfl
  | cons e t ih =>
    obtain ⟨other, absent⟩ : n ≠ e.1 ∧ n ∉ tkeys t := by simpa [tkeys] using absent
    simp [tget, other, ih absent]

theorem takeSlot_free (r : FRec) (d : Dev) : d.recAt (takeSlot r d).1 = none := by
  refine tget_eq_none_of_not_mem ?_
  have := lowestFree_not_mem (tkeys d.firn.recs)
  rwa [tkeys, List.length_map] at this

/-! ### What assignment gives a record -/

/-- `x` is the record `r`, as it stands once it was assigned in the state `d`. -/
structure Stamped (d : Dev) (r x : FRec) : Prop where
  rtype : x.rtype = r.rtype
  pool : x.pool = r.pool
  nsid : x.nsid = r.nsid
  slba : x.slba = r.slba
  nlb : x.nlb = r.nlb
  cmds : x.cmds = r.cmds
  seq : x.seq = d.nextSeq r.pool
  time : x.time = d.tbMedia
  plain : snapOf r.mapDelta = none → x.mapDelta = r.mapDelta
  snap : ∀ n m, snapOf r.mapDelta = some n → d.nsAny n = some m →
    x.mapDelta = r.mapDelta.map (fillSnap m.nextSnap) ∧ (r.rtype = rtMap → x.aux = m.nextSnap)

theorem Stamped.withMsgId {d : Dev} {r x : FRec} (h : Stamped d r x) (id : Nat) : Stamped d r { x with msgId := id } :=
  ⟨h.rtype, h.pool, h.nsid, h.slba, h.nlb, h.cmds, h.seq, h.time, h.plain, h.snap⟩

/-- The types of a record that has no effect of its own as it enters. -/
def plainTypes : List Nat := [rtWrite, rtMap, rtMark]

/-- A record that takes no references, and whose type has no effect of its own as it enters. -/
structure Simple (r : FRec) : Prop where
  refs : r.refs = []
  rtype : r.rtype ∈ plainTypes
  fresh : r.seq = 0
  whole : r.divergent = false

theorem noteEntered_of_plain {r : FRec} (plain : r.rtype ∈ plainTypes) (d : Dev) : noteEntered r d = d := by
  have others : ∀ t ∈ plainTypes, t ≠ rtIntent ∧ t ≠ rtCommit ∧ t ≠ rtAbort ∧ t ≠ rtRelease ∧ t ≠ rtRevoke := by decide
  obtain ⟨h1, h2, h3, h4, h5⟩ := others _ plain
  simp [noteEntered, h1, h2, h3, h4, h5]

theorem refusals_of_nil {r : FRec} (refs : r.refs = []) (d : Dev) : d.refusals r = [] := by simp [Dev.refusals, refs]

section
variable {d e : Dev} {r : FRec} {slot : Nat}

theorem assignSeq_stamped (here : d.recAt slot = some r) (refs : r.refs = []) : ∃ x, (assignSeq slot d).recAt slot = some x ∧ Stamped d r x := by
  unfold assignSeq
  simp only [here, refs, List.filter_nil, Dev.each, List.foldl_nil]
  cases snaps : snapOf r.mapDelta with
  | none => exact ⟨_, tget_tput_same _ _ _, rfl, rfl, rfl, rfl, rfl, rfl, rfl, rfl, fun _ => rfl, by simp [snaps]⟩
  | some n =>
    refine ⟨_, tget_tput_same _ _ _, rfl, rfl, rfl, rfl, rfl, rfl, rfl, rfl, by simp [snaps], fun m x of there => ?_⟩
    obtain rfl := Option.some.inj (snaps.symm.trans of)
    simpa [there] using fun map other => absurd map other

theorem Quiet.assignSeq (h : Quiet d e) (refs : ∀ r, e.recAt slot = some r → r.refs = []) : Quiet d (assignSeq slot e) := by
  unfold Machine.assignSeq
  cases here : e.recAt slot with
  | none => exact h
  | some r =>
    simp only [refs r here, List.filter_nil, Dev.each, List.foldl_nil]
    cases snapOf r.mapDelta with
    | none => exact h.modFirn _
    | some n => exact (h.trans (.of_out rfl rfl : Quiet e (e.modNs n _))).modFirn _

/-- Of what the media half stores, sending over the Snowbridge changes the messages that wait for the link cipher alone (R210). -/
theorem snowSendFor_stores (fn : Nat) (k : Kind) (cls : Nat) (m : Msg) (d : Dev) :
    ∃ f, (snowSendFor fn k cls m d).part .stores = (d.modTwin f).part .stores := by
  have sealed : (sealSnow (snowBytes k m) d).2.part .stores = d.part .stores := part_sealSnow nofun
  unfold snowSendFor
  split
  · exact ⟨id, rfl⟩
  · split
    · exact ⟨_, rfl⟩
    · refine ⟨id, ?_⟩
      change _ = d.part .stores
      split
      · split <;> rename_i eq <;> rw [eq] at sealed
        · exact sealed
        · simpa using sealed
      · simp

theorem snowSendFor_firn (fn : Nat) (k : Kind) (cls : Nat) (m : Msg) (d : Dev) : (snowSendFor fn k cls m d).firn = d.firn := by
  obtain ⟨f, stores⟩ := snowSendFor_stores fn k cls m d
  exact (congrArg Dev.firn stores :)

theorem Dev.each_firn {α : Type} {l : List α} {f : Dev → α → Dev} (h : ∀ d a, (f d a).firn = d.firn) : (d.each l f).firn = d.firn := by
  induction l generalizing d with
  | nil => rfl
  | cons a l ih => exact ih.trans (h d a)

/-- Sending a record only notes the number of its message. -/
theorem sendRecord_recAt (here : d.recAt slot = some r) : ∃ id, (sendRecord slot d).recAt slot = some { r with msgId := id } := by
  refine ⟨d.snow.tx.msg, ?_⟩
  simp only [sendRecord, here]
  rw [Dev.recAt, Dev.each_firn fun d s => snowSendFor_firn _ _ _ _ d, modRec, Dev.modFirn_firn, tget_tmod_same]
  exact congrArg (Option.map _) here

/-! ### A record is formed -/

section
variable (simple : Simple r)
include simple

theorem assignNow_of_simple (here : d.recAt slot = some r) :
    assignNow slot d = (assignSeq slot d).when ((assignSeq slot d).mirrors && r.receiver == (assignSeq slot d).twinSide) (sendRecord slot) := by
  obtain ⟨x, there, stamped⟩ := assignSeq_stamped here simple.refs
  have plain : x.rtype ∈ plainTypes := stamped.rtype ▸ simple.rtype
  simp [assignNow, here, refusals_of_nil simple.refs, there, noteEntered_of_plain plain]

theorem Quiet.assignNow (h : Quiet d e) (here : e.recAt slot = some r) : Quiet d (assignNow slot e) := by
  have assigned : Quiet d (Machine.assignSeq slot e) := h.assignSeq fun y same => by
    obtain rfl := Option.some.inj (here.symm.trans same)
    exact simple.refs
  rw [assignNow_of_simple simple here]
  exact assigned.when fun e => (Quiet.refl e).sendRecord slot

theorem assignNow_stamped (here : d.recAt slot = some r) : ∃ x, (assignNow slot d).recAt slot = some x ∧ Stamped d r x := by
  obtain ⟨x, there, stamped⟩ := assignSeq_stamped here simple.refs
  rw [assignNow_of_simple simple here, Dev.when]
  split
  · obtain ⟨id, sent⟩ := sendRecord_recAt there
    exact ⟨_, sent, stamped.withMsgId id⟩
  · exact ⟨x, there, stamped⟩

end

/-- The record as it stands in its place, before it is assigned. -/
def placed (r : FRec) (d : Dev) : FRec := { r with since := d.tbMedia, order := d.firn.nextLocal, place := d.pagesFor r.npage }

theorem takeSlot_recAt (r : FRec) (d : Dev) : (takeSlot r d).2.recAt (takeSlot r d).1 = some (placed r d) := tget_tput_same _ _ _

theorem Simple.placed (h : Simple r) (d : Dev) : Simple (placed r d) := ⟨h.refs, h.rtype, h.fresh, h.whole⟩

/-- A record goes to its home twin for its assignment, which is this module or the other. -/
theorem enterRec_of_simple (simple : Simple r) (d : Dev) : enterRec r d =
    if (takeSlot r d).2.isHome r.pool then assignNow (takeSlot r d).1 (takeSlot r d).2 else sendRecord (takeSlot r d).1 (takeSlot r d).2 := by
  simp [enterRec, simple.whole, simple.fresh]

theorem Quiet.enterRec (h : Quiet d e) (simple : Simple r) : Quiet d (enterRec r e) := by
  have taken : Quiet d (Machine.takeSlot r e).2 := h.takeSlot r
  rw [enterRec_of_simple simple]
  exact .ite (taken.assignNow (simple.placed e) (takeSlot_recAt r e)) (taken.sendRecord _)

theorem Quiet.formRec (h : Quiet d e) (simple : Simple r) : Quiet d (formRec r e) :=
  .ite (h.enterRec simple) (h.modFirn _).noteWaits

theorem Quiet.formMarks (h : Quiet d e) (kind id fn mark : Nat) : Quiet d (formMarks kind id fn mark e) :=
  h.each fun e _ => (Quiet.refl e).formRec ⟨rfl, by simp [plainTypes], rfl, rfl⟩

theorem Quiet.askLease (h : Quiet d e) (sl : Nat) : Quiet d (askLease sl e) := by
  unfold Machine.askLease
  exact .ite h ((h.modFirn _).formMarks _ _ _ _)

/-- A record that its home twin forms while nothing holds it back takes a header slot and is assigned. -/
theorem formRec_of_simple (simple : Simple r) (home : d.isHome r.pool = true) (may : d.mayEnter r = true) :
    formRec r d = assignNow (takeSlot r d).1 (takeSlot r d).2 := by
  have home' : (takeSlot r d).2.isHome r.pool = true := home
  rw [formRec, if_pos may, enterRec_of_simple simple, if_pos home']

theorem formRec_stamped (simple : Simple r) (home : d.isHome r.pool = true) (may : d.mayEnter r = true) :
    ∃ slot x, d.recAt slot = none ∧ (formRec r d).recAt slot = some x ∧ Stamped d r x := by
  obtain ⟨x, there, stamped⟩ := assignNow_stamped (simple.placed d) (takeSlot_recAt r d)
  rw [formRec_of_simple simple home may]
  exact ⟨_, x, takeSlot_free r d, there, stamped.rtype, stamped.pool, stamped.nsid, stamped.slba, stamped.nlb, stamped.cmds, stamped.seq,
    stamped.time, stamped.plain, stamped.snap⟩

end

end Sys2Proof.Machine
end

section
/-! PROOFS. A command of a queue crosses to the media half (R83, R84, R251): it stays on its queue, and its message is sent. -/

namespace Sys2Proof.Machine

/-! ### A command on its queue -/

/-- The fetched command of a queue with a tag. -/
abbrev Dev.cmdAt (d : Dev) (q tag : Nat) : Option Cmd := (d.queue q).bind (·.cmd tag)

section
variable {d e : Dev} {q tag : Nat} {c : Cmd}

theorem Queue.cmd_tag {qu : Queue} (h : qu.cmd tag = some c) : c.tag = tag := by
  have same := List.find?_some h
  exact beq_iff_eq.mp same

theorem Dev.cmdAt_tag (h : d.cmdAt q tag = some c) : c.tag = tag := by
  obtain ⟨qu, -, here⟩ := Option.bind_eq_some_iff.mp h
  exact Queue.cmd_tag here

theorem Dev.cmdAt_of_rings (same : e.rings = d.rings) : e.cmdAt q tag = d.cmdAt q tag := by
  simp [Dev.cmdAt, Dev.queue, same]

theorem find?_map_same {l : List Cmd} {p : Cmd → Bool} {f : Cmd → Cmd} (keeps : ∀ c, p c = true → p (f c) = true) :
    (l.map fun c => if p c then f c else c).find? p = (l.find? p).map f := by
  induction l with
  | nil => rfl
  | cons c l ih =>
    by_cases h : p c = true
    · simp [h, keeps c h]
    · simp [h, ih]

/-- A change of a command that keeps its tag. -/
theorem Dev.cmdAt_modCmd {f : Cmd → Cmd} (keeps : ∀ c, c.tag = tag → (f c).tag = tag) :
    (d.modCmd q tag f).cmdAt q tag = (d.cmdAt q tag).map f := by
  unfold Dev.cmdAt Dev.modCmd
  rw [Dev.queue_modQ]
  cases d.queue q with
  | none => rfl
  | some qu =>
    have found := find?_map_same (l := qu.cmds) (p := fun c => bits c.pkt.toNat 16 16 == tag) (f := f)
      fun c same => beq_iff_eq.mpr (keeps c (beq_iff_eq.mp same))
    simpa [Queue.cmd] using found

theorem crossed_iff : Crossed q tag d ↔ ∃ c, d.cmdAt q tag = some c ∧ c.stage = .crossed := by
  simp only [Crossed, Dev.cmdAt, Option.bind_eq_some_iff]
  constructor
  · rintro ⟨qu, c, here, names, stage⟩
    exact ⟨c, ⟨qu, here, names⟩, stage⟩
  · rintro ⟨c, ⟨qu, here, names⟩, stage⟩
    exact ⟨qu, c, here, names, stage⟩

theorem crossed_of_rings (same : e.rings = d.rings) (h : Crossed q tag d) : Crossed q tag e := by
  rw [crossed_iff, Dev.cmdAt_of_rings same]
  exact crossed_iff.mp h

theorem cmdAt_crossCmd (here : d.cmdAt q tag = some c) : (crossCmd q tag d).cmdAt q tag = some { c with stage := .crossed } := by
  rw [crossCmd, Dev.cmdAt_modCmd (f := fun c => { c with stage := .crossed }) fun _ same => same, here]
  rfl

theorem crossed_crossCmd (here : d.cmdAt q tag = some c) : Crossed q tag (crossCmd q tag d) :=
  crossed_iff.mpr ⟨_, cmdAt_crossCmd here, rfl⟩

/-- A command that sends its message and waits for the media half. -/
theorem send_crosses {k : Kind} {cls : Nat} {m : Msg} (up : d.linkOpen .host) (here : d.cmdAt q tag = some c) :
    Crossed q tag (crossCmd q tag (schSend .host k cls m d)) ∧ Sent d (crossCmd q tag (schSend .host k cls m d)) (.sch .host k m) :=
  ⟨crossed_crossCmd ((Dev.cmdAt_of_rings (schSend_rings _ _ _ _ _)).trans here), schSend_sent up⟩

/-- Whether an earlier command holds one back does not depend on which have started (R104). -/
theorem Dev.hazard_started (d : Dev) (q tag : Nat) (c : Cmd) :
    (d.modCmd q tag fun c => { c with started := true }).hazard q c = d.hazard q c := by
  unfold Dev.hazard Dev.modCmd
  rw [Dev.queue_modQ]
  congr 1
  cases d.queue q with
  | none => rfl
  | some qu =>
    simp only [Option.map_some, List.any_map]
    refine congrArg (qu.cmds.any ·) (funext fun e => ?_)
    simp only [Function.comp_apply]
    split <;> rfl

end

/-! ### A command that may run starts -/

/-- The device once a command has started. -/
def Dev.begun (d : Dev) (q tag : Nat) : Dev := d.modCmd q tag fun c => { c with started := true }

section
variable {op q tag : Nat} {qu : Queue} {c : Cmd} {s : State}

theorem Waits.cmdAt_begun {ops : List Nat} {d : Dev} (waits : Waits ops q tag d qu c) :
    (d.begun q tag).cmdAt q tag = some { c with started := true } := by
  obtain ⟨queue, here, -⟩ := waits
  have found : d.cmdAt q tag = some c := by simp [Dev.cmdAt, queue, here]
  rw [Dev.begun, Dev.cmdAt_modCmd (f := fun c => { c with started := true }) fun _ same => same, found]
  rfl

theorem Waits.tag_eq {ops : List Nat} {d : Dev} (waits : Waits ops q tag d qu c) : c.tag = tag := by
  obtain ⟨-, here, -⟩ := waits
  exact Queue.cmd_tag here

theorem runCmd_io (f : Queue → Cmd → Dev → Dev) (ready : Ready.io op q tag qu c s) : runCmd [op] q tag f s.dev = f qu c (s.dev.begun q tag) := by
  obtain ⟨waits, free, -⟩ := ready
  exact runCmd_waits f waits (.inr (.inr free))

theorem needSlice_of_sliced (sliced : Ready.sliced q c s) (f : Dev → Dev) : needSlice q c (s.dev.begun q tag) f = f (s.dev.begun q tag) := by
  obtain ⟨sound, some, -⟩ := sliced
  exact if_neg (by simpa using ⟨sound, some⟩)

theorem hazard_begun (sliced : Ready.sliced q c s) : (s.dev.begun q tag).hazard q c = false := by
  obtain ⟨-, -, free⟩ := sliced
  exact (s.dev.hazard_started q tag c).trans free

/-! ### Reads, and commands that move no data -/

/-- A read of blocks crosses (R83, R104). -/
theorem crossRead_crosses (ready : Ready.io op q tag qu c s) (sliced : Ready.sliced q c s) :
    Crossed q tag (runCmd [op] q tag (fun qu c d => needSlice q c d (crossRead q qu c)) s.dev) ∧
      Sent s.dev (runCmd [op] q tag (fun qu c d => needSlice q c d (crossRead q qu c)) s.dev)
        (.sch .host .readDesc ⟨q, tag, pktGos c.pkt, pktNsid c.pkt, [pktSlba c.pkt, pktNlb c.pkt, pktOpts c.pkt, 0], []⟩) := by
  rw [runCmd_io _ ready, needSlice_of_sliced sliced, crossRead, hazard_begun sliced]
  obtain ⟨waits, -, up⟩ := ready
  rw [waits.tag_eq]
  exact send_crosses up waits.cmdAt_begun

/-- An other-I/O descriptor crosses with the operands of its command (R84). -/
theorem crossOther_crosses {d : Dev} {x : Cmd} {kind ref : Nat} {src : List Nat} (up : d.linkOpen .host) (here : d.cmdAt q tag = some x)
    (same : c.tag = tag) : Crossed q tag (crossOther q kind qu c ref src d) ∧
      Sent d (crossOther q kind qu c ref src d) (.sch .host .otherIo ⟨q, tag, ref, pktNsid c.pkt, otherArgs kind c.pkt ++ src, []⟩) := by
  rw [crossOther, same]
  exact send_crosses up here

theorem cmdAt_crossOther {d : Dev} {x : Cmd} {kind ref : Nat} {src : List Nat} (here : d.cmdAt q tag = some x) (same : c.tag = tag) :
    (crossOther q kind qu c ref src d).cmdAt q tag = some { x with stage := .crossed } := by
  rw [crossOther, same]
  exact cmdAt_crossCmd ((Dev.cmdAt_of_rings (schSend_rings _ _ _ _ _)).trans here)

/-- A command that moves no data crosses as it starts (R83, R84). -/
theorem runOther_crosses {kind : Nat} {ref : Queue → Cmd → Nat} {src : Queue → Cmd → List Nat} (ready : Ready.io op q tag qu c s) :
    Crossed q tag (runCmd [op] q tag (fun qu c d => crossOther q kind qu c (ref qu c) (src qu c) d) s.dev) ∧
      Sent s.dev (runCmd [op] q tag (fun qu c d => crossOther q kind qu c (ref qu c) (src qu c) d) s.dev)
        (.sch .host .otherIo ⟨q, tag, ref qu c, pktNsid c.pkt, otherArgs kind c.pkt ++ src qu c, []⟩) := by
  rw [runCmd_io _ ready]
  obtain ⟨waits, -, up⟩ := ready
  exact crossOther_crosses up waits.cmdAt_begun waits.tag_eq

/-- The device once a COMPARE has its data. -/
def Dev.withData (d : Dev) (q tag : Nat) (b : Bytes) : Dev := d.modCmd q tag fun x => { x with host := b }

theorem Dev.cmdAt_withData {d : Dev} {x : Cmd} (here : d.cmdAt q tag = some x) (b : Bytes) :
    (d.withData q tag b).cmdAt q tag = some { x with host := b } := by
  rw [Dev.withData, Dev.cmdAt_modCmd (f := fun x => { x with host := b }) fun _ same => same, here]
  rfl

/-- The data of a COMPARE stays with the command as it crosses (R84). -/
theorem execCompare_crosses {b : Bytes} (ready : Ready.io 5 q tag qu c s) (sliced : Ready.sliced q c s) :
    Does (.compare q tag (some b)) s fun t => Crossed q tag t.dev ∧
      Sent s.dev t.dev (.sch .host .otherIo ⟨q, tag, pktGos c.pkt, pktNsid c.pkt, otherArgs 2 c.pkt, []⟩) ∧
      (t.dev.cmdAt q tag).map (·.host) = some (padTo c.dataLen b) := by
  refine ⟨_, rfl, ?_⟩
  rw [runCmd_io _ ready, needSlice_of_sliced sliced, hazard_begun sliced]
  obtain ⟨waits, -, up⟩ := ready
  let e : Dev := (readHost q qu c (s.dev.begun q tag)).withData q tag (padTo c.dataLen b)
  have here : e.cmdAt q tag = some { c with started := true, host := padTo c.dataLen b } :=
    Dev.cmdAt_withData (d := readHost q qu c (s.dev.begun q tag)) waits.cmdAt_begun _
  obtain ⟨crossed, sent⟩ := crossOther_crosses (d := e) (qu := qu) (kind := ioCompare) (ref := pktGos c.pkt) (src := []) up here waits.tag_eq
  exact ⟨crossed, .of_grows (Dev.asks_grows _ _) sent, congrArg (Option.map _) (cmdAt_crossOther here waits.tag_eq)⟩

theorem execCopy_crosses (ready : Ready.io 8 q tag qu c s) (sound : copyCheck qu.fn c.pkt s.dev = 0) :
    Does (.copy q tag) s fun t => Crossed q tag t.dev ∧ Sent s.dev t.dev (.sch .host .otherIo ⟨q, tag, pktField c.pkt 52 4, pktNsid c.pkt,
      otherArgs 3 c.pkt ++ [pktField c.pkt 48 4, pktField c.pkt 56 8], []⟩) := by
  refine ⟨_, rfl, ?_⟩
  have sound' : copyCheck qu.fn c.pkt (s.dev.begun q tag) = 0 := sound
  rw [runCmd_io _ ready, sound']
  obtain ⟨waits, -, up⟩ := ready
  exact crossOther_crosses up waits.cmdAt_begun waits.tag_eq

end

end Sys2Proof.Machine
end

section
/-! PROOFS. A write of one block (R124 to R142, R206, R251): its chunk settled, stored as it is, and sent. -/

namespace Sys2Proof.Machine

/-! ### The data of one block -/

theorem Ns.blockSize_pos (n : Ns) : 0 < n.blockSize := by
  unfold Ns.blockSize
  split <;> decide

theorem piecesOf_nil (n fuel : Nat) : piecesOf n fuel [] = [] := by cases fuel <;> rfl

theorem pieces_of_length {n : Nat} {b : Bytes} (some : 0 < n) (exact : b.length = n) : pieces n b = [b] := by
  obtain ⟨k, rfl⟩ : ∃ k, n = k + 1 := ⟨n - 1, by omega⟩
  have full : b.isEmpty = false := by cases b <;> simp_all
  have all : b.drop (k + 1) = [] := List.drop_eq_nil_of_le (Nat.le_of_eq exact)
  have whole : b.take (k + 1) = b := List.take_of_length_le (Nat.le_of_eq exact)
  simp [pieces, exact, piecesOf, full, all, whole, piecesOf_nil]

/-- The data of a write of one block is one chunk (R124). -/
theorem chunksOf_one {c : Cmd} (one : pktNlb c.pkt = 1) (n : Ns) (b : Bytes) : c.chunksOf n b = [(padTo n.blockSize b, 0)] := by
  simp [Cmd.chunksOf, one, pieces_of_length n.blockSize_pos]

/-! ### The link stays open -/

theorem linkOpen_of_regs {d e : Dev} {h : Half} (same : e.regs = d.regs) (up : d.linkOpen h) : e.linkOpen h := by
  simpa only [Dev.linkOpen, Dev.is, Dev.rd_congr same] using up

theorem linkOpen_wr {d : Dev} {h : Half} {f : Field} (v : Nat) (other : f.key ≠ (SCH_STATUS.UP h).key ∧ f.key ≠ (SCH_STATUS.PEER_DOWN h).key)
    (up : d.linkOpen h) : (d.wr f v).linkOpen h := by
  obtain ⟨notUp, notDown⟩ := other
  simpa only [Dev.linkOpen, Dev.is, Dev.rd_wr_ne d v notUp.symm, Dev.rd_wr_ne d v notDown.symm] using up

theorem drbgServe_regs (n : Nat) (d : Dev) : (drbgServe n d).regs = d.regs := by
  unfold drbgServe
  dsimp only
  split
  · rfl
  · split <;> rfl

/-! ### A chunk stored as it is (R158, R206, R207) -/

/-- The device once a slice has stored one raw chunk on which both copies agree. -/
def Dev.rawStored (d : Dev) (len : Nat) : Dev :=
  (drbgServe (cipherRequests len 1) (d.bump ING_CNT_RAW.COUNT 1)).bump RIM_CNT_BLOCKS.COUNT ((len + 15) / 16)

theorem Quiet.rawStored (d : Dev) (len : Nat) : Quiet d (d.rawStored len) := (((Quiet.refl d).bump _ _).drbgServe _).bump _ _

theorem linkOpen_rawStored {d : Dev} (len : Nat) (up : d.linkOpen .host) : (d.rawStored len).linkOpen .host :=
  linkOpen_wr _ (by decide) (linkOpen_of_regs (drbgServe_regs _ _) (linkOpen_wr _ (by decide) up))

/-- What is stored of a raw chunk. -/
def rawChunk (d : Dev) (sl : Nat) (n : Ns) (id : Nat) (x : HostChunk) : Stored :=
  ⟨{ x with id := id, form := rawForm n, slice := sl, isRef := false }, d.rawObject n id x.data⟩

section
variable {sl opts id : Nat} {n : Ns} {run : SliceRun} {d : Dev}

theorem packChunk_raw (mode : packMode n.pack = 0) (data : Bytes) :
    packChunk sl n opts data run d = (rawForm n, data, run, d.bump ING_CNT_RAW.COUNT 1) := by
  simp [packChunk, mode]

theorem encryptUnit_agree (agree : run.cmps.headD .agree = .agree) (plain : Bytes) : encryptUnit sl n id 0 plain run d =
    (some (d.rawObject n id plain), { run with cmps := run.cmps.tail },
      (drbgServe (cipherRequests plain.length 1) d).bump RIM_CNT_BLOCKS.COUNT ((plain.length + 15) / 16)) := by
  simp only [encryptUnit, nextCmp, agree, compare2]
  rfl

theorem storeChunks_raw (mode : packMode n.pack = 0) (agree : run.cmps.headD .agree = .agree) (x : HostChunk) :
    ∃ run', storeChunks sl n opts id [x] run d = (some [rawChunk d sl n id x], run', d.rawStored x.data.length) := by
  refine ⟨{ run with cmps := run.cmps.tail }, ?_⟩
  simp only [storeChunks, packChunk_raw mode, encryptUnit_agree agree]
  rfl

/-! ### The chunk settled (R125, R132) -/

theorem settleChunks_raw {cls : Nat} {lend : List (Option Bytes)} {w : Bytes} (filled : allZero w = false) (plain : packDedup n.pack = false) :
    ∃ x, settleChunks sl cls n opts [(w, 0)] lend d = ([x], lend, d) ∧ x.ord = 0 ∧ x.data = w ∧ x.isRef = false ∧ x.id = 0 ∧ x.fp = none ∧
      x.refused = false := by
  simp only [settleChunks, settleChunk, filled, plain]
  exact ⟨_, rfl, rfl, rfl, rfl, rfl, rfl, rfl⟩

theorem settleChunks_zero {cls : Nat} {lend : List (Option Bytes)} {w : Bytes} (zero : allZero w = true) :
    ∃ x, settleChunks sl cls n opts [(w, 0)] lend d = ([x], lend, d.bump ING_CNT_ZERO.COUNT 1) ∧ x.ord = 0 ∧ x.isRef = true ∧ x.id = 0 ∧
      x.fp = none := by
  simp only [settleChunks, settleChunk, zero]
  exact ⟨_, rfl, rfl, rfl, rfl, rfl⟩

end

end Sys2Proof.Machine
end

section
/-! PROOFS. What a write of one block sends (R251), and that it then waits for the media half. -/

namespace Sys2Proof.Machine

section
variable {q tag cls : Nat} {c : Cmd} {x : HostChunk} {n : Ns} {d : Dev}

/-! ### The envelope -/

/-- The body of a write envelope that announces one chunk. -/
def envelopeArgs (c : Cmd) : List Nat := [pktSlba c.pkt, pktNlb c.pkt, pktFlags c.pkt, pktOpts c.pkt, 1, pktOp c.pkt]

theorem sendEnvelope_eq (noApply : pktOp c.pkt ≠ 0x52) (d : Dev) : sendEnvelope q cls c 1 d =
    schSend .host .writeEnvelope cls ⟨q, c.tag, 0, pktNsid c.pkt, envelopeArgs c, []⟩ d := by
  simp [sendEnvelope, applyArgs, noApply, envelopeArgs]

/-- The device once the opening of a command is noted as sent. -/
def Dev.opened (d : Dev) (q tag : Nat) : Dev := d.modCmd q tag fun c => { c with sent := true }

theorem Dev.cmdAt_opened (here : d.cmdAt q tag = some c) : (d.opened q tag).cmdAt q tag = some { c with sent := true } := by
  rw [Dev.opened, Dev.cmdAt_modCmd (f := fun c => { c with sent := true }) fun _ same => same, here]
  rfl

/-- The opening of a command of one chunk: its envelope, and the chunk where it is a reference. -/
theorem sendOpening_one (here : d.cmdAt q tag = some c) (unsent : c.sent = false) (one : c.chunks = [x]) (noApply : pktOp c.pkt ≠ 0x52) :
    sendOpening q tag cls d =
      ([x].filter (·.isRef)).foldl (fun d x => sendRef q tag (pktNsid c.pkt) cls x d)
        (schSend .host .writeEnvelope cls ⟨q, tag, 0, pktNsid c.pkt, envelopeArgs c, []⟩ (d.opened q tag)) := by
  unfold sendOpening
  rw [show (d.queue q).bind (·.cmd tag) = some c from here]
  simp only [unsent, one, List.length_singleton, sendEnvelope_eq noApply, Dev.cmdAt_tag here]
  rfl

/-! ### The chunk -/

theorem cmdAt_keepChunks (here : d.cmdAt q tag = some c) (one : c.chunks = [x]) {y : HostChunk} (same : x.ord = y.ord) :
    (keepChunks q tag [y] d).cmdAt q tag = some { c with chunks := [y] } := by
  rw [keepChunks, Dev.cmdAt_modCmd (f := fun c => { c with chunks := [y].foldl (fun cs x => putChunk x cs) c.chunks }) fun _ tag => tag, here]
  simp [putChunk, one, same]

theorem sendStored_one {nsid : Nat} {st : Stored} : sendStored q tag nsid cls [st] d =
    schSend .host .writePayload cls ⟨q, tag, st.chunk.id, nsid, [], st.bytes⟩
      (schSend .host .newChunk cls ⟨q, tag, st.chunk.id, nsid, [st.chunk.ord, st.chunk.form, 0, 0, st.bytes.length], st.chunk.fp.getD []⟩ d) :=
  rfl

theorem linkOpen_schSend {h k : Half} {kind : Kind} {m : Msg} (up : d.linkOpen h) : (schSend k kind cls m d).linkOpen h :=
  linkOpen_of_regs (schSend_regs _ _ _ _ _) up

theorem cmdAt_schSend {h : Half} {kind : Kind} {m : Msg} (here : d.cmdAt q tag = some c) : (schSend h kind cls m d).cmdAt q tag = some c :=
  (Dev.cmdAt_of_rings (schSend_rings _ _ _ _ _)).trans here

/-- Three messages that go one after the other, and their command then waits for the media half. -/
theorem sends_cross {k1 k2 k3 : Kind} {m1 m2 m3 : Msg} (here : d.cmdAt q tag = some c) (up : d.linkOpen .host) :
    (fun e => e.cmdAt q tag = some { c with stage := .crossed } ∧ Sent d e (.sch .host k1 m1) ∧ Sent d e (.sch .host k2 m2) ∧
      Sent d e (.sch .host k3 m3))
    (crossCmd q tag (schSend .host k3 cls m3 (schSend .host k2 cls m2 (schSend .host k1 cls m1 d)))) := by
  have up1 : (schSend .host k1 cls m1 d).linkOpen .host := linkOpen_schSend up
  have up2 : (schSend .host k2 cls m2 (schSend .host k1 cls m1 d)).linkOpen .host := linkOpen_schSend up1
  refine ⟨cmdAt_crossCmd (cmdAt_schSend (cmdAt_schSend (cmdAt_schSend here))), ?_, ?_, ?_⟩
  · exact ((schSend_sent up).trans_grows (schSend_grows _ _ _ _ _)).trans_grows (schSend_grows _ _ _ _ _)
  · exact .of_grows (schSend_grows _ _ _ _ _) ((schSend_sent up1).trans_grows (schSend_grows _ _ _ _ _))
  · exact .of_grows (schSend_grows _ _ _ _ _) (.of_grows (schSend_grows _ _ _ _ _) (schSend_sent up2))

/-! ### A raw write of one block -/

section
variable {qu : Queue} {sl : Nat} {run : SliceRun}

/-- The stored object of a command's one raw chunk, under the slice's next serial. -/
def Dev.nextRaw (d : Dev) (sl : Nat) (n : Ns) (x : HostChunk) : Stored := rawChunk (takeSerials sl 1 d).2 sl n (takeSerials sl 1 d).1 x

/-- The device once that object is stored and the command keeps its chunk. -/
def Dev.rawKept (d : Dev) (q tag sl : Nat) (n : Ns) (x : HostChunk) : Dev :=
  keepChunks q tag [(d.nextRaw sl n x).chunk] ((takeSerials sl 1 d).2.rawStored x.data.length)

theorem sendWrite_raw_eq (same : c.tag = tag) (one : c.chunks = [x]) (new : x.isRef = false) (unnamed : x.id = 0) (mode : packMode n.pack = 0)
    (go : d.cipherStop = none) (lease : 1 ≤ d.leaseLeft sl) (agree : run.cmps.headD .agree = .agree) :
    sendWrite q qu c n sl run d = crossCmd q tag (sendStored q tag (pktNsid c.pkt) qu.cls [d.nextRaw sl n x]
      (sendOpening q tag qu.cls (d.rawKept q tag sl n x))) := by
  obtain ⟨run', stored⟩ := storeChunks_raw (sl := sl) (opts := pktOpts c.pkt) (id := (takeSerials sl 1 d).1) (d := (takeSerials sl 1 d).2) mode agree x
  have enough : ¬ d.leaseLeft sl < 1 := Nat.not_lt.mpr lease
  simp only [sendWrite, one, same, mode, go]
  simp [new, unnamed, enough, stored]
  rfl

theorem cmdAt_rawKept (here : d.cmdAt q tag = some c) (one : c.chunks = [x]) :
    (d.rawKept q tag sl n x).cmdAt q tag = some { c with chunks := [(d.nextRaw sl n x).chunk] } := by
  have taken : Quiet d (takeSerials sl 1 d).2 := ⟨rfl, .of_eq rfl⟩
  have stored := (Dev.cmdAt_of_rings (taken.trans (Quiet.rawStored _ x.data.length)).rings).trans here
  have place : x.ord = (d.nextRaw sl n x).chunk.ord := rfl
  exact cmdAt_keepChunks stored one place

theorem linkOpen_rawKept (up : d.linkOpen .host) : (d.rawKept q tag sl n x).linkOpen .host := linkOpen_rawStored _ up

theorem rawKept_grows : Grows d (d.rawKept q tag sl n x) := (Quiet.rawStored (takeSerials sl 1 d).2 _).out

/-- A write whose one chunk is stored as it is sends its envelope, its chunk and its object, and waits. -/
theorem sendWrite_raw (here : d.cmdAt q tag = some c) (unsent : c.sent = false) (noApply : pktOp c.pkt ≠ 0x52) (one : c.chunks = [x])
    (new : x.isRef = false) (unnamed : x.id = 0) (mode : packMode n.pack = 0) (go : d.cipherStop = none) (lease : 1 ≤ d.leaseLeft sl)
    (agree : run.cmps.headD .agree = .agree) (up : d.linkOpen .host) :
    (∃ y, (sendWrite q qu c n sl run d).cmdAt q tag = some y ∧ y.stage = .crossed ∧ y.host = c.host) ∧
      Sent d (sendWrite q qu c n sl run d) (.sch .host .writeEnvelope ⟨q, tag, 0, pktNsid c.pkt, envelopeArgs c, []⟩) ∧
      Sent d (sendWrite q qu c n sl run d) (.sch .host .newChunk ⟨q, tag, (d.nextRaw sl n x).chunk.id, pktNsid c.pkt,
        [x.ord, rawForm n, 0, 0, (d.nextRaw sl n x).bytes.length], x.fp.getD []⟩) ∧
      Sent d (sendWrite q qu c n sl run d) (.sch .host .writePayload ⟨q, tag, (d.nextRaw sl n x).chunk.id, pktNsid c.pkt, [],
        (d.nextRaw sl n x).bytes⟩) := by
  have kept := cmdAt_rawKept (sl := sl) (n := n) here one
  have open' : ((d.rawKept q tag sl n x).opened q tag).linkOpen .host :=
    linkOpen_rawKept (q := q) (tag := tag) (n := n) up
  have noRefs : [(d.nextRaw sl n x).chunk].filter (·.isRef) = [] := List.filter_eq_nil_iff.mpr (by simp [Dev.nextRaw, rawChunk])
  rw [sendWrite_raw_eq (Dev.cmdAt_tag here) one new unnamed mode go lease agree, sendOpening_one kept unsent rfl noApply, noRefs, List.foldl_nil, sendStored_one]
  obtain ⟨last, envelope, chunk, payload⟩ := sends_cross (cls := qu.cls) (k1 := .writeEnvelope) (k2 := .newChunk) (k3 := .writePayload)
    (m1 := ⟨q, tag, 0, pktNsid c.pkt, envelopeArgs c, []⟩)
    (m2 := ⟨q, tag, (d.nextRaw sl n x).chunk.id, pktNsid c.pkt, [x.ord, rawForm n, 0, 0, (d.nextRaw sl n x).bytes.length], x.fp.getD []⟩)
    (m3 := ⟨q, tag, (d.nextRaw sl n x).chunk.id, pktNsid c.pkt, [], (d.nextRaw sl n x).bytes⟩) (Dev.cmdAt_opened kept) open'
  have before : Grows d ((d.rawKept q tag sl n x).opened q tag) := rawKept_grows (q := q) (tag := tag) (n := n)
  exact ⟨⟨_, last, rfl, rfl⟩, .of_grows before envelope, .of_grows before chunk, .of_grows before payload⟩

end

end

end Sys2Proof.Machine
end

section
/-! PROOFS. WRITE and COMPARE_AND_WRITE of one block that is stored as it is (R84, R85, R124, R206). -/

namespace Sys2Proof.Machine

section
variable {q tag sl : Nat} {qu : Queue} {c : Cmd} {n : Ns} {run : SliceRun} {b : Bytes} {d : Dev}

/-- A message of another class that a class A job suspends changes the messages under way alone (R220). -/
theorem gcmSuspend_eq (sl cls : Nat) (d : Dev) : ∃ g, gcmSuspend sl cls d = d.modIng fun i => { i with gcm := g } := by
  unfold gcmSuspend
  split
  · exact ⟨d.ingest.gcm, rfl⟩
  · exact ⟨_, rfl⟩

/-- The data that a write stores, and what a COMPARE_AND_WRITE keeps to compare (R85). -/
def Cmd.written (c : Cmd) (n : Ns) (b : Bytes) : Bytes :=
  if pktOp c.pkt == 6 then getBytes b (pktNlb c.pkt * n.blockSize) (pktNlb c.pkt * n.blockSize) else b

/-- A command whose chunks are settled. -/
def Cmd.settled (c : Cmd) (n : Ns) (sl : Nat) (b : Bytes) (x : HostChunk) : Cmd :=
  { c with
    chunks := [x], slice := sl, host := if pktOp c.pkt == 6 then b.take (pktNlb c.pkt * n.blockSize) else [], stage := .hostWork, started := true }

/-- The device once a slice has taken a command's data and settled its chunks. -/
def Dev.settledFor (d : Dev) (q : Nat) (g : Tab GcmRun) (c : Cmd) : Dev := (d.modIng fun i => { i with gcm := g }).modCmd q c.tag fun _ => c

theorem Dev.cmdAt_settledFor {x : Cmd} (here : d.cmdAt q tag = some x) (g : Tab GcmRun) (same : c.tag = tag) :
    (d.settledFor q g c).cmdAt q tag = some c := by
  subst same
  rw [Dev.settledFor, Dev.cmdAt_modCmd (f := fun _ => c) fun _ _ => rfl]
  exact congrArg (Option.map _) here

/-- The first phase of a write of one block, once its chunk is settled. -/
theorem settleWrite_one {y : HostChunk} {e : Dev} (one : pktNlb c.pkt = 1) (slice : d.sliceFor run.slice = some sl)
    (settled : settleChunks sl qu.cls n (pktOpts c.pkt) [(padTo n.blockSize (c.written n b), 0)] run.lend (gcmSuspend sl qu.cls d) =
      ([y], run.lend, e)) :
    settleWrite q qu c n run b d = sendWrite q qu (c.settled n sl b y) n sl run (e.modCmd q c.tag fun _ => c.settled n sl b y) := by
  unfold Cmd.written at settled
  simp only [settleWrite, slice, chunksOf_one one, settled]
  rfl

end

/-- What a write of one raw block sends, once it has its data. -/
theorem settleWrite_raw {op q tag sl : Nat} {qu : Queue} {c x : Cmd} {n : Ns} {run : SliceRun} {b : Bytes} {d : Dev}
    (here : d.cmdAt q tag = some x) (same : c.tag = tag) (opcode : pktOp c.pkt = op) (noApply : op ≠ 0x52) (one : pktNlb c.pkt = 1)
    (unsent : c.sent = false) (mode : packMode n.pack = 0) (plain : packDedup n.pack = false) (go : d.cipherStop = none)
    (slice : d.sliceFor run.slice = some sl) (lease : 1 ≤ d.leaseLeft sl) (agree : run.cmps.headD .agree = .agree)
    (filled : allZero (padTo n.blockSize (c.written n b)) = false) (up : d.linkOpen .host) :
    (∃ y, (settleWrite q qu c n run b d).cmdAt q tag = some y ∧ y.stage = .crossed ∧
        y.host = if op == 6 then b.take (pktNlb c.pkt * n.blockSize) else []) ∧
      SentRaw q tag op c n sl (padTo n.blockSize (c.written n b)) d (settleWrite q qu c n run b d) := by
  subst opcode
  obtain ⟨g, suspended⟩ := gcmSuspend_eq sl qu.cls d
  obtain ⟨y, settled, ord, data, new, unnamed, print, -⟩ := settleChunks_raw (sl := sl) (n := n) (opts := pktOpts c.pkt) (cls := qu.cls)
    (lend := run.lend) (d := d.modIng fun i => { i with gcm := g }) filled plain
  have eq : settleWrite q qu c n run b d = sendWrite q qu (c.settled n sl b y) n sl run (d.settledFor q g (c.settled n sl b y)) :=
    settleWrite_one one slice (by rw [suspended]; exact settled)
  rw [eq]
  have there := Dev.cmdAt_settledFor here g (c := c.settled n sl b y) same
  obtain ⟨⟨z, last, crossed, host⟩, envelope, chunk, payload⟩ := sendWrite_raw (qu := qu) (n := n) (run := run)
    (d := d.settledFor q g (c.settled n sl b y)) there unsent noApply rfl new unnamed mode go lease agree up
  have args : envelopeArgs (c.settled n sl b y) = [pktSlba c.pkt, 1, pktFlags c.pkt, pktOpts c.pkt, 1, pktOp c.pkt] := by
    simp [envelopeArgs, Cmd.settled, one]
  have id : ((d.settledFor q g (c.settled n sl b y)).nextRaw sl n y).chunk.id = d.nextId sl := rfl
  have bytes : ((d.settledFor q g (c.settled n sl b y)).nextRaw sl n y).bytes =
      d.rawObject n (d.nextId sl) (padTo n.blockSize (c.written n b)) := by
    rw [← data]
    rfl
  rw [args] at envelope
  rw [id, bytes, ord, print] at chunk
  rw [id, bytes] at payload
  exact ⟨⟨z, last, crossed, host⟩, envelope, chunk, payload⟩

/-! ### The two commands -/

section
variable {op q tag sl : Nat} {run : SliceRun} {qu : Queue} {c : Cmd} {n : Ns} {b : Bytes} {s : State}

theorem rimeBlocked_of_go {d : Dev} (go : d.cipherStop = none) : d.rimeBlocked = false := by
  unfold Dev.cipherStop at go
  split at go
  · contradiction
  · simpa using go

/-- A write that starts takes its data to its slice. -/
theorem runWrite_starts (space : s.dev.ns (pktNsid c.pkt) = some n) (empty : c.chunks = []) (sound : s.dev.rimeBlocked = false)
    (data : run.data = some b) :
    runWrite q run qu c (s.dev.begun q tag) = settleWrite q qu c n run b (readHost q qu c (s.dev.begun q tag)) := by
  have space' : (s.dev.begun q tag).ns (pktNsid c.pkt) = some n := space
  have sound' : (s.dev.begun q tag).rimeBlocked = false := sound
  simp [runWrite, space', empty, sound', data]

theorem runWrite_raw (ready : Ready.io op q tag qu c s) (data : run.data = some b) (noApply : op ≠ 0x52)
    (raw : Ready.rawWrite run c n sl (padTo n.blockSize (c.written n b)) s) :
    (∃ y, (runWrite q run qu c (s.dev.begun q tag)).cmdAt q tag = some y ∧ y.stage = .crossed ∧
        y.host = if op == 6 then b.take (pktNlb c.pkt * n.blockSize) else []) ∧
      SentRaw q tag op c n sl (padTo n.blockSize (c.written n b)) s.dev (runWrite q run qu c (s.dev.begun q tag)) := by
  obtain ⟨space, mode, plain, empty, unsent, -, one, go, slice, lease, agree, filled⟩ := raw
  obtain ⟨waits, -, up⟩ := ready
  rw [runWrite_starts space empty (rimeBlocked_of_go go) data]
  obtain ⟨last, envelope, chunk, payload⟩ := settleWrite_raw (qu := qu) (d := readHost q qu c (s.dev.begun q tag)) waits.cmdAt_begun waits.tag_eq
    waits.opcode noApply one unsent mode plain go slice lease agree filled up
  have before : Grows s.dev (readHost q qu c (s.dev.begun q tag)) := Dev.asks_grows (s.dev.begun q tag) _
  exact ⟨last, .of_grows before envelope, .of_grows before chunk, .of_grows before payload⟩

theorem execWrite_raw (ready : Ready.io 1 q tag qu c s) (data : run.data = some b) (raw : Ready.rawWrite run c n sl (padTo n.blockSize b) s) :
    Does (.write q tag run) s fun t => Crossed q tag t.dev ∧ SentRaw q tag 1 c n sl (padTo n.blockSize b) s.dev t.dev := by
  refine ⟨_, rfl, ?_⟩
  rw [runCmd_io _ ready]
  have written : c.written n b = b := by
    obtain ⟨waits, -⟩ := id ready
    simp [Cmd.written, waits.opcode]
  rw [← written] at raw ⊢
  obtain ⟨⟨y, last, crossed, -⟩, sent⟩ := runWrite_raw ready data (by decide) raw
  exact ⟨crossed_iff.mpr ⟨y, last, crossed⟩, sent⟩

theorem execCompareAndWrite_raw (ready : Ready.io 6 q tag qu c s) (data : run.data = some b)
    (raw : Ready.rawWrite run c n sl (padTo n.blockSize (getBytes b n.blockSize n.blockSize)) s) :
    Does (.compareAndWrite q tag run) s fun t => Crossed q tag t.dev ∧
      SentRaw q tag 6 c n sl (padTo n.blockSize (getBytes b n.blockSize n.blockSize)) s.dev t.dev ∧
      (t.dev.cmdAt q tag).map (·.host) = some (b.take n.blockSize) := by
  refine ⟨_, rfl, ?_⟩
  rw [runCmd_io _ ready]
  obtain ⟨_, _, _, _, _, _, one, _⟩ := id raw
  have written : c.written n b = getBytes b n.blockSize n.blockSize := by
    obtain ⟨waits, -⟩ := id ready
    simp [Cmd.written, waits.opcode, one]
  rw [← written] at raw ⊢
  obtain ⟨⟨y, last, crossed, host⟩, sent⟩ := runWrite_raw ready data (by decide) raw
  have final : ((runWrite q run qu c (s.dev.begun q tag)).modCmd q tag fun c => { c with phase := max 1 c.phase, buf := [] }).cmdAt q tag =
      some { y with phase := max 1 y.phase, buf := [] } := by
    rw [Dev.cmdAt_modCmd (f := fun c => { c with phase := max 1 c.phase, buf := [] }) fun _ same => same, last]
    rfl
  refine ⟨crossed_iff.mpr ⟨_, final, crossed⟩, sent, (congrArg (Option.map _) final).trans ?_⟩
  simpa [one] using host

end

end Sys2Proof.Machine
end

section
/-! PROOFS. What a stream block that closes does to a command that is none of its own (R162 to R168): nothing. -/

namespace Sys2Proof.Machine

/-- The command of a queue with a tag is as it was, and what was sent stays sent. -/
structure Spares (q tag : Nat) (d e : Dev) : Prop where
  cmd : e.cmdAt q tag = d.cmdAt q tag
  out : Grows d e

section
variable {q tag t : Nat} {d e : Dev}

theorem Quiet.spares (h : Quiet d e) : Spares q tag d e := ⟨Dev.cmdAt_of_rings h.rings, h.out⟩

theorem Spares.crossed (h : Spares q tag d e) (crossed : Crossed q tag d) : Crossed q tag e := by
  rw [crossed_iff, h.cmd]
  exact crossed_iff.mp crossed

/-! ### Composition -/

theorem Spares.refl (d : Dev) : Spares q tag d d := ⟨rfl, .refl d⟩

theorem Spares.trans {f : Dev} (h : Spares q tag d e) (k : Spares q tag e f) : Spares q tag d f := ⟨k.cmd.trans h.cmd, h.out.trans k.out⟩

theorem Spares.quiet {f : Dev} (h : Spares q tag d e) (k : Quiet e f) : Spares q tag d f := h.trans k.spares

theorem Spares.ite {c : Prop} [Decidable c] {f : Dev} (h : Spares q tag d e) (k : Spares q tag d f) : Spares q tag d (if c then e else f) := by
  split
  · exact h
  · exact k

theorem Spares.when {c : Bool} {f : Dev → Dev} (h : Spares q tag d e) (k : ∀ e, Spares q tag e (f e)) : Spares q tag d (e.when c f) := by
  unfold Dev.when
  exact .ite (h.trans (k e)) h

theorem Spares.each {α : Type} {l : List α} {f : Dev → α → Dev} (h : Spares q tag d e) (k : ∀ a ∈ l, ∀ d, Spares q tag d (f d a)) :
    Spares q tag d (e.each l f) := by
  induction l generalizing e with
  | nil => exact h
  | cons a l ih => exact ih (h.trans (k a List.mem_cons_self e)) fun b m => k b (List.mem_cons_of_mem a m)

/-! ### Queues and commands -/

theorem Dev.cmdAt_of_cmds (same : (e.queue q).map (·.cmds) = (d.queue q).map (·.cmds)) : e.cmdAt q tag = d.cmdAt q tag := by
  have byCmds (d : Dev) : d.cmdAt q tag = ((d.queue q).map (·.cmds)).bind fun l => l.find? fun c => bits c.pkt.toNat 16 16 == tag := by
    simp only [Dev.cmdAt, Queue.cmd]
    cases d.queue q <;> rfl
  rw [byCmds, byCmds, same]

theorem Dev.cmds_modQ {f : Queue → Queue} (keeps : ∀ x, (f x).cmds = x.cmds) (p : Nat) :
    ((d.modQ p f).queue q).map (·.cmds) = (d.queue q).map (·.cmds) := by
  by_cases h : q = p
  · subst h
    cases here : d.queue q <;> simp [here, keeps]
  · rw [Dev.queue_modQ_ne d f h]

theorem Spares.modQ (h : Spares q tag d e) (p : Nat) {f : Queue → Queue} (keeps : ∀ x, (f x).cmds = x.cmds) : Spares q tag d (e.modQ p f) :=
  h.trans ⟨Dev.cmdAt_of_cmds (Dev.cmds_modQ keeps p), .of_eq rfl⟩

theorem find?_map_other {l : List Cmd} {p : Cmd → Bool} {f : Cmd → Cmd} (keeps : ∀ c, p c = true → f c = c) (never : ∀ c, p (f c) = p c) :
    (l.map f).find? p = l.find? p := by
  induction l with
  | nil => rfl
  | cons c l ih =>
    by_cases h : p c = true
    · simp [h, keeps c h]
    · simp [h, never c, ih]

/-- A change of another command of the queue. -/
theorem Spares.modCmd (h : Spares q tag d e) (other : t ≠ tag) {f : Cmd → Cmd} (keeps : ∀ c, (f c).pkt = c.pkt) :
    Spares q tag d (e.modCmd q t f) := by
  refine h.trans ⟨?_, .of_eq rfl⟩
  unfold Dev.cmdAt Dev.modCmd
  rw [Dev.queue_modQ]
  cases e.queue q with
  | none => rfl
  | some qu =>
    refine find?_map_other (fun c same => if_neg ?_) fun c => ?_
    · exact fun wrong => other (wrong.symm.trans (beq_iff_eq.mp same))
    · split
      · rw [keeps]
      · rfl

/-! ### Another command ends -/

theorem Spares.classABroken (h : Spares q tag d e) (c : Bool) (p : Nat) : Spares q tag d (e.when c (classABroken p)) := by
  obtain ⟨out, same⟩ := when_classABroken p c e
  exact h.trans ⟨by simp [Dev.cmdAt, same], out⟩

theorem writeCqe_grows {x : Cqe} (ends : x.frees = none) (p : Nat) (d : Dev) : Grows d (writeCqe p x d) := by
  unfold writeCqe
  split
  · exact .refl d
  · rw [ends]
    exact Grows.trans (Dev.ask_grows d _) (.trans (.of_eq rfl) (Dev.when_grows (signalQueue_grows _ _)))

theorem Spares.writeCqe (h : Spares q tag d e) {x : Cqe} (ends : x.frees = none) (p : Nat) : Spares q tag d (writeCqe p x e) :=
  h.trans ⟨Dev.cmdAt_of_cmds (writeCqe_cmds p q ends e), writeCqe_grows ends p e⟩

theorem Spares.postCqe (h : Spares q tag d e) {x : Cqe} (ends : x.frees = none) (p : Nat) : Spares q tag d (postCqe p x e) := by
  unfold Machine.postCqe
  split
  · exact h
  · refine Spares.classABroken ?_ _ _
    refine .ite ?_ (.ite ?_ ?_)
    · exact h.quiet ((Quiet.refl e).modFn _ _)
    · exact h.modQ p fun _ => rfl
    · exact h.writeCqe ends p

/-- A command that leaves its queue. -/
theorem Spares.dropCmd (h : Spares q tag d e) (other : t ≠ tag) (p : Nat) :
    Spares q tag d (e.modQ p fun x => { x with cmds := x.cmds.filter fun c => bits c.pkt.toNat 16 16 != t }) := by
  refine h.trans ⟨?_, .of_eq rfl⟩
  by_cases same : q = p
  · subst same
    unfold Dev.cmdAt
    rw [Dev.queue_modQ]
    cases e.queue q with
    | none => rfl
    | some qu =>
      simp only [Option.map_some, Option.bind_some, Queue.cmd, List.find?_filter]
      refine congrArg (qu.cmds.find? ·) (funext fun c => ?_)
      by_cases named : bits c.pkt.toNat 16 16 = tag
      · simp [named, Ne.symm other]
      · simp [named]
  · simp only [Dev.cmdAt, Dev.queue_modQ_ne e _ same]

theorem Spares.noteEnds (h : Spares q tag d e) (fn p t st : Nat) (c : Cmd) :
    Spares q tag d ((noteApply p t st c (noteMember fn p t st c e)).dropCtx p t) :=
  h.quiet (.of_out (by simp) (by simp))

theorem Spares.failCmd (h : Spares q tag d e) (other : t ≠ tag) (p st : Nat) : Spares q tag d (failCmd p t st e) := by
  unfold Machine.failCmd complete completeFreeing
  split
  · exact h
  · exact .ite ((h.dropCmd other p).noteEnds _ _ _ _ _) (((h.dropCmd other p).noteEnds _ _ _ _ _).postCqe rfl p)

theorem Quiet.mediaComplete (h : Quiet d e) (p t st res seq : Nat) : Quiet d (mediaComplete p t st res seq e) := (h.schSend _ _ _ _).dropCtx _ _

theorem Spares.endMember (h : Spares q tag d e) (other : t ≠ tag) (st : Nat) : Spares q tag d (endMember st e q t) := by
  unfold Machine.endMember endCrossed
  split
  · exact h
  · refine .ite (.ite (.quiet ?_ ((Quiet.refl _).mediaComplete _ _ _ _ _)) ?_) ?_
    · exact h.modCmd other fun _ => rfl
    · exact h.modCmd other fun _ => rfl
    · exact (h.quiet ((Quiet.refl e).dropCtx q t)).failCmd other q st

/-! ### Chunks stored and sent -/

theorem Quiet.quarantine (h : Quiet d e) (n : Nat) : Quiet d (quarantine n e) := .ite h (((h.set _).putBit _ _ _).fault _ _ _ _ _)

theorem Quiet.verifyMismatch (h : Quiet d e) (n : Nat) : Quiet d (verifyMismatch n e) := by
  unfold Machine.verifyMismatch
  exact ((h.bump _ _).fault _ _ _ _ _).when fun e => (Quiet.refl e).quarantine n

theorem Quiet.compare2 (h : Quiet d e) (n len : Nat) (c : Cmp) : Quiet d (compare2 n len c e).2 := by
  cases c with
  | agree => exact (h.drbgServe _).bump _ _
  | recovered => exact ((((h.drbgServe _).bump _ _).bump _ _).fault _ _ _ _ _).bump _ _
  | failed => exact ((((h.drbgServe _).bump _ _).bump _ _).fault _ _ _ _ _).when fun e => (Quiet.refl e).quarantine n

theorem Quiet.encryptUnit (h : Quiet d e) (sl : Nat) (n : Ns) (id ord : Nat) (plain : Bytes) (run : SliceRun) :
    Quiet d (encryptUnit sl n id ord plain run e).2.2 := by
  have compared := h.compare2 sl plain.length (run.cmps.headD .agree)
  simp only [Machine.encryptUnit, nextCmp]
  split <;> rename_i eq <;> rw [eq] at compared <;> exact compared

theorem Quiet.iteForm {α β γ : Type} {c : Prop} [Decidable c] {x y : α × β × γ × Dev} (h : Quiet d x.2.2.2) (k : Quiet d y.2.2.2) :
    Quiet d (if c then x else y).2.2.2 := by
  split
  · exact h
  · exact k

theorem Quiet.packChunk (h : Quiet d e) (sl : Nat) (n : Ns) (opts : Nat) (data : Bytes) (run : SliceRun) :
    Quiet d (packChunk sl n opts data run e).2.2.2 := by
  unfold Machine.packChunk
  refine .iteForm (h.bump _ _) (.iteForm (h.bump _ _) (.iteForm h ?_))
  exact (h.verifyMismatch sl).bump _ _

theorem Quiet.storeChunks (sl : Nat) (n : Ns) (opts : Nat) (l : List HostChunk) (id : Nat) (run : SliceRun) (e : Dev) :
    Quiet e (storeChunks sl n opts id l run e).2.2 := by
  induction l generalizing id run e with
  | nil => exact .refl e
  | cons c l ih =>
    have packed := (Quiet.refl e).packChunk sl n opts c.data run
    rcases eq : Machine.packChunk sl n opts c.data run e with ⟨form, plain, run', e'⟩
    rw [eq] at packed
    have sealed := packed.encryptUnit sl n id 0 plain run'
    simp only [Machine.storeChunks, eq]
    split <;> rename_i eq' <;> rw [eq'] at sealed
    · exact sealed
    · exact sealed.trans (ih _ _ _)

theorem Quiet.sealContainers (sl : Nat) (n : Ns) (block : Nat) (l : List Bytes) (ord : Nat) (run : SliceRun) (e : Dev) :
    Quiet e (sealContainers sl n block ord l run e).2.2 := by
  induction l generalizing ord run e with
  | nil => exact .refl e
  | cons b l ih =>
    have sealed := (Quiet.refl e).encryptUnit sl n block ord b run
    simp only [Machine.sealContainers]
    split <;> rename_i eq <;> rw [eq] at sealed
    · exact sealed
    · exact sealed.trans (ih _ _ _)

theorem Spares.keepChunks (h : Spares q tag d e) (other : t ≠ tag) (l : List HostChunk) : Spares q tag d (keepChunks q t l e) :=
  h.modCmd other fun _ => rfl

theorem Spares.crossIfSent (h : Spares q tag d e) (other : t ≠ tag) : Spares q tag d (crossIfSent q t e) := by
  unfold Machine.crossIfSent
  split
  · exact h
  · refine .ite ?_ h
    exact h.modCmd other fun _ => rfl

theorem Spares.sendOpening (h : Spares q tag d e) (other : t ≠ tag) (cls : Nat) : Spares q tag d (sendOpening q t cls e) := by
  unfold Machine.sendOpening
  split
  · exact h
  · rename_i c _
    refine .ite h (Spares.each (.quiet (h.modCmd other ?_) ((Quiet.refl _).schSend _ _ _ _)) ?_)
    · exact fun _ => rfl
    · exact fun x _ d => ((Quiet.refl d).schSend _ _ _ _).spares

theorem Quiet.sendStored (h : Quiet d e) (p t nsid cls : Nat) (l : List Stored) : Quiet d (sendStored p t nsid cls l e) :=
  h.each fun d _ => ((Quiet.refl d).schSend _ _ _ _).schSend _ _ _ _

end

/-! ### A block closes -/

theorem mem_of_mem_tagsOf {l : List (Nat × HostChunk)} {t : Nat} (m : t ∈ tagsOf l) : ∃ x ∈ l, x.1 = t := by
  have kept (l : List (Nat × HostChunk)) (ts : List Nat) (m : t ∈ l.foldl (fun t x => if t.contains x.1 then t else t ++ [x.1]) ts) :
      t ∈ ts ∨ ∃ x ∈ l, x.1 = t := by
    induction l generalizing ts with
    | nil => exact .inl m
    | cons y l ih =>
      rcases ih _ m with early | ⟨x, late, same⟩
      · dsimp only at early
        split at early
        · exact .inl early
        · rcases List.mem_append.mp early with old | new
          · exact .inl old
          · exact .inr ⟨y, List.mem_cons_self, (List.mem_singleton.mp new).symm⟩
      · exact .inr ⟨x, List.mem_cons_of_mem y late, same⟩
  exact (kept l [] m).resolve_left (by simp)

section
variable {q tag : Nat} {d e : Dev} {l : List (Nat × HostChunk)}

theorem ne_of_mem_tagsOf (others : ∀ x ∈ l, x.1 ≠ tag) : ∀ t ∈ tagsOf l, t ≠ tag := fun t m => by
  obtain ⟨x, here, rfl⟩ := mem_of_mem_tagsOf m
  exact others x here

theorem Spares.sendBlock (h : Spares q tag d e) (others : ∀ x ∈ l, x.1 ≠ tag) (nsid cls sl : Nat) (n : Ns) (run : SliceRun) :
    Spares q tag d (sendBlock q nsid cls sl n l run e).2 := by
  have tags := ne_of_mem_tagsOf others
  have failed {e : Dev} (h : Spares q tag d e) : Spares q tag d (e.each (tagsOf l) fun d t => Machine.endMember stCipherCompare d q t) :=
    h.each fun t m d => (Spares.refl d).endMember (tags t m) _
  have opened {e : Dev} (h : Spares q tag d e) : Spares q tag d (e.each (tagsOf l) fun d t => Machine.sendOpening q t cls d) :=
    h.each fun t m d => (Spares.refl d).sendOpening (tags t m) cls
  have closed {e : Dev} (h : Spares q tag d e) : Spares q tag d (e.each (tagsOf l) fun d t => Machine.crossIfSent q t d) :=
    h.each fun t m d => (Spares.refl d).crossIfSent (tags t m)
  have taken : Spares q tag d (takeSerials sl l.length e).2 := h.trans ⟨rfl, .of_eq rfl⟩
  have checked (job : Option (List Bytes) × Bool) : Spares q tag d ((takeSerials sl l.length e).2.when job.2 (Machine.verifyMismatch sl)) :=
    taken.when fun e => ((Quiet.refl e).verifyMismatch sl).spares
  have numbered {f : (Nat × HostChunk) × Nat → HostChunk} : ∀ x ∈ l.zipIdx.map (fun x => (x.1.1, f x)), x.1 ≠ tag := fun x m => by
    obtain ⟨y, here, rfl⟩ := List.mem_map.mp m
    exact others y.1 (List.fst_mem_of_mem_zipIdx here)
  simp only [Machine.sendBlock]
  generalize (if (takeSerials sl l.length e).2.quarantined sl = true then (none, false) else streamJob _ _ _ _) = job
  have checked := checked job
  generalize (takeSerials sl l.length e).2.when job.2 (Machine.verifyMismatch sl) = e1 at checked ⊢
  split
  · have sealed := Quiet.sealContainers sl n (takeSerials sl l.length e).1 ‹_› 0 (nextCode run).2 e1
    split <;> rename_i eq <;> rw [eq] at sealed
    · exact failed (checked.quiet sealed)
    · refine closed (.each (.each (opened (.each (checked.quiet sealed) ?_)) ?_) ?_)
      · exact fun x m d => (Spares.refl d).keepChunks (numbered x m) _
      · exact fun x _ d => ((Quiet.refl d).schSend _ _ _ _).spares
      · exact fun b _ d => ((Quiet.refl d).schSend _ _ _ _).spares
  · have stored := Quiet.storeChunks sl { n with pack := 0 } 2 (l.map (·.2)) (takeSerials sl l.length e).1 (nextCode run).2
      (e1.when (!job.2 && !e1.quarantined sl) fun d => d.bump ING_CNT_STREAM_FAIL.COUNT 1)
    have counted := checked.when (c := !job.2 && !e1.quarantined sl) fun e => ((Quiet.refl e).bump ING_CNT_STREAM_FAIL.COUNT 1).spares
    split <;> rename_i eq <;> rw [eq] at stored
    · exact failed (counted.quiet stored)
    · refine closed (.each (opened (.each (counted.quiet stored) ?_)) ?_)
      · exact fun x m d => (Spares.refl d).keepChunks (others x.1 (List.of_mem_zip m).1) _
      · exact fun x _ d => ((Quiet.refl d).sendStored _ _ _ _ _).spares

/-- A block that closes leaves a command that crossed alone. -/
theorem Crossed.spares_closeBlock (crossed : Crossed q tag d) (run : SliceRun) : Spares q tag d (closeBlock q run d).2 := by
  obtain ⟨c, here, stage⟩ := crossed_iff.mp crossed
  unfold closeBlock
  split
  · exact .refl d
  · rename_i b _
    extract_lets clear l
    have others : ∀ x ∈ l, x.1 ≠ tag := fun x m same => by
      have working := (List.mem_filter.mp m).2
      rw [same, show (d.queue q).bind (·.cmd tag) = some c from here] at working
      simp [stage] at working
    have cleared : Spares q tag d (clear d) := (Spares.refl d).modQ q fun _ => rfl
    split
    · exact cleared
    · split
      · exact cleared.each fun t m d => (Spares.refl d).endMember (ne_of_mem_tagsOf others t m) _
      · split
        · refine Spares.quiet (e := d.modQ q fun x => { x with block := some { b with closing := true } }) ?_ ((Quiet.refl _).askLease _)
          exact (Spares.refl d).modQ q fun _ => rfl
        · split
          · exact cleared
          · exact cleared.sendBlock others _ _ _ _ _

end

end Sys2Proof.Machine
end

section
/-! PROOFS. A WRITE of one block of zeros (R125, R163): its chunk is a reference to the zero chunk. -/

namespace Sys2Proof.Machine

section
variable {q tag sl : Nat} {qu : Queue} {c : Cmd} {n : Ns} {run : SliceRun} {b : Bytes} {x : HostChunk} {d : Dev} {s : State}

/-- The device once a write without new chunks has sent its opening. -/
def Dev.zeroSent (d : Dev) (q tag cls : Nat) : Dev := crossCmd q tag (sendOpening q tag cls (keepChunks q tag [] d))

theorem cmdAt_keepNone (here : d.cmdAt q tag = some c) : (keepChunks q tag [] d).cmdAt q tag = some c := by
  rw [keepChunks, Dev.cmdAt_modCmd (f := fun c => { c with chunks := [].foldl (fun cs x => putChunk x cs) c.chunks }) fun _ same => same, here]
  rfl

/-- Two messages that go one after the other, and their command then waits for the media half. -/
theorem two_sends_cross {k1 k2 : Kind} {cls : Nat} {m1 m2 : Msg} (here : d.cmdAt q tag = some c) (up : d.linkOpen .host) :
    (fun e => Crossed q tag e ∧ Sent d e (.sch .host k2 m2)) (crossCmd q tag (schSend .host k2 cls m2 (schSend .host k1 cls m1 d))) :=
  ⟨crossed_crossCmd (cmdAt_schSend (cmdAt_schSend here)), .of_grows (schSend_grows _ _ _ _ _) (schSend_sent (linkOpen_schSend up))⟩

theorem zeroSent_sends {cls : Nat} (here : d.cmdAt q tag = some c) (unsent : c.sent = false) (noApply : pktOp c.pkt ≠ 0x52) (one : c.chunks = [x])
    (zero : x.isRef = true) (up : d.linkOpen .host) : Crossed q tag (d.zeroSent q tag cls) ∧ Sent d (d.zeroSent q tag cls)
      (.sch .host .referenceChunk ⟨q, tag, x.id, pktNsid c.pkt, [x.ord], x.fp.getD (List.replicate 32 0)⟩) := by
  have kept := cmdAt_keepNone here
  have open' : ((keepChunks q tag [] d).opened q tag).linkOpen .host := up
  have refs : [x].filter (·.isRef) = [x] := by simp [zero]
  rw [Dev.zeroSent, sendOpening_one kept unsent one noApply, refs, List.foldl_cons, List.foldl_nil, sendRef]
  exact two_sends_cross (Dev.cmdAt_opened kept) open'

/-- A write that has no new chunk sends its opening; an open block of its namespace may close behind it. -/
theorem sendWrite_zero_spares (here : d.cmdAt q tag = some c) (one : c.chunks = [x]) (zero : x.isRef = true)
    (crossed : Crossed q tag (d.zeroSent q tag qu.cls)) : Spares q tag (d.zeroSent q tag qu.cls) (sendWrite q qu c n sl run d) := by
  have none : c.chunks.filter (fun x => !x.isRef && x.id == 0) = [] := by simp [one, zero]
  have rest : sendWrite q qu c n sl run d = if c.joins && !c.sent && packMode n.pack == 2 && bit (pktOpts c.pkt) 2 &&
      (((d.zeroSent q tag qu.cls).queue q).bind (·.block)).any (fun b => b.nsid == pktNsid c.pkt) then
        (closeBlock q run (d.zeroSent q tag qu.cls)).2 else d.zeroSent q tag qu.cls := by
    simp only [sendWrite, none, Dev.cmdAt_tag here]
    simp [storeChunks]
    rfl
  rw [rest]
  exact .ite (crossed.spares_closeBlock run) (.refl _)

/-- What a write of one block of zeros sends, once it has its data (R125). -/
theorem settleWrite_zero {z : Cmd} (here : d.cmdAt q tag = some z) (same : c.tag = tag) (noApply : pktOp c.pkt ≠ 0x52) (one : pktNlb c.pkt = 1)
    (unsent : c.sent = false) (slice : d.sliceFor run.slice = some sl) (zeros : allZero (padTo n.blockSize (c.written n b)) = true)
    (up : d.linkOpen .host) : Crossed q tag (settleWrite q qu c n run b d) ∧ Sent d (settleWrite q qu c n run b d)
      (.sch .host .referenceChunk ⟨q, tag, 0, pktNsid c.pkt, [0], List.replicate 32 0⟩) := by
  obtain ⟨g, suspended⟩ := gcmSuspend_eq sl qu.cls d
  obtain ⟨y, settled, ord, zero, id, print⟩ := settleChunks_zero (sl := sl) (n := n) (opts := pktOpts c.pkt) (cls := qu.cls)
    (lend := run.lend) (d := d.modIng fun i => { i with gcm := g }) zeros
  let e : Dev := (((d.modIng fun i => { i with gcm := g }).bump ING_CNT_ZERO.COUNT 1).modCmd q c.tag fun _ => c.settled n sl b y)
  have eq : settleWrite q qu c n run b d = sendWrite q qu (c.settled n sl b y) n sl run e :=
    settleWrite_one one slice (by rw [suspended]; exact settled)
  have there : e.cmdAt q tag = some (c.settled n sl b y) :=
    Dev.cmdAt_settledFor (d := d.bump ING_CNT_ZERO.COUNT 1) here g (c := c.settled n sl b y) same
  have up' : e.linkOpen .host := linkOpen_wr (d := d) _ (by decide) up
  obtain ⟨crossed, sent⟩ := zeroSent_sends (cls := qu.cls) there unsent noApply rfl zero up'
  rw [ord, id, print] at sent
  have spared := sendWrite_zero_spares (n := n) (sl := sl) (run := run) there rfl zero crossed
  rw [eq]
  exact ⟨spared.crossed crossed, sent.trans_grows spared.out⟩

theorem execWrite_zero (ready : Ready.io 1 q tag qu c s) (data : run.data = some b) (space : s.dev.ns (pktNsid c.pkt) = some n)
    (empty : c.chunks = []) (unsent : c.sent = false) (one : pktNlb c.pkt = 1) (sound : s.dev.rimeBlocked = false)
    (slice : s.dev.sliceFor run.slice = some sl) (zeros : allZero (padTo n.blockSize b) = true) :
    Does (.write q tag run) s fun t => Crossed q tag t.dev ∧
      Sent s.dev t.dev (.sch .host .referenceChunk ⟨q, tag, 0, pktNsid c.pkt, [0], List.replicate 32 0⟩) := by
  refine ⟨_, rfl, ?_⟩
  rw [runCmd_io _ ready, runWrite_starts space empty sound data]
  obtain ⟨waits, -, up⟩ := ready
  have written : c.written n b = b := by simp [Cmd.written, waits.opcode]
  obtain ⟨crossed, sent⟩ := settleWrite_zero (qu := qu) (d := readHost q qu c (s.dev.begun q tag)) waits.cmdAt_begun waits.tag_eq
    (by simp [waits.opcode]) one unsent slice (written.symm ▸ zeros) up
  have before : Grows s.dev (readHost q qu c (s.dev.begun q tag)) := Dev.asks_grows (s.dev.begun q tag) _
  exact ⟨crossed, .of_grows before sent⟩

end

/-- Settles O2: a command that may run starts, sends its message while its link is up, and waits for the media half. A write of one block
first has its chunk settled and stored (`settleWrite_raw`, `settleWrite_zero`); behind a block of zeros an open stream block may close, which
leaves the command alone (`Crossed.spares_closeBlock`). -/
theorem ioCommandsCross : Obligations.IoCommandsCross := by
  unfold Obligations.IoCommandsCross
  refine ⟨?nop, ?read, ?verify, ?zeroes, ?deallocate, ?compare, ?copy, ?write, ?compareAndWrite, ?zeros⟩
  case nop =>
    intro q tag qu c s waits free
    refine ⟨_, rfl, ?_⟩
    rw [runCmd_waits _ waits (.inr (.inr free))]
    exact waits.answered_now rfl rfl rfl rfl (fun _ _ => rfl) (.of_eq rfl)
  case read => exact fun q tag qu c s ready sliced => ⟨_, rfl, crossRead_crosses ready sliced⟩
  case verify => exact fun q tag qu c s ready sliced => ⟨_, rfl, crossRead_crosses ready sliced⟩
  case zeroes => exact fun q tag qu c s ready => ⟨_, rfl, runOther_crosses ready⟩
  case deallocate => exact fun q tag qu c s ready => ⟨_, rfl, runOther_crosses ready⟩
  case compare => exact fun q tag b qu c s ready sliced => execCompare_crosses ready sliced
  case copy => exact fun q tag qu c s ready sound => execCopy_crosses ready sound
  case write => exact fun q tag run b qu c n sl s ready data raw => execWrite_raw ready data raw
  case compareAndWrite => exact fun q tag run b qu c n sl s ready data raw => execCompareAndWrite_raw ready data raw
  case zeros =>
    exact fun q tag run b qu c n sl s ready data space empty unsent one sound slice zeros =>
      execWrite_zero ready data space empty unsent one sound slice zeros

end Sys2Proof.Machine
end

section
/-! PROOFS. Descriptors at the media half that complete at once (R104, R251, R313): a read of blocks that show nothing, and the opening of a
freeze group. -/

namespace Sys2Proof.Machine

section
variable {m : Msg} {ops : List Nat} {c : Cmd} {s : State} {d e : Dev} {x : MCtx}

/-! ### The command that a message names -/

theorem cmdAt_of_waiting (h : d.waiting m ops = some c) : d.cmdAt m.q m.tag = some c ∧ m.nsid = pktNsid c.pkt := by
  unfold Dev.waiting at h
  split at h
  · contradiction
  · rename_i y here
    split at h
    · rename_i fits
      obtain rfl := Option.some.inj h
      exact ⟨here, beq_iff_eq.mp (Bool.and_eq_true_iff.mp fits).2⟩
    · contradiction

/-! ### A context that opens -/

/-- A context as it opens for a message. -/
structure Opened (m : Msg) (kind : MKind) (snap slba nlb flags : Nat) (x : MCtx) : Prop where
  q : x.q = m.q
  tag : x.tag = m.tag
  kind : x.kind = kind
  nsid : x.nsid = m.nsid
  snap : x.snap = snap
  slba : x.slba = slba
  nlb : x.nlb = nlb
  flags : x.flags = flags
  formed : x.formed = false
  recon : x.recon = 0

theorem openCtx_opened {kind : MKind} {snap slba nlb flags opts nchunk : Nat} {src : Nat × Nat × Nat} (none : d.ctxs = []) :
    ∃ x, (openCtx m kind snap slba nlb flags opts nchunk src d).ctxs = [x] ∧ Opened m kind snap slba nlb flags x := by
  simp only [openCtx, none, List.filter_nil, List.nil_append]
  exact ⟨_, rfl, rfl, rfl, rfl, rfl, rfl, rfl, rfl, rfl, rfl, rfl⟩

/-! ### A context that ends -/

theorem settle_of_none (none : d.ctxs = []) : settle d = noteWaits d := by
  simp [settle, none, Dev.each]

/-- The command whose context is the only one completes: its context is gone and its completion is sent. -/
theorem settle_mediaComplete {st res seq : Nat} (only : d.ctxs = [x]) (hq : x.q = m.q) (ht : x.tag = m.tag) (here : d.cmdAt m.q m.tag = some c)
    (up : d.linkOpen .media) : (settle (mediaComplete m.q m.tag st res seq d)).ctxs = [] ∧
      Sent d (settle (mediaComplete m.q m.tag st res seq d)) (.sch .media .completion ⟨m.q, m.tag, 0, c.nsid, [st, res, seq], []⟩) := by
  have gone : (mediaComplete m.q m.tag st res seq d).ctxs = [] := by
    simp [mediaComplete, Dev.dropCtx, only, hq, ht]
  have named : (((d.queue m.q).bind (·.cmd m.tag)).map Cmd.nsid).getD (((d.ctx m.q m.tag).map (·.nsid)).getD 0) = c.nsid := by
    rw [show (d.queue m.q).bind (·.cmd m.tag) = some c from here]
    rfl
  rw [settle_of_none gone]
  refine ⟨(noteWaits_ctxs _).trans gone, Sent.trans_grows ?_ ((Quiet.refl _).noteWaits).out⟩
  rw [mediaComplete, named]
  exact schSend_sent up

/-- GROUP_OPEN at the media half (R313): its context opens and ends. -/
theorem execFreezeGroup_opens (ready : Ready.msg m [0x40, 0x41, 0x42, 0x43] c s) (none : s.dev.ctxs = []) (ref : m.ref = pktGos c.pkt)
    (args : m.args = [0]) : Does (.freezeGroupOperation m) s fun t => t.dev.ctxs = [] ∧
      Sent s.dev t.dev (.sch .media .completion ⟨m.q, m.tag, 0, m.nsid, [0, 0, 0], []⟩) := by
  let d : Dev := openCtx m (.groupOp 0) 0 0 0 0 0 0 (0, 0, 0) s.dev
  have run : execFreezeGroupOperation m s = s.ok (settle (mediaComplete m.q m.tag stSuccess 0 0 d)) := by
    rw [execFreezeGroupOperation, schTurn_of_ready ready]
    refine congrArg s.ok (mediaMsg_opens ready ?_)
    simp [ref, args, Dev.ctx_eq_none_of_nil none, groupOperation, d]
  obtain ⟨up, -, names, -⟩ := ready
  obtain ⟨here, same⟩ := cmdAt_of_waiting names
  obtain ⟨x, only, hq, ht, -⟩ := openCtx_ctxs_of_nil (m := m) (kind := .groupOp 0) (snap := 0) (slba := 0) (nlb := 0) (flags := 0) (opts := 0)
    (nchunk := 0) (src := (0, 0, 0)) none
  rw [same]
  exact ⟨_, run, settle_mediaComplete (d := d) only hq ht here up⟩

/-! ### A read of blocks that show nothing (R104) -/

/-- The blocks of a read. -/
abbrev MCtx.lbas (x : MCtx) : List Nat := (List.range x.nlb).map (x.slba + ·)

theorem readBlocks_blank {n : Ns} (here : d.ctx m.q m.tag = some x) (space : d.nsAny x.nsid = some n) (live : x.snap = 0)
    (blank : ∀ b ∈ x.lbas, d.shows n x.nsid 0 b = 0 ∧ d.divergentAt x.nsid b = false) : ∃ items,
      readBlocks m.q m.tag d = endRead m.q m.tag stSuccess (d.modCtx m.q m.tag fun y => { y with reads := items, need := [] }) := by
  have whole : x.lbas.any (fun b => d.divergentAt x.nsid b) = false := List.any_eq_false.mpr fun b m => by simp [blank b m]
  have nothing {f : Nat × Nat → MItem} (shown : ∀ b, (f b).id = d.shows n x.nsid x.snap b.1) :
      (x.lbas.zipIdx.map f).filter (fun i => i.id != 0) = [] := by
    refine List.filter_eq_nil_iff.mpr fun i here => ?_
    obtain ⟨b, place, rfl⟩ := List.mem_map.mp here
    simp [shown, live, blank b.1 (List.fst_mem_of_mem_zipIdx place)]
  unfold readBlocks
  rw [here]
  simp only [space]
  rw [if_neg (by simpa [live] using whole), nothing fun _ => rfl]
  exact ⟨_, rfl⟩

theorem cmdAt_markTook (here : d.cmdAt m.q m.tag = some c) : (markTook m.q m.tag d).cmdAt m.q m.tag = some { c with took := true } := by
  have kept : (d.modCtx m.q m.tag fun c => { c with took := true }).cmdAt m.q m.tag = some c := here
  rw [markTook, Dev.cmdAt_modCmd (f := fun c => { c with took := true }) fun _ same => same, kept]
  rfl

/-- A read that ends well is marked and completes; its stripe reads are dropped. -/
theorem endRead_success (here : d.ctx m.q m.tag = some x) (read : x.kind = .read) (whole : x.recon = 0) :
    ∃ l, endRead m.q m.tag stSuccess d = mediaComplete m.q m.tag stSuccess 0 0 (markTook m.q m.tag (dropFreed { d with reads := l })) := by
  unfold endRead
  rw [here]
  simp only [read, whole, ite_self]
  exact ⟨_, rfl⟩

/-- A read whose blocks all show nothing ends at once. -/
theorem settle_endRead (only : d.ctxs = [x]) (hq : x.q = m.q) (ht : x.tag = m.tag) (read : x.kind = .read) (whole : x.recon = 0)
    (here : d.cmdAt m.q m.tag = some c) (up : d.linkOpen .media) : (settle (endRead m.q m.tag stSuccess d)).ctxs = [] ∧
      Sent d (settle (endRead m.q m.tag stSuccess d)) (.sch .media .completion ⟨m.q, m.tag, 0, c.nsid, [0, 0, 0], []⟩) := by
  obtain ⟨l, ends⟩ := endRead_success (Dev.ctx_of_only only hq ht) read whole
  let e : Dev := dropFreed { d with reads := l }
  have marked : (markTook m.q m.tag e).ctxs = [{ x with took := true }] := Dev.modCtx_ctxs_of_only (d := e) only hq ht _
  rw [ends]
  exact settle_mediaComplete (c := { c with took := true }) (d := markTook m.q m.tag e) marked hq ht (cmdAt_markTook (d := e) here) up

theorem execReadDescriptor_blank {n : Ns} (ready : Ready.msg m [2, 5, 6, 7] c s) (none : s.dev.ctxs = []) (nsid : m.nsid = pktNsid c.pkt)
    (ref : m.ref = 0) (gos : pktGos c.pkt = 0) (op : pktOp c.pkt = 2) (args : m.args = [pktSlba c.pkt, pktNlb c.pkt, pktOpts c.pkt, 0])
    (space : tget s.dev.nss m.nsid = some n)
    (blank : ∀ i < pktNlb c.pkt, s.dev.shows n m.nsid 0 (pktSlba c.pkt + i) = 0 ∧ s.dev.divergentAt m.nsid (pktSlba c.pkt + i) = false) :
    Does (.readDescriptor m) s fun t => t.dev.ctxs = [] ∧
      Sent s.dev t.dev (.sch .media .completion ⟨m.q, m.tag, 0, m.nsid, [0, 0, 0], []⟩) := by
  let d : Dev := openCtx m .read 0 (pktSlba c.pkt) (pktNlb c.pkt) 0 (pktOpts c.pkt) 0 (0, 0, 0) s.dev
  have run : execReadDescriptor m s = s.ok (settle (readBlocks m.q m.tag d)) := by
    rw [execReadDescriptor, schTurn_of_ready ready]
    refine congrArg s.ok (mediaMsg_opens ready ?_)
    simp [nsid, ref, gos, op, args, Dev.ctx_eq_none_of_nil none, d, readKind]
  obtain ⟨up, -, names, -⟩ := ready
  obtain ⟨here, same⟩ := cmdAt_of_waiting names
  obtain ⟨x, only, opened⟩ : ∃ x, d.ctxs = [x] ∧ Opened m .read 0 (pktSlba c.pkt) (pktNlb c.pkt) 0 x := openCtx_opened none
  have shows : ∀ b ∈ x.lbas, d.shows n x.nsid 0 b = 0 ∧ d.divergentAt x.nsid b = false := fun b place => by
    obtain ⟨i, least, rfl⟩ := List.mem_map.mp place
    rw [opened.nlb] at least
    rw [opened.slba, opened.nsid]
    exact blank i (List.mem_range.mp least)
  have there : d.nsAny x.nsid = some n := opened.nsid.symm ▸ space
  obtain ⟨items, reads⟩ := readBlocks_blank (Dev.ctx_of_only only opened.q opened.tag) there opened.snap shows
  rw [reads] at run
  rw [same]
  refine ⟨_, run, ?_⟩
  exact settle_endRead (d := d.modCtx m.q m.tag fun y => { y with reads := items, need := [] })
    (Dev.modCtx_ctxs_of_only only opened.q opened.tag _) opened.q opened.tag opened.kind opened.recon here up

end

end Sys2Proof.Machine
end

section
/-! PROOFS. Descriptors at the media half that form a record of one MAP_DELTA entry (R290, R293, R465): zeroes, and a snapshot. -/

namespace Sys2Proof.Machine

/-! ### The size of the record (R290) -/

theorem mopBytes_length (a b c d e f : Nat) : (mopBytes a b c d e f).length = 32 := by simp [mopBytes]

theorem sectionBytes_length {body : Bytes} (full : body.length = 32) (stype : Nat) : (sectionBytes stype body).length = 40 := by
  simp [sectionBytes, full]

/-- A record of one command that carries one MAP_DELTA entry and no other section. -/
structure OneDelta (x : MapDelta) (r : FRec) : Prop where
  cmds : r.cmds.length ≤ 1
  delta : r.mapDelta = [x]
  chunks : r.chunks = []
  refs : r.refs = []
  refDelta : r.refDelta = []
  members : r.members = []
  effects : r.effects = []
  marks : r.marks = []
  plan : r.plan = none

theorem OneDelta.npage {x : MapDelta} {r : FRec} (one : OneDelta x r) (full : x.bytes.length = 32) : r.npage = 1 := by
  have sections : r.sections = sectionBytes 4 x.bytes := by
    simp [FRec.sections, one.cmds, one.delta, one.chunks, one.refs, one.refDelta, one.members, one.effects, one.marks, one.plan, listSection,
      objOffsets]
  simp [FRec.npage, FRec.payload, one.chunks, sections, sectionBytes_length full]

/-! ### A record that enters at once (R284 to R286) -/

theorem mayEnter_of_roomy {r : FRec} {d : Dev} (room : Roomy r.pool 1 d) (small : r.npage = 1) (type : r.rtype < 3) : d.mayEnter r = true := by
  obtain ⟨⟨noDump, noWait, pages, slots⟩, -, noLocks, noSwap, acked, others⟩ := room
  have host : r.internal = false := by simpa [FRec.internal] using type
  have admitted : d.admits r = true := by
    by_cases first : r.cls = 0
    · have least : 1 ≤ d.freeOutside.1 ∧ 1 ≤ d.freeOutside.2 := ⟨by omega, by omega⟩
      simp [Dev.admits, host, small, first, least]
    · simp [Dev.admits, host, small, first, pages, slots]
  have free : d.heldBack r = false := by
    have settled : (d.firn.recs.any fun e => e.2.pool == r.pool && e.2.seq == 0) = false :=
      List.any_eq_false.mpr fun e m => by simpa using others e m
    simp [Dev.heldBack, Dev.lockHolds, noLocks, noSwap, acked, settled]
  simp [Dev.mayEnter, Dev.fitsNow, noDump, admitted, free, noWait]

/-! ### What stands once the record was formed -/

theorem noteWaits_recs (d : Dev) : (noteWaits d).firn.recs = d.firn.recs := by
  have stores (f : Firn → Firn) (l : List FRec) : ((d.modFirn f).each l fun d w =>
      (d.bump FRN_CNT_SPACE_WAITS.COUNT 1).when (w.cls == 0 && !w.internal) fun d =>
        fault .media 0x0A 8 3 false (d.set FRN_STATUS.CLASS_A_WAIT)).part .stores = (d.modFirn f).part .stores :=
    Dev.part_each fun d w => by simp
  exact (congrArg (fun d => d.firn.recs) (stores _ _) :)

/-- What stands in a header slot stays there as records begin to wait for space. -/
theorem noteWaits_recAt (d : Dev) (slot : Nat) : (noteWaits d).recAt slot = d.recAt slot := by
  rw [Dev.recAt, noteWaits_recs]
  rfl

/-- A record that enters at once is assigned. -/
theorem formRec_assigned {r : FRec} {d : Dev} {P : FRec → Prop} (simple : Simple r) (room : Roomy r.pool 1 d) (small : r.npage = 1)
    (type : r.rtype < 3) (holds : ∀ x, Stamped d r x → P x) : Assigned r.rtype r.pool P d (formRec r d) := by
  obtain ⟨-, home, -⟩ := id room
  obtain ⟨slot, x, free, there, stamped⟩ := formRec_stamped simple home (mayEnter_of_roomy room small type)
  exact ⟨slot, x, free, there, stamped.rtype, stamped.pool, stamped.seq, stamped.time, holds x stamped⟩

theorem Assigned.noteWaits {rtype pool : Nat} {P : FRec → Prop} {d e : Dev} (h : Assigned rtype pool P d e) :
    Assigned rtype pool P d (noteWaits e) := by
  obtain ⟨slot, r, free, there, holds⟩ := h
  exact ⟨slot, r, free, (noteWaits_recAt e slot).trans there, holds⟩

/-- The record stands as it does for the state before, where that has the same records and the same time. -/
theorem Assigned.base {rtype pool : Nat} {P : FRec → Prop} {d d' e : Dev} (h : Assigned rtype pool P d' e) (firn : d'.firn = d.firn)
    (time : d'.tbMedia = d.tbMedia) : Assigned rtype pool P d e := by
  obtain ⟨slot, r, free, there, type, same, seq, stamp, holds⟩ := h
  have free' : d.recAt slot = none := by simpa only [Dev.recAt, firn] using free
  have seq' : r.seq = d.nextSeq pool := by simpa only [Dev.nextSeq, firn] using seq
  exact ⟨slot, r, free', there, type, same, seq', stamp.trans time, holds⟩

/-! ### Zeroes (R104) -/

section
variable {m : Msg} {c : Cmd} {s : State} {n : Ns} {x : MCtx} {d : Dev}

/-- The record of a WRITE_ZEROES: its blocks are bound to the zero chunk. -/
def zeroesRec (x : MCtx) (n : Ns) (d : Dev) : FRec := { recFor x [x] n d with mapDelta := [.bind x.nsid x.slba x.nlb 0] }

theorem zeroesRec_simple (x : MCtx) (n : Ns) (d : Dev) : Simple (zeroesRec x n d) := ⟨rfl, by simp [zeroesRec, recFor, plainTypes], rfl, rfl⟩

theorem zeroesRec_npage (x : MCtx) (n : Ns) (d : Dev) : (zeroesRec x n d).npage = 1 :=
  OneDelta.npage ⟨Nat.le_refl 1, rfl, rfl, rfl, rfl, rfl, rfl, rfl, rfl⟩ (mopBytes_length _ _ _ _ _ _)

/-- Commands that have taken their data hold nothing back (R104). -/
theorem hazard_took {d : Dev} {q : Nat} {y : Cmd} (p : Cmd → Bool) (free : d.hazard q y = false) :
    (d.modQ q fun x => { x with cmds := x.cmds.map fun e => if p e then { e with took := true } else e }).hazard q y = false := by
  unfold Dev.hazard at free ⊢
  obtain ⟨fetches, cmds⟩ := Bool.or_eq_false_iff.mp free
  refine Bool.or_eq_false_iff.mpr ⟨fetches, ?_⟩
  rw [Dev.queue_modQ]
  cases here : d.queue q with
  | none => rfl
  | some qu =>
    simp only [here] at cmds
    simp only [Option.map_some, List.any_map]
    refine List.any_eq_false.mpr fun e m => ?_
    simp only [Function.comp_apply]
    split
    · simp
    · exact List.any_eq_false.mp cmds e m

theorem unheld_of_hazard {y : Cmd} (here : d.cmdAt x.q x.tag = some y) (free : d.hazard x.q y = false) : d.unheld [x] x = true := by
  unfold Dev.unheld
  rw [show (d.queue x.q).bind (·.cmd x.tag) = some y from here]
  exact congrArg not (hazard_took (fun e => [x].any fun z => z.q == x.q && z.tag == e.tag) free)

/-- The context of a WRITE_ZEROES that nothing holds back forms its record. -/
theorem settleOne_zeroes {y : Cmd} (there : d.ctx x.q x.tag = some x) (space : d.ns x.nsid = some n) (kind : x.kind = .zeroes)
    (unformed : x.formed = false) (here : d.cmdAt x.q x.tag = some y) (free : d.hazard x.q y = false) :
    settleOne x d = formRec (zeroesRec x n d) (d.modCtx x.q x.tag fun c => { c with formed := true, refs := c.nlb }) := by
  unfold settleOne
  simp [there, space, kind, unformed, unheld_of_hazard here free]
  rfl

theorem settle_of_only (only : d.ctxs = [x]) : settle d = noteWaits (settleOne x d) := by
  simp [settle, only, Dev.each]

/-- What a WRITE_ZEROES makes of its pool (R293). -/
theorem formRec_zeroes {op : Nat} {e : Dev} (opened : Opened m .zeroes 0 (pktSlba c.pkt) (pktNlb c.pkt) op x) (room : Roomy n.pool 1 d) :
    Assigned rtWrite n.pool (fun r => r.nsid = m.nsid ∧ r.slba = pktSlba c.pkt ∧ r.nlb = pktNlb c.pkt ∧
      r.mapDelta = [.bind m.nsid (pktSlba c.pkt) (pktNlb c.pkt) 0] ∧ r.cmds = [⟨m.q, m.tag, pktSlba c.pkt, pktNlb c.pkt, 0⟩]) d
      (formRec (zeroesRec x n e) d) := by
  refine formRec_assigned (r := zeroesRec x n e) (zeroesRec_simple x n e) room (zeroesRec_npage x n e) (by decide : rtWrite < 3) fun z stamped => ?_
  refine ⟨?_, ?_, ?_, ?_, ?_⟩
  · exact stamped.nsid.trans opened.nsid
  · exact stamped.slba.trans (by simp [zeroesRec, recFor, opened.slba])
  · exact stamped.nlb.trans (by simp [zeroesRec, recFor, opened.slba, opened.nlb])
  · exact (stamped.plain rfl).trans (by simp [zeroesRec, opened.nsid, opened.slba, opened.nlb])
  · exact stamped.cmds.trans (by simp [zeroesRec, recFor, opened.q, opened.tag, opened.slba, opened.nlb])

theorem execOtherIo_zeroes (ready : Ready.msg m [3, 4, 5, 6, 8] c s) (none : s.dev.ctxs = []) (nsid : m.nsid = pktNsid c.pkt)
    (op : pktOp c.pkt = 3) (args : m.args = [ioZeroes, pktSlba c.pkt, pktNlb c.pkt, 0, 0]) (space : s.dev.ns m.nsid = some n)
    (free : s.dev.hazard m.q c = false) (room : Roomy n.pool 1 s.dev) : Does (.otherIo m) s fun t =>
      Assigned rtWrite n.pool (fun r => r.nsid = m.nsid ∧ r.slba = pktSlba c.pkt ∧ r.nlb = pktNlb c.pkt ∧
        r.mapDelta = [.bind m.nsid (pktSlba c.pkt) (pktNlb c.pkt) 0] ∧ r.cmds = [⟨m.q, m.tag, pktSlba c.pkt, pktNlb c.pkt, 0⟩]) s.dev t.dev := by
  let d : Dev := openCtx m .zeroes 0 (pktSlba c.pkt) (pktNlb c.pkt) 0 0 0 (0, 0, 0) s.dev
  have run : execOtherIo m s = s.ok (settle d) := by
    rw [execOtherIo, schTurn_of_ready ready]
    refine congrArg s.ok (mediaMsg_opens ready ?_)
    simp [nsid, op, args, Dev.ctx_eq_none_of_nil none, d]
  obtain ⟨-, -, names, -⟩ := ready
  obtain ⟨here, -⟩ := cmdAt_of_waiting names
  obtain ⟨x, only, opened⟩ : ∃ x, d.ctxs = [x] ∧ Opened m .zeroes 0 (pktSlba c.pkt) (pktNlb c.pkt) 0 x := openCtx_opened none
  have same : d.cmdAt x.q x.tag = some c := by rw [opened.q, opened.tag]; exact here
  have free' : d.hazard x.q c = false := by rw [opened.q]; exact free
  have space' : d.ns x.nsid = some n := by rw [opened.nsid]; exact space
  have formed : settleOne x d = formRec (zeroesRec x n d) (d.modCtx x.q x.tag fun c => { c with formed := true, refs := c.nlb }) :=
    settleOne_zeroes (Dev.ctx_of_only only rfl rfl) space' opened.kind opened.formed same free'
  refine ⟨_, run, ?_⟩
  rw [settle_of_only only, formed]
  have assigned := formRec_zeroes (c := c) (e := d) (d := d.modCtx x.q x.tag fun c => { c with formed := true, refs := c.nlb }) opened room
  exact assigned.noteWaits.base rfl rfl

/-! ### A snapshot (R465, R471) -/

theorem snowSendFor_ctxs (fn : Nat) (k : Kind) (cls : Nat) (m : Msg) (d : Dev) : (snowSendFor fn k cls m d).ctxs = d.ctxs := by
  obtain ⟨f, stores⟩ := snowSendFor_stores fn k cls m d
  exact (congrArg Dev.ctxs stores :)

theorem Dev.each_ctxs {α : Type} {l : List α} {f : Dev → α → Dev} (h : ∀ d a, (f d a).ctxs = d.ctxs) : (d.each l f).ctxs = d.ctxs := by
  induction l generalizing d with
  | nil => rfl
  | cons a l ih => exact ih.trans (h d a)

theorem sendRecord_ctxs (slot : Nat) (d : Dev) : (sendRecord slot d).ctxs = d.ctxs := by
  unfold sendRecord
  split
  · rfl
  · exact Dev.each_ctxs (d := modRec slot _ d) fun d s => snowSendFor_ctxs _ _ _ _ d

theorem assignSeq_ctxs {r : FRec} {slot : Nat} (here : d.recAt slot = some r) (refs : r.refs = []) : (assignSeq slot d).ctxs = d.ctxs := by
  unfold assignSeq
  simp only [here, refs, List.filter_nil, Dev.each, List.foldl_nil]
  cases snapOf r.mapDelta <;> rfl

/-- A record that enters at once leaves the contexts alone. -/
theorem formRec_ctxs {r : FRec} (simple : Simple r) (home : d.isHome r.pool = true) (may : d.mayEnter r = true) : (formRec r d).ctxs = d.ctxs := by
  have here := takeSlot_recAt r d
  have assigned : (assignSeq (takeSlot r d).1 (takeSlot r d).2).ctxs = d.ctxs := assignSeq_ctxs here simple.refs
  rw [formRec_of_simple simple home may, assignNow_of_simple (simple.placed d) here, Dev.when]
  split
  · exact (sendRecord_ctxs _ _).trans assigned
  · exact assigned

/-- The record of a SNAP_CREATE. -/
def snapRec (x : MCtx) (pool label : Nat) (d : Dev) : FRec := mapRec x pool [.snapMark x.nsid 0 label] d

theorem snapRec_simple (x : MCtx) (pool label : Nat) (d : Dev) : Simple (snapRec x pool label d) :=
  ⟨rfl, by simp [snapRec, mapRec, plainTypes], rfl, rfl⟩

theorem snapRec_npage (x : MCtx) (pool label : Nat) (d : Dev) : (snapRec x pool label d).npage = 1 :=
  OneDelta.npage ⟨Nat.le_refl 1, rfl, rfl, rfl, rfl, rfl, rfl, rfl, rfl⟩ (mopBytes_length _ _ _ _ _ _)

theorem formRec_snap {op snap flags label : Nat} {e : Dev} (opened : Opened m (.varve op) snap 0 0 flags x) (space : d.nsAny m.nsid = some n)
    (room : Roomy n.pool 1 d) : Assigned rtMap n.pool (fun r => r.mapDelta = [.snapMark m.nsid n.nextSnap label] ∧ r.aux = n.nextSnap ∧
      r.cmds = [⟨m.q, m.tag, 0, 0, 0⟩]) d (formRec (snapRec x n.pool label e) d) := by
  refine formRec_assigned (r := snapRec x n.pool label e) (snapRec_simple x n.pool label e) room (snapRec_npage x n.pool label e)
    (by decide : rtMap < 3) fun z stamped => ?_
  have named : snapOf (snapRec x n.pool label e).mapDelta = some x.nsid := rfl
  obtain ⟨delta, aux⟩ := stamped.snap x.nsid n named (opened.nsid.symm ▸ space)
  refine ⟨delta.trans ?_, aux rfl, stamped.cmds.trans ?_⟩
  · simp [snapRec, mapRec, fillSnap, opened.nsid]
  · simp [snapRec, mapRec, opened.q, opened.tag]

theorem settle_of_varve {op : Nat} (only : d.ctxs = [x]) (kind : x.kind = .varve op) : settle d = noteWaits d := by
  rw [settle_of_only only]
  congr 1
  unfold settleOne
  rw [Dev.ctx_of_only only rfl rfl]
  cases d.ns x.nsid <;> simp [kind]

/-- The device once the context of a SNAP_CREATE has formed its record. -/
def Dev.snapped (d : Dev) (x : MCtx) (pool label : Nat) : Dev :=
  formRec (snapRec x pool label d) (d.modCtx x.q x.tag fun c => { c with formed := true })

theorem varveNow_snap {snap label : Nat} (space : d.ns x.nsid = some n) (more : d.snapLimit x.nsid n = false) :
    varveNow 0x48 snap label x d = d.snapped x n.pool label := by
  simp only [varveNow, space, more]
  rfl

theorem settle_snapped {op label : Nat} (only : d.ctxs = [x]) (kind : x.kind = .varve op) (room : Roomy n.pool 1 d) :
    settle (d.snapped x n.pool label) = noteWaits (d.snapped x n.pool label) := by
  have room' : Roomy n.pool 1 (d.modCtx x.q x.tag fun c => { c with formed := true }) := room
  have may := mayEnter_of_roomy (r := snapRec x n.pool label d) room' (snapRec_npage _ _ _ _) (by decide : rtMap < 3)
  obtain ⟨-, home, -⟩ := room'
  have kept : (d.snapped x n.pool label).ctxs = [{ x with formed := true }] :=
    (formRec_ctxs (snapRec_simple _ _ _ _) home may).trans (Dev.modCtx_ctxs_of_only only rfl rfl _)
  exact settle_of_varve kept kind

theorem execVarveOperation_snap {label : Nat} (ready : Ready.msg m [0x48, 0x49, 0x4A, 0x52] c s) (none : s.dev.ctxs = [])
    (nsid : m.nsid = pktNsid c.pkt) (op : pktOp c.pkt = 0x48) (args : m.args = [0x48, 0, label]) (space : s.dev.ns m.nsid = some n)
    (more : s.dev.snapLimit m.nsid n = false) (room : Roomy n.pool 1 s.dev) : Does (.varveOperation m) s fun t =>
      Assigned rtMap n.pool (fun r => r.mapDelta = [.snapMark m.nsid n.nextSnap label] ∧ r.aux = n.nextSnap ∧ r.cmds = [⟨m.q, m.tag, 0, 0, 0⟩])
        s.dev t.dev := by
  let d : Dev := openCtx m (.varve 0x48) m.ref 0 0 0 0 0 (0, 0, 0) s.dev
  obtain ⟨x, only, opened⟩ : ∃ x, d.ctxs = [x] ∧ Opened m (.varve 0x48) m.ref 0 0 0 x := openCtx_opened none
  have there : d.ctx m.q m.tag = some x := Dev.ctx_of_only only opened.q opened.tag
  have space' : d.ns x.nsid = some n := by rw [opened.nsid]; exact space
  have more' : d.snapLimit x.nsid n = false := by rw [opened.nsid]; exact more
  have run : execVarveOperation m s = s.ok (settle (varveNow 0x48 m.ref label x d)) := by
    rw [execVarveOperation, schTurn_of_ready ready]
    refine congrArg s.ok (mediaMsg_opens ready ?_)
    have there' : (openCtx m (.varve 0x48) m.ref 0 0 0 0 0 (0, 0, 0) s.dev).ctx m.q m.tag = some x := there
    simp [nsid, op, args, Dev.ctx_eq_none_of_nil none, there', d]
  have known : s.dev.nsAny m.nsid = some n := Option.eq_some_of_filter_eq_some space
  refine ⟨_, run, ?_⟩
  rw [varveNow_snap space' more', settle_snapped only opened.kind room]
  have assigned := formRec_snap (label := label) (e := d) (d := d.modCtx x.q x.tag fun c => { c with formed := true }) opened known room
  exact assigned.noteWaits.base rfl rfl

end

/-- Settles O19: the message opens the command's context, the only one there is. A read of blocks that show nothing and the opening of a group
complete with it (`settle_mediaComplete`); zeroes and a snapshot form a record that enters at once (`formRec_assigned`). -/
theorem descriptorsActAtTheMediaHalf : Obligations.DescriptorsActAtTheMediaHalf := by
  unfold Obligations.DescriptorsActAtTheMediaHalf
  refine ⟨?read, ?zeroes, ?group, ?snapshot⟩
  case read =>
    exact fun m c n s ready none nsid ref gos op args space blank => execReadDescriptor_blank ready none nsid ref gos op args space blank
  case zeroes =>
    exact fun m c n s ready none nsid op args space free room => execOtherIo_zeroes ready none nsid op args space free room
  case group => exact fun m c s ready none ref args => execFreezeGroup_opens ready none ref args
  case snapshot =>
    exact fun m label c n s ready none nsid op args space more room => execVarveOperation_snap ready none nsid op args space more room

end Sys2Proof.Machine
end

section
/-! PROOFS. The registers of the slices and of the index (R148 to R153, R177, R181): what their events write, field by field. -/

namespace Sys2Proof.Machine

/-! ### Fields that are set and cleared -/

section
variable {d : Dev} {f g : Field} {v : Nat}

theorem Dev.is_wr : (d.wr f v).is f = (v % 2 ^ f.width != 0) := by rw [Dev.is, Dev.rd_wr]

theorem Dev.is_wr_ne (other : g.key ≠ f.key) : (d.wr f v).is g = d.is g := by rw [Dev.is, Dev.rd_wr_ne d v other, Dev.is]

theorem Dev.is_set (one : f.width = 1) : (d.set f).is f = true := by simp [Dev.set, Dev.is_wr, one]

@[simp] theorem Dev.is_clr : (d.clr f).is f = false := by simp [Dev.clr, Dev.is_wr]

theorem Dev.is_put {b : Bool} (one : f.width = 1) : (d.put f b).is f = b := by cases b <;> simp [Dev.put, Dev.is_wr, one, b2n]

theorem Dev.is_set_ne (other : g.key ≠ f.key) : (d.set f).is g = d.is g := Dev.is_wr_ne other
theorem Dev.is_clr_ne (other : g.key ≠ f.key) : (d.clr f).is g = d.is g := Dev.is_wr_ne other
theorem Dev.is_put_ne {b : Bool} (other : g.key ≠ f.key) : (d.put f b).is g = d.is g := Dev.is_wr_ne other
theorem Dev.rd_set_ne (other : g.key ≠ f.key) : (d.set f).rd g = d.rd g := Dev.rd_wr_ne d 1 other
theorem Dev.rd_clr_ne (other : g.key ≠ f.key) : (d.clr f).rd g = d.rd g := Dev.rd_wr_ne d 0 other

end

/-! ### The index is cleared and configured (R148 to R150, R153, R181) -/

section
variable {d : Dev} {path : Path} {s : State}

theorem invalidate_of_idle (idle : d.is ING_STATUS.INV_BUSY = false) :
    (invalidate d).ingest.drift = [] ∧ (invalidate d).ingest.lfsr ≠ 0 ∧ (invalidate d).is ING_STATUS.INV_BUSY = true := by
  have shape : ∃ e x, invalidate d = (Dev.modIng e fun i => { i with drift := [], lfsr := if x = 0 then 1 else x }).set ING_STATUS.INV_BUSY := by
    simp only [invalidate, idle]
    exact ⟨_, _, rfl⟩
  obtain ⟨e, x, shape⟩ := shape
  rw [shape]
  refine ⟨rfl, ?_, Dev.is_set rfl⟩
  show (if x = 0 then 1 else x) ≠ 0
  split
  · decide
  · assumption

theorem execInvalidateDone_of_busy (busy : s.dev.is ING_STATUS.INV_BUSY = true) : Does .invalidateDone s fun t =>
    t.dev.is ING_STATUS.INV_BUSY = false ∧ t.dev.is ING_STATUS.INV_CLEAN = true := by
  refine ⟨_, rfl, ?_⟩
  rw [if_pos busy]
  exact ⟨(Dev.is_set_ne (by decide)).trans Dev.is_clr, Dev.is_set rfl⟩

theorem askTable_is (f : Field) : (askTable d).is f = d.is f := by
  unfold askTable
  split
  · simp [Dev.is]
  · rfl

/-- LEND_EN is written after the other enables, and leaves them as they are. -/
theorem ingCfgWrite_enables {value : Nat} : (ingCfgWrite value d).is ING_CFG.DEDUP_EN = bit value 0 ∧
    (ingCfgWrite value d).is ING_CFG.DRIFT_EN = (bit value 1 && (d.is ING_CFG.DRIFT_EN || d.is ING_STATUS.INV_CLEAN)) := by
  have dedup : (d.put ING_CFG.DEDUP_EN (bit value 0)).is ING_CFG.DEDUP_EN = bit value 0 := Dev.is_put rfl
  have drift : (d.put ING_CFG.DEDUP_EN (bit value 0)).is ING_CFG.DRIFT_EN = d.is ING_CFG.DRIFT_EN := Dev.is_put_ne (by decide)
  unfold ingCfgWrite
  extract_lets clean e1 e2
  have both : e2.is ING_CFG.DEDUP_EN = bit value 0 ∧ e2.is ING_CFG.DRIFT_EN = (bit value 1 && (d.is ING_CFG.DRIFT_EN || clean)) := by
    change e1.is ING_CFG.DRIFT_EN = _ at drift
    change e1.is ING_CFG.DEDUP_EN = _ at dedup
    dsimp only [e2]
    cases on : bit value 1 <;> cases was : d.is ING_CFG.DRIFT_EN <;> cases free : clean <;>
      simp (disch := decide) [drift, dedup, was, Dev.is_set_ne, Dev.is_clr_ne, Dev.is_set]
  have rest {g : Field} (apart : g.key ∉ [ING_CFG.LEND_EN, ING_STATUS.LEND_ON, ING_STATUS.INV_CLEAN, ING_STATUS.ENABLE_REFUSED].map (·.key)) :
      (if (bit value 2 && !e2.is ING_CFG.LEND_EN) = true then
        if clean = true then askTable ((e2.set ING_CFG.LEND_EN).modIng fun i => { i with lendCopied := false })
        else e2.set ING_STATUS.ENABLE_REFUSED
      else if (!bit value 2 && e2.is ING_CFG.LEND_EN) = true then lendOff e2 else e2).is g = e2.is g := by
    obtain ⟨enable, on, fresh, refused⟩ : g.key ≠ ING_CFG.LEND_EN.key ∧ g.key ≠ ING_STATUS.LEND_ON.key ∧
        g.key ≠ ING_STATUS.INV_CLEAN.key ∧ g.key ≠ ING_STATUS.ENABLE_REFUSED.key := by simpa using apart
    split
    · split
      · exact (askTable_is g).trans (Dev.is_set_ne enable)
      · exact Dev.is_set_ne refused
    · split
      · exact (Dev.is_clr_ne fresh).trans ((Dev.is_clr_ne on).trans (Dev.is_clr_ne enable))
      · rfl
  exact ⟨(rest (by decide)).trans both.1, (rest (by decide)).trans both.2⟩

theorem ingIndexWrite_lines {value v : Nat} (lines : bits value 0 27 = v) (off : d.is ING_CFG.DEDUP_EN = false) :
    if v ≤ 83886080 then (ingIndexWrite 0x200010 value d).rd ING_NEVE_LINES.LINES = v ∧
      (ingIndexWrite 0x200010 value d).is ING_STATUS.INV_CLEAN = false
    else (ingIndexWrite 0x200010 value d).rd ING_NEVE_LINES.LINES = d.rd ING_NEVE_LINES.LINES ∧
      (ingIndexWrite 0x200010 value d).is ING_STATUS.CONFIG_REFUSED = true := by
  split
  next fits =>
    have taken : ingIndexWrite 0x200010 value d = (d.wr ING_NEVE_LINES.LINES v).clr ING_STATUS.INV_CLEAN := by
      simp [ingIndexWrite, lines, off, fits]
    rw [taken]
    refine ⟨?_, Dev.is_clr⟩
    rw [Dev.rd_clr_ne (by decide), Dev.rd_wr]
    exact Nat.mod_eq_of_lt (fits.trans_lt (by decide))
  next large =>
    have refused : ingIndexWrite 0x200010 value d = d.set ING_STATUS.CONFIG_REFUSED := by
      simp [ingIndexWrite, lines, off, Nat.lt_of_not_le large]
    rw [refused]
    exact ⟨Dev.rd_set_ne (by decide), Dev.is_set rfl⟩

theorem execLendTableCopied_taken {table : List Nat} (enabled : s.dev.is ING_CFG.LEND_EN = true) (asked : s.dev.ingest.lendCopied = false)
    (sends : s.dev.holding s.dev.lendFn = false) : Does (.lendTableCopied (some table)) s fun t =>
      t.dev.is ING_STATUS.LEND_ON = true ∧ t.dev.ingest.lendTable = table.take (s.dev.rd ING_LEND_PAGES.PAGES) := by
  have taken : execLendTableCopied (some table) s = s.ok ((s.dev.modIng fun i =>
      { i with lendTable := table.take (s.dev.rd ING_LEND_PAGES.PAGES), lendCopied := true }).set ING_STATUS.LEND_ON) := by
    simp [execLendTableCopied, enabled, asked, sends]
  exact ⟨_, taken, Dev.is_set rfl, rfl⟩

end

/-! ### A slice goes back into service (R177) -/

/-- Clearing a bit of a number clears that bit alone. -/
theorem testBit_setBit_false (v n i : Nat) : (setBit v n false).testBit i = (!decide (i = n) && v.testBit i) := by
  unfold setBit
  split
  next clear => 
    by_cases same : i = n
    · simp [same, clear]
    · simp [same]
  next set =>
    have odd : v / 2 ^ n % 2 = 1 := by simpa [Nat.testBit_eq_decide_div_mod_eq] using set
    have split : v = 2 ^ n * (2 * (v / 2 ^ n / 2) + 1) + v % 2 ^ n := by
      rw [show 2 * (v / 2 ^ n / 2) + 1 = v / 2 ^ n by omega, Nat.div_add_mod]
    have less : v - 2 ^ n = 2 ^ n * (2 * (v / 2 ^ n / 2)) + v % 2 ^ n := by
      conv_lhs => rw [split]
      rw [Nat.mul_add]; omega
    have low := Nat.mod_lt v (Nat.two_pow_pos n)
    simp only [Bool.false_eq_true, if_false]
    rw [less, Nat.testBit_two_pow_mul_add _ low]
    conv_rhs => rw [split, Nat.testBit_two_pow_mul_add _ low]
    rcases lt_trichotomy i n with h | rfl | h
    · simp [h, h.ne]
    · simp
    · obtain ⟨k, rfl⟩ := Nat.exists_eq_add_of_lt h
      simp [Nat.testBit_succ, show ¬ n + k + 1 < n by omega, show n + k + 1 - n = k + 1 by omega, show n + k + 1 ≠ n by omega]
      congr 1
      omega

/-- A slice back in service: its bit of QUARANTINED is 0, and so are its counts. -/
def backInService (m : Nat) (d : Dev) : Dev :=
  (((d.clr (ING_SLICE.VMISMATCH m)).clr (RIM_SLICE.CMISMATCH m)).clr (ING_SLICE.QUAR m)).putBit ING_STATUS.QUARANTINED m false

theorem quarRelease_eq (mask : Nat) (d : Dev) :
    quarRelease mask d = d.each (List.range 16) fun d m => d.when (bit mask m) (backInService m) := rfl

section
variable {n m : Nat} {d : Dev}

theorem backInService_quarantined (slice : m < 16) :
    (backInService m d).rd ING_STATUS.QUARANTINED = setBit (d.rd ING_STATUS.QUARANTINED) m false % 2 ^ 16 := by
  rw [backInService, Dev.putBit, Dev.rd_wr, Dev.rd_clr_ne, Dev.rd_clr_ne, Dev.rd_clr_ne]
  · rfl
  all_goals simp only [Field.key, ING_SLICE.VMISMATCH, RIM_SLICE.CMISMATCH, ING_STATUS.QUARANTINED, ING_SLICE.QUAR]; omega

theorem backInService_vmismatch (slice : n < 16) (here : m < 16) :
    (backInService m d).rd (ING_SLICE.VMISMATCH n) = if n = m then 0 else d.rd (ING_SLICE.VMISMATCH n) := by
  rw [backInService, Dev.putBit, Dev.rd_wr_ne, Dev.rd_clr_ne, Dev.rd_clr_ne]
  · split
    next same => simp [same, Dev.clr]
    next other => exact Dev.rd_clr_ne (by simp only [Field.key, ING_SLICE.VMISMATCH]; omega)
  all_goals simp only [Field.key, ING_SLICE.VMISMATCH, RIM_SLICE.CMISMATCH, ING_STATUS.QUARANTINED, ING_SLICE.QUAR]; omega

theorem backInService_cmismatch (slice : n < 16) (here : m < 16) :
    (backInService m d).rd (RIM_SLICE.CMISMATCH n) = if n = m then 0 else d.rd (RIM_SLICE.CMISMATCH n) := by
  rw [backInService, Dev.putBit, Dev.rd_wr_ne, Dev.rd_clr_ne]
  · split
    next same => simp [same, Dev.clr]
    next other =>
      rw [Dev.rd_clr_ne, Dev.rd_clr_ne]
      all_goals simp only [Field.key, ING_SLICE.VMISMATCH, RIM_SLICE.CMISMATCH]; omega
  all_goals simp only [Field.key, RIM_SLICE.CMISMATCH, ING_STATUS.QUARANTINED, ING_SLICE.QUAR]; omega

end

/-- Slice `n` is back in service with its counts at 0 where `back` says so, and stands as it did otherwise. -/
structure Returned (n : Nat) (back : Bool) (d e : Dev) : Prop where
  quarantined : bit (e.rd ING_STATUS.QUARANTINED) n = (!back && bit (d.rd ING_STATUS.QUARANTINED) n)
  vmismatch : e.rd (ING_SLICE.VMISMATCH n) = if back then 0 else d.rd (ING_SLICE.VMISMATCH n)
  cmismatch : e.rd (RIM_SLICE.CMISMATCH n) = if back then 0 else d.rd (RIM_SLICE.CMISMATCH n)

section
variable {n m mask : Nat} {a b : Bool} {d e f : Dev}

theorem Returned.refl (n : Nat) (d : Dev) : Returned n false d d := ⟨rfl, rfl, rfl⟩

theorem Returned.trans (h : Returned n a d e) (k : Returned n b e f) : Returned n (a || b) d f := by
  refine ⟨?_, ?_, ?_⟩
  · rw [k.quarantined, h.quarantined, Bool.not_or, Bool.and_left_comm, Bool.and_assoc]
  · rw [k.vmismatch, h.vmismatch]
    cases b <;> simp
  · rw [k.cmismatch, h.cmismatch]
    cases b <;> simp

theorem returned_backInService (slice : n < 16) (here : m < 16) : Returned n (m == n) d (backInService m d) := by
  have named : (m == n) = decide (n = m) := decide_eq_decide.mpr eq_comm
  rw [named]
  refine ⟨?_, ?_, ?_⟩
  · rw [backInService_quarantined here, bit, Nat.testBit_mod_two_pow, testBit_setBit_false]
    simp [bit, slice]
  · simp [backInService_vmismatch slice here]
  · simp [backInService_cmismatch slice here]

theorem returned_each (slice : n < 16) {l : List Nat} (slices : ∀ m ∈ l, m < 16) :
    Returned n (l.any fun m => bit mask m && m == n) d (d.each l fun d m => d.when (bit mask m) (backInService m)) := by
  induction l generalizing d with
  | nil => exact .refl n d
  | cons m l ih =>
    have first : Returned n (bit mask m && m == n) d (d.when (bit mask m) (backInService m)) := by
      cases masked : bit mask m with
      | false => exact .refl n d
      | true => exact returned_backInService slice (slices m List.mem_cons_self)
    exact first.trans (ih fun k there => slices k (List.mem_cons_of_mem m there))

theorem returned_quarRelease (slice : n < 16) : Returned n (bit mask n) d (quarRelease mask d) := by
  have named : ((List.range 16).any fun m => bit mask m && m == n) = bit mask n := by
    rw [Bool.eq_iff_iff, List.any_eq_true]
    simp [slice]
  rw [quarRelease_eq, ← named]
  exact returned_each slice fun m => List.mem_range.mp

end
end Sys2Proof.Machine
end

section
/-! PROOFS. A stream block closes and a lease is granted (R127, R163 to R168): the open block of the queue, and the serials left to the
slices, through all that a block does as it goes out. -/

namespace Sys2Proof.Machine

/-- What a block that closes changes of the slices: the open block of its queue, and the leases. -/
def Dev.blockAndLeases (q : Nat) (d : Dev) : Option StreamBlock × Tab (Nat × Nat) := ((d.queue q).bind (·.block), d.ingest.lease)

section
variable {q p t : Nat} {d e : Dev}

/-! ### Composition -/

theorem blockAndLeases_of_host (same : e.part .host = d.part .host) : e.blockAndLeases q = d.blockAndLeases q := by
  have rings : e.rings = d.rings := (congrArg Dev.rings same :)
  have ingest : e.ingest = d.ingest := (congrArg Dev.ingest same :)
  rw [Dev.blockAndLeases, Dev.blockAndLeases, Dev.queue, Dev.queue, rings, ingest]

theorem blockAndLeases_when {c : Bool} {f : Dev → Dev} (keeps : (f d).blockAndLeases q = d.blockAndLeases q) :
    (d.when c f).blockAndLeases q = d.blockAndLeases q := by
  unfold Dev.when
  split
  · exact keeps
  · rfl

theorem blockAndLeases_each {α : Type} {l : List α} {f : Dev → α → Dev} (keeps : ∀ d a, (f d a).blockAndLeases q = d.blockAndLeases q) :
    (d.each l f).blockAndLeases q = d.blockAndLeases q := by
  induction l generalizing d with
  | nil => rfl
  | cons a l ih => exact ih.trans (keeps d a)

/-! ### Queues and commands -/

theorem blockAndLeases_modQ {f : Queue → Queue} (keeps : ∀ x, (f x).block = x.block) :
    (d.modQ p f).blockAndLeases q = d.blockAndLeases q := by
  refine Prod.ext ?_ rfl
  show ((d.modQ p f).queue q).bind (·.block) = (d.queue q).bind (·.block)
  by_cases same : q = p
  · subst same
    cases here : d.queue q <;> simp [here, keeps]
  · rw [Dev.queue_modQ_ne d f same]

theorem blockAndLeases_modCmd {f : Cmd → Cmd} : (d.modCmd p t f).blockAndLeases q = d.blockAndLeases q :=
  blockAndLeases_modQ fun _ => rfl

/-! ### A command ends -/

theorem blockAndLeases_classABroken : (classABroken p d).blockAndLeases q = d.blockAndLeases q := by
  have exceeded (fn : Nat) : (classAExceeded fn p d).blockAndLeases q = d.blockAndLeases q := by
    unfold classAExceeded
    extract_lets due
    split
    · exact (blockAndLeases_of_host part_queueEvent).trans rfl
    · rfl
  unfold classABroken
  split
  · rfl
  · split
    · exact exceeded _
    · rfl

theorem blockAndLeases_signalQueue : (signalQueue p d).blockAndLeases q = d.blockAndLeases q := by
  unfold signalQueue
  split
  · rfl
  · split
    · rfl
    · exact (blockAndLeases_of_host part_trigger).trans (blockAndLeases_modQ fun _ => rfl)

theorem blockAndLeases_writeCqe {x : Cqe} (ends : x.frees = none) : (writeCqe p x d).blockAndLeases q = d.blockAndLeases q := by
  unfold writeCqe
  split
  · rfl
  · rw [ends]
    exact (blockAndLeases_when blockAndLeases_signalQueue).trans (blockAndLeases_modQ fun _ => rfl)

theorem blockAndLeases_postCqe {x : Cqe} (ends : x.frees = none) : (postCqe p x d).blockAndLeases q = d.blockAndLeases q := by
  unfold postCqe
  split
  · rfl
  · refine (blockAndLeases_when blockAndLeases_classABroken).trans ?_
    split
    · exact blockAndLeases_of_host Dev.part_modFn
    · split
      · exact blockAndLeases_modQ fun _ => rfl
      · exact blockAndLeases_writeCqe ends

theorem blockAndLeases_noteEnds (fn st : Nat) (c : Cmd) :
    ((noteApply p t st c (noteMember fn p t st c d)).dropCtx p t).blockAndLeases q = d.blockAndLeases q := by
  have member : (noteMember fn p t st c d).blockAndLeases q = d.blockAndLeases q := blockAndLeases_of_host (part_noteMember nofun)
  rw [← member]
  generalize noteMember fn p t st c d = e
  unfold noteApply
  split
  · rfl
  · dsimp only
    split
    · rfl
    · split
      · rfl
      · split <;> rfl

theorem blockAndLeases_failCmd {st : Nat} : (failCmd p t st d).blockAndLeases q = d.blockAndLeases q := by
  unfold failCmd complete completeFreeing
  split
  · rfl
  · have noted (fn : Nat) (c : Cmd) := (blockAndLeases_noteEnds (q := q) (p := p) (t := t) (d := d.modQ p fun q =>
      { q with cmds := q.cmds.filter fun x => bits x.pkt.toNat 16 16 != t }) fn st c).trans (blockAndLeases_modQ fun _ => rfl)
    dsimp only
    split
    · exact noted _ _
    · exact (blockAndLeases_postCqe rfl).trans (noted _ _)

theorem blockAndLeases_mediaComplete {st res seq : Nat} : (mediaComplete p t st res seq d).blockAndLeases q = d.blockAndLeases q :=
  blockAndLeases_of_host (part_mediaComplete nofun)

theorem blockAndLeases_endMember {st : Nat} : (endMember st d p t).blockAndLeases q = d.blockAndLeases q := by
  unfold endMember endCrossed
  split
  · rfl
  · split
    · split
      · exact blockAndLeases_mediaComplete.trans blockAndLeases_modCmd
      · exact blockAndLeases_modCmd
    · exact blockAndLeases_failCmd

/-! ### Chunks are stored and sent -/

theorem blockAndLeases_drbgServe {n : Nat} : (drbgServe n d).blockAndLeases q = d.blockAndLeases q := by
  unfold drbgServe
  dsimp only
  split
  · rfl
  · split <;> rfl

theorem blockAndLeases_compare2 {n len : Nat} {c : Cmp} : (compare2 n len c d).2.blockAndLeases q = d.blockAndLeases q := by
  rw [← blockAndLeases_drbgServe (d := d) (n := cipherRequests len (if c = .agree then 1 else 2))]
  cases c <;> exact blockAndLeases_of_host (by simp [compare2])

theorem blockAndLeases_encryptUnit {sl id ord : Nat} {n : Ns} {plain : Bytes} {run : SliceRun} :
    (encryptUnit sl n id ord plain run d).2.2.blockAndLeases q = d.blockAndLeases q := by
  have compared := blockAndLeases_compare2 (q := q) (n := sl) (len := plain.length) (c := run.cmps.headD .agree) (d := d)
  simp only [encryptUnit, nextCmp]
  split <;> rename_i eq <;> rw [eq] at compared <;> exact compared

theorem blockAndLeases_storeChunks {sl opts : Nat} {n : Ns} {l : List HostChunk} {id : Nat} {run : SliceRun} :
    (storeChunks sl n opts id l run d).2.2.blockAndLeases q = d.blockAndLeases q := by
  induction l generalizing id run d with
  | nil => rfl
  | cons c l ih =>
    have packed : (packChunk sl n opts c.data run d).2.2.2.blockAndLeases q = d.blockAndLeases q := blockAndLeases_of_host part_packChunk
    rcases eq : packChunk sl n opts c.data run d with ⟨form, plain, run', e⟩
    rw [eq] at packed
    have sealed := (blockAndLeases_encryptUnit (q := q) (sl := sl) (id := id) (ord := 0) (n := n) (plain := plain) (run := run')).trans packed
    simp only [storeChunks, eq]
    split <;> rename_i eq' <;> rw [eq'] at sealed
    · exact sealed
    · exact ih.trans sealed

theorem blockAndLeases_sealContainers {sl block : Nat} {n : Ns} {l : List Bytes} {ord : Nat} {run : SliceRun} :
    (sealContainers sl n block ord l run d).2.2.blockAndLeases q = d.blockAndLeases q := by
  induction l generalizing ord run d with
  | nil => rfl
  | cons b l ih =>
    have sealed := blockAndLeases_encryptUnit (q := q) (sl := sl) (id := block) (ord := ord) (n := n) (plain := b) (run := run) (d := d)
    simp only [sealContainers]
    split <;> rename_i eq <;> rw [eq] at sealed
    · exact sealed
    · exact ih.trans sealed

theorem blockAndLeases_schSend {k : Half} {kind : Kind} {cls : Nat} {m : Msg} :
    (schSend k kind cls m d).blockAndLeases q = d.blockAndLeases q := blockAndLeases_of_host part_schSend

theorem blockAndLeases_sendOpening {cls : Nat} : (sendOpening p t cls d).blockAndLeases q = d.blockAndLeases q := by
  unfold sendOpening
  split
  · rfl
  · split
    · rfl
    · exact (blockAndLeases_each fun d x => blockAndLeases_schSend).trans (blockAndLeases_schSend.trans blockAndLeases_modCmd)

theorem blockAndLeases_crossIfSent : (crossIfSent p t d).blockAndLeases q = d.blockAndLeases q := by
  unfold crossIfSent
  split
  · rfl
  · split
    · exact blockAndLeases_modCmd
    · rfl

theorem blockAndLeases_sendStored {nsid cls : Nat} {l : List Stored} : (sendStored p t nsid cls l d).blockAndLeases q = d.blockAndLeases q :=
  blockAndLeases_each fun _ _ => blockAndLeases_schSend.trans blockAndLeases_schSend

/-! ### A block closes -/

/-- Of the leases, a block that goes out takes its serials alone. -/
theorem blockAndLeases_sendBlock {nsid cls sl : Nat} {n : Ns} {l : List (Nat × HostChunk)} {run : SliceRun} :
    (sendBlock p nsid cls sl n l run d).2.blockAndLeases q = (takeSerials sl l.length d).2.blockAndLeases q := by
  have failed (d : Dev) : (d.each (tagsOf l) fun d t => endMember stCipherCompare d p t).blockAndLeases q = d.blockAndLeases q :=
    blockAndLeases_each fun _ _ => blockAndLeases_endMember
  have opened (d : Dev) : (d.each (tagsOf l) fun d t => sendOpening p t cls d).blockAndLeases q = d.blockAndLeases q :=
    blockAndLeases_each fun _ _ => blockAndLeases_sendOpening
  have closed (d : Dev) : (d.each (tagsOf l) fun d t => crossIfSent p t d).blockAndLeases q = d.blockAndLeases q :=
    blockAndLeases_each fun _ _ => blockAndLeases_crossIfSent
  have checked (c : Bool) : ((takeSerials sl l.length d).2.when c (verifyMismatch sl)).blockAndLeases q =
      (takeSerials sl l.length d).2.blockAndLeases q := blockAndLeases_when (blockAndLeases_of_host part_verifyMismatch)
  simp only [sendBlock]
  generalize (if (takeSerials sl l.length d).2.quarantined sl = true then (none, false) else streamJob _ _ _ _) = job
  rw [← checked job.2]
  generalize (takeSerials sl l.length d).2.when job.2 (verifyMismatch sl) = e
  split
  · have sealed := blockAndLeases_sealContainers (q := q) (sl := sl) (n := n) (block := (takeSerials sl l.length d).1) (l := ‹_›) (ord := 0)
      (run := (nextCode run).2) (d := e)
    split <;> rename_i eq <;> rw [eq] at sealed
    · exact (failed _).trans sealed
    · rw [closed, ← sealed]
      refine (blockAndLeases_each fun _ _ => blockAndLeases_schSend).trans ((blockAndLeases_each fun _ _ => blockAndLeases_schSend).trans ?_)
      exact (opened _).trans (blockAndLeases_each fun _ _ => blockAndLeases_modCmd)
  · have stored := (blockAndLeases_storeChunks (q := q) (sl := sl) (n := { n with pack := 0 }) (opts := 2) (l := l.map (·.2))
      (id := (takeSerials sl l.length d).1) (run := (nextCode run).2)
      (d := e.when (!job.2 && !e.quarantined sl) fun d => d.bump ING_CNT_STREAM_FAIL.COUNT 1)).trans (blockAndLeases_when rfl)
    split <;> rename_i eq <;> rw [eq] at stored
    · exact (failed _).trans stored
    · rw [closed, ← stored]
      refine (blockAndLeases_each fun _ _ => blockAndLeases_sendStored).trans ?_
      exact (opened _).trans (blockAndLeases_each fun _ _ => blockAndLeases_modCmd)

variable {b : StreamBlock} {n : Ns} {run : SliceRun}

theorem leaseLeft_takeSerials (sl k : Nat) (d : Dev) : (takeSerials sl k d).2.leaseLeft sl = d.leaseLeft sl - k := by
  simp only [takeSerials, Dev.leaseLeft, Dev.modIng_ingest, tget_tput_same]
  cases tget d.ingest.lease sl <;> simp

theorem leaseLeft_of_blockAndLeases {sl : Nat} (same : (e.blockAndLeases q).2 = (d.blockAndLeases q).2) : e.leaseLeft sl = d.leaseLeft sl := by
  rw [Dev.leaseLeft, Dev.leaseLeft, show e.ingest.lease = d.ingest.lease from same]

/-- The device whose queue has no open block any more. -/
def Dev.unblocked (q : Nat) (d : Dev) : Dev := d.modQ q fun x => { x with block := none }

theorem unblocked_block (q : Nat) (d : Dev) : ((d.unblocked q).queue q).bind (·.block) = none := by
  simp [Dev.unblocked, Option.bind_map]

/-- The chunks of a block whose commands still wait for the host half's work. -/
def Dev.blockChunks (d : Dev) (q : Nat) (b : StreamBlock) : List (Nat × HostChunk) :=
  b.chunks.filter fun x => ((d.queue q).bind (·.cmd x.1)).any (·.stage == .hostWork)

/-- A block with the serials it needs goes out, ends with its commands where no cipher work starts, or has no chunk left. -/
theorem closeBlock_cases (block : (d.queue q).bind (·.block) = some b) (space : d.ns b.nsid = some n)
    (serials : b.chunks.length ≤ d.leaseLeft b.slice) :
    d.blockChunks q b = [] ∧ (closeBlock q run d).2 = d.unblocked q ∨
    (∃ st, d.cipherStop = some st ∧
      (closeBlock q run d).2 = (d.unblocked q).each (tagsOf (d.blockChunks q b)) fun d t => endMember st d q t) ∨
    (closeBlock q run d).2 = (sendBlock q b.nsid b.cls b.slice n (d.blockChunks q b) run (d.unblocked q)).2 := by
  have enough : ¬ d.leaseLeft b.slice < (d.blockChunks q b).length := (List.length_filter_le _ _).trans serials |>.not_gt
  have shape : closeBlock q run d = if (d.blockChunks q b).isEmpty then (run, d.unblocked q)
      else if let some st := d.cipherStop then (run, (d.unblocked q).each (tagsOf (d.blockChunks q b)) fun d t => endMember st d q t)
      else sendBlock q b.nsid b.cls b.slice n (d.blockChunks q b) run (d.unblocked q) := by
    unfold Dev.blockChunks at enough
    simp only [closeBlock, block, space, enough, if_false]
    rfl
  rw [shape]
  split
  next empty => exact .inl ⟨List.isEmpty_iff.mp empty, rfl⟩
  next =>
    split
    next st stop => exact .inr (.inl ⟨st, stop, rfl⟩)
    next => exact .inr (.inr rfl)

theorem closeBlock_unblocks (block : (d.queue q).bind (·.block) = some b) (space : d.ns b.nsid = some n)
    (serials : b.chunks.length ≤ d.leaseLeft b.slice) : ((closeBlock q run d).2.queue q).bind (·.block) = none := by
  rcases closeBlock_cases (run := run) block space serials with ⟨-, gone⟩ | ⟨st, -, ended⟩ | sent
  · rw [gone]
    exact unblocked_block q d
  · rw [ended]
    exact (congrArg Prod.fst (blockAndLeases_each fun _ _ => blockAndLeases_endMember)).trans (unblocked_block q d)
  · rw [sent]
    exact (congrArg Prod.fst blockAndLeases_sendBlock).trans (unblocked_block q d)

theorem closeBlock_leaseLeft (block : (d.queue q).bind (·.block) = some b) (space : d.ns b.nsid = some n)
    (serials : b.chunks.length ≤ d.leaseLeft b.slice) (sound : d.cipherStop = none)
    (working : ∀ x ∈ b.chunks, ((d.queue q).bind (·.cmd x.1)).any (·.stage == .hostWork) = true) :
    (closeBlock q run d).2.leaseLeft b.slice = d.leaseLeft b.slice - b.chunks.length := by
  have every : d.blockChunks q b = b.chunks := List.filter_eq_self.mpr working
  rcases closeBlock_cases (run := run) block space serials with ⟨none, gone⟩ | ⟨st, stop, -⟩ | sent
  · rw [gone, ← every, none]
    rfl
  · rw [sound] at stop
    cases stop
  · rw [sent, every, show d.leaseLeft b.slice = (d.unblocked q).leaseLeft b.slice from rfl, ← leaseLeft_takeSerials]
    exact leaseLeft_of_blockAndLeases (q := q) (congrArg Prod.snd blockAndLeases_sendBlock)

end

/-! ### A lease is granted (R127) -/

theorem closeWaiting_of_none {sl : Nat} {run : SliceRun} {d : Dev}
    (none : ∀ e ∈ d.rings.queues, ∀ b, e.2.block = some b → b.closing = true → b.slice ≠ sl) : closeWaiting sl run d = d := by
  have stays (l : List (Nat × Queue)) (sub : l ⊆ d.rings.queues) : l.foldl (fun (x : SliceRun × Dev) e =>
      if e.2.block.any (fun b => b.closing && b.slice == sl) then closeBlock e.1 x.1 x.2 else x) (run, d) = (run, d) := by
    induction l with
    | nil => rfl
    | cons e l ih =>
      have open' : ¬ e.2.block.any (fun b => b.closing && b.slice == sl) = true := by
        have apart := none e (sub List.mem_cons_self)
        cases block : e.2.block with
        | none => simp
        | some b => simpa using apart b block
      rw [List.foldl_cons, if_neg open']
      exact ih fun _ m => sub (List.mem_cons_of_mem e m)
  rw [closeWaiting, stays _ (List.Subset.refl _)]

theorem execSerialLeaseGrant_granted {slice : Nat} {run : SliceRun} {a : LeaseAsk} {s : State} (lease : Ready.lease 1 slice a s)
    (read : s.dev.ingest.marksRead = true)
    (none : ∀ e ∈ s.dev.rings.queues, ∀ b, e.2.block = some b → b.closing = true → b.slice ≠ slice) :
    Does (.serialLeaseGrant slice run) s fun t => tget t.dev.ingest.lease slice = some (a.mark - 16777216 + 1, 16777216) ∧
      tget t.dev.firn.serials (s.dev.sliceKey slice) = some (max a.mark ((tget s.dev.firn.serials (s.dev.sliceKey slice)).getD 0)) := by
  obtain ⟨ask, durable⟩ := lease
  refine ⟨_, rfl, ?_⟩
  simp only [ask, durable, read]
  rw [closeWaiting_of_none]
  · simp [dropAsk]
  · exact none

theorem execGcmResume_resumed {slice : Nat} {g : GcmRun} {s : State} (there : tget s.dev.ingest.gcm slice = some g) :
    Does (.gcmResume slice) s fun t => tget t.dev.ingest.gcm slice = some { g with suspended := false } :=
  ⟨_, rfl, by simp [there]⟩

/-- Settles O14: the registers of the index and of the slices are written field by field (`ingCfgWrite_enables`, `returned_quarRelease`); a
block that closes, with the serials it needs, leaves its queue and takes those serials alone (`blockAndLeases_sendBlock`). -/
theorem sliceEventsTakeEffect : Obligations.SliceEventsTakeEffect := by
  unfold Obligations.SliceEventsTakeEffect
  refine ⟨?block, ?lease, ?invalidate, ?done, ?release, ?enables, ?lines, ?table, ?resume⟩
  case block =>
    intro q b n run s block space serials
    exact ⟨_, rfl, closeBlock_unblocks block space serials, closeBlock_leaseLeft block space serials⟩
  case lease => exact fun slice run a s lease read none => execSerialLeaseGrant_granted lease read none
  case invalidate =>
    intro path s writer idle
    refine ⟨_, rfl, ?_⟩
    rw [if_pos writer]
    exact invalidate_of_idle idle
  case done => exact fun s busy => execInvalidateDone_of_busy busy
  case release =>
    intro path mask s writer
    refine ⟨_, rfl, fun n slice => ?_⟩
    rw [if_pos writer]
    obtain ⟨quarantined, vmismatch, cmismatch⟩ := returned_quarRelease (mask := mask) (d := s.dev) slice
    exact ⟨quarantined, vmismatch, cmismatch⟩
  case enables =>
    intro path value s writer
    refine ⟨_, rfl, ?_⟩
    rw [if_pos writer]
    exact ingCfgWrite_enables
  case lines =>
    intro path value v s writer lines off
    refine ⟨_, rfl, ?_⟩
    rw [if_pos writer]
    exact ingIndexWrite_lines lines off
  case table => exact fun table s enabled asked sends => execLendTableCopied_taken enabled asked sends
  case resume => exact fun slice g s there => execGcmResume_resumed there

end Sys2Proof.Machine
end

section
/-! PROOFS. A RELEASE record that arrives as a mirror copy (R299, R301, R307): a mirrored write commits with it, and covers the entry of the
divergence list that names the arriving record, so that the record is freed as it enters. -/

namespace Sys2Proof.Machine

/-! ### A record that arrives whole in one segment -/

section
variable {m : Msg} {id pool ref : Nat} {b : Bytes} {r : FRec} {d : Dev} {s : State}

/-- The device that has taken the segments of a message off its list. -/
def Dev.unparted (id : Nat) (d : Dev) : Dev := d.modFirn fun f => { f with parts := tdel f.parts id }

theorem Dev.unparted_tstate : (d.unparted id).tstate = d.tstate := rfl

theorem execRecord_whole (crossing : s.dev.stillCrossing = true) (noMail : NoMail .snow s) (known : m.q < 8) (args : m.args = [id])
    (tag : m.tag = 2 ^ 32 * (m.data.length / 256)) (whole : m.data.length % 256 = 0) :
    execRecord m s = s.ok (settle (recordArrived m.q m.ref id m.data (s.dev.unparted id))) := by
  have length : m.data.length / 256 * 256 = m.data.length := Nat.div_mul_cancel (Nat.dvd_of_mod_eq_zero whole)
  rw [execRecord, snowTurn, inTurn_nil noMail]
  simp [crossing, args, tag, length, known.not_ge, Dev.unparted]

/-- The record of a mirror copy, as its bytes and its message give it. -/
def FRec.copyOf (id gen : Nat) (r : FRec) : FRec := { r with msgId := id, origin := .media, posted := true, gen := gen }

theorem recordArrived_copy (read : recordOf b = some r) (samePool : r.pool = pool) (sameSeq : r.seq = ref) (assigned : ref ≠ 0)
    (defined : (tget d.pools pool).isSome) (serves : d.tstate ≠ 7) :
    recordArrived pool ref id b d = mirrorCopy (r.copyOf id (((d.nsAny r.nsid).map fun n => (d.fn n.tenant).gen).getD 0)) d := by
  simp [recordArrived, read, samePool, sameSeq, assigned, Option.isSome_iff_ne_none.mp defined, serves, FRec.copyOf]

end

/-! ### The bytes of a RELEASE record -/

/-- A RELEASE record of stripe 7 of pool 0, as its home twin assigned it. -/
def releaseOf7 : FRec := { FRec.empty with rtype := rtRelease, seq := 5, aux := 7, chain := List.replicate 16 0 }

/-- Its header without HCHECK (R288). -/
def releaseHead : Bytes := releaseOf7.head88 0 0 ++ padTo 16 releaseOf7.chain ++ List.replicate 144 0

theorem releaseHead_length : releaseHead.length = 248 := by decide +kernel

/-- A RELEASE record has no pages. -/
theorem releaseOf7_bytes : releaseOf7.bytes = releaseHead ++ leBytes 8 (crc64 releaseHead) := by
  have npage : releaseOf7.npage = 0 := by decide +kernel
  have pages : releaseOf7.pages = [] := by decide +kernel
  rw [FRec.bytes, pages, List.append_nil, FRec.header, FRec.pcheck, npage]
  rfl

theorem releaseOf7_length : releaseOf7.bytes.length = 256 := by
  simp [releaseOf7_bytes, releaseHead_length]

/-- A RELEASE record is read back from its bytes. -/
theorem recordOf_releaseOf7 : recordOf releaseOf7.bytes = some releaseOf7 := by
  have check := hcheck_checked (rest := []) releaseHead_length
  rw [List.append_nil, ← releaseOf7_bytes] at check
  unfold recordOf
  extract_lets h n pages ss objs fl ncmd q tag slba nlb cmds chunk
  rw [if_neg]
  · decide +kernel
  · rintro (len | magic | version | head | body)
    · exact len (releaseOf7_length.trans (by decide +kernel))
    · exact magic (by decide +kernel)
    · exact version (by decide +kernel)
    · exact head check
    · exact body (by decide +kernel)

/-! ### A state in which the record is freed as it enters -/

/-- The mirror copy of a write of two blocks of namespace 1, whose data lie in stripe 7. -/
def mirroredWrite : FRec :=
  { FRec.empty with
    rtype := rtWrite, home := 1, receiver := 1, seq := 6, nsid := 1, nlb := 2, written := true, ack := some 0, posted := true, copy := true
    stripes := [7] }

/-- A paired module in mode 2 holds that copy in header slot 3 for its twin, the home of pool 0. An entry of its divergence list names the
COMMIT_SEQ 5 of the pool, of which it holds no record. -/
def divergenceNames5 : State :=
  let d := { Dev.reset with
    pools := [(0, Pool.make 0 8 1)]
    firn := { Dev.reset.firn with recs := [(3, mirroredWrite)], divs := [⟨0, 5, 1, 2, 0, []⟩] } }
  { State.reset with dev := (d.wr TWN_STATUS.STATE 5).wr FRN_STATUS.MODE 2 }

/-- The RECORD message of the RELEASE record, in one segment. -/
def releaseMsg : Msg := ⟨0, 2 ^ 32, 5, 0, [9], releaseOf7.bytes⟩

theorem divergenceNames5_ready : divergenceNames5.dev.stillCrossing = true ∧ NoMail .snow divergenceNames5 ∧ Roomed 0 divergenceNames5.dev ∧
    divergenceNames5.dev.firn.locks = [] ∧ divergenceNames5.dev.tstate ≠ 7 ∧ (tget divergenceNames5.dev.pools 0).isSome ∧
    divergenceNames5.dev.slotOf 0 5 = none ∧ divergenceNames5.dev.ctxs = [] := by
  decide +kernel

theorem divergenceNames5_frees :
    tkeys (settle (mirrorCopy (releaseOf7.copyOf 9 0) (divergenceNames5.dev.unparted 9))).firn.recs = [3] := by
  decide +kernel

theorem releaseMsg_tag : releaseMsg.tag = 2 ^ 32 * (releaseMsg.data.length / 256) := by
  rw [show releaseMsg.data.length = 256 from releaseOf7_length]
  decide

theorem releaseMsg_whole : releaseMsg.data.length % 256 = 0 := by rw [show releaseMsg.data.length = 256 from releaseOf7_length]

theorem exec_releaseMsg : exec (.record releaseMsg) divergenceNames5 =
    divergenceNames5.ok (settle (mirrorCopy (releaseOf7.copyOf 9 0) (divergenceNames5.dev.unparted 9))) := by
  obtain ⟨crossing, noMail, -, -, serves, defined, -⟩ := divergenceNames5_ready
  have serves : (divergenceNames5.dev.unparted 9).tstate ≠ 7 := by
    rw [Dev.unparted_tstate]
    exact serves
  have copy := recordArrived_copy (pool := 0) (ref := 5) (id := 9) (d := divergenceNames5.dev.unparted 9) recordOf_releaseOf7 rfl rfl
    (by decide) defined serves
  change execRecord releaseMsg divergenceNames5 = _
  rw [execRecord_whole crossing noMail (by decide) rfl releaseMsg_tag releaseMsg_whole]
  exact congrArg (fun d => divergenceNames5.ok (settle d)) copy

/-- Refutes O26: a whole record is to be held as a mirror copy. But a RELEASE record may lead a mirrored write to commit, and that frees the
records named by the divergence list whose blocks the write covers (`coverDivs`), the arriving one among them: the premises do not exclude an
entry that names it. -/
theorem not_twinRecordMessagesTakeEffect : ¬ Obligations.TwinRecordMessagesTakeEffect := by
  unfold Obligations.TwinRecordMessagesTakeEffect
  rintro ⟨-, copies, -, -⟩
  obtain ⟨crossing, noMail, room, locks, serves, defined, absent, none⟩ := divergenceNames5_ready
  have bytes : releaseMsg.data ≠ [] := List.ne_nil_of_length_pos (releaseOf7_length.symm ▸ by decide)
  obtain ⟨t, run, slot, x, free, held, -⟩ := copies releaseMsg 9 0 releaseOf7 divergenceNames5 crossing noMail room (by decide +kernel) locks
    serves (by decide) rfl bytes releaseMsg_tag releaseMsg_whole recordOf_releaseOf7 rfl rfl (by decide) defined absent none
  rw [exec_releaseMsg, State.ok_eq] at run
  obtain rfl := Host.Outcome.next.inj run
  have only : slot = 3 := by
    by_contra other
    have gone : slot ∉ tkeys (settle (mirrorCopy (releaseOf7.copyOf 9 0) (divergenceNames5.dev.unparted 9))).firn.recs := by
      rw [divergenceNames5_frees]
      simpa using other
    exact Option.some_ne_none x (held.symm.trans (tget_eq_none_of_not_mem gone))
  rw [only] at free
  exact Option.some_ne_none mirroredWrite free

end Sys2Proof.Machine
end

section
/-! PROOFS. What a fault report and an event leave alone (R759 to R771): every register field outside the fault blocks and the functions' own
spaces. -/

namespace Sys2Proof.Machine

/-- A register field of a half that neither a fault report nor an event writes: it lies outside the fault block. -/
abbrev Field.unreported (g : Field) : Prop := g.space < 16 ∧ g.off < 2 ^ 28 ∧ g.lsb < 64 ∧ (g.off < 0xd00000 ∨ 0xe00000 ≤ g.off)

section
variable {d : Dev} {g : Field}

/-! ### The fields that a report writes -/

theorem Field.unreported.ne_fn (h : g.unreported) {f : Field} (space : 16 ≤ f.space) : g.key ≠ f.key := by
  obtain ⟨low, off, lsb, -⟩ := h
  have low : @LT.lt Nat _ g.space 16 := low
  have space : @LE.le Nat _ 16 f.space := space
  unfold Field.key
  omega

theorem Field.unreported.ne_cfg (h : g.unreported) {fn : Nat} {f : Field} (space : f.space = cfgSpace fn) : g.key ≠ f.key :=
  h.ne_fn (space ▸ (by decide : 16 ≤ 2048).trans (Nat.le_add_right 2048 fn))

theorem Field.unreported.ne_flt (h : g.unreported) {f : Field} (block : 0xd00000 ≤ f.off ∧ f.off < 0xe00000 ∧ f.lsb < 64) : g.key ≠ f.key := by
  obtain ⟨-, off, lsb, out⟩ := h
  unfold Field.key
  omega

/-! ### Through the ways in which the model composes updates -/

theorem Dev.rd_ite {c : Prop} [Decidable c] {a b : Dev} : (if c then a else b).rd g = if c then a.rd g else b.rd g := apply_ite (·.rd g) c a b

theorem Dev.rd_when {c : Bool} {f : Dev → Dev} : (d.when c f).rd g = if c then (f d).rd g else d.rd g := Dev.rd_ite

theorem Dev.rd_each {α : Type} {l : List α} {f : Dev → α → Dev} (h : ∀ d a, (f d a).rd g = d.rd g) : (d.each l f).rd g = d.rd g := by
  induction l generalizing d with
  | nil => rfl
  | cons a l ih => exact ih.trans (h d a)

/-! ### Events (R767 to R771) -/

theorem rd_trigger (h : g.unreported) (fn v : Nat) : (trigger fn v d).rd g = d.rd g := by
  have pending : g.key ≠ (CFG.MSI_PEND fn).key := h.ne_cfg rfl
  simp [trigger, Dev.rd_ite, Dev.putBit, Dev.rd_wr_ne, pending]

theorem rd_pmeFor (h : g.unreported) (fn : Nat) : (pmeFor fn d).rd g = d.rd g := by
  have status : g.key ≠ (CFG.PME_ST fn).key := h.ne_cfg rfl
  simp [pmeFor, Dev.rd_ite, Dev.rd_set_ne, status]

theorem rd_postEvent (h : g.unreported) (fn : Nat) (x : Event) : (postEvent fn x d).rd g = d.rd g := by
  have lost : g.key ≠ (RNG_EV_LOST.LOST fn).key := h.ne_fn (Nat.le_add_right 16 fn)
  simp [postEvent, ringEvent, writeEvent, Dev.rd_ite, rd_pmeFor h, rd_trigger h, Dev.bump, Dev.rd_wr_ne, lost]

theorem rd_postToPfs (h : g.unreported) (x : Event) : (postToPfs x d).rd g = d.rd g := Dev.rd_each fun _ fn => rd_postEvent h fn x

/-! ### Fault reports (R759 to R766) -/

theorem rd_schSend (k : Half) (kind : Kind) (cls : Nat) (m : Msg) : (schSend k kind cls m d).rd g = d.rd g :=
  Dev.rd_congr (schSend_regs k kind cls m d) g

theorem rd_sendFaultEvent (h : g.unreported) (k : Half) (src code count : Nat) (summary twin : Bool) :
    (sendFaultEvent k src code count summary twin d).rd g = d.rd g := by
  have counted : g.key ≠ (FLT_CNT_NOTIFY.COUNT k).key := h.ne_flt (by cases k <;> decide)
  cases k <;> simp [sendFaultEvent, rd_postToPfs h, Dev.rd_when, schSendFree, rd_schSend, Dev.bump, Dev.rd_wr_ne, counted]

theorem rd_sourceEvent (h : g.unreported) (k : Half) (src code n t : Nat) (first summary twin : Bool) :
    (sourceEvent k src code n t first summary twin d).rd g = d.rd g := by
  unfold sourceEvent
  split <;> simp [Dev.rd_ite, rd_sendFaultEvent h]

theorem rd_summarise (h : g.unreported) (k : Half) (n src code reporter t : Nat) (twin injected : Bool) :
    (summarise k n src code reporter t twin injected d).rd g = d.rd g := by
  have apart : g.key ≠ (FLT_CNT_SUMMARIZED.COUNT k).key := h.ne_flt (by cases k <;> decide)
  have counted : (d.bump (FLT_CNT_SUMMARIZED.COUNT k) n).rd g = d.rd g := Dev.rd_wr_ne d _ apart
  unfold summarise
  extract_lets
  split
  · exact (rd_sourceEvent h _ _ _ _ _ _ _ _).trans counted
  · split
    · exact (rd_sourceEvent h _ _ _ _ _ _ _ _).trans counted
    · exact counted

theorem rd_lastGasp (h : g.unreported) (k : Half) : (lastGasp k d).rd g = d.rd g := by
  have gasped : g.key ≠ (FLT_STATUS.LAST_GASP k).key := h.ne_flt (by cases k <;> decide)
  cases k <;> simp [lastGasp, Dev.rd_when, Dev.rd_set_ne, gasped]

theorem rd_stormEvent (h : g.unreported) (k : Half) : (stormEvent k d).rd g = d.rd g := by
  cases k <;> simp [stormEvent, mediaEvent, devEvent, Dev.rd_ite, rd_postToPfs h]

theorem rd_rollInterval (h : g.unreported) (k : Half) (t : Nat) : (rollInterval k t d).rd g = d.rd g := by
  have mode : g.key ≠ (FLT_STATUS.SUMMARY_MODE k).key := h.ne_flt (by cases k <;> decide)
  simp [rollInterval, Dev.rd_ite, Dev.rd_when, Dev.rd_clr_ne, mode]

theorem rd_stickySummary (h : g.unreported) (k : Half) (block sev : Nat) : (stickySummary k block sev d).rd g = d.rd g := by
  have degraded : g.key ≠ (FLT_SUMMARY.DEGRADED k).key := h.ne_flt (by cases k <;> decide)
  have lost : g.key ≠ (FLT_SUMMARY.LOST k).key := h.ne_flt (by cases k <;> decide)
  simp [stickySummary, Dev.rd_when, Dev.putBit, Dev.rd_wr_ne, degraded, lost]

theorem rd_reports (h : g.unreported) (k : Half) (n src code reporter t : Nat) (twin injected : Bool) :
    (reports k n src code reporter t twin injected d).rd g = d.rd g := by
  have counted : g.key ≠ (FLT_CNT_REPORTS.COUNT k).key := h.ne_flt (by cases k <;> decide)
  have storm : g.key ≠ (FLT_STATUS.STORM k).key := h.ne_flt (by cases k <;> decide)
  have mode : g.key ≠ (FLT_STATUS.SUMMARY_MODE k).key := h.ne_flt (by cases k <;> decide)
  have full : g.key ≠ (FLT_STATUS.LEDGER_FULL k).key := h.ne_flt (by cases k <;> decide)
  simp [reports, Dev.rd_ite, Dev.rd_when, rd_lastGasp h, rd_sourceEvent h, rd_summarise h, rd_stormEvent h, rd_stickySummary h,
    rd_rollInterval h, Dev.rd_set_ne, Dev.bump, Dev.rd_wr_ne, counted, storm, mode, full]

theorem rd_fault (h : g.unreported) (k : Half) (block inst cause : Nat) (left : Bool) : (fault k block inst cause left d).rd g = d.rd g :=
  rd_reports h k _ _ _ _ _ _ _

theorem is_fault (h : g.unreported) (k : Half) (block inst cause : Nat) (left : Bool) : (fault k block inst cause left d).is g = d.is g := by
  rw [Dev.is, rd_fault h, Dev.is]


end
end Sys2Proof.Machine
end

section
/-! PROOFS. The events of the key engine (R210, R226, R227, R230 to R232). -/

namespace Sys2Proof.Machine

/-! ### What a fault report leaves alone beside registers -/

theorem fault_rime (k : Half) (block inst cause : Nat) (left : Bool) (d : Dev) : (fault k block inst cause left d).rime = d.rime :=
  (HostKept.of_part part_fault).rime

theorem fault_ctxs (k : Half) (block inst cause : Nat) (left : Bool) (d : Dev) : (fault k block inst cause left d).ctxs = d.ctxs :=
  (StoresKept.of_part part_fault).ctxs

/-! ### A nonce lease (R210) -/

theorem sendSealed_firn (d : Dev) : (sendSealed d).firn = d.firn :=
  Dev.each_firn (d := d.modTwin fun t => { t with sealed := [] }) fun d x => snowSendFor_firn x.fn x.kind x.cls x.msg d

theorem Dev.slot_modSlot (d : Dev) (n : Nat) (f : KeySlot → KeySlot) : (d.modSlot n f).slot n = f (d.slot n) := by
  have kept (k : KeySlot) : (tget (if k = KeySlot.empty then tdel d.rime.slots n else tput d.rime.slots n k) n).getD KeySlot.empty = k := by
    split
    next empty => simp [empty]
    next => simp
  exact kept _

/-- The device once the mark of a lease holds, and the ask is answered (R210). -/
def Dev.leaseMarked (d : Dev) (slot : Nat) (a : LeaseAsk) : Dev :=
  dropAsk 2 slot (d.modFirn fun x => { x with
    nonces := tput x.nonces (nonceKey a.fn a.keyId) (max a.mark ((tget x.nonces (nonceKey a.fn a.keyId)).getD 0)) })

/-- The device once the slot also has the values of the lease. -/
def Dev.leased (d : Dev) (slot : Nat) (a : LeaseAsk) : Dev :=
  (d.leaseMarked slot a).modSlot slot fun y => { y with
    ctr := a.base + 1, left := a.mark - a.base, exhausted := y.exhausted || decide (2 ^ 63 - 1 ≤ a.base + 1) }

theorem exec_nonceLeaseGrant {slot : Nat} {a : LeaseAsk} {s : State} (lease : Ready.lease 2 slot a s)
    (pair : s.dev.noncePair slot = (a.fn, a.keyId)) :
    exec (.nonceLeaseGrant slot) s = s.ok ((s.dev.leased slot a).when (slot == linkSlot) sendSealed) := by
  obtain ⟨ask, durable⟩ := lease
  have pair : (s.dev.leaseMarked slot a).noncePair slot = (a.fn, a.keyId) := pair
  change execNonceLeaseGrant slot s = _
  simp only [execNonceLeaseGrant, ask, durable]
  exact congrArg (fun d : Dev => s.ok (d.when (slot == linkSlot) sendSealed)) (if_neg (not_not_intro pair))

/-- The mark of the lease holds from now on, and the slot's counter starts above the mark that stood before (R210). -/
theorem execNonceLeaseGrant_granted {slot : Nat} {a : LeaseAsk} {s : State} (lease : Ready.lease 2 slot a s)
    (pair : s.dev.noncePair slot = (a.fn, a.keyId)) : Does (.nonceLeaseGrant slot) s fun t =>
      tget t.dev.firn.nonces (nonceKey a.fn a.keyId) = some (max a.mark ((tget s.dev.firn.nonces (nonceKey a.fn a.keyId)).getD 0)) ∧
      (slot ≠ linkSlot → (t.dev.slot slot).ctr = a.base + 1 ∧ (t.dev.slot slot).left = a.mark - a.base) := by
  refine ⟨_, exec_nonceLeaseGrant lease pair, ?mark, fun plain => ?values⟩
  case mark =>
    have firn : ((s.dev.leased slot a).when (slot == linkSlot) sendSealed).firn = (s.dev.leased slot a).firn := by
      unfold Dev.when
      split
      · exact sendSealed_firn _
      · rfl
    dsimp only
    rw [firn]
    exact tget_tput_same _ _ _
  case values =>
    have kept : (s.dev.leased slot a).when (slot == linkSlot) sendSealed = s.dev.leased slot a := if_neg (by simpa using plain)
    dsimp only
    rw [kept, Dev.leased, Dev.slot_modSlot]
    exact ⟨rfl, rfl⟩

/-! ### The noise source (R226, R227) -/

theorem noiseFail_entropy (d : Dev) : (noiseFail d).is RIM_STATUS.ENTROPY_OK = false ∧ (noiseFail d).is RIM_STATUS.ENTROPY_FAULT = true := by
  unfold noiseFail
  rw [is_fault (by decide), is_fault (by decide), Dev.is_set_ne (by decide)]
  exact ⟨Dev.is_clr, Dev.is_set rfl⟩

/-! ### A zeroize (R230 to R232) -/

/-- The host half's keys, pending records and IDE keys zeroized, its commands and erases ended before. -/
def keysZeroized (incl : Bool) (d : Dev) : Dev :=
  let d := d.modRime fun r => { r with slots := [], pending := [], drbg := r.drbg + 1 }
  let d := d.modIng fun i => { i with gcm := [] }
  let d := d.when incl fun d => (d.modRime fun r => { r with devHost := none }).clr RIM_STATUS.DEVKEY_PRESENT
  { d with eps := d.eps.map fun (e : Nat × Endpoint) =>
    (e.1, { e.2 with ide := e.2.ide.map fun (i : Nat × IdeStream) => (i.1, ⟨false, []⟩) }) }

theorem zeroize_host (incl : Bool) (d : Dev) : zeroize incl true false d =
    fault .host 4 0x12 4 false ((keysZeroized incl (zeroizeErases (zeroizeCommands d))).set RIM_STATUS.ZEROIZED) := by
  simp only [zeroize, keysZeroized, Dev.when, if_true, Bool.false_eq_true, if_false]

theorem keysZeroized_rime (incl : Bool) (d : Dev) :
    (keysZeroized incl d).rime.slots = [] ∧ (incl = true → (keysZeroized incl d).rime.devHost = none) := by
  cases incl
  · exact ⟨rfl, nofun⟩
  · exact ⟨rfl, fun _ => rfl⟩

theorem keysZeroized_ctxs (incl : Bool) (d : Dev) : (keysZeroized incl d).ctxs = d.ctxs := by cases incl <;> rfl

/-- The media half's part of a zeroize. -/
def mediaZeroized (incl : Bool) (d : Dev) : Dev :=
  (d.modRime fun r => { r with linkKey := none }).when incl fun d =>
    (d.modRime fun r => { r with devMedia := none }).modFirn fun f => { f with nonces := [] }

theorem zeroize_media (incl host media : Bool) (d : Dev) :
    zeroize incl host media d = (zeroize incl host false d).when media (mediaZeroized incl) := by
  simp only [zeroize, mediaZeroized, Dev.when, Bool.false_eq_true, if_false]

/-- It touches neither the host half's key store nor a register. -/
theorem mediaZeroized_keeps (incl media : Bool) (d : Dev) :
    (d.when media (mediaZeroized incl)).rime.slots = d.rime.slots ∧ (d.when media (mediaZeroized incl)).rime.devHost = d.rime.devHost ∧
    (d.when media (mediaZeroized incl)).ctxs = d.ctxs ∧ (d.when media (mediaZeroized incl)).regs = d.regs := by
  cases media <;> cases incl <;> exact ⟨rfl, rfl, rfl, rfl⟩

theorem zeroize_keys (incl media : Bool) (d : Dev) : (zeroize incl true media d).rime.slots = [] ∧
    (incl = true → (zeroize incl true media d).rime.devHost = none) := by
  obtain ⟨slots, devKey, -⟩ := mediaZeroized_keeps incl media (zeroize incl true false d)
  rw [zeroize_media, slots, devKey, zeroize_host, fault_rime]
  exact keysZeroized_rime incl _

theorem zeroize_zeroized (incl media : Bool) (d : Dev) : (zeroize incl true media d).is RIM_STATUS.ZEROIZED = true := by
  obtain ⟨-, -, -, regs⟩ := mediaZeroized_keeps incl media (zeroize incl true false d)
  rw [zeroize_media, Dev.is, Dev.rd_congr regs, ← Dev.is, zeroize_host, is_fault (by decide)]
  exact Dev.is_set rfl

/-- Settles O15: a lease holds its mark, and the messages that it lets go out leave the marks alone (`exec_nonceLeaseGrant`, `sendSealed_firn`); a
report leaves the registers of Rime alone (`rd_fault`), so that a health failure and a zeroize show there; a zeroize empties the key store
(`zeroize_keys`). -/
theorem keyEngineEventsTakeEffect : Obligations.KeyEngineEventsTakeEffect := by
  unfold Obligations.KeyEngineEventsTakeEffect
  refine ⟨?lease, ?fails, ?restored, ?reseed, ?zeroized, ?wrongKey⟩
  case lease =>
    rintro slot a old s lease pair rfl
    exact execNonceLeaseGrant_granted lease pair
  case fails => exact fun s => ⟨_, rfl, noiseFail_entropy s.dev⟩
  case restored =>
    intro s
    refine ⟨_, rfl, ?_⟩
    have sound : (s.dev.set RIM_STATUS.ENTROPY_OK).is RIM_STATUS.ENTROPY_OK = true := Dev.is_set rfl
    cases due : s.dev.rime.reseedDue <;> simp only [Dev.set, Dev.wr_rime, due, if_true, Bool.false_eq_true, if_false]
    · exact ⟨sound, rfl⟩
    · exact ⟨sound, rfl⟩
  case reseed =>
    intro s
    refine ⟨_, rfl, ?_⟩
    cases sound : s.dev.is RIM_STATUS.ENTROPY_OK <;> simp [reseed]
  case zeroized =>
    intro value s key
    refine ⟨_, rfl, ?_⟩
    rw [if_neg (not_not_intro key)]
    obtain ⟨slots, devKey⟩ := zeroize_keys (bit value 16) s.dev.schUp s.dev
    exact ⟨slots, zeroize_zeroized _ _ _, devKey⟩
  case wrongKey =>
    intro path value s other
    exact ⟨s, congrArg s.ok (if_pos other), rfl⟩

end Sys2Proof.Machine
end

section
/-! PROOFS. EVENT_RING_SET (R101) on a queue pair of class A whose completion ring has no free entry by `noEntry` (R114): the completion posts an
event into the ring that was just set. -/

namespace Sys2Proof.Machine

/-- An EVENT_RING_SET of two entries at address 0, with vector 0. -/
def setsEventRing : Cmd :=
  ⟨0, 1#32 ++ 0x8C#480, [], 0, .ready, false, false, false, [], [], 0, 0, 0, 0, [], [], 0, [], none, false, 0, false⟩

/-- A queue pair of class A, no admin queue, with the EVENT_RING_SET. Its host left the head one beyond the ring: `noEntry` counts the distance
of tail and head round the ring and finds no free entry, `cqFull` compares the tail's successor with the head and finds one. -/
def classAAsks : Queue :=
  { Queue.make 0 16 0 false false 0 0 0 0x10000 0x20000 false with cmds := [setsEventRing], cqTail := 15, cqHead := 16 }

/-- Queue pair 1 has fetched the EVENT_RING_SET, and its function asked for class A events. -/
def classAAsksEventRing : State :=
  { State.reset with dev := (hostInService.addQueue 1 classAAsks).modRings fun r => { r with classAEv := [0] } }

theorem classAAsksEventRing_ready : Waits [0x8C] 1 0 classAAsksEventRing.dev classAAsks setsEventRing := by
  decide +kernel

/-- The completion finds no free entry, so its class A event takes entry 0 of the ring. -/
theorem eventRingSet_posts_classA : ∃ t, exec (.eventRingSet 1 0) classAAsksEventRing = .next t ∧ (t.dev.fn 0).ev.tail = 1 :=
  ⟨_, rfl, by decide +kernel⟩

/-- Refutes O9: EVENT_RING_SET is to leave the new ring empty. But where the completion finds no free entry for its queue pair of class A, its
event (R114) goes into that ring (`eventRingSet_posts_classA`); the premises exclude neither a queue pair of class A that is no admin queue nor a
completion head outside its ring. -/
theorem not_keySlotsEventRingsAndBlocksAreSet : ¬ Obligations.KeySlotsEventRingsAndBlocksAreSet := by
  unfold Obligations.KeySlotsEventRingsAndBlocksAreSet
  rintro ⟨-, -, -, sets, -⟩
  obtain ⟨t, run, -, -, ring⟩ := sets 1 0 classAAsks setsEventRing classAAsksEventRing classAAsksEventRing_ready (by decide +kernel)
    (by decide +kernel) (by decide +kernel) (by decide +kernel) rfl rfl
  obtain ⟨t', run', posted⟩ := eventRingSet_posts_classA
  obtain rfl := Host.Outcome.next.inj (run.symm.trans run')
  have empty : (t.dev.fn 0).ev.tail = 0 := congrArg EvRing.tail ring
  omega

end Sys2Proof.Machine
end

section
/-! PROOFS. The boot flash byte by byte (R719): what a read returns, and what a write leaves of it. -/

namespace Sys2Proof.Machine

theorem flashByte_below {m : List Host.Cell} {lo a : Nat} (wf : Memory.wfFrom lo m = true) (below : a < lo) : flashByte m a = flashErased := by
  induction m generalizing lo with
  | nil => rfl
  | cons c m ih =>
    obtain ⟨k, v⟩ := c
    simp only [Memory.wfFrom, Bool.and_eq_true, decide_eq_true_eq] at wf
    obtain ⟨⟨⟨least, -⟩, -⟩, rest⟩ := wf
    rw [flashByte, if_neg (by omega)]
    exact ih rest (by omega)

/-- A canonical list of cells gives its bytes in order, and erased ones between them. -/
theorem flashBytes_eq {m : List Host.Cell} {a n : Nat} (wf : Memory.wfFrom a m = true) :
    flashBytes n a m = (List.range' a n).map (flashByte m) := by
  induction n generalizing a m with
  | zero => rfl
  | succ n ih =>
    cases m with
    | nil => simpa [flashBytes, List.range'_succ, flashByte] using ih (m := []) rfl
    | cons c m =>
      obtain ⟨k, v⟩ := c
      have parts := wf
      simp only [Memory.wfFrom, Bool.and_eq_true, decide_eq_true_eq] at parts
      obtain ⟨⟨⟨least, inside⟩, kept⟩, rest⟩ := parts
      rw [flashBytes, List.range'_succ, List.map_cons]
      split
      next here =>
        subst here
        have later : ∀ x ∈ List.range' (k + 1) n, flashByte ((k, v) :: m) x = flashByte m x := fun x mem => by
          rw [List.mem_range'_1] at mem
          rw [flashByte, if_neg (by omega)]
        rw [ih rest, List.map_congr_left later, flashByte, if_pos rfl]
      next apart =>
        have wf' : Memory.wfFrom (a + 1) ((k, v) :: m) = true := by
          simp only [Memory.wfFrom, Bool.and_eq_true, decide_eq_true_eq]
          exact ⟨⟨⟨by omega, inside⟩, kept⟩, rest⟩
        rw [ih wf', flashByte_below wf' (Nat.lt_succ_self a)]

theorem flashRead_eq {m : List Host.Cell} (wf : Memory.wf m = true) (off len : Nat) :
    flashRead m off len = (List.range' off len).map (flashByte m) := by
  rw [flashRead, flashBytes_eq (Memory.wfFrom_ge wf off)]
  refine List.map_congr_left fun a mem => flashByte_filter fun _ => ?_
  simpa using (List.mem_range'_1.mp mem).1

theorem flashRead_write {m : List Host.Cell} (wf : Memory.wf m = true) {off : Nat} {b : Bytes} (inside : off + b.length ≤ flashSize) :
    flashRead (flashWrite m off b) off b.length = b := by
  rw [flashRead_eq (flashWrite_wf wf off b)]
  refine List.ext_getElem (by simp) fun i _ h => ?_
  rw [List.getElem_map, List.getElem_range', Nat.one_mul]
  exact flashByte_write h (by omega)

theorem flashRead_write_out {m : List Host.Cell} (wf : Memory.wf m = true) {off a : Nat} {b : Bytes} (out : a < off ∨ off + b.length ≤ a) :
    flashRead (flashWrite m off b) a 1 = flashRead m a 1 := by
  rw [flashRead_eq (flashWrite_wf wf off b), flashRead_eq wf]
  simp [flashByte_write_out out]

end Sys2Proof.Machine
end

section
/-! PROOFS. What the end of a command's work at the media half (`settle`) and a zeroize leave alone, and a write of HLD_CFG (R708). -/

namespace Sys2Proof.Machine

section
variable {d : Dev} {g : Field}

/-! ### With no context at the media half, only the waiting records are noted -/

theorem rd_noteWaits (h : g.unreported) (counts : g.key ≠ FRN_CNT_SPACE_WAITS.COUNT.key) (waits : g.key ≠ FRN_STATUS.CLASS_A_WAIT.key) :
    (noteWaits d).rd g = d.rd g := by
  unfold noteWaits
  extract_lets
  refine (Dev.rd_each fun e w => ?_).trans (Dev.rd_modFirn d _ g)
  simp [Dev.rd_when, rd_fault h, Dev.rd_set_ne, waits, Dev.bump, Dev.rd_wr_ne, counts]

theorem settle_rime (none : d.ctxs = []) : (settle d).rime = d.rime := by
  rw [settle_of_none none]
  exact (HostKept.of_part (part_noteWaits nofun)).rime

/-! ### A zeroize opens no context at the media half -/

theorem complete_ctxs {q tag st res : Nat} (none : d.ctxs = []) : (complete q tag st res d).ctxs = [] := by
  have posted (e : Cqe) (d : Dev) : (postCqe q e d).ctxs = d.ctxs := (StoresKept.of_part (part_postCqe nofun)).ctxs
  have applied (c : Cmd) (d : Dev) : (noteApply q tag st c d).ctxs = d.ctxs := (StoresKept.of_part (part_noteApply nofun)).ctxs
  have noted (fn : Nat) (c : Cmd) (d : Dev) : (noteMember fn q tag st c d).ctxs = d.ctxs := by
    unfold noteMember
    split <;> rfl
  have dropped (e : Dev) (h : e.ctxs = []) : (e.dropCtx q tag).ctxs = [] := by simp [Dev.dropCtx, h]
  unfold complete completeFreeing
  split
  · exact none
  · split
    · exact dropped _ (by simpa [applied, noted] using none)
    · exact (posted _ _).trans (dropped _ (by simpa [applied, noted] using none))

theorem endMember_ctxs {q tag st : Nat} (none : d.ctxs = []) : (endMember st d q tag).ctxs = [] := by
  have absent : (d.ctx q tag).isSome = false := by simp [Dev.ctx_eq_none_of_nil none]
  unfold endMember
  split
  · exact none
  · split
    · simpa [endCrossed, absent] using none
    · exact complete_ctxs (by simp [Dev.dropCtx, none])

/-- A property that each step of a walk over a list keeps holds at its end. -/
theorem Dev.each_ctxs_nil {α : Type} {l : List α} {f : Dev → α → Dev} (none : d.ctxs = []) (keeps : ∀ d a, d.ctxs = [] → (f d a).ctxs = []) :
    (d.each l f).ctxs = [] := by
  induction l generalizing d with
  | nil => exact none
  | cons a l ih => exact ih (keeps d a none)

theorem zeroizeCommands_ctxs (none : d.ctxs = []) : (zeroizeCommands d).ctxs = [] := by
  refine Dev.each_ctxs_nil none fun d e none => ?_
  exact (Dev.each_ctxs_nil none fun _ _ => endMember_ctxs : (d.each _ fun d (c : Cmd) => endMember stZeroized d e.1 c.tag).ctxs = [])

theorem zeroizeErases_ctxs (none : d.ctxs = []) : (zeroizeErases d).ctxs = [] := by
  refine Dev.each_ctxs_nil none fun d e none => ?_
  split
  · exact none
  · split
    · exact complete_ctxs none
    · exact complete_ctxs none

theorem zeroize_ctxs (incl media : Bool) (none : d.ctxs = []) : (zeroize incl true media d).ctxs = [] := by
  obtain ⟨-, -, ctxs, -⟩ := mediaZeroized_keeps incl media (zeroize incl true false d)
  rw [zeroize_media, ctxs, zeroize_host, fault_ctxs]
  exact (keysZeroized_ctxs incl _).trans (zeroizeErases_ctxs (zeroizeCommands_ctxs none))

/-! ### HLD_CFG (R708) -/

theorem bits_mod_two_pow {v lsb w n : Nat} (inside : lsb + w ≤ n) : bits (v % 2 ^ n) lsb w = bits v lsb w := by
  refine Nat.eq_of_testBit_eq fun i => ?_
  by_cases low : i < w
  · simp [bits, Nat.testBit_mod_two_pow, low, show lsb + i < n by omega]
  · simp [bits, Nat.testBit_mod_two_pow, low]

/-- A write of a whole register leaves nothing of its former value in the register's bits. -/
theorem bits_mergeBytes {old size value lsb w : Nat} (inside : lsb + w ≤ 8 * size) : bits (mergeBytes old 0 size value) lsb w = bits value lsb w := by
  have whole : mergeBytes old 0 size value % 2 ^ (8 * size) = value % 2 ^ (8 * size) := by simp [mergeBytes, bits, Nat.mod_one]
  rw [← bits_mod_two_pow inside, whole, bits_mod_two_pow inside]

theorem rd_hldCfg_write {value : Nat} : ∀ f ∈ regHLD_CFG.fields, (regHLD_CFG.write 0 4 value d).rd f = bits value f.lsb f.width := by
  have inside : ∀ f ∈ regHLD_CFG.fields, f.lsb + f.width ≤ 8 * 4 := by decide
  have cut (f : Field) : bits (mergeBytes (regHLD_CFG.value d.rd) 0 4 value) f.lsb f.width % 2 ^ f.width =
      bits (mergeBytes (regHLD_CFG.value d.rd) 0 4 value) f.lsb f.width := Nat.mod_mod _ _
  intro f mem
  rw [← bits_mergeBytes (inside f mem), ← cut]
  simp only [regHLD_CFG, List.mem_cons, List.not_mem_nil, or_false] at mem
  rcases mem with rfl | rfl | rfl | rfl
  · exact (Dev.rd_wr_ne _ _ (by decide)).trans ((Dev.rd_wr_ne _ _ (by decide)).trans ((Dev.rd_wr_ne _ _ (by decide)).trans (Dev.rd_wr _ _ _)))
  · exact (Dev.rd_wr_ne _ _ (by decide)).trans ((Dev.rd_wr_ne _ _ (by decide)).trans (Dev.rd_wr _ _ _))
  · exact (Dev.rd_wr_ne _ _ (by decide)).trans (Dev.rd_wr _ _ _)
  · exact Dev.rd_wr _ _ _

theorem rd_chargeUpdate (apart : g.key ≠ HLD_STATUS.CHARGING.key) : (chargeUpdate d).rd g = d.rd g := by
  unfold chargeUpdate
  split
  · rfl
  · simp [Dev.put, Dev.rd_wr_ne, apart]

theorem hldCfg_unreported : ∀ f ∈ regHLD_CFG.fields, f.unreported ∧ f.key ≠ FRN_CNT_SPACE_WAITS.COUNT.key ∧
    f.key ≠ FRN_STATUS.CLASS_A_WAIT.key ∧ f.key ≠ HLD_STATUS.CHARGING.key := by
  decide

theorem mediaRegAt_hldCfg : mediaRegAt 0xE00000 = some regHLD_CFG := by rfl

theorem mediaWrite_hldCfg {value : Nat} (voltage : 0x3C ≤ bits value 0 8 ∧ bits value 0 8 ≤ 0x50)
    (window : ofBits 8 (bits value 8 8) < ofBits 8 (bits value 16 8)) :
    mediaWrite (.i3c .media) 0xE00000 4 value d = (stSuccess, chargeUpdate (regHLD_CFG.write 0 4 value d)) := by
  have good : mediaValueOk 0xE00000 value = true := by simp [mediaValueOk, voltage, window]
  simp only [mediaWrite, mediaRegAt_hldCfg, good]
  rfl

end
end Sys2Proof.Machine
end

section
/-! PROOFS. The messages of the I3C ports (R590, R718, R778), one lemma each: a port that hears its bus answers, and does what its message asks. -/

namespace Sys2Proof.Machine

section
variable {h : Half} {s : State}

/-- A command that comes to an update of the device. -/
theorem does_withDev {c : Instr} {d : Dev} (run : exec c s = s.ok d) : Does c s fun t => t = s.withDev d := ⟨_, run, rfl⟩

theorem Dev.when_heard {d : Dev} (heard : d.nunatak h = true) (f : Dev → Dev) : d.when (d.nunatak h) f = f d := if_pos heard

/-! ### Status, registers and the ledger -/

theorem exec_statusRead (heard : s.dev.nunatak h = true) :
    exec (.statusRead h) s = s.ok (portReply h portOk (s.dev.portStatus h) s.dev) :=
  congrArg s.ok (Dev.when_heard heard _)

theorem exec_statusRead_unheard (unheard : s.dev.nunatak h = false) : exec (.statusRead h) s = .next s :=
  congrArg s.ok (if_neg (by simp [unheard]))

section
variable {off size : Nat} {r : Reg}

theorem filter_size (named : portReg h off = some r) (whole : r.size = size) : (portReg h off).filter (·.size == size) = some r := by
  simp [named, whole]

/-- The value that the port of a half reads from a register. -/
def Dev.portValue (d : Dev) (f : Fuses) (h : Half) (r : Reg) : Nat :=
  match h with
  | .host => readPf f 0 d r
  | .media => readMedia f d r

theorem exec_regRead (heard : s.dev.nunatak h = true) (named : portReg h off = some r) (whole : r.size = size)
    (served : s.dev.coresRun h = true ∨ nunatakReg h off = true) :
    exec (.regRead h off size) s = s.ok (portReply h portOk (leBytes size (s.dev.portValue s.fuses h r)) s.dev) := by
  have open' : (!s.dev.coresRun h && !nunatakReg h off) = false := by rcases served with served | served <;> simp [served]
  change execRegRead h off size s = _
  rw [execRegRead, Dev.when_heard heard, filter_size named whole]
  simp only [open', Bool.false_eq_true, if_false]
  rfl

theorem exec_regRead_unavailable (heard : s.dev.nunatak h = true) (named : portReg h off = some r) (whole : r.size = size)
    (stopped : s.dev.coresRun h = false) (other : nunatakReg h off = false) :
    exec (.regRead h off size) s = s.ok (portReply h portUnavailable [] s.dev) := by
  change execRegRead h off size s = _
  rw [execRegRead, Dev.when_heard heard, filter_size named whole]
  simp only [stopped, other, Bool.not_false, Bool.and_self, if_true]

theorem exec_regRead_invalid (heard : s.dev.nunatak h = true) (none : portReg h off = none) :
    exec (.regRead h off size) s = s.ok (portReply h portInvalid [] s.dev) := by
  change execRegRead h off size s = _
  rw [execRegRead, Dev.when_heard heard, none]
  rfl

theorem exec_regWrite_host {value : Nat} (heard : s.dev.nunatak .host = true) (runs : s.dev.coresRun .host = true)
    (named : portReg .host off = some r) (whole : r.size = size) : exec (.regWrite .host off size value) s =
      s.ok (regWrite (.i3c .host) off size value (portReply .host portOk [] s.dev)) := by
  have sized : (portReg .host off).any (·.size == size) = true := by simp [named, whole]
  change execRegWrite .host off size value s = _
  rw [execRegWrite, Dev.when_heard heard]
  simp only [runs, sized, Bool.not_true, Bool.false_eq_true, if_false, if_true]

end

theorem exec_regWrite_hldCfg {value : Nat} (heard : s.dev.nunatak .media = true) (runs : s.dev.coresRun .media = true)
    (voltage : 0x3C ≤ bits value 0 8 ∧ bits value 0 8 ≤ 0x50) (window : ofBits 8 (bits value 8 8) < ofBits 8 (bits value 16 8)) :
    exec (.regWrite .media 0xE00000 4 value) s =
      s.ok (settle (portReply .media portOk [] (chargeUpdate (regHLD_CFG.write 0 4 value s.dev)))) := by
  change execRegWrite .media 0xE00000 4 value s = _
  rw [execRegWrite, Dev.when_heard heard]
  simp only [runs, mediaWrite_hldCfg voltage window, Bool.not_true, Bool.false_eq_true, if_false, if_true]

/-- HLD_CFG reads as it was written, whatever the charger and the waiting records make of the write. -/
theorem rd_hldCfg_written {d : Dev} {value : Nat} (none : d.ctxs = []) : ∀ f ∈ regHLD_CFG.fields,
    (settle (portReply .media portOk [] (chargeUpdate (regHLD_CFG.write 0 4 value d)))).rd f = bits value f.lsb f.width := by
  intro f mem
  obtain ⟨unreported, counts, waits, charging⟩ := hldCfg_unreported f mem
  have stores : (portReply .media portOk [] (chargeUpdate (regHLD_CFG.write 0 4 value d))).ctxs = d.ctxs :=
    (StoresKept.of_part (by simp [portReply, part_chargeUpdate])).ctxs
  rw [settle_of_none (stores.trans none), rd_noteWaits unreported counts waits]
  exact (rd_chargeUpdate charging).trans (rd_hldCfg_write f mem)

theorem exec_ledgerRead {i : Nat} {r : LedgerRec} (heard : s.dev.nunatak h = true)
    (there : ((s.dev.led h).recs ++ (s.dev.led h).sums)[i]? = some r) :
    exec (.ledgerRead h i) s = s.ok (portReply h portOk r.bytes s.dev) := by
  change execLedgerRead h i s = _
  rw [execLedgerRead, Dev.when_heard heard, there]

/-! ### The mailboxes (R776, R777) -/

theorem exec_i3cMailbox_status {key arg : Nat} (heard : s.dev.nunatak .host = true) (free : s.dev.mbx = none) :
    exec (.i3cMailbox .host 1 key arg) s = s.ok ({ s.dev with mbx := none }.emit
      (.reply (.i3c .host) 0 (leBytes 1 0 ++ leBytes 8 (s.dev.glbStatus + 2 ^ 32 * s.dev.fltStatus .host)))) := by
  have supplied : (s.dev.pw .host).vaon = true := by
    simp only [Dev.nunatak, Bool.and_eq_true] at heard
    exact heard.1
  change execI3cMailbox .host 1 key arg s = _
  rw [execI3cMailbox, Dev.when_heard heard]
  simp only [mbxCmd, free, supplied, Option.isSome_none, Bool.not_true, Bool.or_self, Bool.false_eq_true, if_false]
  rfl

theorem exec_i3cMailbox_mediaStatus {key arg : Nat} (heard : s.dev.nunatak .media = true) :
    exec (.i3cMailbox .media 2 key arg) s =
      s.ok (portReply .media portOk (leBytes 1 0 ++ leBytes 8 (s.dev.fltStatus .media + 2 ^ 32 * s.dev.frnStatus)) s.dev) := by
  change execI3cMailbox .media 2 key arg s = _
  rw [execI3cMailbox, Dev.when_heard heard]
  simp [mediaMailbox, mbxOps, mbxMedia]

/-! ### The boot flash (R719) -/

section
variable {bank off : Nat} (heard : s.dev.nunatak .host = true) (known : bank ≤ 1)
include heard known

theorem exec_flashAccess_read {len : Nat} (short : len ≤ 256) (inside : off + len ≤ bankSize) :
    exec (.flashAccess .host bank off len none) s = s.ok (portReply .host portOk (flashRead s.flash (bankBase bank + off) len) s.dev) := by
  have valid : ¬(Half.host = .media ∨ 1 < bank ∨ 256 < len ∨ bankSize < off + len) := by simp; omega
  change execFlashAccess .host bank off len none s = _
  simp only [execFlashAccess, heard, valid, Bool.not_true, Bool.false_eq_true, if_false]

theorem exec_flashAccess_write {len : Nat} {b : Bytes} (short : b.length ≤ 256) (inside : off + b.length ≤ bankSize) :
    exec (.flashAccess .host bank off len (some b)) s =
      .next { s with flash := flashWrite s.flash (bankBase bank + off) b, dev := portReply .host portOk [] s.dev } := by
  have valid : ¬(Half.host = .media ∨ 1 < bank ∨ 256 < b.length ∨ bankSize < off + b.length) := by simp; omega
  change execFlashAccess .host bank off len (some b) s = _
  simp only [execFlashAccess, heard, valid, Bool.not_true, Bool.false_eq_true, if_false]

end

theorem bank_inside {bank off n : Nat} (known : bank ≤ 1) (inside : off + n ≤ bankSize) : bankBase bank + off + n ≤ flashSize := by
  unfold bankBase flashSize bankSize at *
  omega

/-! ### The lifecycle and the device key (R198, R717, R718) -/

/-- The fuses as a permitted LIFECYCLE message leaves them. -/
def Fuses.moved (f : Fuses) (target : Nat) (hashes : List (Nat × Bytes)) (revoke : Nat) : Fuses :=
  { f.program hashes with revoked := f.revoked ||| revoke, lifecycle := if target = 0 then f.lifecycle else target }

/-- The operands of a LIFECYCLE message name something to do, within their ranges, at a port that may do it. -/
abbrev lifecycleValid (h : Half) (target : Nat) (hashes : List (Nat × Bytes)) (revoke : Nat) : Prop :=
  target ≤ 3 ∧ revoke < 16 ∧ ((hashes ≠ [] ∨ revoke ≠ 0) → h = .host) ∧ (target ≠ 0 ∨ hashes ≠ [] ∨ revoke ≠ 0)

theorem lifecycleValid.inRange {target revoke : Nat} {hashes : List (Nat × Bytes)} (valid : lifecycleValid h target hashes revoke) :
    ¬(3 < target ∨ 16 ≤ revoke ∨ ((!hashes.isEmpty || revoke != 0) && h == .media) ∨ (target = 0 ∧ !(!hashes.isEmpty || revoke != 0))) := by
  obtain ⟨known, four, port, some⟩ := valid
  rintro (far | far | media | ⟨still, nothing⟩)
  · omega
  · omega
  · simp only [Bool.and_eq_true, Bool.or_eq_true, Bool.not_eq_true', List.isEmpty_eq_false_iff, bne_iff_ne, beq_iff_eq] at media
    exact absurd (port media.1) (by simp [media.2])
  · simp only [Bool.not_eq_true', Bool.or_eq_false_iff, Bool.not_eq_false', List.isEmpty_iff, bne_eq_false_iff_eq] at nothing
    simp [still, nothing] at some

section
variable {target revoke : Nat} {hashes : List (Nat × Bytes)} (heard : s.dev.nunatak h = true)
  (valid : lifecycleValid h target hashes revoke)
include heard valid

theorem exec_lifecycle (moves : target ≠ 0 → s.dev.mayMove s.fuses target = true) (programs : hashes ≠ [] → s.fuses.mayProgram hashes = true)
    (revokes : revoke ≠ 0 → s.fuses.lifecycle ≠ 3) : exec (.lifecycle h target hashes revoke) s =
      .next { s with fuses := s.fuses.moved target hashes revoke, dev := if target = 3 then settle (zeroize true true true (portReply h portOk [] s.dev))
        else portReply h portOk [] s.dev } := by
  have permitted : ¬((target ≠ 0 ∧ !s.dev.mayMove s.fuses target) ∨ (!hashes.isEmpty && !s.fuses.mayProgram hashes) ∨
      (revoke ≠ 0 ∧ s.fuses.lifecycle = 3)) := by
    simp only [Bool.and_eq_true, Bool.not_eq_true', List.isEmpty_eq_false_iff]
    rintro (⟨named, refused⟩ | ⟨named, refused⟩ | ⟨named, gone⟩)
    · simp [moves named] at refused
    · simp [programs named] at refused
    · exact revokes named gone
  change execLifecycle h target hashes revoke s = _
  simp only [execLifecycle, heard, Bool.not_true, Bool.false_eq_true, if_false, if_neg valid.inRange, if_neg permitted]
  by_cases still : target = 0
  · simp [still, Fuses.moved]
    rfl
  · simp [still, Fuses.moved]

theorem exec_lifecycle_forbidden (named : target ≠ 0) (stays : s.dev.mayMove s.fuses target = false) :
    exec (.lifecycle h target hashes revoke) s = s.ok (portReply h portForbidden [] s.dev) := by
  change execLifecycle h target hashes revoke s = _
  simp only [execLifecycle, heard, Bool.not_true, Bool.false_eq_true, if_false, if_neg valid.inRange]
  rw [if_pos (.inl ⟨named, by simp [stays]⟩)]

end

theorem Fuses.four_getD {i : Nat} (known : i < 4) (f : Fuses) (x : Bytes) : f.four.getD i x = f.hashes.getD i [] := by
  simp [Fuses.four, List.getD_eq_getElem?_getD, known]

theorem setAt_getD {l : List Bytes} {i : Nat} (inside : i < l.length) (v x : Bytes) : (setAt l i v).getD i x = v := by
  induction l generalizing i with
  | nil => simp at inside
  | cons a l ih =>
    cases i with
    | zero => rfl
    | succ i => exact ih (by simpa using inside)

/-- An erased hash reads the same whatever default stands past the four. -/
theorem Fuses.four_erased {i : Nat} {f : Fuses} (known : i < 4) (erased : f.four.getD i [] = []) : f.four.getD i [0] = [] :=
  (Fuses.four_getD known f _).trans ((Fuses.four_getD known f _).symm.trans erased)

theorem Fuses.mayProgram_erased {i : Nat} {b : Bytes} {f : Fuses} (provisioning : f.lifecycle = 1) (known : i < 4)
    (whole : b.length = 48) (erased : f.four.getD i [] = []) : f.mayProgram [(i, b)] = true := by
  simp only [Fuses.mayProgram, List.all_cons, List.all_nil, provisioning, known, whole, Fuses.four_erased known erased]
  rfl

/-- A key-hash position that was not programmed holds the hash of the message. -/
theorem programmed_hash {i revoke : Nat} {b : Bytes} {f : Fuses} (known : i < 4) (whole : b.length = 48) (erased : f.four.getD i [] = []) :
    (f.moved 0 [(i, b)] revoke).four.getD i [] = b := by
  have empty := Fuses.four_erased known erased
  have hashes : (f.moved 0 [(i, b)] revoke).hashes = setAt f.four i (b.take 48) := if_pos empty
  rw [Fuses.four_getD known, hashes, setAt_getD (by simpa [Fuses.four] using known), List.take_of_length_le whole.le]

theorem exec_devkey {key : Bytes} (heard : s.dev.nunatak .host = true) (whole : key.length = 32)
    (open' : s.fuses.lifecycle = 1 ∨ s.fuses.lifecycle = 2) (none : s.dev.rime.devHost = none) (free : s.dev.rime.used < 16) :
    exec (.devkey .host key) s = s.ok (portReply .host portOk [] (placeDevKey key s.dev)) := by
  have permitted : ¬((s.fuses.lifecycle ≠ 1 ∧ s.fuses.lifecycle ≠ 2) ∨ s.dev.rime.devHost.isSome ∨ 16 ≤ s.dev.rime.used) := by
    simp [none]; omega
  change execDevkey .host key s = _
  rw [execDevkey, Dev.when_heard heard]
  simp [whole, permitted]

theorem placeDevKey_present (key : Bytes) (d : Dev) : (placeDevKey key d).rd RIM_STATUS.DEVKEY_PRESENT = 1 := by
  rw [placeDevKey, Dev.rd_wr_ne _ _ (by decide), Dev.set, Dev.rd_wr]
  rfl

/-! ### IDE keys (R589 to R591) -/

/-- What an IDE_KM object makes of a stream: KEY_PROG, K_SET_GO, K_SET_STOP. -/
def ideChange (object : Nat) (key : Bytes) (x : IdeStream) : IdeStream :=
  match object with
  | 2 => { x with key := key.take 32 }
  | 4 => { x with secure := !x.key.isEmpty }
  | 5 => { x with secure := false }
  | _ => x

theorem execMctp_changes {m : Msg} {object e n : Nat} (heard : s.dev.nunatak .host = true) (awake : (s.dev.pw .host).held = false) (ep : e < 4)
    (stream : n < 8) (args : m.args = [object, e, n]) (known : object = 2 ∨ object = 4 ∨ object = 5) : Does (.mctp .host m) s fun t =>
      tget (t.dev.ep e).ide n = some (ideChange object m.data ((tget (s.dev.ep e).ide n).getD ⟨false, []⟩)) := by
  suffices changed : ∃ d : Dev, exec (.mctp .host m) s = s.ok d ∧ d.eps = (modIde e n (ideChange object m.data) s.dev).eps by
    obtain ⟨d, run, eps⟩ := changed
    refine ⟨_, run, ?_⟩
    simp only [Dev.ep, eps]
    simp [modIde, Dev.modEp, Dev.ep]
  have known' : ¬(4 ≤ e ∨ 8 ≤ n ∨ ! [0, 2, 4, 5].contains object) := by
    rcases known with rfl | rfl | rfl <;> simp <;> omega
  change ∃ d, execMctp .host m s = _ ∧ _
  rw [execMctp, Dev.when_heard heard]
  simp only [args, awake]
  rcases known with rfl | rfl | rfl <;> exact ⟨_, congrArg s.ok (if_neg known'), rfl⟩

/-! ### The buses (R796, R805) -/

theorem busStart_smbus (slow od bc : Bool) (d : Dev) :
    ((busStart h slow od bc d).pw h).ports.smbus = ((slow && od && !bc) || (d.pw h).ports.smbus) := by
  unfold busStart
  split
  next enters => simp [enters]
  next stays => simp [stays]

theorem tapLoad_tap (trst : Bool) (i : TapInstr) (d : Dev) : ((tapLoad h trst i d).pw h).ports.tap = if trst then .idcode else i := by
  simp [tapLoad]

end

/-- Settles O45: each message has one equation for what its port answers and does. A write of the flash is read back byte by byte
(`flashRead_write`, `flashRead_write_out`), one of HLD_CFG field by field (`rd_hldCfg_written`), the passage to DECOMMISSIONED zeroizes the keys
(`zeroize_keys`), and an IDE_KM message changes the one stream that it names (`execMctp_changes`). -/
theorem managementPortsAnswer : Obligations.ManagementPortsAnswer := by
  unfold Obligations.ManagementPortsAnswer
  refine ⟨?status, ?read, ?unavailable, ?noRegister, ?write, ?hldCfg, ?hostMailbox, ?mediaMailbox, ?ledger, ?flashRead, ?flashWrite, ?deployed,
    ?decommissioned, ?keyHash, ?revoked, ?forbidden, ?devkey, ?keyProg, ?setGo, ?setStop, ?unheard, ?smbus, ?idcode⟩
  case status => exact fun h s heard => does_withDev (exec_statusRead heard)
  case read =>
    intro h off size r s heard named whole served
    refine ⟨_, exec_regRead heard named whole served, ?_⟩
    cases h <;> rfl
  case unavailable => exact fun h off size r s heard named whole stopped other => does_withDev (exec_regRead_unavailable heard named whole stopped other)
  case noRegister => exact fun h off size s heard none => does_withDev (exec_regRead_invalid heard none)
  case write => exact fun off size value r s heard runs named whole => does_withDev (exec_regWrite_host heard runs named whole)
  case hldCfg =>
    intro value s heard runs none small low high window
    have written := rd_hldCfg_written (value := value) none
    exact ⟨_, exec_regWrite_hldCfg heard runs ⟨low, high⟩ window, written _ (by decide), written _ (by decide), written _ (by decide),
      written _ (by decide)⟩
  case hostMailbox => exact fun key arg s heard free => ⟨_, exec_i3cMailbox_status heard free, rfl, _, Sent.emit _ _⟩
  case mediaMailbox => exact fun key arg s heard => does_withDev (exec_i3cMailbox_mediaStatus heard)
  case ledger => exact fun h i r s heard there => does_withDev (exec_ledgerRead heard there)
  case flashRead => exact fun bank off len s heard known short inside => does_withDev (exec_flashAccess_read heard known short inside)
  case flashWrite =>
    intro bank off len b s heard known short inside wf
    exact ⟨_, exec_flashAccess_write heard known short inside, flashRead_write wf (bank_inside known inside), fun a => flashRead_write_out wf⟩
  case deployed =>
    intro h s heard provisioning held
    refine ⟨_, exec_lifecycle heard ⟨by decide, by decide, by simp, by simp⟩ (fun _ => ?_) (by simp) (by simp), ?_⟩
    · simp [Dev.mayMove, provisioning, held]
    · simp [Fuses.moved, Fuses.program]
  case decommissioned =>
    intro h s heard before none
    refine ⟨_, exec_lifecycle heard ⟨by decide, by decide, by simp, by simp⟩ (fun _ => ?_) (by simp) (by simp), rfl, ?_⟩
    · simpa [Dev.mayMove] using before
    · have none : (portReply h portOk [] s.dev).ctxs = [] := none
      have rime := settle_rime (zeroize_ctxs true true none)
      obtain ⟨slots, devKey⟩ := zeroize_keys true true (portReply h portOk [] s.dev)
      simp only [if_true, Dev.slot, rime, slots, devKey]
      exact ⟨trivial, fun _ => rfl⟩
  case keyHash =>
    intro i b s heard provisioning known whole erased
    refine ⟨_, exec_lifecycle heard ⟨by decide, by decide, fun _ => rfl, by simp⟩ (by simp) (fun _ => ?_) (by simp), programmed_hash known whole erased⟩
    exact Fuses.mayProgram_erased provisioning known whole erased
  case revoked =>
    intro revoke s heard serving four some
    refine ⟨_, exec_lifecycle heard ⟨by decide, four, fun _ => rfl, .inr (.inr some)⟩ (by simp) (by simp) (fun _ => serving), fun i => ?_⟩
    simp [Fuses.moved]
  case forbidden =>
    intro h s heard provisioning none
    exact does_withDev (exec_lifecycle_forbidden heard ⟨by decide, by decide, by simp, by simp⟩ (by decide) (by simp [Dev.mayMove, none]))
  case devkey =>
    intro key s heard whole serving none free
    exact ⟨_, exec_devkey heard whole serving none free, rfl, rfl, rfl, placeDevKey_present key s.dev⟩
  case keyProg =>
    intro e n m s heard awake ep stream args
    obtain ⟨t, run, changed⟩ := execMctp_changes heard awake ep stream args (.inl rfl)
    exact ⟨t, run, congrArg (Option.map (·.key)) changed⟩
  case setGo =>
    intro e n m x s heard awake ep stream args there keyed
    obtain ⟨t, run, changed⟩ := execMctp_changes heard awake ep stream args (.inr (.inl rfl))
    have filled : x.key.isEmpty = false := List.isEmpty_eq_false_iff.mpr keyed
    exact ⟨t, run, by simpa [there, ideChange, filled] using changed⟩
  case setStop =>
    intro e n m x s heard awake ep stream args there
    obtain ⟨t, run, changed⟩ := execMctp_changes heard awake ep stream args (.inr (.inr rfl))
    exact ⟨t, run, by simpa [there, ideChange] using changed⟩
  case unheard => exact fun h s unheard => ⟨s, exec_statusRead_unheard unheard, rfl⟩
  case smbus => exact fun h slow od bc d => busStart_smbus slow od bc d
  case idcode => exact fun h trst i d => tapLoad_tap trst i d

end Sys2Proof.Machine
end

section
/-! PROOFS. How the links stand: what the receivers hold, which lanes carry frames, and whether a half is up or in peer down; and everything that
messages, reports and events do without touching it. -/

namespace Sys2Proof.Machine

/-- How the links stand: each end's receiver and its lanes in rotation, and UP and PEER_DOWN of each half. -/
def Dev.standing (d : Dev) : (LinkEnd → LinkRx × List Nat) × (Half → Nat × Nat) :=
  (fun l => ((d.link l).rx, (d.link l).tx.lanes), fun h => (d.rd (SCH_STATUS.UP h), d.rd (SCH_STATUS.PEER_DOWN h)))

/-- A register field other than UP and PEER_DOWN of either half. -/
def Field.beside (f : Field) : Bool :=
  [Half.host, .media].all fun h => (SCH_STATUS.UP h).key != f.key && (SCH_STATUS.PEER_DOWN h).key != f.key

section
variable {d e : Dev} {l : LinkEnd} {h : Half}

/-! ### What it tells -/

theorem rx_of_standing (same : e.standing = d.standing) (l : LinkEnd) : (e.link l).rx = (d.link l).rx :=
  congrArg (fun x : (LinkEnd → LinkRx × List Nat) × (Half → Nat × Nat) => (x.1 l).1) same

theorem lanes_of_standing (same : e.standing = d.standing) (l : LinkEnd) : (e.link l).tx.lanes = (d.link l).tx.lanes :=
  congrArg (fun x : (LinkEnd → LinkRx × List Nat) × (Half → Nat × Nat) => (x.1 l).2) same

theorem up_of_standing (same : e.standing = d.standing) (h : Half) : e.is (SCH_STATUS.UP h) = d.is (SCH_STATUS.UP h) :=
  congrArg (fun x : (LinkEnd → LinkRx × List Nat) × (Half → Nat × Nat) => (x.2 h).1 != 0) same

theorem peerDown_of_standing (same : e.standing = d.standing) (h : Half) : e.is (SCH_STATUS.PEER_DOWN h) = d.is (SCH_STATUS.PEER_DOWN h) :=
  congrArg (fun x : (LinkEnd → LinkRx × List Nat) × (Half → Nat × Nat) => (x.2 h).2 != 0) same

/-! ### Through the ways in which the model composes updates -/

@[simp] theorem Dev.standing_ite {c : Prop} [Decidable c] {a b : Dev} :
    (if c then a else b).standing = if c then a.standing else b.standing := apply_ite Dev.standing c a b

@[simp] theorem Dev.standing_when {c : Bool} {f : Dev → Dev} : (d.when c f).standing = if c then (f d).standing else d.standing :=
  apply_ite Dev.standing _ _ _

@[simp] theorem Dev.standing_each {α : Type} {l : List α} {f : Dev → α → Dev} (kept : ∀ d a, (f d a).standing = d.standing) :
    (d.each l f).standing = d.standing := by
  induction l generalizing d with
  | nil => rfl
  | cons a l ih => exact ih.trans (kept d a)

/-- The device of a result that a `match` has named. -/
theorem standing_snd_eq {α : Type} {x : α × Dev} {a : α} (named : x = (a, e)) : e.standing = x.2.standing := by rw [named]

/-! ### Registers -/

theorem Field.beside_iff {f : Field} : f.beside ↔ ∀ h, (SCH_STATUS.UP h).key ≠ f.key ∧ (SCH_STATUS.PEER_DOWN h).key ≠ f.key := by
  have halves (P : Half → Prop) : (∀ h, P h) ↔ P .host ∧ P .media := ⟨fun h => ⟨h _, h _⟩, fun ⟨host, media⟩ h => by cases h <;> assumption⟩
  simp [halves, Field.beside]

theorem Field.beside_of_space {f : Field} (space : 16 ≤ f.space) : f.beside := by
  refine Field.beside_iff.mpr fun h => ⟨?_, ?_⟩
  · exact Field.unreported.ne_fn (by cases h <;> decide) space
  · exact Field.unreported.ne_fn (by cases h <;> decide) space

theorem Field.beside_of_cfg {f : Field} {fn : Nat} (space : f.space = cfgSpace fn) : f.beside :=
  beside_of_space (space ▸ (by decide : 16 ≤ 2048).trans (Nat.le_add_right 2048 fn))

@[simp] theorem standing_wr {f : Field} {v : Nat} (apart : f.beside) : (d.wr f v).standing = d.standing := by
  refine Prod.ext rfl (funext fun h => ?_)
  obtain ⟨up, down⟩ := Field.beside_iff.mp apart h
  exact Prod.ext (Dev.rd_wr_ne d v up) (Dev.rd_wr_ne d v down)

@[simp] theorem standing_set {f : Field} (apart : f.beside) : (d.set f).standing = d.standing := standing_wr apart
@[simp] theorem standing_clr {f : Field} (apart : f.beside) : (d.clr f).standing = d.standing := standing_wr apart
@[simp] theorem standing_put {f : Field} {b : Bool} (apart : f.beside) : (d.put f b).standing = d.standing := standing_wr apart
@[simp] theorem standing_putBit {f : Field} {n : Nat} {b : Bool} (apart : f.beside) : (d.putBit f n b).standing = d.standing := standing_wr apart
@[simp] theorem standing_bump {f : Field} {n : Nat} (apart : f.beside) : (d.bump f n).standing = d.standing := standing_wr apart

/-! ### The other updates of Machine/Ops -/

@[simp] theorem standing_emit {o : Out} : (d.emit o).standing = d.standing := rfl
@[simp] theorem standing_emits {os : List Out} : (d.emits os).standing = d.standing := rfl
@[simp] theorem standing_draw : d.draw.2.standing = d.standing := rfl
@[simp] theorem standing_modFn {n : Nat} {f : Fn → Fn} : (d.modFn n f).standing = d.standing := rfl
@[simp] theorem standing_modEp {n : Nat} {f : Endpoint → Endpoint} : (d.modEp n f).standing = d.standing := rfl
@[simp] theorem standing_modLed {f : Ledger → Ledger} : (d.modLed h f).standing = d.standing := rfl
@[simp] theorem standing_modTwin {f : Twin → Twin} : (d.modTwin f).standing = d.standing := rfl
@[simp] theorem standing_modRings {f : Rings → Rings} : (d.modRings f).standing = d.standing := rfl
@[simp] theorem standing_modFirn {f : Firn → Firn} : (d.modFirn f).standing = d.standing := rfl
@[simp] theorem standing_modDrv {f : Drives → Drives} : (d.modDrv f).standing = d.standing := rfl
@[simp] theorem standing_modRime {f : Rime → Rime} : (d.modRime f).standing = d.standing := rfl
@[simp] theorem standing_modIng {f : Ingest → Ingest} : (d.modIng f).standing = d.standing := rfl
@[simp] theorem standing_modStream {n : Nat} {f : Stream → Stream} : (d.modStream n f).standing = d.standing := rfl
@[simp] theorem standing_modQ {q : Nat} {f : Queue → Queue} : (d.modQ q f).standing = d.standing := rfl
@[simp] theorem standing_dropCtx {q tag : Nat} : (d.dropCtx q tag).standing = d.standing := rfl

/-! ### Link ends -/

@[simp] theorem Dev.link_modLink (f : Link → Link) : (d.modLink l f).link l = f (d.link l) := by
  cases l
  · exact Dev.schEnd_modSch d _ f
  · rfl

theorem halfNum_ne {h k : Half} (other : k ≠ h) : halfNum k ≠ halfNum h := by
  cases h <;> cases k <;> simp_all [halfNum]

theorem Dev.schEnd_modSch_ne {k : Half} (other : k ≠ h) (f : Link → Link) : (d.modSch h f).schEnd k = d.schEnd k := by
  simp [Dev.schEnd, Dev.modSch, tget_tput_ne, halfNum_ne other]

theorem Dev.link_modLink_ne {m : LinkEnd} (other : m ≠ l) (f : Link → Link) : (d.modLink l f).link m = d.link m := by
  cases l with
  | snow => cases m with
    | snow => exact absurd rfl other
    | sch k => rfl
  | sch h => cases m with
    | snow => rfl
    | sch k => exact Dev.schEnd_modSch_ne (fun same => other (congrArg _ same)) f

@[simp] theorem Dev.rd_modLink (f : Link → Link) (g : Field) : (d.modLink l f).rd g = d.rd g := by cases l <;> rfl

/-- A change of a transmitter that keeps its lanes in rotation. -/
@[simp] theorem standing_modLink {f : Link → Link} (kept : ∀ k : Link, (f k).rx = k.rx ∧ (f k).tx.lanes = k.tx.lanes) :
    (d.modLink l f).standing = d.standing := by
  have ends : ∀ m, ((d.modLink l f).link m).rx = (d.link m).rx ∧ ((d.modLink l f).link m).tx.lanes = (d.link m).tx.lanes := by
    intro m
    by_cases same : m = l
    · subst same
      rw [Dev.link_modLink]
      exact kept _
    · rw [Dev.link_modLink_ne same]
      exact ⟨rfl, rfl⟩
  simp [Dev.standing, ends]

@[simp] theorem standing_modSch {f : Link → Link} (kept : ∀ k : Link, (f k).rx = k.rx ∧ (f k).tx.lanes = k.tx.lanes) :
    (d.modSch h f).standing = d.standing := standing_modLink (l := .sch h) kept

end
end Sys2Proof.Machine
end

section
/-! PROOFS. Messages, reports, events and the ends of commands leave the links standing as they are: no receiver, no lane in rotation, neither
UP nor PEER_DOWN changes by them. -/

namespace Sys2Proof.Machine

section
variable {d e : Dev} {l : LinkEnd} {h : Half}

/-! ### Events and completions (R79 to R82, R571 to R579, R767 to R772) -/

@[simp] theorem standing_trigger {fn v : Nat} : (trigger fn v d).standing = d.standing := by
  have pending : (CFG.MSI_PEND fn).beside := Field.beside_of_cfg rfl
  simp [trigger, pending]

@[simp] theorem standing_pmeFor {fn : Nat} : (pmeFor fn d).standing = d.standing := by
  have status : (CFG.PME_ST fn).beside := Field.beside_of_cfg rfl
  simp [pmeFor, status]

@[simp] theorem standing_postEvent {fn : Nat} {x : Event} : (postEvent fn x d).standing = d.standing := by
  have lost : (RNG_EV_LOST.LOST fn).beside := Field.beside_of_space (Nat.le_add_right 16 fn)
  simp [postEvent, ringEvent, writeEvent, lost]

@[simp] theorem standing_postToPfs {x : Event} : (postToPfs x d).standing = d.standing := by simp [postToPfs]
@[simp] theorem standing_devEvent {code data : Nat} : (devEvent code data d).standing = d.standing := standing_postToPfs
@[simp] theorem standing_mediaEvent {code data : Nat} : (mediaEvent code data d).standing = d.standing := by simp [mediaEvent]
@[simp] theorem standing_halfEvent {code data : Nat} : (halfEvent h code data d).standing = d.standing := by cases h <;> simp [halfEvent]

@[simp] theorem standing_aerUnc {fn n : Nat} : (aerUnc fn n d).standing = d.standing := by
  have status : (CFG.AER_UNC fn).beside := Field.beside_of_cfg rfl
  simp [aerUnc, status]

@[simp] theorem standing_aerCor {fn n : Nat} : (aerCor fn n d).standing = d.standing := by
  have status : (CFG.AER_COR fn).beside := Field.beside_of_cfg rfl
  simp [aerCor, status]

@[simp] theorem standing_internalError : (internalError d).standing = d.standing := by simp [internalError]
@[simp] theorem standing_correctedError : (correctedError d).standing = d.standing := by simp [correctedError]

@[simp] theorem standing_classABroken {q : Nat} : (classABroken q d).standing = d.standing := by
  unfold classABroken
  split <;> simp [classAExceeded, queueEvent]

@[simp] theorem standing_signalQueue {q : Nat} : (signalQueue q d).standing = d.standing := by
  unfold signalQueue
  split <;> simp

@[simp] theorem standing_endReset {frees : Option Nat} : (d.endReset frees).standing = d.standing := by cases frees <;> rfl

@[simp] theorem standing_writeCqe {q : Nat} {x : Cqe} : (writeCqe q x d).standing = d.standing := by
  unfold writeCqe
  split <;> simp

@[simp] theorem standing_postCqe {q : Nat} {x : Cqe} : (postCqe q x d).standing = d.standing := by
  unfold postCqe
  split <;> simp

@[simp] theorem standing_noteMember {fn q tag st : Nat} {c : Cmd} : (noteMember fn q tag st c d).standing = d.standing := by simp [noteMember]

@[simp] theorem standing_noteApply {q tag st : Nat} {c : Cmd} : (noteApply q tag st c d).standing = d.standing := by
  have applied : VRV_CNT_MSG_APPLIED.COUNT.beside := by decide
  have failed : VRV_CNT_AUTH_FAIL.COUNT.beside := by decide
  unfold noteApply
  extract_lets
  split
  · rfl
  · split <;> simp [applied, failed]

@[simp] theorem standing_failCmd {q tag st : Nat} : (failCmd q tag st d).standing = d.standing := by
  unfold failCmd complete completeFreeing
  split <;> simp

/-! ### The links' own sending (R244 to R257, R505 to R508) -/

@[simp] theorem standing_grant {a : ArbId} {w : List (Nat × Nat)} {k : List WorkD} : (grant a w k d).2.standing = d.standing := by
  unfold grant
  extract_lets
  repeat' split
  all_goals rfl

@[simp] theorem standing_grantSome {n : Nat} {a : ArbId} {w : List (Nat × Nat)} {k : List WorkD} :
    (grantSome n a w k d).2.standing = d.standing := by
  induction n generalizing d with
  | zero => rfl
  | succ n ih =>
    unfold grantSome
    split
    next e granted => simpa using standing_snd_eq granted
    next e idle => simpa [ih] using standing_snd_eq idle

@[simp] theorem standing_serveNext {α : Type} {a : ArbId} {w : List α} {key : α → Nat × Nat} {k : List WorkD} :
    (serveNext a w key k d).2.standing = d.standing := by
  unfold serveNext
  split
  next e none => simpa using standing_snd_eq none
  next e some => simpa using standing_snd_eq some

@[simp] theorem standing_nextFrame : (nextFrame l d).2.standing = d.standing := by
  unfold nextFrame
  split
  · rfl
  · exact standing_serveNext

@[simp] theorem standing_placeFrame {f : WaitFrame} {lane : Nat} : (placeFrame l f lane d).standing = d.standing := by simp [placeFrame]

@[simp] theorem standing_pump {n : Nat} : (pump n l d).standing = d.standing := by
  induction n generalizing d with
  | zero => rfl
  | succ n ih =>
    unfold pump
    split
    · rfl
    · split
      next e none => simpa using standing_snd_eq none
      next f e some => simpa [ih] using standing_snd_eq some

@[simp] theorem standing_pumpAll : (pumpAll l d).standing = d.standing := standing_pump

@[simp] theorem standing_queueFrames {k : Kind} {cls fn : Nat} {b : Bytes} : (queueFrames l k cls fn b d).standing = d.standing := by
  simp [queueFrames]

@[simp] theorem standing_linkControl {k : Kind} {ops : Bytes} : (linkControl l k ops d).standing = d.standing := by simp [linkControl]
@[simp] theorem standing_schSend {k : Kind} {cls : Nat} {m : Msg} : (schSend h k cls m d).standing = d.standing := by simp [schSend]

@[simp] theorem standing_takeCounter {n : Nat} : (takeCounter n d).2.standing = d.standing := by
  have warned : RIM_STATUS.NONCE_WARN.beside := by decide
  simp only [takeCounter]
  split
  · rfl
  · simp [fnEvent, Dev.modSlot, warned]

@[simp] theorem standing_drbgServe {n : Nat} : (drbgServe n d).standing = d.standing := by
  simp only [drbgServe, reseed]
  repeat' split
  all_goals rfl

@[simp] theorem standing_linkCompare {len : Nat} : (linkCompare len d).2.standing = d.standing := by
  have retries : RIM_CNT_RETRIES.COUNT.beside := by decide
  have blocks : RIM_CNT_BLOCKS.COUNT.beside := by decide
  simp [linkCompare, retries, blocks]

@[simp] theorem standing_sealSnow {b : Bytes} : (sealSnow b d).2.standing = d.standing := by
  have exhausted : RIM_CNT_NONCE_EXH.COUNT.beside := by decide
  unfold sealSnow
  split
  · rfl
  · split
    next e none => simpa [exhausted] using standing_snd_eq none
    next ctr e some => simpa using standing_snd_eq some

@[simp] theorem standing_snowSendFor {fn cls : Nat} {k : Kind} {m : Msg} : (snowSendFor fn k cls m d).standing = d.standing := by
  unfold snowSendFor
  split
  · rfl
  · split
    · rfl
    · split
      · split
        next e none => simpa using standing_snd_eq none
        next b e some => simpa using standing_snd_eq some
      · simp

@[simp] theorem standing_snowSend {cls : Nat} {k : Kind} {m : Msg} : (snowSend k cls m d).standing = d.standing := standing_snowSendFor

/-! ### Fault reports (R756 to R766) -/

@[simp] theorem standing_sendFaultEvent {src code count : Nat} {summary twin : Bool} :
    (sendFaultEvent h src code count summary twin d).standing = d.standing := by
  have notified : (FLT_CNT_NOTIFY.COUNT h).beside := by cases h <;> decide
  cases h <;> simp [sendFaultEvent, schSendFree, notified]

@[simp] theorem standing_sourceEvent {src code n t : Nat} {first summary twin : Bool} :
    (sourceEvent h src code n t first summary twin d).standing = d.standing := by
  unfold sourceEvent
  extract_lets
  split <;> simp

@[simp] theorem standing_summarise {n src code reporter t : Nat} {twin injected : Bool} :
    (summarise h n src code reporter t twin injected d).standing = d.standing := by
  have counted : (FLT_CNT_SUMMARIZED.COUNT h).beside := by cases h <;> decide
  simp [summarise, counted]

@[simp] theorem standing_lastGasp : (lastGasp h d).standing = d.standing := by
  have gasped : (FLT_STATUS.LAST_GASP h).beside := by cases h <;> decide
  cases h <;> simp [lastGasp, gasped]

@[simp] theorem standing_stormEvent : (stormEvent h d).standing = d.standing := by cases h <;> simp [stormEvent]

@[simp] theorem standing_rollInterval {t : Nat} : (rollInterval h t d).standing = d.standing := by
  have mode : (FLT_STATUS.SUMMARY_MODE h).beside := by cases h <;> decide
  simp [rollInterval, mode]

@[simp] theorem standing_stickySummary {block sev : Nat} : (stickySummary h block sev d).standing = d.standing := by
  have degraded : (FLT_SUMMARY.DEGRADED h).beside := by cases h <;> decide
  have lost : (FLT_SUMMARY.LOST h).beside := by cases h <;> decide
  simp [stickySummary, degraded, lost]

@[simp] theorem standing_fault {block inst cause : Nat} {left : Bool} : (fault h block inst cause left d).standing = d.standing := by
  have counted : (FLT_CNT_REPORTS.COUNT h).beside := by cases h <;> decide
  have storm : (FLT_STATUS.STORM h).beside := by cases h <;> decide
  have mode : (FLT_STATUS.SUMMARY_MODE h).beside := by cases h <;> decide
  have full : (FLT_STATUS.LEDGER_FULL h).beside := by cases h <;> decide
  simp [fault, report, reports, counted, storm, mode, full]

/-! ### The mode, the fence and what peer down ends (R34 to R36, R268, R269, R493, R527) -/

@[simp] theorem standing_updateMode : (updateMode d).standing = d.standing := by
  have mode : FRN_STATUS.MODE.beside := by decide
  simp [updateMode, keepDual, mode]

@[simp] theorem standing_freeRec {slot : Nat} : (freeRec slot d).standing = d.standing := by
  have empty : FRN_STATUS.EMPTY.beside := by decide
  simp [freeRec, spaceCheck, empty]

@[simp] theorem standing_closeStreams {p : Stream → Bool} : (closeStreams p d).standing = d.standing := by
  refine Dev.standing_each fun d x => ?_
  unfold releaseStream
  split <;> simp [tellPins, dropRun]

@[simp] theorem standing_haltPorts : (haltPorts d).standing = d.standing := by simp [haltPorts]

@[simp] theorem standing_fenceCommand {q : Nat} {sent : Bool} {c : Cmd} : (fenceCommand q sent d c).standing = d.standing := by
  unfold fenceCommand
  split <;> simp

@[simp] theorem standing_settleFence {sent : Bool} : (settleFence sent d).standing = d.standing := by simp [settleFence]

@[simp] theorem standing_loseGroups : (loseGroups d).standing = d.standing := by
  have discards : FRN_CNT_DISCARDS.COUNT.beside := by decide
  simp [loseGroups, discards]

@[simp] theorem standing_lastEvent {cause kind : Nat} : (lastEvent cause kind d).standing = d.standing := by
  have cause : TWN_LAST_EVENT.CAUSE.beside := by decide
  have kind : TWN_LAST_EVENT.KIND.beside := by decide
  have time : TWN_LAST_EVENT.TIMEBASE.beside := by decide
  simp [lastEvent, cause, kind, time]

@[simp] theorem standing_fenceSelf {cause : Nat} : (fenceSelf cause d).standing = d.standing := by
  have fenced : TWN_STATUS.FENCED.beside := by decide
  have state : TWN_STATUS.STATE.beside := by decide
  simp [fenceSelf, fenced, state]

@[simp] theorem standing_yieldPools : (yieldPools d).standing = d.standing := by
  have home : TWN_HOME.HOME.beside := by decide
  simp only [yieldPools, syncHome, standing_modFirn, standing_wr home]
  rfl

@[simp] theorem standing_peerDownHost : (peerDownHost d).standing = d.standing := by simp [peerDownHost]

@[simp] theorem standing_peerDownMedia : (peerDownMedia d).standing = d.standing := by
  have told (k : Kind) (m : Msg) (x : Firn) : (snowSend k 0 m { d with ctxs := [], firn := x }).standing = d.standing := standing_snowSend
  simp [peerDownMedia, told]

@[simp] theorem standing_keepGlb : (keepGlb d).standing = d.standing := by
  have mode : GLB_STATUS.MODE.beside := by decide
  have twin : GLB_STATUS.TWIN_STATE.beside := by decide
  have online : GLB_STATUS.POOL_ONLINE.beside := by decide
  have faulted : GLB_STATUS.FAULT.beside := by decide
  have storm : GLB_STATUS.STORM.beside := by decide
  simp [keepGlb, mode, twin, online, faulted, storm]

@[simp] theorem standing_mbxEnd {result resp : Nat} : (mbxEnd result resp d).standing = d.standing := by
  have busy : FLT_MBX_STATUS.BUSY.beside := by decide
  have ended : FLT_MBX_STATUS.RESULT.beside := by decide
  have answer : FLT_MBX_RESP.RESP.beside := by decide
  have taken : ({ d with mbx := none } : Dev).standing = d.standing := rfl
  unfold mbxEnd
  split <;> simp [busy, ended, answer, taken]

end
end Sys2Proof.Machine
end

section
/-! PROOFS. The lanes of the links (R254 to R263, R505 to R516): what a half in peer down shows, what the status registers of the lanes and a
replay leave alone, and what a receiver notes of a lost lane. -/

namespace Sys2Proof.Machine

section
variable {d e : Dev} {l : LinkEnd} {h : Half}

/-! ### Registers leave the link ends as they are -/

@[simp] theorem Dev.link_wr {f : Field} {v : Nat} : (d.wr f v).link l = d.link l := by cases l <;> rfl
@[simp] theorem Dev.link_set {f : Field} : (d.set f).link l = d.link l := Dev.link_wr
@[simp] theorem Dev.link_clr {f : Field} : (d.clr f).link l = d.link l := Dev.link_wr
@[simp] theorem Dev.link_bump {f : Field} {n : Nat} : (d.bump f n).link l = d.link l := Dev.link_wr

theorem linkControl_link {k : Kind} {ops : Bytes} {m : LinkEnd} : (linkControl l k ops d).link m = d.link m := by
  unfold linkControl
  extract_lets
  split
  · rfl
  · cases m <;> rfl

/-! ### The status registers of the lanes (R275 to R279, R515) -/

@[simp] theorem standing_syncSch : (syncSch d).standing = d.standing := by
  have beside (h : Half) : (SCH_STATUS.W_H2M h).beside ∧ (SCH_STATUS.W_M2H h).beside ∧ (SCH_STATUS.SPARE_H2M h).beside ∧
      (SCH_STATUS.SPARE_M2H h).beside ∧ (SCH_LANE_H2M.LOCKED h).beside ∧ (SCH_LANE_H2M.IN_SERVICE h).beside ∧
      (SCH_LANE_M2H.LOCKED h).beside ∧ (SCH_LANE_M2H.IN_SERVICE h).beside := by cases h <;> decide
  simp [syncSch, beside]

@[simp] theorem standing_markRetired {lanes : List Nat} : (markRetired h lanes d).standing = d.standing := by
  have beside (k : Half) : (SCH_LANE_H2M.RETIRED k).beside ∧ (SCH_LANE_M2H.RETIRED k).beside := by cases k <;> decide
  unfold markRetired
  refine Dev.standing_each fun d k => Dev.standing_each fun d lane => ?_
  cases h <;> simp [beside]

@[simp] theorem standing_schMark {f : Half → Field} (apart : ∀ h, (f h).beside) : (schMark f d).standing = d.standing := by
  simp [schMark, apart]

@[simp] theorem standing_schCount {f : Half → Field} {n : Nat} (apart : ∀ h, (f h).beside) : (schCount f n d).standing = d.standing := by
  simp [schCount, apart]

@[simp] theorem standing_syncSnow : (syncSnow d).standing = d.standing := by
  have transmit : TWN_STATUS.WIDTH_TX.beside := by decide
  have receive : TWN_STATUS.WIDTH_RX.beside := by decide
  have transmitting : TWN_LANES.TX_IN_SERVICE.beside := by decide
  have receiving : TWN_LANES.RX_IN_SERVICE.beside := by decide
  have cable0 : TWN_LANES.CABLE0_UP.beside := by decide
  have cable1 : TWN_LANES.CABLE1_UP.beside := by decide
  simp [syncSnow, transmit, receive, transmitting, receiving, cable0, cable1]

@[simp] theorem standing_snowDegraded : (snowDegraded d).standing = d.standing := by
  have degraded : TWN_STATUS.DEGRADED.beside := by decide
  simp [snowDegraded, degraded]

/-! ### Peer down (R264, R265) -/

/-- A half enters peer down: UP falls, PEER_DOWN rises, and the receivers and the lanes in rotation stay. -/
theorem standing_enterPeerDown {cause : Nat} (before : d.is (SCH_STATUS.PEER_DOWN h) = false) :
    (enterPeerDown h cause d).standing =
      (((fault h 5 0x1F cause false (keepGlb d)).clr (SCH_STATUS.UP h)).set (SCH_STATUS.PEER_DOWN h)).standing := by
  cases h <;> simp [enterPeerDown, before]

theorem enterPeerDown_down {cause : Nat} (before : d.is (SCH_STATUS.PEER_DOWN h) = false) :
    (enterPeerDown h cause d).is (SCH_STATUS.UP h) = false ∧ (enterPeerDown h cause d).is (SCH_STATUS.PEER_DOWN h) = true := by
  have other : (SCH_STATUS.UP h).key ≠ (SCH_STATUS.PEER_DOWN h).key := by cases h <;> decide
  rw [up_of_standing (standing_enterPeerDown before), peerDown_of_standing (standing_enterPeerDown before), Dev.is_set_ne other]
  exact ⟨Dev.is_clr, Dev.is_set rfl⟩

/-- A half that raises the fatal fault keeps its receivers and its lanes in rotation. -/
theorem fatalSch_ends {cause : Nat} (l : LinkEnd) :
    ((fatalSch h cause d).link l).rx = (d.link l).rx ∧ ((fatalSch h cause d).link l).tx.lanes = (d.link l).tx.lanes := by
  unfold fatalSch
  split
  · exact ⟨rfl, rfl⟩
  next before =>
    have fatal : (SCH_STATUS.FATAL h).beside := by cases h <;> decide
    extract_lets locked
    have kept : (linkControl (.sch h) .peerFatal [BitVec.ofNat 8 cause] (locked.set (SCH_STATUS.FATAL h))).standing = d.standing :=
      standing_linkControl.trans (standing_set fatal)
    have before := (peerDown_of_standing kept h).trans (Bool.eq_false_iff.mpr before)
    have entered := standing_enterPeerDown (cause := cause) before
    have reported {x : Dev} : (fault h 5 0x1F cause false (keepGlb x)).standing = x.standing := by simp
    rw [rx_of_standing entered, lanes_of_standing entered, Dev.link_set, Dev.link_clr]
    exact ⟨rx_of_standing (reported.trans kept) l, lanes_of_standing (reported.trans kept) l⟩

/-! ### A receiver loses a lane (R258, R262, R263) -/

/-- What the receiver notes of a lane that it declares lost and that is out of lock. -/
theorem schLaneLost_rx {lane : Nat} (up : d.is (SCH_STATUS.UP h) = true) (known : lane < 20) (held : lane ∉ (d.schEnd h).rx.lost) :
    ∃ losses aligning, ((schLaneLost h lane false d).schEnd h).rx = { (d.schEnd h).rx with
      lost := (d.schEnd h).rx.lost ++ [lane], losses := losses, locked := without (d.schEnd h).rx.locked lane,
      lanes := without (d.schEnd h).rx.lanes lane, aligning := aligning } := by
  have told {b : Bool} {x : Dev} : (x.when b (markRetired h [lane])).standing = x.standing := by simp
  have sent {x : Dev} {ops : Bytes} : (syncSch (linkControl (.sch h) .laneDown ops x)).standing = x.standing := by simp
  unfold schLaneLost
  extract_lets r k pend serves d1 d2
  have held : ¬ (r.lost.contains lane = true ∨ (!d.is (SCH_STATUS.UP h)) = true) := by simpa [up, r] using held
  rw [if_neg known.not_ge, if_neg held]
  have noted : (d2.schEnd h).rx = (d1.schEnd h).rx := rx_of_standing told (.sch h)
  refine ⟨_, _, Eq.trans (b := (d1.schEnd h).rx) ?_ (by rw [Dev.schEnd_modSch]; rfl)⟩
  rw [← noted]
  split
  · exact ((fatalSch_ends (.sch h)).1).trans (rx_of_standing standing_syncSch (.sch h))
  · exact rx_of_standing sent (.sch h)

/-! ### Replay (R255, R258) -/

theorem LinkTx.nextLane_mem {t : LinkTx} (some : t.lanes ≠ []) : ∃ lane ∈ t.lanes, t.nextLane = .some lane := by
  unfold LinkTx.nextLane
  cases found : t.lanes.find? fun x => decide (t.rot ≤ t.logical x) with
  | some lane => exact ⟨lane, List.mem_of_find?_eq_some found, rfl⟩
  | none => exact ⟨t.lanes.head some, List.head_mem some, (Option.none_or).trans (List.head?_eq_some_head some)⟩

@[simp] theorem standing_replayOne {f : SentFrame} : (replayOne l d f).standing = d.standing := by
  have sch : ∀ h, (SCH_CNT_REPLAY.COUNT h).beside := fun h => by cases h <;> decide
  have snow : TWN_CNT_REPLAY.COUNT.beside := by decide
  unfold replayOne
  extract_lets
  split
  · rfl
  · cases l
    · simp [sch]
    · simp [snow]

@[simp] theorem standing_replayFrames {p : SentFrame → Bool} : (replayFrames l p d).1.standing = d.standing := by
  unfold replayFrames
  extract_lets
  split
  · rfl
  · exact Dev.standing_each fun _ _ => standing_replayOne

theorem replayOne_grows (f : SentFrame) : Grows d (replayOne l d f) := by
  unfold replayOne
  extract_lets
  split
  · exact .refl d
  · cases l
    · exact ⟨_, rfl⟩
    · exact ⟨_, rfl⟩

theorem replayOne_sent (f : SentFrame) (some : (d.link l).tx.lanes ≠ []) :
    ∃ lane ∈ (d.link l).tx.lanes, Sent d (replayOne l d f) (.frame l lane f.bytes) := by
  obtain ⟨lane, mem, next⟩ := LinkTx.nextLane_mem some
  refine ⟨lane, mem, [.frame l lane f.bytes], ?_, List.mem_singleton_self _⟩
  unfold replayOne
  extract_lets k
  rw [show k.tx.nextLane = .some lane from next]
  cases l
  · rfl
  · rfl

/-- Every frame that is picked goes again on a lane in rotation. -/
theorem each_replayOne_sent {fs : List SentFrame} {f : SentFrame} (picked : f ∈ fs) (some : (d.link l).tx.lanes ≠ []) :
    ∃ lane ∈ (d.link l).tx.lanes, Sent d (d.each fs (replayOne l)) (.frame l lane f.bytes) := by
  have grows (fs : List SentFrame) (d : Dev) : Grows d (d.each fs (replayOne l)) := by
    induction fs generalizing d with
    | nil => exact .refl d
    | cons g fs ih => exact (replayOne_grows g).trans (ih _)
  induction fs generalizing d with
  | nil => exact absurd picked List.not_mem_nil
  | cons g fs ih =>
    rcases List.mem_cons.mp picked with rfl | later
    · obtain ⟨lane, mem, sent⟩ := replayOne_sent f some
      exact ⟨lane, mem, sent.trans_grows (grows fs _)⟩
    · have lanes := lanes_of_standing (standing_replayOne (l := l) (d := d) (f := g)) l
      obtain ⟨lane, mem, sent⟩ := ih (d := replayOne l d g) later (by rwa [lanes])
      exact ⟨lane, lanes ▸ mem, .of_grows (replayOne_grows g) sent⟩

/-- No frame picked waits for its eighth replay, so the limit is not met (R255). -/
theorem replayFrames_few {p : SentFrame → Bool} (few : FewReplays l p d) : (replayFrames l p d).2 = false := by
  unfold replayFrames
  extract_lets
  split
  · rfl
  · refine List.any_eq_false.mpr fun f mem => ?_
    obtain ⟨mem, picked⟩ := List.mem_filter.mp mem
    simpa using few f mem picked

theorem replayFrames_of_open {p : SentFrame → Bool} (going : (d.link l).tx.stopped = false) :
    (replayFrames l p d).1 = d.each ((d.link l).tx.retry.filter p) (replayOne l) := by
  simp [replayFrames, going]

end
end Sys2Proof.Machine
end

section
/-! PROOFS. The events of the Schrund's physical link (R23, R258, R262, R265, R272). -/

namespace Sys2Proof.Machine

section
variable {d : Dev} {h : Half}

theorem Dev.schEnd_wr {f : Field} {v : Nat} : (d.wr f v).schEnd h = d.schEnd h := Dev.link_wr (l := .sch h)

theorem syncSch_schEnd : (syncSch d).schEnd h = d.schEnd h := by
  simp [syncSch, Dev.each, Dev.schEnd_wr]

theorem Dev.schEnd_modSch_eq {k : Half} {f : Link → Link} : (d.modSch h f).schEnd k = if k = h then f (d.schEnd h) else d.schEnd k := by
  split
  next same => rw [same, Dev.schEnd_modSch]
  next other => rw [Dev.schEnd_modSch_ne other]

theorem otherHalf_ne (h : Half) : h ≠ otherHalf h := by cases h <;> decide

theorem mem_insertSorted {l : List Nat} {n m : Nat} : m ∈ insertSorted l n ↔ m = n ∨ m ∈ l := by
  induction l with
  | nil => simp [insertSorted]
  | cons a t ih =>
    unfold insertSorted
    split
    · simp
    · split
      next same => simp [same]
      next => simp [ih, or_left_comm]

theorem not_mem_without {l : List Nat} {n : Nat} : n ∉ without l n := by simp [without]

/-- Both ends are to retrain the lost lanes that they did not retire (R262). -/
theorem schRetry_retraining : ((schRetry d).schEnd h).rx.retraining =
    (d.schEnd h).rx.lost.filter fun x => !(d.schEnd h).retired.contains x := by
  cases h <;> simp [schRetry, Dev.each, Dev.schEnd_modSch_eq]

/-! ### The forwarded clock (R23, R272) -/

/-- Both clock lanes are lost, and both ends show that the media half is in holdover on its own crystal. -/
def Dev.inHoldover (d : Dev) : Dev :=
  let d := { d with clocks := { d.clocks with lost := true } }
  (((d.clr (SCH_STATUS.CLK_ALT .media)).clr (SCH_STATUS.CLK_ALT .host)).set (SCH_STATUS.HOLDOVER .media)).set (SCH_STATUS.HOLDOVER .host)

theorem exec_forwardedClockLost_both {s : State} (locked : s.dev.clocks.lost = false) :
    exec (.forwardedClockLost true) s = s.ok (fault .media 5 0x1F 0x12 false s.dev.inHoldover) := by
  change execForwardedClockLost true s = _
  simp [execForwardedClockLost, locked, Dev.inHoldover]

theorem set_both {f : Half → Field} (one : ∀ h, (f h).width = 1) (apart : (f .media).key ≠ (f .host).key) :
    ((d.set (f .media)).set (f .host)).is (f h) = true := by
  cases h
  · exact Dev.is_set (one _)
  · exact (Dev.is_set_ne apart).trans (Dev.is_set (one _))

theorem clr_both {f : Half → Field} (apart : (f .media).key ≠ (f .host).key) : ((d.clr (f .media)).clr (f .host)).is (f h) = false := by
  cases h
  · exact Dev.is_clr
  · exact (Dev.is_clr_ne apart).trans Dev.is_clr

theorem fault_clocks {k : Half} {block inst cause : Nat} {left : Bool} : (fault k block inst cause left d).clocks = d.clocks :=
  (congrArg Dev.clocks (part_fault : (fault k block inst cause left d).part .clocks = d.part .clocks) :)

end

/-- Settles O17: a half that enters peer down shows it (`enterPeerDown_down`), a receiver notes a lost lane whatever follows
(`schLaneLost_rx`), and a fault report leaves the clock's bits as they were set (`is_fault`). -/
theorem schrundLinkEventsTakeEffect : Obligations.SchrundLinkEventsTakeEffect := by
  unfold Obligations.SchrundLinkEventsTakeEffect
  refine ⟨?fatal, ?silent, ?lost, ?retry, ?retrained, ?both, ?one, ?back⟩
  case fatal =>
    intro half cause s up before
    exact ⟨_, congrArg s.ok (if_pos up), enterPeerDown_down before⟩
  case silent =>
    intro half s up before
    have down : silentPeer half s.dev = enterPeerDown half (1 + s.dev.draw.1 % 4) s.dev.draw.2 := by simp [silentPeer, up, before]
    exact ⟨_, rfl, by rw [down]; exact enterPeerDown_down before⟩
  case lost =>
    intro half lane s up known held
    obtain ⟨losses, aligning, noted⟩ := schLaneLost_rx up known held
    refine ⟨_, rfl, ?_⟩
    dsimp only
    rw [noted]
    exact ⟨List.mem_append_right _ (List.mem_singleton_self lane), not_mem_without, not_mem_without⟩
  case retry =>
    intro path half s writer
    exact ⟨_, congrArg s.ok (if_pos writer), fun h => schRetry_retraining⟩
  case retrained =>
    intro half lane s retraining
    refine ⟨_, congrArg s.ok (if_neg (by simpa using retraining)), ?_⟩
    dsimp only
    simp only [syncSch_schEnd, Dev.schEnd_modSch_eq, if_neg (otherHalf_ne half), if_neg (otherHalf_ne half).symm, if_true, mem_insertSorted]
    exact ⟨not_mem_without, .inl trivial, .inl trivial⟩
  case both =>
    intro s locked
    refine ⟨_, exec_forwardedClockLost_both locked, congrArg (·.lost) fault_clocks, fun h => ?_⟩
    rw [is_fault (by cases h <;> decide)]
    exact set_both (fun h => rfl) (by decide)
  case one =>
    intro s alone
    exact ⟨_, congrArg s.ok (if_pos (by simp [alone])), fun h => set_both (f := SCH_STATUS.CLK_ALT) (fun h => rfl) (by decide)⟩
  case back =>
    intro s
    refine ⟨_, rfl, rfl, fun h => ⟨?_, clr_both (f := SCH_STATUS.CLK_ALT) (by decide)⟩⟩
    rw [Dev.is_clr_ne (by cases h <;> decide), Dev.is_clr_ne (by cases h <;> decide)]
    exact clr_both (f := SCH_STATUS.HOLDOVER) (by decide)

end Sys2Proof.Machine
end

section
/-! PROOFS. The frames of the links and their link-control messages (R252 to R260, R505, R506, R514, R516). -/

namespace Sys2Proof.Machine

section
variable {d e : Dev} {l : LinkEnd} {h : Half} {frame b : Bytes} {lane : Nat}

/-! ### A frame with a good check is heard (R253, R254) -/

/-- The device once a frame with a good check is noted, and what it acknowledges is freed. -/
def Dev.heard (d : Dev) (l : LinkEnd) (lane : Nat) (f : Bytes) : Dev :=
  ackFrames l (getLe f 8 4) ((noteCheck l lane false d).1.modLink l fun k => { k with rx := { k.rx with
    lastGood := d.linkTb l
    lastSent := match l with
      | .sch _ => 0
      | .snow => getLe f 16 8 } })

theorem goodFrame_control (control : getLe frame 0 1 = 0 ∨ getLe frame 0 1 = 15) : goodFrame l lane frame d = d.heard l lane frame := by
  cases l <;> exact if_pos control

theorem goodFrame_message (message : ¬(getLe frame 0 1 = 0 ∨ getLe frame 0 1 = 15)) :
    goodFrame l lane frame d = afterMessage l (messageFrame l frame (d.heard l lane frame)).2 (messageFrame l frame (d.heard l lane frame)).1 := by
  cases l <;> exact if_neg message

theorem standing_ackFrames {ack : Nat} : (ackFrames l ack d).standing = d.standing := by simp [ackFrames]

/-- The receiver of a frame that was heard notes the time of it; what it holds of messages stays. -/
theorem heard_rx : ((d.heard l lane frame).link l).rx.lastGood = d.linkTb l ∧
    ((d.heard l lane frame).link l).rx.next = (d.link l).rx.next ∧ ((d.heard l lane frame).link l).rx.reorder = (d.link l).rx.reorder ∧
    ((d.heard l lane frame).link l).rx.again = (d.link l).rx.again ∧ ((d.heard l lane frame).link l).rx.inbox = (d.link l).rx.inbox := by
  unfold Dev.heard
  rw [rx_of_standing standing_ackFrames l, Dev.link_modLink, noteCheck, Dev.link_modLink]
  exact ⟨rfl, rfl, rfl, rfl, rfl⟩

/-! ### A frame that carries a whole message (R249, R252, R254) -/

theorem first_last_of_whole {n : Nat} (whole : n % 4 = 3) : bit n 0 = true ∧ bit n 1 = true := by
  simp only [bit, Nat.testBit_eq_decide_div_mod_eq, decide_eq_true_eq]
  omega

/-- A frame that carries a whole message in good shape puts it with those that wait. -/
theorem deliverOne_whole {seq : Nat} (whole : getLe frame 1 1 % 4 = 3)
    (shape : schShapeOk h (getLe frame 0 1) (getBytes frame 16 (getLe frame 2 2)) = true) :
    (deliverOne (.sch h) seq frame d).2 = .fine ∧ ((deliverOne (.sch h) seq frame d).1.schEnd h).rx.next = (d.schEnd h).rx.next ∧
      ((deliverOne (.sch h) seq frame d).1.schEnd h).rx.inbox =
        (d.schEnd h).rx.inbox ++ [some (getBytes frame 16 (getLe frame 2 2))] := by
  obtain ⟨first, last⟩ := first_last_of_whole whole
  have counted : (schCount SCH_CNT_FRAMES.COUNT 1 d).schEnd h = d.schEnd h := Dev.link_bump (l := .sch h).trans (Dev.link_bump (l := .sch h))
  have taken : deliverOne (.sch h) seq frame d = (enqueueMessage (.sch h) (some (getBytes frame 16 (getLe frame 2 2)))
      ((schCount SCH_CNT_FRAMES.COUNT 1 d).modSch h fun k => { k with rx := { k.rx with
        part := tdel k.rx.part (getLe frame 12 4) } }), .fine) := by
    simp [deliverOne, messageEnd, first, last, shape, payloadAt, Dev.modLink]
  simp [taken, enqueueMessage, Dev.modLink, counted]

theorem serialLater_self (n : Nat) : serialLater n n = false := by simp [serialLater]

/-- The device once the receiver's next frame joined the frames that are held. -/
def Dev.holds (d : Dev) (h : Half) (frame : Bytes) : Dev :=
  d.modLink (.sch h) fun k => { k with rx := { k.rx with reorder := k.rx.reorder ++ [((d.schEnd h).rx.next, frame)] } }

/-- The device once that frame left them for delivery. -/
def Dev.advances (d : Dev) (h : Half) (frame : Bytes) : Dev :=
  (d.holds h frame).modLink (.sch h) fun k => { k with rx := { k.rx with
    next := ((d.schEnd h).rx.next + 1) % 2 ^ 32
    reorder := k.rx.reorder.filter fun e => e.1 != (d.schEnd h).rx.next } }

theorem messageFrame_holds (next : getLe frame 4 4 = (d.schEnd h).rx.next) (fresh : (d.schEnd h).rx.next ∉ (d.schEnd h).rx.again)
    (none : (d.schEnd h).rx.reorder = []) : messageFrame (.sch h) frame d = deliverHeldFrames 1 (.sch h) (d.holds h frame) := by
  have near : ¬ retryLimit (.sch h) ≤ ((d.schEnd h).rx.next + 2 ^ 32 - (d.schEnd h).rx.next) % 2 ^ 32 := by
    simp only [retryLimit]
    omega
  simp only [messageFrame, Dev.holds, Dev.link, next, none, serialLater_self, List.any_nil, List.length_nil, Bool.or_self, Bool.false_eq_true,
    if_false, if_neg near, List.contains_iff_mem, if_neg fresh]

/-- The receiver's next frame, with none held before it, is delivered at once. -/
theorem messageFrame_next (next : getLe frame 4 4 = (d.schEnd h).rx.next) (fresh : (d.schEnd h).rx.next ∉ (d.schEnd h).rx.again)
    (none : (d.schEnd h).rx.reorder = []) (fine : (deliverOne (.sch h) (d.schEnd h).rx.next frame (d.advances h frame)).2 = .fine) :
    messageFrame (.sch h) frame d = ((deliverOne (.sch h) (d.schEnd h).rx.next frame (d.advances h frame)).1, .fine) := by
  have found : ((d.holds h frame).link (.sch h)).rx.reorder.find? (fun e => e.1 == ((d.holds h frame).link (.sch h)).rx.next) =
      some ((d.schEnd h).rx.next, frame) := by simp [Dev.holds, Dev.link, Dev.modLink, none]
  rw [messageFrame_holds next fresh none, deliverHeldFrames]
  simp only [found]
  rw [← Dev.advances]
  split
  next e delivered => rw [delivered]; rfl
  next e x other delivered => exact absurd ((congrArg Prod.snd delivered).symm.trans fine) other

/-- What a half's receiver holds once it delivered a whole message. -/
theorem messageFrame_whole {s : State} (ready : Ready.whole h frame b s) (same : (d.schEnd h).rx.next = (s.dev.schEnd h).rx.next ∧
    (d.schEnd h).rx.reorder = (s.dev.schEnd h).rx.reorder ∧ (d.schEnd h).rx.again = (s.dev.schEnd h).rx.again) :
    (messageFrame (.sch h) frame d).2 = .fine ∧
      ((messageFrame (.sch h) frame d).1.schEnd h).rx.next = ((d.schEnd h).rx.next + 1) % 2 ^ 32 ∧
      ((messageFrame (.sch h) frame d).1.schEnd h).rx.inbox = (d.schEnd h).rx.inbox ++ [some b] := by
  obtain ⟨-, -, -, whole, next, rfl, shape, fresh, none⟩ := ready
  obtain ⟨sameNext, sameReorder, sameAgain⟩ := same
  rw [← sameNext] at next fresh
  rw [← sameAgain] at fresh
  rw [← sameReorder] at none
  obtain ⟨fine, kept, joined⟩ := deliverOne_whole (d := d.advances h frame) (seq := (d.schEnd h).rx.next) whole shape
  rw [messageFrame_next next fresh none fine, kept, joined]
  simp [Dev.advances, Dev.holds, Dev.modLink]

theorem frameReceived_whole {s : State} (hears : s.dev.deaf (.sch h) lane = false) (ready : Ready.whole h frame b s) :
    Does (.frameReceived (.sch h) lane frame) s fun t => (t.dev.schEnd h).rx.next = ((s.dev.schEnd h).rx.next + 1) % 2 ^ 32 ∧
      (t.dev.schEnd h).rx.inbox = (s.dev.schEnd h).rx.inbox ++ [some b] := by
  obtain ⟨-, next, reorder, again, inbox⟩ := heard_rx (d := s.dev) (l := .sch h) (lane := lane) (frame := frame)
  obtain ⟨fine, advanced, joined⟩ := messageFrame_whole ready ⟨next, reorder, again⟩
  obtain ⟨good, notIdle, notControl, -⟩ := ready
  have delivered : execFrameReceived (.sch h) lane frame s = s.ok (messageFrame (.sch h) frame (s.dev.heard (.sch h) lane frame)).1 := by
    simp [execFrameReceived, hears, good, goodFrame_message, notIdle, notControl, fine, afterMessage]
  dsimp only [Dev.link] at next inbox
  refine ⟨_, delivered, ?_⟩
  dsimp only
  rw [advanced, joined, next, inbox]
  exact ⟨rfl, rfl⟩

/-! ### Messages in their turn (R252) -/

/-- A command that stands for the arrival of a message has no effect while another message waits before it. -/
theorem exec_waits {c : Instr} {k : Kind} {x : Option Bytes} {y : Option Bytes} {rest : List (Option Bytes)} {s : State}
    (message : messageOf c = some (l, k, x)) (waiting : (s.dev.link l).rx.inbox = y :: rest) (other : fitsTurn y k x = false) :
    exec c s = .next s := by
  unfold messageOf at message
  split at message <;> cases message
  all_goals simp only [exec, schTurn, snowTurn, execWritePayload, execReadPayload, execWriteEnvelope, execNewChunk, execReferenceChunk,
    execReadDescriptor, execOtherIo, execFreezeGroupOperation, execVarveOperation, execCompletionMessage, execReferenceRefused, execRecord,
    execAck, execRefuse, execEcho, execCoord, execPair, execRecon, execSwap, execReportFaultNotice, execReportPathLoss,
    execReportDivergentStripe, execReportLocatedStrip, inTurn_waits waiting other]

/-! ### Lanes go out of service and come back (R258 to R260, R514, R516) -/

theorem without_eq {l : List Nat} {n : Nat} : without l n = l.filter (· != n) := List.filter_congr fun x _ => by
  rw [bne, beq_eq_decide, decide_not]

theorem mem_enter {t : LinkTx} : lane ∈ (t.enter lane).lanes := by simp [LinkTx.enter]

/-- A link-control frame goes out on every lane in rotation (R257). -/
theorem linkControl_sent {k : Kind} {ops : Bytes} (going : (d.link l).tx.stopped = false) (serves : lane ∈ (d.link l).tx.lanes) :
    Sent d (linkControl l k ops d) (.frame l lane (linkFrame l 15 0 (d.link l).tx.seq (d.link l).ackSeq 0 (d.linkTb l)
      (leBytes 1 (kindCode k).2 ++ ops))) := by
  unfold linkControl
  extract_lets x bytes
  rw [if_neg (Bool.eq_false_iff.mp going)]
  exact ⟨_, rfl, by simpa [x, bytes] using serves⟩

/-- The transmitter of the Schrund drops the lane, whatever takes its place. -/
theorem schLaneDown_lanes : ((schLaneDown h lane d).1.schEnd h).tx.lanes = without (d.schEnd h).tx.lanes lane := by
  unfold schLaneDown
  extract_lets tx logical dropped
  have lanes : (dropped.schEnd h).tx.lanes = without (d.schEnd h).tx.lanes lane := by simp [dropped]
  have kept {x : Dev} (same : x.standing = dropped.standing) : (x.schEnd h).tx.lanes = without (d.schEnd h).tx.lanes lane :=
    (lanes_of_standing same (.sch h)).trans lanes
  clear_value logical
  cases logical with
  | none => exact kept standing_syncSch
  | some lost =>
    rcases replayed : replayFrames (.sch h) (fun f => f.lane == lane) dropped with ⟨x, limit⟩
    have same : x.standing = dropped.standing := (congrArg (·.1.standing) replayed).symm.trans standing_replayFrames
    have degraded : ∀ k, (SCH_STATUS.DEGRADED k).beside := fun k => by cases k <;> decide
    dsimp only
    split
    next spare rest _ =>
      dsimp only
      rw [syncSch_schEnd, Dev.schEnd_modSch_ne (otherHalf_ne h)]
      exact kept (by simp [same])
    next =>
      split
      · exact kept (standing_syncSch.trans same)
      · exact kept (by simp [same, degraded])

/-- The transmitter of the Snowbridge drops a lane and goes on with the others, of which none meets the limit of R255. -/
theorem snowLaneDown_lanes (serves : lane ∈ d.snow.tx.lanes) (others : without d.snow.tx.lanes lane ≠ [])
    (few : FewReplays .snow (fun f => f.lane == lane) d) : (snowLaneDown lane d).snow.tx.lanes = without d.snow.tx.lanes lane := by
  unfold snowLaneDown
  rw [if_neg (by simp [serves])]
  extract_lets dropped counted w told
  have lanes : counted.snow.tx.lanes = without d.snow.tx.lanes lane := rfl
  have going : w ≠ 0 := by simpa [w, lanes] using others
  have toldLink : told.link .snow = counted.link .snow := linkControl_link
  have few : FewReplays .snow (fun f => f.lane == lane) told := by
    unfold FewReplays
    rw [toldLink]
    exact few
  have same : (snowDegraded (replayFrames .snow (fun f => f.lane == lane) told).1).standing = counted.standing := by simp [told]
  rw [if_neg going]
  rcases replayed : replayFrames .snow (fun f => f.lane == lane) told with ⟨x, limit⟩
  obtain rfl : limit = false := (congrArg Prod.snd replayed).symm.trans (replayFrames_few few)
  rw [replayed] at same
  exact (lanes_of_standing same .snow).trans lanes

/-! ### What the commands answer -/

section
variable {s : State}

theorem frameReceived_control (hears : s.dev.deaf l lane = false) (good : frameGood l frame = true)
    (control : getLe frame 0 1 = 0 ∨ getLe frame 0 1 = 15) :
    exec (.frameReceived l lane frame) s = s.ok (s.dev.heard l lane frame) := by
  change execFrameReceived l lane frame s = _
  simp [execFrameReceived, hears, good, goodFrame_control control]

/-- A frame of the Snowbridge that failed its check is named in a NAK. -/
theorem frameReceived_bad (hears : s.dev.deaf .snow lane = false) (bad : frameGood .snow frame = false) :
    exec (.frameReceived .snow lane frame) s =
      s.ok (linkControl .snow .nak (leBytes 4 (getLe frame 4 4)) (noteCheck .snow lane true s.dev).1) := by
  change execFrameReceived .snow lane frame s = _
  simp [execFrameReceived, hears, bad, badFrame]

theorem exec_nak {seqs : List Nat} (hears : s.dev.deaf l lane = false) (few : FewReplays l (fun f => seqs.contains f.seq) s.dev) :
    exec (.nak l lane seqs) s = s.ok (replayFrames l (fun f => seqs.contains f.seq) s.dev).1 := by
  change execNak l lane seqs s = _
  simp only [execNak, hears, Bool.false_eq_true, if_false, replayFrames_few few]

theorem exec_laneDown_sch (up : s.dev.is (SCH_STATUS.PEER_DOWN h) = false) :
    Does (.laneDown (.sch h) lane) s fun t => (t.dev.schEnd h).tx.lanes = without (s.dev.schEnd h).tx.lanes lane := by
  have dropped := schLaneDown_lanes (d := s.dev) (h := h) (lane := lane)
  refine ⟨_, congrArg s.ok (if_neg (Bool.eq_false_iff.mp up)), ?_⟩
  dsimp only
  split
  · exact ((fatalSch_ends (.sch h)).2).trans dropped
  · exact dropped

/-- A spare that is mapped comes into the rotation. -/
theorem mem_schLaneUp {logical : Nat} (mapped : (logical, lane) ∈ (d.schEnd h).tx.mapped) : lane ∈ ((schLaneUp h lane d).schEnd h).tx.lanes := by
  have subst : ∀ k, (SCH_STATUS.SUBST k).beside := fun k => by cases k <;> decide
  have count : ∀ k, (SCH_CNT_SUBST.COUNT k).beside := fun k => by cases k <;> decide
  unfold schLaneUp
  split
  next absent => exact absurd (List.find?_eq_none.mp absent _ mapped) (by simp)
  next m _ =>
    extract_lets entered reported
    have same : (pumpAll (.sch h) (syncSch reported)).standing = entered.standing := by simp [reported, subst, count]
    have lanes := lanes_of_standing same (.sch h)
    rw [show ((pumpAll (.sch h) (syncSch reported)).schEnd h).tx.lanes = (entered.schEnd h).tx.lanes from lanes, Dev.schEnd_modSch]
    exact mem_enter

end
end

/-- Settles O16: a frame that was heard leaves what the receiver holds (`heard_rx`), a whole message joins those that wait
(`frameReceived_whole`), which come in their turn (`exec_waits`); a replay goes out on a lane in rotation (`each_replayOne_sent`); and nothing
that follows the loss or the return of a lane changes the rotation again (`lanes_of_standing`). -/
theorem linkFramesTakeEffect : Obligations.LinkFramesTakeEffect := by
  unfold Obligations.LinkFramesTakeEffect
  refine ⟨?control, ?whole, ?waits, ?bad, ?nak, ?down, ?upSch, ?upSnow, ?widthSch, ?widthSnow⟩
  case control =>
    intro link lane frame s hears good control
    obtain ⟨heard, next, reorder, -⟩ := heard_rx (d := s.dev) (l := link) (lane := lane) (frame := frame)
    exact ⟨_, frameReceived_control hears good control, heard, next, reorder⟩
  case whole => exact fun h lane frame b s hears ready => frameReceived_whole hears ready
  case waits => exact fun c l k b x rest s message waiting other => ⟨s, exec_waits message waiting other, rfl⟩
  case bad =>
    intro lane frame l s hears bad going serves
    exact ⟨_, frameReceived_bad hears bad, .of_grows (.of_eq rfl) (linkControl_sent (d := (noteCheck .snow lane true s.dev).1) going serves),
      congrArg (·.rx.next) (linkControl_link (m := .snow))⟩
  case nak =>
    intro link lane seqs f s hears going some few held named
    have picked : f ∈ (s.dev.link link).tx.retry.filter fun f => seqs.contains f.seq := List.mem_filter.mpr ⟨held, by simpa using named⟩
    refine ⟨_, exec_nak hears few, ?_⟩
    rw [replayFrames_of_open going]
    exact each_replayOne_sent picked some
  case down =>
    intro link lane s up serves two few
    cases link with
    | sch h =>
      obtain ⟨t, run, lanes⟩ := exec_laneDown_sch (lane := lane) (up h rfl)
      exact ⟨t, run, fun mem => not_mem_without (lanes ▸ mem)⟩
    | snow =>
      have others : without s.dev.snow.tx.lanes lane ≠ [] := by
        rw [without_eq]
        exact List.ne_nil_of_length_pos (Nat.lt_of_lt_of_le Nat.two_pos two)
      exact ⟨_, rfl, fun mem => not_mem_without (snowLaneDown_lanes serves others few ▸ mem)⟩
  case upSch =>
    intro h logical lane s up mapped
    exact ⟨_, congrArg s.ok (if_neg (by simp [up, mapped])), mem_schLaneUp mapped⟩
  case upSnow =>
    intro lane s known absent
    refine ⟨_, congrArg s.ok (if_neg (by simp [absent, known])), ?_⟩
    have kept (ops : Bytes) (d : Dev) : (pumpAll .snow (syncSnow (linkControl .snow .width ops d))).snow.tx.lanes = d.snow.tx.lanes :=
      lanes_of_standing (by simp) .snow
    dsimp only
    rw [kept]
    exact mem_insertSorted.mpr (.inl rfl)
  case widthSch =>
    intro h width first s low high inRange up
    exact ⟨_, congrArg s.ok (if_pos ⟨by simp [low, high, up], inRange⟩), by simp [Dev.modLink]⟩
  case widthSnow =>
    intro width first s low high inRange
    exact ⟨_, congrArg s.ok (if_pos ⟨by simp [low, high], inRange⟩), rfl⟩

end Sys2Proof.Machine
end

section
/-! PROOFS. A member declared FAILED (R400, R402, R405, R616): its drive is bound to nothing from then on, and of the commands at that drive only
writes of configuration blocks are new. -/

namespace Sys2Proof.Machine

/-! ### Tables -/

theorem mem_tput {α : Type} {t : Tab α} {n : Nat} {v : α} {e : Nat × α} (mem : e ∈ tput t n v) : e = (n, v) ∨ e ∈ t := by
  induction t with
  | nil => exact .inl (List.mem_singleton.mp mem)
  | cons a t ih =>
    unfold tput at mem
    split at mem
    · exact (List.mem_cons.mp mem).imp id id
    · split at mem
      · exact (List.mem_cons.mp mem).imp id (List.mem_cons_of_mem a)
      · rcases List.mem_cons.mp mem with rfl | later
        · exact .inr List.mem_cons_self
        · exact (ih later).imp id (List.mem_cons_of_mem a)

/-! ### What leaves the drives and the pools as they are -/

/-- The drive table, the commands at the drives and the pools are unchanged, and no context is opened where there was none. -/
structure FabricKept (d e : Dev) : Prop where
  table : e.drives.table = d.drives.table
  cmds : e.drives.cmds = d.drives.cmds
  pools : e.pools = d.pools
  ctxs : d.ctxs = [] → e.ctxs = []

namespace FabricKept
variable {a b c d e : Dev}

theorem refl (d : Dev) : FabricKept d d := ⟨rfl, rfl, rfl, id⟩

theorem trans (h : FabricKept a b) (k : FabricKept b c) : FabricKept a c :=
  ⟨k.table.trans h.table, k.cmds.trans h.cmds, k.pools.trans h.pools, fun none => k.ctxs (h.ctxs none)⟩

theorem after (k : FabricKept b c) (h : FabricKept a b) : FabricKept a c := h.trans k

theorem of_stores (h : StoresKept d e) : FabricKept d e :=
  ⟨congrArg (·.table) h.drives, congrArg (·.cmds) h.drives, h.pools, fun none => h.ctxs.trans none⟩

theorem of_part (h : e.part .stores = d.part .stores) : FabricKept d e := of_stores (StoresKept.of_part h)

theorem when {c : Bool} {f : Dev → Dev} (h : FabricKept d (f d)) : FabricKept d (d.when c f) := by
  unfold Dev.when
  split
  · exact h
  · exact refl d

theorem each {α : Type} {l : List α} {f : Dev → α → Dev} (h : ∀ d a, FabricKept d (f d a)) : FabricKept d (d.each l f) := by
  induction l generalizing d with
  | nil => exact refl d
  | cons x l ih => exact (h d x).trans ih

end FabricKept

section
variable {d : Dev}

theorem snowSend_fabric (k : Kind) (cls : Nat) (m : Msg) (d : Dev) : FabricKept d (snowSend k cls m d) := by
  obtain ⟨f, stores⟩ := snowSendFor_stores 1024 k cls m d
  exact FabricKept.trans (b := d.modTwin f) ⟨rfl, rfl, rfl, id⟩ (.of_part stores)

theorem complete_fabric (q tag st res : Nat) (d : Dev) : FabricKept d (complete q tag st res d) := by
  have noted (fn : Nat) (c : Cmd) (d : Dev) : FabricKept d (noteMember fn q tag st c d) := by
    unfold noteMember
    split
    · exact .refl d
    · exact ⟨rfl, rfl, rfl, id⟩
  have applied (c : Cmd) (d : Dev) : FabricKept d (noteApply q tag st c d) := .of_part (part_noteApply nofun)
  have dropped (d : Dev) : FabricKept d (d.dropCtx q tag) := ⟨rfl, rfl, rfl, fun none => by simp [Dev.dropCtx, none]⟩
  have posted (x : Cqe) (d : Dev) : FabricKept d (postCqe q x d) := .of_part (part_postCqe nofun)
  have left (f : Queue → Queue) : FabricKept d (d.modQ q f) := ⟨rfl, rfl, rfl, id⟩
  unfold complete completeFreeing
  split
  · exact .refl d
  next c _ =>
    have ended (fn : Nat) (f : Queue → Queue) := (((left f).trans (noted fn c _)).trans (applied c _)).trans (dropped _)
    extract_lets fn d1 d2
    split
    · exact ended fn _
    · exact (ended fn _).trans (posted _ _)

theorem finish_fabric (q tag st res : Nat) (d : Dev) : FabricKept d (finish q tag st res d) := by
  unfold finish
  split
  · exact snowSend_fabric _ _ _ d
  · exact complete_fabric _ _ _ _ d

theorem endOps_fabric (p m : Nat) (st : ServiceOp → Nat) (d : Dev) : FabricKept d (endOps p m st d) :=
  .each fun d o => FabricKept.trans (b := dropOp o.q o.tag d) ⟨rfl, rfl, rfl, id⟩ (finish_fabric _ _ _ _ _)

theorem withdraw_fabric (margin p : Nat) (d : Dev) : FabricKept d (withdraw margin p d) := by
  have mirrored (a : Activity) (d : Dev) : FabricKept d (mirrorActivity a true d) := by
    unfold mirrorActivity
    split
    · exact .refl d
    · exact snowSend_fabric _ _ _ d
  have dropped (a : Activity) (d : Dev) : FabricKept d (dropActivity a d) := by
    unfold dropActivity
    exact (mirrored a _).after ⟨rfl, rfl, rfl, id⟩
  unfold withdraw
  split
  · exact .refl d
  · refine .each fun d a => FabricKept.trans (b := dropActivity a (d.set MNT_STATUS.WITHDRAWN)) ?_ (.of_part part_mediaEvent)
    exact (dropped a _).after ⟨rfl, rfl, rfl, id⟩

theorem sendPool_fabric (p : Nat) (d : Dev) : FabricKept d (sendPool p d) := by
  unfold sendPool
  split
  · exact .refl d
  · extract_lets
    split
    · exact .refl d
    · exact snowSend_fabric _ _ _ d

theorem noteWaits_fabric (d : Dev) : FabricKept d (noteWaits d) := by
  have noted (f : Firn → Firn) (l : List FRec) : ((d.modFirn f).each l fun d w =>
      (d.bump FRN_CNT_SPACE_WAITS.COUNT 1).when (w.cls == 0 && !w.internal) fun d =>
        fault .media 0x0A 8 3 false (d.set FRN_STATUS.CLASS_A_WAIT)).part .stores = (d.modFirn f).part .stores :=
    Dev.part_each fun d w => by simp
  unfold noteWaits
  extract_lets new mark ws
  exact FabricKept.after (.of_part (noted (fun x => { x with waiting := x.waiting.map mark }) ws)) ⟨rfl, rfl, rfl, id⟩

theorem submitNvme_fabric (n p : Nat) (d : Dev) : FabricKept d (submitNvme n p d) := by
  induction n generalizing d with
  | zero => exact .refl d
  | succ n ih =>
    unfold submitNvme
    extract_lets ready
    split
    next e none => exact .of_part ((part_snd_eq none).trans part_serveNext)
    next cid c e some =>
      have chosen : FabricKept d e := .of_part ((part_snd_eq some).trans part_serveNext)
      exact chosen.trans ((ih _).after ⟨rfl, rfl, rfl, id⟩)

theorem releaseNvme_fabric (d : Dev) : FabricKept d (releaseNvme d) := by
  unfold releaseNvme
  extract_lets queued
  have kept : FabricKept d queued := ⟨rfl, rfl, rfl, id⟩
  split
  · exact kept
  · exact kept.trans (.each fun d p => submitNvme_fabric _ _ d)

end
end Sys2Proof.Machine
end

section
/-! PROOFS. A member declared FAILED by its drive's controller (R400, R402, R616): it takes the state with its cause and no drive, and its drive
is bound no more. -/

namespace Sys2Proof.Machine

/-! ### A drive that is bound to no member -/

/-- A drive is bound to no member, of its commands only writes of configuration blocks are outstanding, and no command of a host has a context. -/
structure Adrift (i : Nat) (d : Dev) : Prop where
  unbound : ∀ v, d.drive i = some v → v.state ≠ 4
  cmds : ∀ e ∈ d.drives.cmds, e.2.drive = i → ∃ p c, e.2.what = .cfgWrite p c
  ctxs : d.ctxs = []

/-- The members of the pools are unchanged, and a drive that was adrift still is. -/
structure LeavesAdrift (i : Nat) (d e : Dev) : Prop where
  member : ∀ p m, e.member p m = d.member p m
  adrift : Adrift i d → Adrift i e

theorem Adrift.boundTo {i : Nat} {d : Dev} (h : Adrift i d) : d.boundTo i = none := by
  unfold Dev.boundTo
  split
  · rfl
  next v here => exact if_neg (h.unbound v here)

theorem Dev.member_of_pools {d e : Dev} (same : ∀ q, tget e.pools q = tget d.pools q) (p m : Nat) : e.member p m = d.member p m :=
  congrArg (·.bind fun x => tget x.members m) (same p)

namespace LeavesAdrift
variable {i : Nat} {a b c d e : Dev}

theorem refl (d : Dev) : LeavesAdrift i d d := ⟨fun _ _ => rfl, id⟩

theorem trans (h : LeavesAdrift i a b) (k : LeavesAdrift i b c) : LeavesAdrift i a c :=
  ⟨fun p m => (k.member p m).trans (h.member p m), k.adrift ∘ h.adrift⟩

theorem after (k : LeavesAdrift i b c) (h : LeavesAdrift i a b) : LeavesAdrift i a c := h.trans k

theorem of_fabric (h : FabricKept d e) : LeavesAdrift i d e where
  member := Dev.member_of_pools fun q => congrArg (tget · q) h.pools
  adrift old := by
    refine ⟨fun v here => old.unbound v ?_, fun c mem => old.cmds c (h.cmds ▸ mem), h.ctxs old.ctxs⟩
    exact (congrArg (tget · i) h.table).symm.trans here

theorem of_part (h : e.part .stores = d.part .stores) : LeavesAdrift i d e := of_fabric (.of_part h)

theorem each {α : Type} {l : List α} {f : Dev → α → Dev} (h : ∀ d a, LeavesAdrift i d (f d a)) : LeavesAdrift i d (d.each l f) := by
  induction l generalizing d with
  | nil => exact refl d
  | cons x l ih => exact (h d x).trans ih

end LeavesAdrift

/-! ### Changes of a pool -/

section
variable {i p m : Nat} {f : Pool → Pool} {d : Dev}

theorem tget_remap {written : Nat → Nat → Bool} (q : Nat) : tget (remap p written f d).pools q = tget (tmod d.pools p f) q := by
  unfold remap
  split
  next none =>
    by_cases here : q = p
    · rw [here, none, tget_tmod_same, none, Option.map_none]
    · exact (tget_tmod_ne _ f here).symm
  next old some =>
    extract_lets new one
    change tget (tmod d.pools p fun _ => new) q = _
    by_cases here : q = p
    · rw [here, tget_tmod_same, tget_tmod_same, some, Option.map_some, Option.map_some]
    · rw [tget_tmod_ne _ _ here, tget_tmod_ne _ f here]

theorem remap_adrift {written : Nat → Nat → Bool} (h : Adrift i d) : Adrift i (remap p written f d) := by
  unfold remap
  split
  · exact h
  · exact ⟨h.unbound, h.cmds, h.ctxs⟩

theorem Dev.member_modPool (p' m' : Nat) : (d.modPool p f).member p' m' =
    if p' = p then (tget d.pools p).bind fun x => tget (f x).members m' else d.member p' m' := by
  split
  next here =>
    subst here
    unfold Dev.member Dev.modPool
    rw [tget_tmod_same, Option.bind_map]
    rfl
  next other => exact congrArg (Option.bind · fun x => tget x.members m') (tget_tmod_ne d.pools f other)

theorem Dev.member_modPool_of_kept (kept : ∀ x, (f x).members = x.members) (p' m' : Nat) : (d.modPool p f).member p' m' = d.member p' m' := by
  rw [Dev.member_modPool]
  split
  next here => simp only [kept, here, Dev.member]
  · rfl

theorem leavesAdrift_modPool (kept : ∀ x, (f x).members = x.members) : LeavesAdrift i d (d.modPool p f) :=
  ⟨Dev.member_modPool_of_kept kept, fun h => ⟨h.unbound, h.cmds, h.ctxs⟩⟩

theorem Dev.member_remap {written : Nat → Nat → Bool} (p' m' : Nat) : (remap p written f d).member p' m' = (d.modPool p f).member p' m' :=
  Dev.member_of_pools tget_remap p' m'

theorem leavesAdrift_remap {written : Nat → Nat → Bool} (kept : ∀ x, (f x).members = x.members) : LeavesAdrift i d (remap p written f d) :=
  ⟨fun p' m' => (Dev.member_remap p' m').trans (Dev.member_modPool_of_kept kept p' m'), remap_adrift⟩

end

/-! ### Configuration writes -/

section
variable {i : Nat} {d : Dev}

theorem Dev.drive_modDrive (f : Drive → Drive) (d : Dev) : (modDrive i f d).drive i = (d.drive i).map f :=
  tget_tmod_same d.drives.table i f

theorem unbound_tmod {t : Tab Drive} {n : Nat} {f : Drive → Drive} (kept : ∀ v, (f v).state = v.state)
    (unbound : ∀ v, tget t i = some v → v.state ≠ 4) : ∀ v, tget (tmod t n f) i = some v → v.state ≠ 4 := by
  intro v here
  by_cases same : i = n
  · rw [same, tget_tmod_same] at here
    obtain ⟨w, old, rfl⟩ := Option.map_eq_some_iff.mp here
    rw [kept]
    exact unbound w (same ▸ old)
  · exact unbound v ((tget_tmod_ne t f same).symm.trans here)

theorem leavesAdrift_issueNvme {k op lba cls p c : Nat} {admin : Bool} {data : Bytes} :
    LeavesAdrift i d (issueNvme k admin op lba cls (.cfgWrite p c) data d) := by
  unfold issueNvme
  split
  · exact .refl d
  · extract_lets cid
    refine .trans ?_ (.of_fabric (releaseNvme_fabric _))
    refine ⟨fun _ _ => rfl, fun h => ⟨h.unbound, fun e mem here => ?_, h.ctxs⟩⟩
    rcases mem_tput mem with rfl | old
    · exact ⟨p, c, rfl⟩
    · exact h.cmds e old here

theorem leavesAdrift_writeBlock {k p c : Nat} {b : CfgBlock} : LeavesAdrift i d (writeBlock k p c b d) := by
  unfold writeBlock
  split
  · exact .refl d
  · refine .trans ?_ leavesAdrift_issueNvme
    refine ⟨fun _ _ => rfl, fun h => ⟨?_, h.cmds, h.ctxs⟩⟩
    exact unbound_tmod (f := fun v => { v with block := some b }) (fun _ => rfl) h.unbound

theorem leavesAdrift_recordPool {p : Nat} : LeavesAdrift i d (recordPool p d) := by
  unfold recordPool
  split
  · exact .refl d
  · refine .trans (.of_fabric (sendPool_fabric p d)) (.each fun d e => ?_)
    split
    · exact .refl d
    · split
      · exact leavesAdrift_writeBlock
      · exact .refl d

theorem leavesAdrift_restartSeq {p : Nat} : LeavesAdrift i d (restartSeq p d) := by
  unfold restartSeq
  extract_lets lv
  exact .after (.of_part part_syncRebuild) (leavesAdrift_modPool fun _ => rfl)

theorem leavesAdrift_settleLost {p : Nat} : LeavesAdrift i d (settleLost p d) := leavesAdrift_modPool fun _ => rfl

theorem leavesAdrift_setOfflineRec {p : Nat} {off : Bool} : LeavesAdrift i d (setOfflineRec p off d) := by
  unfold setOfflineRec
  split
  · exact .refl d
  · split
    · exact .refl d
    · exact .after (.of_part part_mediaEvent) (.after (.of_part part_syncOffline) (leavesAdrift_modPool fun _ => rfl))

theorem leavesAdrift_cfgWritten_false {p change : Nat} : LeavesAdrift i d (cfgWritten p change false d) := by
  unfold cfgWritten
  rw [if_neg Bool.false_ne_true]
  split
  · exact .refl d
  · exact leavesAdrift_setOfflineRec

/-! ### The member's own change -/

theorem changeMember_member {p m st : Nat} {f : PoolMember → PoolMember} : (changeMember p m st f d).member p m =
    (d.member p m).map fun y => f { y with state := st, former := y.state } := by
  have recorded (e : Dev) : LeavesAdrift 0 e (restartSeq p (settleLost p (recordPool p e))) :=
    leavesAdrift_recordPool.trans (leavesAdrift_settleLost.trans leavesAdrift_restartSeq)
  unfold changeMember
  rw [(recorded _).member, Dev.member_remap, Dev.member_modPool, if_pos rfl]
  simp only [tget_tmod_same, Dev.member, Option.map_bind, Function.comp_def]

theorem changeMember_adrift {p m st : Nat} {f : PoolMember → PoolMember} (h : Adrift i d) : Adrift i (changeMember p m st f d) :=
  (leavesAdrift_recordPool.trans (leavesAdrift_settleLost.trans leavesAdrift_restartSeq)).adrift (remap_adrift h)

theorem unbind_adrift (idle : ∀ e ∈ d.drives.cmds, e.2.drive ≠ i) (none : d.ctxs = []) :
    Adrift i (modDrive i (fun v => { v with state := 3 }) d) := by
  refine ⟨fun v here => ?_, fun e mem at' => absurd at' (idle e mem), none⟩
  rw [Dev.drive_modDrive] at here
  obtain ⟨w, -, rfl⟩ := Option.map_eq_some_iff.mp here
  exact fun same => absurd same (by decide : (3 : Nat) ≠ 4)

/-- What a declaration leaves of a member that had a state (R400, R402). -/
def PoolMember.declared (cause : Nat) (x : PoolMember) : PoolMember :=
  { x with cause := cause, drive := none, absentSince := none, recover := false, checked := [], tried := [] }

/-- A member with a drive is declared FAILED: it has the state, the cause and no drive, and its drive is adrift. -/
theorem failMember_declares {p m cause : Nat} {x : PoolMember} (here : d.member p m = some x) (home : d.isHome p = true) (used : x.state ≠ 0)
    (up : x.state ≠ 4) (hosts : x.drive = some i) (idle : ∀ e ∈ d.drives.cmds, e.2.drive ≠ i) (none : d.ctxs = []) :
    (failMember p m cause d).member p m = some (PoolMember.declared cause { x with state := 4, former := x.state }) ∧
    Adrift i (failMember p m cause d) := by
  have told (e : Dev) : LeavesAdrift i e (withdraw 1 p (memberEvent p m 0 (fault .media 0x0C (p * 512 + m) cause true
      (e.bump MNT_CNT_DECLARED.COUNT 1)))) :=
    .trans (.of_part (by simp)) (.of_fabric (withdraw_fabric 1 p _))
  have opened : ¬ (x.state = 4 ∨ x.state = 0 ∨ (!d.isHome p) = true) := by simp [used, up, home]
  obtain ⟨e, run, moved⟩ : ∃ e, failMember p m cause d = withdraw 1 p (memberEvent p m 0 (fault .media 0x0C (p * 512 + m) cause true
      ((changeMember p m 4 (PoolMember.declared cause) e).bump MNT_CNT_DECLARED.COUNT 1))) ∧
      LeavesAdrift i (modDrive i (fun v => { v with state := 3 }) d) e := by
    unfold failMember
    simp only [here, if_neg opened, hosts]
    refine ⟨_, rfl, ?_⟩
    split
    · exact leavesAdrift_remap fun _ => rfl
    · split
      · exact leavesAdrift_remap fun _ => rfl
      · exact .refl _
  have adrift : Adrift i e := moved.adrift (unbind_adrift idle none)
  have stands : e.member p m = some x := (moved.member p m).trans here
  rw [run]
  refine ⟨((told _).member p m).trans ?_, (told _).adrift (changeMember_adrift adrift)⟩
  rw [changeMember_member, stands, Option.map_some]

/-! ### What a declaration brings -/

theorem dropCid_adrift {cid : Nat} : LeavesAdrift i d (dropCid cid d) :=
  ⟨fun _ _ => rfl, fun h => ⟨h.unbound, fun e mem => h.cmds e (List.mem_of_mem_filter mem), h.ctxs⟩⟩

/-- One of the commands that were outstanding at a lost drive fails, as `failDrive` takes them in turn (R402). -/
def failNext (a : List Verdict × Dev) (e : Nat × DrvCmd) : List Verdict × Dev :=
  if (tget a.2.drives.cmds e.1).isNone then a
  else let (v, d) := failedWhat false 0 e.2.what (dropCid e.1 a.2); (a.1 ++ v, d)

theorem failDrive_eq : failDrive false i d = (d.drives.cmds.filter fun e => e.2.drive == i).foldl failNext ([], d) := rfl

theorem failNext_write {e : Nat × DrvCmd} {p c : Nat} (write : e.2.what = .cfgWrite p c) :
    ∃ t, failNext ([], d) e = ([], t) ∧ LeavesAdrift i d t := by
  unfold failNext
  rw [write]
  split
  · exact ⟨d, rfl, .refl d⟩
  · exact ⟨_, rfl, dropCid_adrift.trans leavesAdrift_cfgWritten_false⟩

theorem foldl_failNext {l : Tab DrvCmd} (writes : ∀ e ∈ l, ∃ p c, e.2.what = .cfgWrite p c) :
    ∃ t, l.foldl failNext ([], d) = ([], t) ∧ LeavesAdrift i d t := by
  induction l generalizing d with
  | nil => exact ⟨d, rfl, .refl d⟩
  | cons x l ih =>
    obtain ⟨p, c, write⟩ := writes x List.mem_cons_self
    obtain ⟨e, one, kept⟩ := failNext_write (i := i) (d := d) write
    obtain ⟨t, run, others⟩ := ih (d := e) fun y mem => writes y (List.mem_cons_of_mem x mem)
    exact ⟨t, by rw [List.foldl_cons, one, run], kept.trans others⟩

/-- The configuration writes outstanding at a drive fail: no member is found at fault, and the drive stays adrift. -/
theorem failDrive_adrift (h : Adrift i d) : ∃ e, failDrive false i d = ([], e) ∧ LeavesAdrift i d e := by
  rw [failDrive_eq]
  refine foldl_failNext fun e mem => ?_
  obtain ⟨mem, at'⟩ := List.mem_filter.mp mem
  exact h.cmds e mem (beq_iff_eq.mp at')

theorem declareOne_declares {p m cause : Nat} {x : PoolMember} (here : d.member p m = some x) (home : d.isHome p = true) (used : x.state ≠ 0)
    (up : x.state ≠ 4) (hosts : x.drive = some i) (idle : ∀ e ∈ d.drives.cmds, e.2.drive ≠ i) (none : d.ctxs = []) :
    (declareOne p m cause d).member p m = some (PoolMember.declared cause { x with state := 4, former := x.state }) ∧
    Adrift i (declareOne p m cause d) := by
  obtain ⟨failed, adrift⟩ := failMember_declares (cause := cause) here home used up hosts idle none
  have drive : (if d.isHome p then ((d.member p m).filter fun x => x.state != 4 && x.state != 0).bind (·.drive) else .none) = some i := by
    rw [if_pos home, here]
    simp [Option.filter, used, up, hosts]
  have ended (c : Bool) (st : ServiceOp → Nat) : LeavesAdrift i (failMember p m cause d) ((failMember p m cause d).when c (endOps p m st)) :=
    .of_fabric (.when (endOps_fabric p m st _))
  unfold declareOne declare declareAll
  rw [drive]
  extract_lets chosen d1 d2
  have before : LeavesAdrift i d1 d2 := ended _ _
  obtain ⟨e, run, kept⟩ := failDrive_adrift (before.adrift adrift)
  have all := before.trans kept
  change (match failDrive false i d2 with | (v, e) => declareAll 8191 ([] ++ v) e).member p m = _ ∧
    Adrift i (match failDrive false i d2 with | (v, e) => declareAll 8191 ([] ++ v) e)
  rw [run]
  exact ⟨(all.member p m).trans failed, all.adrift adrift⟩

end
end Sys2Proof.Machine
end

section
/-! PROOFS. A spare is aligned, the clock is marked, PERST# is released, a lane trains, a drive's controller fails (R258, R273, R274, R400, R519,
R595). -/

namespace Sys2Proof.Machine

section
variable {d : Dev}

/-! ### A spare is aligned (R258) -/

theorem exec_spareAligned {s : State} {h : Half} {lane spare : Nat}
    (found : ((s.dev.schEnd h).rx.aligning.find? fun a => a.2 == lane) = some (spare, lane)) :
    exec (.spareAligned h lane) s = s.ok (linkControl (.sch h) .laneUp (leBytes 1 lane ++ leBytes 1 spare) (s.dev.modSch h fun k => { k with
      rx := { k.rx with aligning := k.rx.aligning.filter fun x => x.2 != lane, lanes := k.rx.lanes ++ [lane] } })) := by
  simp only [exec, execSpareAligned, found]

theorem linkControl_schEnd {l : LinkEnd} {k : Kind} {ops : Bytes} {h : Half} : (linkControl l k ops d).schEnd h = d.schEnd h :=
  linkControl_link (m := .sch h)

/-! ### TWN_STATUS.STATE as a lane of the Snowbridge comes back (R515, R519) -/

theorem tstate_wr {f : Field} {v : Nat} (apart : TWN_STATUS.STATE.key ≠ f.key) : (d.wr f v).tstate = d.tstate := Dev.rd_wr_ne d v apart

theorem tstate_mediaEvent {code data : Nat} : (mediaEvent code data d).tstate = d.tstate := by
  have unreported : TWN_STATUS.STATE.unreported := by decide
  unfold mediaEvent
  split
  · exact rd_postToPfs unreported _
  · rfl

theorem tstate_updateMode : (updateMode d).tstate = d.tstate := by
  unfold updateMode
  extract_lets m
  split
  · rfl
  · rw [tstate_mediaEvent, tstate_wr (by decide)]
    unfold keepDual
    split <;> rfl

theorem tstate_syncSnow : (syncSnow d).tstate = d.tstate := by
  have told {c : Bool} {f : Dev → Nat} (d : Dev) : (d.when c fun d => mediaEvent evSnowbridge (f d) d).tstate = d.tstate :=
    (apply_ite Dev.tstate _ _ _).trans (by rw [tstate_mediaEvent, ite_self])
  unfold syncSnow
  extract_lets was d1 d2 d3 d4 d5
  have lanes : d3.tstate = d.tstate :=
    calc d3.tstate = d2.tstate := (tstate_wr (by decide)).trans (tstate_wr (by decide))
      _ = d1.tstate := (tstate_wr (by decide)).trans (tstate_wr (by decide))
      _ = d.tstate := (tstate_wr (by decide)).trans (tstate_wr (by decide))
  exact tstate_updateMode.trans ((told d4).trans ((told d3).trans lanes))

theorem tstate_leaveDown (down : d.tstate = 0) : (leaveDown d).tstate = 1 := by
  unfold leaveDown
  rw [if_neg (not_not.mpr down)]
  exact Dev.rd_wr _ _ _

theorem tstate_of_regs {e : Dev} (same : e.regs = d.regs) : e.tstate = d.tstate := Dev.rd_congr same _

theorem linkControl_regs {l : LinkEnd} {k : Kind} {ops : Bytes} : (linkControl l k ops d).regs = d.regs := by
  unfold linkControl
  extract_lets
  split <;> rfl

/-- A lane that comes back serves the receiver and is lost no more (R516). -/
theorem snowLaneBack_rx (lane : Nat) : lane ∈ (snowLaneBack lane d).snow.rx.lanes ∧ lane ∉ (snowLaneBack lane d).snow.rx.lost := by
  unfold snowLaneBack
  extract_lets d1
  have same : (linkControl .snow .laneUp (leBytes 1 lane ++ leBytes 1 lane) (syncSnow d1)).snow.rx = d1.snow.rx :=
    rx_of_standing (standing_linkControl.trans standing_syncSnow) .snow
  rw [same]
  exact ⟨mem_insertSorted.mpr (.inl rfl), not_mem_without⟩

theorem tstate_snowLaneBack (lane : Nat) (down : d.tstate = 0) : (snowLaneBack lane d).tstate = 1 := by
  unfold snowLaneBack
  extract_lets d1
  exact (tstate_of_regs linkControl_regs).trans (tstate_syncSnow.trans (tstate_leaveDown down))

/-- The device once a lane carries frames to the twin (R519). -/
def Dev.transmitsOn (d : Dev) (lane : Nat) : Dev :=
  d.modLink .snow fun k => { k with tx := { k.tx with lanes := insertSorted k.tx.lanes lane } }

/-- The device once a lane trained in both directions (R519). -/
def Dev.laneTrained (d : Dev) (lane : Nat) : Dev := pumpAll .snow (syncSnow ((snowLaneBack lane d).transmitsOn lane))

theorem transmitsOn_snow (lane : Nat) : (d.transmitsOn lane).snow.rx = d.snow.rx ∧
    (d.transmitsOn lane).snow.tx.lanes = insertSorted d.snow.tx.lanes lane := ⟨rfl, rfl⟩

theorem tstate_transmitsOn (lane : Nat) : (d.transmitsOn lane).tstate = d.tstate := rfl

theorem tstate_pumpAll (l : LinkEnd) : (pumpAll l d).tstate = d.tstate := tstate_of_regs (pump_only _ l d).1.regs

theorem standing_laneTrained (lane : Nat) : (d.laneTrained lane).standing = ((snowLaneBack lane d).transmitsOn lane).standing :=
  standing_pumpAll.trans standing_syncSnow

theorem mem_laneTrained_tx (lane : Nat) : lane ∈ (d.laneTrained lane).snow.tx.lanes := by
  obtain ⟨-, entered⟩ := transmitsOn_snow (d := snowLaneBack lane d) lane
  have lanes := lanes_of_standing (standing_laneTrained (d := d) lane) .snow
  dsimp only [Dev.link] at lanes
  rw [lanes, entered]
  exact mem_insertSorted.mpr (.inl rfl)

theorem laneTrained_rx (lane : Nat) : (d.laneTrained lane).snow.rx = (snowLaneBack lane d).snow.rx := by
  obtain ⟨kept, -⟩ := transmitsOn_snow (d := snowLaneBack lane d) lane
  have same := rx_of_standing (standing_laneTrained (d := d) lane) .snow
  dsimp only [Dev.link] at same
  exact same.trans kept

theorem tstate_laneTrained (lane : Nat) (down : d.tstate = 0) : (d.laneTrained lane).tstate = 1 := by
  rw [Dev.laneTrained, tstate_pumpAll, tstate_syncSnow, tstate_transmitsOn, tstate_snowLaneBack lane down]

theorem exec_snowbridgeLaneTrained {s : State} {lane : Nat} (known : lane < 16)
    (free : lane ∉ s.dev.snow.rx.lost ∨ lane ∈ s.dev.snow.rx.retraining) : exec (.snowbridgeLaneTrained lane) s = s.ok (s.dev.laneTrained lane) := by
  have acts : ¬ (16 ≤ lane ∨ (s.dev.snow.rx.lost.contains lane = true ∧ (!s.dev.snow.rx.retraining.contains lane) = true)) := by
    rcases free with held | again
    · simp [known, held]
    · simp [known, again]
  simp only [exec, execSnowbridgeLaneTrained, if_neg acts]
  rfl

/-! ### PERST# is released (R595) -/

theorem Dev.ep_when_emit {c : Bool} {o : Out} {e : Nat} : (d.when c fun d => d.emit o).ep e = d.ep e := by
  unfold Dev.when
  split <;> rfl

/-! ### A drive's controller fails (R400) -/

theorem exec_controllerFatalStatus {s : State} {i p m : Nat} (bound : s.dev.boundTo i = some (p, m)) :
    exec (.controllerFatalStatus i) s = s.ok (settle (releaseNvme (syncRebuild (declareOne p m 2 s.dev)))) := by
  simp only [exec, execControllerFatalStatus, bound]

end

/-- Settles O46: each command's answer is named, and each part of it is shown by the lemmas about the operations that it runs. -/
theorem lateEventsTakeEffect : Obligations.LateEventsTakeEffect := by
  unfold Obligations.LateEventsTakeEffect
  refine ⟨?spare, ?marker, ?perst, ?trained, ?failed⟩
  case spare =>
    intro h lane spare s found
    refine ⟨_, exec_spareAligned found, ?_⟩
    dsimp only
    rw [linkControl_schEnd, Dev.schEnd_modSch]
    exact ⟨rfl, fun a mem => bne_iff_ne.mp (List.mem_filter.mp mem).2⟩
  case marker =>
    intro s up
    refine ⟨_, rfl, ?_⟩
    dsimp only [schSendFree]
    rw [schSend_clocks]
    exact ⟨rfl, schSend_sent (linkOpen_of_regs rfl up), fun locked there => by simp [locked, there]⟩
  case perst =>
    intro e s known held
    have acts : ¬ (4 ≤ e ∨ (!(s.dev.ep e).perst) = true) := by simp [known, held]
    have released {c : Bool} {o : Out} {f : Endpoint → Endpoint} : ((s.dev.modEp e f).when c fun d => d.emit o).ep e = f (s.dev.ep e) :=
      Dev.ep_when_emit.trans (Dev.ep_modEp _ _ _)
    refine ⟨_, congrArg s.ok (if_neg acts), ?_⟩
    dsimp only
    rw [released]
    refine ⟨rfl, rfl, fun woke => ?_⟩
    rw [woke]
    exact Sent.emit _ _
  case trained =>
    intro lane s known free
    obtain ⟨serves, kept⟩ := snowLaneBack_rx (d := s.dev) lane
    rw [← laneTrained_rx] at serves kept
    refine ⟨_, exec_snowbridgeLaneTrained known free, ?_⟩
    dsimp only
    exact ⟨mem_laneTrained_tx lane, serves, kept, tstate_laneTrained lane⟩
  case failed =>
    intro i p m x s bound home here used up hosts idle none
    obtain ⟨failed, adrift⟩ := declareOne_declares (cause := 2) here home used up hosts idle none
    have after : FabricKept (declareOne p m 2 s.dev) (releaseNvme (syncRebuild (declareOne p m 2 s.dev))) :=
      (releaseNvme_fabric _).after (.of_part part_syncRebuild)
    have all : LeavesAdrift i (declareOne p m 2 s.dev) (settle (releaseNvme (syncRebuild (declareOne p m 2 s.dev)))) := by
      rw [settle_of_none (after.ctxs adrift.ctxs)]
      exact .of_fabric (after.trans (noteWaits_fabric _))
    refine ⟨_, exec_controllerFatalStatus bound, ?_⟩
    dsimp only
    rw [all.member, failed]
    exact ⟨rfl, (all.adrift adrift).boundTo⟩

end Sys2Proof.Machine
end

section
/-! PROOFS. The commands of freeze groups and of snapshots cross to the media half (R251, R313, R321, R466 to R473). -/

namespace Sys2Proof.Machine

section
variable {op q tag : Nat} {qu : Queue} {c : Cmd} {s : State} {g : Group} {d : Dev}

/-! ### Freeze groups (R251, R313, R324) -/

/-- A group opcode crosses with its operands (R251). -/
theorem crossGroup_crosses {x : Cmd} {gop count cls : Nat} (up : d.linkOpen .host) (here : d.cmdAt q tag = some x) :
    Crossed q tag (crossGroup q tag gop count c cls d) ∧
      Sent d (crossGroup q tag gop count c cls d) (.sch .host .groupOp ⟨q, tag, pktGos c.pkt, pktNsid c.pkt, [gop, count], []⟩) :=
  send_crosses up here

theorem Crossed.cmdAt_isSome (crossed : Crossed q tag d) : (d.cmdAt q tag).isSome := by
  obtain ⟨x, here, -⟩ := crossed_iff.mp crossed
  simp [here]

/-- A command that crossed was not refused at its start (R815). -/
theorem refusedGroup_of_crossed (before : Dev) (crossed : Crossed q tag d) : refusedGroup op q tag before d = none := by
  have stays : ((d.queue q).bind (·.cmd tag)).isNone = false := by
    simpa [Dev.cmdAt, Option.isNone_eq_false_iff] using crossed.cmdAt_isSome
  unfold refusedGroup
  split
  · simp [stays]
  · rfl

theorem execGroupOpen_crosses (ready : Ready.io 0x40 q tag qu c s) (live : Ready.group qu.fn c g s) :
    Does (.groupOpen q tag) s fun t => Crossed q tag t.dev ∧
      Sent s.dev t.dev (.sch .host .groupOp ⟨q, tag, pktGos c.pkt, pktNsid c.pkt, [0, 0], []⟩) := by
  have live' : (s.dev.begun q tag).liveGroup qu.fn (pktGos c.pkt) = some g := live
  obtain ⟨waits, -, up⟩ := id ready
  let e : Dev := (s.dev.begun q tag).modFirn fun x => { x with tombs := x.tombs.filter fun t => !(t.fn == qu.fn && t.tag == pktGos c.pkt) }
  obtain ⟨crossed, sent⟩ := crossGroup_crosses (c := c) (gop := gopOpen) (count := 0) (cls := qu.cls) (d := e) up waits.cmdAt_begun
  refine ⟨s.withDev (crossGroup q tag gopOpen 0 c qu.cls e), congrArg s.ok ?_, crossed, sent⟩
  rw [runCmd_io _ ready]
  simp only [live', Option.isSome_some, if_true]
  rw [refusedGroup_of_crossed s.dev crossed]

theorem execGroupSeal_crosses (ready : Ready.io 0x41 q tag qu c s) (live : Ready.group qu.fn c g s) :
    Does (.groupSeal q tag) s fun t => Crossed q tag t.dev ∧
      Sent s.dev t.dev (.sch .host .groupOp ⟨q, tag, pktGos c.pkt, pktNsid c.pkt, [1, g.count], []⟩) := by
  have live' : (s.dev.begun q tag).liveGroup qu.fn (pktGos c.pkt) = some g := live
  obtain ⟨waits, -, up⟩ := id ready
  obtain ⟨crossed, sent⟩ := crossGroup_crosses (c := c) (gop := gopSeal) (count := g.count) (cls := qu.cls) (d := s.dev.begun q tag) up
    waits.cmdAt_begun
  refine ⟨s.withDev (crossGroup q tag gopSeal g.count c qu.cls (s.dev.begun q tag)), congrArg s.ok ?_, crossed, sent⟩
  rw [runCmd_io _ ready]
  simp only [live']
  rw [refusedGroup_of_crossed s.dev crossed]

/-- The descriptor of a GROUP_DISCARD whose fetch discarded its group names the members that the group had (R321, R323). -/
theorem execGroupDiscard_crosses (ready : Ready.io 0x42 q tag qu c s) (fetched : c.phase = 7) :
    Does (.groupDiscard q tag) s fun t => Crossed q tag t.dev ∧
      Sent s.dev t.dev (.sch .host .groupOp ⟨q, tag, pktGos c.pkt, pktNsid c.pkt, [2, c.refs], []⟩) := by
  refine ⟨_, rfl, ?_⟩
  rw [runCmd_io _ ready, if_pos fetched]
  obtain ⟨waits, -, up⟩ := ready
  exact crossGroup_crosses up waits.cmdAt_begun

theorem execGroupQuery_crosses (ready : Ready.io 0x43 q tag qu c s) : Does (.groupQuery q tag) s fun t => Crossed q tag t.dev ∧
    Sent s.dev t.dev (.sch .host .groupOp ⟨q, tag, pktGos c.pkt, pktNsid c.pkt, [3, 0], []⟩) := by
  refine ⟨_, rfl, ?_⟩
  rw [runCmd_io _ ready]
  obtain ⟨waits, -, up⟩ := ready
  exact crossGroup_crosses up waits.cmdAt_begun

/-! ### Snapshots and clones (R110, R251, R466 to R473) -/

/-- A Varve operation crosses with its operands (R251). -/
theorem crossVarve_crosses {x : Cmd} {ref : Nat} {rest : List Nat} (up : d.linkOpen .host) (here : d.cmdAt q tag = some x) (same : c.tag = tag) :
    Crossed q tag (crossVarve q qu c ref rest d) ∧
      Sent d (crossVarve q qu c ref rest d) (.sch .host .varveOp ⟨q, tag, ref, pktNsid c.pkt, varveArgs c.pkt rest, []⟩) := by
  rw [crossVarve, same]
  exact send_crosses up here

/-- Whether a snapshot waits for earlier writes does not depend on which commands have started (R110). -/
theorem Dev.snapWaits_begun (d : Dev) (q tag : Nat) (c : Cmd) : (d.begun q tag).snapWaits q c = d.snapWaits q c := by
  unfold Dev.snapWaits Dev.begun Dev.modCmd
  rw [Dev.queue_modQ]
  congr 1
  cases d.queue q with
  | none => rfl
  | some qu =>
    simp only [Option.map_some, Option.any_some, List.any_map]
    refine congrArg (qu.cmds.any ·) (funext fun e => ?_)
    simp only [Function.comp_apply]
    split <;> rfl

/-- A command of snapshots that nothing holds back crosses as it starts. -/
theorem runVarve_crosses {f : Queue → Cmd → Dev → Dev} {ref : Nat} {rest : List Nat} (ready : Ready.io op q tag qu c s)
    (goes : f qu c (s.dev.begun q tag) = crossVarve q qu c ref rest (s.dev.begun q tag)) :
    Crossed q tag (runCmd [op] q tag f s.dev) ∧
      Sent s.dev (runCmd [op] q tag f s.dev) (.sch .host .varveOp ⟨q, tag, ref, pktNsid c.pkt, varveArgs c.pkt rest, []⟩) := by
  rw [runCmd_io _ ready, goes]
  obtain ⟨waits, -, up⟩ := ready
  exact crossVarve_crosses up waits.cmdAt_begun waits.tag_eq

end

/-- Settles O3: a command that may run starts, and sends its descriptor while its link is up (`crossGroup_crosses`, `crossVarve_crosses`); a
GROUP_OPEN or GROUP_SEAL that crossed was not refused (`refusedGroup_of_crossed`). -/
theorem groupAndSnapshotCommandsCross : Obligations.GroupAndSnapshotCommandsCross := by
  unfold Obligations.GroupAndSnapshotCommandsCross
  refine ⟨?groupOpen, ?groupSeal, ?discard, ?query, ?create, ?delete, ?clone, ?cloneLive⟩
  case groupOpen => exact fun q tag qu c g s ready live => execGroupOpen_crosses ready live
  case groupSeal => exact fun q tag qu c g s ready live => execGroupSeal_crosses ready live
  case discard => exact fun q tag qu c s ready fetched => execGroupDiscard_crosses ready fetched
  case query => exact fun q tag qu c s ready => execGroupQuery_crosses ready
  case create =>
    intro q tag qu c s ready free
    exact ⟨_, rfl, runVarve_crosses ready (if_neg (by simp [Dev.snapWaits_begun, free]))⟩
  case delete => exact fun q tag qu c s ready => ⟨_, rfl, runVarve_crosses ready rfl⟩
  case clone => exact fun q tag qu c s ready named => ⟨_, rfl, runVarve_crosses ready (if_neg fun waits => named waits.1)⟩
  case cloneLive =>
    intro q tag qu c s ready live free
    refine ⟨_, rfl, runVarve_crosses ready ?_⟩
    rw [if_neg (by simp [Dev.snapWaits_begun, free]), live]

end Sys2Proof.Machine
end

section
/-! PROOFS. The records of a freeze group as its module forms them (R288, R324): a COMMIT, LINK or ABORT record takes no references, so that its
home twin assigns it as it enters. -/

namespace Sys2Proof.Machine

/-! ### A record of any size that enters at once (R284 to R286) -/

theorem admits_of_roomed {r : FRec} {d : Dev} {pages : Nat} (room : Roomed pages d) (small : r.npage ≤ pages) : d.admits r = true := by
  obtain ⟨-, -, free, slots⟩ := room
  unfold Dev.admits
  extract_lets n outside
  have least : outside.1 ≤ d.freePages ∧ outside.2 ≤ d.freeSlots := ⟨Nat.sub_le _ _, Nat.sub_le _ _⟩
  have free' : pages + d.rd FRN_CFG.A_RESERVE * 16384 ≤ outside.1 := free
  have slots' : 65537 ≤ outside.2 := slots
  have small' : n ≤ pages := small
  split
  · simp only [Bool.and_eq_true, decide_eq_true_eq]
    omega
  · split <;> simp only [Bool.and_eq_true, decide_eq_true_eq] <;> omega

theorem mayEnter_of_room {r : FRec} {d : Dev} {pages : Nat} (room : Roomy r.pool pages d) (small : r.npage ≤ pages) : d.mayEnter r = true := by
  obtain ⟨space, -, noLocks, noSwap, acked, others⟩ := room
  have admitted := admits_of_roomed space small
  obtain ⟨noDump, noWait, -, -⟩ := space
  have settled : (d.firn.recs.any fun e => e.2.pool == r.pool && e.2.seq == 0) = false :=
    List.any_eq_false.mpr fun e m => by simpa using others e m
  have free : d.heldBack r = false := by simp [Dev.heldBack, Dev.lockHolds, noLocks, noSwap, acked, settled]
  simp [Dev.mayEnter, Dev.fitsNow, noDump, admitted, free, noWait]

/-! ### The size of a COMMIT or LINK record (R290) -/

theorem sectionBytes_length_le (stype : Nat) (body : Bytes) : (sectionBytes stype body).length ≤ body.length + 15 := by
  simp only [sectionBytes, List.length_append, List.length_cons, List.length_nil, List.length_replicate, leBytes_length]
  omega

theorem listSection_length_le {α : Type} {n : Nat} {f : α → Bytes} (full : ∀ a, (f a).length = n) (stype : Nat) (l : List α) :
    (listSection stype l f).length ≤ n * l.length + 15 := by
  have body : (l.map f).flatten.length = n * l.length := by
    simp [List.length_flatten, List.map_map, Function.comp_def, full, Nat.mul_comm]
  unfold listSection
  split
  · exact Nat.zero_le _
  · exact body ▸ sectionBytes_length_le stype _

/-- A record that carries no section but its members. -/
structure OnlyMembers (r : FRec) : Prop where
  cmds : r.cmds = []
  chunks : r.chunks = []
  refs : r.refs = []
  mapDelta : r.mapDelta = []
  refDelta : r.refDelta = []
  effects : r.effects = []
  marks : r.marks = []
  plan : r.plan = none

theorem OnlyMembers.npage_le {r : FRec} (only : OnlyMembers r) {pages : Nat} (small : 16 * r.members.length + 512 ≤ 4096 * pages) :
    r.npage ≤ pages := by
  have sections : r.sections = listSection 7 r.members fun x => leBytes 8 x.2 ++ leBytes 1 x.1 ++ List.replicate 7 0 := by
    simp [FRec.sections, only.cmds, only.chunks, only.refs, only.mapDelta, only.refDelta, only.effects, only.marks, only.plan, listSection,
      objOffsets]
  have length : r.sections.length ≤ 16 * r.members.length + 15 := by
    rw [sections]
    exact listSection_length_le (fun x => by simp) 7 r.members
  have payload : r.payload = r.sections := by simp [FRec.payload, only.chunks]
  rw [FRec.npage, payload]
  omega

/-! ### A record of a group is assigned (R293, R324) -/

/-- A COMMIT, LINK or ABORT record of a group of this module that has no COMMIT_SEQ yet. -/
structure GroupRecord (d : Dev) (r : FRec) : Prop where
  rtype : r.rtype ∈ [rtCommit, rtLink, rtAbort]
  refs : r.refs = []
  fresh : r.seq = 0
  whole : r.divergent = false
  own : r.receiver = d.twinSide

/-- `x` belongs to the group of the record `r`, and lists the same members. -/
structure SameGroup (r x : FRec) : Prop where
  group : x.group = r.group
  gfn : x.gfn = r.gfn
  members : x.members = r.members
  receiver : x.receiver = r.receiver

section
variable {d e : Dev} {r x : FRec} {slot : Nat}

theorem GroupRecord.placed (h : GroupRecord d r) : GroupRecord (takeSlot r d).2 (placed r d) := ⟨h.rtype, h.refs, h.fresh, h.whole, h.own⟩

theorem assignSeq_sameGroup (here : d.recAt slot = some r) (refs : r.refs = []) : ∃ x, (assignSeq slot d).recAt slot = some x ∧ SameGroup r x := by
  unfold assignSeq
  simp only [here, refs, List.filter_nil, Dev.each, List.foldl_nil]
  exact ⟨_, tget_tput_same _ _ _, rfl, rfl, rfl, rfl⟩

/-- Of what a record brings about as it enters, one of this module's group notes its COMMIT_SEQ alone (R288, R322). -/
theorem noteEntered_of_group (group : r.rtype ∈ [rtCommit, rtLink, rtAbort]) (own : r.receiver = d.twinSide) :
    noteEntered r d = if r.rtype = rtCommit then noteCommit r d else d := by
  have kinds : r.rtype ≠ rtIntent ∧ r.rtype ≠ rtRelease ∧ r.rtype ≠ rtRevoke := by
    rcases List.mem_cons.mp group with is | is
    · rw [is]; decide
    · rcases List.mem_cons.mp is with is | is
      · rw [is]; decide
      · rw [List.mem_singleton.mp is]; decide
  obtain ⟨intent, release, revoke⟩ := kinds
  simp [noteEntered, intent, release, revoke, own, Dev.when]

theorem tget_map_snd {α β : Type} (f : α → β) (t : Tab α) (n : Nat) : tget (t.map fun e => (e.1, f e.2)) n = (tget t n).map f := by
  induction t with
  | nil => rfl
  | cons e t ih =>
    by_cases same : n = e.1
    · simp [tget, same]
    · simp [tget, same, ih]

/-- The COMMIT_SEQ of a COMMIT record goes into LINK records alone (R288). -/
theorem noteCommit_recAt {y : FRec} (there : d.recAt slot = some x) (plain : x.rtype ≠ rtLink) : (noteCommit y d).recAt slot = some x := by
  unfold noteCommit
  extract_lets link
  have kept : link x = x := if_neg fun links => plain links.1
  exact (tget_map_snd link d.firn.recs slot).trans ((congrArg (Option.map link) there).trans (congrArg some kept))

theorem noteEntered_recAt (group : r.rtype ∈ [rtCommit, rtLink, rtAbort]) (own : r.receiver = d.twinSide) (there : d.recAt slot = some x)
    (same : x.rtype = r.rtype) : (noteEntered r d).recAt slot = some x := by
  rw [noteEntered_of_group group own]
  split
  · rename_i commit
    exact noteCommit_recAt there (by rw [same, commit]; decide)
  · exact there

theorem assignNow_of_group (h : GroupRecord d r) (here : d.recAt slot = some r) : ∃ x, (assignSeq slot d).recAt slot = some x ∧ Stamped d r x ∧
    SameGroup r x ∧ assignNow slot d = noteEntered x ((assignSeq slot d).when ((assignSeq slot d).mirrors && r.receiver == (assignSeq slot d).twinSide)
      (sendRecord slot)) := by
  obtain ⟨x, there, stamped⟩ := assignSeq_stamped here h.refs
  obtain ⟨y, there', same⟩ := assignSeq_sameGroup here h.refs
  obtain rfl := Option.some.inj (there.symm.trans there')
  exact ⟨x, there, stamped, same, by simp [assignNow, here, refusals_of_nil h.refs, there]⟩

theorem twinSide_of_part (same : e.part .straps = d.part .straps) : e.twinSide = d.twinSide := (congrArg Dev.twinSide same :)

/-- The record of a group stands assigned in its slot, also where it was mirrored. -/
theorem assignNow_group_recAt (h : GroupRecord d r) (here : d.recAt slot = some r) : ∃ x, (assignNow slot d).recAt slot = some x ∧
    Stamped d r x ∧ SameGroup r x := by
  obtain ⟨x, there, stamped, same, run⟩ := assignNow_of_group h here
  have group : x.rtype ∈ [rtCommit, rtLink, rtAbort] := stamped.rtype ▸ h.rtype
  have own : x.receiver = (assignSeq slot d).twinSide := same.receiver.trans (h.own.trans (twinSide_of_part (part_assignSeq nofun)).symm)
  rw [run, Dev.when]
  split
  · obtain ⟨id, sent⟩ := sendRecord_recAt there
    have own' : x.receiver = (sendRecord slot (assignSeq slot d)).twinSide :=
      own.trans (twinSide_of_part (part_sendRecord nofun nofun)).symm
    exact ⟨_, noteEntered_recAt group own' sent rfl, stamped.withMsgId id, same.group, same.gfn, same.members, same.receiver⟩
  · exact ⟨x, noteEntered_recAt group own there rfl, stamped, same⟩

/-- A record goes to its home twin for its assignment, which is this module or the other. -/
theorem enterRec_of_group (h : GroupRecord d r) : enterRec r d =
    if (takeSlot r d).2.isHome r.pool then assignNow (takeSlot r d).1 (takeSlot r d).2 else sendRecord (takeSlot r d).1 (takeSlot r d).2 := by
  simp [enterRec, h.whole, h.fresh]

theorem formRec_group_assigned {pages : Nat} {P : FRec → Prop} (h : GroupRecord d r) (room : Roomy r.pool pages d) (small : r.npage ≤ pages)
    (holds : ∀ x, SameGroup r x → P x) : Assigned r.rtype r.pool P d (formRec r d) := by
  obtain ⟨-, home, -⟩ := id room
  have home' : (takeSlot r d).2.isHome r.pool = true := home
  obtain ⟨x, there, stamped, same⟩ := assignNow_group_recAt h.placed (takeSlot_recAt r d)
  rw [formRec, if_pos (mayEnter_of_room room small), enterRec_of_group h, if_pos home']
  exact ⟨_, x, takeSlot_free r d, there, stamped.rtype, stamped.pool, stamped.seq, stamped.time, holds x ⟨same.group, same.gfn, same.members,
    same.receiver⟩⟩

/-! ### GROUP_SEAL goes on (R324) -/

variable {s : State} {fn tag pages : Nat} {g : Group}

/-- A LINK or COMMIT record of a group, before its pool and what it lists are set. -/
def groupRec (g : Group) (d : Dev) : FRec := { FRec.empty with receiver := d.twinSide, group := g.tag, gfn := g.fn }

/-- The COMMIT record of a group without LINK records. -/
def commitRecord (g : Group) (d : Dev) : FRec :=
  { groupRec g d with rtype := rtCommit, pool := g.pool, members := g.members.map fun m => (m.pool, m.seq) }

/-- The LINK record of a group in a pool. -/
def linkRecord (g : Group) (p : Nat) (d : Dev) : FRec := { groupRec g d with rtype := rtLink, pool := p }

theorem liveGroup_names (live : d.liveGroup fn tag = some g) : g.fn = fn ∧ g.tag = tag := by
  obtain ⟨found, -⟩ := Option.filter_eq_some_iff.mp live
  simpa using List.find?_some found

/-- Once its members are staged, a group goes on to its LINK and COMMIT records. -/
theorem exec_groupSealProceed (ready : Ready.sealing pages fn tag g s) : exec (.groupSealProceed fn tag) s = s.ok (sealStep g s.dev) := by
  obtain ⟨live, sealing, ⟨b, sealBy, ctx⟩, staged, sound, -, -⟩ := ready
  have done : g.members.any (fun m => !m.staged && !m.failed) = false := List.any_eq_false.mpr fun m mem => by simp [staged m mem]
  change execGroupSealProceed fn tag s = _
  simp [execGroupSealProceed, live, sealing, sealBy, ctx, done, sound]

theorem sealStep_commits (links : g.linkPools = []) : sealStep g d = formRec (commitRecord g d)
    (modGroup g.fn g.tag (fun g => { g with state := .committing, effects := [] }) d) := by
  simp [sealStep, links, commitRecord, groupRec, FRec.empty]

theorem sealStep_links {p : Nat} (links : g.linkPools = [p]) (missing : d.linkOf g p = none) (waiting : d.firn.waiting = []) :
    sealStep g d = formRec (linkRecord g p d) d := by
  simp [sealStep, links, missing, Dev.groupWaits, waiting, Dev.each, linkRecord, groupRec]

/-- The COMMIT record of a sealed group is assigned in its anchor pool. -/
theorem execGroupSealProceed_commits (ready : Ready.sealing pages fn tag g s) (links : g.linkPools = []) (room : Roomy g.pool pages s.dev) :
    Does (.groupSealProceed fn tag) s fun t => Assigned rtCommit g.pool (fun r => r.group = tag ∧ r.gfn = fn ∧
      r.members = g.members.map fun m => (m.pool, m.seq)) s.dev t.dev := by
  refine ⟨_, exec_groupSealProceed ready, ?_⟩
  obtain ⟨live, -, -, -, -, -, size⟩ := ready
  obtain ⟨named, tagged⟩ := liveGroup_names live
  let d : Dev := modGroup g.fn g.tag (fun g => { g with state := .committing, effects := [] }) s.dev
  have record : GroupRecord d (commitRecord g s.dev) := ⟨List.mem_cons_self, rfl, rfl, rfl, rfl⟩
  have small : (commitRecord g s.dev).npage ≤ pages :=
    OnlyMembers.npage_le ⟨rfl, rfl, rfl, rfl, rfl, rfl, rfl, rfl⟩ (by simpa [commitRecord] using size)
  have formed := formRec_group_assigned (P := fun r => r.group = tag ∧ r.gfn = fn ∧ r.members = g.members.map fun m => (m.pool, m.seq)) record
    (show Roomy g.pool pages d from room) small fun x same => ⟨same.group.trans tagged, same.gfn.trans named, same.members⟩
  dsimp only
  rw [sealStep_commits links]
  exact formed

/-- A group with members in one other pool has its LINK record assigned there first. -/
theorem execGroupSealProceed_links {p : Nat} (ready : Ready.sealing pages fn tag g s) (links : g.linkPools = [p])
    (missing : s.dev.linkOf g p = none) (room : Roomy p pages s.dev) : Does (.groupSealProceed fn tag) s fun t =>
      Assigned rtLink p (fun r => r.group = tag ∧ r.gfn = fn) s.dev t.dev := by
  refine ⟨_, exec_groupSealProceed ready, ?_⟩
  obtain ⟨live, -, -, -, -, ⟨-, waiting, -⟩, size⟩ := ready
  obtain ⟨named, tagged⟩ := liveGroup_names live
  have record : GroupRecord s.dev (linkRecord g p s.dev) := ⟨by simp [linkRecord], rfl, rfl, rfl, rfl⟩
  have small : (linkRecord g p s.dev).npage ≤ pages :=
    OnlyMembers.npage_le ⟨rfl, rfl, rfl, rfl, rfl, rfl, rfl, rfl⟩ ((Nat.add_le_add_right (Nat.zero_le _) 512).trans size)
  dsimp only
  rw [sealStep_links links missing waiting]
  exact formRec_group_assigned record room small fun x same => ⟨same.group.trans tagged, same.gfn.trans named⟩

end
end Sys2Proof.Machine
end

section
/-! PROOFS. Freeze groups that have ended (R321 to R324): a group that is gone or discarded stays so, and its tombstone stands, whatever its
members and its ABORT record bring about. -/

namespace Sys2Proof.Machine

/-! ### The groups and the tombstones -/

/-- The groups with their states, and the tombstones. -/
def Dev.book (d : Dev) : List (Nat × Nat × GroupState) × List Tomb := (d.firn.groups.map fun g => (g.fn, g.tag, g.state), d.firn.tombs)

/-- Every group of a function and tag has ended. -/
def Dev.ended (d : Dev) (fn tag : Nat) : Prop := ∀ g ∈ d.firn.groups, g.fn = fn → g.tag = tag → g.live = false

/-- Every group of a function and tag has ended, and a tombstone stands for it with a status. -/
def Dev.buried (d : Dev) (fn tag st : Nat) : Prop := d.ended fn tag ∧ ∃ x ∈ d.firn.tombs, x.fn = fn ∧ x.tag = tag ∧ x.status = st

section
variable {d e : Dev} {fn tag : Nat}

theorem Group.live_of_state {g h : Group} (same : g.state = h.state) : g.live = h.live := by
  simp only [Group.live, same]

theorem Dev.ended.liveGroup (gone : d.ended fn tag) : d.liveGroup fn tag = none := by
  refine Option.filter_eq_none_iff.mpr fun g found => ?_
  obtain ⟨named, tagged⟩ : g.fn = fn ∧ g.tag = tag := by simpa using List.find?_some found
  simpa using gone g (List.mem_of_find?_eq_some found) named tagged

/-- A group that has ended stays so where the groups keep their states. -/
theorem Dev.ended.of_book (gone : d.ended fn tag) (same : e.book = d.book) : e.ended fn tag := by
  intro g mem named tagged
  have groups : e.firn.groups.map (fun g => (g.fn, g.tag, g.state)) = d.firn.groups.map fun g => (g.fn, g.tag, g.state) := congrArg Prod.fst same
  have listed := List.mem_map_of_mem (f := fun g : Group => (g.fn, g.tag, g.state)) mem
  rw [groups] at listed
  obtain ⟨h, there, equal⟩ := List.mem_map.mp listed
  obtain ⟨fn', tag', state⟩ : h.fn = g.fn ∧ h.tag = g.tag ∧ h.state = g.state := by simpa using equal
  exact (Group.live_of_state state.symm).trans (gone h there (fn'.trans named) (tag'.trans tagged))

theorem Dev.buried.of_book {st : Nat} (gone : d.buried fn tag st) (same : e.book = d.book) : e.buried fn tag st := by
  obtain ⟨ended, stands⟩ := gone
  have tombs : e.firn.tombs = d.firn.tombs := congrArg Prod.snd same
  exact ⟨ended.of_book same, tombs ▸ stands⟩

theorem book_of_firn (same : e.firn = d.firn) : e.book = d.book := congrArg (fun x : Firn => (x.groups.map fun g => (g.fn, g.tag, g.state), x.tombs)) same

theorem book_of_part (same : e.part .stores = d.part .stores) : e.book = d.book := book_of_firn (StoresKept.of_part same).firn

/-! ### What keeps them -/

@[simp] theorem book_each {α : Type} {l : List α} {f : Dev → α → Dev} (kept : ∀ d a, (f d a).book = d.book) : (d.each l f).book = d.book := by
  induction l generalizing d with
  | nil => rfl
  | cons a l ih => exact ih.trans (kept d a)

@[simp] theorem book_when {c : Bool} {f : Dev → Dev} (kept : (f d).book = d.book) : (d.when c f).book = d.book := by
  unfold Dev.when
  split
  · exact kept
  · rfl

@[simp] theorem book_noteMember {q st : Nat} {c : Cmd} : (noteMember fn q tag st c d).book = d.book := by
  unfold noteMember
  split
  · rfl
  · refine Prod.ext ?_ rfl
    simp only [Dev.book, Dev.modFirn_firn, List.map_map]
    refine List.map_congr_left fun g _ => ?_
    simp only [Function.comp_apply]
    split <;> rfl

@[simp] theorem book_failCmd {q st : Nat} : (failCmd q tag st d).book = d.book := by
  have posted (x : Cqe) (d : Dev) : (postCqe q x d).book = d.book := book_of_part (part_postCqe nofun)
  have applied (c : Cmd) (d : Dev) : (noteApply q tag st c d).book = d.book := book_of_part (part_noteApply nofun)
  have dropped (d : Dev) : (d.dropCtx q tag).book = d.book := rfl
  have left (f : Queue → Queue) : (d.modQ q f).book = d.book := rfl
  unfold failCmd complete completeFreeing
  split
  · rfl
  · extract_lets fn d1 d2
    have ended : d2.book = d.book := by simp [d2, d1, dropped, applied, left]
    split
    · exact ended
    · exact (posted _ _).trans ended

@[simp] theorem book_mediaComplete {q st res seq : Nat} : (mediaComplete q tag st res seq d).book = d.book :=
  book_of_firn (schSend_firn _ _ _ _ _)

@[simp] theorem book_endMember {q st : Nat} : (endMember st d q tag).book = d.book := by
  have crossed : (endCrossed q tag st d).book = d.book := by
    unfold endCrossed
    split
    · exact book_mediaComplete
    · rfl
  unfold endMember
  split
  · rfl
  · split
    · exact crossed
    · exact book_failCmd

@[simp] theorem book_freeRec {slot : Nat} : (freeRec slot d).book = d.book := rfl

@[simp] theorem book_withdrawGroup {g : Group} : (withdrawGroup g d).book = d.book := by
  have voided (a : FRec) (d : Dev) : (voidRecs a d).book = d.book := rfl
  unfold withdrawGroup
  extract_lets mine e
  rw [voided]
  exact book_each fun d a => book_freeRec

@[simp] theorem book_noteWaits : (noteWaits d).book = d.book := by
  unfold noteWaits
  extract_lets new mark ws
  have counted : (d.modFirn fun x => { x with waiting := x.waiting.map mark }).book = d.book := rfl
  exact (book_each fun d w => book_of_part (by simp)).trans counted

/-! ### The ABORT record of a discarded group (R321, R322) -/

theorem book_sendRecord {slot : Nat} : (sendRecord slot d).book = d.book := by
  unfold sendRecord
  split
  · rfl
  · exact book_each (d := modRec slot _ d) fun d s => book_of_firn (snowSendFor_firn _ _ _ _ d)

theorem book_assignSeq {r : FRec} {slot : Nat} (here : d.recAt slot = some r) (refs : r.refs = []) : (assignSeq slot d).book = d.book := by
  unfold assignSeq
  simp only [here, refs, List.filter_nil, Dev.each, List.foldl_nil]
  cases snapOf r.mapDelta <;> rfl

theorem book_assignNow {r : FRec} {slot : Nat} (h : GroupRecord d r) (here : d.recAt slot = some r) : (assignNow slot d).book = d.book := by
  obtain ⟨x, -, stamped, same, run⟩ := assignNow_of_group h here
  have sent : ((assignSeq slot d).when ((assignSeq slot d).mirrors && r.receiver == (assignSeq slot d).twinSide) (sendRecord slot)).book = d.book :=
    (book_when book_sendRecord).trans (book_assignSeq here h.refs)
  have own : x.receiver = ((assignSeq slot d).when ((assignSeq slot d).mirrors && r.receiver == (assignSeq slot d).twinSide)
      (sendRecord slot)).twinSide :=
    same.receiver.trans (h.own.trans (twinSide_of_part (by simp)).symm)
  rw [run, noteEntered_of_group (stamped.rtype ▸ h.rtype) own]
  split
  · exact sent
  · exact sent

/-- A record of a group changes no group as it is formed, whether it enters or waits for space. -/
theorem book_formRec {r : FRec} (h : GroupRecord d r) : (formRec r d).book = d.book := by
  have taken : (takeSlot r d).2.book = d.book := rfl
  unfold formRec
  split
  · rw [enterRec_of_group h]
    split
    · exact (book_assignNow h.placed (takeSlot_recAt r d)).trans taken
    · exact book_sendRecord.trans taken
  · exact book_noteWaits

/-! ### A group is discarded (R321, R322) -/

/-- Its tombstone stands once a group was closed, however many others there are. -/
theorem mem_drop_append_singleton {α : Type} (l : List α) (a : α) (n : Nat) (room : n ≤ l.length) : a ∈ (l ++ [a]).drop n := by
  rw [List.drop_append_of_le_length room]
  exact List.mem_append_right _ List.mem_cons_self

/-- A live group that is discarded has ended, and its tombstone stands with the status. -/
theorem discardGroup_buries {g : Group} {st : Nat} (live : d.liveGroup fn tag = some g) : (discardGroup fn tag st d).buried fn tag st := by
  unfold discardGroup
  split
  next none => cases live.symm.trans none
  next h _ =>
    extract_lets out closed others tombs d1 d2 d3 d4 d5
    have last : (⟨fn, tag, st, d.tbMedia⟩ : Tomb) ∈ tombs :=
      mem_drop_append_singleton others _ (others.length + 1 - 65536) (Nat.sub_le_of_le_add (Nat.add_le_add_left (by decide) _))
    clear_value tombs
    have closes : d1.buried fn tag st := by
      refine ⟨fun y mem named tagged => ?_, ⟨fn, tag, st, d.tbMedia⟩, last, rfl, rfl, rfl⟩
      obtain ⟨z, -, rfl⟩ := List.mem_map.mp mem
      by_cases names : z.fn = fn ∧ z.tag = tag
      · simp [closed, names, Group.live]
      · exact absurd ⟨by simpa [closed, names] using named, by simpa [closed, names] using tagged⟩ names
    have members : d3.book = d1.book := (book_each fun d m => book_endMember).trans rfl
    have sealed : d4.book = d1.book := by
      refine Eq.trans ?_ members
      dsimp only [d4]
      split
      · exact book_endMember
      · rfl
    have withdrawn : d5.book = d1.book := book_withdrawGroup.trans sealed
    obtain ⟨ended, stands⟩ := closes.of_book withdrawn
    split
    · exact ⟨fun y mem => ended y (List.mem_of_mem_filter mem), stands⟩
    · exact Dev.buried.of_book ⟨ended, stands⟩ (book_formRec ⟨by simp, rfl, rfl, rfl, rfl⟩)

/-! ### The commands that end a group (R321, R324, R326) -/

variable {s : State} {g : Group}

/-- A group that times out before its COMMIT record is assigned is discarded (R321). -/
theorem execGroupTimeout_buries (live : s.dev.liveGroup fn tag = some g) (unassigned : s.dev.commitAssigned g = false) :
    Does (.groupTimeout fn tag) s fun t => t.dev.buried fn tag stGroupTimeout := by
  have run : exec (.groupTimeout fn tag) s = s.ok (mediaFnEvent fn evGroupTimeout tag (discardGroup fn tag stGroupTimeout s.dev)) := by
    change execGroupTimeout fn tag s = _
    simp [execGroupTimeout, live, unassigned]
  exact ⟨_, run, (discardGroup_buries live).of_book (book_of_part part_mediaFnEvent)⟩

/-- A function and tag have no group once theirs has left the list. -/
theorem ended_of_removed (d : Dev) (fn tag : Nat) :
    (d.modFirn fun x => { x with groups := x.groups.filter fun y => !(y.fn == fn && y.tag == tag) }).ended fn tag := by
  intro y mem named tagged
  have other := List.of_mem_filter mem
  simp [named, tagged] at other

/-- What a GROUP_COMMIT does once its COMMIT record has committed (R324, R326): the group goes, and its GROUP_SEAL completes. -/
def Dev.groupCommitted (d : Dev) (fn tag seq : Nat) (g : Group) : Dev :=
  let e := (d.modFirn fun x => { x with groups := x.groups.filter fun y => !(y.fn == fn && y.tag == tag) }).bump FRN_CNT_COMMITS.COUNT 1
  match g.sealBy with
  | some (q, t, _) => mediaComplete q t stSuccess (sealResult g e) seq e
  | none => e

theorem groupCommitted_ended (d : Dev) (fn tag seq : Nat) (g : Group) : (d.groupCommitted fn tag seq g).ended fn tag := by
  unfold Dev.groupCommitted
  split
  · exact (ended_of_removed d fn tag).of_book book_mediaComplete
  · exact ended_of_removed d fn tag

theorem execGroupCommit_ends {slot : Nat} {r : FRec} (live : s.dev.liveGroup fn tag = some g)
    (found : s.dev.firn.recs.find? (fun e => e.2.rtype == rtCommit && e.2.group == tag && e.2.gfn == fn && !e.2.committed) = some (slot, r))
    (assigned : r.seq ≠ 0) (met : s.dev.meets r = true) : Does (.groupCommit fn tag) s fun t => t.dev.liveGroup fn tag = none := by
  have run : exec (.groupCommit fn tag) s = s.ok ((commitGroup slot r s.dev).groupCommitted fn tag r.seq g) := by
    change execGroupCommit fn tag s = _
    simp only [execGroupCommit, found, live]
    exact congrArg s.ok (if_neg (by simp [assigned, met]))
  exact ⟨_, run, (groupCommitted_ended _ _ _ _ _).liveGroup⟩

/-- Once its ABORT record is on the medium, no discarded group of the function and tag is left (R321, R328). -/
theorem execAbortRecordOnMedium_removes {slot : Nat} {r : FRec} (found : s.dev.firn.recs.find? (fun e => e.2.rtype == rtAbort &&
      e.2.group == tag && e.2.gfn == fn && !e.2.committed && s.dev.meets e.2) = some (slot, r)) :
    Does (.abortRecordOnMedium fn tag) s fun t => ∀ g ∈ t.dev.firn.groups, g.fn = fn → g.tag = tag → g.state ≠ .discarded := by
  let e : Dev := voidGroup r (commitRec slot s.dev)
  have run : exec (.abortRecordOnMedium fn tag) s = s.ok (e.modFirn fun x => { x with
      groups := x.groups.filter fun y => !(y.fn == fn && y.tag == tag && y.state == .discarded) }) := by
    change execAbortRecordOnMedium fn tag s = _
    simp only [execAbortRecordOnMedium, found]
    rfl
  refine ⟨_, run, fun g mem named tagged discarded => ?_⟩
  have other := List.of_mem_filter mem
  simp [named, tagged, discarded] at other

end

/-- Settles O22: the LINK and COMMIT records of a sealed group are assigned as they enter (`formRec_group_assigned`); a group that commits
leaves the list, and one that is discarded has ended from then on with its tombstone, since nothing that its discard brings about opens a
group again (`discardGroup_buries`, by `Dev.book`). -/
theorem freezeGroupsEnd : Obligations.FreezeGroupsEnd := by
  unfold Obligations.FreezeGroupsEnd
  refine ⟨?commits, ?links, ?commit, ?timeout, ?expiry, ?abort⟩
  case commits => exact fun fn tag pages g s ready links room => execGroupSealProceed_commits ready links room
  case links => exact fun fn tag p pages g s ready links missing room => execGroupSealProceed_links ready links missing room
  case commit => exact fun fn tag g slot r s live found assigned met => execGroupCommit_ends live found assigned met
  case timeout =>
    intro fn tag g s live unassigned
    obtain ⟨t, run, ended, stands⟩ := execGroupTimeout_buries live unassigned
    exact ⟨t, run, ended.liveGroup, stands⟩
  case expiry => exact fun fn tag s => ⟨_, rfl, rfl⟩
  case abort => exact fun fn tag slot r s found => execAbortRecordOnMedium_removes found

end Sys2Proof.Machine
end

section
/-! PROOFS. A Firn dump and its end, the restore, and FRN_CFG (R281, R331, R332, R335, R337). -/

namespace Sys2Proof.Machine

section
variable {d : Dev} {g : Field}

/-! ### Register fields that the gauge leaves alone as a dump begins and ends (R693, R700) -/

/-- A register field of a half outside the fault block and the block of the gauge. -/
abbrev Field.ungauged (g : Field) : Prop := g.unreported ∧ g.off < 0xe00000

theorem Field.ungauged.ne_hld (h : g.ungauged) {f : Field} (block : 0xe00000 ≤ f.off ∧ f.off < 2 ^ 28 ∧ f.lsb < 64) : g.key ≠ f.key := by
  obtain ⟨⟨-, -, lsb, -⟩, low⟩ := h
  unfold Field.key
  omega

theorem rd_learnFail (h : g.ungauged) (cause : Nat) : (learnFail cause d).rd g = d.rd g := by
  have charging : g.key ≠ HLD_STATUS.CHARGING.key := h.ne_hld (by decide)
  have learning : g.key ≠ HLD_STATUS.LEARNING.key := h.ne_hld (by decide)
  have failed : g.key ≠ HLD_STATUS.LEARN_FAIL.key := h.ne_hld (by decide)
  have because : g.key ≠ HLD_STATUS.LEARN_CAUSE.key := h.ne_hld (by decide)
  have bled : (bleedSet false d).rd g = d.rd g := by simp [bleedSet, Dev.rd_when]
  unfold learnFail
  split
  · rfl
  · rw [rd_chargeUpdate charging, Dev.rd_wr_ne _ _ because, Dev.rd_set_ne failed, Dev.rd_clr_ne learning, Dev.rd_modGauge, bled]

theorem rd_gaugeDumpEnd (h : g.ungauged) : (gaugeDumpEnd d).rd g = d.rd g := by
  have charging : g.key ≠ HLD_STATUS.CHARGING.key := h.ne_hld (by decide)
  have state : g.key ≠ HLD_STATUS.STATE.key := h.ne_hld (by decide)
  have counted : g.key ≠ HLD_CNT_DUMPS.COUNT.key := h.ne_hld (by decide)
  have closed (e : Dev) : (packEnable false e).rd g = e.rd g := by
    unfold packEnable packState
    rw [rd_chargeUpdate charging, Dev.rd_wr_ne _ _ state]
    simp [Dev.rd_when]
  unfold gaugeDumpEnd
  rw [closed]
  simp [writeRecord, Dev.bump, Dev.rd_wr_ne _ _ counted]

/-! ### A dump that is ordered (R331, R332) -/

/-- A dump that starts runs from then on, and no record waits for space. -/
theorem startDump_runs (idle : d.firn.dumping = none) (reason : Nat) : (startDump reason d).firn.dumping.isSome ∧
    (startDump reason d).is FRN_STATUS.DUMPING = true ∧ (startDump reason d).firn.waiting = [] := by
  unfold startDump
  rw [if_neg (by simp [idle])]
  extract_lets mode now e slot serial recs x e'
  have dumping : e'.is FRN_STATUS.DUMPING = true := by
    dsimp only [e']
    rw [Dev.is, rd_learnFail (by decide), rd_lastGasp (by decide)]
    exact Dev.is_set rfl
  exact ⟨rfl, dumping, rfl⟩

/-! ### A dump that ends (R332, R333) -/

/-- The seal is written, and nothing else of the dump changes. -/
theorem endDump_seals {slot : Nat} {x : Dump} (runs : d.firn.dumping = some slot) (there : tget d.firn.dumps slot = some x) :
    (endDump d).firn.dumping = none ∧ (endDump d).is FRN_STATUS.DUMPING = false ∧
      tget (endDump d).firn.dumps slot = some { x with sealed := true } := by
  let e : Dev := d.modFirn fun f => { f with dumping := none, dumps := tmod f.dumps slot fun x => { x with sealed := true } }
  have run : endDump d = gaugeDumpEnd (e.clr FRN_STATUS.DUMPING) := by
    unfold endDump
    rw [runs]
  have firn : (endDump d).firn = e.firn := run ▸ (StoresKept.of_part (part_gaugeDumpEnd nofun)).firn
  refine ⟨by rw [firn]; rfl, ?_, ?_⟩
  · rw [run, Dev.is, rd_gaugeDumpEnd (by decide)]
    exact Dev.is_clr
  · rw [firn]
    exact (tget_tmod_same _ _ fun x : Dump => { x with sealed := true }).trans (congrArg (Option.map _) there)

theorem exec_dumpEnd {slot : Nat} {s : State} (runs : s.dev.firn.dumping = some slot) (warm : (s.dev.pw .media).coldPending = false) :
    exec .dumpEnd s = s.ok (endDump s.dev) := by
  have platform : (endDump s.dev).part .platform = s.dev.part .platform := by
    unfold endDump
    rw [runs]
    simp
  have power : (endDump s.dev).pw .media = s.dev.pw .media := by rw [Dev.pw, Dev.pw, show (endDump s.dev).power = s.dev.power from (congrArg Dev.power platform :)]
  change execDumpEnd s = _
  simp [execDumpEnd, runs, power, warm]

/-! ### The restore ends (R335) -/

/-- Pools that come online, one after the other. -/
def Dev.poolsOnline (d : Dev) (ps : List Nat) : Dev :=
  d.each ps fun d p => mediaEvent evPoolOnline p (d.modPool p fun x => { x with online := true })

theorem rd_mediaEvent (h : g.unreported) (code data : Nat) : (mediaEvent code data d).rd g = d.rd g := by
  unfold mediaEvent devEvent
  split
  · exact rd_postToPfs h _
  · rfl

theorem mediaEvent_stores (code data : Nat) (d : Dev) : StoresKept d (mediaEvent code data d) := .of_part part_mediaEvent

theorem rd_poolsOnline (h : g.unreported) (ps : List Nat) : (d.poolsOnline ps).rd g = d.rd g :=
  Dev.rd_each fun _ _ => (rd_mediaEvent h _ _).trans (Dev.rd_modPool _ _ _ _)

theorem poolsOnline_firn (ps : List Nat) : (d.poolsOnline ps).firn = d.firn := Dev.each_firn fun _ _ => (mediaEvent_stores _ _ _).firn

theorem poolsOnline_ctxs (ps : List Nat) : (d.poolsOnline ps).ctxs = d.ctxs := Dev.each_ctxs fun _ _ => (mediaEvent_stores _ _ _).ctxs

theorem poolsOnline_pools (ps : List Nat) (p : Nat) :
    tget (d.poolsOnline ps).pools p = (tget d.pools p).map fun x => if p ∈ ps then { x with online := true } else x := by
  induction ps generalizing d with
  | nil => simp [Dev.poolsOnline, Dev.each]
  | cons q ps ih =>
    let e : Dev := mediaEvent evPoolOnline q (d.modPool q fun x => { x with online := true })
    have pools : e.pools = tmod d.pools q fun x => { x with online := true } := (mediaEvent_stores _ _ _).pools
    refine (ih (d := e)).trans ?_
    rw [pools]
    by_cases same : p = q
    · subst same
      rw [tget_tmod_same, Option.map_map]
      refine congrArg (Option.map · (tget d.pools p)) (funext fun x => ?_)
      by_cases again : p ∈ ps <;> simp [again]
    · simp [tget_tmod_ne, same]

theorem mem_of_tget {α : Type} {t : Tab α} {n : Nat} {x : α} (there : tget t n = some x) : n ∈ tkeys t := by
  by_contra absent
  rw [tget_eq_none_of_not_mem absent] at there
  cases there

/-- The device once a restore has ended, before what waited goes on. -/
def Dev.restored (d : Dev) : Dev :=
  let e := d.clr FRN_STATUS.RESTORING
  let e := if e.firn.restoring.isEmpty then e else e.set FRN_STATUS.RESTORED
  let e := ((e.modFirn fun f => { f with restoring := [] }).modIng fun i => { i with marksRead := true })
  let e := e.poolsOnline (e.pools.map (·.1))
  syncRebuild (if e.drives.windows.isEmpty then e.modDrv fun v => { v with started := true } else e)

theorem restored_ends (d : Dev) : d.restored.is FRN_STATUS.RESTORING = false ∧ d.restored.firn.restoring = [] ∧ d.restored.ctxs = d.ctxs ∧
    ∀ p x, tget d.restored.pools p = some x → x.online = true := by
  unfold Dev.restored
  extract_lets e1 e2 e3 e4
  have rebuilt (e : Dev) : StoresKept e (syncRebuild e) := .of_part part_syncRebuild
  have started : ∃ f, (if e4.drives.windows.isEmpty then e4.modDrv fun v => { v with started := true } else e4) = e4.modDrv f := by
    split
    · exact ⟨_, rfl⟩
    · exact ⟨id, rfl⟩
  have marked : e2.is FRN_STATUS.RESTORING = false ∧ e2.ctxs = d.ctxs := by
    dsimp only [e2]
    split
    · exact ⟨Dev.is_clr, rfl⟩
    · exact ⟨(Dev.is_set_ne (by decide)).trans Dev.is_clr, rfl⟩
  obtain ⟨f, started⟩ := started
  rw [started]
  refine ⟨?_, ?_, ?_, fun p x there => ?_⟩
  · have kept : (syncRebuild (e4.modDrv f)).is FRN_STATUS.RESTORING = e4.is FRN_STATUS.RESTORING :=
      (Dev.is_put_ne (by decide)).trans (Dev.is_put_ne (by decide))
    rw [kept, Dev.is, rd_poolsOnline (by decide)]
    exact marked.1
  · rw [(rebuilt _).firn]
    exact congrArg Firn.restoring (poolsOnline_firn (d := e3) _)
  · rw [(rebuilt _).ctxs]
    exact (poolsOnline_ctxs (d := e3) _).trans marked.2
  · rw [(rebuilt _).pools, show (e4.modDrv f).pools = e4.pools from rfl, poolsOnline_pools] at there
    obtain ⟨y, known, rfl⟩ := Option.map_eq_some_iff.mp there
    have listed : p ∈ e3.pools.map (·.1) := mem_of_tget known
    rw [if_pos listed]

theorem exec_restoreEnd {s : State} (restoring : s.dev.is FRN_STATUS.RESTORING = true) :
    exec .restoreEnd s = s.ok (settle s.dev.restored) := congrArg s.ok (if_neg (by simp [restoring]))

theorem noteWaits_restoring (d : Dev) : (noteWaits d).firn.restoring = d.firn.restoring := by
  unfold noteWaits
  extract_lets new mark ws
  have counted (e : Dev) (w : FRec) : ((e.bump FRN_CNT_SPACE_WAITS.COUNT 1).when (w.cls == 0 && !w.internal) fun d =>
      fault .media 0x0A 8 3 false (d.set FRN_STATUS.CLASS_A_WAIT)).firn = e.firn := (StoresKept.of_part (by simp)).firn
  exact (congrArg Firn.restoring (Dev.each_firn counted) :)

theorem execRestoreEnd_ends {s : State} (restoring : s.dev.is FRN_STATUS.RESTORING = true) (none : s.dev.ctxs = []) :
    Does .restoreEnd s fun t => t.dev.is FRN_STATUS.RESTORING = false ∧ t.dev.firn.restoring = [] ∧
      ∀ p x, tget t.dev.pools p = some x → x.online = true := by
  obtain ⟨done, empty, ctxs, online⟩ := restored_ends s.dev
  have kept := noteWaits_restoring s.dev.restored
  refine ⟨_, exec_restoreEnd restoring, ?_⟩
  dsimp only
  rw [settle_of_none (ctxs.trans none), Dev.is, rd_noteWaits (by decide) (by decide) (by decide), (noteWaits_fabric _).pools]
  exact ⟨done, kept.trans empty, online⟩

/-! ### FRN_CFG (R281, R337) -/

theorem bits_mod (v lsb w : Nat) : bits v lsb w % 2 ^ w = bits v lsb w := Nat.mod_mod _ _

theorem rd_spaceCheck : (spaceCheck d).rd g = d.rd g := by
  rw [spaceCheck]
  exact Dev.rd_modFirn _ _ _

theorem frnCfgWrite_refused {value : Nat} (out : bits value 0 6 < 4 ∨ 32 < bits value 0 6 ∨ 64 < bits value 8 8) :
    frnCfgWrite value d = d.set FRN_STATUS.CONFIG_REFUSED := by
  unfold frnCfgWrite
  extract_lets g a heap
  clear_value heap
  exact if_pos (by omega)

/-- Sizes that the region has room for are taken while it holds no record. -/
theorem frnCfgWrite_taken {value : Nat} (least : 4 ≤ bits value 0 6) (most : bits value 0 6 ≤ 32) (reserve : bits value 8 8 ≤ 64)
    (room : 4 * (bits value 8 8 * 16384) ≤ (bits value 0 6 * 2 ^ 30 - 2 ^ 28 - 2 ^ 26) / 4096) (empty : d.firn.recs = []) :
    (frnCfgWrite value d).rd FRN_CFG.REGION_GIB = bits value 0 6 ∧ (frnCfgWrite value d).rd FRN_CFG.A_RESERVE = bits value 8 8 := by
  have taken : frnCfgWrite value d = spaceCheck ((d.wr FRN_CFG.REGION_GIB (bits value 0 6)).wr FRN_CFG.A_RESERVE (bits value 8 8)) := by
    unfold frnCfgWrite
    extract_lets g a heap
    have room' : 4 * (a * 16384) ≤ heap := room
    clear_value heap
    have none : ¬ (g ≠ d.rd FRN_CFG.REGION_GIB ∧ (!d.firn.recs.isEmpty) = true) := by simp [empty]
    refine if_neg ?_
    rintro (small | large | much | full | moved)
    · exact absurd small (Nat.not_lt.mpr least)
    · exact absurd large (Nat.not_lt.mpr most)
    · exact absurd much (Nat.not_lt.mpr reserve)
    · exact absurd full (Nat.not_lt.mpr room')
    · exact none moved
  rw [taken, rd_spaceCheck, rd_spaceCheck, Dev.rd_wr, Dev.rd_wr_ne _ _ (by decide), Dev.rd_wr]
  exact ⟨bits_mod _ _ _, bits_mod _ _ _⟩

end

/-- Settles O23: a dump that starts sets its bit, and neither a last-gasp record nor the gauge clears it (`startDump_runs`); its end seals its
slot (`endDump_seals`). At the end of a restore every pool of the table comes online in turn (`poolsOnline_pools`). -/
theorem dumpsAndTheRegionTakeEffect : Obligations.DumpsAndTheRegionTakeEffect := by
  unfold Obligations.DumpsAndTheRegionTakeEffect
  refine ⟨?starts, ?other, ?ends, ?restored, ?taken, ?refused⟩
  case starts =>
    intro path value s writer key idle
    exact ⟨_, congrArg s.ok (if_pos (by simp [writer, key])), startDump_runs idle 2⟩
  case other =>
    intro path value s writer key
    exact ⟨_, congrArg s.ok (if_neg (by simp [key])), rfl⟩
  case ends => exact fun slot x s runs there warm => ⟨_, exec_dumpEnd runs warm, endDump_seals runs there⟩
  case restored => exact fun s restoring none => execRestoreEnd_ends restoring none
  case taken =>
    rintro path value _ _ s writer rfl rfl least most reserve room empty
    exact ⟨_, congrArg s.ok (if_pos writer), frnCfgWrite_taken least most reserve room empty⟩
  case refused =>
    intro path value s writer out
    exact ⟨_, congrArg s.ok ((if_pos writer).trans (frnCfgWrite_refused out)), rfl⟩

end Sys2Proof.Machine
end

section
/-! PROOFS. ECHO does not go out while other messages wait for the link cipher (R210, R511, R523). -/

namespace Sys2Proof.Machine

/-- A message sent while others wait for the link cipher waits behind them (R210). -/
theorem snowSend_waits {d : Dev} (lanes : d.snow.tx.lanes ≠ []) (runs : d.snow.tx.stopped = false) (behind : d.twin.sealed ≠ [])
    (k : Kind) (cls : Nat) (m : Msg) :
    snowSend k cls m d = d.modTwin fun t => { t with sealed := t.sealed ++ [⟨1024, k, cls, m⟩] } := by
  simp [snowSend, snowSendFor, lanes, runs, behind]

/-- ECHO_SEND sends nothing then (R523). -/
theorem exec_echoSend_waits {s t : State} (handshake : 2 ≤ s.dev.tstate) (pair : s.dev.tstate ≤ 5) (lanes : s.dev.snow.tx.lanes ≠ [])
    (runs : s.dev.snow.tx.stopped = false) (behind : s.dev.twin.sealed ≠ []) (run : exec .echoSend s = .next t) :
    t.dev.out = s.dev.out := by
  have shaking : ¬ (s.dev.tstate < 2 ∨ 5 < s.dev.tstate) := by omega
  change execEchoSend s = _ at run
  simp only [execEchoSend, if_neg shaking, snowSend_waits lanes runs behind, State.ok_eq] at run
  obtain rfl := Host.Outcome.next.inj run
  rfl

theorem not_sent_of_out_eq {d e : Dev} {o : Out} (same : e.out = d.out) : ¬ Sent d e o := by
  rintro ⟨l, more, sent⟩
  rw [List.self_eq_append_right.mp (same.symm.trans more)] at sent
  cases sent

/-- Twin A of a pair on one lane, with the link cipher on, a link key, and no lease of its counter values. -/
def cipherWithoutLease : Dev :=
  let d := ((Dev.reset.wr TWN_STATUS.STATE 5).set TWN_CFG.LINK_GCM).set TWN_STATUS.GCM_ON
  { d with
    snow := { d.snow with tx := { d.snow.tx with lanes := [0] } }
    rime := { d.rime with linkKey := some (1, List.replicate 32 0) } }

/-- The link cipher is then turned off: its COORD message waits for the lease, and GCM_ON is cleared at once. -/
def echoBehindCoord : State := { State.reset with dev := linkGcmWrite 0 cipherWithoutLease }

theorem echoBehindCoord_ready : echoBehindCoord.dev.tstate = 5 ∧ SnowOpen echoBehindCoord.dev ∧ echoBehindCoord.dev.twin.sealed ≠ [] := by
  decide

/-- Refutes O28: ECHO_SEND is to send an ECHO while a lane is in service and the link cipher is off, but where a message still waits for the
link cipher, the ECHO waits behind it (`snowSend_waits`); the premises do not exclude it. -/
theorem not_partnerIsWatched : ¬ Obligations.PartnerIsWatched := by
  unfold Obligations.PartnerIsWatched
  rintro ⟨-, -, -, echo, -⟩
  obtain ⟨paired, snow, behind⟩ := echoBehindCoord_ready
  obtain ⟨t, run, m, sent, -⟩ := echo echoBehindCoord (by omega) (by omega) snow
  obtain ⟨lanes, runs, -⟩ := snow
  exact not_sent_of_out_eq (exec_echoSend_waits (by omega) (by omega) lanes runs behind run) sent

end Sys2Proof.Machine
end

section
/-! PROOFS. The answer to a request for a record stays behind messages that wait for the link cipher (R210, R511, R536). -/

namespace Sys2Proof.Machine

/-- The request of the partner for the record of sequence 5 of pool 0 (R536). -/
def recordRequest : Msg := ⟨0, 0, 5, 0, [2], []⟩

/-- That record, written on this side. -/
def requestedRecord : FRec := { FRec.empty with rtype := rtMap, seq := 5, written := true }

/-- The twin of `echoBehindCoord` in the state RECONCILE, with a pool and one record of that pool. -/
def recordBehindCoord : State :=
  let d := echoBehindCoord.dev.wr TWN_STATUS.STATE 3
  { echoBehindCoord with dev := { d with
      pools := tput [] 0 (Pool.make (4 + 2 * 2 ^ 6 + 8 * 2 ^ 9) 1 0)
      firn := { d.firn with recs := [(3, requestedRecord)] } } }

theorem recordBehindCoord_ready : recordBehindCoord.dev.tstate = 3 ∧ NoMail .snow recordBehindCoord ∧ SnowOpen recordBehindCoord.dev ∧
    recordBehindCoord.dev.twin.sealed ≠ [] := by
  decide

theorem recordBehindCoord_holds : (tget recordBehindCoord.dev.pools 0).isSome ∧ recordBehindCoord.dev.slotOf 0 5 = some 3 ∧
    recordBehindCoord.dev.recAt 3 = some requestedRecord := by
  decide

/-- RECON with a request for a record sends nothing while messages wait for the link cipher (R536). -/
theorem exec_recon_waits {m : Msg} {slot : Nat} {r : FRec} {s t : State} (noMail : NoMail .snow s) (reconcile : s.dev.tstate = 3)
    (pool : (tget s.dev.pools m.q).isSome) (request : m.args = [2]) (there : s.dev.slotOf m.q m.ref = some slot)
    (record : s.dev.recAt slot = some r) (lanes : s.dev.snow.tx.lanes ≠ []) (runs : s.dev.snow.tx.stopped = false)
    (behind : s.dev.twin.sealed ≠ []) (run : exec (.recon m) s = .next t) : t.dev.out = s.dev.out := by
  have known : ¬ (s.dev.tstate ≠ 3 ∨ (tget s.dev.pools m.q).isNone) := by simp [reconcile, Option.isSome_iff_ne_none.mp pool]
  change execRecon m s = _ at run
  rw [execRecon, snowTurn, inTurn_nil noMail] at run
  simp only [if_neg known, request, List.getD_cons_zero, there, Option.bind_some, record, snowSend_waits lanes runs behind,
    State.ok_eq] at run
  obtain rfl := Host.Outcome.next.inj run
  rfl

/-- Refutes O27: RECON with a request for a record is to answer with the record while a lane is in service and the link cipher is off, but
where a message still waits for the link cipher, the answer waits behind it (`snowSend_waits`); the premises do not exclude it. -/
theorem not_twinMessagesTakeEffect : ¬ Obligations.TwinMessagesTakeEffect := by
  unfold Obligations.TwinMessagesTakeEffect
  rintro ⟨-, -, -, -, -, -, -, -, answer, -⟩
  obtain ⟨reconcile, noMail, snow, behind⟩ := recordBehindCoord_ready
  obtain ⟨pool, there, record⟩ := recordBehindCoord_holds
  obtain ⟨t, run, sent⟩ := answer recordRequest 3 requestedRecord recordBehindCoord noMail reconcile pool rfl there record snow
  obtain ⟨lanes, runs, -⟩ := snow
  exact not_sent_of_out_eq (exec_recon_waits noMail reconcile pool rfl there record lanes runs behind run) sent

end Sys2Proof.Machine
end

section
/-! PROOFS. What the completion of a command leaves alone beside the queues (R79, R80, R96, R114), and that the command is gone with it. -/

namespace Sys2Proof.Machine

/-- Rime, the fault ledgers, the twin, the activities and the registers of the units are as they were; messages that were applied or refused
are counted (R487, R488). -/
structure UnitsKept (d e : Dev) : Prop where
  rime : e.rime = d.rime
  ledger : e.ledger = d.ledger
  twin : e.twin = d.twin
  maint : e.maint = d.maint
  rd : ∀ g : Field, g.unreported → g.key ≠ VRV_CNT_MSG_APPLIED.COUNT.key → g.key ≠ VRV_CNT_AUTH_FAIL.COUNT.key → e.rd g = d.rd g

namespace UnitsKept
variable {a b c d e : Dev}

theorem refl (d : Dev) : UnitsKept d d := ⟨rfl, rfl, rfl, rfl, fun _ _ _ _ => rfl⟩

theorem trans (h : UnitsKept a b) (k : UnitsKept b c) : UnitsKept a c :=
  ⟨k.rime.trans h.rime, k.ledger.trans h.ledger, k.twin.trans h.twin, k.maint.trans h.maint,
    fun g out applied refused => (k.rd g out applied refused).trans (h.rd g out applied refused)⟩

theorem after (k : UnitsKept b c) (h : UnitsKept a b) : UnitsKept a c := h.trans k

theorem ite {c : Prop} [Decidable c] (h : UnitsKept d a) (k : UnitsKept d b) : UnitsKept d (if c then a else b) := by
  split
  · exact h
  · exact k

theorem when {c : Bool} {f : Dev → Dev} (h : UnitsKept d (f d)) : UnitsKept d (d.when c f) := ite h (refl d)

theorem modQ (d : Dev) (q : Nat) (f : Queue → Queue) : UnitsKept d (d.modQ q f) := ⟨rfl, rfl, rfl, rfl, fun _ _ _ _ => rfl⟩

theorem modFn (d : Dev) (n : Nat) (f : Fn → Fn) : UnitsKept d (d.modFn n f) := ⟨rfl, rfl, rfl, rfl, fun _ _ _ _ => rfl⟩

theorem emits (d : Dev) (os : List Out) : UnitsKept d (d.emits os) := ⟨rfl, rfl, rfl, rfl, fun _ _ _ _ => rfl⟩

/-- A write of a register field that no unit has. -/
theorem wr_fn (d : Dev) {f : Field} (space : 16 ≤ f.space) (v : Nat) : UnitsKept d (d.wr f v) :=
  ⟨rfl, rfl, rfl, rfl, fun _ out _ _ => Dev.rd_wr_ne d v (out.ne_fn space)⟩

end UnitsKept

/-! ### Interrupts and events -/

theorem cfgSpace_least (fn : Nat) : 16 ≤ cfgSpace fn := (by decide : 16 ≤ 2048).trans (Nat.le_add_right 2048 fn)

theorem trigger_units (fn v : Nat) (d : Dev) : UnitsKept d (trigger fn v d) :=
  .ite (.ite (.modFn _ _ _) (.emits _ _)) (.ite (.ite (.wr_fn _ (cfgSpace_least fn) _) (.emits _ _)) (.refl d))

theorem pmeFor_units (fn : Nat) (d : Dev) : UnitsKept d (pmeFor fn d) :=
  .ite (.refl d) (.ite ⟨rfl, rfl, rfl, rfl, fun _ _ _ _ => rfl⟩
    (.ite (.trans (.wr_fn d (cfgSpace_least fn) 1) (.emits _ _)) (.refl d)))

theorem postEvent_units (fn : Nat) (x : Event) (d : Dev) : UnitsKept d (postEvent fn x d) := by
  have written : UnitsKept d (writeEvent fn x d) := (trigger_units _ _ _).after (.after (.modFn _ _ _) (.emits _ _))
  have lost : UnitsKept d ((d.modFn fn fun f => { f with ev := { f.ev with lostSince := f.ev.lostSince + 1 } }).bump (RNG_EV_LOST.LOST fn) 1) :=
    .after (.wr_fn _ (Nat.le_add_right 16 fn) _) (.modFn _ _ _)
  exact .ite ((pmeFor_units _ _).after (.modFn _ _ _)) (.ite written (.ite (.modFn _ _ _) lost))

theorem classABroken_units (q : Nat) (d : Dev) : UnitsKept d (classABroken q d) := by
  have told (fn : Nat) : UnitsKept d (classAExceeded fn q d) :=
    .ite ((postEvent_units _ _ _).after ⟨rfl, rfl, rfl, rfl, fun _ _ _ _ => rfl⟩) (.refl d)
  unfold classABroken
  split
  · exact .refl d
  · exact .ite (told _) (.refl d)

/-! ### Completion entries -/

section
variable {d : Dev} {q tag st res : Nat}

theorem endReset_units (frees : Option Nat) (d : Dev) : UnitsKept d (d.endReset frees) := by
  unfold Dev.endReset
  split
  · exact .refl d
  · exact .modQ _ _ _

theorem writeCqe_units (q : Nat) (x : Cqe) (d : Dev) : UnitsKept d (writeCqe q x d) := by
  have signalled (d : Dev) : UnitsKept d (signalQueue q d) := by
    unfold signalQueue
    split
    · exact .refl d
    · exact .ite (.refl d) ((trigger_units _ _ _).after (.modQ _ _ _))
  unfold writeCqe
  split
  · exact .refl d
  · exact .after (.when (signalled _)) (.after (.modQ _ _ _) (.after (endReset_units _ _) (.emits _ _)))

theorem postCqe_units (q : Nat) (x : Cqe) (d : Dev) : UnitsKept d (postCqe q x d) := by
  unfold postCqe
  split
  · exact .refl d
  · exact .after (.when (classABroken_units _ _)) (.ite (.modFn _ _ _) (.ite (.modQ _ _ _) (writeCqe_units _ _ _)))

theorem gone_of_cmds {e : Dev} (same : (e.queue q).map (·.cmds) = (d.queue q).map (·.cmds)) (gone : Gone q tag d) : Gone q tag e := by
  have found (d : Dev) : (d.queue q).bind (·.cmd tag) = ((d.queue q).map (·.cmds)).bind (·.find? fun c => bits c.pkt.toNat 16 16 == tag) := by
    rw [Option.bind_map]
    rfl
  rw [Gone, found, same, ← found]
  exact gone

theorem postCqe_cmds {x : Cqe} (ends : x.frees = none) (d : Dev) : ((postCqe q x d).queue q).map (·.cmds) = (d.queue q).map (·.cmds) := by
  unfold postCqe
  split
  · rfl
  next qu here =>
    extract_lets d1
    rw [(when_classABroken q _ d1).2]
    dsimp only [d1]
    split
    · rfl
    · split
      · simp [Dev.queue_modQ, Option.map_map, Function.comp_def]
      · exact writeCqe_cmds q q ends d

/-! ### The command that completes -/

/-- The device once a command has left its queue, before its completion is posted. -/
def Dev.left (d : Dev) (q tag st : Nat) (c : Cmd) : Dev :=
  (noteApply q tag st c (noteMember (((d.queue q).map (·.fn)).getD 0) q tag st c
    (d.modQ q fun x => { x with cmds := x.cmds.filter fun x => bits x.pkt.toNat 16 16 != tag }))).dropCtx q tag

/-- A command that is not there changes nothing; another one leaves its queue, and a completion may be posted for it. -/
theorem complete_cases (q tag st res : Nat) (d : Dev) : (d.cmdAt q tag = none ∧ complete q tag st res d = d) ∨
    ∃ c, complete q tag st res d = d.left q tag st c ∨ ∃ x : Cqe, x.frees = none ∧ complete q tag st res d = postCqe q x (d.left q tag st c) := by
  unfold complete completeFreeing
  cases here : (d.queue q).bind (·.cmd tag) with
  | none => exact .inl ⟨here, rfl⟩
  | some c =>
    refine .inr ⟨c, ?_⟩
    dsimp only [Dev.endReset]
    split
    · exact .inl rfl
    · exact .inr ⟨_, rfl, rfl⟩

theorem left_units (q tag st : Nat) (c : Cmd) (d : Dev) : UnitsKept d (d.left q tag st c) := by
  have noted (fn : Nat) (d : Dev) : UnitsKept d (noteMember fn q tag st c d) := .ite (.refl d) ⟨rfl, rfl, rfl, rfl, fun _ _ _ _ => rfl⟩
  have applied (d : Dev) : UnitsKept d (noteApply q tag st c d) := by
    refine ⟨?_, ?_, ?_, ?_, fun g _ one other => noteApply_rd _ _ _ _ _ _ one other⟩ <;>
    · unfold noteApply
      split
      · rfl
      · dsimp only
        split
        · rfl
        · split
          · rfl
          · split <;> rfl
  have dropped (d : Dev) : UnitsKept d (d.dropCtx q tag) := ⟨rfl, rfl, rfl, rfl, fun _ _ _ _ => rfl⟩
  exact (dropped _).after ((applied _).after ((noted _ _).after (.modQ _ _ _)))

theorem complete_units (q tag st res : Nat) (d : Dev) : UnitsKept d (complete q tag st res d) := by
  rcases complete_cases q tag st res d with ⟨-, same⟩ | ⟨c, same | ⟨x, -, same⟩⟩ <;> rw [same]
  · exact .refl d
  · exact left_units _ _ _ _ _
  · exact (postCqe_units _ _ _).after (left_units _ _ _ _ _)

theorem gone_left (q tag st : Nat) (c : Cmd) (d : Dev) : Gone q tag (d.left q tag st c) := by
  have rings : (d.left q tag st c).queue q =
      (d.modQ q fun x => { x with cmds := x.cmds.filter fun x => bits x.pkt.toNat 16 16 != tag }).queue q := by
    simp [Dev.left, Dev.queue]
  rw [Gone, rings, Dev.queue_modQ]
  cases d.queue q with
  | none => rfl
  | some qu => simp [Queue.cmd, List.find?_eq_none]

/-- A command is gone once it has completed, whether its completion is written, held or not due. -/
theorem complete_gone (q tag st res : Nat) (d : Dev) : Gone q tag (complete q tag st res d) := by
  rcases complete_cases q tag st res d with ⟨none, same⟩ | ⟨c, same | ⟨x, ends, same⟩⟩ <;> rw [same]
  · exact none
  · exact gone_left _ _ _ _ _
  · exact gone_of_cmds (postCqe_cmds ends _) (gone_left _ _ _ _ _)

end
end Sys2Proof.Machine
end

section
/-! PROOFS. Admin commands that the media half answers, and the resolve of a divergent stripe that is abandoned (R268, R385, R412). -/

namespace Sys2Proof.Machine

/-! ### An admin command that runs -/

section
variable {op q tag : Nat} {qu : Queue} {c : Cmd} {s : State}

theorem runCmd_admin (admin : 0x80 ≤ op) (waits : Waits [op] q tag s.dev qu c) (f : Queue → Cmd → Dev → Dev) :
    runCmd [op] q tag f s.dev = f qu c (s.dev.begun q tag) := runCmd_waits f waits (.inl (waits.opcode ▸ admin))

theorem needMedia_runs (media : Ready.media s) (need : Bool) (f : Dev → Dev) :
    needMedia q tag need f (s.dev.begun q tag) = f (s.dev.begun q tag) := by
  obtain ⟨fenced, down, up⟩ := media
  have runs : ¬ (need && ((s.dev.begun q tag).fenced || (s.dev.begun q tag).peerDown .host || !(s.dev.begun q tag).schUp)) = true := by
    change ¬ (need && (s.dev.fenced || s.dev.peerDown .host || !s.dev.schUp)) = true
    simp [fenced, down, up]
  exact if_neg runs

theorem mediaAdmin_runs (admin : 0x80 ≤ op) (waits : Waits [op] q tag s.dev qu c) (media : Ready.media s) (f : Queue → Cmd → Dev → Dev) :
    mediaAdmin [op] q tag f s.dev = f qu c (s.dev.begun q tag) := by
  have runs := needMedia_runs (q := q) (tag := tag) media true (f qu c)
  rw [needMedia, Bool.true_and] at runs
  rw [mediaAdmin, runCmd_admin admin waits]
  exact runs

end

/-! ### What the assignment of a record rests on (R284, R285, R293, R295, R540) -/

/-- A register field of a half outside the fault block and the maintenance block. -/
abbrev Field.unmaintained (g : Field) : Prop := g.unreported ∧ (g.off < 0x700000 ∨ 0x800000 ≤ g.off)

theorem Field.unmaintained.ne_mnt {g f : Field} (h : g.unmaintained) (block : 0x700000 ≤ f.off ∧ f.off < 0x800000 ∧ f.lsb < 64) :
    g.key ≠ f.key := by
  obtain ⟨⟨-, off, lsb, -⟩, out⟩ := h
  unfold Field.key
  omega

/-- The records and what decides whether one may be assigned: the twin, the straps, the time, the homes of the pools and the registers outside
the maintenance block. -/
structure RegionKept (d e : Dev) : Prop where
  firn : e.firn = d.firn
  twin : e.twin = d.twin
  straps : e.straps = d.straps
  time : e.tbMedia = d.tbMedia
  homes : ∀ p, (tget e.pools p).map (·.home) = (tget d.pools p).map (·.home)
  rd : ∀ g : Field, g.unmaintained → e.rd g = d.rd g

namespace RegionKept
variable {a b c d e : Dev}

theorem refl (d : Dev) : RegionKept d d := ⟨rfl, rfl, rfl, rfl, fun _ => rfl, fun _ _ => rfl⟩

theorem trans (h : RegionKept a b) (k : RegionKept b c) : RegionKept a c :=
  ⟨k.firn.trans h.firn, k.twin.trans h.twin, k.straps.trans h.straps, k.time.trans h.time, fun p => (k.homes p).trans (h.homes p),
    fun g out => (k.rd g out).trans (h.rd g out)⟩

theorem after (k : RegionKept b c) (h : RegionKept a b) : RegionKept a c := h.trans k

theorem when {c : Bool} {f : Dev → Dev} (h : RegionKept d (f d)) : RegionKept d (d.when c f) := by
  unfold Dev.when
  split
  · exact h
  · exact refl d

theorem modPool (d : Dev) (p : Nat) {f : Pool → Pool} (kept : ∀ x, (f x).home = x.home) : RegionKept d (d.modPool p f) := by
  refine ⟨rfl, rfl, rfl, rfl, fun q => ?_, fun _ _ => rfl⟩
  unfold Dev.modPool
  by_cases same : q = p
  · subst same
    simp only [tget_tmod_same, Option.map_map]
    exact congrArg (Option.map · _) (funext kept)
  · rw [tget_tmod_ne _ _ same]

theorem wr_mnt (d : Dev) {f : Field} (block : 0x700000 ≤ f.off ∧ f.off < 0x800000 ∧ f.lsb < 64) (v : Nat) : RegionKept d (d.wr f v) :=
  ⟨rfl, rfl, rfl, rfl, fun _ => rfl, fun _ out => Dev.rd_wr_ne d v (out.ne_mnt block)⟩

theorem fault (d : Dev) (k : Half) (block inst cause : Nat) (left : Bool) : RegionKept d (fault k block inst cause left d) := by
  have stores : StoresKept d (Machine.fault k block inst cause left d) := .of_part part_fault
  have straps : (Machine.fault k block inst cause left d).part .straps = d.part .straps := part_fault
  have times : (Machine.fault k block inst cause left d).part .platform = d.part .platform := part_fault
  exact ⟨stores.firn, stores.twin, (congrArg Dev.straps straps :), (congrArg Dev.tbMedia times :),
    fun p => congrArg (fun t => (tget t p).map (·.home)) stores.pools, fun g out => rd_fault out.1 _ _ _ _ _⟩

theorem mediaEvent (d : Dev) (code data : Nat) : RegionKept d (mediaEvent code data d) := by
  have stores := mediaEvent_stores code data d
  have straps : (Machine.mediaEvent code data d).part .straps = d.part .straps := part_mediaEvent
  have times : (Machine.mediaEvent code data d).part .platform = d.part .platform := part_mediaEvent
  exact ⟨stores.firn, stores.twin, (congrArg Dev.straps straps :), (congrArg Dev.tbMedia times :),
    fun p => congrArg (fun t => (tget t p).map (·.home)) stores.pools, fun g out => rd_mediaEvent out.1 _ _⟩

theorem isHome (h : RegionKept d e) (p : Nat) : e.isHome p = d.isHome p := by
  simp only [Dev.isHome, Dev.twinSide, h.homes, h.straps]

theorem freeOutside (h : RegionKept d e) : e.freeOutside = d.freeOutside := by
  simp only [Dev.freeOutside, Dev.freePages, Dev.freeSlots, Dev.heapPages, Dev.recPages, Dev.recSlots, h.firn,
    h.rd FRN_CFG.REGION_GIB (by decide)]

theorem unacked (h : RegionKept d e) (p : Nat) : e.unacked p = d.unacked p := by
  have mirrors : e.mirrors = d.mirrors := by
    simp only [Dev.mirrors, Dev.mode, h.rd FRN_STATUS.MODE (by decide), h.rd TWN_STATUS.STATE (by decide)]
  rw [Dev.unacked, Dev.unacked, mirrors, Dev.recSlots, Dev.recSlots, h.firn, Dev.twinSide, Dev.twinSide, h.straps]

theorem roomy {p n : Nat} (h : RegionKept d e) (room : Roomy p n d) : Roomy p n e := by
  obtain ⟨⟨dump, waits, pages, slots⟩, home, locks, swap, acked, others⟩ := room
  refine ⟨⟨?_, ?_, ?_, ?_⟩, ?_, ?_, ?_, ?_, ?_⟩
  · rw [h.firn, dump]
  · rw [h.firn, waits]
  · rw [h.freeOutside, h.rd FRN_CFG.A_RESERVE (by decide)]
    exact pages
  · rw [h.freeOutside]
    exact slots
  · rw [h.isHome, home]
  · rw [h.firn, locks]
  · rw [Dev.assignHeld, h.isHome, h.twin]
    exact swap
  · rw [Dev.ackFull, h.isHome, h.unacked]
    exact acked
  · rw [h.firn]
    exact others

end RegionKept

/-! ### A stripe enters the lost-stripe log (R412, R418) -/

section
variable {d : Dev} {st cause n : Nat} {x : Pool} {y : Stripe}

theorem setOffline_region (p : Nat) (off : Bool) (d : Dev) : RegionKept d (setOffline p off d) := by
  have synced (f : Pool → Pool) (kept : ∀ x, (f x).home = x.home) : RegionKept d (syncOffline (d.modPool p f)) :=
    .after (.wr_mnt _ (by decide) _) (.modPool d p kept)
  unfold setOffline
  split
  · exact .refl d
  · split
    · exact .refl d
    · have told := (RegionKept.mediaEvent _ (if off then evPoolOffline else evPoolOnline) p).after (synced (fun y => { y with offline := off }) fun _ => rfl)
      cases off
      · exact told
      · exact (RegionKept.fault _ _ _ _ _ _).after told

theorem loseStripe_region (st cause n : Nat) (d : Dev) : RegionKept d (loseStripe st cause n d) := by
  have counted (d : Dev) : RegionKept d (d.bump MNT_CNT_LOST.COUNT 1) := .wr_mnt d (by decide) _
  have told (d : Dev) : RegionKept d (mediaEvent evLostStripe st (fault .media 0x0C (0x1000 + stripePool st) 0x10 false (d.set MNT_STATUS.LOST))) :=
    (RegionKept.mediaEvent _ _ _).after ((RegionKept.fault _ _ _ _ _ _).after (.wr_mnt d (by decide) _))
  unfold loseStripe
  extract_lets p
  split
  · split
    · exact .refl d
    · split
      · exact (RegionKept.wr_mnt _ (by decide) _).after (counted d)
      · exact (RegionKept.when (setOffline_region _ _ _)).after ((told _).after ((counted _).after (.modPool d p fun _ => rfl)))
  · exact .refl d

theorem Quiet.mediaEvent {e : Dev} (h : Quiet d e) (code data : Nat) : Quiet d (mediaEvent code data e) := .ite (h.devEvent _ _) h

theorem Quiet.modPool {e : Dev} (h : Quiet d e) (p : Nat) (f : Pool → Pool) : Quiet d (e.modPool p f) := h.trans (.of_out rfl rfl)

theorem Quiet.setOffline {e : Dev} (h : Quiet d e) (p : Nat) (off : Bool) : Quiet d (setOffline p off e) := by
  unfold Machine.setOffline
  split
  · exact h
  · refine .ite h ?_
    have synced : Quiet d (syncOffline (e.modPool p fun y => { y with offline := off })) := (h.modPool p _).wr _ _
    have told := synced.mediaEvent (if off then evPoolOffline else evPoolOnline) p
    cases off
    · exact told
    · exact told.fault _ _ _ _ _

theorem Quiet.loseStripe {e : Dev} (h : Quiet d e) (st cause n : Nat) : Quiet d (loseStripe st cause n e) := by
  unfold Machine.loseStripe
  extract_lets p
  split
  · exact .ite h (.ite ((h.bump _ _).set _) (.when (.mediaEvent (.fault (((h.modPool _ _).bump _ _).set _) _ _ _ _ _) _ _)
      fun e => (Quiet.refl e).setOffline _ _))
  · exact h

/-- The lost stripes of a pool. -/
def Dev.lostOf (d : Dev) (p : Nat) : Option (List LostStripe) := (tget d.pools p).map (·.lost)

theorem Dev.lostEntry_eq (d : Dev) (st : Nat) : d.lostEntry st = (d.lostOf (stripePool st)).bind (·.find? (·.stripe == st)) := by
  rw [Dev.lostOf, Option.bind_map]
  rfl

theorem Dev.lostOf_of_pools {d e : Dev} (same : e.pools = d.pools) (p : Nat) : e.lostOf p = d.lostOf p :=
  congrArg (fun t : Tab Pool => (tget t p).map Pool.lost) same

theorem lostOf_mediaEvent (code data p : Nat) (d : Dev) : (mediaEvent code data d).lostOf p = d.lostOf p :=
  Dev.lostOf_of_pools (mediaEvent_stores _ _ _).pools p

theorem lostOf_fault (k : Half) (block inst cause p : Nat) (left : Bool) (d : Dev) : (fault k block inst cause left d).lostOf p = d.lostOf p :=
  Dev.lostOf_of_pools (StoresKept.of_part part_fault).pools p

theorem lostOf_setOffline (p : Nat) (off : Bool) (d : Dev) : (setOffline p off d).lostOf p = d.lostOf p := by
  have synced : (syncOffline (d.modPool p fun y => { y with offline := off })).lostOf p = d.lostOf p := by
    change (tget (tmod d.pools p fun y => { y with offline := off }) p).map (·.lost) = (tget d.pools p).map (·.lost)
    rw [tget_tmod_same, Option.map_map]
    rfl
  unfold setOffline
  split
  · rfl
  · split
    · rfl
    · cases off
      · exact (lostOf_mediaEvent _ _ _ _).trans synced
      · exact (lostOf_fault _ _ _ _ _ _ _).trans ((lostOf_mediaEvent _ _ _ _).trans synced)

theorem lostOf_when (p : Nat) (c : Bool) (d : Dev) : (d.when c (setOffline p true)).lostOf p = d.lostOf p := by
  unfold Dev.when
  split
  · exact lostOf_setOffline _ _ _
  · rfl

/-- A stripe that the log does not hold joins it while it has room. -/
theorem lostEntry_loseStripe (pool : tget d.pools (stripePool st) = some x) (here : d.stripe st = some y) (new : d.lostEntry st = none)
    (room : x.lost.length < 65536) : ((loseStripe st cause n d).lostEntry st).isSome := by
  have logged (v : LostStripe) : (mediaEvent evLostStripe st (fault .media 0x0C (0x1000 + stripePool st) 0x10 false
      (((d.modPool (stripePool st) fun x => { x with lost := x.lost ++ [v] }).bump MNT_CNT_LOST.COUNT 1).set MNT_STATUS.LOST))).lostOf
        (stripePool st) = some (x.lost ++ [v]) := by
    rw [lostOf_mediaEvent, lostOf_fault]
    change (tget (tmod d.pools (stripePool st) fun x => { x with lost := x.lost ++ [v] }) (stripePool st)).map (·.lost) = _
    rw [tget_tmod_same, pool]
    rfl
  obtain ⟨v, listed, names⟩ : ∃ v : LostStripe, (loseStripe st cause n d).lostOf (stripePool st) = some (x.lost ++ [v]) ∧ v.stripe = st := by
    unfold loseStripe
    simp only [pool, here, new, Option.isSome_none, Bool.false_eq_true, if_false, if_neg (Nat.not_le.mpr room)]
    exact ⟨_, (lostOf_when _ _ _).trans (logged _), rfl⟩
  rw [Dev.lostEntry_eq, listed]
  simp [names]

end

/-! ### The CLEAR of a stripe (R370) -/

/-- The MAP record that clears a divergent stripe. -/
def clearRec (p st seq : Nat) (asker : Option (Nat × Nat)) (d : Dev) : FRec :=
  { FRec.empty with
    rtype := rtMap, pool := p, receiver := d.twinSide, mapDelta := [.clear st seq], origin := if asker.isSome then .host else .media,
    cmds := (asker.map fun a => ⟨a.1, a.2, 0, 0, 0⟩).toList }

theorem clearRec_simple (p st seq : Nat) (asker : Option (Nat × Nat)) (d : Dev) : Simple (clearRec p st seq asker d) :=
  ⟨rfl, by simp [clearRec, plainTypes], rfl, rfl⟩

theorem clearRec_npage (p st seq : Nat) (asker : Option (Nat × Nat)) (d : Dev) : (clearRec p st seq asker d).npage = 1 :=
  OneDelta.npage ⟨by cases asker <;> simp [clearRec], rfl, rfl, rfl, rfl, rfl, rfl, rfl, rfl⟩ (mopBytes_length _ _ _ _ _ _)

theorem formClear_assigned {p st seq : Nat} {asker : Option (Nat × Nat)} {d : Dev} (room : Roomy p 1 d) : Assigned rtMap p
    (fun r => r.mapDelta = [.clear st seq] ∧ r.cmds = (asker.map fun a => ⟨a.1, a.2, 0, 0, 0⟩).toList) d (formClear p st seq asker d) :=
  formRec_assigned (clearRec_simple p st seq asker d) room (clearRec_npage p st seq asker d) (by decide : rtMap < 3)
    fun _ stamped => ⟨stamped.plain rfl, stamped.cmds⟩

theorem snowSendFor_pools (fn : Nat) (k : Kind) (cls : Nat) (m : Msg) (d : Dev) : (snowSendFor fn k cls m d).pools = d.pools := by
  obtain ⟨f, stores⟩ := snowSendFor_stores fn k cls m d
  exact (congrArg Dev.pools stores :)

theorem Dev.each_pools {α : Type} {l : List α} {f : Dev → α → Dev} {d : Dev} (h : ∀ d a, (f d a).pools = d.pools) : (d.each l f).pools = d.pools := by
  induction l generalizing d with
  | nil => rfl
  | cons a l ih => exact ih.trans (h d a)

/-- A record that enters at once leaves the pools alone. -/
theorem formRec_pools {r : FRec} {d : Dev} (simple : Simple r) (home : d.isHome r.pool = true) (may : d.mayEnter r = true) :
    (formRec r d).pools = d.pools := by
  have here := takeSlot_recAt r d
  have assigned (e : Dev) (slot : Nat) (there : e.recAt slot = some (placed r d)) : (assignSeq slot e).pools = e.pools := by
    unfold assignSeq
    simp only [there, (simple.placed d).refs, List.filter_nil, Dev.each, List.foldl_nil]
    cases snapOf (placed r d).mapDelta <;> rfl
  have sent (e : Dev) (slot : Nat) : (sendRecord slot e).pools = e.pools := by
    unfold sendRecord
    split
    · rfl
    · exact Dev.each_pools (d := modRec slot _ e) fun d s => snowSendFor_pools _ _ _ _ d
  rw [formRec_of_simple simple home may, assignNow_of_simple (simple.placed d) here, Dev.when]
  split
  · exact (sent _ _).trans (assigned _ _ here)
  · exact assigned _ _ here

theorem formClear_pools {p st seq : Nat} {asker : Option (Nat × Nat)} {d : Dev} (room : Roomy p 1 d) : (formClear p st seq asker d).pools = d.pools := by
  obtain ⟨-, home, -⟩ := id room
  exact formRec_pools (clearRec_simple p st seq asker d) home
    (mayEnter_of_roomy (r := clearRec p st seq asker d) room (clearRec_npage p st seq asker d) (by decide : rtMap < 3))

theorem formClear_quiet (p st seq : Nat) (asker : Option (Nat × Nat)) (d : Dev) : Quiet d (formClear p st seq asker d) :=
  .formRec (.refl d) (clearRec_simple p st seq asker d)

/-! ### A stripe is abandoned (R385) -/

/-- The number of the stripe's objects is the result of the command that abandons it. -/
def noteAbandoned (q tag st : Nat) (d : Dev) : Dev :=
  { (d.modCtx q tag fun c => { c with result := (d.stripeObjs st).length }) with
    maint := { d.maint with ops := d.maint.ops.map fun o => if o.q = q ∧ o.tag = tag then { o with step := (d.stripeObjs st).length } else o } }

theorem resolveStripe_abandons {st map q tag : Nat} {y : Stripe} {d : Dev} (here : d.stripe st = some y) (asks : q < noQueue) :
    resolveStripe 2 st map q tag d = formClear (stripePool st) st y.seq (some (q, tag))
      (loseStripe st 3 (d.outOrds st).length (noteAbandoned q tag st d)) := by
  unfold resolveStripe
  simp only [here, if_pos asks]
  rfl

/-- The device once a DIVERGENCE_RESOLVE that this module answers has crossed. -/
def Dev.resolving (d : Dev) (q tag : Nat) : Dev := crossCmd q tag (adminCtx q tag 0xC2 (d.begun q tag))

theorem exec_divergenceResolve {q tag st : Nat} {qu : Queue} {c : Cmd} {s : State} (waits : Waits [0xC2] q tag s.dev qu c) (media : Ready.media s)
    (abandons : pktOpts c.pkt % 4 = 2) (whole : pktField c.pkt 56 8 = 0) (names : pktField c.pkt 48 8 = st)
    (home : s.dev.isHome (stripePool st) = true) (idle : s.dev.stripeBusy st = false) (listed : s.dev.inDivLog st = true) :
    exec (.divergenceResolve q tag) s = s.ok (resolveStripe 2 st 0 q tag (s.dev.resolving q tag)) := by
  have home' : (s.dev.begun q tag).isHome (stripePool st) = true := home
  have idle' : (s.dev.begun q tag).stripeBusy st = false := idle
  have listed' : (s.dev.begun q tag).inDivLog st = true := listed
  change execDivergenceResolve q tag s = _
  rw [execDivergenceResolve, mediaAdmin_runs (by decide) waits media]
  simp [abandons, whole, names, home', idle', listed', Dev.resolving]

theorem RegionKept.modCmd (d : Dev) (q tag : Nat) (f : Cmd → Cmd) : RegionKept d (d.modCmd q tag f) :=
  ⟨rfl, rfl, rfl, rfl, fun _ => rfl, fun _ _ => rfl⟩

theorem resolving_region (q tag : Nat) (d : Dev) : RegionKept d (d.resolving q tag) := by
  have opened (d : Dev) : RegionKept d (adminCtx q tag 0xC2 d) := ⟨rfl, rfl, rfl, rfl, fun _ => rfl, fun _ _ => rfl⟩
  exact (RegionKept.modCmd _ _ _ _).after ((opened _).after (.modCmd _ _ _ _))

theorem noteAbandoned_region (q tag st : Nat) (d : Dev) : RegionKept d (noteAbandoned q tag st d) :=
  ⟨rfl, rfl, rfl, rfl, fun _ => rfl, fun _ _ => rfl⟩

theorem resolving_crossed {ops : List Nat} {q tag st : Nat} {qu : Queue} {c : Cmd} {d : Dev} (waits : Waits ops q tag d qu c) :
    Crossed q tag (noteAbandoned q tag st (d.resolving q tag)) :=
  crossed_of_rings rfl (crossed_crossCmd (d := adminCtx q tag 0xC2 (d.begun q tag)) waits.cmdAt_begun)

theorem execDivergenceResolve_abandons {q tag st : Nat} {qu : Queue} {c : Cmd} {x : Pool} {y : Stripe} {s : State}
    (waits : Waits [0xC2] q tag s.dev qu c) (media : Ready.media s) (asks : q < noQueue) (abandons : pktOpts c.pkt % 4 = 2)
    (whole : pktField c.pkt 56 8 = 0) (names : pktField c.pkt 48 8 = st) (home : s.dev.isHome (stripePool st) = true)
    (idle : s.dev.stripeBusy st = false) (listed : s.dev.inDivLog st = true) (pool : tget s.dev.pools (stripePool st) = some x)
    (here : s.dev.stripe st = some y) (new : s.dev.lostEntry st = none) (space : x.lost.length < 65536) (room : Roomy (stripePool st) 1 s.dev) :
    Does (.divergenceResolve q tag) s fun t => (t.dev.lostEntry st).isSome ∧ Carried (stripePool st) q tag [.clear st y.seq] s.dev t.dev := by
  refine ⟨_, exec_divergenceResolve waits media abandons whole names home idle listed, ?_⟩
  dsimp only
  rw [resolveStripe_abandons (d := s.dev.resolving q tag) here asks]
  let d : Dev := noteAbandoned q tag st (s.dev.resolving q tag)
  let e : Dev := loseStripe st 3 ((s.dev.resolving q tag).outOrds st).length d
  have region : RegionKept s.dev e := (resolving_region q tag s.dev).trans ((noteAbandoned_region q tag st _).trans (loseStripe_region _ _ _ _))
  have quiet : Quiet d e := .loseStripe (.refl d) _ _ _
  have room : Roomy (stripePool st) 1 e := region.roomy room
  refine ⟨?_, (formClear_assigned room).base region.firn region.time, ?_⟩
  · rw [Dev.lostEntry_eq, Dev.lostOf_of_pools (formClear_pools room), ← Dev.lostEntry_eq]
    exact lostEntry_loseStripe (d := d) pool here new space
  · exact crossed_of_rings ((formClear_quiet _ _ _ _ e).rings.trans quiet.rings) (resolving_crossed waits)

end Sys2Proof.Machine
end

section
/-! PROOFS. What a message of the Snowbridge leaves alone (R210, R212, R222, R508): of the twin it changes the messages that wait for the link
cipher alone, and of the registers those of Rime. -/

namespace Sys2Proof.Machine

/-- A register field of the media half outside the fault block. -/
abbrev Field.ofMedia (g : Field) : Prop := g.unreported ∧ g.space = 1

theorem Field.ofMedia.ne_host {g f : Field} (h : g.ofMedia) (host : f.space = 0 ∧ f.off < 2 ^ 28 ∧ f.lsb < 64) : g.key ≠ f.key := by
  obtain ⟨⟨-, off, lsb, -⟩, space⟩ := h
  obtain ⟨other, off', lsb'⟩ := host
  unfold Field.key
  rw [space, other]
  omega

section
variable {d : Dev} {g : Field}

theorem rd_takeCounter (h : g.ofMedia) (n : Nat) (d : Dev) : (takeCounter n d).2.rd g = d.rd g := by
  have warned : g.key ≠ RIM_STATUS.NONCE_WARN.key := h.ne_host (by decide)
  unfold takeCounter
  extract_lets k nx warn e1 e2
  have told : e2.rd g = d.rd g := by
    dsimp only [e2]
    rw [Dev.rd_when, fnEvent, rd_postEvent h.1, Dev.rd_set_ne warned]
    exact ite_self _
  split
  · rfl
  · exact told

theorem rd_linkCompare (h : g.ofMedia) (len : Nat) (d : Dev) : (linkCompare len d).2.rd g = d.rd g := by
  have retried : g.key ≠ RIM_CNT_RETRIES.COUNT.key := h.ne_host (by decide)
  have counted : g.key ≠ RIM_CNT_BLOCKS.COUNT.key := h.ne_host (by decide)
  have served (n : Nat) (d : Dev) : (drbgServe n d).rd g = d.rd g := by
    simp only [drbgServe, Dev.rd_ite, reseed, Dev.rd_modRime, ite_self]
  simp only [linkCompare, Dev.bump, Dev.rd_wr_ne _ _ counted, Dev.rd_when, Dev.rd_wr_ne _ _ retried, Dev.rd_modRime, served, ite_self]
  rfl

theorem rd_sealSnow (h : g.ofMedia) (b : Bytes) (d : Dev) : (sealSnow b d).2.rd g = d.rd g := by
  have refused : g.key ≠ RIM_CNT_NONCE_EXH.COUNT.key := h.ne_host (by decide)
  have taken := rd_takeCounter h linkSlot d
  unfold sealSnow
  split
  · rfl
  · split <;> rename_i eq <;> rw [eq] at taken
    · exact (Dev.rd_wr_ne _ _ refused).trans taken
    · exact (rd_linkCompare h _ _).trans taken

theorem rd_snowSendFor (h : g.ofMedia) (fn : Nat) (k : Kind) (cls : Nat) (m : Msg) (d : Dev) : (snowSendFor fn k cls m d).rd g = d.rd g := by
  have sealed := rd_sealSnow h (snowBytes k m) d
  have queued (l : LinkEnd) (cls : Nat) (b : Bytes) (d : Dev) : (queueFrames l k cls fn b d).rd g = d.rd g :=
    Dev.rd_congr (queueFrames_only _ _ _ _ _ _).1.regs g
  unfold snowSendFor
  split
  · rfl
  · split
    · rfl
    · split
      · split <;> rename_i eq <;> rw [eq] at sealed
        · exact sealed
        · exact (queued _ _ _ _).trans sealed
      · exact queued _ _ _ _

theorem rd_snowSend (h : g.ofMedia) (k : Kind) (cls : Nat) (m : Msg) (d : Dev) : (snowSend k cls m d).rd g = d.rd g := rd_snowSendFor h _ _ _ _ _

/-- Of what the media half stores, a message changes those that wait for the link cipher. -/
theorem snowSendFor_sealed (fn : Nat) (k : Kind) (cls : Nat) (m : Msg) (d : Dev) :
    ∃ l, StoresKept (d.modTwin fun t => { t with sealed := l }) (snowSendFor fn k cls m d) := by
  have same : d = d.modTwin fun t => { t with sealed := d.twin.sealed } := rfl
  have sealed : (sealSnow (snowBytes k m) d).2.part .stores = d.part .stores := part_sealSnow nofun
  unfold snowSendFor
  split
  · exact ⟨_, .of_part (congrArg (Dev.part .stores) same)⟩
  · split
    · exact ⟨_, .of_part rfl⟩
    · refine ⟨d.twin.sealed, .of_part ?_⟩
      rw [← same]
      split
      · split <;> rename_i eq <;> rw [eq] at sealed
        · exact sealed
        · simpa using sealed
      · simp

theorem snowSend_sealed (k : Kind) (cls : Nat) (m : Msg) (d : Dev) :
    ∃ l, StoresKept (d.modTwin fun t => { t with sealed := l }) (snowSend k cls m d) := snowSendFor_sealed _ _ _ _ _

end
end Sys2Proof.Machine
end

section
/-! PROOFS. ROLE_SWAP, DEVICE_ZEROIZE, DIAG_SELFTEST and DIAG_INJECT (R230, R538 to R540, R779, R780). -/

namespace Sys2Proof.Machine

section
variable {q tag : Nat} {qu : Queue} {c : Cmd} {s : State}

/-! ### ROLE_SWAP (R538 to R540) -/

theorem exec_roleSwap {pools dest move : Nat} (waits : Waits [0xC4] q tag s.dev qu c) (media : Ready.media s) (names : pktField c.pkt 48 1 = pools)
    (goes : pktField c.pkt 49 1 = dest) (side : dest ≤ 1) (there : ∀ p < 8, bit pools p = true → (tget s.dev.pools p).isSome)
    (paired : s.dev.tstate = 5) (coordinates : s.dev.twinSide = 0) (whole : s.dev.twin.mirrorOnly = false)
    (partner : s.dev.twin.partner.mirrorOnly = false) (idle : s.dev.twin.swap = none)
    (moves : move = (s.dev.pools.filter fun e => bit pools e.1 && e.2.home != dest).foldl (fun m e => setBit m e.1 true) 0) (any : move ≠ 0) :
    exec (.roleSwap q tag) s = s.ok (snowSend .coord 3 ⟨0xFF, 0, 0, 0, [20, move, dest], []⟩
      (beginSwap move dest (some (q, tag)) (crossCmd q tag (s.dev.begun q tag)))) := by
  let d : Dev := s.dev.begun q tag
  have known : ¬ (1 < dest ∨ (List.range 8).any (fun p => bit pools p && (tget d.pools p).isNone) = true) := by
    rintro (far | missing)
    · exact absurd side (Nat.not_le.mpr far)
    · obtain ⟨p, small, bad⟩ := List.any_eq_true.mp missing
      obtain ⟨set, none⟩ := (Bool.and_eq_true _ _).mp bad
      have here := there p (List.mem_range.mp small) set
      exact absurd none (by simp [d, Dev.begun, Option.isSome_iff_ne_none.mp here])
  have serves : ¬ (d.tstate ≠ 5 ∨ (d.twin.mirrorOnly && dest == d.twinSide) = true) := by
    change ¬ (s.dev.tstate ≠ 5 ∨ (s.dev.twin.mirrorOnly && dest == s.dev.twinSide) = true)
    simp [paired, whole]
  have here : d.twinSide = 0 := coordinates
  have run : coordinateSwap pools dest (some (q, tag)) (crossCmd q tag d) =
      snowSend .coord 3 ⟨0xFF, 0, 0, 0, [20, move, dest], []⟩ (beginSwap move dest (some (q, tag)) (crossCmd q tag d)) := by
    have paired' : (crossCmd q tag d).tstate = 5 := paired
    have partner' : (crossCmd q tag d).twin.partner.mirrorOnly = false := partner
    have idle' : (crossCmd q tag d).twin.swap = none := idle
    have moves' : ((crossCmd q tag d).pools.filter fun e => bit pools e.1 && e.2.home != dest).foldl (fun m e => setBit m e.1 true) 0 = move :=
      moves.symm
    unfold coordinateSwap
    simp [paired', partner', idle', moves', any]
  change execRoleSwap q tag s = _
  rw [execRoleSwap, mediaAdmin_runs (by decide) waits media, names, goes, if_neg known, if_neg serves, if_pos here, run]

theorem execRoleSwap_begins {pools dest move : Nat} (waits : Waits [0xC4] q tag s.dev qu c) (media : Ready.media s) (names : pktField c.pkt 48 1 = pools)
    (goes : pktField c.pkt 49 1 = dest) (side : dest ≤ 1) (there : ∀ p < 8, bit pools p = true → (tget s.dev.pools p).isSome)
    (paired : s.dev.tstate = 5) (coordinates : s.dev.twinSide = 0) (whole : s.dev.twin.mirrorOnly = false)
    (partner : s.dev.twin.partner.mirrorOnly = false) (idle : s.dev.twin.swap = none)
    (moves : move = (s.dev.pools.filter fun e => bit pools e.1 && e.2.home != dest).foldl (fun m e => setBit m e.1 true) 0) (any : move ≠ 0) :
    Does (.roleSwap q tag) s fun t => Crossed q tag t.dev ∧ t.dev.is TWN_STATUS.SWAP_BUSY = true ∧
      t.dev.twin.swap = some ⟨move, dest, some (q, tag), false, s.dev.tbMedia, move⟩ := by
  refine ⟨_, exec_roleSwap waits media names goes side there paired coordinates whole partner idle moves any, ?_⟩
  let d : Dev := beginSwap move dest (some (q, tag)) (crossCmd q tag (s.dev.begun q tag))
  have quiet (m : Msg) : Quiet d (snowSend .coord 3 m d) := .snowSendFor (.refl d) _ _ _ _
  refine ⟨crossed_of_rings (quiet _).rings (crossed_crossCmd waits.cmdAt_begun), ?_, ?_⟩
  · dsimp only
    rw [Dev.is, rd_snowSend (by decide)]
    exact Dev.is_set rfl
  · obtain ⟨l, stores⟩ := snowSend_sealed .coord 3 ⟨0xFF, 0, 0, 0, [20, move, dest], []⟩ d
    dsimp only
    rw [stores.twin]
    rfl

/-! ### DEVICE_ZEROIZE (R230) -/

theorem execDeviceZeroize_zeroizes (waits : Waits [0xC5] q tag s.dev qu c) : Does (.deviceZeroize q tag) s fun t => t.dev.rime.slots = [] ∧
    t.dev.is RIM_STATUS.ZEROIZED = true ∧ (bit (pktOpts c.pkt) 0 = true → t.dev.rime.devHost = none) := by
  let incl := bit (pktOpts c.pkt) 0
  let d : Dev := zeroizeAt .host incl (s.dev.begun q tag)
  have run : execDeviceZeroize q tag s = s.ok (complete q tag stSuccess 0 d) := by
    rw [execDeviceZeroize, runCmd_admin (by decide) waits]
  have kept := complete_units q tag stSuccess 0 d
  obtain ⟨slots, devKey⟩ := zeroize_keys incl (Half.host == .media || (s.dev.begun q tag).schUp) (s.dev.begun q tag)
  have zeroized := zeroize_zeroized incl (Half.host == .media || (s.dev.begun q tag).schUp) (s.dev.begun q tag)
  refine ⟨_, run, ?_, ?_, fun asks => ?_⟩
  · exact (congrArg Rime.slots kept.rime).trans slots
  · dsimp only
    rw [Dev.is, kept.rd _ (by decide) (by decide) (by decide)]
    exact zeroized
  · exact (congrArg Rime.devHost kept.rime).trans (devKey asks)

/-! ### DIAG_SELFTEST (R779) -/

theorem execDiagSelftest_passes {unit : Nat} (waits : Waits [0xE0] q tag s.dev qu c) (names : pktField c.pkt 48 1 = unit)
    (there : pktField c.pkt 49 1 < testUnits unit) (media : unit = 2 ∨ unit = 3 → Ready.media s) :
    Does (.diagSelftest q tag 0) s fun t => Answered q tag 0 0 qu c s.dev t.dev := by
  have passes : (testStages unit).contains 0 = false := by
    unfold testStages
    split <;> rfl
  have needed : needMedia q tag (unit == 2 || unit == 3) (complete q tag stSuccess 0) (s.dev.begun q tag) =
      complete q tag stSuccess 0 (s.dev.begun q tag) := by
    by_cases need : unit = 2 ∨ unit = 3
    · exact needMedia_runs (media need) _ _
    · refine if_neg ?_
      simp [not_or.mp need]
  have run : execDiagSelftest q tag 0 s = s.ok (complete q tag stSuccess 0 (s.dev.begun q tag)) := by
    rw [execDiagSelftest, runCmd_admin (by decide) waits]
    simp only [names, if_neg (Nat.not_le.mpr there), passes, Bool.false_eq_true, if_false]
    exact congrArg s.ok needed
  exact ⟨_, run, waits.answered_now rfl rfl rfl rfl (fun _ _ => rfl) (.of_eq rfl)⟩

end

/-! ### A report makes the first record of its source (R759, R763) -/

section
variable {d : Dev} {h : Half} {src : Nat}

/-- The ledger of a half takes a record of a source that has none: it is not in summary mode, and has room. -/
structure LedgerOpen (h : Half) (src : Nat) (d : Dev) : Prop where
  mode : d.summaryMode h = false
  fresh : (d.led h).fresh < 4096
  room : (d.led h).recs.length < 16384
  new : ∀ r ∈ (d.led h).recs, r.source ≠ src

theorem Dev.recs_modLed {f : Ledger → Ledger} (kept : ∀ l, (f l).recs = l.recs) (k : Half) : ((d.modLed k f).led h).recs = (d.led h).recs := by
  by_cases same : halfNum h = halfNum k
  · unfold Dev.led Dev.modLed
    rw [same, tget_tput_same]
    exact kept _
  · unfold Dev.led Dev.modLed
    rw [tget_tput_ne _ _ same]

theorem LedgerOpen.of_ledger {e : Dev} (o : LedgerOpen h src d) (same : e.ledger = d.ledger)
    (mode : e.rd (FLT_STATUS.SUMMARY_MODE h) = d.rd (FLT_STATUS.SUMMARY_MODE h)) : LedgerOpen h src e := by
  have led : e.led h = d.led h := by rw [Dev.led, same, Dev.led]
  refine ⟨?_, led ▸ o.fresh, led ▸ o.room, led ▸ o.new⟩
  rw [Dev.summaryMode, Dev.is, mode]
  exact o.mode

theorem LedgerOpen.wr (o : LedgerOpen h src d) {f : Field} (other : (FLT_STATUS.SUMMARY_MODE h).key ≠ f.key) (v : Nat) : LedgerOpen h src (d.wr f v) :=
  o.of_ledger rfl (Dev.rd_wr_ne d v other)

theorem LedgerOpen.rollInterval (o : LedgerOpen h src d) (t : Nat) : LedgerOpen h src (rollInterval h t d) := by
  have same : d.when (d.summaryMode h && decide ((d.led h).fresh ≤ 256 ∨ (d.led h).interval + 1 < t / ms))
      (fun d => d.clr (FLT_STATUS.SUMMARY_MODE h)) = d := by simp [o.mode, Dev.when]
  unfold Machine.rollInterval
  dsimp only
  rw [same]
  split
  · exact o
  · refine ⟨o.mode, ?_, ?_, ?_⟩ <;> rw [Dev.led_modLed]
    · exact Nat.zero_lt_succ _
    · exact o.room
    · exact o.new

theorem LedgerOpen.stickySummary (o : LedgerOpen h src d) (block sev : Nat) : LedgerOpen h src (stickySummary h block sev d) := by
  have put {f : Field} (other : (FLT_STATUS.SUMMARY_MODE h).key ≠ f.key) (c : Bool) (n : Nat) {e : Dev} (o : LedgerOpen h src e) :
      LedgerOpen h src (e.when c fun d => d.putBit f n true) := by
    unfold Dev.when
    split
    · exact o.wr other _
    · exact o
  exact put (by cases h <;> decide) _ _ (put (by cases h <;> decide) _ _ o)

theorem recs_of_ledger {e : Dev} (same : e.ledger = d.ledger) : (e.led h).recs = (d.led h).recs := by rw [Dev.led, same, Dev.led]

theorem sendFaultEvent_ledger (k : Half) (x code count : Nat) (summary twin : Bool) (d : Dev) :
    (sendFaultEvent k x code count summary twin d).ledger = d.ledger := by
  have posted (e : Event) (d : Dev) : (postToPfs e d).ledger = d.ledger := by
    unfold postToPfs Dev.each
    simp only [List.foldl_cons, List.foldl_nil, (postEvent_units _ _ _).ledger]
  unfold sendFaultEvent
  extract_lets e1 e2
  have told : e2.ledger = d.ledger := by
    dsimp only [e2]
    unfold Dev.when schSendFree
    split
    · exact schSend_ledger _ _ _ _ _
    · rfl
  cases k
  · exact (posted _ _).trans told
  · exact told

theorem recs_sourceEvent (k : Half) (x code n t : Nat) (first summary twin : Bool) :
    ((sourceEvent k x code n t first summary twin d).led h).recs = (d.led h).recs := by
  unfold sourceEvent
  extract_lets sev
  split
  · exact (recs_of_ledger (sendFaultEvent_ledger _ _ _ _ _ _ _)).trans (Dev.recs_modLed (by intro; rfl) k)
  · split
    · exact (recs_of_ledger (sendFaultEvent_ledger _ _ _ _ _ _ _)).trans (Dev.recs_modLed (by intro; rfl) k)
    · exact Dev.recs_modLed (by intro; rfl) k

theorem recs_lastGasp (k : Half) : ((lastGasp k d).led h).recs = (d.led h).recs := by
  unfold lastGasp
  extract_lets l g e ring
  have ringed (d : Dev) : ((ring d).led h).recs = (d.led h).recs := Dev.recs_modLed (by intro; rfl) .media
  have noted : (e.led h).recs = (d.led h).recs :=
    (recs_of_ledger (d := d.modLed k fun l => { l with gaspSeq := l.gaspSeq + 1 }) rfl).trans (Dev.recs_modLed (by intro; rfl) k)
  cases k
  · have own : ((e.modLed .host fun l => { l with gasps := [g] }).led h).recs = (e.led h).recs := Dev.recs_modLed (by intro; rfl) .host
    dsimp only
    unfold Dev.when
    split
    · exact (ringed _).trans (own.trans noted)
    · exact own.trans noted
  · exact (ringed _).trans noted

/-- The first report of a source makes its record. -/
theorem reports_records (o : LedgerOpen h src d) (n code reporter t : Nat) (twin injected : Bool) :
    ∃ r ∈ ((reports h n src code reporter t twin injected d).led h).recs, r.source = src ∧ r.code = code ∧ r.count = min n 65535 ∧
      r.injected = injected := by
  unfold reports
  extract_lets e1 sev e2 ep mine l n' others e3 e4 noted e5
  have open2 : LedgerOpen h src e2 := ((o.wr (by cases h <;> decide) _).rollInterval t).stickySummary _ _
  have none : ¬ (l.recs.any mine = true) := by
    rw [Bool.not_eq_true, List.any_eq_false]
    intro r mem
    simp [mine, open2.new r mem]
  have calm : e4 = e3 := by
    have few : n' ≤ 4096 := by
      have one : b2n (!l.seen.contains src) ≤ 1 := by cases l.seen.contains src <;> decide
      have fresh : l.fresh < 4096 := open2.fresh
      omega
    simp [e4, Dev.when, Nat.not_lt.mpr (Nat.le_add_right_of_le few)]
  have detailed : ¬ (e4.summaryMode h = true) := by
    rw [calm]
    exact Bool.eq_false_iff.mp open2.mode
  have space : ¬ 16384 ≤ l.recs.length := Nat.not_le.mpr open2.room
  have gasped (c : Bool) (d : Dev) : ((d.when c (lastGasp h)).led h).recs = (d.led h).recs := by
    unfold Dev.when
    split
    · exact recs_lastGasp h
    · rfl
  rw [gasped]
  dsimp only [e5]
  rw [if_neg none, if_neg detailed, if_neg space, recs_sourceEvent, Dev.led_modLed]
  exact ⟨_, List.mem_append_right _ List.mem_cons_self, rfl, rfl, rfl, rfl⟩

end

/-! ### DIAG_INJECT (R780) -/

section
variable {q tag : Nat} {qu : Queue} {c : Cmd} {s : State}

theorem execDiagInject_reports {src : Nat} {h : Half} (waits : Waits [0xE1] q tag s.dev qu c) (names : pktField c.pkt 52 4 = src)
    (side : srcHalf src = h) (block : 0 < srcBlock src) (known : srcBlock src ≤ 16) (inst : src % 2 ^ 24 ≤ 0xFFFFFE)
    (one : pktField c.pkt 58 2 = 1) (once : pktField c.pkt 60 2 = 1) (media : h = .media → Ready.media s) (o : LedgerOpen h src s.dev) :
    Does (.diagInject q tag) s fun t => Gone q tag t.dev ∧
      ∃ r ∈ (t.dev.led h).recs, r.source = src ∧ r.code = pktField c.pkt 56 2 ∧ r.count = 1 ∧ r.injected = true := by
  let d : Dev := s.dev.begun q tag
  let e : Dev := report h src (pktField c.pkt 56 2) (srcId h 8 0) (d.now h) false true d
  have legal : ¬ (srcBlock src = 0 ∨ 16 < srcBlock src ∨ 1 = 0 ∨ 1 = 0 ∨ 0xFFFFFE < src % 2 ^ 24 + 1 - 1) := by omega
  have needed (f : Dev → Dev) : needMedia q tag (h == .media) f d = f d := by
    cases h
    · exact if_neg (by simp)
    · exact needMedia_runs (media rfl) _ _
  have run : execDiagInject q tag s = s.ok (complete q tag stSuccess 1 e) := by
    rw [execDiagInject, runCmd_admin (by decide) waits]
    simp only [names, side, one, once, if_neg legal]
    refine congrArg s.ok ((needed _).trans ?_)
    simp [Dev.each, injectSource, List.range_succ, e]
  have made : LedgerOpen h src d := o.of_ledger rfl rfl
  have kept := complete_units q tag stSuccess 1 e
  refine ⟨_, run, complete_gone _ _ _ _ _, ?_⟩
  dsimp only
  rw [Dev.led, kept.ledger]
  exact reports_records made 1 _ _ _ false true

end

/-- Settles O13: an abandoned stripe enters the log (`lostEntry_loseStripe`), and since that leaves the region as it was (`loseStripe_region`) its
CLEAR is assigned at once; a swap begins before its COORD message is sent, which leaves the twin's part alone (`snowSend_sealed`); a completion
leaves Rime, the ledgers and the registers of the units alone (`complete_units`); a report of a new source makes its record
(`reports_records`). -/
theorem resolveSwapZeroizeAndDiagnosticsAct : Obligations.ResolveSwapZeroizeAndDiagnosticsAct := by
  unfold Obligations.ResolveSwapZeroizeAndDiagnosticsAct
  refine ⟨?resolve, ?swap, ?zeroize, ?selftest, ?inject⟩
  case resolve =>
    intro q tag st qu c x y s waits media asks abandons whole names home idle listed pool here new space room
    exact execDivergenceResolve_abandons waits media asks abandons whole names home idle listed pool here new space room
  case swap =>
    intro q tag pools dest move qu c s waits media names goes side there paired coordinates whole partner idle moves any
    exact execRoleSwap_begins waits media names goes side there paired coordinates whole partner idle moves any
  case zeroize => exact fun q tag qu c s waits => execDeviceZeroize_zeroizes waits
  case selftest => exact fun q tag unit qu c s waits names there media => execDiagSelftest_passes waits names there media
  case inject =>
    intro q tag src h qu c s waits names side block known inst one once media mode fresh room new
    exact execDiagInject_reports waits names side block known inst one once media ⟨mode, fresh, room, new⟩

end Sys2Proof.Machine
end

section
/-! PROOFS. The features that the media half keeps: a pool's geometry, a witness that is cleared, the start-up window, and a register (R348, R618,
R624, R752). -/

namespace Sys2Proof.Machine

section
variable {fid q tag : Nat} {qu : Queue} {c : Cmd} {s : State}

theorem mediaFeature_runs (feature : Ready.feature fid q tag qu c s) (media : Ready.media s) (f : Queue → Cmd → Dev → Dev) :
    mediaFeature fid q tag f s.dev = f qu c (s.dev.begun q tag) := by
  obtain ⟨waits, names⟩ := feature
  have runs := needMedia_runs (q := q) (tag := tag) media true (f qu c)
  rw [needMedia, Bool.true_and] at runs
  rw [mediaFeature, runFeature, runCmd_admin (by decide) waits, if_pos names]
  exact runs

/-! ### A pool's geometry (R348) -/

theorem execPoolGeometry_defines {p v : Nat} (feature : Ready.feature 0x20 q tag qu c s) (media : Ready.media s) (paired : s.dev.tstate = 5)
    (names : pktField c.pkt 49 1 = p) (small : p < 8) (value : pktField c.pkt 56 8 = v) (good : geometryOk v = true)
    (empty : s.dev.poolStripes p = []) : Does (.poolGeometry q tag) s fun t => Gone q tag t.dev ∧
      ∃ home, tget t.dev.pools p = some (Pool.make v 0 home) := by
  let d : Dev := definePool p v (s.dev.begun q tag)
  let m : Msg := ⟨p, 0, 0, 0, [14, p, v], []⟩
  have run : execPoolGeometry q tag s = s.ok (complete q tag stSuccess 0 (snowSend .coord 3 m d)) := by
    have paired' : (s.dev.begun q tag).tstate = 5 := paired
    have empty' : (s.dev.begun q tag).poolStripes p = [] := empty
    have legal : ¬ (7 < p ∨ (!geometryOk v) = true) := by
      simpa [good] using Nat.le_of_lt_succ small
    rw [execPoolGeometry, mediaFeature_runs feature media]
    simp only [names, value, if_neg legal, paired', empty', ne_eq, not_true_eq_false, if_false, List.isEmpty_nil, Bool.not_true,
      Bool.false_eq_true]
    rfl
  refine ⟨_, run, complete_gone _ _ _ _ _, b2n (bit ((s.dev.begun q tag).rd TWN_HOME.PREF) p), ?_⟩
  dsimp only
  rw [(complete_fabric _ _ _ _ _).pools, (snowSend_fabric _ _ _ _).pools]
  exact tget_tput_same _ _ _

/-! ### What the designations and the window of the pair are (R618, R624) -/

/-- Of what the twin keeps, only the messages that wait for the link cipher may have changed. -/
def PairKept (d e : Dev) : Prop := ∃ l, e.twin = { d.twin with sealed := l }

namespace PairKept
variable {a b c d e : Dev}

theorem of_twin (same : e.twin = d.twin) : PairKept d e := ⟨d.twin.sealed, same⟩

theorem refl (d : Dev) : PairKept d d := .of_twin rfl

theorem trans (h : PairKept a b) (k : PairKept b c) : PairKept a c := by
  obtain ⟨l, first⟩ := h
  obtain ⟨m, second⟩ := k
  exact ⟨m, by rw [second, first]⟩

theorem after (k : PairKept b c) (h : PairKept a b) : PairKept a c := h.trans k

theorem each {α : Type} {l : List α} {f : Dev → α → Dev} (h : ∀ d a, PairKept d (f d a)) : PairKept d (d.each l f) := by
  induction l generalizing d with
  | nil => exact refl d
  | cons x l ih => exact (h d x).trans ih

end PairKept

theorem snowSend_pair (k : Kind) (cls : Nat) (m : Msg) (d : Dev) : PairKept d (snowSend k cls m d) := by
  obtain ⟨l, stores⟩ := snowSend_sealed k cls m d
  exact ⟨l, stores.twin⟩

theorem finish_pair (q tag st res : Nat) (d : Dev) : PairKept d (finish q tag st res d) := by
  unfold finish
  split
  · exact snowSend_pair _ _ _ _
  · exact .of_twin (complete_units _ _ _ _ _).twin

theorem listOver_pair (d : Dev) : PairKept d (listOver d) := by
  unfold listOver
  extract_lets busy
  split
  · exact .refl d
  · exact .each fun d o => (finish_pair _ _ _ _ _).after (.of_twin rfl)

theorem submitNvme_pair (n p : Nat) (d : Dev) : PairKept d (submitNvme n p d) := by
  induction n generalizing d with
  | zero => exact .refl d
  | succ n ih =>
    unfold submitNvme
    extract_lets ready
    split
    next e none => exact .of_twin (StoresKept.of_part ((part_snd_eq none).trans part_serveNext)).twin
    next cid c e some =>
      have chosen : PairKept d e := .of_twin (StoresKept.of_part ((part_snd_eq some).trans part_serveNext)).twin
      exact chosen.trans ((ih _).after (.of_twin rfl))

theorem releaseNvme_pair (d : Dev) : PairKept d (releaseNvme d) := by
  unfold releaseNvme
  extract_lets e
  have dropped : PairKept d e := .of_twin rfl
  split
  · exact dropped
  · exact dropped.trans (.each fun d p => submitNvme_pair _ _ _)

theorem issueNvme_pair {i op lba cls : Nat} {admin : Bool} {what : DrvFor} {data : Bytes} (d : Dev) :
    PairKept d (issueNvme i admin op lba cls what data d) := by
  unfold issueNvme
  split
  · exact .refl d
  · exact (releaseNvme_pair _).after (.of_twin rfl)

theorem writeList_pair (i : Nat) (d : Dev) : PairKept d (writeList i d) := by
  unfold writeList
  split
  · exact .refl d
  · exact (issueNvme_pair _).after (.of_twin rfl)

/-- A witness of a number below 5 changed. -/
theorem modWitness_witness {w : Nat} (small : w < 5) (f : Witness → Witness) (d : Dev) :
    (modWitness w f d).twin.witness[w]? = some (f ((d.twin.witness[w]?).getD ⟨0, false, ⟨0, 0, 0, 0⟩⟩)) := by
  simp [modWitness, small]

/-- The witness list without a designation, before it is written. -/
def Dev.undesignated (d : Dev) (w : Nat) : Dev :=
  modWitness w (fun x => { x with block := ⟨0, 0, ((d.twin.witness[w]?).map (·.block.epoch)).getD 0, 0⟩ }) (setWitness w 0 d)

theorem undesignated_witness {w : Nat} (small : w < 5) (d : Dev) : ((d.undesignated w).twin.witness[w]?).map (·.nguid) = some 0 := by
  have cleared : (setWitness w 0 d).twin.witness[w]? = some ⟨0, false, ⟨0, 0, 0, 0⟩⟩ :=
    modWitness_witness small (fun _ => ⟨0, false, ⟨0, 0, 0, 0⟩⟩) d
  rw [Dev.undesignated, modWitness_witness small, cleared]
  rfl

theorem designate_pair (w q tag : Nat) (d : Dev) : PairKept (d.undesignated w) (designate w 0 q tag d) := by
  have none : (d.undesignated w).drives.table.find? (fun e => e.2.nguid == 0 && e.2.state == 3 && (0 : Nat) != 0) = none := by simp
  unfold designate
  dsimp only
  rw [show (modWitness w (fun x => { x with block := ⟨0, 0, ((d.twin.witness[w]?).map (·.block.epoch)).getD 0, 0⟩ }) (setWitness w 0 d)) =
    d.undesignated w from rfl, none]
  dsimp only
  rw [if_pos rfl]
  exact (listOver_pair _).after (.after (.each fun d i => writeList_pair i d) (.after (.of_twin rfl) (snowSend_pair _ _ _ _)))

theorem execWitnessSet_clears {w : Nat} {ports : List Nat} (feature : Ready.feature 0x21 q tag qu c s) (media : Ready.media s)
    (clears : Ready.clearWitness w c s) :
    Does (.witnessSet q tag ports) s fun t => (t.dev.twin.witness[w]?).map (·.nguid) = some 0 := by
  obtain ⟨paired, side, names, small, none⟩ := clears
  let d : Dev := crossCmd q tag (s.dev.begun q tag)
  have run : execWitnessSet q tag ports s = s.ok (designate w 0 q tag d) := by
    have paired' : (s.dev.begun q tag).tstate = 5 := paired
    have side' : (s.dev.begun q tag).twinSide = 0 := side
    rw [execWitnessSet, mediaFeature_runs feature media]
    simp [paired', side', names, none, Nat.not_lt.mpr (Nat.le_of_lt_succ small), d]
  obtain ⟨l, same⟩ := designate_pair w q tag d
  refine ⟨_, run, ?_⟩
  dsimp only
  rw [same]
  exact undesignated_witness small d

/-! ### The start-up window (R624) -/

theorem execEnumWindow_sets {n : Nat} (feature : Ready.feature 0x22 q tag qu c s) (media : Ready.media s) (alone : s.dev.tstate ≠ 5)
    (value : pktField c.pkt 56 4 = n) (range : n = 0 ∨ 1000 ≤ n ∧ n ≤ 600000) :
    Does (.enumWindow q tag) s fun t => t.dev.twin.window = n := by
  let d : Dev := crossCmd q tag (s.dev.begun q tag)
  have run : execEnumWindow q tag s = s.ok (windowNow n q tag 0 d) := by
    have alone' : (s.dev.begun q tag).tstate ≠ 5 := alone
    have legal : ¬ (n ≠ 0 ∧ (n < 1000 ∨ 600000 < n)) := by omega
    rw [execEnumWindow, mediaFeature_runs feature media]
    simp only [value, if_neg legal, if_neg alone', d]
  have kept : PairKept (d.modTwin fun t => { t with window := n }) (windowNow n q tag 0 d) :=
    (listOver_pair _).after (.after (.each fun d i => writeList_pair i d) (.of_twin rfl))
  obtain ⟨l, same⟩ := kept
  refine ⟨_, run, ?_⟩
  dsimp only
  rw [same]
  rfl

/-! ### A register of the media half (R752) -/

theorem rd_mntRate_write {value : Nat} (d : Dev) : ∀ f ∈ regMNT_RATE.fields, (regMNT_RATE.write 0 4 value d).rd f = bits value f.lsb f.width := by
  have inside : ∀ f ∈ regMNT_RATE.fields, f.lsb + f.width ≤ 8 * 4 := by decide
  have cut (f : Field) : bits (mergeBytes (regMNT_RATE.value d.rd) 0 4 value) f.lsb f.width % 2 ^ f.width =
      bits (mergeBytes (regMNT_RATE.value d.rd) 0 4 value) f.lsb f.width := Nat.mod_mod _ _
  intro f mem
  rw [← bits_mergeBytes (inside f mem), ← cut]
  simp only [regMNT_RATE, List.mem_cons, List.not_mem_nil, or_false] at mem
  rcases mem with rfl | rfl | rfl
  · exact (Dev.rd_wr_ne _ _ (by decide)).trans ((Dev.rd_wr_ne _ _ (by decide)).trans (Dev.rd_wr _ _ _))
  · exact (Dev.rd_wr_ne _ _ (by decide)).trans (Dev.rd_wr _ _ _)
  · exact Dev.rd_wr _ _ _

/-- A write of MNT_RATE leaves every other register as it is. -/
theorem rd_mntRate_write_ne {value : Nat} {g : Field} (other : ∀ f ∈ regMNT_RATE.fields, g.key ≠ f.key) (d : Dev) :
    (regMNT_RATE.write 0 4 value d).rd g = d.rd g := by
  have ne (f : Field) (mem : f ∈ regMNT_RATE.fields) (d : Dev) (v : Nat) : (d.wr f v).rd g = d.rd g := Dev.rd_wr_ne d v (other f mem)
  exact (ne MNT_RATE.SCRUB_DAYS (by decide) _ _).trans ((ne MNT_RATE.DEG_WD (by decide) _ _).trans (ne MNT_RATE.CRIT_WD (by decide) _ _))

theorem storeField_only (f : Field) (v ones : Nat) (d : Dev) : ∃ r, storeField f v ones d = { d with regs := r } := by
  unfold storeField
  split <;> exact ⟨_, rfl⟩

/-- A write of a register changes register fields alone. -/
theorem Reg.write_only (r : Reg) (at0 size value : Nat) (d : Dev) : ∃ x, r.write at0 size value d = { d with regs := x } := by
  have stored (new raw : Field → Nat) (l : List Field) : ∀ d : Dev, ∃ x, l.foldl (fun d f => storeField f (new f) (raw f) d) d =
      { d with regs := x } := by
    induction l with
    | nil => exact fun d => ⟨d.regs, rfl⟩
    | cons f l ih =>
      intro d
      obtain ⟨x, one⟩ := storeField_only f (new f) (raw f) d
      obtain ⟨y, rest⟩ := ih { d with regs := x }
      exact ⟨y, by rw [List.foldl_cons, one, rest]⟩
  exact stored _ _ r.fields d

theorem mediaRegAt_mntRate : mediaRegAt 0x700004 = some regMNT_RATE := by rfl

theorem mediaWrite_mntRate {v : Nat} {d : Dev} (alone : d.tstate ≠ 5) (critical : bits v 0 8 ≠ 0) (degraded : bits v 8 8 ≠ 0)
    (scrub : bits v 16 8 ≠ 0) : mediaWrite (.feature 0) 0x700004 4 v d = (stSuccess, regMNT_RATE.write 0 4 v d) := by
  have good : mediaValueOk 0x700004 v = true := by simp [mediaValueOk, critical, degraded, scrub]
  have unsent : (regMNT_RATE.write 0 4 v d).tstate ≠ 5 := by
    rw [Dev.tstate, rd_mntRate_write_ne (by decide)]
    exact alone
  have written : mediaOneWrite (.feature 0) regMNT_RATE v d = mirrorSend 0x700004 v (regMNT_RATE.write 0 4 v d) := by
    have listed : mirrored.contains regMNT_RATE.off = true := by decide
    have apart : (regMNT_RATE.off == 0x900000) = false := by decide
    rw [mediaOneWrite, if_pos listed, apart]
    rfl
  have writer : (!mediaWriter (.feature 0)) = false := by decide
  have floe : ¬ (0xa00000 ≤ 0x700004 ∧ 0x700004 < 0xb00000 ∧ (floHalf (.feature 0)).isNone = true) := by decide
  have sized : ¬ 4 ≠ regMNT_RATE.size := by decide
  have alone' : ((regMNT_RATE.write 0 4 v d).tstate == 5) = false := by simpa using unsent
  simp only [mediaWrite, mediaRegAt_mntRate, writer, if_neg floe, if_neg sized, good, written, mirrorSend, alone', Dev.when, Bool.not_true,
    Bool.false_eq_true, if_false]

/-- What a command answers that wrote MNT_RATE before. -/
theorem mntRate_answered {v : Nat} (waits : Waits [0x83] q tag s.dev qu c) :
    Answered q tag 0 0 qu c s.dev (complete q tag 0 0 (regMNT_RATE.write 0 4 v (s.dev.begun q tag))) := by
  have apart (f : Field) (space : 2048 ≤ f.space) : (regMNT_RATE.write 0 4 v (s.dev.begun q tag)).rd f = s.dev.rd f := by
    have other : ∀ g ∈ regMNT_RATE.fields, g.space < 2048 ∧ g.off < 2 ^ 28 ∧ g.lsb < 64 := by decide
    refine (rd_mntRate_write_ne (fun g mem => ?_) _).trans rfl
    obtain ⟨half, off, lsb⟩ := other g mem
    exact key_cfg_ne space half off lsb
  obtain ⟨r, only⟩ := Reg.write_only regMNT_RATE 0 4 v (s.dev.begun q tag)
  rw [only] at apart ⊢
  exact waits.answered_now rfl rfl rfl rfl apart (.of_eq rfl)

theorem execMediaReg_writes {v : Nat} (feature : Ready.feature 0x30 q tag qu c s) (media : Ready.media s) (alone : s.dev.tstate ≠ 5)
    (none : s.dev.ctxs = []) (pf : qu.fn = 0) (size : pktField c.pkt 49 1 = 0) (names : pktField c.pkt 52 4 = 0x700004)
    (value : pktField c.pkt 56 8 = v) (critical : bits v 0 8 ≠ 0) (degraded : bits v 8 8 ≠ 0) (scrub : bits v 16 8 ≠ 0) :
    Does (.mediaReg q tag) s fun t => Answered q tag 0 0 qu c s.dev t.dev ∧ ∀ f ∈ regMNT_RATE.fields, t.dev.rd f = bits v f.lsb f.width := by
  let d : Dev := regMNT_RATE.write 0 4 v (s.dev.begun q tag)
  have run : execMediaReg q tag s = s.ok (noteWaits (complete q tag stSuccess 0 d)) := by
    have ctxs : (complete q tag stSuccess 0 d).ctxs = [] := by
      obtain ⟨r, only⟩ := Reg.write_only regMNT_RATE 0 4 v (s.dev.begun q tag)
      exact complete_ctxs (by rw [show d = _ from only]; exact none)
    rw [execMediaReg, mediaFeature_runs feature media]
    simp only [size, names, value, pf, if_true, mediaWrite_mntRate (d := s.dev.begun q tag) alone critical degraded scrub]
    rw [settle_of_none ctxs]
  have quiet : Quiet (complete q tag stSuccess 0 d) (noteWaits (complete q tag stSuccess 0 d)) := .noteWaits (.refl _)
  obtain ⟨waits, -⟩ := feature
  obtain ⟨sent, gone⟩ := mntRate_answered (v := v) waits
  refine ⟨_, run, ⟨sent.trans_grows quiet.out, ?_⟩, fun f mem => ?_⟩
  · dsimp only
    rw [Dev.queue, quiet.rings]
    exact gone
  · have apart : ∀ f ∈ regMNT_RATE.fields, f.unreported ∧ f.key ≠ FRN_CNT_SPACE_WAITS.COUNT.key ∧ f.key ≠ FRN_STATUS.CLASS_A_WAIT.key ∧
        f.key ≠ VRV_CNT_MSG_APPLIED.COUNT.key ∧ f.key ≠ VRV_CNT_AUTH_FAIL.COUNT.key := by decide
    obtain ⟨out, counts, waits, applied, refused⟩ := apart f mem
    dsimp only
    rw [rd_noteWaits out counts waits, (complete_units _ _ _ _ _).rd f out applied refused]
    exact rd_mntRate_write _ f mem

end

/-- Settles O6: a completion and a message leave the pools alone (`complete_fabric`, `snowSend_fabric`), so that the pool defined stands; of the
twin, messages, configuration writes and completions change what waits for the link cipher alone (`PairKept`), so that the designation stays
cleared and the window stays set; MNT_RATE reads as it was written (`rd_mntRate_write`). -/
theorem mediaFeaturesAreTaken : Obligations.MediaFeaturesAreTaken := by
  unfold Obligations.MediaFeaturesAreTaken
  refine ⟨?pool, ?witness, ?window, ?register⟩
  case pool =>
    intro q tag p v qu c s feature media paired names small value good empty
    obtain ⟨t, run, gone, home, made⟩ := execPoolGeometry_defines feature media paired names small value good empty
    exact ⟨t, run, gone, _, made, rfl, rfl, rfl, rfl, rfl, rfl, rfl⟩
  case witness => exact fun q tag w ports qu c s feature media clears => execWitnessSet_clears feature media clears
  case window => exact fun q tag n qu c s feature media alone value range => execEnumWindow_sets feature media alone value range
  case register =>
    intro q tag v qu c s feature media alone none pf size names value critical degraded scrub
    obtain ⟨t, run, answered, reads⟩ := execMediaReg_writes feature media alone none pf size names value critical degraded scrub
    exact ⟨t, run, answered, reads _ (by decide), reads _ (by decide), reads _ (by decide)⟩

end Sys2Proof.Machine
end

section
/-! PROOFS. What a pool's sequencers and members do not lose while commands settle, stripes are read and a drive's commands end: the places of
the rebuild, of scrub and of the evacuations, and the state and cause of every member. -/

namespace Sys2Proof.Machine

/-- Where the sequencers of a pool stand, and the states of its members. -/
structure Course where
  level : Nat
  row : Nat
  slot : Nat
  mark : Nat × Nat
  scrub : Scrub
  relocs : List Reloc
  members : Tab (Nat × Nat)

/-- The course of a pool. -/
def Pool.course (x : Pool) : Course :=
  ⟨x.level, x.row, x.slot, x.mark, x.scrub, x.relocs, x.members.map fun e => (e.1, e.2.state, e.2.cause)⟩

/-- The courses of all pools. -/
def Dev.course (d : Dev) : Tab Course := d.pools.map fun e => (e.1, e.2.course)

section
variable {d : Dev}

/-! ### Through the ways in which the model composes updates. The courses are stated of the stores, so that the frames of the functions that
write no store apply below. -/

@[simp] theorem course_ite {c : Prop} [Decidable c] {a b : Dev} : (if c then a else b).course = if c then a.course else b.course := by
  split <;> rfl

@[simp] theorem course_foldl {α : Type} {f : Dev → α → Dev} {l : List α}
    (h : ∀ d a, ((f d a).part .stores).course = (d.part .stores).course) : ((l.foldl f d).part .stores).course = (d.part .stores).course := by
  induction l generalizing d with
  | nil => rfl
  | cons a t ih => rw [List.foldl_cons, ih, h]

@[simp] theorem course_each {α : Type} {f : Dev → α → Dev} {l : List α}
    (h : ∀ d a, ((f d a).part .stores).course = (d.part .stores).course) : ((d.each l f).part .stores).course = (d.part .stores).course :=
  course_foldl h

theorem course_foldl_snd {α β : Type} {f : α × Dev → β → α × Dev} {l : List β} {x : α × Dev}
    (h : ∀ x b, ((f x b).2.part .stores).course = (x.2.part .stores).course) :
    ((l.foldl f x).2.part .stores).course = (x.2.part .stores).course := by
  induction l generalizing x with
  | nil => rfl
  | cons b t ih => rw [List.foldl_cons, ih, h]

theorem course_snd_eq {α : Type} {x : α × Dev} {a : α} {e : Dev} (h : x = (a, e)) :
    (e.part .stores).course = (x.2.part .stores).course := by rw [h]

/-- Every field but the pools. The proof is in parentheses, here and below, lest `simp` take the lemma for a step by `dsimp`, which fails
under the hypothesis of `course_each`. -/
@[simp] theorem course_set {clocks tbHost tbMedia power image thermal gauge floe firn ctxs xmap destages reads maint nss twin drives rings
    streams ingest rime staging mbx regs out free arbs fns eps sch snow ledger schLock moraine mapLog straps serial} :
    (({ d with
      clocks, tbHost, tbMedia, power, image, thermal, gauge, floe, firn, ctxs, xmap, destages, reads, maint, nss, twin, drives, rings,
      streams, ingest, rime, staging, mbx, regs, out, free, arbs, fns, eps, sch, snow, ledger, schLock, moraine, mapLog, straps,
      serial } : Dev).part .stores).course = (d.part .stores).course := (rfl)

/-- Every field of a pool but those of its course. -/
@[simp] theorem Pool.course_set {x : Pool} {k m d spare big seed rows home online offline offlineRec markAt sinceMark jobs lost repair warned full
    winSecs} :
    ({ x with
      k, m, d, spare, big, seed, rows, home, online, offline, offlineRec, markAt, sinceMark, jobs, lost, repair, warned, full,
      winSecs } : Pool).course = x.course := (rfl)

@[simp] theorem course_modPool {p : Nat} {f : Pool → Pool} (h : ∀ x, (f x).course = x.course) :
    ((d.modPool p f).part .stores).course = (d.part .stores).course := by
  change ((tmod d.pools p f).map fun e => (e.1, e.2.course)) = d.pools.map fun e => (e.1, e.2.course)
  rw [tmod, List.map_map]
  refine List.map_congr_left fun e _ => ?_
  simp only [Function.comp]
  split <;> simp [h]

/-- A member keeps its state and cause. -/
theorem course_modMember {p m : Nat} {f : PoolMember → PoolMember} (h : ∀ y, (f y).state = y.state ∧ (f y).cause = y.cause) :
    ((modMember p m f d).part .stores).course = (d.part .stores).course := by
  have kept (x : Pool) : (tmod x.members m f).map (fun e => (e.1, e.2.state, e.2.cause)) = x.members.map fun e => (e.1, e.2.state, e.2.cause) := by
    rw [tmod, List.map_map]
    refine List.map_congr_left fun e _ => ?_
    simp only [Function.comp]
    split <;> simp [h]
  exact course_modPool fun x => by simp [Pool.course, kept]

@[simp] theorem course_modTwin {f : Twin → Twin} : ((d.modTwin f).part .stores).course = (d.part .stores).course := (rfl)
@[simp] theorem course_modFirn {f : Firn → Firn} : ((d.modFirn f).part .stores).course = (d.part .stores).course := (rfl)
@[simp] theorem course_modMap {f} : ((d.modMap f).part .stores).course = (d.part .stores).course := (rfl)
@[simp] theorem course_modDrv {f} : ((d.modDrv f).part .stores).course = (d.part .stores).course := (rfl)
@[simp] theorem course_modNs {n f} : ((d.modNs n f).part .stores).course = (d.part .stores).course := (rfl)
@[simp] theorem course_modCtx {q tag f} : ((d.modCtx q tag f).part .stores).course = (d.part .stores).course := (rfl)
@[simp] theorem course_dropCtx {q tag} : ((d.dropCtx q tag).part .stores).course = (d.part .stores).course := (rfl)

/-! ### The functions of Machine/Post -/

@[simp] theorem course_noteMember {fn qi tag status c} : ((noteMember fn qi tag status c d).part .stores).course = (d.part .stores).course := by
  simp [noteMember]

@[simp] theorem course_completeFreeing {frees q tag status result} :
    ((completeFreeing frees q tag status result d).part .stores).course = (d.part .stores).course := by
  unfold completeFreeing
  split <;> simp

@[simp] theorem course_complete {q tag status result} : ((complete q tag status result d).part .stores).course = (d.part .stores).course := by
  simp [complete]

/-! ### The functions of Machine/Link -/

@[simp] theorem course_snowSendFor {fn k cls m} : ((snowSendFor fn k cls m d).part .stores).course = (d.part .stores).course :=
  congrArg (List.map fun e : Nat × Pool => (e.1, e.2.course)) (snowSendFor_pools fn k cls m d)

@[simp] theorem course_snowSend {k cls m} : ((snowSend k cls m d).part .stores).course = (d.part .stores).course := by simp [snowSend]

/-! ### The functions of Machine/Xmap -/

@[simp] theorem course_modChunk {c f} : ((modChunk c f d).part .stores).course = (d.part .stores).course := by simp [modChunk]

@[simp] theorem course_freeChunk {c e} : ((freeChunk c e d).part .stores).course = (d.part .stores).course := by
  simp only [freeChunk]
  repeat' split
  all_goals simp

@[simp] theorem course_refDelta {c n} : ((refDelta c n d).part .stores).course = (d.part .stores).course := by
  unfold refDelta
  split <;> simp

/-! ### The functions of Machine/Firn -/

@[simp] theorem course_spaceCheck : ((spaceCheck d).part .stores).course = (d.part .stores).course := by simp [spaceCheck]
@[simp] theorem course_modRec {slot f} : ((modRec slot f d).part .stores).course = (d.part .stores).course := by simp [modRec]
@[simp] theorem course_freeRec {slot} : ((freeRec slot d).part .stores).course = (d.part .stores).course := by simp [freeRec]
@[simp] theorem course_dropTaken {r} : ((dropTaken r d).part .stores).course = (d.part .stores).course := by simp [dropTaken]

@[simp] theorem course_assignSeq {slot} : ((assignSeq slot d).part .stores).course = (d.part .stores).course := by
  simp only [assignSeq]
  repeat' split
  all_goals simp

@[simp] theorem course_sendRecord {slot} : ((sendRecord slot d).part .stores).course = (d.part .stores).course := by
  unfold sendRecord
  split <;> simp

@[simp] theorem course_takeSlot {r} : ((takeSlot r d).2.part .stores).course = (d.part .stores).course := by simp [takeSlot]

@[simp] theorem course_mediaComplete {q tag status result seq} :
    ((mediaComplete q tag status result seq d).part .stores).course = (d.part .stores).course := by
  simp [mediaComplete]

@[simp] theorem course_markTook {q tag} : ((markTook q tag d).part .stores).course = (d.part .stores).course := by simp [markTook]

@[simp] theorem course_completeRec {slot status} : ((completeRec slot status d).part .stores).course = (d.part .stores).course := by
  unfold completeRec
  split <;> simp

@[simp] theorem course_recordMarks {r} : ((recordMarks r d).part .stores).course = (d.part .stores).course := by simp [recordMarks]

@[simp] theorem course_coverDivs {r} : ((coverDivs r d).part .stores).course = (d.part .stores).course := by
  refine (course_each fun d x => ?_).trans course_modFirn
  split <;> simp

@[simp] theorem course_setPack {nsid pack} : ((setPack nsid pack d).part .stores).course = (d.part .stores).course := by simp [setPack]

@[simp] theorem course_commitEffects {r} : ((commitEffects r d).part .stores).course = (d.part .stores).course := by
  refine (course_each fun d x => ?_).trans (by simp)
  split <;> simp

@[simp] theorem course_noteIntent {r} : ((noteIntent r d).part .stores).course = (d.part .stores).course := by
  unfold noteIntent
  split <;> simp

@[simp] theorem course_noteMirrored : ((noteMirrored d).part .stores).course = (d.part .stores).course := by simp [noteMirrored]

@[simp] theorem course_noteWritten {pool stripe} : ((noteWritten pool stripe d).part .stores).course = (d.part .stores).course := by
  simp [noteWritten]

@[simp] theorem course_noteRevoke {r} : ((noteRevoke r d).part .stores).course = (d.part .stores).course := by
  unfold noteRevoke
  repeat' split
  all_goals simp

@[simp] theorem course_noteCommit {r} : ((noteCommit r d).part .stores).course = (d.part .stores).course := by simp [noteCommit]
@[simp] theorem course_voidRecs {a} : ((voidRecs a d).part .stores).course = (d.part .stores).course := by simp [voidRecs]
@[simp] theorem course_noteEntered {r} : ((noteEntered r d).part .stores).course = (d.part .stores).course := by simp [noteEntered]
@[simp] theorem course_noteHeld {r} : ((noteHeld r d).part .stores).course = (d.part .stores).course := by simp [noteHeld]
@[simp] theorem course_refuseRef {c i} : ((refuseRef c i d).part .stores).course = (d.part .stores).course := by simp [refuseRef]

@[simp] theorem course_refuseRec {slot ords} : ((refuseRec slot ords d).part .stores).course = (d.part .stores).course := by
  unfold refuseRec
  split
  · rfl
  · split
    · simp
    · refine (course_each fun d c => ?_).trans (by simp)
      split <;> simp

@[simp] theorem course_assignNow {slot} : ((assignNow slot d).part .stores).course = (d.part .stores).course := by
  unfold assignNow
  split <;> simp

@[simp] theorem course_enterRec {r} : ((enterRec r d).part .stores).course = (d.part .stores).course := by simp [enterRec]
@[simp] theorem course_noteWaits : ((noteWaits d).part .stores).course = (d.part .stores).course := by simp [noteWaits]
@[simp] theorem course_formRec {r} : ((formRec r d).part .stores).course = (d.part .stores).course := by simp [formRec]

/-! ### The functions of Machine/DriveIo -/

@[simp] theorem course_submitNvme {n port} : ((submitNvme n port d).part .stores).course = (d.part .stores).course := by
  induction n generalizing d with
  | zero => rfl
  | succ n ih =>
    simp only [submitNvme]
    split <;> rename_i h <;> simp [course_snd_eq h, ih]

@[simp] theorem course_releaseNvme : ((releaseNvme d).part .stores).course = (d.part .stores).course := by simp [releaseNvme]

@[simp] theorem course_issueNvme {drive admin op lba cls what data} :
    ((issueNvme drive admin op lba cls what data d).part .stores).course = (d.part .stores).course := by
  simp [issueNvme]

@[simp] theorem course_modDrive {i f} : ((modDrive i f d).part .stores).course = (d.part .stores).course := by simp [modDrive]

@[simp] theorem course_readStrip {id s ord cls} : ((readStrip id s ord cls d).2.part .stores).course = (d.part .stores).course := by
  unfold readStrip
  split <;> simp

@[simp] theorem course_writeBlock {drive pool change b} :
    ((writeBlock drive pool change b d).part .stores).course = (d.part .stores).course := by
  unfold writeBlock
  split <;> simp

@[simp] theorem course_sendPool {p} : ((sendPool p d).part .stores).course = (d.part .stores).course := by
  unfold sendPool
  split <;> simp

@[simp] theorem course_recordPool {p} : ((recordPool p d).part .stores).course = (d.part .stores).course := by
  unfold recordPool
  split
  · rfl
  · refine (course_each fun d e => ?_).trans course_sendPool
    split
    · rfl
    · split <;> simp

@[simp] theorem course_setOffline {p off} : ((setOffline p off d).part .stores).course = (d.part .stores).course := by
  unfold setOffline
  split
  · rfl
  · split
    · rfl
    · cases off <;> simp

@[simp] theorem course_setOfflineRec {p off} : ((setOfflineRec p off d).part .stores).course = (d.part .stores).course := by
  unfold setOfflineRec
  split <;> simp

@[simp] theorem course_cfgWritten {p change ok} : ((cfgWritten p change ok d).part .stores).course = (d.part .stores).course := by
  simp [cfgWritten]

/-! ### The functions of Machine/Destage -/

@[simp] theorem course_modDestage {stripe f} : ((modDestage stripe f d).part .stores).course = (d.part .stores).course := course_set
@[simp] theorem course_unplace {x} : ((unplace x d).part .stores).course = (d.part .stores).course := by simp [unplace]
@[simp] theorem course_unplaceable {x} : ((unplaceable x d).part .stores).course = (d.part .stores).course := by simp [unplaceable]

@[simp] theorem course_abandonStripe {stripe} : ((abandonStripe stripe d).part .stores).course = (d.part .stores).course := by
  unfold abandonStripe
  split <;> simp

@[simp] theorem course_sendStrip {stripe ord} : ((sendStrip stripe ord d).2.part .stores).course = (d.part .stores).course := by
  unfold sendStrip
  repeat' split
  all_goals simp

@[simp] theorem course_stripFailed {n stripe ord} :
    ((stripFailed n stripe ord d).2.part .stores).course = (d.part .stores).course := by
  induction n generalizing d with
  | zero => rfl
  | succ n ih =>
    simp only [stripFailed]
    split
    · rfl
    · split
      · rfl
      · split
        · simp
        · split <;> rename_i h <;> simp [course_snd_eq h, ih]

/-! ### The functions of Machine/Member -/

@[simp] theorem course_finish {q tag st result} : ((finish q tag st result d).part .stores).course = (d.part .stores).course := by simp [finish]
@[simp] theorem course_modActs {f} : ((modActs f d).part .stores).course = (d.part .stores).course := by simp [modActs]

@[simp] theorem course_mirrorActivity {a ended} : ((mirrorActivity a ended d).part .stores).course = (d.part .stores).course := by
  simp [mirrorActivity]

@[simp] theorem course_dropActivity {a} : ((dropActivity a d).part .stores).course = (d.part .stores).course := by simp [dropActivity]
@[simp] theorem course_withdraw {margin pool} : ((withdraw margin pool d).part .stores).course = (d.part .stores).course := by simp [withdraw]

@[simp] theorem course_loseStripe {s cause nerased} : ((loseStripe s cause nerased d).part .stores).course = (d.part .stores).course := by
  simp only [loseStripe]
  repeat' split
  all_goals simp

/-! ### The functions of Machine/ReadMedia -/

@[simp] theorem course_modRead {id f} : ((modRead id f d).part .stores).course = (d.part .stores).course := course_set
@[simp] theorem course_dropFreed : ((dropFreed d).part .stores).course = (d.part .stores).course := by simp [dropFreed]
@[simp] theorem course_dropRead {id} : ((dropRead id d).part .stores).course = (d.part .stores).course := by simp [dropRead]
@[simp] theorem course_newRead {r} : ((newRead r d).2.part .stores).course = (d.part .stores).course := course_set

@[simp] theorem course_askStrip {id ord} : ((askStrip id ord d).part .stores).course = (d.part .stores).course := by
  unfold askStrip
  split
  · rfl
  · rename_i r _
    have asked (o : Option Nat) : ((match o with
        | some v => (true, issueNvme v false nvRead (d.rowLba v (stripeRow r.stripe)) r.cls (.stripRead id ord) [] d)
        | none => readStrip id r.stripe ord r.cls d).2.part .stores).course = (d.part .stores).course := by
      cases o <;> simp
    simp only
    split <;> rename_i h <;> exact course_modRead.trans ((course_snd_eq h).trans (asked _))

@[simp] theorem course_askWhole {id} : ((askWhole id d).part .stores).course = (d.part .stores).course := by
  unfold askWhole
  split <;> simp

@[simp] theorem course_queueRewrite {old purpose asker data places} :
    ((queueRewrite old purpose asker data places d).part .stores).course = (d.part .stores).course := by
  simp only [queueRewrite]
  repeat' split
  all_goals simp

@[simp] theorem course_rewriteStripe {s purpose asker data} :
    ((rewriteStripe s purpose asker data d).part .stores).course = (d.part .stores).course := by
  unfold rewriteStripe
  split <;> simp

@[simp] theorem course_unlock {q tag} : ((unlock q tag d).part .stores).course = (d.part .stores).course := by simp [unlock]

@[simp] theorem course_endRead {q tag st} : ((endRead q tag st d).part .stores).course = (d.part .stores).course := by
  unfold endRead
  split <;> simp

@[simp] theorem course_failObject {q tag st} : ((failObject q tag st d).part .stores).course = (d.part .stores).course := by simp [failObject]

@[simp] theorem course_sendObject {q tag id ord form b again rebuilt warn} :
    ((sendObject q tag id ord form b again rebuilt warn d).part .stores).course = (d.part .stores).course := by
  simp only [sendObject]
  repeat' split
  all_goals simp

@[simp] theorem course_dropOp {q tag} : ((dropOp q tag d).part .stores).course = (d.part .stores).course := course_set
@[simp] theorem course_answer {q tag st result} : ((answer q tag st result d).part .stores).course = (d.part .stores).course := by simp [answer]

@[simp] theorem course_dropIntent {stripe} : ((dropIntent stripe d).part .stores).course = (d.part .stores).course := by
  unfold dropIntent
  split <;> simp

@[simp] theorem course_readFailed {r} : ((readFailed r d).part .stores).course = (d.part .stores).course := by
  unfold readFailed
  split <;> simp

@[simp] theorem course_writeMoved {p m s b} : ((writeMoved p m s b d).part .stores).course = (d.part .stores).course := by
  simp only [writeMoved]
  repeat' split
  all_goals simp

@[simp] theorem course_compactNow {s p strip} : ((compactNow s p strip d).part .stores).course = (d.part .stores).course := by
  unfold compactNow
  split <;> simp

@[simp] theorem course_resolveBy {s q tag data} : ((resolveBy s q tag data d).part .stores).course = (d.part .stores).course := by
  simp [resolveBy]

@[simp] theorem course_readDirect {r p} : ((readDirect r p d).part .stores).course = (d.part .stores).course := by
  unfold readDirect
  split <;> simp

@[simp] theorem course_readAll {r p} : ((readAll r p d).part .stores).course = (d.part .stores).course := by
  unfold readAll
  repeat' split
  all_goals simp

@[simp] theorem course_readOn {id} : ((readOn id d).part .stores).course = (d.part .stores).course := by
  have rest {p} {e : Dev} : ((readOn.whole id p e).part .stores).course = (e.part .stores).course := by
    simp only [readOn.whole]
    split <;> simp
  unfold readOn
  repeat' split
  all_goals simp [rest]

@[simp] theorem course_beginRead {r} : ((beginRead r d).part .stores).course = (d.part .stores).course := by
  unfold beginRead
  split <;> simp

@[simp] theorem course_noteTried {s ord good} : ((noteTried s ord good d).part .stores).course = (d.part .stores).course := by
  have tried {e : Dev} {m} {f : PoolMember → List (Nat × Nat)} {g : PoolMember → List (Nat × Nat)} :
      ((modMember (stripePool s) m (fun y => { y with tried := f y, checked := g y }) e).part .stores).course = (e.part .stores).course :=
    course_modMember fun _ => ⟨rfl, rfl⟩
  simp only [noteTried]
  repeat' split
  all_goals simp [tried]

@[simp] theorem course_stripErased {id ord cause} : ((stripErased id ord cause d).part .stores).course = (d.part .stores).course := by
  unfold stripErased
  split <;> simp

@[simp] theorem course_readObjectFor {q tag id ord again tagNs tagFn o} :
    ((readObjectFor q tag id ord again tagNs tagFn o d).part .stores).course = (d.part .stores).course := by
  simp only [readObjectFor]
  repeat' split
  all_goals simp

/-! ### The functions of Machine/MediaMsg -/

@[simp] theorem course_markFormed {cs} : ((markFormed cs d).part .stores).course = (d.part .stores).course := by simp [markFormed]
@[simp] theorem course_formWrite {c cs n} : ((formWrite c cs n d).part .stores).course = (d.part .stores).course := by simp [formWrite]

@[simp] theorem course_fetchObject {q tag key chunk} :
    ((fetchObject q tag key chunk d).part .stores).course = (d.part .stores).course := by
  simp only [fetchObject]
  repeat' split
  all_goals simp

@[simp] theorem course_readBlocks {q tag} : ((readBlocks q tag d).part .stores).course = (d.part .stores).course := by
  unfold readBlocks
  repeat' split
  all_goals simp

@[simp] theorem course_startCompare {c n} : ((startCompare c n d).part .stores).course = (d.part .stores).course := by simp [startCompare]

@[simp] theorem course_formCopy {c n} : ((formCopy c n d).part .stores).course = (d.part .stores).course := by
  simp only [formCopy]
  repeat' split
  all_goals simp

@[simp] theorem course_settleOne {c} : ((settleOne c d).part .stores).course = (d.part .stores).course := by
  unfold settleOne
  repeat' split
  all_goals simp

@[simp] theorem course_settle : ((settle d).part .stores).course = (d.part .stores).course := by simp [settle]

/-! ### The functions of Machine/DriveFail -/

@[simp] theorem course_jobOver {p s} : ((jobOver p s d).part .stores).course = (d.part .stores).course := by simp [jobOver]
@[simp] theorem course_listOver : ((listOver d).part .stores).course = (d.part .stores).course := by simp [listOver]

/-- Without evidence a command that failed blames no member. -/
@[simp] theorem course_failedWhat {st what} : ((failedWhat false st what d).2.part .stores).course = (d.part .stores).course := by
  induction what generalizing d with
  | stripWrite s o =>
    simp only [failedWhat]
    split <;> rename_i h <;> simp [course_snd_eq h]
  | fwCommit q tag =>
    simp only [failedWhat]
    split <;> simp
  | report why ih => exact ih
  | _ => simp [failedWhat]

@[simp] theorem course_dropCid {cid} : ((dropCid cid d).part .stores).course = (d.part .stores).course := by simp [dropCid]

theorem course_failNext (a : List Verdict × Dev) (e : Nat × DrvCmd) :
    ((failNext a e).2.part .stores).course = (a.2.part .stores).course := by
  unfold failNext
  split <;> simp

@[simp] theorem course_failDrive {i} : ((failDrive false i d).2.part .stores).course = (d.part .stores).course :=
  course_foldl_snd (x := ([], d)) course_failNext

@[simp] theorem course_endOps {p m st} : ((endOps p m st d).part .stores).course = (d.part .stores).course := by simp [endOps]

end
end Sys2Proof.Machine
end

section
/-! PROOFS. The sequencers of Regelation: what the rebuild, the evacuation and scrub of a pool leave of its course, and a drive that stays
absent (R400, R408 to R411, R419, R420, R446). -/

namespace Sys2Proof.Machine

variable {d e : Dev} {p m : Nat}

/-! ### What the course of a pool says -/

theorem tget_course (d : Dev) (p : Nat) : tget d.course p = (tget d.pools p).map Pool.course := tget_map_snd Pool.course d.pools p

/-- Devices with the same courses have pools of the same course. -/
theorem course_of_course (same : e.course = d.course) (p : Nat) : (tget e.pools p).map Pool.course = (tget d.pools p).map Pool.course := by
  rw [← tget_course, ← tget_course, same]

theorem map_of_course {α : Type} (f : Course → α) (same : e.course = d.course) (p : Nat) :
    (tget e.pools p).map (fun x => f x.course) = (tget d.pools p).map fun x => f x.course := by
  have := congrArg (Option.map f) (course_of_course same p)
  rwa [Option.map_map, Option.map_map] at this

theorem bind_of_course {α : Type} (f : Course → Option α) (same : e.course = d.course) (p : Nat) :
    (tget e.pools p).bind (fun x => f x.course) = (tget d.pools p).bind fun x => f x.course := by
  have := congrArg (Option.bind · f) (course_of_course same p)
  rwa [Option.bind_map, Option.bind_map] at this

/-- The state and the cause of a member. -/
def Dev.standingOf (d : Dev) (p m : Nat) : Option (Nat × Nat) := (d.member p m).map fun y => (y.state, y.cause)

theorem standingOf_course (d : Dev) (p m : Nat) : d.standingOf p m = (tget d.course p).bind fun c => tget c.members m := by
  rw [tget_course, Option.bind_map, Dev.standingOf, Dev.member, Option.map_bind]
  refine congrArg _ (funext fun x => ?_)
  exact (tget_map_snd (fun y : PoolMember => (y.state, y.cause)) x.members m).symm

theorem standingOf_of_course (same : e.course = d.course) (p m : Nat) : e.standingOf p m = d.standingOf p m := by
  rw [standingOf_course, standingOf_course, same]

/-- What writes no store keeps the courses. -/
theorem course_of_part (same : e.part .stores = d.part .stores) : e.course = d.course :=
  (congrArg Dev.course same : (e.part .stores).course = (d.part .stores).course)

theorem modPool_pool (d : Dev) (p : Nat) (f : Pool → Pool) : tget (d.modPool p f).pools p = (tget d.pools p).map f :=
  tget_tmod_same d.pools p f

/-! ### Rebuild (R408, R410) -/

/-- The mark of a pool is the place of its sequencer; all else of its course stands. -/
theorem recordMark_course : (recordMark p d).course =
    (d.modPool p fun x => { x with mark := (x.level, x.row), markAt := d.tbMedia, sinceMark := 0 }).course :=
  course_recordPool

theorem recordMark_mark {x : Pool} (here : tget d.pools p = some x) : (tget (recordMark p d).pools p).map (·.mark) = some (x.level, x.row) := by
  rw [show (tget (recordMark p d).pools p).map (·.mark) = _ from map_of_course Course.mark recordMark_course p, modPool_pool, here]
  rfl

/-- The place of a pool's sequencer. -/
def Course.place (c : Course) : Nat × Nat × Nat := (c.level, c.row, c.slot)

theorem recordMark_place : (tget (recordMark p d).pools p).map (fun x => x.course.place) = (tget d.pools p).map fun x => x.course.place := by
  rw [map_of_course Course.place recordMark_course, modPool_pool, Option.map_map]
  rfl

theorem advanceRebuild_place {x : Pool} (here : tget d.pools p = some x) (s : Nat) :
    (tget (advanceRebuild p s d).pools p).map (fun x => x.course.place) = some (d.stripeLevel s, stripeRow s, stripeSlot s) := by
  unfold advanceRebuild
  extract_lets level row e
  have moved : (tget e.pools p).map (fun x => x.course.place) = some (level, row, stripeSlot s) := by
    rw [modPool_pool, here]
    rfl
  unfold Dev.when
  split
  · exact recordMark_place.trans moved
  · exact moved

theorem rebuildNext_place {x : Pool} {s : Nat} (here : tget d.pools p = some x) (next : d.nextRebuild p = some s) :
    (tget (rebuildNext p d).pools p).map (fun x => (x.level, x.row, x.slot)) = some (d.stripeLevel s, stripeRow s, stripeSlot s) := by
  have kept : (rebuildNext p d).course = (advanceRebuild p s d).course := by
    unfold rebuildNext
    rw [next]
    have sync : (syncRebuild (advanceRebuild p s d)).course = (advanceRebuild p s d).course := course_of_part part_syncRebuild
    simp only
    split
    · exact course_loseStripe.trans sync
    · exact course_beginRead.trans sync
  exact (map_of_course Course.place kept p).trans (advanceRebuild_place here s)

/-! ### Scrub (R419, R420) -/

theorem scrubOne_course (s : Nat) : (scrubOne s d).course = d.course := by
  unfold scrubOne
  split
  · exact course_beginRead
  · rfl

/-- The sweep has no stripe left: a pass of routine scrub ends, and counts. -/
theorem scrubNext_ends {x : Pool} (here : tget d.pools p = some x) (begun : x.scrub.begun = true) (redo : x.scrub.redo = [])
    (repair : x.repair = []) (routine : x.scrub.onDemand = false) (none : d.nextSweep p (x.scrub.row * 128 + x.scrub.slot) = none) :
    (tget (scrubNext p d).pools p).map (fun x => (x.scrub.passes, x.scrub.begun)) = some ((x.scrub.passes + 1) % 65536, false) := by
  have runs : scrubNext p d = passEnd p d := by simp [scrubNext, here, begun, redo, repair, none]
  have ends : passEnd p d = d.modPool p fun x =>
      { x with scrub := { x.scrub with passes := (x.scrub.passes + 1) % 65536, begun := false, row := 0, slot := 0 } } := by
    simp [passEnd, here, routine]
  rw [runs, ends, modPool_pool, here]
  rfl

/-- The sweep goes on behind the stripe that it takes. -/
theorem scrubNext_sweeps {x : Pool} {s : Nat} (here : tget d.pools p = some x) (begun : x.scrub.begun = true) (redo : x.scrub.redo = [])
    (repair : x.repair = []) (next : d.nextSweep p (x.scrub.row * 128 + x.scrub.slot) = some s) :
    (tget (scrubNext p d).pools p).map (fun x => x.scrub.row * 128 + x.scrub.slot) = some (sweepKey s + 1) := by
  have runs : scrubNext p d = scrubOne s (d.modPool p fun x =>
      { x with scrub := { x.scrub with row := (sweepKey s + 1) / 128, slot := (sweepKey s + 1) % 128 } }) := by
    simp [scrubNext, here, begun, redo, repair, next]
  rw [runs, show (tget (scrubOne s _).pools p).map (fun x => x.scrub.row * 128 + x.scrub.slot) = _ from
    map_of_course (fun c => c.scrub.row * 128 + c.scrub.slot) (scrubOne_course s) p, modPool_pool, here]
  exact congrArg some (Nat.div_add_mod' (sweepKey s + 1) 128)

/-! ### Evacuation (R446) -/

theorem setMark_pool (d : Dev) (p m k : Nat) : tget (setMark p m k d).pools p = (tget d.pools p).map fun x =>
    { x with relocs := x.relocs.map fun r => if r.member = m then { r with mark := some k } else r } := by
  rw [setMark, tget_remap, tget_tmod_same]

theorem setMark_member (d : Dev) (p m k n : Nat) : (setMark p m k d).member p n = d.member p n := by
  rw [Dev.member, setMark_pool, Option.bind_map]
  rfl

/-- The first entry of a number, after a change of the entries of that number which keeps it. -/
theorem find_changed {α : Type} {key : α → Nat} {f : α → α} (kept : ∀ a, key (f a) = key a) (n : Nat) (l : List α) :
    (l.map fun a => if key a = n then f a else a).find? (fun a => key a == n) = (l.find? fun a => key a == n).map f := by
  induction l with
  | nil => rfl
  | cons a l ih =>
    by_cases same : key a = n
    · simp [same, kept]
    · simp [same, ih]

theorem setMark_mark {x : Pool} {r : Reloc} {k : Nat} (here : tget d.pools p = some x) (entry : x.relocs.find? (fun r => r.member == m) = some r) :
    ((tget (setMark p m k d).pools p).bind fun y => y.relocs.find? fun r => r.member == m).map (·.mark) = some (some k) := by
  rw [setMark_pool, here, Option.map_some, Option.bind_some]
  exact congrArg (Option.map Reloc.mark) ((find_changed (key := Reloc.member) (by intro; rfl) m x.relocs).trans (congrArg _ entry))

/-- The mark of an evacuation moves to the row whose strip is read. -/
theorem evacuation_reads {x : Pool} {r : Reloc} {k : Nat} (read : StripeRead) (here : tget d.pools p = some x)
    (entry : x.relocs.find? (fun r => r.member == m) = some r) :
    ((tget (beginRead read (setMark p m k d)).pools p).bind fun y => y.relocs.find? fun r => r.member == m).map (·.mark) = some (some k) := by
  have kept := bind_of_course (fun c => c.relocs.find? fun r => r.member == m) (course_beginRead (r := read) (d := setMark p m k d)) p
  exact (congrArg (Option.map Reloc.mark) kept).trans (setMark_mark here entry)

theorem evacuation_ends {x : Pool} (here : tget d.pools p = some x) (state : x.mstate m = 6) (k : Nat) :
    ((changeMember p m 7 (fun y => { y with checked := [], tried := [] }) (setMark p m k d)).member p m).map (·.state) = some 7 := by
  rw [changeMember_member, setMark_member]
  obtain ⟨y, at'⟩ : ∃ y, d.member p m = some y := by
    cases at' : tget x.members m with
    | none => simp [Pool.mstate, at'] at state
    | some y => exact ⟨y, by simp [Dev.member, here, at']⟩
  simp [at']

/-! ### A member declared FAILED stays FAILED (R400, R402) -/

/-- The records and the restart after a change of members keep every member. -/
theorem changeMember_members {st : Nat} {f : PoolMember → PoolMember} (p' m' : Nat) : (changeMember p m st f d).member p' m' =
    (d.modPool p fun x => { x with members := tmod x.members m fun y => f { y with state := st, former := y.state } }).member p' m' := by
  have recorded (e : Dev) : LeavesAdrift 0 e (restartSeq p (settleLost p (recordPool p e))) :=
    leavesAdrift_recordPool.trans (leavesAdrift_settleLost.trans leavesAdrift_restartSeq)
  unfold changeMember
  rw [(recorded _).member, Dev.member_remap]

theorem changeMember_other {st p' m' : Nat} {f : PoolMember → PoolMember} (other : ¬ (p' = p ∧ m' = m)) :
    (changeMember p m st f d).member p' m' = d.member p' m' := by
  rw [changeMember_members, Dev.member_modPool]
  split
  next same =>
    subst same
    exact congrArg (Option.bind (tget d.pools p')) (funext fun x => tget_tmod_ne x.members
      (fun y => f { y with state := st, former := y.state }) fun h => other ⟨rfl, h⟩)
  · rfl

/-- A member that had a state, and its change as it is declared FAILED: before it, members stand as they did; after it, its course stands. -/
theorem failMember_change {cause : Nat} {x : PoolMember} (here : d.member p m = some x) (used : x.state ≠ 0) (up : x.state ≠ 4)
    (home : d.isHome p = true) : ∃ e, (∀ p' m', e.member p' m' = d.member p' m') ∧
      (failMember p m cause d).course = (changeMember p m 4 (PoolMember.declared cause) e).course := by
  have opened : ¬ (x.state = 4 ∨ x.state = 0 ∨ (!d.isHome p) = true) := by simp [used, up, home]
  have reserved (c k : Prop) [Decidable c] [Decidable k] (f : Reloc → Reloc) (a : Dev) (p' m' : Nat) :
      (if c then remap p (fun _ _ => false) (fun y => { y with relocs := y.relocs.map f }) a
        else if k then addReloc p m none a else a).member p' m' = a.member p' m' := by
    split
    · exact (leavesAdrift_remap (i := 0) (by intro; rfl)).member p' m'
    · split
      · exact (leavesAdrift_remap (i := 0) (by intro; rfl)).member p' m'
      · rfl
  obtain ⟨e, run, kept⟩ : ∃ e, failMember p m cause d = withdraw 1 p (memberEvent p m 0 (fault .media 0x0C (p * 512 + m) cause true
      ((changeMember p m 4 (PoolMember.declared cause) e).bump MNT_CNT_DECLARED.COUNT 1))) ∧
      ∀ p' m', e.member p' m' = d.member p' m' := by
    unfold failMember
    cases hosts : x.drive with
    | none =>
      simp only [here, if_neg opened, hosts]
      exact ⟨_, rfl, reserved _ _ _ d⟩
    | some i =>
      simp only [here, if_neg opened, hosts]
      exact ⟨_, rfl, reserved _ _ _ (modDrive i _ d)⟩
  have told : (memberEvent p m 0 (fault .media 0x0C (p * 512 + m) cause true
      ((changeMember p m 4 (PoolMember.declared cause) e).bump MNT_CNT_DECLARED.COUNT 1))).course =
      (changeMember p m 4 (PoolMember.declared cause) e).course := course_of_part (by simp)
  exact ⟨e, kept, (congrArg Dev.course run).trans (course_withdraw.trans told)⟩

theorem failMember_standing {cause : Nat} {x : PoolMember} (here : d.member p m = some x) (used : x.state ≠ 0) (up : x.state ≠ 4)
    (home : d.isHome p = true) : (failMember p m cause d).standingOf p m = some (4, cause) := by
  obtain ⟨e, kept, change⟩ := failMember_change (cause := cause) here used up home
  rw [standingOf_of_course change, Dev.standingOf, changeMember_member, kept, here]
  rfl

/-- A further declaration leaves a member that is FAILED. -/
theorem failMember_failed {cause p' m' c : Nat} (failed : d.standingOf p m = some (4, cause)) :
    (failMember p' m' c d).standingOf p m = some (4, cause) := by
  cases here : d.member p' m' with
  | none => rwa [failMember, here]
  | some x =>
    by_cases opened : x.state = 4 ∨ x.state = 0 ∨ (!d.isHome p') = true
    · rw [failMember, here]
      simpa only [if_pos opened] using failed
    · simp only [not_or, Bool.not_eq_true', Bool.not_eq_false] at opened
      obtain ⟨up, used, home⟩ := opened
      obtain ⟨e, kept, change⟩ := failMember_change (cause := c) here used up home
      have other : ¬ (p = p' ∧ m = m') := by
        rintro ⟨rfl, rfl⟩
        rw [Dev.standingOf, here, Option.map_some, Option.some.injEq, Prod.mk.injEq] at failed
        exact up failed.1
      rw [standingOf_of_course change, Dev.standingOf, changeMember_other other, kept]
      exact failed

/-- One declaration, and those that the commands of the member's drive bring. -/
theorem declareAll_cons (n c : Nat) (t : List Verdict) : ∃ vs e, declareAll (n + 1) ((p, m, c) :: t) d = declareAll n (t ++ vs) e ∧
    e.course = (failMember p m c d).course := by
  have ended (k : Bool) (st : ServiceOp → Nat) : ((failMember p m c d).when k (endOps p m st)).course = (failMember p m c d).course := by
    cases k with
    | false => rfl
    | true => exact course_endOps
  rw [declareAll]
  split
  · exact ⟨[], _, congrArg (declareAll n · _) (List.append_nil t).symm, ended _ _⟩
  · exact ⟨_, _, rfl, course_failDrive.trans (ended _ _)⟩

theorem declareAll_failed {cause : Nat} (n : Nat) (l : List Verdict) (failed : d.standingOf p m = some (4, cause)) :
    (declareAll n l d).standingOf p m = some (4, cause) := by
  induction n generalizing d l with
  | zero => exact failed
  | succ n ih =>
    match l with
    | [] => exact failed
    | (p', m', c) :: t =>
      obtain ⟨vs, e, run, kept⟩ := declareAll_cons (d := d) (p := p') (m := m') n c t
      rw [run]
      exact ih _ ((standingOf_of_course kept p m).trans (failMember_failed failed))

theorem declareOne_standing {cause : Nat} {x : PoolMember} (here : d.member p m = some x) (used : x.state ≠ 0) (up : x.state ≠ 4)
    (home : d.isHome p = true) : (declareOne p m cause d).standingOf p m = some (4, cause) := by
  obtain ⟨vs, e, run, kept⟩ := declareAll_cons (d := d) (p := p) (m := m) 8191 cause []
  exact (congrArg (Dev.standingOf · p m) run).trans
    (declareAll_failed _ _ ((standingOf_of_course kept p m).trans (failMember_standing here used up home)))

end Sys2Proof.Machine
end

section
/-! PROOFS. The engines of Moraine (R377, R388, R389): the jobs that hold an engine, an engine whose results differ, engines released, and a
destage whose syndromes are there. -/

namespace Sys2Proof.Machine

/-! ### What the strips of a stripe rest on -/

/-- The pools, the drive table, destages, stripe reads, contexts and the maintenance state are unchanged. -/
structure StripsKept (d e : Dev) : Prop where
  pools : e.pools = d.pools
  table : e.drives.table = d.drives.table
  destages : e.destages = d.destages
  reads : e.reads = d.reads
  ctxs : e.ctxs = d.ctxs
  maint : e.maint = d.maint

namespace StripsKept
variable {a b c d e : Dev}

theorem refl (d : Dev) : StripsKept d d := ⟨rfl, rfl, rfl, rfl, rfl, rfl⟩

theorem trans (h : StripsKept a b) (k : StripsKept b c) : StripsKept a c :=
  ⟨k.pools.trans h.pools, k.table.trans h.table, k.destages.trans h.destages, k.reads.trans h.reads, k.ctxs.trans h.ctxs,
    k.maint.trans h.maint⟩

theorem after (k : StripsKept b c) (h : StripsKept a b) : StripsKept a c := h.trans k

theorem of_part (h : e.part .stores = d.part .stores) : StripsKept d e := by
  have s := StoresKept.of_part h
  exact ⟨s.pools, congrArg (·.table) s.drives, s.destages, s.reads, s.ctxs, s.maint⟩

theorem foldl {α : Type} {l : List α} {f : Dev → α → Dev} (start : StripsKept d e)
    (h : ∀ e, ∀ a ∈ l, StripsKept d e → StripsKept d (f e a)) : StripsKept d (l.foldl f e) := by
  induction l generalizing e with
  | nil => exact start
  | cons a l ih => exact ih (h e a List.mem_cons_self start) fun e b mem => h e b (List.mem_cons_of_mem a mem)

theorem each_of {α : Type} {l : List α} {f : Dev → α → Dev} (h : ∀ e, ∀ a ∈ l, StripsKept d e → StripsKept d (f e a)) :
    StripsKept d (d.each l f) := foldl (refl d) h

theorem each {α : Type} {l : List α} {f : Dev → α → Dev} (h : ∀ d a, StripsKept d (f d a)) : StripsKept d (d.each l f) :=
  each_of fun e a _ kept => kept.trans (h e a)

theorem submitNvme (n p : Nat) (d : Dev) : StripsKept d (submitNvme n p d) := by
  induction n generalizing d with
  | zero => exact refl d
  | succ n ih =>
    unfold Machine.submitNvme
    extract_lets ready
    split
    next e none => exact of_part ((part_snd_eq none).trans part_serveNext)
    next cid c e some =>
      have chosen : StripsKept d e := of_part ((part_snd_eq some).trans part_serveNext)
      exact chosen.trans ((ih _).after ⟨rfl, rfl, rfl, rfl, rfl, rfl⟩)

theorem releaseNvme (d : Dev) : StripsKept d (releaseNvme d) := by
  unfold Machine.releaseNvme
  extract_lets queued
  have kept : StripsKept d queued := ⟨rfl, rfl, rfl, rfl, rfl, rfl⟩
  split
  · exact kept
  · exact kept.trans (each fun d p => submitNvme _ _ d)

theorem issueNvme (i : Nat) (admin : Bool) (op lba cls : Nat) (what : DrvFor) (data : Bytes) (d : Dev) :
    StripsKept d (issueNvme i admin op lba cls what data d) := by
  unfold Machine.issueNvme
  split
  · exact refl d
  · extract_lets cid
    exact (releaseNvme _).after ⟨rfl, rfl, rfl, rfl, rfl, rfl⟩

theorem noteWaits (d : Dev) : StripsKept d (noteWaits d) := by
  unfold Machine.noteWaits
  extract_lets new mark ws
  exact trans (b := d.modFirn fun x => { x with waiting := x.waiting.map mark }) ⟨rfl, rfl, rfl, rfl, rfl, rfl⟩
    (each fun d w => of_part (by simp))

/-- Nothing waits at the media half for what a stripe brings: no context, and no resolve. -/
theorem settled (h : StripsKept d e) (ctxs : d.ctxs = []) : StripsKept d (settle e) := by
  rw [settle_of_none (h.ctxs.trans ctxs)]
  exact h.trans (noteWaits e)

theorem driveFor (h : StripsKept d e) (p m : Nat) : e.driveFor p m = d.driveFor p m := by
  unfold Dev.driveFor
  rw [show e.member p m = d.member p m from Dev.member_of_pools (fun q => congrArg (tget · q) h.pools) p m, h.table]

end StripsKept

section
variable {d e : Dev}

theorem settleResolves_of_none (none : d.maint.ops = []) : settleResolves d = d := by
  simp [settleResolves, none]

/-! ### Jobs that hold an engine (R389) -/

/-- A grant of engines writes no register, and takes no engine from a job. -/
theorem grantEngines_keeps (n : Nat) (d : Dev) : (grantEngines n d).regs = d.regs ∧ ∀ s ∈ d.moraine, s ∈ (grantEngines n d).moraine := by
  induction n generalizing d with
  | zero => exact ⟨rfl, fun _ => id⟩
  | succ n ih =>
    unfold grantEngines
    split
    · exact ⟨rfl, fun _ => id⟩
    · extract_lets w
      have served := (serveNext_only .moraine w (fun j => j.2.1) ((w.filter fun j => j.2.1.1 == 3).map (·.2.2)) d).1
      have regs : (serveNext .moraine w (fun j => j.2.1) ((w.filter fun j => j.2.1.1 == 3).map (·.2.2)) d).2.regs = d.regs := by rw [served]
      have moraine : (serveNext .moraine w (fun j => j.2.1) ((w.filter fun j => j.2.1.1 == 3).map (·.2.2)) d).2.moraine = d.moraine := by
        rw [served]
      split
      next e run =>
        rw [run] at regs moraine
        exact ⟨regs, fun _ mem => moraine ▸ mem⟩
      next j e run =>
        rw [run] at regs moraine
        obtain ⟨kept, held⟩ := ih { e with moraine := e.moraine ++ [j.1] }
        exact ⟨kept.trans regs, fun s mem => held s (List.mem_append_left _ (moraine.symm ▸ mem))⟩

/-- A job that held an engine and is not over holds it as the arbiter grants the others. -/
theorem mem_startJobs {s : Nat} (held : s ∈ d.moraine) (open' : s ∈ d.moraineJobs.map (·.1)) : s ∈ (startJobs d).moraine := by
  unfold startJobs
  exact (grantEngines_keeps 16 _).2 s (List.mem_filter.mpr ⟨held, by simpa using open'⟩)

theorem rd_startJobs (f : Field) : (startJobs d).rd f = d.rd f := by
  unfold startJobs Dev.rd
  rw [(grantEngines_keeps 16 _).1]

theorem moraineJobs_read {r : StripeRead} (mem : r ∈ d.reads) (job : r.job = true) : r.stripe ∈ d.moraineJobs.map (·.1) := by
  unfold Dev.moraineJobs
  rw [List.map_append, List.map_map]
  exact List.mem_append_right _ (List.mem_map.mpr ⟨_, List.mem_map.mpr ⟨r, List.mem_filter.mpr ⟨mem, job⟩, rfl⟩, rfl⟩)

theorem moraineJobs_destage {x : Destage} (mem : x ∈ d.destages) (intent : x.intent ≠ 0) (synd : x.synd = false) (race : d.twin.race = none) :
    x.plan.stripe ∈ d.moraineJobs.map (·.1) := by
  unfold Dev.moraineJobs
  rw [List.map_append, List.map_map]
  refine List.mem_append_left _ (List.mem_map.mpr ⟨x, ?_, rfl⟩)
  simp [race, mem, intent, synd]

/-! ### The result of a job (R303, R388) -/

section
variable {s : State} {pool stripe engine : Nat}

/-- A result that the engine of a job in service brings is not passed over. -/
theorem result_taken {noRead noDestage : Bool} (small : engine < 16) (up : bit (s.dev.rd MOR_STATUS.ENG_QUAR) engine = false) (of : stripePool stripe = pool)
    (held : stripe ∈ s.dev.moraine) (open' : stripe ∈ s.dev.moraineJobs.map (·.1)) (waits : (noRead && noDestage) = false) :
    ¬ (16 ≤ engine ∨ bit ((startJobs s.dev).rd MOR_STATUS.ENG_QUAR) engine ∨ stripePool stripe ≠ pool ∨
      !(startJobs s.dev).moraine.contains stripe ∨ (noRead && noDestage)) := by
  have holds := mem_startJobs held open'
  simp [rd_startJobs, up, of, holds, waits, small]

/-- The result of a job that holds an engine in service is taken: the results differ, and a read waits for them. -/
theorem execMoraineJobComplete_mismatch (small : engine < 16) (up : bit (s.dev.rd MOR_STATUS.ENG_QUAR) engine = false)
    (of : stripePool stripe = pool) (held : stripe ∈ s.dev.moraine) (waits : ∃ r ∈ s.dev.reads, r.stripe = stripe ∧ r.job = true) :
    execMoraineJobComplete pool stripe engine false s = s.ok (settle (settleResolves (engineMismatch engine (startJobs s.dev)))) := by
  obtain ⟨r, mem, rfl, job⟩ := waits
  have reads : (startJobs s.dev).reads = s.dev.reads := (StoresKept.of_part part_startJobs).reads
  have found : ((startJobs s.dev).reads.find? fun x => x.stripe == r.stripe && x.job).isNone = false := by
    rw [Option.isNone_eq_false_iff, reads, List.find?_isSome]
    exact ⟨r, mem, by simp [job]⟩
  unfold execMoraineJobComplete
  rw [if_neg (result_taken small up of held (moraineJobs_read mem job) (by rw [found, Bool.false_and]))]
  rfl

/-- The result of a destage's job that holds an engine in service is taken: the results agree. -/
theorem execMoraineJobComplete_destage {x : Destage} (small : engine < 16) (up : bit (s.dev.rd MOR_STATUS.ENG_QUAR) engine = false)
    (of : stripePool stripe = pool) (held : stripe ∈ s.dev.moraine) (here : s.dev.destage stripe = some x) (intent : x.intent ≠ 0)
    (synd : x.synd = false) (race : s.dev.twin.race = none) :
    execMoraineJobComplete pool stripe engine true s = s.ok (settle (releaseNvme (settleResolves (destageJob x
      { startJobs s.dev with moraine := without (startJobs s.dev).moraine stripe })))) := by
  have kept : StoresKept s.dev (startJobs s.dev) := .of_part part_startJobs
  have mem : x ∈ s.dev.destages := List.mem_of_find?_eq_some here
  have of' : x.plan.stripe = stripe := by simpa using List.find?_some here
  have found : (((startJobs s.dev).destage stripe).filter fun x => x.intent != 0 && !x.synd && (startJobs s.dev).twin.race.isNone) = some x := by
    rw [Dev.destage, kept.destages, kept.twin]
    simp [show s.dev.destages.find? (fun x => x.plan.stripe == stripe) = some x from here, Option.filter, intent, synd, race]
  unfold execMoraineJobComplete
  extract_lets d j out
  have some : out = some x := found
  rw [if_neg (result_taken small up of held (of' ▸ moraineJobs_destage mem intent synd race) (by rw [some, Option.isNone_some, Bool.and_false]))]
  clear_value out
  subst some
  rfl

end

/-! ### An engine whose results differ (R388) -/

theorem pmismatch_unreported {n : Nat} (small : n < 16) : (MOR_ENG.PMISMATCH n).unreported :=
  ⟨(by decide : (1 : Nat) < 16), (by omega : 0x600040 + 4 * n < 2 ^ 28), (by decide : 0 < 64), .inl (by omega : 0x600040 + 4 * n < 0xd00000)⟩

theorem engineMismatch_counts {n : Nat} (small : n < 16) (few : d.rd (MOR_ENG.PMISMATCH n) < 2) :
    (engineMismatch n d).rd (MOR_ENG.PMISMATCH n) = d.rd (MOR_ENG.PMISMATCH n) + 1 ∧ StripsKept d (engineMismatch n d) := by
  unfold engineMismatch
  extract_lets e
  have counts : e.rd (MOR_ENG.PMISMATCH n) = d.rd (MOR_ENG.PMISMATCH n) + 1 := by
    rw [show e.rd (MOR_ENG.PMISMATCH n) = _ from rd_fault (pmismatch_unreported small) .media 0x0B n 1 false, Dev.bump, Dev.rd_wr]
    change (if Access.cnt = .cntWrap then _ else min (d.rd (MOR_ENG.PMISMATCH n) + 1) (2 ^ 8 - 1)) % 2 ^ 8 = _
    rw [if_neg (by decide)]
    omega
  rw [if_pos (by omega)]
  exact ⟨counts, .of_part (by simp [e])⟩

/-- The wait records are noted: a register of an engine stands. -/
theorem rd_settle_engine {n : Nat} (small : n < 16) (none : d.ctxs = []) :
    (settle d).rd (MOR_ENG.PMISMATCH n) = d.rd (MOR_ENG.PMISMATCH n) := by
  rw [settle_of_none none]
  refine rd_noteWaits (pmismatch_unreported small) ?_ ?_ <;>
    simp only [Field.key, MOR_ENG.PMISMATCH, FRN_CNT_SPACE_WAITS.COUNT, FRN_STATUS.CLASS_A_WAIT] <;> omega

theorem mismatch_counted {s : State} {n : Nat} (small : n < 16) (few : s.dev.rd (MOR_ENG.PMISMATCH n) < 2) (ctxs : s.dev.ctxs = [])
    (ops : s.dev.maint.ops = []) :
    (settle (settleResolves (engineMismatch n (startJobs s.dev)))).rd (MOR_ENG.PMISMATCH n) = s.dev.rd (MOR_ENG.PMISMATCH n) + 1 ∧
      (settle (settleResolves (engineMismatch n (startJobs s.dev)))).reads = s.dev.reads := by
  have started : StripsKept s.dev (startJobs s.dev) := .of_part part_startJobs
  obtain ⟨counts, same⟩ := engineMismatch_counts (d := startJobs s.dev) small (by rwa [rd_startJobs])
  have kept := started.trans same
  rw [settleResolves_of_none (by rw [kept.maint, ops])]
  exact ⟨(rd_settle_engine small (kept.ctxs.trans ctxs)).trans (counts.trans (by rw [rd_startJobs])), (kept.settled ctxs).reads⟩

/-! ### Engines released (R388, R395) -/

/-- Engine `n` is released with its count at 0 where `back` says so and it was quarantined, and stands as it did otherwise. -/
structure EngineBack (n : Nat) (back : Bool) (d e : Dev) : Prop where
  quarantined : bit (e.rd MOR_STATUS.ENG_QUAR) n = (!back && bit (d.rd MOR_STATUS.ENG_QUAR) n)
  count : e.rd (MOR_ENG.PMISMATCH n) = if back && bit (d.rd MOR_STATUS.ENG_QUAR) n then 0 else d.rd (MOR_ENG.PMISMATCH n)

/-- An engine in quarantine is released. -/
def releaseEngine (d : Dev) (m : Nat) : Dev :=
  if bit (d.rd MOR_STATUS.ENG_QUAR) m then (d.putBit MOR_STATUS.ENG_QUAR m false).wr (MOR_ENG.PMISMATCH m) 0 else d

theorem engRelease_eq (mask : Nat) (d : Dev) : engRelease mask d = d.each ((List.range 16).filter (bit mask)) releaseEngine := rfl

section
variable {n m : Nat} {a b : Bool} {f : Dev}

theorem EngineBack.refl (n : Nat) (d : Dev) : EngineBack n false d d := ⟨rfl, rfl⟩

theorem EngineBack.trans (h : EngineBack n a d e) (k : EngineBack n b e f) : EngineBack n (a || b) d f := by
  refine ⟨?_, ?_⟩
  · rw [k.quarantined, h.quarantined, Bool.not_or, Bool.and_left_comm, Bool.and_assoc]
  · rw [k.count, h.quarantined, h.count]
    cases a <;> cases b <;> simp

theorem engineBack_releaseEngine (engine : n < 16) (here : m < 16) : EngineBack n (m == n) d (releaseEngine d m) := by
  have named : (m == n) = decide (n = m) := decide_eq_decide.mpr eq_comm
  unfold releaseEngine
  split
  next quar =>
    refine ⟨?_, ?_⟩
    · rw [Dev.rd_wr_ne, Dev.putBit, Dev.rd_wr]
      · rw [named, bit, MOR_STATUS.ENG_QUAR, Nat.testBit_mod_two_pow, testBit_setBit_false]
        simp [bit, engine]
      · simp only [Field.key, MOR_ENG.PMISMATCH, MOR_STATUS.ENG_QUAR]; omega
    · by_cases same : n = m
      · subst same
        simp [quar]
      · rw [Dev.rd_wr_ne, Dev.putBit, Dev.rd_wr_ne]
        · simp [named, same]
        all_goals simp only [Field.key, MOR_ENG.PMISMATCH, MOR_STATUS.ENG_QUAR]; omega
  next up =>
    rw [named]
    refine ⟨?_, ?_⟩
    all_goals
      by_cases same : n = m
      · subst same
        simp [up]
      · simp [same]

theorem engineBack_each (engine : n < 16) {l : List Nat} (engines : ∀ m ∈ l, m < 16) :
    EngineBack n (l.contains n) d (d.each l releaseEngine) := by
  induction l generalizing d with
  | nil => exact .refl n d
  | cons m l ih =>
    have first : EngineBack n (n == m) d (releaseEngine d m) := by
      rw [Bool.beq_comm]
      exact engineBack_releaseEngine engine (engines m List.mem_cons_self)
    rw [List.contains_cons]
    exact first.trans (ih fun k there => engines k (List.mem_cons_of_mem m there))

theorem engineBack_engRelease {mask : Nat} (engine : n < 16) : EngineBack n (bit mask n) d (engRelease mask d) := by
  have named : ((List.range 16).filter (bit mask)).contains n = bit mask n := by
    rw [Bool.eq_iff_iff, List.contains_iff_mem]
    simp [engine]
  rw [engRelease_eq, ← named]
  exact engineBack_each engine fun m mem => List.mem_range.mp (List.mem_of_mem_filter mem)

end

/-! ### The strips of a destage go out (R303) -/

theorem modDestage_destage {stripe : Nat} {f : Destage → Destage} (kept : ∀ x, (f x).plan = x.plan) :
    (modDestage stripe f d).destage stripe = (d.destage stripe).map f :=
  find_changed (key := fun x : Destage => x.plan.stripe) (fun x => congrArg (·.stripe) (kept x)) stripe d.destages

theorem StripsKept.destage (h : StripsKept d e) (stripe : Nat) : e.destage stripe = d.destage stripe :=
  congrArg (List.find? _) h.destages

/-- A strip that has a place and a drive goes out. -/
theorem sendStrip_placed {stripe o : Nat} {x : Destage} {p : Pool} (here : d.destage stripe = some x) (pool : tget d.pools x.pool = some p)
    (placed : ((p.place stripe o).bind (d.driveFor x.pool)).isSome) : ∃ e, sendStrip stripe o d = (true, e) ∧ StripsKept d e := by
  obtain ⟨v, drive⟩ := Option.isSome_iff_exists.mp placed
  unfold sendStrip
  rw [here]
  simp only [pool, drive]
  exact ⟨_, rfl, .issueNvme _ _ _ _ _ _ _ _⟩

/-- Every strip has a place and a drive: none of them fails as the stripe goes out. -/
theorem sendStripe_keeps {stripe : Nat} {x : Destage} {p : Pool} (here : d.destage stripe = some x) (pool : tget d.pools x.pool = some p)
    (placed : ∀ o < x.plan.k + x.plan.m, ((p.place stripe o).bind (d.driveFor x.pool)).isSome) : StripsKept d (sendStripe stripe d) := by
  unfold sendStripe
  rw [here]
  refine StripsKept.each_of fun e o mem kept => ?_
  split
  · exact kept
  · have drives : e.driveFor x.pool = d.driveFor x.pool := funext (kept.driveFor x.pool)
    obtain ⟨f, out, went⟩ := sendStrip_placed (d := e) ((kept.destage stripe).trans here) (by rw [kept.pools, pool])
      (drives ▸ placed o (List.mem_range.mp mem))
    rw [out]
    exact kept.trans went

/-- The syndromes of a destage are noted. -/
theorem destageJob_synd {x : Destage} {p : Pool} (here : d.destage x.plan.stripe = some x) (pool : tget d.pools x.pool = some p)
    (placed : ∀ o < x.plan.k + x.plan.m, ((p.place x.plan.stripe o).bind (d.driveFor x.pool)).isSome) :
    ((destageJob x d).destage x.plan.stripe) = some { x with synd := true } ∧ (destageJob x d).ctxs = d.ctxs ∧
      (destageJob x d).maint = d.maint := by
  unfold destageJob
  have noted : (modDestage x.plan.stripe (fun x => { x with synd := true }) (d.bump MOR_CNT_STRIPES.COUNT 1)).destage x.plan.stripe =
      some { x with synd := true } := by
    rw [modDestage_destage (by intro; rfl)]
    exact congrArg _ here
  have kept := sendStripe_keeps noted pool placed
  exact ⟨(kept.destage _).trans noted, kept.ctxs, kept.maint⟩

/-- A destage whose result is there has its syndromes when all has settled. -/
theorem destage_synd {s : State} {stripe : Nat} {x : Destage} {p : Pool} (here : s.dev.destage stripe = some x)
    (pool : tget s.dev.pools x.pool = some p)
    (placed : ∀ o < x.plan.k + x.plan.m, ((p.place stripe o).bind (s.dev.driveFor x.pool)).isSome) (ctxs : s.dev.ctxs = [])
    (ops : s.dev.maint.ops = []) :
    ((settle (releaseNvme (settleResolves (destageJob x { startJobs s.dev with moraine := without (startJobs s.dev).moraine stripe })))).destage
      stripe).map (·.synd) = some true := by
  have of : x.plan.stripe = stripe := by simpa using List.find?_some here
  subst of
  have started : StripsKept s.dev { startJobs s.dev with moraine := without (startJobs s.dev).moraine x.plan.stripe } :=
    .after (.of_part part_set_rest) (.of_part part_startJobs)
  have drives := funext (started.driveFor x.pool)
  obtain ⟨synd, ctxs', maint⟩ := destageJob_synd ((started.destage _).trans here) (by rw [started.pools, pool])
    (fun o small => drives.symm ▸ placed o small)
  rw [settleResolves_of_none (by rw [maint, started.maint, ops])]
  have after := (StripsKept.releaseNvme _).settled (ctxs'.trans (started.ctxs.trans ctxs))
  rw [after.destage, synd]
  rfl

end
end Sys2Proof.Machine
end

section
/-! PROOFS. What the engines of Moraine and the sequencers of Regelation take effect on. -/

namespace Sys2Proof.Machine

section
variable {s : State} {pool m : Nat} {x : Pool}

/-! ### The commands of the sequencers at the home twin -/

theorem Ready.pool.home (ready : Ready.pool pool x s) : s.dev.isHome pool = true ∧ s.dev.portsHalted = false := by
  obtain ⟨-, may, -⟩ := ready
  simp only [Dev.mayRegelate, Bool.and_eq_true, Bool.not_eq_true'] at may
  obtain ⟨⟨⟨home, ports⟩, -⟩, -⟩ := may
  exact ⟨home, ports⟩

theorem execRebuildJobStart_next (ready : Ready.pool pool x s) (room : s.dev.jobsOf pool < 256) :
    execRebuildJobStart pool s = s.ok (rebuildNext pool s.dev) := by
  obtain ⟨-, may, -⟩ := ready
  simp [execRebuildJobStart, may, room]

theorem execRebuildMarkTimer_records (ready : Ready.pool pool x s) (moved : x.mark ≠ (x.level, x.row)) :
    execRebuildMarkTimer pool s = s.ok (recordMark pool s.dev) := by
  obtain ⟨home, ports⟩ := Ready.pool.home ready
  obtain ⟨here, -, -⟩ := ready
  simp [execRebuildMarkTimer, here, home, ports, moved]

/-- A stripe that was given up is to be placed once more (R418). -/
def Destage.again (pool : Nat) (y : Destage) : Destage := if y.pool = pool ∧ y.abandoned ∧ 3 ≤ y.attempts then { y with attempts := 2 } else y

theorem execPoolPlacementRetry_again (ready : Ready.pool pool x s) (offline : x.offline = true) (recorded : x.offlineRec = false) :
    execPoolPlacementRetry pool s = s.ok { s.dev with destages := s.dev.destages.map (Destage.again pool) } := by
  obtain ⟨home, ports⟩ := Ready.pool.home ready
  obtain ⟨here, -, -⟩ := ready
  simp only [execPoolPlacementRetry, here, home, ports, offline, recorded]
  rfl

theorem again_attempts (y : Destage) (of : (y.again pool).pool = pool) (abandoned : (y.again pool).abandoned = true) :
    (y.again pool).attempts < 3 := by
  by_cases due : y.pool = pool ∧ y.abandoned ∧ 3 ≤ y.attempts
  · rw [Destage.again, if_pos due]
    exact (by decide : 2 < 3)
  · rw [Destage.again, if_neg due] at *
    exact not_le.mp fun three => due ⟨of, abandoned, three⟩

theorem execScrubStripe_next (ready : Ready.pool pool x s) (idle : s.dev.rebuildWork pool = []) :
    execScrubStripe pool s = s.ok (scrubNext pool s.dev) := by
  obtain ⟨-, may, -⟩ := ready
  simp [execScrubStripe, may, idle]

theorem execScrubLate_marks (ready : Ready.pool pool x s) (begun : x.scrub.begun = true) :
    execScrubLate pool s = s.ok (mediaEvent evScrubLate pool (s.dev.modPool pool fun x => { x with scrub := { x.scrub with late := true } })) := by
  obtain ⟨home, -⟩ := Ready.pool.home ready
  obtain ⟨here, -, -⟩ := ready
  simp [execScrubLate, here, home, begun]

theorem scrubLate_marked {d : Dev} (here : tget d.pools pool = some x) :
    (tget (mediaEvent evScrubLate pool (d.modPool pool fun x => { x with scrub := { x.scrub with late := true } })).pools pool).map (·.scrub.late) =
      some true := by
  rw [(StoresKept.of_part part_mediaEvent).pools, modPool_pool, here]
  rfl

theorem execDriveAbsenceTimeout_declares {y : PoolMember} (here : s.dev.member pool m = some y) (absent : y.absentSince.isSome)
    (home : s.dev.isHome pool = true) (closed : pool ∉ s.dev.drives.windows) :
    execDriveAbsenceTimeout pool m s = s.ok (settle (declareOne pool m 1 s.dev)) := by
  simp [execDriveAbsenceTimeout, here, absent, home, closed]

section
variable {r : Reloc} {k : Nat}

theorem execEvacuationRowCopy_ends (ready : Ready.pool pool x s) (entry : x.relocs.find? (fun r => r.member == m) = some r) (mark : r.mark = some k)
    (evacuates : x.mstate m = 6) (last : s.dev.nextEvacRow pool m k = none) : execEvacuationRowCopy pool m s =
      s.ok (changeMember pool m 7 (fun y => { y with checked := [], tried := [] }) (setMark pool m x.rows s.dev)) := by
  obtain ⟨here, may, -⟩ := ready
  simp [execEvacuationRowCopy, here, entry, mark, may, evacuates, last]

theorem execEvacuationRowCopy_reads {row st o : Nat} (ready : Ready.pool pool x s) (entry : x.relocs.find? (fun r => r.member == m) = some r)
    (mark : r.mark = some k) (evacuates : x.mstate m = 6) (next : s.dev.nextEvacRow pool m k = some row)
    (strip : s.dev.rowStrip pool m row = some (st, o)) (still : s.dev.moving pool m st = false) (live : (s.dev.stripe st).any (·.reserved) = false) :
    execEvacuationRowCopy pool m s = s.ok (beginRead (StripeRead.make st 3 (.move m o)) (setMark pool m row s.dev)) := by
  obtain ⟨here, may, -⟩ := ready
  simp [execEvacuationRowCopy, here, entry, mark, may, evacuates, next, strip, still, live]

end

theorem execEngRelease_releases {path : Path} {mask : Nat} (writes : mediaWriter path = true) :
    execEngRelease path mask s = s.ok (engRelease mask s.dev) := by
  simp [execEngRelease, writes]

end

/-- Settles O24: what a pool's sequencers and members do not lose is its course, which every clause of Regelation reads off; the engines rest on
what a stripe's strips rest on. -/
theorem enginesAndSequencersTakeEffect : Obligations.EnginesAndSequencersTakeEffect := by
  unfold Obligations.EnginesAndSequencersTakeEffect
  refine ⟨?mismatch, ?destage, ?release, ?absence, ?rebuild, ?mark, ?retry, ?passEnds, ?sweeps, ?late, ?evacuated, ?copies⟩
  case mismatch =>
    intro pool stripe engine s small up of held waits few ctxs ops
    exact ⟨_, execMoraineJobComplete_mismatch small up of held waits, mismatch_counted small few ctxs ops⟩
  case destage =>
    intro pool stripe engine x p s small up of held here intent synd race known placed ctxs ops
    exact ⟨_, execMoraineJobComplete_destage small up of held here intent synd race,
      destage_synd here known placed ctxs ops⟩
  case release =>
    intro path mask s writes
    refine ⟨_, execEngRelease_releases writes, fun n engine => ?_⟩
    obtain ⟨quarantined, count⟩ := engineBack_engRelease (d := s.dev) (mask := mask) engine
    exact ⟨quarantined, fun named quar => count.trans (if_pos (by rw [named, quar]; rfl))⟩
  case absence =>
    intro pool m y s here absent home closed state
    have used : y.state ≠ 0 ∧ y.state ≠ 4 := by omega
    exact ⟨_, execDriveAbsenceTimeout_declares here absent home closed,
      (standingOf_of_course course_settle pool m).trans (declareOne_standing here used.1 used.2 home)⟩
  case rebuild =>
    intro pool x st s ready room next _
    exact ⟨_, execRebuildJobStart_next ready room, rebuildNext_place ready.1 next⟩
  case mark =>
    intro pool x s ready moved
    exact ⟨_, execRebuildMarkTimer_records ready moved, recordMark_mark ready.1⟩
  case retry =>
    intro pool x s ready offline recorded
    refine ⟨_, execPoolPlacementRetry_again ready offline recorded, ?_, ?_⟩
    · intro y mem of abandoned
      obtain ⟨z, -, rfl⟩ := List.mem_map.mp mem
      exact again_attempts z of abandoned
    · intro y mem of abandoned three
      exact List.mem_map.mpr ⟨y, mem, if_pos ⟨of, abandoned, three⟩⟩
  case passEnds =>
    intro pool x s ready idle begun redo repair routine none
    exact ⟨_, execScrubStripe_next ready idle, scrubNext_ends ready.1 begun redo repair routine none⟩
  case sweeps =>
    intro pool x st s ready idle begun redo repair next
    exact ⟨_, execScrubStripe_next ready idle, scrubNext_sweeps ready.1 begun redo repair next⟩
  case late =>
    intro pool x s ready begun
    exact ⟨_, execScrubLate_marks ready begun, scrubLate_marked ready.1⟩
  case evacuated =>
    intro pool m k x r s ready entry mark evacuates last
    exact ⟨_, execEvacuationRowCopy_ends ready entry mark evacuates last, evacuation_ends ready.1 evacuates x.rows⟩
  case copies =>
    intro pool m k row st o x r s ready entry mark evacuates next strip still live _
    exact ⟨_, execEvacuationRowCopy_reads ready entry mark evacuates next strip still live, evacuation_reads _ ready.1 entry⟩

end Sys2Proof.Machine
end

section
/-! PROOFS. The activities of the ledger (R428, R429, R436, R437): what leaves the maintenance state as it is, and an activity that is admitted,
refused or released. -/

namespace Sys2Proof.Machine

section
variable {d : Dev} {a : Activity}

/-! ### What leaves the maintenance state as it is -/

theorem Dev.each_maint {α : Type} {l : List α} {f : Dev → α → Dev} (h : ∀ d a, (f d a).maint = d.maint) : (d.each l f).maint = d.maint := by
  induction l generalizing d with
  | nil => rfl
  | cons a l ih => exact ih.trans (h d a)

theorem snowSend_maint (k : Kind) (cls : Nat) (m : Msg) (d : Dev) : (snowSend k cls m d).maint = d.maint := by
  obtain ⟨_, stores⟩ := snowSend_sealed k cls m d
  exact stores.maint

theorem finish_maint (q tag st res : Nat) (d : Dev) : (finish q tag st res d).maint = d.maint := by
  unfold finish
  split
  · exact snowSend_maint _ _ _ _
  · exact (complete_units _ _ _ _ _).maint

theorem remap_maint (p : Nat) (written : Nat → Nat → Bool) (f : Pool → Pool) (d : Dev) : (remap p written f d).maint = d.maint := by
  unfold remap
  split <;> rfl

/-- The blocks that record a pool, and the message that tells the twin, touch no activity. -/
theorem recordPool_maint (p : Nat) (d : Dev) : (recordPool p d).maint = d.maint := by
  have told : (sendPool p d).maint = d.maint := by
    unfold sendPool
    split
    · rfl
    · extract_lets
      split
      · rfl
      · exact snowSend_maint _ _ _ _
  have written (i change : Nat) (b : CfgBlock) (d : Dev) : (writeBlock i p change b d).maint = d.maint := by
    unfold writeBlock
    split
    · rfl
    · exact (StripsKept.issueNvme _ _ _ _ _ _ _ _).maint
  unfold recordPool
  split
  · rfl
  · refine (Dev.each_maint fun d e => ?_).trans told
    split
    · rfl
    · split
      · exact written _ _ _ _
      · rfl

theorem changeMember_maint (p m st : Nat) (f : PoolMember → PoolMember) (d : Dev) : (changeMember p m st f d).maint = d.maint :=
  (recordPool_maint p _).trans (remap_maint _ _ _ _)

/-! ### An activity enters the ledger (R428, R434) -/

theorem mirrorActivity_maint (a : Activity) (ended : Bool) (d : Dev) : (mirrorActivity a ended d).maint = d.maint := by
  unfold mirrorActivity
  split
  · rfl
  · exact snowSend_maint _ _ _ _

/-- An activity that changes takes the place of the one with its ID, or joins the others. -/
theorem putActivity_acts (a : Activity) (d : Dev) : (putActivity a d).maint.acts =
    if d.maint.acts.any (·.id == a.id) then d.maint.acts.map fun x => if x.id = a.id then a else x else d.maint.acts ++ [a] :=
  congrArg Maint.acts (mirrorActivity_maint _ _ _)

theorem mem_putActivity (a : Activity) (d : Dev) : a ∈ (putActivity a d).maint.acts := by
  rw [putActivity_acts]
  split
  next there =>
    obtain ⟨x, mem, same⟩ := List.any_eq_true.mp there
    exact List.mem_map.mpr ⟨x, mem, if_pos (beq_iff_eq.mp same)⟩
  · exact List.mem_append_right _ List.mem_cons_self

theorem onAdmit_maint (a : Activity) (d : Dev) : (onAdmit a d).maint = d.maint := by
  unfold onAdmit
  split
  · rfl
  · split
    · exact (changeMember_maint _ _ _ _ _).trans (remap_maint _ _ _ _)
    · split <;> rfl

/-- The ledger with an activity that it admitted, before the activity acts. -/
def Dev.admitting (d : Dev) (a : Activity) : Dev :=
  (putActivity a { d with maint := { d.maint with serial := a.id % 2 ^ 15 } }).bump MNT_CNT_ADMITTED.COUNT 1

theorem ledgerRequest_admits {r : MaintReq} {q tag : Nat} (passes : d.maintCheck r = (0, 0)) : ledgerRequest r q tag d =
    let a := r.act d.nextActId d.tbMedia
    finish q tag stSuccess ((d.admitting a).admitResult a) (onAdmit a (d.admitting a)) := by
  unfold ledgerRequest
  rw [passes]
  rfl

theorem ledgerRequest_refuses {r : MaintReq} {q tag st res : Nat} (fails : d.maintCheck r = (st, res)) (refused : st ≠ 0) :
    ledgerRequest r q tag d =
      finish q tag st res (d.when (st == stMaintConflict || st == stMaintMargin) fun d => d.bump MNT_CNT_REFUSED.COUNT 1) := by
  unfold ledgerRequest
  rw [fails]
  split
  next same => exact absurd (congrArg Prod.fst same) refused
  next same =>
    obtain ⟨rfl, rfl⟩ := Prod.mk.inj same
    rfl

/-! ### An activity leaves the ledger (R436, R437) -/

theorem modActs_tstate (f : List Activity → List Activity) (d : Dev) : (modActs f d).tstate = d.tstate :=
  (Dev.rd_wr_ne _ _ (by decide)).trans (Dev.rd_wr_ne _ _ (by decide))

/-- Away from the pool's home twin, and for kinds that hold no member, a release ends no operation. -/
theorem releaseEffect_maint (outside : d.isHome a.pool = false ∨ 4 ≤ a.kind) (good : Bool) : (releaseEffect a good d).maint = d.maint := by
  unfold releaseEffect
  split
  · rfl
  next home =>
    have kind : 4 ≤ a.kind := outside.resolve_left fun away => home (by simp [away])
    split
    · omega
    · split <;> rfl
    · omega
    · omega
    · rfl

theorem releaseActivity_acts (alone : d.tstate ≠ 5) (outside : d.isHome a.pool = false ∨ 4 ≤ a.kind) (good : Bool) :
    (releaseActivity a good d).maint.acts = d.maint.acts.filter fun x => x.id != a.id := by
  have untold : ((modActs (fun l => l.filter fun x => x.id != a.id) d).tstate == 5) = false := by simpa [modActs_tstate] using alone
  unfold releaseActivity
  simp only [untold, Dev.when, Bool.false_eq_true, if_false]
  exact congrArg Maint.acts (releaseEffect_maint (d := modActs _ d) outside good)

end

/-! ### The commands -/

section
variable {q tag : Nat} {qu : Queue} {c : Cmd} {s : State}

/-- A command of a queue of this module is answered here. -/
theorem Waits.finish_here {ops : List Nat} {d : Dev} (waits : Waits ops q tag d qu c) (st res : Nat) (e : Dev) :
    finish q tag st res e = complete q tag st res e := by
  obtain ⟨-, -, -, -, -, -, -, -, small⟩ := waits
  exact if_neg (by omega)

theorem holdsLedger_of_alone {d : Dev} (alone : d.tstate ≠ 5) : d.holdsLedger = true := by simp [Dev.holdsLedger, alone]

theorem exec_maintRequest (ready : Ready.maint 0xC0 q tag qu c s) (formed : (requestOf qu c).ok s.dev = true) :
    exec (.maintRequest q tag) s = s.ok (ledgerRequest (requestOf qu c) q tag (s.dev.begun q tag)) := by
  obtain ⟨waits, media, alone⟩ := ready
  have formed' : ¬ (!(requestOf qu c).ok (s.dev.begun q tag)) = true := by
    change ¬ (!(requestOf qu c).ok s.dev) = true
    simp [formed]
  have ledger : (s.dev.begun q tag).holdsLedger = true := holdsLedger_of_alone alone
  change execMaintRequest q tag s = _
  rw [execMaintRequest, mediaAdmin_runs (by decide) waits media]
  exact congrArg s.ok ((if_neg formed').trans (if_pos ledger))

theorem execMaintRequest_admits (ready : Ready.maint 0xC0 q tag qu c s) (formed : (requestOf qu c).ok s.dev = true)
    (passes : s.dev.maintCheck (requestOf qu c) = (0, 0)) : Does (.maintRequest q tag) s fun t =>
      Gone q tag t.dev ∧ (requestOf qu c).act s.dev.nextActId s.dev.tbMedia ∈ t.dev.maint.acts := by
  have passes' : (s.dev.begun q tag).maintCheck (requestOf qu c) = (0, 0) := passes
  refine ⟨_, exec_maintRequest ready formed, ?_⟩
  obtain ⟨waits, -, -⟩ := ready
  dsimp only
  rw [ledgerRequest_admits passes', waits.finish_here]
  refine ⟨complete_gone _ _ _ _ _, ?_⟩
  rw [(complete_units _ _ _ _ _).maint, onAdmit_maint]
  exact mem_putActivity ((requestOf qu c).act s.dev.nextActId s.dev.tbMedia) _

theorem execMaintRequest_refuses {st n : Nat} (ready : Ready.maint 0xC0 q tag qu c s) (formed : (requestOf qu c).ok s.dev = true)
    (fails : s.dev.maintCheck (requestOf qu c) = (st, n)) (refused : st ≠ 0) : Does (.maintRequest q tag) s fun t =>
      Answered q tag st n qu c s.dev t.dev ∧ t.dev.maint = s.dev.maint := by
  have fails' : (s.dev.begun q tag).maintCheck (requestOf qu c) = (st, n) := fails
  refine ⟨_, exec_maintRequest ready formed, ?_⟩
  obtain ⟨waits, -, -⟩ := ready
  dsimp only
  rw [ledgerRequest_refuses fails' refused, waits.finish_here]
  have apart (f : Field) (space : 2048 ≤ f.space) : f.key ≠ MNT_CNT_REFUSED.COUNT.key := key_cfg_ne space (by decide) (by decide) (by decide)
  rw [(complete_units _ _ _ _ _).maint]
  unfold Dev.when
  split
  · exact ⟨waits.answered_now rfl rfl rfl rfl (fun f space => Dev.rd_wr_ne _ _ (apart f space)) (.of_eq rfl), rfl⟩
  · exact ⟨waits.answered_now rfl rfl rfl rfl (fun _ _ => rfl) (.of_eq rfl), rfl⟩

theorem execMaintRelease_releases {good : Bool} {a : Activity} (ready : Ready.maint 0xC1 q tag qu c s)
    (names : s.dev.activity (pktField c.pkt 48 2) = some a) (outside : s.dev.isHome a.pool = false ∨ 4 ≤ a.kind) :
    Does (.maintRelease q tag good) s fun t => Gone q tag t.dev ∧ t.dev.maint.acts = s.dev.maint.acts.filter (fun x => x.id != a.id) := by
  obtain ⟨waits, media, alone⟩ := ready
  have ledger : (s.dev.begun q tag).holdsLedger = true := holdsLedger_of_alone alone
  have names' : (s.dev.begun q tag).activity (pktField c.pkt 48 2) = some a := names
  have run : execMaintRelease q tag good s =
      s.ok (complete q tag stSuccess 0 (releaseActivity a good (s.dev.begun q tag))) := by
    rw [execMaintRelease, mediaAdmin_runs (by decide) waits media]
    simp only [if_pos ledger, ledgerRelease, names', waits.finish_here]
  refine ⟨_, run, complete_gone _ _ _ _ _, ?_⟩
  dsimp only
  rw [(complete_units _ _ _ _ _).maint]
  exact releaseActivity_acts (d := s.dev.begun q tag) alone outside good

theorem execActivityLimitExpiry_releases {id : Nat} {good : Bool} {a : Activity} (names : s.dev.activity id = some a) (alone : s.dev.tstate ≠ 5)
    (limited : a.limit ≠ 0) (outside : s.dev.isHome a.pool = false ∨ 4 ≤ a.kind) :
    Does (.activityLimitExpiry id good) s fun t => t.dev.maint.acts = s.dev.maint.acts.filter (fun x => x.id != a.id) := by
  have run : execActivityLimitExpiry id good s = s.ok (mediaEvent evActivity (a.id + 2 ^ 17) (releaseActivity a good s.dev)) := by
    simp [execActivityLimitExpiry, names, limited, holdsLedger_of_alone alone]
  refine ⟨_, run, ?_⟩
  dsimp only
  rw [(mediaEvent_stores _ _ _).maint]
  exact releaseActivity_acts alone outside good

end

/-- Settles O11: an admitted activity is in the ledger (`mem_putActivity`), and neither what it starts (`onAdmit_maint`) nor the completion takes
it out; a refusal counts and completes; a release takes its activity out of the ledger (`releaseActivity_acts`), and the completion or the
event that follows leaves the ledger alone. -/
theorem activitiesAreAdmittedAndReleased : Obligations.ActivitiesAreAdmittedAndReleased := by
  unfold Obligations.ActivitiesAreAdmittedAndReleased
  refine ⟨?admitted, ?refused, ?released, ?expired⟩
  case admitted =>
    rintro q tag qu c _ s ready rfl formed passes
    exact execMaintRequest_admits ready formed passes
  case refused =>
    rintro q tag qu c _ st n s ready rfl formed fails refused
    exact execMaintRequest_refuses ready formed fails refused
  case released => exact fun q tag good qu c a s ready names outside => execMaintRelease_releases ready names outside
  case expired => exact fun id good a s names alone limited outside => execActivityLimitExpiry_releases names alone limited outside

end Sys2Proof.Machine
end

section
/-! PROOFS. FW_STAGE (R442) at a root port whose submission arbiter leaves every grant idle that the model tries (R605, R738): the command for the
drive stays queued. -/

namespace Sys2Proof.Machine

/-- A DRIVE_SERVICE for drive handle 0 under activity 1, with the operation FW_STAGE. -/
def stagesFirmware : Cmd :=
  ⟨0, 0#64 ++ 0x40001#64 ++ 0xC3#384, [], 0, .ready, false, false, false, [], [], 0, 0, 0, 0, [], [], 0, [], none, false, 0, false⟩

/-- The admin queue of the PF of endpoint 0 with that command. -/
def asksStage : Queue := { Queue.make 0 16 1 false false 0 0 0 0x10000 0x20000 true with cmds := [stagesFirmware] }

/-- The activity: a service of member 0 of pool 0. -/
def serviceOf0 : Activity := ⟨1, 1, 0, 0, 0, 0, 0, true, 0⟩

/-- Drive 0, bound to that member, at root port 0. -/
def boundDrive : Drive := { Drive.found 0 0 4 4 0 0 [] 0 with state := 4 }

/-- A module with that drive, whose pool 0 has the one member, in service. -/
def memberInService : Dev :=
  let d := ((hostInService.set (SCH_STATUS.UP .host)).set (SCH_STATUS.UP .media)).addQueue 0 asksStage
  { d with
    pools := [(0, { Pool.make (4 + 2 * 2 ^ 6 + 8 * 2 ^ 9) 1 0 with members := [(0, { PoolMember.make 1 0 with drive := some 0 })] })]
    maint := { d.maint with acts := [serviceOf0] }
    drives := { d.drives with table := [(0, boundDrive)] } }

/-- The module with a throttle level of 4 and the submission arbiter of root port 0 at grant 8 of its frame. A level has two bits and a frame 8
grants, so that no run leads here; but the statement speaks of every state, and its premises name neither. -/
def throttledOutOfFrame : State :=
  { State.reset with dev := { memberInService with
      regs := tput memberInService.regs (CRP_THERM.LEVEL .media).key 4
      arbs := tput memberInService.arbs (arbNum (.drive 0)) { Arb.fresh with pos := 8 } } }

theorem throttledOutOfFrame_ready : Ready.service 4 0 0 serviceOf0 0 boundDrive asksStage stagesFirmware throttledOutOfFrame ∧
    Ready.submits 0 true 3 throttledOutOfFrame := by
  decide +kernel

/-- FW_STAGE sends nothing: of the 8 grants that are tried for its command, grant 8 and then grants 1 to 7 are idle. -/
theorem exec_fwStage_queued : ∃ t, exec (.fwStage 0 0 (some [])) throttledOutOfFrame = .next t ∧ t.dev.out = throttledOutOfFrame.dev.out :=
  ⟨_, rfl, by decide +kernel⟩

/-- Refutes O12: FW_STAGE is to send its command to the drive where the root ports carry traffic, none waits and the controller has room. But
where the throttle leaves 8 grants or more idle and the frame of the submission arbiter stands beyond its end, every grant that is tried is idle
and the command stays queued (`exec_fwStage_queued`): the premises exclude neither. -/
theorem not_driveServiceActsOnTheMember : ¬ Obligations.DriveServiceActsOnTheMember := by
  unfold Obligations.DriveServiceActsOnTheMember
  rintro ⟨-, -, -, stages, -⟩
  obtain ⟨ready, submits⟩ := throttledOutOfFrame_ready
  obtain ⟨t, run, -, sent⟩ := stages 0 0 [] serviceOf0 0 boundDrive asksStage stagesFirmware throttledOutOfFrame ready submits
  obtain ⟨t', run', unsent⟩ := exec_fwStage_queued
  obtain rfl := Host.Outcome.next.inj (run.symm.trans run')
  exact not_sent_of_out_eq unsent sent

end Sys2Proof.Machine
end

section
/-! PROOFS. The open streams, and what decides whether a function may write to its host (R560, R580, R591): what a message of the Snowbridge, a
counter value, an event and a completion leave of them. -/

namespace Sys2Proof.Machine

/-! ### What is served beside a stream -/

/-- A register field that does not decide whether a function may write to its host: neither Bus Master Enable nor an enable of virtual functions
or of an IDE stream. -/
abbrev Field.bystander (f : Field) : Prop := ∀ fn i : Nat,
  (CFG.BME fn).key ≠ f.key ∧ (CFG.VF_EN fn).key ≠ f.key ∧ (CFG.VF_MSE fn).key ≠ f.key ∧ (i < 8 → (CFG.IDE_EN fn i).key ≠ f.key)

/-- The streams, and what decides whether a function may write to its host, are as they were; a function whose sends did not wait holds
nothing. -/
structure Serves (d e : Dev) : Prop where
  streams : e.streams = d.streams
  holding : ∀ fn, e.holding fn = d.holding fn
  ide : ∀ fn, e.ideClear fn = d.ideClear fn
  held : ∀ fn, d.sendsWait fn = false → (e.fn fn).hold = []

theorem Dev.sendsWait_eq_false_iff {d : Dev} {fn : Nat} : d.sendsWait fn = false ↔ d.holding fn = false ∧ (d.fn fn).hold = [] := by
  simp [Dev.sendsWait]

theorem Field.off_of_key {f : Field} (off : f.off < 2 ^ 28) (lsb : f.lsb < 64) : f.key / 64 % 2 ^ 28 = f.off := by
  unfold Field.key
  omega

/-- The fields that decide it stand at their own offsets in every configuration space. -/
theorem Field.bystander_of_off {f : Field} (off lsb : Nat) (place : f.off = off ∧ f.lsb = lsb)
    (apart : (off < 2 ^ 28 ∧ lsb < 64) ∧ off ≠ 0x4 ∧ off ≠ 0x198 ∧ (off < 0x300 ∨ 0x500 ≤ off)) : f.bystander := by
  obtain ⟨rfl, rfl⟩ := place
  obtain ⟨⟨off, lsb⟩, command, vfs, ide⟩ := apart
  have ne {g : Field} (small : g.off < 2 ^ 28 ∧ g.lsb < 64) (other : f.off ≠ g.off) : g.key ≠ f.key := fun same =>
    other (by rw [← off_of_key off lsb, ← same, off_of_key small.1 small.2])
  refine fun fn i => ⟨?_, ?_, ?_, fun few => ?_⟩
  · exact ne (g := CFG.BME fn) (by decide : 0x4 < 2 ^ 28 ∧ 2 < 64) command
  · exact ne (g := CFG.VF_EN fn) (by decide : 0x198 < 2 ^ 28 ∧ 0 < 64) vfs
  · exact ne (g := CFG.VF_MSE fn) (by decide : 0x198 < 2 ^ 28 ∧ 3 < 64) vfs
  · have place : (CFG.IDE_EN fn i).off = 0x310 + 44 * i := by
      simp only [CFG.IDE_EN, ideBlock]
      omega
    exact ne (g := CFG.IDE_EN fn i) ⟨by omega, (by decide : 0 < 64)⟩ (by omega)

namespace Serves
variable {a b d e : Dev}

/-- What writes neither the streams nor a register, a function or an endpoint. -/
theorem of_same (streams : e.streams = d.streams) (regs : e.regs = d.regs) (fns : e.fns = d.fns) (eps : e.eps = d.eps) : Serves d e where
  streams := streams
  holding fn := Dev.holding_congr fn (fun f _ => Dev.rd_congr regs f) fns eps
  ide fn := Dev.ideClear_congr fn (fun f _ => Dev.rd_congr regs f) eps
  held fn may := by
    rw [Dev.fn, fns]
    exact (Dev.sendsWait_eq_false_iff.mp may).2

theorem refl (d : Dev) : Serves d d := of_same rfl rfl rfl rfl

theorem trans (h : Serves d a) (k : Serves a b) : Serves d b where
  streams := k.streams.trans h.streams
  holding fn := (k.holding fn).trans (h.holding fn)
  ide fn := (k.ide fn).trans (h.ide fn)
  held fn may := by
    have free := (Dev.sendsWait_eq_false_iff.mp may).1
    exact k.held fn (Dev.sendsWait_eq_false_iff.mpr ⟨(h.holding fn).trans free, h.held fn may⟩)

theorem ite {c : Prop} [Decidable c] (h : Serves d a) (k : Serves d b) : Serves d (if c then a else b) := by
  split
  · exact h
  · exact k

theorem when {c : Bool} {f : Dev → Dev} (h : Serves d (f d)) : Serves d (d.when c f) := ite h (refl d)

theorem wr (d : Dev) {f : Field} (apart : f.bystander) (v : Nat) : Serves d (d.wr f v) := by
  have kept {g : Field} (other : g.key ≠ f.key) : (d.wr f v).is g = d.is g := Dev.is_wr_ne other
  refine ⟨rfl, fun fn => ?_, fun fn => ?_, fun fn may => (Dev.sendsWait_eq_false_iff.mp may).2⟩
  · have bme := kept (apart fn 0).1
    have enabled := kept (apart (256 * epOf fn) 0).2.1
    have space := kept (apart (256 * epOf fn) 0).2.2.1
    simp only [Dev.holding, Dev.vfAllowed, bme, enabled, space]
    rfl
  · have each (i : Nat) (mem : i ∈ List.range 8) : (d.wr f v).ideInsecure (epOf fn) i = d.ideInsecure (epOf fn) i := by
      have enabled := kept ((apart (256 * epOf fn) i).2.2.2 (List.mem_range.mp mem))
      simp only [Dev.ideInsecure, enabled]
      rfl
    rw [Dev.ideClear, Dev.ideClear, Bool.eq_iff_iff, List.all_eq_true, List.all_eq_true]
    exact forall₂_congr fun i mem => by rw [each i mem]

theorem bump (d : Dev) {f : Field} (apart : f.bystander) (n : Nat) : Serves d (d.bump f n) := wr d apart _

/-- A change of a function that keeps its power state and what it holds. -/
theorem modFn (d : Dev) (n : Nat) {f : Fn → Fn} (d3 : (f (d.fn n)).d3 = (d.fn n).d3) (hold : (f (d.fn n)).hold = (d.fn n).hold) :
    Serves d (d.modFn n f) := by
  have same (fn : Nat) : ((d.modFn n f).fn fn).d3 = (d.fn fn).d3 ∧ ((d.modFn n f).fn fn).hold = (d.fn fn).hold := by
    by_cases here : fn = n
    · subst here
      simp [d3, hold]
    · simp [Dev.fn_modFn_ne d f here]
  refine ⟨rfl, fun fn => ?_, fun _ => rfl, fun fn may => (same fn).2.trans (Dev.sendsWait_eq_false_iff.mp may).2⟩
  rw [Dev.holding, (same fn).1]
  rfl

/-! #### Interrupts and events (R572, R574, R595, R768, R771) -/

theorem trigger (fn v : Nat) (d : Dev) : Serves d (trigger fn v d) := by
  have pending : (CFG.MSI_PEND fn).bystander := Field.bystander_of_off 0x64 0 ⟨rfl, rfl⟩ (by decide)
  exact ite (ite (modFn d fn rfl rfl) (of_same rfl rfl rfl rfl)) (ite (ite (wr d pending _) (of_same rfl rfl rfl rfl)) (refl d))

theorem pmeFor (fn : Nat) (d : Dev) : Serves d (pmeFor fn d) := by
  have status : (CFG.PME_ST fn).bystander := Field.bystander_of_off 0x44 15 ⟨rfl, rfl⟩ (by decide)
  have woken : Serves d (d.modEp (epOf fn) fun e => { e with wake := true }) := by
    have same (n : Nat) : ((d.modEp (epOf fn) fun e => { e with wake := true }).ep n).perst = (d.ep n).perst ∧
        ((d.modEp (epOf fn) fun e => { e with wake := true }).ep n).ide = (d.ep n).ide := by
      by_cases here : n = epOf fn
      · subst here
        simp
      · simp [Dev.ep_modEp_ne d _ here]
    refine ⟨rfl, fun n => ?_, fun n => ?_, fun n may => (Dev.sendsWait_eq_false_iff.mp may).2⟩
    · rw [Dev.holding, (same _).1]
      rfl
    · simp only [Dev.ideClear, Dev.ideInsecure, (same _).2]
      rfl
  exact ite (refl d) (ite (woken.trans (of_same rfl rfl rfl rfl)) (ite ((wr d status 1).trans (of_same rfl rfl rfl rfl)) (refl d)))

/-- An event that waits is held by a function whose sends wait. -/
theorem postEvent (fn : Nat) (x : Event) (d : Dev) : Serves d (postEvent fn x d) := by
  have lost : (RNG_EV_LOST.LOST fn).bystander := Field.bystander_of_off 0x100028 0 ⟨rfl, rfl⟩ (by decide)
  have written : Serves d (writeEvent fn x d) :=
    Serves.trans (a := d.ask _) (of_same rfl rfl rfl rfl) ((modFn _ fn rfl rfl).trans (trigger _ _ _))
  have rung : Serves d (ringEvent fn x d) := ite written (ite (modFn d fn rfl rfl) ((modFn d fn rfl rfl).trans (bump _ lost 1)))
  unfold Machine.postEvent
  split
  next waits =>
    have kept : Serves d (d.modFn fn fun f => { f with hold := f.hold ++ [.event x] }) := by
      refine ⟨rfl, fun n => ?_, fun _ => rfl, fun n may => ?_⟩
      · by_cases here : n = fn
        · subst here
          rw [Dev.holding, Dev.fn_modFn]
          rfl
        · rw [Dev.holding, Dev.fn_modFn_ne d _ here]
          rfl
      · have other : n ≠ fn := fun here => Bool.false_ne_true ((here ▸ may).symm.trans waits)
        rw [Dev.fn_modFn_ne d _ other]
        exact (Dev.sendsWait_eq_false_iff.mp may).2
    exact kept.trans (pmeFor fn _)
  next => exact rung

/-! #### Rime and the Snowbridge (R210, R222, R226, R508) -/

theorem drbgServe (n : Nat) (d : Dev) : Serves d (drbgServe n d) :=
  ite (of_same rfl rfl rfl rfl) (ite (of_same rfl rfl rfl rfl) (of_same rfl rfl rfl rfl))

theorem takeCounter (n : Nat) (d : Dev) : Serves d (takeCounter n d).2 := by
  have warned : RIM_STATUS.NONCE_WARN.bystander := Field.bystander_of_off _ _ ⟨rfl, rfl⟩ (by decide)
  unfold Machine.takeCounter
  extract_lets k nx warn e1 e2
  have counted : Serves d e1 := of_same rfl rfl rfl rfl
  have told : Serves d e2 := counted.trans (when ((wr e1 warned 1).trans (postEvent _ _ _)))
  split
  · exact refl d
  · exact told

theorem linkCompare (len : Nat) (d : Dev) : Serves d (linkCompare len d).2 := by
  have retried : RIM_CNT_RETRIES.COUNT.bystander := Field.bystander_of_off _ _ ⟨rfl, rfl⟩ (by decide)
  have counted : RIM_CNT_BLOCKS.COUNT.bystander := Field.bystander_of_off _ _ ⟨rfl, rfl⟩ (by decide)
  have drawn : Serves d d.draw.2 := of_same rfl rfl rfl rfl
  unfold Machine.linkCompare
  generalize d.draw = x at drawn ⊢
  have noted (f : Rime → Rime) (d : Dev) : Serves d ((d.modRime f).bump RIM_CNT_RETRIES.COUNT 1) :=
    trans (a := d.modRime f) (of_same rfl rfl rfl rfl) (bump _ retried 1)
  exact (drawn.trans (drbgServe _ _)).trans ((when (noted _ _)).trans (bump _ counted _))

theorem sealSnow (b : Bytes) (d : Dev) : Serves d (sealSnow b d).2 := by
  have refused : RIM_CNT_NONCE_EXH.COUNT.bystander := Field.bystander_of_off _ _ ⟨rfl, rfl⟩ (by decide)
  have taken := takeCounter linkSlot d
  unfold Machine.sealSnow
  split
  · exact refl d
  · split <;> rename_i eq <;> rw [eq] at taken
    · exact taken.trans (bump _ refused 1)
    · exact taken.trans (linkCompare _ _)

theorem of_links (only : OnlyLinks d e) : Serves d e := of_same only.streams only.regs only.fns only.eps

theorem snowSend (k : Kind) (cls : Nat) (m : Msg) (d : Dev) : Serves d (snowSend k cls m d) := by
  have queued (cls : Nat) (b : Bytes) (d : Dev) : Serves d (queueFrames .snow k cls 1024 b (d.emit (.snow k m))) :=
    of_links ((emit_only d _).trans (queueFrames_only _ _ _ _ _ _).1)
  have sealed := sealSnow (snowBytes k m) d
  unfold Machine.snowSend snowSendFor
  refine ite (refl d) (ite (of_same rfl rfl rfl rfl) (ite ?_ (queued _ _ _)))
  split <;> rename_i eq <;> rw [eq] at sealed
  · exact sealed
  · exact sealed.trans (queued _ _ _)

/-- A duplicated computation whose copies agree. -/
theorem compare2_agree (sl len : Nat) (d : Dev) : Serves d (compare2 sl len .agree d).2 :=
  (drbgServe _ d).trans (bump _ (Field.bystander_of_off _ _ ⟨rfl, rfl⟩ (by decide)) _)

end Serves

/-! ### Completions -/

section
variable {q tag st res : Nat} {d e : Dev} {qu : Queue} {c : Cmd}

theorem Room.serves (room : Room d qu) (serves : Serves d e) : Room e qu := by
  obtain ⟨sends, none, held, space, clear⟩ := room
  exact ⟨(serves.holding _).trans sends, serves.held _ (Dev.sendsWait_eq_false_iff.mpr ⟨sends, none⟩), held, space,
    (serves.ide _).trans clear⟩

/-- A command that started is answered where its queue is as it was and its completion still has room. -/
theorem Waits.answered_room {ops : List Nat} (waits : Waits ops q tag d qu c) (quiet : Quiet (d.begun q tag) e) (room : Room e qu) :
    Answered q tag st res qu c d (complete q tag st res e) := by
  obtain ⟨-, here, -, stage, loud, -⟩ := id waits
  let qu' : Queue := { qu with cmds := qu.cmds.map fun c => if bits c.pkt.toNat 16 16 = tag then { c with started := true } else c }
  have queue : e.queue q = some qu' := by
    rw [Dev.queue, quiet.rings]
    exact waits.started_queue _
  have found : qu'.cmd tag = some { c with started := true } := Queue.cmd_map here (fun c => { c with started := true }) fun _ => rfl
  obtain ⟨sent, gone⟩ := complete_answered (st := st) (res := res) queue found (by simp [stage]) loud room
  have same : cqeOut q tag st res e qu' { c with started := true } = cqeOut q tag st res d qu c := by
    simp only [cqeOut, Dev.sqHeadOf, quiet.rings]
    rfl
  exact ⟨Sent.of_grows quiet.out (same ▸ sent), gone⟩

theorem postCqe_streams (x : Cqe) (d : Dev) : (postCqe q x d).streams = d.streams := by
  have ended (frees : Option Nat) (d : Dev) : (d.endReset frees).streams = d.streams := by
    unfold Dev.endReset
    split <;> rfl
  have signalled (d : Dev) : (signalQueue q d).streams = d.streams := by
    unfold signalQueue
    split
    · rfl
    · split
      · rfl
      · exact (Serves.trigger _ _ _).streams
  have written (d : Dev) : (writeCqe q x d).streams = d.streams := by
    unfold writeCqe
    split
    · rfl
    · unfold Dev.when
      dsimp only
      split
      · exact (signalled _).trans (ended _ _)
      · exact ended _ _
  have told (d : Dev) : (classABroken q d).streams = d.streams := by
    unfold classABroken
    split
    · rfl
    · split
      · unfold classAExceeded
        extract_lets due
        split
        · exact (Serves.postEvent _ _ _).streams
        · rfl
      · rfl
  unfold postCqe
  split
  · rfl
  · have reported (broken : Bool) (e : Dev) : (e.when broken (classABroken q)).streams = e.streams := by
      unfold Dev.when
      split
      · exact told e
      · rfl
    refine (reported _ _).trans ?_
    split
    · rfl
    · split
      · rfl
      · exact written d

/-- The completion of a command that applies no message leaves the streams alone. -/
theorem complete_streams (here : d.cmdAt q tag = some c) (other : pktOp c.pkt ≠ 0x52) : (complete q tag st res d).streams = d.streams := by
  have noted (fn : Nat) (d : Dev) : (noteMember fn q tag st c d).streams = d.streams := by
    unfold noteMember
    split <;> rfl
  have applied (d : Dev) : noteApply q tag st c d = d := if_pos other
  unfold complete completeFreeing
  rw [show (d.queue q).bind (·.cmd tag) = some c from here]
  simp only [applied, Dev.endReset]
  split
  · exact noted _ _
  · exact (postCqe_streams _ _).trans (noted _ _)

/-- A stream as it stood before the completion of a started command that applies no message. -/
theorem Waits.complete_streams {ops : List Nat} (waits : Waits ops q tag d qu c) (other : pktOp c.pkt ≠ 0x52)
    (rings : e.rings = (d.begun q tag).rings) : (complete q tag st res e).streams = e.streams :=
  Machine.complete_streams ((Dev.cmdAt_of_rings rings).trans waits.cmdAt_begun) other

end

end Sys2Proof.Machine
end

section
/-! PROOFS. CALVE_OPEN and CALVE_CLOSE (R481, R482, R491): a stream is entered in the table, and leaves it. -/

namespace Sys2Proof.Machine

section
variable {q tag sid : Nat} {qu : Queue} {c : Cmd} {n : Ns} {st : Stream} {s : State} {d e : Dev}

/-! ### A command of a stream starts -/

theorem Waits.op_eq {op : Nat} (waits : Waits [op] q tag d qu c) : pktOp c.pkt = op := by
  obtain ⟨-, -, op, -⟩ := waits
  simpa using op

theorem runCmd_free {op : Nat} (f : Queue → Cmd → Dev → Dev) (waits : Waits [op] q tag d qu c) (free : Free d c) :
    runCmd [op] q tag f d = f qu c (d.begun q tag) := runCmd_waits f waits (.inr (.inr free))

/-- The stream that a command names stands in the table under its number. -/
theorem tget_of_streamFor {fn : Nat} (names : d.streamFor fn sid = some st) : tget d.streams sid = some st := by
  obtain ⟨x, here, own⟩ := Option.bind_eq_some_iff.mp names
  split at own
  · exact here.trans own
  · exact absurd own nofun

/-! ### CALVE_OPEN (R481, R482) -/

theorem Dev.queue_begun_isSome (d : Dev) (q tag p : Nat) : ((d.begun q tag).queue p).isSome = (d.queue p).isSome := by
  by_cases same : p = q
  · subst same
    simp [Dev.begun, Dev.modCmd]
  · simp [Dev.begun, Dev.modCmd, Dev.queue_modQ_ne d _ same]

/-- The checks of CALVE_OPEN do not depend on which commands have started. -/
theorem calveOpenCheck_begun : calveOpenCheck qu c n (d.begun q tag) = calveOpenCheck qu c n d := by
  simp only [calveOpenCheck, Dev.queue_begun_isSome]
  rfl

/-- The stream that a CALVE_OPEN opens, as it stands before its first message. -/
def openedStream (q : Nat) (qu : Queue) (c : Cmd) (n : Ns) : Stream :=
  let p := c.pkt
  let send := !bit (pktOpts p) 0
  { fn := qu.fn, send := send, q := q, cls := qu.cls, nsid := pktNsid p, slot := pktField p 52 2, vector := bits (pktOpts p) 16 11,
    base := pktField p 56 4, target := pktGos p, first := pktSlba p, seq := pktNlb p, pos := pktSlba p, began := false,
    coded := bit (pktOpts p) 1, ringBase := pktAddr p, depth := pktLen p / 16, qpair := pktField p 60 4, tail := 0, head := 0,
    detached := false, ctx := none, ended := none, size := if send then ((n.snap (pktGos p)).map (·.size)).getD 0 else n.size,
    covered := 0, applies := [], failFrom := none, closing := none }

/-- The device with a stream opened, told to the other twin and given a pipeline where it sends, before the command completes. -/
def Dev.withStream (d : Dev) (sid cls : Nat) (st : Stream) : Dev :=
  let e := tellPins true sid st { d with streams := tput d.streams sid st }
  e.when st.send (placeRun e.serving sid cls)

theorem placeRun_streams (offered : List Nat) (sid cls : Nat) (d : Dev) : (placeRun offered sid cls d).streams = d.streams := by
  unfold placeRun
  dsimp only
  split <;> rfl

theorem Quiet.placeRun (h : Quiet d e) (offered : List Nat) (sid cls : Nat) : Quiet d (placeRun offered sid cls e) := by
  unfold Machine.placeRun
  dsimp only
  split
  · exact h.modIng _
  · exact (h.modIng _).modIng _

theorem withStream_streams (sid cls : Nat) (st : Stream) (d : Dev) : (d.withStream sid cls st).streams = tput d.streams sid st := by
  have told := (Serves.snowSend .coord 3 ⟨0xFF, 0, 0, 0, [23, b2n true, sid, st.nsid, st.base, st.target, st.size], []⟩
    { d with streams := tput d.streams sid st }).streams
  unfold Dev.withStream Dev.when
  split
  · exact (placeRun_streams _ _ _ _).trans told
  · exact told

theorem Quiet.withStream (sid cls : Nat) (st : Stream) (d : Dev) : Quiet d (d.withStream sid cls st) := by
  have opened : Quiet d { d with streams := tput d.streams sid st } := .of_out rfl rfl
  exact (opened.snowSendFor _ _ _ _).when fun e => (Quiet.refl e).placeRun _ _ _

theorem execCalveOpen_opens (waits : Waits [0x50] q tag s.dev qu c) (free : Free s.dev c) (space : s.dev.ns (pktNsid c.pkt) = some n)
    (sound : calveOpenCheck qu c n s.dev = 0) : Does (.calveOpen q tag) s fun t =>
      tget t.dev.streams (pktField c.pkt 48 4) = some (openedStream q qu c n) ∧ Gone q tag t.dev := by
  let e : Dev := (s.dev.begun q tag).withStream (pktField c.pkt 48 4) qu.cls (openedStream q qu c n)
  have space' : (s.dev.begun q tag).ns (pktNsid c.pkt) = some n := space
  have run : execCalveOpen q tag s = s.ok (complete q tag 0 0 e) := by
    rw [execCalveOpen, runCmd_free _ waits free]
    simp only [space', calveOpenCheck_begun, sound]
    rfl
  refine ⟨_, run, ?_, complete_gone _ _ _ _ _⟩
  have other : pktOp c.pkt ≠ 0x52 := by rw [waits.op_eq]; decide
  change tget (complete q tag 0 0 e).streams _ = _
  rw [waits.complete_streams other (Quiet.withStream _ _ _ _).rings, withStream_streams, tget_tput_same]

/-! ### CALVE_CLOSE (R491) -/

theorem Serves.releaseStream (sid : Nat) (st : Stream) (d : Dev) : Serves d (releaseStream sid st d) := by
  unfold Machine.releaseStream
  split
  · exact Serves.trans (a := dropRun sid (d.modRime _)) (.of_same rfl rfl rfl rfl) (.snowSend _ _ _ _)
  · exact Serves.trans (a := dropRun sid d) (.of_same rfl rfl rfl rfl) (.snowSend _ _ _ _)

theorem Quiet.releaseStream (h : Quiet d e) (sid : Nat) (st : Stream) : Quiet d (releaseStream sid st e) := by
  unfold Machine.releaseStream
  split
  · exact ((h.modRime _).modIng _).snowSendFor _ _ _ _
  · exact (h.modIng _).snowSendFor _ _ _ _

theorem execCalveClose_closes (ready : Ready.stream 0x51 q tag sid qu c st s) (sends : st.send = true) (ended : st.ended = some 0) :
    Does (.calveClose q tag) s fun t => tget t.dev.streams sid = none ∧ (t.dev.queue q).bind (·.cmd tag) = none ∧
      Sent s.dev t.dev (cqeOut q tag 0 (st.seq % 2 ^ 32) s.dev qu c) := by
  obtain ⟨waits, free, rfl, names, isOpen⟩ := ready
  let sid := pktField c.pkt 48 4
  let e : Dev := releaseStream sid st (s.dev.begun q tag)
  let f : Dev := { e with streams := tdel e.streams sid }
  have names' : (s.dev.begun q tag).streamFor qu.fn sid = some st := names
  have run : execCalveClose q tag s = s.ok (complete q tag 0 (st.seq % 2 ^ 32) f) := by
    rw [execCalveClose, runCmd_free _ waits free]
    simp only [show pktField c.pkt 48 4 = sid from rfl, names', isOpen, sends, ended]
    rfl
  have quiet : Quiet (s.dev.begun q tag) f := ((Quiet.refl _).releaseStream sid st).trans (.of_out rfl rfl)
  have room : Room f qu := by
    obtain ⟨-, -, -, -, -, -, -, room, -⟩ := waits
    have room' : Room e qu := Room.serves (d := s.dev.begun q tag) room (.releaseStream sid st _)
    exact room'
  have other : pktOp c.pkt ≠ 0x52 := by rw [waits.op_eq]; decide
  obtain ⟨sent, gone⟩ := waits.answered_room (st := 0) (res := st.seq % 2 ^ 32) quiet room
  refine ⟨_, run, ?_, gone, sent⟩
  change tget (complete q tag 0 _ f).streams sid = none
  rw [waits.complete_streams other quiet.rings]
  exact tget_tdel_same _ _

end

end Sys2Proof.Machine
end

section
/-! PROOFS. CALVE_SAVE and CALVE_RESTORE (R214 to R217). -/

namespace Sys2Proof.Machine

section
variable {q tag sid addr slice : Nat} {qu : Queue} {c : Cmd} {st : Stream} {x : GcmCtx} {b : Bytes} {s : State} {d e : Dev}

theorem complete_grows (q tag st res : Nat) (d : Dev) : Grows d (complete q tag st res d) := by
  have left (c : Cmd) : Grows d (d.left q tag st c) := .of_eq (by simp [Dev.left])
  rcases complete_cases q tag st res d with ⟨-, same⟩ | ⟨c, same | ⟨y, ends, same⟩⟩ <;> rw [same]
  · exact .refl d
  · exact left c
  · exact (left c).trans ((Spares.refl (q := q) (tag := tag) _).postCqe ends q).out

/-! ### Data of a command goes to its host (R555, R580) -/

theorem Room.of_same {qu : Queue} (room : Room d qu) (regs : e.regs = d.regs) (fns : e.fns = d.fns) (eps : e.eps = d.eps) : Room e qu :=
  Room.serves (e := { e with streams := d.streams }) room (.of_same rfl regs fns eps)

/-- A write to the host leaves where no Insecure stream is in use. -/
theorem Sent.hostWrite {fn : Nat} {ro : Bool} (clear : d.ideClear fn = true) : Sent d (d.ask (.hostWrite fn addr b ro)) (.hostWrite fn addr b ro) :=
  .ask (congrArg not (Dev.ideBlocks_clear clear addr))

/-- A buffer that one request can carry. -/
theorem requests_of_small {n : Nat} (nonempty : b ≠ []) (small : b.length ≤ n) : requests n b.length addr b = [(addr, b)] := by
  have rest (fuel a : Nat) : requests n fuel a [] = [] := by cases fuel <;> rfl
  obtain ⟨fuel, length⟩ : ∃ fuel, b.length = fuel + 1 := Nat.exists_eq_succ_of_ne_zero (by simpa using nonempty)
  simp [length, requests, nonempty, List.take_of_length_le small, List.drop_eq_nil_of_le small, rest]

theorem Dev.le_maxPayload (d : Dev) (fn : Nat) : 128 ≤ d.maxPayload fn := Nat.le_mul_of_pos_right 128 (Nat.two_pow_pos _)

/-- Data for one segment that holds it goes out in one request. -/
theorem sendData_small (room : Room d qu) (nonempty : b ≠ []) (small : b.length ≤ 128) :
    (sendData qu.fn q tag [(addr, b.length)] b false d).1 = d.ask (.hostWrite qu.fn addr b false) := by
  obtain ⟨sends, none, -⟩ := room
  have free : d.sendsWait qu.fn = false := Dev.sendsWait_eq_false_iff.mpr ⟨sends, none⟩
  have whole := requests_of_small (addr := addr) nonempty (small.trans (d.le_maxPayload qu.fn))
  simp [sendData, free, scatter, nonempty, whole, Dev.asks]

theorem ctxBytes_length (sid serial keyId side : Nat) (st : Stream) (x : GcmCtx) : (ctxBytes sid serial keyId side st x).length = 64 := by
  simp [ctxBytes, beBytes]

/-! ### CALVE_SAVE (R214 to R216) -/

/-- The SAVE_SERIAL of a saved context, and the device that has drawn it: a stream that sends keeps its context for the pending record. -/
def Dev.saveSerial (d : Dev) (sid : Nat) (st : Stream) (x : GcmCtx) : Nat × Dev :=
  let e := d.when st.send fun d => drbgServe 1 (d.modStream sid fun s => { s with ctx := some x })
  let v := if st.send then e.draw else (0, e)
  (v.1 % 2 ^ 64, v.2)

/-- The device with the pending record of a saved context that sends. -/
def Dev.savePending (d : Dev) (st : Stream) (x : GcmCtx) (serial : Nat) : Dev :=
  d.when st.send fun d => d.modRime fun r => { r with pending := r.pending ++ [⟨st.slot, x.counter, x.textLen, serial⟩] }

/-- The device that answers a CALVE_SAVE of a context. -/
def Dev.saved (d : Dev) (sid : Nat) (st : Stream) (x : GcmCtx) : Dev :=
  let v := d.saveSerial sid st x
  (dropRun sid (v.2.savePending st x v.1)).modStream sid fun s => { s with detached := true }

/-- What keeps a context changes the streams, the slices and the key store alone, whose slots stay as they are. -/
structure KeepsCtx (d e : Dev) : Prop where
  rings : e.rings = d.rings
  out : e.out = d.out
  regs : e.regs = d.regs
  fns : e.fns = d.fns
  eps : e.eps = d.eps
  straps : e.straps = d.straps
  slots : e.rime.slots = d.rime.slots

namespace KeepsCtx
variable {a : Dev}

theorem refl (d : Dev) : KeepsCtx d d := ⟨rfl, rfl, rfl, rfl, rfl, rfl, rfl⟩

theorem trans (h : KeepsCtx d a) (k : KeepsCtx a e) : KeepsCtx d e :=
  ⟨k.rings.trans h.rings, k.out.trans h.out, k.regs.trans h.regs, k.fns.trans h.fns, k.eps.trans h.eps, k.straps.trans h.straps,
    k.slots.trans h.slots⟩

theorem when {p : Bool} {f : Dev → Dev} (h : KeepsCtx d (f d)) : KeepsCtx d (d.when p f) := by
  unfold Dev.when
  split
  · exact h
  · exact refl d

theorem modRime (d : Dev) {f : Rime → Rime} (slots : (f d.rime).slots = d.rime.slots) : KeepsCtx d (d.modRime f) :=
  ⟨rfl, rfl, rfl, rfl, rfl, rfl, slots⟩

theorem drbgServe (k : Nat) (d : Dev) : KeepsCtx d (drbgServe k d) := by
  unfold Machine.drbgServe
  extract_lets e
  have counted : KeepsCtx d e := modRime d rfl
  split
  · exact counted
  · split
    · exact counted.trans (modRime e rfl)
    · exact counted.trans (modRime e rfl)

theorem saveSerial (sid : Nat) (st : Stream) (x : GcmCtx) (d : Dev) : KeepsCtx d (d.saveSerial sid st x).2 := by
  have kept (d : Dev) : KeepsCtx d (Machine.drbgServe 1 (d.modStream sid fun s => { s with ctx := some x })) :=
    trans (a := d.modStream sid _) ⟨rfl, rfl, rfl, rfl, rfl, rfl, rfl⟩ (drbgServe 1 _)
  unfold Dev.saveSerial Dev.when
  split
  · exact (kept d).trans ⟨rfl, rfl, rfl, rfl, rfl, rfl, rfl⟩
  · exact refl d

theorem saved (sid : Nat) (st : Stream) (x : GcmCtx) (d : Dev) : KeepsCtx d (d.saved sid st x) :=
  (saveSerial sid st x d).trans ((when (modRime _ rfl)).trans ⟨rfl, rfl, rfl, rfl, rfl, rfl, rfl⟩)

theorem quiet (h : KeepsCtx d e) : Quiet d e := .of_out h.rings h.out

theorem room (h : KeepsCtx d e) (room : Room d qu) : Room e qu := room.of_same h.regs h.fns h.eps

end KeepsCtx

theorem saved_detached (sid : Nat) (st : Stream) (x : GcmCtx) (d : Dev) (stands : tget d.streams sid = some st) :
    (tget (d.saved sid st x).streams sid).map (·.detached) = some true := by
  have served := (Serves.drbgServe 1 (d.modStream sid fun s => { s with ctx := some x })).streams
  have pending (e : Dev) (v : Nat) : (e.savePending st x v).streams = e.streams := by
    unfold Dev.savePending Dev.when
    split <;> rfl
  have serial : ((d.saveSerial sid st x).2.streams = d.streams ∨
      (d.saveSerial sid st x).2.streams = tmod d.streams sid fun s => { s with ctx := some x }) := by
    unfold Dev.saveSerial Dev.when
    split
    · exact .inr served
    · exact .inl rfl
  have after : (d.saved sid st x).streams = tmod (d.saveSerial sid st x).2.streams sid fun s => { s with detached := true } := by
    rw [← pending (d.saveSerial sid st x).2 (d.saveSerial sid st x).1]
    rfl
  rw [after, tget_tmod_same]
  rcases serial with same | same <;> simp [same, stands]

theorem execCalveSave_detaches (ready : Ready.stream 0x53 q tag sid qu c st s) (ctx : st.ctx = some x) (clear : pktField c.pkt 52 1 = 0)
    (buffer : c.segs = [(addr, 64)]) (sound : st.send = true → s.dev.rime.pending.length < 256 ∧ s.dev.rimeBlocked = false) :
    Does (.calveSave q tag) s fun t => Answered q tag 0 0 qu c s.dev t.dev ∧ (tget t.dev.streams sid).map (·.detached) = some true ∧
      ∃ serial, Sent s.dev t.dev (.hostWrite qu.fn addr
        ((ctxBytes sid serial (s.dev.slot st.slot).keyId s.dev.twinSide st x).take 64) false) := by
  obtain ⟨waits, free, rfl, names, isOpen⟩ := ready
  let sid := pktField c.pkt 48 4
  let d : Dev := s.dev.begun q tag
  let v := d.saveSerial sid st x
  let b := ctxBytes sid v.1 (s.dev.slot st.slot).keyId s.dev.twinSide st x
  let e : Dev := d.saved sid st x
  have names' : d.streamFor qu.fn sid = some st := names
  have few : ¬(st.send = true ∧ 256 ≤ d.rime.pending.length) := fun ⟨sends, full⟩ => (sound sends).1.not_ge full
  have unblocked : ¬(st.send = true ∧ d.rimeBlocked = true) := fun ⟨sends, blocked⟩ =>
    Bool.false_ne_true ((sound sends).2.symm.trans blocked)
  have key : (v.2.slot st.slot).keyId = (s.dev.slot st.slot).keyId := by
    rw [Dev.slot, (KeepsCtx.saveSerial sid st x d).slots]
    rfl
  have side : v.2.twinSide = s.dev.twinSide := by
    rw [Dev.twinSide, (KeepsCtx.saveSerial sid st x d).straps]
    rfl
  have run : execCalveSave q tag s = s.ok (complete q tag 0 0 (sendData qu.fn q tag c.segs b false e).1) := by
    rw [execCalveSave, runCmd_free _ waits free]
    have bytes : b = ctxBytes sid v.1 (v.2.slot st.slot).keyId v.2.twinSide st x := by rw [key, side]
    rw [bytes]
    simp only [show pktField c.pkt 48 4 = sid from rfl, show s.dev.begun q tag = d from rfl, names', isOpen, few, clear, saveCtx, ctx,
      Bool.not_true, Bool.false_eq_true, if_false, Nat.reduceBEq, false_or, unblocked]
    rfl
  have room : Room e qu := (KeepsCtx.saved sid st x d).room (by
    obtain ⟨-, -, -, -, -, -, -, room, -⟩ := waits
    exact room)
  have length : b.length = 64 := ctxBytes_length _ _ _ _ _ _
  have sends : (sendData qu.fn q tag c.segs b false e).1 = e.ask (.hostWrite qu.fn addr b false) := by
    rw [buffer, ← length]
    exact sendData_small room (List.ne_nil_of_length_pos (by omega)) (by omega)
  rw [sends] at run
  have quiet : Quiet d (e.ask (.hostWrite qu.fn addr b false)) := (KeepsCtx.saved sid st x d).quiet.trans ⟨rfl, Dev.ask_grows _ _⟩
  have other : pktOp c.pkt ≠ 0x52 := by rw [waits.op_eq]; decide
  have written : Sent s.dev (e.ask (.hostWrite qu.fn addr b false)) (.hostWrite qu.fn addr b false) := by
    obtain ⟨-, -, -, -, clear⟩ := room
    exact .of_grows (KeepsCtx.saved sid st x d).quiet.out (.hostWrite clear)
  refine ⟨_, run, waits.answered_room quiet room, ?_, v.1, ?_⟩
  · change (tget (complete q tag 0 0 (e.ask _)).streams sid).map _ = _
    rw [waits.complete_streams other quiet.rings]
    exact saved_detached sid st x d (tget_of_streamFor names)
  · rw [List.take_of_length_le length.le]
    exact written.trans_grows (complete_grows _ _ _ _ _)

/-! ### CALVE_RESTORE (R217) -/

theorem compare2_agree (sl len : Nat) (d : Dev) : compare2 sl len .agree d = (true, (compare2 sl len .agree d).2) := rfl

/-- A compare that agrees counts its blocks and its requests. -/
theorem rd_compare2_agree {g : Field} (other : g.key ≠ RIM_CNT_BLOCKS.COUNT.key) (sl len : Nat) (d : Dev) :
    (compare2 sl len .agree d).2.rd g = d.rd g :=
  (Dev.rd_wr_ne _ _ other).trans (Dev.rd_congr (drbgServe_regs _ d) g)

/-- The context of a stream that its saved bytes hold. -/
def savedCtx (p : Bytes) : GcmCtx := ⟨getLe p 16 8, getLe p 24 8, getLe p 32 8, beNat (getBytes p 48 16)⟩

/-- A compare that agrees changes neither a key slot nor a pending record. -/
theorem compare2_agree_rime (sl len : Nat) (d : Dev) : (compare2 sl len .agree d).2.rime.slots = d.rime.slots ∧
    (compare2 sl len .agree d).2.rime.pending = d.rime.pending := by
  have served (k : Nat) : (drbgServe k d).rime.slots = d.rime.slots ∧ (drbgServe k d).rime.pending = d.rime.pending := by
    unfold drbgServe
    dsimp only
    split
    · exact ⟨rfl, rfl⟩
    · split <;> exact ⟨rfl, rfl⟩
  exact served _

/-- The pending record that a saved context names. -/
def savedRec (p : Bytes) : SaveRec := ⟨getLe p 2 2, getLe p 16 8, getLe p 32 8, getLe p 40 8⟩

/-- The device once a stream took its context back; that of one that sends uses its pending record up. -/
def Dev.retaken (d : Dev) (sid sl : Nat) (st : Stream) (p : Bytes) : Dev :=
  (d.when st.send fun d => placeRun [sl] sid st.cls (d.modRime fun x => { x with pending := without x.pending (savedRec p) })).modStream sid
    fun s => { s with detached := false, ctx := some (savedCtx p) }

theorem KeepsCtx.placeRun (offered : List Nat) (sid cls : Nat) (d : Dev) : KeepsCtx d (placeRun offered sid cls d) := by
  unfold Machine.placeRun
  dsimp only
  split <;> exact ⟨rfl, rfl, rfl, rfl, rfl, rfl, rfl⟩

theorem KeepsCtx.retaken (sid sl : Nat) (st : Stream) (p : Bytes) (d : Dev) : KeepsCtx d (d.retaken sid sl st p) :=
  (when (KeepsCtx.trans (a := d.modRime _) (modRime d rfl) (placeRun _ _ _ _))).trans ⟨rfl, rfl, rfl, rfl, rfl, rfl, rfl⟩

theorem retaken_streams (sid sl : Nat) (st : Stream) (p : Bytes) (d : Dev) : (d.retaken sid sl st p).streams =
    tmod d.streams sid fun s => { s with detached := false, ctx := some (savedCtx p) } := by
  have used : (d.when st.send fun d => placeRun [sl] sid st.cls (d.modRime fun x =>
      { x with pending := without x.pending (savedRec p) })).streams = d.streams := by
    unfold Dev.when
    split
    · exact placeRun_streams _ _ _ _
    · rfl
  rw [← used]
  rfl

theorem execCalveRestore_takes (ready : Ready.stream 0x54 q tag sid qu c st s) (sound : Ready.restore slice sid b c st s) :
    Does (.calveRestore q tag (some b) slice .agree) s fun t => Answered q tag 0 0 qu c s.dev t.dev ∧
      (tget t.dev.streams sid).map (·.detached) = some false ∧ (tget t.dev.streams sid).map (·.ctx) = some (some (savedCtx (padTo 64 b))) := by
  obtain ⟨waits, free, rfl, names, isOpen⟩ := ready
  obtain ⟨clear, unblocked, served, kind, way, own, pending, typed, keyed⟩ := sound
  let sid := pktField c.pkt 48 4
  let p := padTo 64 b
  let d : Dev := s.dev.begun q tag
  obtain ⟨sl, serves⟩ : ∃ sl, d.sliceFor slice = some sl := Option.isSome_iff_exists.mp served
  let e : Dev := (compare2 sl 64 .agree d).2
  have names' : d.streamFor qu.fn sid = some st := names
  have unblocked' : d.rimeBlocked = false := unblocked
  obtain ⟨slots, waiting⟩ := compare2_agree_rime sl 64 d
  have slot : e.slot st.slot = s.dev.slot st.slot := by
    rw [Dev.slot, slots]
    rfl
  have oneWay : st.send = true ∨ getLe p 1 1 = 1 := by
    cases sends : st.send with
    | true => exact .inl rfl
    | false => exact .inr (by simpa [sends, b2n] using way)
  have there : st.send = true → e.rime.pending.contains (savedRec p) = true := fun sends => by
    rw [waiting]
    exact pending sends
  have used : ¬(getLe p 1 1 = 0 ∧ (!e.rime.pending.contains (savedRec p)) = true) := by
    rintro ⟨zero, missing⟩
    rcases oneWay with sends | one
    · rw [there sends] at missing
      exact absurd missing (by decide)
    · omega
  have gcm : ¬(getLe p 0 1 ≠ 1 ∨ 1 < getLe p 1 1) := by
    have binary : getLe p 1 1 ≤ 1 := by
      rw [way]
      cases st.send <;> decide
    exact fun wrong => wrong.elim (· kind) binary.not_gt
  have mine : ¬(getLe p 1 1 ≠ b2n (!st.send) ∨ getLe p 8 4 ≠ sid) := fun wrong => wrong.elim (· way) (· own)
  have key : ¬((e.slot st.slot).type = 0 ∨ (e.slot st.slot).keyId ≠ getLe p 4 4) := by
    rw [slot]
    exact fun wrong => wrong.elim typed (· keyed)
  have run : execCalveRestore q tag (some b) slice .agree s = s.ok (complete q tag 0 0 (e.retaken sid sl st p)) := by
    rw [execCalveRestore, runCmd_free _ waits free]
    simp only [show pktField c.pkt 48 4 = sid from rfl, show s.dev.begun q tag = d from rfl, names', isOpen, unblocked', serves, clear]
    rw [compare2_agree]
    exact congrArg s.ok ((if_neg gcm).trans ((if_neg used).trans ((if_neg mine).trans (if_neg key))))
  have quiet : Quiet d (e.retaken sid sl st p) := ((Quiet.refl d).compare2 sl 64 .agree).trans (KeepsCtx.retaken sid sl st p e).quiet
  have room : Room (e.retaken sid sl st p) qu := (KeepsCtx.retaken sid sl st p e).room (by
    obtain ⟨-, -, -, -, -, -, -, room, -⟩ := waits
    exact Room.serves (d := d) room (.compare2_agree sl 64 d))
  have other : pktOp c.pkt ≠ 0x52 := by rw [waits.op_eq]; decide
  have stands : tget (complete q tag 0 0 (e.retaken sid sl st p)).streams sid =
      some { st with detached := false, ctx := some (savedCtx p) } := by
    have named : tget d.streams sid = some st := tget_of_streamFor names
    rw [waits.complete_streams other quiet.rings, retaken_streams, tget_tmod_same, (Serves.compare2_agree sl 64 d).streams, named]
    rfl
  exact ⟨_, run, waits.answered_room quiet room, congrArg (Option.map (·.detached)) stands, congrArg (Option.map (·.ctx)) stands⟩

end
end Sys2Proof.Machine
end

section
/-! PROOFS. CALVE_APPLY of a ZERO message in sequence (R485 to R488). -/

namespace Sys2Proof.Machine

section
variable {q tag sid : Nat} {qu : Queue} {c : Cmd} {n : Ns} {st : Stream} {run : SliceRun} {b : Bytes} {s : State} {d e : Dev}

theorem any_tmod {α : Type} {t : Tab α} {k : Nat} {f : α → α} {p : Nat × α → Bool} (same : ∀ i a, p (i, f a) = p (i, a)) :
    (tmod t k f).any p = t.any p := by
  rw [tmod, List.any_map]
  refine congrArg (t.any ·) (funext fun a => ?_)
  simp only [Function.comp_apply]
  split
  · exact same _ _
  · rfl

/-- Whether an earlier apply of a stream has not ended does not depend on which commands have started (R488). -/
theorem Dev.applyBefore_begun (d : Dev) (q tag sid order : Nat) : (d.begun q tag).applyBefore sid order = d.applyBefore sid order := by
  have same := any_tmod (t := d.rings.queues) (k := q) (p := fun e => e.2.cmds.any fun y =>
    pktOp y.pkt == 0x52 && pktField y.pkt 48 4 == sid && decide (y.order < order) && y.stage != .orphan) (f := fun x =>
      { x with cmds := x.cmds.map fun y => if bits y.pkt.toNat 16 16 = tag then { y with started := true } else y })
  refine same fun i qu => ?_
  rw [List.any_map]
  refine congrArg (qu.cmds.any ·) (funext fun y => ?_)
  simp only [Function.comp_apply]
  split <;> rfl

/-- The stream once it has accepted the message `seq` of an apply. -/
def Stream.accepts (st : Stream) (q tag seq : Nat) : Stream :=
  { st with seq := seq + 1, applies := st.applies ++ [(q, tag, seq)], failFrom := none }

/-- The device once a message whose tag is right was opened by a slice. -/
def Dev.unsealed (d : Dev) (q tag sid sl seq len : Nat) : Dev :=
  (compare2 sl len .agree (d.modStream sid fun s => s.accepts q tag seq)).2.modStream sid fun s => { s with ctx := none }

theorem Quiet.unsealed (h : Quiet d e) (q tag sid sl seq len : Nat) : Quiet d (e.unsealed q tag sid sl seq len) := by
  have accepted : Quiet d (e.modStream sid fun s => s.accepts q tag seq) := h.trans (.of_out rfl rfl)
  exact (accepted.compare2 sl len .agree).trans (.of_out rfl rfl)

theorem unsealed_streams (q tag sid sl seq len : Nat) (d : Dev) : (d.unsealed q tag sid sl seq len).streams =
    tmod (tmod d.streams sid fun s => s.accepts q tag seq) sid fun s => { s with ctx := none } := by
  have compared := (Serves.compare2_agree sl len (d.modStream sid fun s => s.accepts q tag seq)).streams
  exact congrArg (fun t => tmod t sid fun s => { s with ctx := none }) compared

theorem linkOpen_unsealed {q tag sid sl seq len : Nat} (up : d.linkOpen .host) : (d.unsealed q tag sid sl seq len).linkOpen .host := by
  have kept {g : Field} (other : g.key ≠ RIM_CNT_BLOCKS.COUNT.key) : (d.unsealed q tag sid sl seq len).is g = d.is g :=
    congrArg (· != 0) (rd_compare2_agree other sl len (d.modStream sid fun s => s.accepts q tag seq))
  rw [Dev.linkOpen, kept (by decide), kept (by decide)]
  exact up

/-- The four numbers of a message's plaintext that cross with it. -/
def applyNumbers (st : Stream) (b : Bytes) (d : Dev) : List Nat :=
  (List.range 4).map fun i => getLe (gcmCrypt (d.slot st.slot).key (getBytes b 16 12) ((b.drop 64).take (b.length - 80))) (8 * i) 8

/-- A ZERO message in sequence whose header and tag hold crosses to the media half. -/
theorem takeApply_zero {sl : Nat} (named : c.tag = tag) (fresh : st.failFrom = none) (next : getLe b 8 4 = st.seq) (zero : getLe b 3 1 = 3)
    (header : headerCheck b (pktField c.pkt 48 4) st n d = 0) (keyed : (d.slot st.slot).type = 3) (unblocked : d.rimeBlocked = false)
    (serves : d.sliceFor run.slice = some sl) (agree : run.cmps.headD .agree = .agree) (whole : tagOk (d.slot st.slot).key b st.ctx = true) :
    ∃ l, takeApply q run qu c st n b d = crossVarve q qu c 0 ([3, getLe b 32 8, getLe b 40 4, st.seq, pktField c.pkt 48 4] ++ l)
      (d.unsealed q tag (pktField c.pkt 48 4) sl st.seq (b.length - 80)) := by
  let sid := pktField c.pkt 48 4
  let e : Dev := d.modStream sid fun s => s.accepts q tag st.seq
  have header' : headerCheck b sid st n e = 0 := header
  have keyed' : (e.slot st.slot).type = 3 := keyed
  have unblocked' : e.rimeBlocked = false := unblocked
  have serves' : e.sliceFor run.slice = some sl := serves
  have whole' : tagOk ((compare2 sl (b.length - 80) .agree e).2.slot st.slot).key b st.ctx = true := by
    rw [Dev.slot, (compare2_agree_rime _ _ _).1]
    exact whole
  refine ⟨applyNumbers st b (d.unsealed q tag sid sl st.seq (b.length - 80)), ?_⟩
  have accepted : (d.modStream sid fun s => { s with seq := st.seq + 1, applies := s.applies ++ [(q, tag, st.seq)], failFrom := none }) = e := rfl
  simp only [takeApply, show pktField c.pkt 48 4 = sid from rfl, fresh, next, named, accepted, header', keyed', unblocked', serves', nextCmp, agree,
    Option.any_none, Bool.false_eq_true, if_false, ne_eq, not_true_eq_false]
  rw [compare2_agree]
  simp only [whole', Bool.not_true, Bool.false_eq_true, if_false, applyNow, zero]
  rfl

theorem execCalveApply_crosses (ready : Ready.stream 0x52 q tag sid qu c st s) (sound : Ready.applyZero run b c n st s) :
    Does (.calveApply q tag run) s fun t => Crossed q tag t.dev ∧ (tget t.dev.streams sid).map (·.seq) = some (st.seq + 1) ∧
      ∃ l, Sent s.dev t.dev (.sch .host .varveOp ⟨q, tag, 0, pktNsid c.pkt,
        [pktOp c.pkt, pktFlags c.pkt, 3, getLe b 32 8, getLe b 40 4, st.seq, sid] ++ l, []⟩) := by
  obtain ⟨waits, free, rfl, names, isOpen⟩ := ready
  obtain ⟨up, space, noChunks, receives, replica, target, attached, turn, message, fresh, next, zero, header, keyed, unblocked, served,
    agree, whole⟩ := sound
  let sid := pktField c.pkt 48 4
  let d : Dev := readHost q qu c (s.dev.begun q tag)
  have names' : (s.dev.begun q tag).streamFor qu.fn sid = some st := names
  have space' : (s.dev.begun q tag).ns (pktNsid c.pkt) = some n := space
  obtain ⟨sl, serves⟩ : ∃ sl, d.sliceFor run.slice = some sl := Option.isSome_iff_exists.mp served
  obtain ⟨text, data, padded⟩ := Option.map_eq_some_iff.mp message
  obtain ⟨l, taken⟩ := takeApply_zero (q := q) (qu := qu) (n := n) (d := d) waits.tag_eq fresh next zero header keyed unblocked serves agree whole
  let e : Dev := d.unsealed q tag sid sl st.seq (b.length - 80)
  have ran : execCalveApply q tag run s = s.ok (crossVarve q qu c 0 ([3, getLe b 32 8, getLe b 40 4, st.seq, sid] ++ l) e) := by
    rw [execCalveApply, runCmd_free _ waits free]
    have turn' : (s.dev.begun q tag).applyBefore sid c.order = false := (s.dev.applyBefore_begun q tag sid c.order).trans turn
    simp only [show pktField c.pkt 48 4 = sid from rfl, noChunks, names', space', receives, isOpen, replica, target, attached, turn', data, padded,
      List.isEmpty_nil, Bool.not_true, Bool.false_eq_true, ne_eq, not_true_eq_false, or_self, if_false]
    exact congrArg s.ok taken
  have read : Quiet (s.dev.begun q tag) d := ⟨rfl, Dev.asks_grows _ _⟩
  have quiet : Quiet (s.dev.begun q tag) e := read.unsealed q tag sid sl st.seq (b.length - 80)
  have up' : e.linkOpen .host := linkOpen_unsealed (d := d) up
  obtain ⟨crossed, sent⟩ := crossVarve_crosses (qu := qu) (ref := 0) (rest := [3, getLe b 32 8, getLe b 40 4, st.seq, sid] ++ l) up'
    ((Dev.cmdAt_of_rings quiet.rings).trans waits.cmdAt_begun) waits.tag_eq
  refine ⟨_, ran, crossed, ?_, l, Sent.of_grows quiet.out sent⟩
  have stands : tget d.streams sid = some st := tget_of_streamFor names
  have kept : (crossVarve q qu c 0 ([3, getLe b 32 8, getLe b 40 4, st.seq, sid] ++ l) e).streams = e.streams := schSend_streams _ _ _ _ _
  change (tget (crossVarve q qu c 0 ([3, getLe b 32 8, getLe b 40 4, st.seq, sid] ++ l) e).streams sid).map _ = _
  rw [kept, unsealed_streams, tget_tmod_same, tget_tmod_same, stands]
  rfl

end

/-- Settles O4: the stream of a CALVE_OPEN stands in the table as it was entered (`withStream_streams`), since neither the message that tells the
other twin of its pins nor the completion writes the streams (`Serves.snowSend`, `Waits.complete_streams`); nor do they take the room of a
completion away (`Room.serves`). A save and a restore change the stream's entry and the key store alone (`KeepsCtx`), and an apply in sequence
crosses with the numbers of its message (`takeApply_zero`). -/
theorem calvingCommandsTakeEffect : Obligations.CalvingCommandsTakeEffect := by
  unfold Obligations.CalvingCommandsTakeEffect
  refine ⟨?opens, ?closes, ?saves, ?restores, ?applies⟩
  case opens =>
    intro q tag qu c n s waits free space sound
    obtain ⟨t, run, stands, gone⟩ := execCalveOpen_opens waits free space sound
    exact ⟨t, run, _, stands, rfl, rfl, rfl, rfl, rfl, rfl, rfl, rfl, gone⟩
  case closes => exact fun q tag sid qu c st s ready sends ended => execCalveClose_closes ready sends ended
  case saves =>
    exact fun q tag sid addr x qu c st s ready ctx clear buffer sound => execCalveSave_detaches ready ctx clear buffer sound
  case restores => exact fun q tag sid slice b qu c st s ready sound => execCalveRestore_takes ready sound
  case applies => exact fun q tag sid run b qu c n st s ready sound => execCalveApply_crosses ready sound

end Sys2Proof.Machine
end

section
/-! PROOFS. Pruning (R475) and the replacement of a stripe without live objects (R476): the MAP record of a prune, and the destage that replaces
a stripe. -/

namespace Sys2Proof.Machine

section
variable {pool nsid : Nat} {n : Ns} {es : List (Nat × BmEntry)} {r : FRec} {s : State} {d e : Dev}

/-! ### The size of a record of map entries and reference counts (R290) -/

theorem MapDelta.bytes_length (x : MapDelta) : x.bytes.length = 32 := by
  cases x with
  | locate | unlocate => simp [MapDelta.bytes, objBytes]
  | _ => exact mopBytes_length _ _ _ _ _ _

/-- A record that carries no section but map entries and reference counts. -/
structure OnlyDeltas (r : FRec) : Prop where
  cmds : r.cmds = []
  chunks : r.chunks = []
  refs : r.refs = []
  members : r.members = []
  effects : r.effects = []
  marks : r.marks = []
  plan : r.plan = none

theorem OnlyDeltas.npage_le (only : OnlyDeltas r) {pages : Nat} (counts : r.refDelta.length ≤ r.mapDelta.length)
    (small : 64 * r.mapDelta.length + 512 ≤ 4096 * pages) : r.npage ≤ pages := by
  have sections : r.sections = listSection 4 r.mapDelta MapDelta.bytes ++
      listSection 5 r.refDelta (fun x => leBytes 8 x.1 ++ leBytes 4 (toBits 32 x.2) ++ leBytes 4 0) := by
    simp [FRec.sections, only.cmds, only.chunks, only.refs, only.members, only.effects, only.marks, only.plan, listSection, objOffsets]
  have entries := listSection_length_le MapDelta.bytes_length 4 r.mapDelta
  have refs := listSection_length_le (f := fun x : Nat × Int => leBytes 8 x.1 ++ leBytes 4 (toBits 32 x.2) ++ leBytes 4 0) (n := 16)
    (fun x => by simp) 5 r.refDelta
  have length : r.sections.length ≤ 32 * r.mapDelta.length + 16 * r.refDelta.length + 30 := by
    rw [sections, List.length_append]
    omega
  have payload : r.payload = r.sections := by simp [FRec.payload, only.chunks]
  rw [FRec.npage, payload]
  omega

/-! ### The record of a prune (R475) -/

theorem once_length_le (l : List Nat) : (once l).length ≤ l.length := by
  have grown (l acc : List Nat) : (l.foldl (fun r a => if r.contains a then r else r ++ [a]) acc).length ≤ acc.length + l.length := by
    induction l generalizing acc with
    | nil => simp
    | cons a l ih =>
      refine (ih _).trans ?_
      dsimp only
      split
      · simp
      · simp only [List.length_append, List.length_cons, List.length_nil]
        omega
  simpa [once] using grown l []

theorem refCounts_length_le (l : List Nat) : (refCounts l).length ≤ l.length := by
  rw [refCounts, List.length_map]
  exact (once_length_le _).trans (List.length_filter_le _ _)

/-- The MAP record that removes entries of a namespace, and the references that they hold. -/
def pruneRec (pool nsid : Nat) (es : List (Nat × BmEntry)) (d : Dev) : FRec :=
  { FRec.empty with
    rtype := rtMap, pool := pool, receiver := d.twinSide, nsid := nsid,
    mapDelta := es.map fun e => .prune nsid e.1 e.2.birth
    refDelta := (refCounts (es.filterMap fun e => if e.2.unmapped then none else some e.2.chunk)).map fun x => (x.1, -x.2) }

theorem pruneRec_simple (pool nsid : Nat) (es : List (Nat × BmEntry)) (d : Dev) : Simple (pruneRec pool nsid es d) :=
  ⟨rfl, by simp [pruneRec, plainTypes], rfl, rfl⟩

theorem pruneRec_npage_le {pages : Nat} (small : 64 * es.length + 512 ≤ 4096 * pages) : (pruneRec pool nsid es d).npage ≤ pages := by
  refine OnlyDeltas.npage_le ⟨rfl, rfl, rfl, rfl, rfl, rfl, rfl⟩ ?_ (by simpa [pruneRec] using small)
  simp only [pruneRec, List.length_map]
  exact (refCounts_length_le _).trans (List.length_filterMap_le _ _)

/-- A prune takes no snapshot. -/
theorem snapOf_prunes (nsid : Nat) (es : List (Nat × BmEntry)) : snapOf (es.map fun e => .prune nsid e.1 e.2.birth) = none := by
  rw [snapOf, List.findSome?_map]
  exact List.findSome?_eq_none_iff.mpr fun _ _ => rfl

/-- A namespace of the pool with entries to prune, whose reads of former snapshots are over, has them removed by one record. -/
theorem execPrune_forms (home : s.dev.isHome pool = true) (only : s.dev.nss = [(nsid, n)]) (own : n.pool = pool)
    (pending : s.dev.prunePending nsid = true) (noDeltas : s.dev.dueDeltas = []) (noReads : s.dev.readsGone nsid n = false)
    (nonempty : (s.dev.prunable nsid).take pruneBatch ≠ []) :
    execPrune pool s = s.ok (formRec (pruneRec pool nsid ((s.dev.prunable nsid).take pruneBatch) s.dev) s.dev) := by
  obtain ⟨x, l, batch⟩ := List.exists_cons_of_ne_nil nonempty
  have found : s.dev.nss.find? (fun e => e.2.pool == pool && (s.dev.prunePending e.1 || !e.2.gone.isEmpty) && !false &&
      !s.dev.readsGone e.1 e.2) = some (nsid, n) := by
    simp [only, own, pending, noReads]
  simp only [execPrune, home, noDeltas, List.any_nil, found, batch, Bool.not_true, Bool.false_eq_true, if_false]
  rfl

theorem execPrune_assigned {pages : Nat} (room : Roomy pool pages s.dev) (small : 64 * es.length + 512 ≤ 4096 * pages)
    (only : s.dev.nss = [(nsid, n)]) (own : n.pool = pool) (pending : s.dev.prunePending nsid = true) (noDeltas : s.dev.dueDeltas = [])
    (noReads : s.dev.readsGone nsid n = false) (batch : es = (s.dev.prunable nsid).take pruneBatch) (nonempty : es ≠ []) :
    Does (.prune pool) s fun t => Assigned rtMap pool (fun r => r.mapDelta = es.map fun e => .prune nsid e.1 e.2.birth) s.dev t.dev := by
  subst batch
  obtain ⟨-, home, -⟩ := id room
  refine ⟨_, execPrune_forms home only own pending noDeltas noReads nonempty, ?_⟩
  have may := mayEnter_of_room (r := pruneRec pool nsid _ s.dev) room (pruneRec_npage_le small)
  obtain ⟨slot, x, free, there, stamped⟩ := formRec_stamped (pruneRec_simple pool nsid _ s.dev) home may
  exact ⟨slot, x, free, there, stamped.rtype, stamped.pool, stamped.seq, stamped.time, stamped.plain (snapOf_prunes _ _)⟩

/-! ### The destage of a stripe that replaces another (R367, R476) -/

/-- Records that wait for space leave the destages alone. -/
theorem noteWaits_destages (d : Dev) : (noteWaits d).destages = d.destages := by
  have stores (f : Firn → Firn) (l : List FRec) : ((d.modFirn f).each l fun d w =>
      (d.bump FRN_CNT_SPACE_WAITS.COUNT 1).when (w.cls == 0 && !w.internal) fun d =>
        fault .media 0x0A 8 3 false (d.set FRN_STATUS.CLASS_A_WAIT)).part .stores = (d.modFirn f).part .stores :=
    Dev.part_each fun d w => by simp
  exact (congrArg Dev.destages (stores _ _) :)

theorem snowSendFor_destages (fn : Nat) (k : Kind) (cls : Nat) (m : Msg) (d : Dev) : (snowSendFor fn k cls m d).destages = d.destages := by
  obtain ⟨f, stores⟩ := snowSendFor_stores fn k cls m d
  exact (congrArg Dev.destages stores :)

theorem Dev.each_destages {α : Type} {l : List α} {f : Dev → α → Dev} (h : ∀ d a, (f d a).destages = d.destages) :
    (d.each l f).destages = d.destages := by
  induction l generalizing d with
  | nil => rfl
  | cons a l ih => exact ih.trans (h d a)

theorem sendRecord_destages (slot : Nat) (d : Dev) : (sendRecord slot d).destages = d.destages := by
  unfold sendRecord
  split
  · rfl
  · exact Dev.each_destages (d := modRec slot _ d) fun d s => snowSendFor_destages _ _ _ _ d

/-- An INTENT record takes no references. -/
structure IntentRecord (r : FRec) : Prop where
  rtype : r.rtype = rtIntent
  refs : r.refs = []
  fresh : r.seq = 0
  whole : r.divergent = false

theorem noteEntered_intent_destages (intent : r.rtype = rtIntent) (d : Dev) : (noteEntered r d).destages = d.destages := by
  rw [noteEntered, if_pos intent, noteIntent]
  split <;> rfl

theorem assignNow_intent_destages {slot : Nat} (intent : IntentRecord r) (here : d.recAt slot = some r) :
    (assignNow slot d).destages = d.destages := by
  obtain ⟨x, there, stamped⟩ := assignSeq_stamped here intent.refs
  have assigned : (assignSeq slot d).destages = d.destages := by
    unfold assignSeq
    simp only [here, intent.refs, List.filter_nil, Dev.each, List.foldl_nil]
    cases snapOf r.mapDelta <;> rfl
  simp only [assignNow, here, refusals_of_nil intent.refs, there, List.isEmpty_nil, Bool.not_true, Bool.false_eq_true, if_false, Option.getD_some]
  rw [noteEntered_intent_destages (stamped.rtype.trans intent.rtype), Dev.when]
  split
  · exact (sendRecord_destages _ _).trans assigned
  · exact assigned

/-- A destage stands while its INTENT record is formed, whether that enters or waits for space. -/
theorem formRec_intent_destages (intent : IntentRecord r) (d : Dev) : (formRec r d).destages = d.destages := by
  unfold formRec
  split
  · have placed : IntentRecord (placed r d) := ⟨intent.rtype, intent.refs, intent.fresh, intent.whole⟩
    simp only [enterRec, intent.whole, intent.fresh, Bool.false_eq_true, if_false, ne_eq, not_true_eq_false]
    split
    · exact assignNow_intent_destages placed (takeSlot_recAt r d)
    · exact sendRecord_destages _ _
  · exact noteWaits_destages _

theorem formIntent_destages (x : Destage) (d : Dev) : (formIntent x d).destages = d.destages ++ [x] :=
  formRec_intent_destages (r := { FRec.empty with
    rtype := rtIntent, pool := x.pool, receiver := d.twinSide, aux := x.plan.stripe, plan := some x.plan }) ⟨rfl, rfl, rfl, rfl⟩ _

/-- A stripe that starts is the destage under way that its plan describes. -/
theorem startStripe_replaces {p stripe replaces purpose : Nat} {asker : Nat × Nat} {data : List ((Nat × Nat × Nat × Nat) × Bytes)} {y : Lay}
    {places : List MapDelta} {x : Pool} (defined : tget d.pools p = some x) (idle : d.destages = []) :
    ((startStripe p stripe replaces purpose asker data y places d).destage stripe).map (·.plan.replaces) = some replaces := by
  have started : ∃ z : Destage, (startStripe p stripe replaces purpose asker data y places d).destages = d.destages ++ [z] ∧
      z.plan.stripe = stripe ∧ z.plan.replaces = replaces := by
    unfold startStripe
    simp only [defined]
    exact ⟨_, formIntent_destages _ _, rfl, rfl⟩
  obtain ⟨z, only, named, replaced⟩ := started
  simp [Dev.destage, only, idle, named, replaced]

theorem execCompaction_replaces {k pages st : Nat} {x : Pool} {y : Lay} (ready : Ready.destage pool (k / 128) (k % 128) pages x y s)
    (closes : y.full = true ∨ s.dev.closeNow pool = true) (idle : s.dev.destages = []) (free : s.dev.rebuildWork pool = [] ∨ x.full = true)
    (next : s.dev.compactNext pool = some st) (dead : s.dev.liveObjs st = []) : Does (.compaction pool k) s fun t =>
      (t.dev.destage (stripeId pool (k / 128) (k % 128))).map (·.plan.replaces) = some st := by
  obtain ⟨-, -, may, defined, slotFree, rfl, records⟩ := ready
  have work : (!(s.dev.rebuildWork pool).isEmpty && !(tget s.dev.pools pool).any (·.full)) = false := by
    rcases free with none | full
    · simp [none]
    · simp [defined, full]
  have run : execCompaction pool k s = s.ok (destageAt pool (k / 128) (k % 128) st (s.dev.closeNow pool) s.dev) := by
    simp [execCompaction, may, idle, work, next, dead]
  refine ⟨_, run, ?_⟩
  change ((destageAt pool (k / 128) (k % 128) st (s.dev.closeNow pool) s.dev).destage _).map _ = _
  rw [destageAt]
  simp only [defined]
  rw [if_neg ?begins]
  · exact startStripe_replaces defined idle
  case begins =>
    rcases closes with full | now
    · simp [slotFree, records, full]
    · simp [slotFree, records, now]

end

end Sys2Proof.Machine
end

section
/-! PROOFS. The first message of a sending stream (R483 to R485), and the settlement of pruning, compaction and streams. -/

namespace Sys2Proof.Machine

section
variable {sid addr len sl : Nat} {st : Stream} {n : Ns} {run : SliceRun} {m : NextMsg} {s : State} {d e : Dev}

/-! ### The descriptor of a buffer (R483) -/

/-- A field in front of other bytes. -/
theorem getLe_front (k v : Nat) (b : Bytes) : getLe (leBytes k v ++ b) 0 k = v % 256 ^ k := by
  rw [getLe, List.drop_zero, List.take_left' (leBytes_length k v), leNat_leBytes]

/-- A field behind other bytes. -/
theorem getLe_append {a : Bytes} {off : Nat} (length : a.length = off) (b : Bytes) (k : Nat) : getLe (a ++ b) off k = getLe b 0 k := by
  rw [getLe, getLe, List.drop_left' length, List.drop_zero]

/-- The 16 bytes of a descriptor. -/
def descBytes (addr len : Nat) : Bytes := leBytes 8 addr ++ leBytes 4 len ++ leBytes 4 0

theorem descBytes_addr (small : addr < 2 ^ 64) : getLe (descBytes addr len) 0 8 = addr := by
  rw [descBytes, List.append_assoc, getLe_front]
  exact Nat.mod_eq_of_lt small

theorem descBytes_len (small : len < 2 ^ 32) : getLe (descBytes addr len) 8 4 = len := by
  rw [descBytes, List.append_assoc, getLe_append (leBytes_length 8 addr), getLe_front]
  exact Nat.mod_eq_of_lt small

/-! ### A message is written (R483, R485) -/

/-- What a message that does not end its stream changes of it. -/
def Stream.wrote (st : Stream) (m : NextMsg) : Stream :=
  { st with
    seq := st.seq + 1, head := (st.head + 1) % st.depth, began := true, pos := if m.kind = 1 then st.pos else m.slba + m.nlb, ended := none
    ctx := none, covered := st.covered + m.nlb }

/-- The device once a message's bytes `b` are in its buffer and its descriptor is written back. -/
def Dev.messaged (d : Dev) (sid sl addr len stat : Nat) (st : Stream) (m : NextMsg) (b : Bytes) : Dev :=
  placeRun [sl] sid st.cls (((writeDesc st addr len stat (d.ask (.hostWrite st.fn addr b false))).modStream sid fun s => s.wrote m).bump
    VRV_CNT_MSG_SENT.COUNT 1)

theorem messaged_sent {stat : Nat} {b : Bytes} (clear : d.ideClear st.fn = true) :
    Sent d (d.messaged sid sl addr len stat st m b) (.hostWrite st.fn addr b false) := by
  have noted (f : Dev) : Quiet f (placeRun [sl] sid st.cls ((f.modStream sid fun s => s.wrote m).bump VRV_CNT_MSG_SENT.COUNT 1)) := by
    have counted : Quiet f ((f.modStream sid fun s => s.wrote m).bump VRV_CNT_MSG_SENT.COUNT 1) := .of_out rfl rfl
    exact counted.placeRun _ _ _
  have described (f : Dev) : Grows f (writeDesc st addr len stat f) := (Dev.ask_grows _ _).trans (trigger_grows _ _ _)
  exact ((Sent.hostWrite clear).trans_grows (described _)).trans_grows (noted _).out

theorem messaged_stream {stat : Nat} {b : Bytes} (stands : tget d.streams sid = some st) :
    tget (d.messaged sid sl addr len stat st m b).streams sid = some (st.wrote m) := by
  have described (f : Dev) : (writeDesc st addr len stat f).streams = f.streams := (Serves.trigger _ _ _).streams
  have changed (f : Dev) : ((f.modStream sid fun s => s.wrote m).bump VRV_CNT_MSG_SENT.COUNT 1).streams = tmod f.streams sid fun s => s.wrote m := rfl
  have asked : (d.ask (.hostWrite st.fn addr b false)).streams = d.streams := rfl
  rw [Dev.messaged, placeRun_streams, changed, described, asked, tget_tmod_same, stands]
  rfl

/-- A message whose computation agrees goes into its buffer, and its stream goes on. -/
theorem writeMsg_messaged {ctr : Nat} (agree : run.cmps = []) (more : m.kind ≠ 5) : ∃ b len stat,
    writeMsg sid sl addr ctr st n m run d = (compare2 sl m.text.length .agree d).2.messaged sid sl addr len stat st m b := by
  have last : (m.kind == 5) = false := by simpa using more
  unfold writeMsg
  simp only [nextCmp, agree, List.headD_nil]
  rw [compare2_agree]
  simp only [last, Bool.false_eq_true, or_false, if_false]
  exact ⟨_, _, _, rfl⟩

theorem takeCounter_left {k : Nat} (more : (d.slot k).exhausted = false) (left : (d.slot k).left ≠ 0) :
    ∃ ctr e, takeCounter k d = (some ctr, e) := by
  unfold takeCounter
  extract_lets
  rw [if_neg (show ¬((d.slot k).exhausted || (d.slot k).left = 0) = true by simp [more, left])]
  exact ⟨_, _, rfl⟩

/-- The plaintext of BEGIN (R486). -/
def beginMsg (st : Stream) (n : Ns) : NextMsg :=
  ⟨1, 0, 0, leBytes 8 (n.label st.base) ++ leBytes 8 (n.label st.target) ++ leBytes 8 st.size ++ leBytes 8 st.first, false⟩

/-- The device once a stream has read the next descriptor of its ring. -/
def Dev.descAsked (d : Dev) (sid : Nat) (st : Stream) : Dev :=
  d.ask (.hostRead st.fn (st.ringBase + 16 * st.head) 16 (.calvingDesc sid) false)

theorem nextMsg_begin (first : st.began = false) : nextMsg sl len st n run d = (.inl (beginMsg st n), run, d) := by
  rw [nextMsg, first]
  rfl

/-- A stream whose descriptor and key serve takes a counter value for its BEGIN and writes it. -/
theorem execCalveMessageWrite_begins {ctr : Nat} (ready : Ready.message sid addr len sl st n run s)
    (taken : takeCounter st.slot (s.dev.descAsked sid st) = (some ctr, e)) :
    execCalveMessageWrite sid run s = s.ok (writeMsg sid sl addr ctr st n (beginMsg st n) run e) := by
  obtain ⟨stands, sends, attached, going, first, noCtx, more, counted, free, whole, space, desc, place, aligned, pages, least, most, typed,
    unused, left, unblocked, serves, -, -⟩ := ready
  let d : Dev := s.dev.descAsked sid st
  have data : run.data = some (descBytes addr len) := desc
  have space' : d.ns st.nsid = some n := space
  have serves' : d.sliceFor run.slice = some sl := serves
  have whole' : d.is RIM_STATUS.ZEROIZED = false := whole
  have typed' : (d.slot st.slot).type = 3 := typed
  have unused' : (d.slot st.slot).exhausted = false := unused
  have left' : (d.slot st.slot).left ≠ 0 := left
  have unblocked' : d.rimeBlocked = false := unblocked
  have asked : s.dev.ask (.hostRead st.fn (st.ringBase + 16 * st.head) 16 (.calvingDesc sid) false) = d := rfl
  have waits : ¬((!st.send) = true ∨ st.detached = true ∨ st.ended.isSome = true ∨ st.head = st.tail ∨ s.dev.holding st.fn = true) := by
    simp [sends, attached, going, more, free]
  have fits : ¬(addr % 64 ≠ 0 ∨ len % 4096 ≠ 0 ∨ len < 2 * n.blockSize ∨ 2 ^ 24 + 4096 < len) := by omega
  simp only [execCalveMessageWrite, stands, asked, data, space', descBytes_addr place, descBytes_len (most.trans_lt (by decide))]
  rw [if_neg waits, if_neg fits, if_neg counted.not_ge]
  simp only [whole', typed', unused', unblocked', serves', noCtx, left', nextMsg_begin first, Bool.false_eq_true, false_and, and_false, ne_eq,
    not_true_eq_false, if_false]
  rw [show takeCounter st.slot d = (some ctr, e) from taken]

theorem execCalveMessageWrite_sends (ready : Ready.message sid addr len sl st n run s) : Does (.calveMessageWrite sid run) s fun t =>
    (∃ b, Sent s.dev t.dev (.hostWrite st.fn addr b false)) ∧
    tget t.dev.streams sid = some { st with seq := st.seq + 1, head := (st.head + 1) % st.depth, began := true } := by
  obtain ⟨stands, -, -, going, -, noCtx, -, -, -, -, -, -, -, -, -, -, -, -, unused, left, -, -, agree, clear⟩ := id ready
  let d : Dev := s.dev.descAsked sid st
  obtain ⟨ctr, e, taken⟩ : ∃ ctr e, takeCounter st.slot d = (some ctr, e) := takeCounter_left unused left
  have counted : Serves s.dev e ∧ Quiet s.dev e := by
    have serves : Serves s.dev d := .of_same rfl rfl rfl rfl
    have quiet : Quiet s.dev d := ⟨rfl, Dev.ask_grows _ _⟩
    have both : Serves d (takeCounter st.slot d).2 ∧ Quiet s.dev (takeCounter st.slot d).2 := ⟨.takeCounter _ _, quiet.takeCounter _⟩
    rw [taken] at both
    exact ⟨serves.trans both.1, both.2⟩
  obtain ⟨b, len', stat, written⟩ := writeMsg_messaged (sid := sid) (sl := sl) (addr := addr) (ctr := ctr) (st := st) (n := n) (d := e)
    (m := beginMsg st n) agree (by simp [beginMsg])
  let f : Dev := (compare2 sl (beginMsg st n).text.length .agree e).2
  have serves : Serves s.dev f := counted.1.trans (.compare2_agree _ _ _)
  have quiet : Quiet s.dev f := counted.2.compare2 _ _ _
  have run' : execCalveMessageWrite sid run s = s.ok (f.messaged sid sl addr len' stat st (beginMsg st n) b) := by
    rw [execCalveMessageWrite_begins ready taken, written]
  refine ⟨_, run', ⟨b, Sent.of_grows quiet.out (messaged_sent ((serves.ide st.fn).trans clear))⟩, ?_⟩
  have stands' : tget f.streams sid = some st := by rw [serves.streams, stands]
  refine (messaged_stream stands').trans (congrArg some ?_)
  simp [Stream.wrote, beginMsg, going, noCtx]

end

/-- Settles O25: the MAP record of a prune fits the pages that its batch may take (`pruneRec_npage_le`), so that it is assigned as it enters; the
destage of the replaced stripe stands whether its INTENT record enters or waits (`formRec_intent_destages`); and the counter value, the descriptor
and the interrupt of a first message leave its stream's entry to the message itself (`messaged_stream`). -/
theorem pruningCompactionAndStreamsAdvance : Obligations.PruningCompactionAndStreamsAdvance := by
  unfold Obligations.PruningCompactionAndStreamsAdvance
  refine ⟨?prunes, ?replaces, ?sends⟩
  case prunes =>
    exact fun pool pages nsid n es s room small only own pending noDeltas noReads batch nonempty =>
      execPrune_assigned room small only own pending noDeltas noReads batch nonempty
  case replaces =>
    exact fun pool k pages st x y s ready closes idle free next dead => execCompaction_replaces ready closes idle free next dead
  case sends => exact fun sid addr len sl st n run s ready => execCalveMessageWrite_sends ready

end Sys2Proof.Machine
end
